-- ==== Sys2Proof/Word.lean ====
section
/-! DEFINITION. The word types of the model and their plainest arithmetic. -/

namespace Sys2Proof

/-- A 64-bit register, engine register or address word (R8, R69). -/
abbrev W64 := BitVec 64
/-- A 128-bit memory word (R10). -/
abbrev Quad := BitVec 128
/-- A 64-byte item, cell or vault line (R181). -/
abbrev Item := BitVec 512
/-- The payload of one packet, up to 256 bytes, byte 0 lowest (R7, R211). -/
abbrev Payload := BitVec 2048
/-- A device address (R7). -/
abbrev Addr := BitVec 48
abbrev Byte := BitVec 8

/-- Engine Ee (R2). -/
abbrev Eng := Fin 16
/-- General register number g0 to g31 (R69). -/
abbrev Gpr := Fin 32
abbrev Tower := Fin 4
/-- Queue number (R184). -/
abbrev Qn := Fin 8192
abbrev Flow := Fin 16384
/-- Relay port Pp, and lane Pp.i (R2). -/
abbrev Port := Fin 16
abbrev Lane := Fin 8
/-- Power domain PDnn (R2, R333). -/
abbrev Pd := Fin 64
abbrev Pin := Fin 512
/-- UCIe module m (R15). -/
abbrev Module := Fin 4

end Sys2Proof
end

