-- ==== Sys2Proof/Syntax.lean ====
section
/-! DEFINITION. The commands of the MK9410: one constructor of Instr per row of spec/opcode_table.json, with the row's
operands, and the small types those operands are made of. -/

namespace Sys2Proof

/-- The three roles, in the encoding of STATUS.ROLE (R93, R280). -/
inductive Role where
  | operator | installer | maker
  deriving DecidableEq, Repr

/-- Who sends a request over the package network. -/
inductive Agent where
  /-- engine Ee, its DMA channels included -/
  | engine (e : Eng)
  /-- host mainband session s of UCIe module m (R281) -/
  | host (m : Module) (s : Fin 16)
  deriving DecidableEq, Repr

/-- The origin of a memory-mapped request: its sender and the tag its response returns (R211, R228). -/
structure Rq where
  agent : Agent
  tag : BitVec 10
  deriving DecidableEq, Repr

/-- The paths by which a message reaches the Referee (R377). -/
inductive RPath where
  | sideband (m : Module)
  | smbus
  | mailbox (slot : Fin 4)
  | tell (e : Eng)
  deriving DecidableEq, Repr

/-- What the SECDED check of a word read from an array found (R47, R163, R170). -/
inductive Ecc where
  | good | corrected | uncorrectable
  deriving DecidableEq, Repr

/-- A logical tile: logic die, row and logical column (R2, R3). -/
structure Tile where
  die : Fin 8
  row : Fin 64
  col : Fin 64
  deriving DecidableEq, Repr

/-- The header of a host transaction as it arrives (R228). -/
structure Hdr where
  kind : Byte
  session : Byte
  tag : BitVec 16
  resp : Byte
  length : Byte
  size : Byte
  zero7 : Byte
  addr : W64
  deriving DecidableEq, Repr

/-- The parts of a Ryulelo frame common to every kind, with what the receiver's CRC and GCM checks of it found
(R264, R265, R293). -/
structure Frm where
  seq : BitVec 24
  crcOk : Bool
  tagOk : Bool
  src : BitVec 12
  dst : BitVec 12
  deriving DecidableEq, Repr

/-- A token group's payload (R269). -/
structure TokenGroup where
  dgroup : BitVec 16
  attempt : BitVec 16
  lap : BitVec 32
  bits : BitVec 16
  data : Item
  deriving DecidableEq, Repr

/-- A baton's payload less its KIND (table Baton payload). -/
structure Baton where
  scratch : Bool
  retry : Bool
  halt : Bool
  withdrawn : Bool
  stop : Bool
  mismatch : Bool
  scause : Byte
  hcause : Byte
  origin : BitVec 12
  attempt : BitVec 16
  lap : W64
  pos : BitVec 6
  deriving DecidableEq, Repr

/-- The contents of a HELLO (R262). -/
structure Hello where
  id : BitVec 12
  mode : BitVec 2
  anchorId : BitVec 12
  port : BitVec 4
  role : BitVec 2
  deriving DecidableEq, Repr

/-- What a Ryulelo frame carries (*Frame kinds*). -/
inductive FrameBody where
  | token (g : TokenGroup)
  | baton (kind : Byte) (b : Baton)
  | flowItem (bridge : Nat) (pos : BitVec 32) (item : Item)
  | flowCredit (bridge : Nat) (credits : BitVec 16) (highest : BitVec 32)
  | hello (h : Hello)
  | boot (data : List Byte) (last : Bool)
  deriving DecidableEq, Repr

/-- A block received on a lane: its sync header, and its payload bits as they stand on the lane (R242). -/
structure LaneIn where
  lane : Lane
  hdr : BitVec 2
  bits : W64
  deriving DecidableEq, Repr

/-- A clock source with a monitor (R311). -/
inductive ClkSrc where
  | domLoop (t : Tower) (n : Fin 6)
  | pkgLoop (k : Fin 4)
  | fioT (t : Tower)
  | sioT (t : Tower)
  | refFio
  | refSio
  | xtala
  | xtalb
  | refclk
  deriving DecidableEq, Repr

/-- A clock domain with a CFG register: domain n of a tower, or package loop Pk (R313, R330). -/
inductive ClkDom where
  | dom (t : Tower) (n : Fin 6)
  | pkg (k : Fin 4)
  deriving DecidableEq, Repr

/-- The classes of test of which a tower runs at most one each (R352). -/
inductive TestSlot where
  | group (g : Fin 8)
  | tile
  | analog
  deriving DecidableEq, Repr

/-- How a split ended (R353, R354): at its budget, at the last step of the test with a number of faults found, or because
the clock or voltage window was left. -/
inductive SplitOutcome where
  | budget
  | last (faults : Nat)
  | window
  deriving DecidableEq, Repr

/-- A wire that the scan, the rail checks, SECDED syndromes or the port checks have attributed failures to (R366): a context-port wire of
a cluster, a memory-port wire of a bank's port A bundle, a base-to-layer control wire of a bundle. -/
inductive WireFault where
  | context (row : Fin 64) (pcol : Fin 65) (cluster : Fin 64)
  | memPort (bank : Fin 256)
  | control (layer : Fin 6) (bundle : Fin 16)
  deriving DecidableEq, Repr

/-- Which of the two configuration layers of a tower: L2 or L5. -/
inductive CfgLayer where
  | l2 | l5
  deriving DecidableEq, Repr

/-- The straps sampled at power-on (R382). -/
structure Straps where
  boot : BitVec 2
  ref : Bool
  ssc : Bool
  idle : Bool
  anchor : Bool
  lab : Bool
  bankv : BitVec 12
  deriving DecidableEq, Repr

/-- The requester of a device request to host memory that the host die answers (R231). -/
inductive DevReq where
  | dma (e : Eng) (ch : Fin 8)
  | imageLoader
  | ring (q : Qn)
  | writeBack (q : Qn)
  | eventUnit
  /-- a load, store or AMOADD of the engine's own -/
  | engine (e : Eng)
  deriving DecidableEq, Repr

/-- One queue-manager packet (QUEUE_OP, R211). -/
inductive QOp where
  | push (item : Item)
  | pop
  | grant (n : BitVec 16)
  | delivery (f : Flow)
  deriving DecidableEq, Repr

/-- One event message (R83, R236): a SIGNAL to an engine, or a record for the host. -/
inductive EvMsg where
  | toEngine (e : Eng) (bit : Fin 64) (data : W64)
  | toHost (type source : Byte) (index : BitVec 16) (data : W64)
  deriving DecidableEq, Repr

/-- What a MAINT packet does at its endpoint (R211): it carries scrub, test and frame traffic, here a frame word. -/
structure Maint where
  addr : Addr
  data : Quad
  deriving DecidableEq, Repr

/-- What the routers on a request's path find of it and of its response (R212): nothing; a word that they correct; an
uncorrectable or reserved header, at an input of a router; an uncorrectable payload word; the last two of the response; and an error
that the word of design memory at the address has come to hold (R170). -/
inductive Path where
  | clean
  | corrected (t : Tower) (r : Fin 24)
  | discarded (t : Tower) (r : Fin 24) (input : Fin 12)
  | poisoned
  | answerDiscarded (t : Tower) (r : Fin 24) (input : Fin 12)
  | answerPoisoned
  | arrayError (uncorr : Bool)
  deriving DecidableEq, Repr

/-- When the stand-in copier's write of the word it has read comes (R169): at once; later, so that a commit may write the word first; in
the very memory cycle in which a commit writes the word. -/
inductive CopyWrite where
  | atOnce | later | meets
  deriving DecidableEq, Repr

/-- What the queue manager finds on its way to an item (R205, R206): nothing; a single-bit or an uncorrectable error in the first word of
its cell; an uncorrectable error in the link memory's entry of its cell. -/
inductive CellFound where
  | clean | corrected | uncorrectable | link
  deriving DecidableEq, Repr

/-- The commands, one constructor per row of the table, in the table's order. -/
inductive Instr where
  -- Octuk instructions: `e` is the engine that executes the instruction at its program counter
  | nop (e : Eng)
  | add (e : Eng) (rd ra rb : Gpr)
  | sub (e : Eng) (rd ra rb : Gpr)
  | and (e : Eng) (rd ra rb : Gpr)
  | or (e : Eng) (rd ra rb : Gpr)
  | xor (e : Eng) (rd ra rb : Gpr)
  | shl (e : Eng) (rd ra rb : Gpr)
  | shr (e : Eng) (rd ra rb : Gpr)
  | sha (e : Eng) (rd ra rb : Gpr)
  | mul (e : Eng) (rd ra rb : Gpr)
  | min (e : Eng) (rd ra rb : Gpr)
  | max (e : Eng) (rd ra rb : Gpr)
  | cmp (e : Eng) (rd ra rb : Gpr)
  | mov (e : Eng) (rd ra : Gpr)
  | addi (e : Eng) (rd ra : Gpr) (imm : BitVec 46)
  | andi (e : Eng) (rd ra : Gpr) (imm : BitVec 46)
  | ori (e : Eng) (rd ra : Gpr) (imm : BitVec 46)
  | xori (e : Eng) (rd ra : Gpr) (imm : BitVec 46)
  | lui (e : Eng) (rd : Gpr) (imm : BitVec 51)
  | b (e : Eng) (disp : BitVec 56)
  | beq (e : Eng) (ra rb : Gpr) (disp : BitVec 41)
  | bne (e : Eng) (ra rb : Gpr) (disp : BitVec 41)
  | blt (e : Eng) (ra rb : Gpr) (disp : BitVec 41)
  | bge (e : Eng) (ra rb : Gpr) (disp : BitVec 41)
  | call (e : Eng) (disp : BitVec 56)
  | ret (e : Eng)
  | ld (e : Eng) (rd ra : Gpr) (sp w : Bool) (disp : BitVec 41)
  | st (e : Eng) (rd ra : Gpr) (sp w : Bool) (disp : BitVec 41)
  | ldq (e : Eng) (rd ra : Gpr) (sp : Bool) (disp : BitVec 41)
  | stq (e : Eng) (rd ra : Gpr) (sp : Bool) (disp : BitVec 41)
  | amoadd (e : Eng) (rd ra rb : Gpr) (sp : Bool) (disp : BitVec 40)
  /-- the answer to the store outstanding at position `i`, oldest 0, arrives -/
  | storeResponse (e : Eng) (i : Fin 16)
  | move (e : Eng) (rd ra rb : Gpr) (op32 : BitVec 32)
  | dmaDone (e : Eng) (ch : Fin 8)
  | mwait (e : Eng) (rd : Gpr) (op32 : BitVec 32)
  | arm (e : Eng) (ra : Gpr) (op32 : BitVec 32)
  | wait (e : Eng) (rd ra : Gpr) (op32 : BitVec 32)
  | waitTimeout (e : Eng)
  | timer (e : Eng) (bit : Fin 64)
  | signal (e : Eng) (ra : Gpr) (op32 : BitVec 32)
  | lapRun (e : Eng) (rd ra : Gpr)
  | lapStop (e : Eng) (rd : Gpr) (op32 : BitVec 32)
  | lapStep (e : Eng) (rd : Gpr)
  | lapStat (e : Eng) (rd : Gpr) (op32 : BitVec 32)
  | lapStatCount (e : Eng) (rd : Gpr)
  | ctxLoad (e : Eng) (rd ra rb : Gpr) (op32 : BitVec 32)
  | ctxAct (e : Eng) (rd : Gpr)
  | ctxChk (e : Eng) (rd ra rb : Gpr)
  | qPush (e : Eng) (rd ra rb : Gpr)
  | qPop (e : Eng) (rd ra rb : Gpr)
  | qCred (e : Eng) (rd ra : Gpr) (op32 : BitVec 32)
  | pwrQuery (e : Eng) (rd ra : Gpr)
  | pwrRun (e : Eng) (rd ra : Gpr)
  | pwrSleep (e : Eng) (rd ra : Gpr)
  | pwrDeep (e : Eng) (rd ra : Gpr)
  | pwrOff (e : Eng) (rd ra : Gpr)
  | pwrSetCap (e : Eng) (rd ra : Gpr)
  | bankMarch (e : Eng) (rd ra : Gpr)
  | standinMarch (e : Eng) (rd ra : Gpr)
  | tileScan (e : Eng) (rd ra : Gpr)
  | laneLoop (e : Eng) (rd ra : Gpr)
  | loopCheck (e : Eng) (rd ra : Gpr)
  | sensorRef (e : Eng) (rd ra : Gpr)
  | vmonCheck (e : Eng) (rd ra : Gpr)
  | sweep (e : Eng) (rd ra : Gpr)
  | cntrd (e : Eng) (rd ra : Gpr) (op32 : BitVec 32)
  | tell (e : Eng) (rd ra : Gpr) (op32 : BitVec 32)
  | fence (e : Eng) (op32 : BitVec 32)
  | trap (e : Eng) (op32 : BitVec 32)
  | eret (e : Eng)
  | srr (e : Eng) (rd : Gpr) (op32 : BitVec 32)
  | srw (e : Eng) (ra : Gpr) (op32 : BitVec 32)
  | halt (e : Eng) (ra : Gpr)
  | nmiTaken (e : Eng)
  | counterOverflow (e : Eng) (n : Fin 8)
  | watchdog (e : Eng)
  | commandDispatch (e : Eng)
  | dmaClr (e : Eng) (ch : Fin 8)
  | swap (e : Eng)
  | refusedClr (e : Eng)
  -- fabric and laps
  | contextDelivery (x : Tile) (k : Fin 64) (pair : Fin 8) (ecc : Ecc)
  | stepGo (t : Tower) (pads : BitVec 512)
  /-- `bad`: the cell meets an uncorrectable word of its state store, or the state (1,1) on a rail pair -/
  | cellFire (x : Tile) (k : Fin 64) (c : Fin 16) (bad : Bool)
  | stepComplete (t : Tower)
  | portAReadReturn (t : Tower) (bank : Fin 256) (ecc : Ecc)
  | stepLimitExpiry (t : Tower)
  | lapRetryStart
  | gather (pads : BitVec 512)
  /-- what the check of an entry of the commit buffers, oldest first, found before commit (R164) -/
  | lapCommit (entry : Option (Nat × Ecc))
  | stop (rq : Rq)
  | clrTorn (rq : Rq)
  | lapCount (rq : Rq) (v : W64)
  | lapPos (rq : Rq) (v : W64)
  | lapKind (rq : Rq) (k : Fin 8) (v : W64)
  | lapSched (rq : Rq) (i : Fin 64) (v : W64)
  | actAt (rq : Rq) (v : W64)
  | loadCtrlDiscard (rq : Rq)
  | trigCtrl (rq : Rq) (i : Fin 16) (reg : Fin 4) (v : W64)
  | bench (rq : Rq) (i : Fin 8) (v : W64)
  | logCtrl (rq : Rq) (v : W64)
  | traceCtrl (rq : Rq) (t : Tower) (v : W64)
  | snap (rq : Rq)
  | loadHeaderChecks
  /-- the next record; of a FULL image past section 0, the next record of tower `t`'s section -/
  | loadFrameRecord (t : Tower)
  | loadTimeout
  -- design memory
  | bankOwner (rq : Rq) (t : Tower) (bank : Fin 256) (v : W64)
  | handoverComplete (t : Tower) (bank : Fin 256)
  | eccWriteBack (t : Tower) (bank : Fin 256) (word : Fin 262144)
  | eccClear (rq : Rq) (t : Tower)
  | copyIn (t : Tower) (g : Fin 8) (word : Fin 262144)
  | copyBack (t : Tower) (g : Fin 8) (word : Fin 262144) (writes : CopyWrite)
  -- queues and flows
  | push (rq : Rq) (q : Qn) (item : Item)
  | credit (rq : Rq) (q : Qn) (v : W64)
  | ringPi (rq : Rq) (q : Qn) (v : W64)
  | ringCi (rq : Rq) (q : Qn) (v : W64)
  | ringFetch (q : Qn)
  | ringWrite (q : Qn) (found : CellFound)
  | streamDelivery (f : Flow) (found : CellFound)
  | fabricCreditGrant (q : Qn)
  | flowWatchdogExpiry (f : Flow)
  | qBind (rq : Rq) (q : Qn) (v : W64)
  | skip (rq : Rq) (q : Qn)
  | qCtrlReset (rq : Rq) (q : Qn)
  | qResetDone (q : Qn)
  | poolBank (rq : Rq) (i : Fin 64) (v : W64)
  | flowQueues (rq : Rq) (f : Flow) (v : W64)
  | flowBind (rq : Rq) (f : Flow) (v : W64)
  | flowPos (rq : Rq) (f : Flow) (v : W64)
  -- package network
  | read (rq : Rq) (addr : Addr) (len : Nat) (path : Path)
  | write (rq : Rq) (addr : Addr) (len : Nat) (data : Payload) (path : Path)
  | writePosted (rq : Rq) (addr : Addr) (len : Nat) (data : Payload) (path : Path)
  | amoaddRequest (rq : Rq) (addr : Addr) (v : W64) (path : Path)
  | readResp (rq : Rq)
  | writeResp (rq : Rq)
  | event (m : EvMsg)
  | notifyHoldoffEnd
  | queueOp (rq : Rq) (q : Qn) (op : QOp)
  | maint (m : Maint)
  /-- a frame goes from the section of tower `t` to that of tower `u` -/
  | relay (t u : Tower) (src dst : BitVec 12) (body : FrameBody)
  | requestTimeout (rq : Rq)
  | routerCfg (rq : Rq) (t : Tower) (r : Fin 24) (v : W64)
  | routerHoldDrained (t : Tower) (r : Fin 24)
  | routerHoldTimeout (t : Tower) (r : Fin 24)
  | wakeHoldExpiry (d : Pd)
  -- host channel
  | hRead (m : Module) (h : Hdr)
  | hWrite (m : Module) (h : Hdr) (data : Payload)
  | hWritePosted (m : Module) (h : Hdr) (data : Payload)
  | completion (who : DevReq) (resp : Byte) (addr : Addr) (data : Quad)
  | mainbandDown (m : Module)
  | mainbandUp (m : Module) (x32 : Bool) (speed : Byte) (repaired : Byte)
  /-- the sideband is up, and the host die reads the sideband register at an offset, or none -/
  | sidebandLinkUp (m : Module) (read : Option Byte)
  | sbHostmem (m : Module) (v : W64)
  | hrBase (rq : Rq) (n : Fin 64) (v : W64)
  | hrLimit (rq : Rq) (n : Fin 64) (v : W64)
  | evringCi (rq : Rq) (v : W64)
  | perstN
  -- relay lanes
  | portEnable (rq : Rq) (p : Port)
  | portDisable (rq : Rq) (p : Port)
  | farLoop (rq : Rq) (p : Port)
  | nearLoop (rq : Rq) (p : Port) (i : Lane)
  | retire (rq : Rq) (p : Port) (i : Lane)
  | clrFail (rq : Rq) (p : Port) (i : Lane)
  | laneEq (rq : Rq) (p : Port) (i : Lane) (v : W64)
  /-- the sync headers that the lane's receiver sees, one after another -/
  | laneLock (p : Port) (i : Lane) (hs : List (BitVec 2))
  | lossOfLock (p : Port) (i : Lane) (hs : List (BitVec 2))
  | refFault (p : Port) (i : Lane)
  | acqLimitExpiry (p : Port)
  /-- fill, and whatever else the lanes bring that is no block of another command -/
  | idle (p : Port) (bs : List LaneIn)
  | train (p : Port) (i : Lane) (locked deskewed outside : Bool)
  | align (p : Port) (skew : Vector (BitVec 8) 8)
  | alignSend (p : Port)
  | map (p : Port) (entries : BitVec 32)
  | mapReq (p : Port) (unusable spares : BitVec 8)
  | idleEnter (p : Port)
  | idleAfterExpiry (p : Port)
  /-- `long`: the idle lasted longer than IDLE_LONG -/
  | idleExit (p : Port) (long : Bool)
  -- chains
  | token (p : Port) (f : Frm) (g : TokenGroup)
  | ready (p : Port) (f : Frm) (b : Baton)
  | go (p : Port) (f : Frm) (b : Baton)
  | done (p : Port) (f : Frm) (b : Baton)
  | commit (p : Port) (f : Frm) (b : Baton)
  | scratch (p : Port) (f : Frm) (b : Baton)
  | query (p : Port) (f : Frm) (b : Baton)
  | alive (p : Port) (f : Frm)
  | aliveSend (p : Port)
  | batonLimitExpiry (p : Port)
  | flowItem (p : Port) (f : Frm) (bridge : Fin 64) (pos : BitVec 32) (item : Item)
  | flowCredit (p : Port) (f : Frm) (bridge : Fin 64) (credits : BitVec 16) (highest : BitVec 32)
  | hello (p : Port) (f : Frm) (h : Hello)
  | authenticationHello (p : Port) (nonce : W64) (h : Hello) (accepted : Option (Fin 64))
  | enrolmentTimeout (p : Port)
  | boot (p : Port) (f : Frm) (data : List Byte) (last : Bool)
  /-- `ok`: the check byte is right -/
  | ack (p : Port) (next : BitVec 24) (credits : BitVec 24) (ok : Bool)
  | nak (p : Port) (next : BitVec 24) (credits : BitVec 24) (ok : Bool)
  | replayTimeout (p : Port)
  | chainCfg (rq : Rq) (v : W64)
  | bridgeCfg (rq : Rq) (n : Fin 64) (v : W64)
  | chainCtrlDiscard (rq : Rq)
  -- security and vault
  | enrolGo (rq : Rq) (v : W64)
  | enrolRemove (rq : Rq) (v : W64)
  | labEn (rq : Rq)
  | vrCfg (rq : Rq) (n : Fin 64) (v : W64)
  | init (rq : Rq) (n : Fin 64)
  | vaultInitDone (n : Fin 64)
  | reinit (rq : Rq) (n : Fin 64)
  | reinitDone (j : Fin 32)
  | vaultVerdict (n : Fin 64) (line : Nat) (tagOk : Bool) (badNode : Option (Nat × Nat))
  | challengeExpiry (sess : Fin 69)
  | lockoutEnd
  -- clocks
  | clockSwitch (rq : Rq) (d : ClkDom) (sel : BitVec 2)
  | loopProgram (rq : Rq) (d : ClkDom) (v : W64)
  | loopLocked (d : ClkDom)
  | loopReady (d : ClkDom)
  | monitorWindow (src : ClkSrc) (count : BitVec 16)
  | domainStoppedTimeout (d : ClkDom)
  | clkgateMode (rq : Rq) (v : W64)
  | gateClose (t : Tower) (b : Fin 11)
  | gateTimeout (t : Tower) (b : Fin 11)
  -- power and temperature
  | pdReqRun (rq : Rq) (d : Pd)
  | pdReqSleep (rq : Rq) (d : Pd)
  | pdReqDeep (rq : Rq) (d : Pd)
  | pdReqOff (rq : Rq) (d : Pd)
  | sequenceComplete (d : Pd)
  | domainStart
  | railUndervoltage (d : Pd)
  | vinLow
  | vinOvervoltage
  | vinRestored
  | temperatureConversion (readings : List (BitVec 16))
  | tshut
  | thermalLevelUpdate (t : Tower)
  | powerLevelUpdate (pin : BitVec 16) (heldBelow : Bool)
  | vinCapRecompute (vin : BitVec 16) (iin : BitVec 16) (ilim : Bool)
  | powerCapTimeout
  -- test and repair
  /-- `wires`: those that have failed by then (R366) -/
  | splitEnd (t : Tower) (slot : TestSlot) (o : SplitOutcome) (wires : List WireFault)
  | sweepStart (t : Tower)
  | testRetry (t : Tower) (slot : TestSlot)
  | preCopyComplete (t : Tower)
  | scrubFrame (t : Tower) (l : CfgLayer) (corrected : Nat) (crcOk : Bool)
  | scrubParameterReload (t : Tower)
  | scrubWatchdog (t : Tower) (l : CfgLayer)
  | fuseCommit (rq : Rq) (t : Tower)
  -- the Referee
  | readId (p : RPath) (tag : BitVec 16) (arg : W64)
  | readBb (p : RPath) (tag : BitVec 16) (arg : W64)
  | readEnv (p : RPath) (tag : BitVec 16) (arg : W64)
  | forceOff (p : RPath) (tag : BitVec 16) (arg : W64)
  | resetPackage (p : RPath) (tag : BitVec 16)
  | resetTower (p : RPath) (tag : BitVec 16) (t : Tower)
  | resetLayer (p : RPath) (tag : BitVec 16) (t : Tower) (layer : Fin 8)
  | resetEngine (p : RPath) (tag : BitVec 16) (e : Eng)
  | layerResetProceed (t : Tower) (layer : Fin 6)
  | resetRelease (t : Tower)
  | resetN
  | powerOnReset (straps : Straps)
  | freeze (p : RPath) (tag : BitVec 16) (arg : W64)
  | dumpEngine (p : RPath) (tag : BitVec 16) (arg : W64)
  | dumpFreezeTimeout (p : RPath) (tag : BitVec 16) (arg : W64)
  | thawEngine (p : RPath) (tag : BitVec 16) (arg : W64)
  | zeroise (p : RPath) (tag : BitVec 16) (arg : W64)
  | sessionOpen (p : RPath) (tag : BitVec 16) (arg : W64)
  | sessionProve (p : RPath) (tag : BitVec 16) (arg : W64) (payload : List Byte)
  | sessionClose (p : RPath) (tag : BitVec 16) (arg : W64)
  | sessionClaim (p : RPath) (tag : BitVec 16) (arg : W64) (payload : List Byte)
  | powerRestore (p : RPath) (tag : BitVec 16) (arg : W64)
  | mcLoad (p : RPath) (tag : BitVec 16) (arg : W64)
  | bootImage (p : RPath) (tag : BitVec 16) (arg : W64)
  | bootImageFetched
  | testUnlock (p : RPath) (tag : BitVec 16) (arg : W64)
  | fuseProgram (p : RPath) (tag : BitVec 16) (arg : W64) (payload : List Byte)
  | setTime (p : RPath) (tag : BitVec 16) (arg : W64) (payload : List Byte)
  | residentReload (p : RPath) (tag : BitVec 16) (arg : W64)
  | state
  | alerts
  | alertsClear (v : BitVec 16)
  | reqPart (bytes : List Byte)
  | reqEnd (bytes : List Byte)
  | ansPart
  | mbxGo (rq : Rq) (slot : Fin 4)
  | mbxRelease (rq : Rq) (slot : Fin 4)
  | heartbeatTimeout
  | replicaRestart (selfTestOk : Bool)
  -- target pins
  | pinOwn (rq : Rq) (p : Pin) (v : W64)
  | pinCfg (rq : Rq) (p : Pin) (v : W64)
  | parkEnd (p : Pin)
  | gpioSet (rq : Rq) (i : Fin 8) (v : W64)
  | gpioClr (rq : Rq) (i : Fin 8) (v : W64)
  | gpioTgl (rq : Rq) (i : Fin 8) (v : W64)
  | dout (rq : Rq) (i : Fin 8) (v : W64)
  | patternMatch (n : Fin 32) (pads : BitVec 512)
  | matchEnd (n : Fin 32) (pads : BitVec 512)
  | forceRelease (rq : Rq) (k : Fin 16)
  | trigoutPulseEnd
  -- registers with no behaviour of their own, and the rows added last
  | registerWrite (rq : Rq) (addr : Addr) (len : Nat) (v : W64)
  | vendorDefinedMessage (m : Module) (bytes : List Byte)
  | splitStart (t : Tower) (slot : TestSlot) (windowOk : Bool)
  | clockSwitchComplete (d : ClkDom)
  | scrubberCopyDisagrees (t : Tower) (l : CfgLayer) (allThree : Bool)
  deriving DecidableEq, Repr

end Sys2Proof
end

