-- ==== Sys2Proof/Decode.lean ====
section
/-! DEFINITION. The Octuk instruction that a 64-bit word spells, and the commands that words of the opcode table spell (R79, R80). -/

namespace Sys2Proof

/-- The command that a word spells by the table's bits. The table gives bits to none of its rows: the block takes commands,
not instruction words, so no word spells one (notes/assumptions 2). -/
def decodeTableWord (_nbits _w : Nat) : Option Instr := none

/-! ### Fields of an instruction word (R79) -/

def wordOp (w : W64) : Nat := (w.extractLsb' 56 8).toNat
def wordRd (w : W64) : Gpr := (w.extractLsb' 51 5).toFin
def wordRa (w : W64) : Gpr := (w.extractLsb' 46 5).toFin
def wordRb (w : W64) : Gpr := (w.extractLsb' 41 5).toFin
def wordOp32 (w : W64) : BitVec 32 := w.extractLsb' 0 32

/-- The `n` bits from bit `lo` are zero. -/
def zeroBits (w : W64) (lo n : Nat) : Bool := w.extractLsb' lo n == 0

/-! ### *Instruction formats* -/

def decodeR (w : W64) (f : Gpr → Gpr → Gpr → Instr) : Option Instr :=
  if zeroBits w 0 41 then some (f (wordRd w) (wordRa w) (wordRb w)) else none

def decodeI (w : W64) (f : Gpr → Gpr → BitVec 46 → Instr) : Option Instr :=
  some (f (wordRd w) (wordRa w) (w.extractLsb' 0 46))

def decodeJ (w : W64) (f : BitVec 56 → Instr) : Option Instr := some (f (w.extractLsb' 0 56))

def decodeC (w : W64) (f : Gpr → Gpr → BitVec 41 → Instr) : Option Instr :=
  if zeroBits w 51 5 then some (f (wordRa w) (wordRb w) (w.extractLsb' 0 41)) else none

/-- M: S in [45], W in [44]. -/
def decodeM (w : W64) (f : Gpr → Gpr → Bool → Bool → BitVec 41 → Instr) : Option Instr :=
  if zeroBits w 41 3 then some (f (wordRd w) (wordRa w) (w.getLsbD 45) (w.getLsbD 44) (w.extractLsb' 0 41)) else none

/-- M with W zero. -/
def decodeMQuad (w : W64) (f : Gpr → Gpr → Bool → BitVec 41 → Instr) : Option Instr :=
  if zeroBits w 41 4 then some (f (wordRd w) (wordRa w) (w.getLsbD 45) (w.extractLsb' 0 41)) else none

/-- X: bits [40:32] zero. Of the register fields, those that the instruction does not use are zero (R80). OP32 bits that its
description does not name are ignored (notes/assumptions 76). -/
def decodeX (w : W64) (rd ra rb : Bool) (i : Option Instr) : Option Instr :=
  if zeroBits w 32 9 && (rd || zeroBits w 51 5) && (ra || zeroBits w 46 5) && (rb || zeroBits w 41 5) then i else none

/-- PWR: the action in OP32[2:0]; 6 and 7 are illegal. -/
def decodePwr (e : Eng) (w : W64) : Option Instr :=
  match (w.extractLsb' 0 3).toNat with
  | 0 => some (.pwrQuery e (wordRd w) (wordRa w))
  | 1 => some (.pwrRun e (wordRd w) (wordRa w))
  | 2 => some (.pwrSleep e (wordRd w) (wordRa w))
  | 3 => some (.pwrDeep e (wordRd w) (wordRa w))
  | 4 => some (.pwrOff e (wordRd w) (wordRa w))
  | 5 => some (.pwrSetCap e (wordRd w) (wordRa w))
  | _ => none

/-- SPLIT: the kind in OP32[3:0]; 8 to 15 are illegal. -/
def decodeSplit (e : Eng) (w : W64) : Option Instr :=
  match (w.extractLsb' 0 4).toNat with
  | 0 => some (.bankMarch e (wordRd w) (wordRa w))
  | 1 => some (.standinMarch e (wordRd w) (wordRa w))
  | 2 => some (.tileScan e (wordRd w) (wordRa w))
  | 3 => some (.laneLoop e (wordRd w) (wordRa w))
  | 4 => some (.loopCheck e (wordRd w) (wordRa w))
  | 5 => some (.sensorRef e (wordRd w) (wordRa w))
  | 6 => some (.vmonCheck e (wordRd w) (wordRa w))
  | 7 => some (.sweep e (wordRd w) (wordRa w))
  | _ => none

/-- *Opcodes*: the instruction that the word spells when engine `e` executes it. None is the trap ILLEGAL: an unassigned opcode, a
zero field that is not zero, or an action or kind that the description calls illegal. -/
def decodeOctuk (e : Eng) (w : W64) : Option Instr :=
  match wordOp w with
  | 0x00 => if w = 0 then some (.nop e) else none
  | 0x01 => decodeR w (.add e)
  | 0x02 => decodeR w (.sub e)
  | 0x03 => decodeR w (.and e)
  | 0x04 => decodeR w (.or e)
  | 0x05 => decodeR w (.xor e)
  | 0x06 => decodeR w (.shl e)
  | 0x07 => decodeR w (.shr e)
  | 0x08 => decodeR w (.sha e)
  | 0x09 => decodeR w (.mul e)
  | 0x0A => decodeR w (.min e)
  | 0x0B => decodeR w (.max e)
  | 0x0C => decodeR w (.cmp e)
  | 0x0D => if zeroBits w 41 5 then decodeR w (fun rd ra _ => .mov e rd ra) else none
  | 0x10 => decodeI w (.addi e)
  | 0x11 => decodeI w (.andi e)
  | 0x12 => decodeI w (.ori e)
  | 0x13 => decodeI w (.xori e)
  | 0x14 => some (.lui e (wordRd w) (w.extractLsb' 0 51))
  | 0x20 => decodeJ w (.b e)
  | 0x21 => decodeC w (.beq e)
  | 0x22 => decodeC w (.bne e)
  | 0x23 => decodeC w (.blt e)
  | 0x24 => decodeC w (.bge e)
  | 0x25 => decodeJ w (.call e)
  | 0x26 => if zeroBits w 0 56 then some (.ret e) else none
  | 0x30 => decodeM w (.ld e)
  | 0x31 => decodeM w (.st e)
  | 0x32 => decodeMQuad w (.ldq e)
  | 0x33 => decodeMQuad w (.stq e)
  | 0x34 => some (.amoadd e (wordRd w) (wordRa w) (wordRb w) (w.getLsbD 40) (w.extractLsb' 0 40))
  | 0x38 => decodeX w true true true (some (.move e (wordRd w) (wordRa w) (wordRb w) (wordOp32 w)))
  | 0x39 => decodeX w true false false (some (.mwait e (wordRd w) (wordOp32 w)))
  | 0x40 => decodeX w true true false (some (.wait e (wordRd w) (wordRa w) (wordOp32 w)))
  | 0x41 => decodeX w false true false (some (.signal e (wordRa w) (wordOp32 w)))
  | 0x42 => decodeX w false true false (some (.arm e (wordRa w) (wordOp32 w)))
  | 0x48 => decodeX w true true false (some (.lapRun e (wordRd w) (wordRa w)))
  | 0x49 => decodeX w true false false (some (.lapStop e (wordRd w) (wordOp32 w)))
  | 0x4A => decodeX w true false false (some (.lapStep e (wordRd w)))
  | 0x4B => decodeX w true false false (some (.lapStat e (wordRd w) (wordOp32 w)))
  | 0x50 => decodeX w true true true (some (.ctxLoad e (wordRd w) (wordRa w) (wordRb w) (wordOp32 w)))
  | 0x51 => decodeX w true false false (some (.ctxAct e (wordRd w)))
  | 0x52 => decodeX w true true true (some (.ctxChk e (wordRd w) (wordRa w) (wordRb w)))
  | 0x58 => decodeX w true true true (some (.qPush e (wordRd w) (wordRa w) (wordRb w)))
  | 0x59 => decodeX w true true true (some (.qPop e (wordRd w) (wordRa w) (wordRb w)))
  | 0x5A => decodeX w true true false (some (.qCred e (wordRd w) (wordRa w) (wordOp32 w)))
  | 0x60 => decodeX w true true false (decodePwr e w)
  | 0x61 => decodeX w true true false (decodeSplit e w)
  | 0x68 => decodeX w true true false (some (.cntrd e (wordRd w) (wordRa w) (wordOp32 w)))
  | 0x70 => decodeX w true true false (some (.tell e (wordRd w) (wordRa w) (wordOp32 w)))
  | 0x71 => decodeX w false false false (some (.fence e (wordOp32 w)))
  | 0x72 => decodeX w false false false (some (.trap e (wordOp32 w)))
  | 0x73 => decodeX w false false false (some (.eret e))
  | 0x74 => decodeX w true false false (some (.srr e (wordRd w) (wordOp32 w)))
  | 0x75 => decodeX w false true false (some (.srw e (wordRa w) (wordOp32 w)))
  | 0x76 => decodeX w false true false (some (.halt e (wordRa w)))
  | _ => none

end Sys2Proof
end

