-- ==== Sys2Proof/Config.lean ====
section
/-! DEFINITION. What the manual leaves open or to mathematics outside it: uninterpreted constants with no body. Nothing in
Lean can evaluate them, so a statement about them holds for every value (notes/assumptions 3, 4 and 5). -/

namespace Sys2Proof.Config

/-- The `n`-th wait, in cycles of the clock concerned, that the manual gives no figure for. -/
opaque freeCycles : Nat → W64
/-- The value of the real-time counter when the `n`-th record is made (R391's TIME). -/
opaque freeTime : Nat → W64
/-- The `n`-th 64 bits that the on-chip random generator gives (R282, R291, R300). -/
opaque freeRandom : Nat → W64
/-- What a read of undefined committed state returns, after a TORN reset (R56). -/
opaque freeQuad : Nat → Quad
/-- What word `w` of host memory holds of a vault region with keys of draw `k` that are destroyed, or that has left the place (R309). -/
opaque vaultCiphertext (k w : Nat) : Quad
/-- The `n`-th measured value, of a meter or monitor, that a command does not carry. -/
opaque freeMeasure : Nat → BitVec 16

/-- What counter `c` of unit `u` reads at the `n`-th live reading, where it counts what no command carries: cycles, flits,
corrections (R149, R153). -/
opaque freeCount (u c n : Nat) : W64
/-- Whether counter `c` of unit `u`, where it counts what no command carries, has wrapped at the `n`-th look (R149). -/
opaque freeWrap (u c n : Nat) : Bool

/-- The power of tower `t`, and the input energy of the package, at the `n`-th reading (R349). -/
opaque freePower (t n : Nat) : BitVec 16
opaque freeEnergy (n : Nat) : W64

/-- The `n`-th 64-bit value that the manual gives an effect but no value for: TVAL of a trap for which it names none, the PC of a
completion item without a program, rd of PWR action 5. -/
opaque freeWord : Nat → W64

/-- The `n`-th measured value of lane `i` of port `p`: 0 the equaliser's coefficients, 1 PRBS bit errors (R247, R258). -/
opaque freeLane (what p i n : Nat) : W64

/-- Which of the engines that run a program goes on next, at the `n`-th choice: the manual gives no order among them. -/
opaque freePick : Nat → Nat

/-- The module's fused XTALA frequency in kilohertz (R313). -/
opaque xtalaKHz : Nat

/-- The SHA-384 digest of a byte string (R101, R102, R288). -/
opaque sha384 : List Byte → BitVec 384
/-- ECDSA P-384 verification of signature r ‖ s on a digest under the public key X ‖ Y (R101, R282). -/
opaque ecdsaVerify : BitVec 768 → BitVec 384 → BitVec 768 → Bool
/-- AES-256 of one block (R292, R301). -/
opaque aes256 : BitVec 256 → Quad → Quad
/-- The ECDH P-384 secret that the device's agreement key shares with the public key X ‖ Y (R291). -/
opaque ecdhSecret : BitVec 768 → BitVec 384
/-- Whether X ‖ Y is a point of the curve P-384 (ENROL_CTRL result codes). -/
opaque onCurve : BitVec 768 → Bool
/-- Whether a certificate verifies under the maker authority for an identity key (R290). -/
opaque certVerify : List Byte → BitVec 768 → Bool
/-- The identity key and agreement key derived from the fused seed, and the proofs of the identity bundle (R288): the
64-bit word at offset 8i of the bundle. -/
opaque identityWord : Nat → W64
/-- CERT_LEN (R288). -/
opaque certLen : Fin 1025
/-- The bytes of lane control block type `ty` that the manual gives no meaning: those of the whole word, of which the block uses the
upper ones (*Lane control block types*). -/
opaque blockPad (ty : Nat) : W64
/-- The payload header of a FLOW_ITEM, a FLOW_CREDIT payload and a HELLO payload, whose layouts the manual does not give. -/
opaque flowItemHead (bridge : Nat) (pos : BitVec 32) : BitVec 128
opaque flowCreditWord (bridge : Nat) (credits : BitVec 16) (highest : BitVec 32) : BitVec 128
opaque helloWords (id : BitVec 12) (mode : BitVec 2) (anchor : BitVec 12) (port : BitVec 4) (role : BitVec 2) : BitVec 256
/-- The SHA-384 digest of the maker public key, in fuses (R282). -/
opaque makerDigest : BitVec 384
/-- The maker's public key that verifies boot and microcode images (R127). -/
opaque makerKey : BitVec 768
/-- The resident-area image, 1,024 words, that the payloads of a boot image give; their inner layout is not in the manual
(R383). -/
opaque residentImage : List Byte → List Quad
/-- The version that a microcode image's signed header gives (MC_STAT). -/
opaque microcodeVersion : List Byte → BitVec 16

end Sys2Proof.Config
end

