-- ==== Sys2Proof/Machine/State.lean ====
section
/-! DEFINITION. The machine's state as plain data: the register space, every memory, and the state that no register
shows, the reasons to stop, and the state after reset. -/

namespace Sys2Proof.Machine

/-- A map from keys to values in canonical form: keys strictly rising, no entry equal to what an unlisted key reads as. -/
abbrev Sparse (α : Type) := List (Nat × α)

/-- The state of a DMA channel (DMAn_STAT.STATE, R82). -/
inductive ChanState where
  | idle | busy | halted
  deriving DecidableEq, Repr

/-- The operation a busy channel carries out: a MOVE (spaces 0 device, 1 data scratchpad, 2 instruction scratchpad), an image
load, or the dispatcher's copy of `n` instructions from device address `src` to instruction index `at_` (R96). -/
inductive DmaOp where
  | move (ssp dsp : Nat) (src dst : Nat) (len : Nat)
  | image
  | program (src n at_ : Nat)
  deriving DecidableEq, Repr

/-- One DMA channel (R82, DMAn_STAT). -/
structure Chan where
  state : ChanState := .idle
  op : Option DmaOp := none
  bytes : BitVec 32 := 0
  /-- the role under which the channel moves data -/
  role : Role := .operator
  resp : Byte := 0
  ctx : Bool := false
  verdictWait : Bool := false
  /-- vault lines read by the operation whose verdicts are outstanding (R303) -/
  lines : List Nat := []
  result : BitVec 16 := 0
  deriving DecidableEq, Repr

/-- An event bit's binding (R83): source class and argument. -/
structure Binding where
  bit : Fin 64
  cls : Fin 16
  arg : W64
  deriving DecidableEq, Repr

/-- A store that has not been answered to the engine (R76): its address, and the answer on its way; none while the store is
held on its path (R221, R222). -/
structure Store where
  addr : W64
  resp : Option Byte
  /-- issued by a program that has ended -/
  old : Bool := false
  deriving DecidableEq, Repr

/-- What a load does with the word that arrives: LD, LD.W, LDQ, or AMOADD with its addend. -/
inductive LoadForm where
  | word | half | quad | add (v : W64)
  deriving DecidableEq, Repr

/-- On whose behalf a request is held: a requester of its own on the network, a load or store of an engine, one of an
engine's channels, another instruction of an engine, or a requester that has timed the request out and discards its
response (R217). -/
inductive HeldBy where
  | bus | load | store | chan (ch : Fin 8) | instr | discarded
  deriving DecidableEq, Repr

/-- The instruction in which an engine waits (R84, R82, R85, FENCE, R97). -/
inductive Waiting where
  | wait (rd : Gpr) (mask : W64) (timed : Bool)
  | mwait (rd : Gpr) (ch : Fin 8)
  | lapStop (rd : Gpr) (r : W64)
  | lapStep (rd : Gpr)
  | fence (mem dma ifetch : Bool)
  | halt (v : BitVec 16)
  | tell (rd : Gpr)
  /-- LDQ (none) or AMOADD (the addend) of a vault line whose verdict is outstanding (R78) -/
  | vaultLoad (rd : Gpr) (addend : Option W64) (addr : Nat)
  /-- a load whose request is held at the fence of a waking domain (R221) -/
  | access (rd : Gpr) (form : LoadForm) (addr : W64)
  /-- an instruction whose request to a block is held at the fence of a waking domain: it issues again once delivered (R221) -/
  | held
  deriving DecidableEq, Repr

/-- The program state of an engine; the Referee's freeze is a flag beside it (STATUS.STATE). -/
inductive EngState where
  | idle | running | waiting
  deriving DecidableEq, Repr

/-- One Octuk engine (R69 to R100). -/
structure Engine where
  g : Vector W64 32 := Vector.replicate 32 0
  pc : BitVec 16 := 0
  state : EngState := .idle
  frozen : Bool := false
  /-- the freeze fell within the instruction at `pc` (R381) -/
  frozenPartial : Bool := false
  waiting : Option Waiting := none
  role : Role := .operator
  superseded : Bool := false
  nmiThermal : Bool := false
  nmiClock : Bool := false
  inTrap : Bool := false
  cycle : W64 := 0
  runtime : W64 := 0
  cmdQueue : BitVec 13 := 0
  cmdTag : BitVec 32 := 0
  cqen : Bool := false
  /-- a credit of queue `cq` is kept back for the completion item (R95) -/
  cqHeld : Bool := false
  cq : BitVec 13 := 0
  tcause : W64 := 0
  tpc : W64 := 0
  tval : W64 := 0
  tvec : W64 := 1
  tsave0 : W64 := 0
  tsave1 : W64 := 0
  evpend : W64 := 0
  sigdata : W64 := 0
  wdog : BitVec 32 := 0
  /-- how often RUNTIME has exceeded WDOG in this program (R92) -/
  wdogHits : Nat := 0
  bindings : List Binding := []
  chans : Vector Chan 8 := Vector.replicate 8 {}
  stores : List Store := []
  /-- store failures whose imprecise trap waits for the waiting instruction to end (R77) -/
  impreciseHeld : List Store := []
  /-- counter overflows held until the trap may be taken (R151) -/
  ovfHeld : BitVec 8 := 0
  /-- the descriptor taken and not yet started: its program is being copied (R96) -/
  launch : Option Item := none
  /-- next command queue of the round robin (R95) -/
  lastQueue : Nat := 0
  /-- scratchpads: 128-bit words by word number, and the numbers of uncorrectable words (R177 to R180) -/
  imem : Sparse Quad := []
  dmem : Sparse Quad := []
  imemBad : List Nat := []
  dmemBad : List Nat := []
  /-- scratchpad words that hold a single-bit error (R179) -/
  imemSoft : List Nat := []
  dmemSoft : List Nat := []
  /-- the instruction scratchpad as instruction fetch sees it (R73) -/
  code : Sparse Quad := []
  deriving DecidableEq, Repr

/-- A response on its way to its requester, with the role of its request (R211, R216). -/
structure Answer where
  rq : Rq
  role : Role
  resp : Byte
  read : Bool
  data : Payload
  deriving DecidableEq, Repr

/-- A message sent to the host die (R228, R236). -/
inductive HostMsg where
  | completion (m : Module) (tag : BitVec 10) (resp : Byte) (len : Nat) (data : Payload)
  | notify (m : Module) (pi : BitVec 32)
  /-- the answer to a request over the sideband, with the payload of the Referee's answer or a register's value -/
  | sideband (m : Module) (resp : Byte) (data : W64)
  deriving DecidableEq, Repr

/-- What a packet asks of its address (R211): a memory-mapped access; an operation of the queue manager; a word of frame traffic;
a write of a POOL_BANK entry whose own address reaches another register (notes/assumptions 75). -/
inductive ReqOp where
  | read
  | write (data : Payload)
  | posted (data : Payload)
  | amoadd (v : W64)
  | queue (q : Qn) (op : QOp)
  | maint (q : Quad)
  | poolBank (i : Fin 64) (v : W64)
  deriving DecidableEq, Repr

/-- A request held at a fence for a waking domain (R221), with the role and session it was accepted under (R286), and whether a
payload word of it is uncorrectable (R212). -/
structure Held where
  dom : Nat
  rq : Rq
  addr : Nat
  len : Nat
  op : ReqOp
  who : HeldBy
  role : Role
  session : BitVec 16
  poison : Bool := false
  deriving DecidableEq, Repr

/-- A write of ROUTER_CFG that waits for the router: the first of a router while it drains, the others behind it (R222). -/
structure RouterHold where
  tower : Nat
  router : Nat
  rq : Rq
  half : Nat
  value : W64
  who : HeldBy
  role : Role
  session : BitVec 16
  /-- a write without a response: a failure leaves an error record -/
  posted : Bool
  deriving DecidableEq, Repr

/-- The cell of an item in its queue's chain (R181): the package number of its design bank, and its number there. -/
structure QSlot where
  bank : Nat
  cell : Nat
  /-- vault lines (host address / 64) whose verdicts were outstanding when the item was pushed (R303) -/
  lines : List Nat := []
  /-- a RING consumer has reported this item as poisoned (R205) -/
  told : Bool := false
  deriving DecidableEq, Repr

/-- An item as its consumer finds it (R205). -/
structure QCell where
  item : Item
  poison : Bool
  lines : List Nat
  told : Bool
  deriving DecidableEq, Repr

/-- A context word in a cell pair's credit queue (R45, R46). -/
structure CtxEntry where
  tower : Nat
  pair : Nat
  tag : Nat
  word : Quad
  deriving DecidableEq, Repr

/-- A cell that has fired in the step in progress: its output and the value of its input a (R33). -/
structure Fired where
  cell : Nat
  out : Bool
  a : Bool
  deriving DecidableEq, Repr

/-- The memory-read state of a port tile in the lap (R38, R163): the bank, the word requested, and the data once valid. -/
structure PortRead where
  bank : Nat
  word : Nat
  data : Option Quad
  deriving DecidableEq, Repr

/-- A write held in a commit buffer (R164), oldest first in the list. -/
structure HeldWrite where
  bank : Nat
  word : Nat
  data : Quad
  deriving DecidableEq, Repr

/-- The export collector of a stream port (R40). -/
structure Collector where
  flowTile : Nat
  port : Nat
  bits : List Bool
  deriving DecidableEq, Repr

/-- A token in an import slot: logical tile, cell number, slot (R42). -/
structure Import where
  tile : Nat
  cell : Nat
  slot : Nat
  value : Bool
  deriving DecidableEq, Repr

/-- The pin map (R398): entries by index, in the words of the payload. -/
structure PinMap where
  asyncBanks : BitVec 4 := 0
  defaults : BitVec 512 := 0
  outputs : Sparse W64 := []
  pins : Sparse W64 := []
  imports : List W64 := []
  deriving DecidableEq, Repr

/-- The cut-net token tables (R268), in the words of the payload. -/
structure TokenTables where
  exportGroups : List W64 := []
  exports : List W64 := []
  importGroups : List W64 := []
  imports : List W64 := []
  deriving DecidableEq, Repr

/-- A lap setup (R104): lap kinds, schedule, port bindings by bank. -/
structure LapSetup where
  kinds : List W64
  sched : List W64
  ports : Sparse W64
  deriving DecidableEq, Repr

/-- A region of an image header (Region entry). -/
structure Region where
  die : Nat
  rowFirst : Nat
  rowLast : Nat
  colFirst : Nat
  colLast : Nat
  slotFirst : Nat
  slotLast : Nat
  deriving DecidableEq, Repr

/-- How far a load has come in a section: the offset of the next record, the records processed, the segments whose digests have been
checked, the bytes of the segment in progress, and the fault that the loader has met (result, and record of the section; none where it
concerns no frame). -/
structure Cursor where
  offset : Nat := 0
  records : Nat := 0
  segments : Nat := 0
  bytes : List Byte := []
  fault : Option (Nat × Option Nat) := none
  deriving DecidableEq, Repr

/-- The load in progress (R109). -/
structure Job where
  engine : Eng
  ch : Fin 8
  role : Role
  queue : BitVec 13
  addr : Nat
  len : Nat
  deadline : Nat
  /-- false: checks 1 to 5 are to be made; true: check 6 has been passed -/
  accepted : Bool := false
  kind : Nat := 0
  isUnsigned : Bool := false
  regions : List Region := []
  sections : List (Nat × Nat) := []
  root : BitVec 384 := 0
  /-- the digest table that check 5 has held to ROOT -/
  digests : List Byte := []
  cursors : Vector Cursor 5 := Vector.replicate 5 {}
  setups : Nat := 0
  stagedSetups : Nat := 0
  pinmaps : Nat := 0
  tokens : Nat := 0
  tokenTables : TokenTables := {}
  pinMap : Option PinMap := none
  staged : List (Nat × Nat × Nat) := []
  stagedSetup : Option LapSetup := none
  tilesUsed : List Nat := []
  deriving DecidableEq, Repr

/-- The phase of the lap engine (R52 to R54, R271 to R277): halted, armed or waiting for GO, gather to come, steps and
verify, waiting for the retry's delay, and a lap held undecided. -/
inductive LapPhase where
  | halted | goWait | gatherDue | steps | retryWait | undecided
  deriving DecidableEq, Repr

/-- The fabric and the lap in progress. -/
structure Fabric where
  /-- configuration frames by 16-byte word of the frame window; function tables by tile × 4096 + cluster × 64 + entry -/
  frames : Sparse Quad := []
  ftable : Sparse W64 := []
  /-- committed buffer, next-state buffer and write mask by physical tile × 128 + word -/
  committed : Sparse Quad := []
  /-- towers whose committed state a reset has left undefined, with the number of the free values it holds, plus one -/
  undef : Sparse Nat := []
  nextState : Sparse Quad := []
  wmask : Sparse Quad := []
  /-- slot maps by physical tile × 36 + slot: the physical slot that serves it, less the slot itself when unlisted -/
  slotMap : Sparse Nat := []
  /-- hold registers that hold 1: logical tile × 1024 + cell number -/
  hold : List Nat := []
  creditQ : List CtxEntry := []
  fired : List Fired := []
  portReads : List PortRead := []
  commitBuf : List HeldWrite := []
  collectors : List Collector := []
  imports : List Import := []
  importsNext : List Import := []
  /-- logical tiles in which the loaded or active image places design logic -/
  tilesUsed : List Nat := []
  /-- stream ports (logical tile × 2 + port) whose item a cell of the lap selected, and whether it selected a poll -/
  consumed : List Nat := []
  polled : Bool := false
  /-- stream ports that presented an item when their tower's step received go (POLL0, POLL1) -/
  present : List Nat := []
  /-- items of the to-design queue that the queue manager has delivered to the port of each flow, up to two (R199) -/
  delivered : Sparse (BitVec 2) := []
  /-- frames marked BAD (R364): physical tile × 36 + physical slot -/
  badFrames : List Nat := []
  portBind : Sparse W64 := []
  phase : LapPhase := .halted
  /-- towers that have begun the step in their TLC_STAT.STEP, and towers that have completed the lap's last step -/
  stepOpen : List Nat := []
  stepsDone : List Nat := []
  /-- verify conditions: flows (logical tile × 2 + port) whose outbound item has a reserved credit -/
  outReserved : List Nat := []
  /-- retries of the lap in progress, and the causes counted after the first (R59) -/
  retries : Nat := 0
  laterCauses : Nat := 0
  firstCause : Byte := 0
  single : Bool := false
  stopAsked : Bool := false
  /-- a commit has been issued and its boundary actions are under way (R56) -/
  committing : Bool := false
  /-- word of state compared by each trigger unit at the previous commit (R137) -/
  trigPrev : Sparse W64 := []
  /-- register writes that wait for the boundary: address, the part written (0 whole, 1 low half, 2 high half) and value, oldest
  first -/
  boundaryWrites : List (Nat × Nat × W64) := []
  /-- what each tower that has raised a cause in the lap shows as TLC_SCRATCH (R423) -/
  raised : List (Nat × W64) := []
  /-- kind and schedule entry of the lap that committed last (R154) -/
  lastKind : Nat := 0
  lastEntry : Nat := 0
  /-- the gather of the lap in progress has latched its samples (R19) -/
  sampled : Bool := false
  /-- the vault lines (host address / 64) that the lap consumed and whose verdict is outstanding (R53) -/
  vaultLap : List Nat := []
  deriving DecidableEq, Repr

/-- Personality and staging (R105, R116). -/
structure Persona where
  job : Option Job := none
  staged : List (Nat × Nat × Nat) := []
  stagedSetup : Option LapSetup := none
  heldRegions : List Region := []
  loadedRoot : BitVec 384 := 0
  stagedRoot : BitVec 384 := 0
  /-- image kind and UNSIGNED of what is staged (R112) -/
  stagedKind : Nat := 0
  stagedUnsigned : Bool := false
  loadedUnsigned : Bool := false
  pinLoaded : PinMap := {}
  pinActive : PinMap := {}
  tokens : TokenTables := {}
  /-- the engine and queue of the CTXACT that requested the activation (R112) -/
  actEngine : Eng := 0
  actQueue : BitVec 13 := 0
  actRole : Role := .operator
  deriving DecidableEq, Repr

/-- Input log and replay (R144 to R147). -/
structure Log where
  lastPins0 : Option (BitVec 256) := none
  lastPins1 : Option (BitVec 256) := none
  replayPins0 : Option (BitVec 256) := none
  replayPins1 : Option (BitVec 256) := none
  /-- the LAP record the lap in progress is checked against -/
  replayLap : Option Item := none
  replayFlows : List Item := []
  activationMark : Bool := false
  benchMark : Bool := false
  triggerMark : Bool := false
  deriving DecidableEq, Repr

/-- A link key with its 4-byte IV prefix (R292). -/
structure LinkKey where
  key : BitVec 256
  ivHead : BitVec 32
  deriving DecidableEq, Repr

/-- A frame that a relay port holds to send, or has sent and holds for replay (R265). -/
structure TxFrame where
  seq : BitVec 24
  src : BitVec 12
  dst : BitVec 12
  body : FrameBody
  sends : Nat
  /-- the roster entry under which an authentication HELLO goes out (R291) -/
  under : Option Nat := none
  nonce : W64 := 0
  /-- header, encrypted payload and tag as they stand on the lanes (R292) -/
  sealed_ : List Byte := []
  deriving DecidableEq, Repr

/-- What a relay port has put on its lanes. -/
inductive Block where
  /-- the marker count, and each lane with its position, 15 for none -/
  | align (count : Nat) (lanes : List (Nat × Nat))
  | map (entries : BitVec 32)
  | mapReq (unusable spares : BitVec 8)
  /-- each lane with its three flags -/
  | train (lanes : List (Nat × Nat))
  | idleEnter
  | ack (next : BitVec 24) (credits : List Nat)
  | nak (next : BitVec 24) (credits : List Nat)
  | frame (f : TxFrame)
  /-- a lane's generator begins PRBS pattern `k` (R258) -/
  | prbs (lane k : Nat)
  /-- far-end loopback: what a command brought goes back on the lanes it came on (R257) -/
  | echo (c : Instr)
  deriving DecidableEq, Repr

/-- A block on a lane as it leaves the device: port, lane, sync header, and the scrambled payload bits (R242). -/
structure LaneOut where
  port : Nat
  lane : Nat
  hdr : BitVec 2
  bits : W64
  deriving DecidableEq, Repr

/-- A lane's transmitter and receiver (R242, R245). -/
structure LaneH where
  /-- the last 58 payload bits sent, and the last 58 received, the latest at bit 57 -/
  scr : BitVec 58 := 0
  descr : BitVec 58 := 0
  /-- the block boundary that the receiver stands at or tries, of 66, and valid headers seen there in a row, or in a burst -/
  boundary : Nat := 0
  good : Nat := 0
  /-- the last 64 headers of a LOCKED lane, the latest at bit 0: 1 for an invalid one -/
  window : W64 := 0
  /-- losses of lock -/
  losses : Nat := 0
  deriving DecidableEq, Repr

/-- The state of a relay port that its registers do not show. -/
structure PortH where
  txSeq : BitVec 24 := 0
  rxSeq : BitVec 24 := 0
  nakSent : Bool := false
  unacked : List TxFrame := []
  /-- frames of the class queues waiting for a credit, and the transmit credits of classes 0 to 2 (R266) -/
  waitingTx : List TxFrame := []
  credits : Vector Nat 3 := Vector.replicate 3 64
  /-- frames of classes 0 and 1 sent since the last one of class 2 (R266) -/
  sinceLow : Nat := 0
  alignCount : Nat := 0
  /-- the next 8-byte unit of the byte stream (R243) -/
  unitNo : Nat := 0
  txMapNext : Option (BitVec 32) := none
  rxMapNext : Option (BitVec 32) := none
  reqLatched : Bool := false
  badTx : BitVec 8 := 0
  spareTx : BitVec 8 := 0
  partnerLocked : BitVec 8 := 0
  /-- an acknowledgement waits for the transmitter to leave idle, and the credits of classes 0 to 2 that are owed -/
  exitLatched : Bool := false
  owed : Vector Nat 3 := Vector.replicate 3 0
  /-- blocks that wait for the transmitter to leave idle -/
  waitBlocks : List Block := []
  lanes : Vector LaneH 8 := Vector.replicate 8 {}
  /-- the partner's transmitter has gone into electrical idle -/
  rxIdle : Bool := false
  helloSeen : Bool := false
  partner : Option (Fin 64) := none
  /-- the NONCE of the authentication HELLO sent under each roster entry, the keys of the two directions, and the NONCE of the next
  frame (R291, R292) -/
  helloNonces : List (Nat × W64) := []
  txKey : Option LinkKey := none
  rxKey : Option LinkKey := none
  nonceTx : W64 := 1
  tagFails : Nat := 0
  deskewed : BitVec 8 := 0
  deriving DecidableEq, Repr

/-- The lap barrier (R271 to R277). -/
structure Chain where
  attempt : BitVec 16 := 0
  readyFrom : List (Nat × Baton) := []
  doneFrom : List (Nat × Baton) := []
  doneSent : Bool := false
  readySent : Bool := false
  /-- a halt cause of the previous boundary, the device that raised it, and a stop request of a child, repeated in every DONE until
  the lap is decided (R272) -/
  hcauseHeld : Byte := 0
  hcauseFrom : BitVec 12 := 0
  stopHeld : Bool := false
  mismatch : Bool := false
  lastDecision : Option (Byte × Baton) := none
  decided : Bool := false
  singleLap : Bool := false
  storedGroups : List (Nat × Nat × Nat) := []
  /-- banks of the import store, 0 the lap in progress and 1 the one after it, in which a group that scratches the lap has come before
  the lap could be scratched (R270) -/
  importFault : List Nat := []
  deriving DecidableEq, Repr

/-- A relay bridge (R279). -/
structure Bridge where
  unacked : List (BitVec 32 × Item) := []
  /-- the next position to send, or to push once `started` -/
  nextPos : BitVec 32 := 0
  started : Bool := false
  /-- remote credits held by a sending bridge, or credits sent out by a receiving one and not yet used -/
  granted : Nat := 0
  deriving DecidableEq, Repr

/-- A challenge outstanding for a session (R282). -/
structure Challenge where
  sess : Nat
  arg : W64
  value : BitVec 384
  deriving DecidableEq, Repr

/-- A roster entry of the key store: identity and agreement public keys (R289, R290). -/
structure RosterEntry where
  idPub : BitVec 768
  agrPub : BitVec 768
  deriving DecidableEq, Repr

/-- A black-box record less SEQ, TIME's source and CRC (Black-box record, 64 bytes). -/
structure BBRec where
  cls : Byte
  pinned : Bool
  sioTime : Bool
  replica : Bool
  auto : Bool
  time : W64
  session : BitVec 16
  role : Byte
  code : Byte
  lap : BitVec 32
  object : W64
  detail0 : W64
  detail1 : W64
  detail2 : W64
  deriving DecidableEq, Repr

/-- An answer of the Referee on its path (Mailbox message header). -/
structure RefAnswer where
  path : RPath
  op : BitVec 16
  status : Byte
  flags : Byte
  tag : BitVec 16
  arg : W64
  payload : List Byte
  deriving DecidableEq, Repr

/-- A mailbox slot (R394). -/
structure Slot where
  owner : Option (BitVec 16) := none
  state : Nat := 0
  deriving DecidableEq, Repr

/-- A test in progress (R351 to R360). -/
structure TestRun where
  tower : Fin 4
  slot : TestSlot
  kind : Nat
  block : BitVec 32
  engine : Option Eng
  inSplit : Bool
  repairs : Nat
  /-- how many repaired faults the second March must still confirm; the result to report at the end -/
  result : Nat
  /-- copy-in or copy-back progress: words copied -/
  copied : Nat
  deriving DecidableEq, Repr

/-- A tile rotation being prepared (R356). -/
structure Rotation where
  tower : Fin 4
  row : Nat
  newS : Nat
  preCopied : Bool
  deriving DecidableEq, Repr

/-- A tower's sweep: what is still to be tested in each class (R355, R358). -/
structure SweepRun where
  tower : Fin 4
  engine : Option Eng
  groupNext : Vector Nat 8
  tileNext : Nat
  analogNext : Nat
  /-- soft repairs made by the sweep's tests, and the worst of their results -/
  repairs : Nat := 0
  worst : Nat := 1
  /-- the quick splits of start-up: no banks, no tiles and no lanes (R384) -/
  quick : Bool := false
  deriving DecidableEq, Repr

/-- Reset sequences in progress (R386 to R389). -/
structure ResetRun where
  tower : Fin 4
  layer : Option Nat
  waitsCommit : Bool
  deriving DecidableEq, Repr

/-- Microcode banks (R99, MC_STAT). -/
structure Microcode where
  verA : BitVec 16 := 0
  verB : BitVec 16 := 0
  aValid : Bool := false
  bValid : Bool := false
  refused : Bool := false
  swapPending : Bool := false
  active : Bool := false
  deriving DecidableEq, Repr

/-- An enrolment or a removal in progress: the session and role that asked for it, and what ENROL_CTRL named (R290, R295). -/
structure EnrolJob where
  remove : Bool
  session : Nat
  role : Nat
  kind : Nat
  index : Nat
  ports : Nat
  deriving DecidableEq, Repr

/-- The Referee, PD00 and the key store. -/
structure Referee where
  /-- the work that ENROL_CTRL has given the Referee, while BUSY is set (R290) -/
  enrolDue : Option EnrolJob := none
  torn : Bool := false
  cause : Byte := 0
  straps : Straps := ⟨0, false, false, false, false, false, 0⟩
  challenges : List Challenge := []
  authFails : Nat := 0
  keys : Sparse (BitVec 768) := []
  roster : List (Nat × RosterEntry) := []
  fuseWords : Sparse (BitVec 32) := []
  sbState : Nat := 0
  sbHostmem : BitVec 9 := 0
  sbHostmemLocked : Bool := false
  /-- SB_DEADLINE, from fuses (R238) -/
  sbDeadline : BitVec 16 := 1000
  sbLinkUp : BitVec 4 := 0
  bootFetch : Option Nat := none
  bootStore : List Byte := []
  bootResident : Sparse Quad := []
  /-- bytes of a boot image received so far, by relay port -/
  bootRelay : List (Nat × List Byte) := []
  bootDone : Bool := false
  testPort : Bool := false
  bothFailed : Bool := false
  vdmOutstanding : BitVec 4 := 0
  smbusReq : List Byte := []
  smbusAns : List Byte := []
  /-- the bytes that the last read on the management port returned -/
  smbusOut : List Byte := []
  slots : Vector Slot 4 := Vector.replicate 4 {}
  answers : List RefAnswer := []
  resets : List ResetRun := []
  /-- requests that a reset in progress covers, answered when it ends: path, TAG and ARG (R389) -/
  resetWaits : List (RPath × BitVec 16 × W64) := []
  /-- a package reset is in progress -/
  packageBusy : Bool := false
  /-- path and TAG of operations that a failover has interrupted: their answers carry FAILOVER (R375) -/
  overtaken : List (RPath × BitVec 16) := []
  /-- DUMPs of engines that wait in an instruction: answered when it ends or by DUMP_FREEZE_TIMEOUT (R381) -/
  dumps : List (RPath × BitVec 16 × W64) := []
  /-- a Referee copy that failed its self-test waits to be restarted (R374) -/
  restartDue : Bool := false
  stackPower : BitVec 4 := 0
  /-- domains that the Referee has still to bring up, in order (R336; notes/assumptions 60) -/
  bringUp : List Nat := [1, 6, 2, 3, 4, 5]
  powerLock : Bool := false
  powerCapHalt : Bool := false
  vinRemoved : Bool := false
  clkAuto : Bool := false
  fioFailed : BitVec 4 := 0
  refFioFailed : Bool := false
  xtalaFailed : Bool := false
  xtalbFailed : Bool := false
  lanesInit : Bool := false
  /-- package lanes that have failed LANE_LOOP, a soft repair that stays FAILED over resets until CLR_FAIL (R370) -/
  badLanes : List Nat := []
  /-- vertical spare wires used, by tower × 4160 + row × 65 + physical column (R366) -/
  wiresUsed : Sparse (BitVec 8) := []
  /-- context-port wires replaced, by tile position × 64 + cluster, memory-port wires, by tower × 256 + bank, and base-to-layer control
  wires, by tower × 96 + layer × 16 + bundle (R366) -/
  ctxWires : Sparse (BitVec 8) := []
  portWires : Sparse (BitVec 8) := []
  ctlWires : Sparse (BitVec 8) := []
  /-- rows (tower × 64 + row) whose walk ends in a retirement (R368) -/
  retiring : List Nat := []
  /-- sensors that have failed their reference test: tower × 96 + layer × 16 + sensor (R341, R362) -/
  badSensors : List Nat := []
  /-- repairs in fuses: the tower and the first word of the repair-log entry, in the order of programming (R371) -/
  fused : List (Nat × W64) := []
  bb : List BBRec := []
  deriving DecidableEq, Repr

/-- The vault engine's state that no register shows (R300 to R307); plaintext by host address / 16. -/
structure Vault where
  data : Sparse Quad := []
  counters : Sparse W64 := []
  baseCounter : Sparse W64 := []
  /-- ranges that REINIT has rewritten, newest first: region, level, node and the counter of their lines (R307) -/
  rebased : List (Nat × Nat × Nat × W64) := []
  /-- the base, in pages, plus one, at which each region was enabled last after its keys were drawn; 0 where it was not -/
  boundAt : Sparse W64 := []
  /-- lines whose verdict is outstanding, by host address / 64 -/
  pendingLines : List Nat := []
  /-- words of design memory (address / 16) that hold data of a line whose verdict is outstanding, and the line (R303) -/
  bankVerdicts : List (Nat × Nat) := []
  /-- lines whose tag has failed and that no write has replaced -/
  badLines : List Nat := []
  /-- regions that have keys: the number of the random generator's word at which their two keys begin, plus one (R300) -/
  draws : Sparse Nat := []
  /-- words of host memory (address / 16) in the lines, tags or nodes of a region, or left by one, that something other than the vault
  engine has written since it wrote them; host memory holds their contents -/
  foreign : List Nat := []
  /-- words from the first number to before the second that a region has left behind, with the number of its keys; newest first -/
  stale : List (Nat × Nat × Nat) := []
  /-- nodes of the counter trees (region, level, index) in the counter cache, the latest used first (R302) -/
  cache : List (Nat × Nat × Nat) := []
  /-- cached nodes whose counters have changed, with the counters of their last write-back (R302) -/
  dirty : List ((Nat × Nat × Nat) × List Nat) := []
  /-- the counter that the parent, or the root, holds for a node; 0 where it is the one of the last initialisation -/
  versions : Sparse W64 := []
  /-- seals (region, level, node) and alarms (SEC_ALARM bit) that the current command has still to carry out -/
  sealDue : List (Nat × Nat × Nat) := []
  alarmDue : List Nat := []
  deriving DecidableEq, Repr

/-- A write of the stand-in copier that is still to come (R169): the device address of the word, its data, none for the poison check
pattern, and whether it falls into the cycle of a commit's write. -/
structure CopyBack where
  addr : Nat
  data : Option Quad
  meets : Bool
  deriving DecidableEq, Repr

/-- The whole state. -/
structure State where
  /-- the register space, by device address: each register's value exclusive-or its reset value, so that an unlisted
  register holds its reset value; see RegMap and Ops -/
  regs : Sparse W64 := []
  engines : Vector Engine 16 := Vector.replicate 16 {}
  /-- design memory by device address / 16, and the words that are uncorrectable or carry a corrected single-bit error -/
  mem : Sparse Quad := []
  memBad : List Nat := []
  memSoft : List Nat := []
  standin : Sparse Quad := []
  standinBad : List Nat := []
  standinSoft : List Nat := []
  /-- stored words in which an error has been found, and the number of the free value that is their syndrome, plus one (R171) -/
  syndromes : Sparse Nat := []
  copies : List CopyBack := []
  hostmem : Sparse Quad := []
  fab : Fabric := {}
  persona : Persona := {}
  log : Log := {}
  qitems : Sparse (List QSlot) := []
  /-- entries of the link memory with an uncorrectable error, by bank × 65,536 + cell (R206) -/
  linkBad : List Nat := []
  /-- cells reserved by credits, over all queues (R188) -/
  poolReserved : Nat := 0
  bridges : Vector Bridge 64 := Vector.replicate 64 {}
  ports : Vector PortH 16 := Vector.replicate 16 {}
  sent : List (Nat × Block) := []
  /-- the same on each lane, scrambled (R242) -/
  wire : List LaneOut := []
  /-- frames of the device's own that are addressed to itself, by source, and wait for delivery (R263) -/
  ownFrames : List (BitVec 12 × FrameBody) := []
  chain : Chain := {}
  vault : Vault := {}
  ref : Referee := {}
  mc : Microcode := {}
  tests : List TestRun := []
  rotations : List Rotation := []
  sweeps : List SweepRun := []
  retryTests : List (Nat × TestSlot) := []
  answers : List Answer := []
  hostOut : List HostMsg := []
  /-- answers other than OK that the host die gives to the next access of an engine's own to a word of host memory: engine, host
  address / 16, response code (R231) -/
  hostFails : List (Eng × Nat × Byte) := []
  held : List Held := []
  holds : List RouterHold := []
  /-- requests whose packet, or whose response's packet, a router has discarded: no response will come (R212, R217) -/
  lost : List Rq := []
  /-- fences raised while their router was in HOLD, which take effect when the hold ends: tower, router, domain (R223) -/
  fenceWait : List (Nat × Nat × Nat) := []
  /-- the role and session of the accepted request that the current command delivers (R286); none between commands -/
  carried : Option (Role × BitVec 16) := none
  holdoff : Bool := false
  notifyDue : Bool := false
  /-- the levels on the pads, and the pins that are parked with the function they take next (R407) -/
  pads : BitVec 512 := 0
  parked : List (Nat × W64) := []
  /-- pin functions as they act on the pads: FUNC and SEL of each pin (R407) -/
  pinNow : Sparse W64 := []
  trigPulse : Bool := false
  /-- the model's own counter for free values; not the manual's -/
  free : Nat := 0
  pending : List Instr := []
  deriving DecidableEq, Repr

/-- Why the machine stops with a fault. -/
inductive Fault where
  /-- raised by `exec` for a command that WellFormed refuses: an operand the row does not have. Safe: no such command
  reaches the device. -/
  | malformedCommand
  deriving DecidableEq, Repr

/-- Why a command has no meaning. -/
inductive Refusal where
  /-- raised by an arm of `exec` whose instruction has no meaning yet. Safe: nothing is claimed about it. -/
  | notModelled (mnemonic : String)
  deriving DecidableEq, Repr

/-- The outcome of a command. -/
abbrev Out := Host.Outcome State Fault Refusal

/-- The machine right after power-on reset (R386): every register reads its reset value, every memory is unlisted and
reads zero, no program runs and no command waits. -/
def State.reset : State := {}

end Sys2Proof.Machine
end

