-- ==== Sys2Proof/Machine/Mem.lean ====
section
/-! DEFINITION. Sparse maps in canonical form, and the bit-field, byte-order and word-packing helpers. -/

namespace Sys2Proof.Machine

variable {α : Type}

/-- The value at key `k` of a map whose unlisted keys read as `d`. -/
def Sparse.get (d : Nat → α) (m : Sparse α) (k : Nat) : α :=
  match m with
  | [] => d k
  | (k', v) :: rest => if k' = k then v else Sparse.get d rest k

/-- Every entry for `k` taken out. -/
def Sparse.drop (m : Sparse α) (k : Nat) : Sparse α :=
  match m with
  | [] => []
  | (k', v) :: rest => if k' = k then Sparse.drop rest k else (k', v) :: Sparse.drop rest k

/-- Put `v` at key `k`, keeping the keys rising; `v` is listed whatever it is. -/
def Sparse.insert (m : Sparse α) (k : Nat) (v : α) : Sparse α :=
  match m with
  | [] => [(k, v)]
  | (k', v') :: rest =>
    if k < k' then (k, v) :: (k', v') :: rest
    else if k' = k then (k, v) :: rest
    else (k', v') :: Sparse.insert rest k v

/-- The write: a value equal to what the unlisted key reads as removes the entry. -/
def Sparse.set [DecidableEq α] (d : Nat → α) (m : Sparse α) (k : Nat) (v : α) : Sparse α :=
  if v = d k then Sparse.drop m k else Sparse.insert m k v

/-- All keys of `m` lie above `b`. -/
def Sparse.above (b : Nat) (m : Sparse α) : Bool := m.all fun p => decide (b < p.1)

/-- The canonical form: keys strictly rising, no entry equal to what the unlisted key reads as. -/
def Sparse.wf [DecidableEq α] (d : Nat → α) (m : Sparse α) : Bool :=
  match m with
  | [] => true
  | (k, v) :: rest => decide (v ≠ d k) && Sparse.above k rest && Sparse.wf d rest

/-- Reads and writes of a map whose unlisted keys read as zero. -/
def Sparse.read {n : Nat} (m : Sparse (BitVec n)) (k : Nat) : BitVec n := Sparse.get (fun _ => 0) m k
def Sparse.write {n : Nat} (m : Sparse (BitVec n)) (k : Nat) (v : BitVec n) : Sparse (BitVec n) :=
  Sparse.set (fun _ => 0) m k v

/-- `xs` with entry `k` replaced; unchanged when `k` lies beyond it. -/
def listSet (xs : List α) (k : Nat) (v : α) : List α :=
  match xs, k with
  | [], _ => []
  | _ :: rest, 0 => v :: rest
  | x :: rest, k + 1 => x :: listSet rest k v

/-- Take the key out of a list of numbers, or put it in, without repeats. -/
def listDrop (xs : List Nat) (k : Nat) : List Nat := xs.filter (· != k)
def listAdd (xs : List Nat) (k : Nat) : List Nat := if xs.contains k then xs else xs ++ [k]

/-- `f` applied to the entry at `k` of a vector; no effect past its end. -/
def modifyAt {n : Nat} (v : Vector α n) (k : Nat) (f : α → α) : Vector α n :=
  if h : k < n then v.set k (f v[k]) else v

/-- Bits [hi:lo] of a word, as a number. -/
def bitsOf {n : Nat} (v : BitVec n) (hi lo : Nat) : Nat := (v.toNat >>> lo) % 2 ^ (hi + 1 - lo)
def bit {n : Nat} (v : BitVec n) (i : Nat) : Bool := v.getLsbD i

/-- The word with bits [hi:lo] replaced by the low bits of `x`. -/
def setBits {n : Nat} (v : BitVec n) (hi lo x : Nat) : BitVec n :=
  let m : BitVec n := BitVec.ofNat n (2 ^ (hi + 1) - 2 ^ lo)
  (v &&& ~~~m) ||| (BitVec.ofNat n (x % 2 ^ (hi + 1 - lo) * 2 ^ lo))

def b2n (b : Bool) : Nat := if b then 1 else 0

/-- `a + b`, saturating at the largest value of `w` bits. -/
def satAdd (w a b : Nat) : Nat := if a + b < 2 ^ w then a + b else 2 ^ w - 1

/-- A signed number from its two's complement in `w` bits. -/
def signedOf (w n : Nat) : Int := (BitVec.ofNat w n).toInt

/-- The 128-bit word at place `i` of a longer one, the 64-bit word at place `i`, and 64-bit words joined, lowest first. -/
def quadAt {n : Nat} (v : BitVec n) (i : Nat) : Quad := BitVec.ofNat 128 (v.toNat >>> (128 * i))
def wordAt {n : Nat} (v : BitVec n) (i : Nat) : W64 := BitVec.ofNat 64 (v.toNat >>> (64 * i))
def byteAt {n : Nat} (v : BitVec n) (i : Nat) : Byte := BitVec.ofNat 8 (v.toNat >>> (8 * i))
def joinWords (ws : List W64) : Nat := ws.foldr (fun w n => w.toNat + n * 2 ^ 64) 0
def joinQuads (ws : List Quad) : Nat := ws.foldr (fun w n => w.toNat + n * 2 ^ 128) 0
def joinBytes (bs : List Byte) : Nat := bs.foldr (fun b n => b.toNat + n * 256) 0
def quadOf (lo hi : W64) : Quad := hi ++ lo
def bytesOf (len n : Nat) : List Byte := (List.range len).map fun i => BitVec.ofNat 8 (n >>> (8 * i))

/-- The low `w` bits of a number from a list of bits, bit 0 first. -/
def natOfBits (bs : List Bool) : Nat := bs.foldr (fun b n => b2n b + 2 * n) 0
def popcount {n : Nat} (v : BitVec n) : Nat := ((List.range n).filter fun i => v.getLsbD i).length

end Sys2Proof.Machine
end

