-- ==== Sys2Proof/Machine/RegMap.lean ====
section
/-! DEFINITION. The register map: every register's name, address, and fields with access and reset value, as the register maps
of the chapters give them. -/

namespace Sys2Proof.Machine

/-- Access codes (R12). -/
inductive Acc where
  | rw | ro | wo | w1s | w1c | rc
  deriving DecidableEq, Repr

/-- Who may write a register: every role, the installer only, or as the register's own behaviour says. -/
inductive Right where
  | any | installer | custom
  deriving DecidableEq, Repr

/-- The registers, by the names of the chapters. The counter registers of the towers end in _T (tower, unit 0 lap
controller, 1 to 4 engines, 5 routers) and those of the UCIe modules in _P; DB_ names are the doorbell pages. -/
inductive RegName where
  | LAP_CTRL | LAP_STAT | LAP_COUNT | LAP_END | LAP_POS | LAP_RETRY | RETRY_STAT | TRIG_CTRL | TRIG_ADDR | TRIG_MASK 
  | TRIG_VALUE | TRIG_MATCHES | TRIG_FIRED_LAP | TRIG_FIRED | BENCH | BENCH_STAT | FABRIC_LIMITS | SCHED_STAT 
  | LAP_KIND | LAP_SCHED | LOAD_STAT | LOAD_FAULT | LOAD_CTRL | ACT_AT | ACT_LAP | PERSONA_ID | LOG_CTRL | LOG_STAT 
  | TLC_STAT | TLC_SCRATCH | CNT_T | EVSEL_T | UNIT_CTRL_T | OVF_STAT_T | OVF_TARGET_T | SHADOW_T | CNT_P | EVSEL_P 
  | UNIT_CTRL_P | OVF_STAT_P | OVF_TARGET_P | SHADOW_P | COUNTER_ACCESS | COUNTER_SNAP | SNAP_LAP | TRACE_CTRL 
  | TRACE_STAT | BANK_OWNER | BANK_STAT | STANDIN_STAT | ECC_CTRL | ECC_STAT | ECC_ADDR | ECC_INFO | Q_BIND | Q_LEVEL 
  | Q_STAT | Q_SEQ | Q_RING | Q_RING_IDX | Q_RING_WB | Q_CTRL | POOL_STAT | POOL_BANK | ERRQ | ERRQ_HOST | ERR_LOST 
  | FLOWCTL | FLOW_BIND | FLOW_QUEUES | FLOW_POS | FLOW_STAT | FLOW_WDOG | ROUTER_CFG | ROUTER_STAT | ROUTER_ERR 
  | PACER | NET_TIMEOUT | HC_LINK | HC_HOSTMEM | HC_EVRING | HC_EVRING_IDX | HC_EVCTRL | HC_EVSTAT | HR_BASE 
  | HR_LIMIT | PORT_CTRL | PORT_STAT | PORT_MAP | PORT_EVENTS | PORT_LIMITS | LANE_CTRL | LANE_STAT | LANE_EQ 
  | LANE_ERR | CHAIN_CFG | CHAIN_STAT | CHAIN_LIMITS | CHAIN_CTRL | CHAIN_PORT | LINK_STAT | BRIDGE_CFG | BRIDGE_STAT 
  | FWD | SEC_STAT | SEC_CTRL | SEC_ALARM | SEC_COUNTS | SEC_PORTS | ID_DIGEST | ID_BUNDLE | ENROL_WINDOW 
  | ENROL_CTRL | ROSTER | IMGKEY | CRED | SESS | VAULT_STAT | VR_CFG | VR_STAT | SEAL | PKGCLK_CFG | PKGCLK_STAT 
  | SRC_STAT | CLKGATE_MODE | CLKDOM_CFG | CLKDOM_STAT | GATE | CROSS_MERGED | PKG_INPUT | PKG_CAP | PKG_ENERGY 
  | PKG_THERM | PKG_THRESH | PD_CTRL | PD_STAT | TPWR_STAT | TEMP | TWR_TMAX | TEST_CTRL | TEST_BUDGET | TEST_STAT 
  | SPLIT_RESULT | GROUP_CFG | STEER | TFAIL_L3 | TFAIL_L4 | BANK_DEGRADED | BANK_FAILED | LAYER_STAT | REPAIR_STAT 
  | FUSE_CTRL | REPAIR_LOG | REPAIR_LOG_LAP | SCRUB_CTRL | SCRUB_STAT | SCRUB_POS | FRAME_BAD | MBX_MSG | MBX_ANS 
  | MBX_CTRL | MBX_STAT | REF_STAT | REF_STRAPS | REF_BOOTSRC | BB_STAT | BB_SEL | BB_WINDOW | BANK_CFG | PINS_STAT 
  | PAD_IN | GATHER_IN | DOUT | GPIO_OUT | GPIO_SET | GPIO_CLR | GPIO_TGL | GPIO_OE | PIN_CFG | PIN_OWN | PMU_CTRL 
  | PMU_SEL | PMU_STAT | RU_CTRL | RU_STAT | TRIGOUT_CFG | DB_CREDIT | DB_RING_PI | DB_RING_CI | DB_STAT
  deriving DecidableEq, Repr

/-- A field of a register: bits [hi:lo], access, reset value. -/
structure Fld where
  reg : RegName
  hi : Nat
  lo : Nat
  acc : Acc
  rst : Nat
  deriving DecidableEq, Repr

namespace F

def LAP_CTRL.STOP : Fld := ⟨.LAP_CTRL, 1, 1, .w1s, 0⟩
def LAP_CTRL.CLR_TORN : Fld := ⟨.LAP_CTRL, 0, 0, .w1s, 0⟩
def LAP_STAT.RETRIES : Fld := ⟨.LAP_STAT, 63, 48, .ro, 0⟩
def LAP_STAT.SCRATCH : Fld := ⟨.LAP_STAT, 39, 32, .ro, 0⟩
def LAP_STAT.RESULT : Fld := ⟨.LAP_STAT, 31, 24, .ro, 0⟩
def LAP_STAT.RETRY_HALT : Fld := ⟨.LAP_STAT, 23, 23, .ro, 0⟩
def LAP_STAT.STOP_PENDING : Fld := ⟨.LAP_STAT, 22, 22, .ro, 0⟩
def LAP_STAT.STATUS : Fld := ⟨.LAP_STAT, 21, 0, .ro, 512⟩
def LAP_COUNT.COUNT : Fld := ⟨.LAP_COUNT, 63, 0, .rw, 0⟩
def LAP_END.END : Fld := ⟨.LAP_END, 63, 0, .ro, 0⟩
def LAP_POS.POS : Fld := ⟨.LAP_POS, 5, 0, .rw, 0⟩
def LAP_RETRY.DELAY : Fld := ⟨.LAP_RETRY, 31, 24, .rw, 10⟩
def LAP_RETRY.LIMIT : Fld := ⟨.LAP_RETRY, 23, 16, .rw, 3⟩
def LAP_RETRY.CAUSES : Fld := ⟨.LAP_RETRY, 15, 0, .rw, 64⟩
def RETRY_STAT.SCRATCHED : Fld := ⟨.RETRY_STAT, 63, 32, .rc, 0⟩
def RETRY_STAT.RETRIED : Fld := ⟨.RETRY_STAT, 31, 0, .rc, 0⟩
def TRIG_CTRL.PASS : Fld := ⟨.TRIG_CTRL, 63, 32, .rw, 0⟩
def TRIG_CTRL.PMU : Fld := ⟨.TRIG_CTRL, 20, 16, .rw, 0⟩
def TRIG_CTRL.COMBINE : Fld := ⟨.TRIG_CTRL, 13, 12, .rw, 0⟩
def TRIG_CTRL.MODE : Fld := ⟨.TRIG_CTRL, 9, 8, .rw, 0⟩
def TRIG_CTRL.EVENT : Fld := ⟨.TRIG_CTRL, 4, 4, .rw, 0⟩
def TRIG_CTRL.HALT : Fld := ⟨.TRIG_CTRL, 3, 3, .rw, 0⟩
def TRIG_CTRL.TRIGOUT : Fld := ⟨.TRIG_CTRL, 2, 2, .rw, 0⟩
def TRIG_CTRL.LOGMARK : Fld := ⟨.TRIG_CTRL, 1, 1, .rw, 0⟩
def TRIG_CTRL.ARMED : Fld := ⟨.TRIG_CTRL, 0, 0, .rw, 0⟩
def TRIG_ADDR.DIE : Fld := ⟨.TRIG_ADDR, 30, 28, .rw, 0⟩
def TRIG_ADDR.ROW : Fld := ⟨.TRIG_ADDR, 27, 22, .rw, 0⟩
def TRIG_ADDR.COL : Fld := ⟨.TRIG_ADDR, 21, 16, .rw, 0⟩
def TRIG_ADDR.WORD : Fld := ⟨.TRIG_ADDR, 7, 0, .rw, 0⟩
def TRIG_MASK.MASK : Fld := ⟨.TRIG_MASK, 63, 0, .rw, 0⟩
def TRIG_VALUE.VALUE : Fld := ⟨.TRIG_VALUE, 63, 0, .rw, 0⟩
def TRIG_MATCHES.MATCHES : Fld := ⟨.TRIG_MATCHES, 63, 0, .ro, 0⟩
def TRIG_FIRED_LAP.LAP : Fld := ⟨.TRIG_FIRED_LAP, 63, 0, .ro, 0⟩
def TRIG_FIRED.FIRED : Fld := ⟨.TRIG_FIRED, 15, 0, .w1c, 0⟩
def BENCH.ENABLE : Fld := ⟨.BENCH, 32, 32, .rw, 0⟩
def BENCH.DIE : Fld := ⟨.BENCH, 30, 28, .rw, 0⟩
def BENCH.ROW_FIRST : Fld := ⟨.BENCH, 27, 22, .rw, 0⟩
def BENCH.ROW_LAST : Fld := ⟨.BENCH, 21, 16, .rw, 0⟩
def BENCH.COL_FIRST : Fld := ⟨.BENCH, 11, 6, .rw, 0⟩
def BENCH.COL_LAST : Fld := ⟨.BENCH, 5, 0, .rw, 0⟩
def BENCH_STAT.PENDING : Fld := ⟨.BENCH_STAT, 8, 8, .ro, 0⟩
def BENCH_STAT.ACTIVE : Fld := ⟨.BENCH_STAT, 7, 0, .ro, 0⟩
def FABRIC_LIMITS.NONBLOCK : Fld := ⟨.FABRIC_LIMITS, 16, 16, .w1c, 0⟩
def FABRIC_LIMITS.STEP_LIMIT : Fld := ⟨.FABRIC_LIMITS, 15, 0, .rw, 100⟩
def SCHED_STAT.POS : Fld := ⟨.SCHED_STAT, 13, 8, .ro, 0⟩
def SCHED_STAT.KIND : Fld := ⟨.SCHED_STAT, 2, 0, .ro, 0⟩
def LAP_KIND.EDGES : Fld := ⟨.LAP_KIND, 31, 24, .rw, 0⟩
def LAP_KIND.COUNT : Fld := ⟨.LAP_KIND, 20, 16, .rw, 0⟩
def LAP_KIND.FIRST : Fld := ⟨.LAP_KIND, 12, 8, .rw, 0⟩
def LAP_KIND.VALID : Fld := ⟨.LAP_KIND, 0, 0, .rw, 0⟩
def LAP_SCHED.LAST : Fld := ⟨.LAP_SCHED, 7, 7, .rw, 0⟩
def LAP_SCHED.KIND : Fld := ⟨.LAP_SCHED, 2, 0, .rw, 0⟩
def LOAD_STAT.RESULT : Fld := ⟨.LOAD_STAT, 47, 32, .ro, 0⟩
def LOAD_STAT.ENGINE : Fld := ⟨.LOAD_STAT, 27, 24, .ro, 0⟩
def LOAD_STAT.KIND : Fld := ⟨.LOAD_STAT, 17, 16, .ro, 0⟩
def LOAD_STAT.LATE : Fld := ⟨.LOAD_STAT, 11, 11, .ro, 0⟩
def LOAD_STAT.UNBENCH_HELD : Fld := ⟨.LOAD_STAT, 10, 10, .ro, 0⟩
def LOAD_STAT.UNSIGNED : Fld := ⟨.LOAD_STAT, 9, 9, .ro, 0⟩
def LOAD_STAT.GSR : Fld := ⟨.LOAD_STAT, 8, 8, .ro, 1⟩
def LOAD_STAT.PERSONA : Fld := ⟨.LOAD_STAT, 7, 6, .ro, 0⟩
def LOAD_STAT.STAGED : Fld := ⟨.LOAD_STAT, 5, 5, .ro, 0⟩
def LOAD_STAT.ACT_PENDING : Fld := ⟨.LOAD_STAT, 4, 4, .ro, 0⟩
def LOAD_STAT.LOADER : Fld := ⟨.LOAD_STAT, 1, 0, .ro, 0⟩
def LOAD_FAULT.RESP : Fld := ⟨.LOAD_FAULT, 39, 32, .ro, 0⟩
def LOAD_FAULT.FRAME : Fld := ⟨.LOAD_FAULT, 31, 0, .ro, 4294967295⟩
def LOAD_CTRL.DEADLINE : Fld := ⟨.LOAD_CTRL, 31, 16, .rw, 250⟩
def LOAD_CTRL.DISCARD : Fld := ⟨.LOAD_CTRL, 8, 8, .w1s, 0⟩
def LOAD_CTRL.PACE : Fld := ⟨.LOAD_CTRL, 7, 0, .rw, 8⟩
def ACT_AT.AT : Fld := ⟨.ACT_AT, 63, 0, .rw, 0⟩
def ACT_LAP.LAP : Fld := ⟨.ACT_LAP, 63, 0, .ro, 0⟩
def PERSONA_ID.ROOT : Fld := ⟨.PERSONA_ID, 63, 0, .ro, 0⟩
def LOG_CTRL.QUEUE : Fld := ⟨.LOG_CTRL, 28, 16, .rw, 0⟩
def LOG_CTRL.ITEMDATA : Fld := ⟨.LOG_CTRL, 4, 4, .rw, 0⟩
def LOG_CTRL.DROP : Fld := ⟨.LOG_CTRL, 3, 3, .rw, 0⟩
def LOG_CTRL.MODE : Fld := ⟨.LOG_CTRL, 2, 1, .rw, 0⟩
def LOG_STAT.LOST : Fld := ⟨.LOG_STAT, 63, 32, .rc, 0⟩
def LOG_STAT.DIVERGED : Fld := ⟨.LOG_STAT, 0, 0, .w1c, 0⟩
def TLC_STAT.TILES : Fld := ⟨.TLC_STAT, 47, 32, .ro, 0⟩
def TLC_STAT.STEP : Fld := ⟨.TLC_STAT, 20, 16, .ro, 0⟩
def TLC_STAT.WAIT_CONTEXT : Fld := ⟨.TLC_STAT, 11, 11, .ro, 0⟩
def TLC_STAT.WAIT_IMPORT : Fld := ⟨.TLC_STAT, 10, 10, .ro, 0⟩
def TLC_STAT.WAIT_STREAM : Fld := ⟨.TLC_STAT, 9, 9, .ro, 0⟩
def TLC_STAT.WAIT_VERDICT : Fld := ⟨.TLC_STAT, 8, 8, .ro, 0⟩
def TLC_STAT.PHASE : Fld := ⟨.TLC_STAT, 2, 0, .ro, 0⟩
def TLC_SCRATCH.CAUSE : Fld := ⟨.TLC_SCRATCH, 39, 32, .ro, 0⟩
def TLC_SCRATCH.STEP : Fld := ⟨.TLC_SCRATCH, 28, 24, .ro, 0⟩
def TLC_SCRATCH.VALID : Fld := ⟨.TLC_SCRATCH, 23, 23, .ro, 0⟩
def TLC_SCRATCH.LAYER : Fld := ⟨.TLC_SCRATCH, 22, 22, .ro, 0⟩
def TLC_SCRATCH.ROW : Fld := ⟨.TLC_SCRATCH, 21, 16, .ro, 0⟩
def TLC_SCRATCH.COL : Fld := ⟨.TLC_SCRATCH, 13, 8, .ro, 0⟩
def TLC_SCRATCH.CLUSTER : Fld := ⟨.TLC_SCRATCH, 5, 0, .ro, 0⟩
def CNT_T.VALUE : Fld := ⟨.CNT_T, 63, 0, .rw, 0⟩
def EVSEL_T.EVENT : Fld := ⟨.EVSEL_T, 9, 0, .rw, 0⟩
def UNIT_CTRL_T.TRAP_EN : Fld := ⟨.UNIT_CTRL_T, 39, 32, .rw, 0⟩
def UNIT_CTRL_T.OVF_EV_EN : Fld := ⟨.UNIT_CTRL_T, 31, 24, .rw, 0⟩
def UNIT_CTRL_T.LAPONLY : Fld := ⟨.UNIT_CTRL_T, 16, 16, .rw, 0⟩
def UNIT_CTRL_T.EN : Fld := ⟨.UNIT_CTRL_T, 8, 1, .rw, 0⟩
def UNIT_CTRL_T.CYC_EN : Fld := ⟨.UNIT_CTRL_T, 0, 0, .rw, 1⟩
def OVF_STAT_T.OVF : Fld := ⟨.OVF_STAT_T, 7, 0, .w1c, 0⟩
def OVF_TARGET_T.BIT : Fld := ⟨.OVF_TARGET_T, 13, 8, .rw, 0⟩
def OVF_TARGET_T.TARGET : Fld := ⟨.OVF_TARGET_T, 4, 0, .rw, 31⟩
def SHADOW_T.VALUE : Fld := ⟨.SHADOW_T, 63, 0, .ro, 0⟩
def CNT_P.VALUE : Fld := ⟨.CNT_P, 63, 0, .rw, 0⟩
def EVSEL_P.EVENT : Fld := ⟨.EVSEL_P, 9, 0, .rw, 0⟩
def UNIT_CTRL_P.TRAP_EN : Fld := ⟨.UNIT_CTRL_P, 39, 32, .rw, 0⟩
def UNIT_CTRL_P.OVF_EV_EN : Fld := ⟨.UNIT_CTRL_P, 31, 24, .rw, 0⟩
def UNIT_CTRL_P.LAPONLY : Fld := ⟨.UNIT_CTRL_P, 16, 16, .rw, 0⟩
def UNIT_CTRL_P.EN : Fld := ⟨.UNIT_CTRL_P, 8, 1, .rw, 0⟩
def UNIT_CTRL_P.CYC_EN : Fld := ⟨.UNIT_CTRL_P, 0, 0, .rw, 1⟩
def OVF_STAT_P.OVF : Fld := ⟨.OVF_STAT_P, 7, 0, .w1c, 0⟩
def OVF_TARGET_P.BIT : Fld := ⟨.OVF_TARGET_P, 13, 8, .rw, 0⟩
def OVF_TARGET_P.TARGET : Fld := ⟨.OVF_TARGET_P, 4, 0, .rw, 31⟩
def SHADOW_P.VALUE : Fld := ⟨.SHADOW_P, 63, 0, .ro, 0⟩
def COUNTER_ACCESS.PROGRAM : Fld := ⟨.COUNTER_ACCESS, 32, 32, .rw, 0⟩
def COUNTER_ACCESS.READ : Fld := ⟨.COUNTER_ACCESS, 25, 0, .rw, 0⟩
def COUNTER_SNAP.SNAP : Fld := ⟨.COUNTER_SNAP, 15, 15, .w1s, 0⟩
def COUNTER_SNAP.LAPSNAP : Fld := ⟨.COUNTER_SNAP, 8, 8, .rw, 0⟩
def COUNTER_SNAP.EVERY : Fld := ⟨.COUNTER_SNAP, 4, 0, .rw, 0⟩
def SNAP_LAP.LAP : Fld := ⟨.SNAP_LAP, 63, 0, .ro, 0⟩
def TRACE_CTRL.WAIT_MIN : Fld := ⟨.TRACE_CTRL, 63, 48, .rw, 256⟩
def TRACE_CTRL.QUEUE : Fld := ⟨.TRACE_CTRL, 44, 32, .rw, 0⟩
def TRACE_CTRL.EVENTS : Fld := ⟨.TRACE_CTRL, 15, 8, .rw, 15⟩
def TRACE_CTRL.EN : Fld := ⟨.TRACE_CTRL, 0, 0, .rw, 0⟩
def TRACE_STAT.LOST : Fld := ⟨.TRACE_STAT, 63, 32, .rc, 0⟩
def TRACE_STAT.WRITTEN : Fld := ⟨.TRACE_STAT, 31, 0, .rc, 0⟩
def BANK_OWNER.PENDING : Fld := ⟨.BANK_OWNER, 15, 15, .ro, 0⟩
def BANK_OWNER.ENGINE : Fld := ⟨.BANK_OWNER, 11, 8, .rw, 0⟩
def BANK_OWNER.KIND : Fld := ⟨.BANK_OWNER, 1, 0, .rw, 0⟩
def BANK_STAT.COLLISIONS : Fld := ⟨.BANK_STAT, 63, 32, .rc, 0⟩
def BANK_STAT.CORRECTED : Fld := ⟨.BANK_STAT, 31, 16, .rc, 0⟩
def BANK_STAT.SPARES_FUSED : Fld := ⟨.BANK_STAT, 15, 12, .ro, 0⟩
def BANK_STAT.SPARES_USED : Fld := ⟨.BANK_STAT, 11, 8, .ro, 0⟩
def BANK_STAT.VERDICT_WAIT : Fld := ⟨.BANK_STAT, 4, 4, .ro, 0⟩
def BANK_STAT.PORTA_RETIRED : Fld := ⟨.BANK_STAT, 3, 3, .ro, 0⟩
def BANK_STAT.STANDIN : Fld := ⟨.BANK_STAT, 2, 2, .ro, 0⟩
def BANK_STAT.COPY : Fld := ⟨.BANK_STAT, 1, 1, .ro, 0⟩
def BANK_STAT.UNCORR_SEEN : Fld := ⟨.BANK_STAT, 0, 0, .w1c, 0⟩
def STANDIN_STAT.BANK : Fld := ⟨.STANDIN_STAT, 15, 8, .ro, 0⟩
def STANDIN_STAT.PHASE : Fld := ⟨.STANDIN_STAT, 1, 0, .ro, 0⟩
def ECC_CTRL.WRAP : Fld := ⟨.ECC_CTRL, 1, 1, .rw, 0⟩
def ECC_CTRL.CLEAR : Fld := ⟨.ECC_CTRL, 0, 0, .w1s, 0⟩
def ECC_STAT.CORRECTED : Fld := ⟨.ECC_STAT, 63, 32, .rc, 0⟩
def ECC_STAT.UNCORRECTABLE : Fld := ⟨.ECC_STAT, 31, 16, .rc, 0⟩
def ECC_STAT.FROZEN : Fld := ⟨.ECC_STAT, 7, 7, .ro, 0⟩
def ECC_STAT.OVERRUN : Fld := ⟨.ECC_STAT, 6, 6, .w1c, 0⟩
def ECC_STAT.COUNT : Fld := ⟨.ECC_STAT, 5, 0, .ro, 0⟩
def ECC_ADDR.ADDR : Fld := ⟨.ECC_ADDR, 47, 0, .ro, 0⟩
def ECC_INFO.LAP : Fld := ⟨.ECC_INFO, 63, 32, .ro, 0⟩
def ECC_INFO.UNCORR : Fld := ⟨.ECC_INFO, 31, 31, .ro, 0⟩
def ECC_INFO.SOURCE : Fld := ⟨.ECC_INFO, 23, 20, .ro, 0⟩
def ECC_INFO.UNIT : Fld := ⟨.ECC_INFO, 19, 16, .ro, 0⟩
def ECC_INFO.READER : Fld := ⟨.ECC_INFO, 15, 12, .ro, 0⟩
def ECC_INFO.SYNDROME : Fld := ⟨.ECC_INFO, 8, 0, .ro, 0⟩
def Q_BIND.ROLE : Fld := ⟨.Q_BIND, 29, 28, .rw, 0⟩
def Q_BIND.CMD : Fld := ⟨.Q_BIND, 27, 27, .rw, 0⟩
def Q_BIND.CONS_ENG : Fld := ⟨.Q_BIND, 23, 20, .rw, 0⟩
def Q_BIND.CONS_KIND : Fld := ⟨.Q_BIND, 19, 16, .rw, 0⟩
def Q_BIND.PROD_ENG : Fld := ⟨.Q_BIND, 11, 8, .rw, 0⟩
def Q_BIND.PROD_KIND : Fld := ⟨.Q_BIND, 7, 4, .rw, 0⟩
def Q_BIND.VALID : Fld := ⟨.Q_BIND, 0, 0, .rw, 0⟩
def Q_LEVEL.LIMIT : Fld := ⟨.Q_LEVEL, 62, 42, .rw, 0⟩
def Q_LEVEL.HIGH : Fld := ⟨.Q_LEVEL, 41, 21, .rw, 0⟩
def Q_LEVEL.LOW : Fld := ⟨.Q_LEVEL, 20, 0, .rw, 0⟩
def Q_STAT.HIGH : Fld := ⟨.Q_STAT, 63, 63, .ro, 0⟩
def Q_STAT.FAULTED : Fld := ⟨.Q_STAT, 62, 62, .ro, 0⟩
def Q_STAT.POISON_HEAD : Fld := ⟨.Q_STAT, 61, 61, .ro, 0⟩
def Q_STAT.IN_FLOW : Fld := ⟨.Q_STAT, 60, 60, .ro, 0⟩
def Q_STAT.RING_FULL : Fld := ⟨.Q_STAT, 59, 59, .ro, 0⟩
def Q_STAT.CREDITS : Fld := ⟨.Q_STAT, 41, 21, .ro, 0⟩
def Q_STAT.COUNT : Fld := ⟨.Q_STAT, 20, 0, .ro, 0⟩
def Q_SEQ.HEAD : Fld := ⟨.Q_SEQ, 63, 32, .ro, 0⟩
def Q_SEQ.TAIL : Fld := ⟨.Q_SEQ, 31, 0, .ro, 0⟩
def Q_RING.BASE : Fld := ⟨.Q_RING, 47, 12, .rw, 0⟩
def Q_RING.ORDER : Fld := ⟨.Q_RING, 4, 0, .rw, 0⟩
def Q_RING_IDX.PI : Fld := ⟨.Q_RING_IDX, 63, 32, .ro, 0⟩
def Q_RING_IDX.CI : Fld := ⟨.Q_RING_IDX, 31, 0, .ro, 0⟩
def Q_RING_WB.ADDR : Fld := ⟨.Q_RING_WB, 47, 4, .rw, 0⟩
def Q_RING_WB.EN : Fld := ⟨.Q_RING_WB, 0, 0, .rw, 0⟩
def Q_CTRL.EV_RING : Fld := ⟨.Q_CTRL, 7, 7, .rw, 0⟩
def Q_CTRL.EV_LOW : Fld := ⟨.Q_CTRL, 6, 6, .rw, 0⟩
def Q_CTRL.EV_HIGH : Fld := ⟨.Q_CTRL, 5, 5, .rw, 0⟩
def Q_CTRL.SKIP : Fld := ⟨.Q_CTRL, 1, 1, .w1s, 0⟩
def Q_CTRL.RESET : Fld := ⟨.Q_CTRL, 0, 0, .w1s, 0⟩
def POOL_STAT.TOTAL : Fld := ⟨.POOL_STAT, 55, 32, .ro, 0⟩
def POOL_STAT.FREE : Fld := ⟨.POOL_STAT, 23, 0, .ro, 0⟩
def POOL_BANK.DRAINED : Fld := ⟨.POOL_BANK, 17, 17, .ro, 0⟩
def POOL_BANK.EN : Fld := ⟨.POOL_BANK, 16, 16, .rw, 0⟩
def POOL_BANK.BANK : Fld := ⟨.POOL_BANK, 9, 0, .rw, 0⟩
def ERRQ.EN : Fld := ⟨.ERRQ, 13, 13, .rw, 0⟩
def ERRQ.QUEUE : Fld := ⟨.ERRQ, 12, 0, .rw, 0⟩
def ERRQ_HOST.EN : Fld := ⟨.ERRQ_HOST, 13, 13, .rw, 0⟩
def ERRQ_HOST.QUEUE : Fld := ⟨.ERRQ_HOST, 12, 0, .rw, 0⟩
def ERR_LOST.COUNT : Fld := ⟨.ERR_LOST, 31, 0, .rc, 0⟩
def FLOWCTL.EN : Fld := ⟨.FLOWCTL, 16, 16, .rw, 0⟩
def FLOWCTL.INVERT : Fld := ⟨.FLOWCTL, 15, 15, .rw, 0⟩
def FLOWCTL.QUEUE : Fld := ⟨.FLOWCTL, 12, 0, .rw, 0⟩
def FLOW_BIND.DIE : Fld := ⟨.FLOW_BIND, 26, 24, .rw, 0⟩
def FLOW_BIND.ROW : Fld := ⟨.FLOW_BIND, 21, 16, .rw, 0⟩
def FLOW_BIND.COL : Fld := ⟨.FLOW_BIND, 13, 8, .rw, 0⟩
def FLOW_BIND.PORT : Fld := ⟨.FLOW_BIND, 4, 4, .rw, 0⟩
def FLOW_BIND.WDOG_EN : Fld := ⟨.FLOW_BIND, 3, 3, .rw, 0⟩
def FLOW_BIND.OUT_EN : Fld := ⟨.FLOW_BIND, 2, 2, .rw, 0⟩
def FLOW_BIND.IN_EN : Fld := ⟨.FLOW_BIND, 1, 1, .rw, 0⟩
def FLOW_BIND.VALID : Fld := ⟨.FLOW_BIND, 0, 0, .rw, 0⟩
def FLOW_QUEUES.OUT_Q : Fld := ⟨.FLOW_QUEUES, 44, 32, .rw, 0⟩
def FLOW_QUEUES.IN_Q : Fld := ⟨.FLOW_QUEUES, 12, 0, .rw, 0⟩
def FLOW_POS.IN : Fld := ⟨.FLOW_POS, 63, 32, .rw, 0⟩
def FLOW_POS.OUT : Fld := ⟨.FLOW_POS, 31, 0, .rw, 0⟩
def FLOW_STAT.STARVED : Fld := ⟨.FLOW_STAT, 7, 7, .w1c, 0⟩
def FLOW_STAT.WAIT_IN : Fld := ⟨.FLOW_STAT, 6, 6, .ro, 0⟩
def FLOW_STAT.WAIT_OUT : Fld := ⟨.FLOW_STAT, 5, 5, .ro, 0⟩
def FLOW_STAT.PRESENT : Fld := ⟨.FLOW_STAT, 4, 4, .ro, 0⟩
def FLOW_WDOG.LIMIT : Fld := ⟨.FLOW_WDOG, 31, 0, .rw, 0⟩
def ROUTER_CFG.W_VN0 : Fld := ⟨.ROUTER_CFG, 15, 8, .rw, 4⟩
def ROUTER_CFG.W_VN3 : Fld := ⟨.ROUTER_CFG, 7, 0, .rw, 1⟩
def ROUTER_STAT.CORRECTED : Fld := ⟨.ROUTER_STAT, 39, 32, .rc, 0⟩
def ROUTER_STAT.FENCED : Fld := ⟨.ROUTER_STAT, 23, 16, .ro, 0⟩
def ROUTER_STAT.WAKE_HELD : Fld := ⟨.ROUTER_STAT, 14, 8, .ro, 0⟩
def ROUTER_STAT.HOLD_TIMEOUT : Fld := ⟨.ROUTER_STAT, 2, 2, .w1c, 0⟩
def ROUTER_STAT.CFG_PENDING : Fld := ⟨.ROUTER_STAT, 1, 1, .ro, 0⟩
def ROUTER_STAT.HOLD : Fld := ⟨.ROUTER_STAT, 0, 0, .ro, 0⟩
def ROUTER_ERR.DISCARDS : Fld := ⟨.ROUTER_ERR, 63, 48, .rc, 0⟩
def ROUTER_ERR.INPUT : Fld := ⟨.ROUTER_ERR, 39, 36, .ro, 0⟩
def ROUTER_ERR.VN : Fld := ⟨.ROUTER_ERR, 35, 34, .ro, 0⟩
def PACER.ALWAYS : Fld := ⟨.PACER, 24, 24, .rw, 0⟩
def PACER.BURST : Fld := ⟨.PACER, 23, 16, .rw, 16⟩
def PACER.RATE : Fld := ⟨.PACER, 8, 0, .rw, 0⟩
def NET_TIMEOUT.LIMIT : Fld := ⟨.NET_TIMEOUT, 31, 0, .rw, 4000⟩
def HC_LINK.RETRAINS : Fld := ⟨.HC_LINK, 63, 48, .rc, 0⟩
def HC_LINK.REPAIRED : Fld := ⟨.HC_LINK, 39, 32, .ro, 0⟩
def HC_LINK.SPEED : Fld := ⟨.HC_LINK, 15, 8, .ro, 0⟩
def HC_LINK.WIDTH : Fld := ⟨.HC_LINK, 5, 4, .ro, 0⟩
def HC_LINK.UP : Fld := ⟨.HC_LINK, 0, 0, .ro, 0⟩
def HC_HOSTMEM.GIB : Fld := ⟨.HC_HOSTMEM, 8, 0, .ro, 0⟩
def HC_EVRING.BASE : Fld := ⟨.HC_EVRING, 47, 12, .rw, 0⟩
def HC_EVRING.ORDER : Fld := ⟨.HC_EVRING, 4, 0, .rw, 0⟩
def HC_EVRING_IDX.PI : Fld := ⟨.HC_EVRING_IDX, 63, 32, .ro, 0⟩
def HC_EVRING_IDX.CI : Fld := ⟨.HC_EVRING_IDX, 31, 0, .rw, 0⟩
def HC_EVCTRL.HOLDOFF : Fld := ⟨.HC_EVCTRL, 31, 16, .rw, 0⟩
def HC_EVCTRL.NOTIFY : Fld := ⟨.HC_EVCTRL, 5, 4, .rw, 0⟩
def HC_EVCTRL.EN : Fld := ⟨.HC_EVCTRL, 0, 0, .rw, 0⟩
def HC_EVSTAT.LOST : Fld := ⟨.HC_EVSTAT, 63, 32, .rc, 0⟩
def HC_EVSTAT.FAULT : Fld := ⟨.HC_EVSTAT, 1, 1, .w1c, 0⟩
def HC_EVSTAT.OVERFLOW : Fld := ⟨.HC_EVSTAT, 0, 0, .w1c, 0⟩
def HR_BASE.BASE : Fld := ⟨.HR_BASE, 37, 12, .rw, 0⟩
def HR_BASE.VAULT : Fld := ⟨.HR_BASE, 3, 3, .rw, 0⟩
def HR_BASE.DEV_WR : Fld := ⟨.HR_BASE, 2, 2, .rw, 0⟩
def HR_BASE.DEV_RD : Fld := ⟨.HR_BASE, 1, 1, .rw, 0⟩
def HR_BASE.EN : Fld := ⟨.HR_BASE, 0, 0, .rw, 0⟩
def HR_LIMIT.LIMIT : Fld := ⟨.HR_LIMIT, 37, 12, .rw, 0⟩
def PORT_CTRL.IDLE_AFTER : Fld := ⟨.PORT_CTRL, 31, 16, .rw, 0⟩
def PORT_CTRL.MIN_WIDTH : Fld := ⟨.PORT_CTRL, 11, 8, .rw, 4⟩
def PORT_CTRL.SPARE : Fld := ⟨.PORT_CTRL, 4, 4, .rw, 0⟩
def PORT_CTRL.FAR_LOOP : Fld := ⟨.PORT_CTRL, 2, 2, .rw, 0⟩
def PORT_CTRL.EN : Fld := ⟨.PORT_CTRL, 0, 0, .rw, 0⟩
def PORT_STAT.ACTIVE : Fld := ⟨.PORT_STAT, 47, 40, .ro, 0⟩
def PORT_STAT.SPARES : Fld := ⟨.PORT_STAT, 39, 32, .ro, 0⟩
def PORT_STAT.FAILED : Fld := ⟨.PORT_STAT, 31, 24, .ro, 0⟩
def PORT_STAT.TX_WIDTH : Fld := ⟨.PORT_STAT, 23, 20, .ro, 0⟩
def PORT_STAT.WIDTH : Fld := ⟨.PORT_STAT, 19, 16, .ro, 0⟩
def PORT_STAT.REF_FAULT : Fld := ⟨.PORT_STAT, 11, 11, .ro, 0⟩
def PORT_STAT.MAP_PENDING : Fld := ⟨.PORT_STAT, 10, 10, .ro, 0⟩
def PORT_STAT.MAP_QUEUED : Fld := ⟨.PORT_STAT, 9, 9, .ro, 0⟩
def PORT_STAT.IDLE_PENDING : Fld := ⟨.PORT_STAT, 8, 8, .ro, 0⟩
def PORT_STAT.STATE : Fld := ⟨.PORT_STAT, 2, 0, .ro, 0⟩
def PORT_MAP.TX : Fld := ⟨.PORT_MAP, 63, 32, .ro, 4294967295⟩
def PORT_MAP.RX : Fld := ⟨.PORT_MAP, 31, 0, .ro, 4294967295⟩
def PORT_EVENTS.EV_EN : Fld := ⟨.PORT_EVENTS, 39, 32, .rw, 0⟩
def PORT_EVENTS.LANE_FAILED : Fld := ⟨.PORT_EVENTS, 5, 5, .w1c, 0⟩
def PORT_EVENTS.SUBSTITUTED : Fld := ⟨.PORT_EVENTS, 4, 4, .w1c, 0⟩
def PORT_EVENTS.NARROWED : Fld := ⟨.PORT_EVENTS, 3, 3, .w1c, 0⟩
def PORT_EVENTS.DOWN : Fld := ⟨.PORT_EVENTS, 2, 2, .w1c, 0⟩
def PORT_EVENTS.UP : Fld := ⟨.PORT_EVENTS, 1, 1, .w1c, 0⟩
def PORT_EVENTS.IDLE_EXIT_FAIL : Fld := ⟨.PORT_EVENTS, 0, 0, .w1c, 0⟩
def PORT_LIMITS.ACQ_LIMIT : Fld := ⟨.PORT_LIMITS, 47, 32, .rw, 100⟩
def PORT_LIMITS.IDLE_LONG : Fld := ⟨.PORT_LIMITS, 31, 16, .rw, 1000⟩
def PORT_LIMITS.LOSS_LIMIT : Fld := ⟨.PORT_LIMITS, 7, 0, .rw, 3⟩
def LANE_CTRL.TX_PRESET : Fld := ⟨.LANE_CTRL, 15, 12, .rw, 5⟩
def LANE_CTRL.PRBS : Fld := ⟨.LANE_CTRL, 10, 8, .rw, 0⟩
def LANE_CTRL.RETIRE : Fld := ⟨.LANE_CTRL, 4, 4, .w1s, 0⟩
def LANE_CTRL.CLR_FAIL : Fld := ⟨.LANE_CTRL, 3, 3, .w1s, 0⟩
def LANE_CTRL.NEAR_LOOP : Fld := ⟨.LANE_CTRL, 2, 2, .rw, 0⟩
def LANE_CTRL.ADAPT : Fld := ⟨.LANE_CTRL, 0, 0, .rw, 1⟩
def LANE_STAT.LOSSES : Fld := ⟨.LANE_STAT, 63, 48, .rc, 0⟩
def LANE_STAT.SKEW : Fld := ⟨.LANE_STAT, 31, 24, .ro, 0⟩
def LANE_STAT.FREQ : Fld := ⟨.LANE_STAT, 23, 16, .ro, 0⟩
def LANE_STAT.EYE : Fld := ⟨.LANE_STAT, 15, 8, .ro, 0⟩
def LANE_STAT.STATE : Fld := ⟨.LANE_STAT, 3, 0, .ro, 0⟩
def LANE_EQ.CTLE : Fld := ⟨.LANE_EQ, 63, 60, .rw, 8⟩
def LANE_EQ.DFE : Fld := ⟨.LANE_EQ, 59, 0, .rw, 0⟩
def LANE_ERR.HDR_ERR : Fld := ⟨.LANE_ERR, 63, 32, .rc, 0⟩
def LANE_ERR.PRBS_ERR : Fld := ⟨.LANE_ERR, 31, 0, .rc, 0⟩
def CHAIN_CFG.ANCHOR_ID : Fld := ⟨.CHAIN_CFG, 27, 16, .rw, 0⟩
def CHAIN_CFG.MODE : Fld := ⟨.CHAIN_CFG, 15, 14, .rw, 0⟩
def CHAIN_CFG.ID : Fld := ⟨.CHAIN_CFG, 11, 0, .rw, 0⟩
def CHAIN_STAT.FWD_DROP : Fld := ⟨.CHAIN_STAT, 63, 48, .rc, 0⟩
def CHAIN_STAT.ORIGIN : Fld := ⟨.CHAIN_STAT, 43, 32, .ro, 0⟩
def CHAIN_STAT.STALE : Fld := ⟨.CHAIN_STAT, 31, 16, .rc, 0⟩
def CHAIN_STAT.MISMATCH : Fld := ⟨.CHAIN_STAT, 5, 5, .w1c, 0⟩
def CHAIN_STAT.CONFIG_FAULT : Fld := ⟨.CHAIN_STAT, 4, 4, .ro, 0⟩
def CHAIN_STAT.UNDECIDED : Fld := ⟨.CHAIN_STAT, 3, 3, .ro, 0⟩
def CHAIN_STAT.STATE : Fld := ⟨.CHAIN_STAT, 2, 0, .ro, 0⟩
def CHAIN_LIMITS.REPLAY_LIMIT : Fld := ⟨.CHAIN_LIMITS, 47, 40, .rw, 8⟩
def CHAIN_LIMITS.REPLAY_TIMEOUT : Fld := ⟨.CHAIN_LIMITS, 31, 16, .rw, 100⟩
def CHAIN_LIMITS.BATON_LIMIT : Fld := ⟨.CHAIN_LIMITS, 15, 0, .rw, 20⟩
def CHAIN_CTRL.DISCARD : Fld := ⟨.CHAIN_CTRL, 0, 0, .w1s, 0⟩
def CHAIN_PORT.PEER_ID : Fld := ⟨.CHAIN_PORT, 47, 36, .ro, 0⟩
def CHAIN_PORT.PEER_PORT : Fld := ⟨.CHAIN_PORT, 35, 32, .ro, 0⟩
def CHAIN_PORT.HELLO_FAULT : Fld := ⟨.CHAIN_PORT, 7, 7, .ro, 0⟩
def CHAIN_PORT.LAP_READY : Fld := ⟨.CHAIN_PORT, 6, 6, .ro, 0⟩
def CHAIN_PORT.ROLE : Fld := ⟨.CHAIN_PORT, 1, 0, .rw, 0⟩
def LINK_STAT.REPLAYS : Fld := ⟨.LINK_STAT, 63, 48, .rc, 0⟩
def LINK_STAT.CRC_ERR : Fld := ⟨.LINK_STAT, 47, 32, .rc, 0⟩
def LINK_STAT.PROTO_ERR : Fld := ⟨.LINK_STAT, 31, 16, .rc, 0⟩
def LINK_STAT.EXHAUSTED : Fld := ⟨.LINK_STAT, 1, 1, .w1c, 0⟩
def LINK_STAT.ALIVE_LOST : Fld := ⟨.LINK_STAT, 0, 0, .w1c, 0⟩
def BRIDGE_CFG.PEER_BRIDGE : Fld := ⟨.BRIDGE_CFG, 47, 42, .rw, 0⟩
def BRIDGE_CFG.PEER_ID : Fld := ⟨.BRIDGE_CFG, 41, 30, .rw, 0⟩
def BRIDGE_CFG.EN : Fld := ⟨.BRIDGE_CFG, 15, 15, .rw, 0⟩
def BRIDGE_CFG.DIR : Fld := ⟨.BRIDGE_CFG, 14, 14, .rw, 0⟩
def BRIDGE_CFG.QUEUE : Fld := ⟨.BRIDGE_CFG, 12, 0, .rw, 0⟩
def BRIDGE_STAT.UNACKED : Fld := ⟨.BRIDGE_STAT, 63, 32, .ro, 0⟩
def BRIDGE_STAT.CREDITS : Fld := ⟨.BRIDGE_STAT, 31, 16, .ro, 0⟩
def BRIDGE_STAT.STALLED : Fld := ⟨.BRIDGE_STAT, 0, 0, .ro, 0⟩
def FWD.VALID : Fld := ⟨.FWD, 4, 4, .rw, 0⟩
def FWD.PORT : Fld := ⟨.FWD, 3, 0, .rw, 0⟩
def SEC_STAT.DENIED : Fld := ⟨.SEC_STAT, 63, 32, .rc, 0⟩
def SEC_STAT.AUTH_FAIL : Fld := ⟨.SEC_STAT, 31, 24, .rc, 0⟩
def SEC_STAT.LOCKOUT : Fld := ⟨.SEC_STAT, 4, 4, .ro, 0⟩
def SEC_STAT.ZEROISED : Fld := ⟨.SEC_STAT, 3, 3, .ro, 0⟩
def SEC_STAT.CLAIMED : Fld := ⟨.SEC_STAT, 2, 2, .ro, 0⟩
def SEC_STAT.LAB_ALLOWED : Fld := ⟨.SEC_STAT, 1, 1, .ro, 0⟩
def SEC_STAT.LAB : Fld := ⟨.SEC_STAT, 0, 0, .ro, 0⟩
def SEC_CTRL.EV_EN : Fld := ⟨.SEC_CTRL, 15, 8, .rw, 0⟩
def SEC_CTRL.ALARM_HALT : Fld := ⟨.SEC_CTRL, 2, 2, .rw, 0⟩
def SEC_CTRL.OPER_AUTH : Fld := ⟨.SEC_CTRL, 1, 1, .rw, 0⟩
def SEC_CTRL.LAB_EN : Fld := ⟨.SEC_CTRL, 0, 0, .rw, 0⟩
def SEC_ALARM.ZEROISE : Fld := ⟨.SEC_ALARM, 5, 5, .w1c, 0⟩
def SEC_ALARM.SEALED : Fld := ⟨.SEC_ALARM, 4, 4, .w1c, 0⟩
def SEC_ALARM.TAG_FAILED : Fld := ⟨.SEC_ALARM, 3, 3, .w1c, 0⟩
def SEC_ALARM.UNENROLLED_LINK : Fld := ⟨.SEC_ALARM, 2, 2, .w1c, 0⟩
def SEC_ALARM.LINK_AUTH : Fld := ⟨.SEC_ALARM, 1, 1, .w1c, 0⟩
def SEC_ALARM.LOCKOUT : Fld := ⟨.SEC_ALARM, 0, 0, .w1c, 0⟩
def SEC_COUNTS.LINK_TAG : Fld := ⟨.SEC_COUNTS, 63, 32, .rc, 0⟩
def SEC_COUNTS.LINE_TAG : Fld := ⟨.SEC_COUNTS, 31, 0, .rc, 0⟩
def SEC_PORTS.ENROLLED : Fld := ⟨.SEC_PORTS, 31, 16, .ro, 0⟩
def SEC_PORTS.UNENROLLED : Fld := ⟨.SEC_PORTS, 15, 0, .ro, 0⟩
def ID_DIGEST.DIGEST : Fld := ⟨.ID_DIGEST, 63, 0, .ro, 0⟩
def ID_BUNDLE.WORD : Fld := ⟨.ID_BUNDLE, 63, 0, .ro, 0⟩
def ENROL_WINDOW.WORD : Fld := ⟨.ENROL_WINDOW, 63, 0, .wo, 0⟩
def ENROL_CTRL.RESULT : Fld := ⟨.ENROL_CTRL, 55, 48, .ro, 0⟩
def ENROL_CTRL.PORTS : Fld := ⟨.ENROL_CTRL, 31, 16, .rw, 0⟩
def ENROL_CTRL.KIND : Fld := ⟨.ENROL_CTRL, 15, 14, .rw, 0⟩
def ENROL_CTRL.INDEX : Fld := ⟨.ENROL_CTRL, 13, 8, .rw, 0⟩
def ENROL_CTRL.BUSY : Fld := ⟨.ENROL_CTRL, 2, 2, .ro, 0⟩
def ENROL_CTRL.REMOVE : Fld := ⟨.ENROL_CTRL, 1, 1, .w1s, 0⟩
def ENROL_CTRL.GO : Fld := ⟨.ENROL_CTRL, 0, 0, .w1s, 0⟩
def ROSTER.DIGEST : Fld := ⟨.ROSTER, 63, 32, .ro, 0⟩
def ROSTER.PORTS : Fld := ⟨.ROSTER, 31, 16, .ro, 0⟩
def ROSTER.IN_USE : Fld := ⟨.ROSTER, 1, 1, .ro, 0⟩
def ROSTER.VALID : Fld := ⟨.ROSTER, 0, 0, .ro, 0⟩
def IMGKEY.DIGEST : Fld := ⟨.IMGKEY, 63, 32, .ro, 0⟩
def IMGKEY.VALID : Fld := ⟨.IMGKEY, 0, 0, .ro, 0⟩
def CRED.DIGEST : Fld := ⟨.CRED, 63, 32, .ro, 0⟩
def CRED.VALID : Fld := ⟨.CRED, 0, 0, .ro, 0⟩
def SESS.ROLE : Fld := ⟨.SESS, 9, 8, .ro, 0⟩
def SESS.PENDING : Fld := ⟨.SESS, 1, 1, .ro, 0⟩
def SESS.OPEN : Fld := ⟨.SESS, 0, 0, .ro, 0⟩
def VAULT_STAT.PENDING : Fld := ⟨.VAULT_STAT, 31, 16, .ro, 0⟩
def VAULT_STAT.SEALS : Fld := ⟨.VAULT_STAT, 5, 0, .ro, 0⟩
def VR_CFG.META : Fld := ⟨.VR_CFG, 37, 12, .rw, 0⟩
def VR_CFG.INIT : Fld := ⟨.VR_CFG, 9, 9, .w1s, 0⟩
def VR_CFG.REINIT : Fld := ⟨.VR_CFG, 8, 8, .w1s, 0⟩
def VR_CFG.SIZE : Fld := ⟨.VR_CFG, 5, 0, .rw, 0⟩
def VR_STAT.HWM : Fld := ⟨.VR_STAT, 63, 8, .ro, 0⟩
def VR_STAT.STATE : Fld := ⟨.VR_STAT, 2, 0, .ro, 0⟩
def SEAL.VALID : Fld := ⟨.SEAL, 45, 45, .ro, 0⟩
def SEAL.LEVEL : Fld := ⟨.SEAL, 44, 40, .ro, 0⟩
def SEAL.REGION : Fld := ⟨.SEAL, 37, 32, .ro, 0⟩
def SEAL.NODE : Fld := ⟨.SEAL, 31, 0, .ro, 0⟩
def PKGCLK_CFG.FRAC : Fld := ⟨.PKGCLK_CFG, 47, 32, .rw, 0⟩
def PKGCLK_CFG.SEL : Fld := ⟨.PKGCLK_CFG, 29, 28, .rw, 1⟩
def PKGCLK_CFG.DIV : Fld := ⟨.PKGCLK_CFG, 27, 26, .ro, 0⟩
def PKGCLK_CFG.POSTDIV : Fld := ⟨.PKGCLK_CFG, 23, 20, .rw, 1⟩
def PKGCLK_CFG.MULT : Fld := ⟨.PKGCLK_CFG, 15, 8, .rw, 40⟩
def PKGCLK_CFG.LOOP_EN : Fld := ⟨.PKGCLK_CFG, 0, 0, .rw, 0⟩
def PKGCLK_STAT.FAILS : Fld := ⟨.PKGCLK_STAT, 63, 48, .rc, 0⟩
def PKGCLK_STAT.COUNT : Fld := ⟨.PKGCLK_STAT, 47, 32, .ro, 0⟩
def PKGCLK_STAT.SWITCHING : Fld := ⟨.PKGCLK_STAT, 7, 7, .ro, 0⟩
def PKGCLK_STAT.REFUSED : Fld := ⟨.PKGCLK_STAT, 6, 6, .w1c, 0⟩
def PKGCLK_STAT.STOPPED : Fld := ⟨.PKGCLK_STAT, 5, 5, .ro, 0⟩
def PKGCLK_STAT.ON_FIO : Fld := ⟨.PKGCLK_STAT, 4, 4, .ro, 0⟩
def PKGCLK_STAT.FAILED : Fld := ⟨.PKGCLK_STAT, 3, 3, .w1c, 0⟩
def PKGCLK_STAT.READY : Fld := ⟨.PKGCLK_STAT, 2, 2, .ro, 0⟩
def PKGCLK_STAT.LOCKED : Fld := ⟨.PKGCLK_STAT, 1, 1, .ro, 0⟩
def SRC_STAT.SIO_T : Fld := ⟨.SRC_STAT, 15, 12, .w1c, 0⟩
def SRC_STAT.FIO_T : Fld := ⟨.SRC_STAT, 11, 8, .w1c, 0⟩
def SRC_STAT.SIO : Fld := ⟨.SRC_STAT, 4, 4, .w1c, 0⟩
def SRC_STAT.FIO : Fld := ⟨.SRC_STAT, 3, 3, .w1c, 0⟩
def SRC_STAT.REFCLK : Fld := ⟨.SRC_STAT, 2, 2, .w1c, 0⟩
def SRC_STAT.XTALB : Fld := ⟨.SRC_STAT, 1, 1, .w1c, 0⟩
def SRC_STAT.XTALA : Fld := ⟨.SRC_STAT, 0, 0, .w1c, 0⟩
def CLKGATE_MODE.FORCED : Fld := ⟨.CLKGATE_MODE, 1, 1, .ro, 1⟩
def CLKGATE_MODE.AUTO : Fld := ⟨.CLKGATE_MODE, 0, 0, .rw, 1⟩
def CLKDOM_CFG.FRAC : Fld := ⟨.CLKDOM_CFG, 47, 32, .rw, 0⟩
def CLKDOM_CFG.SEL : Fld := ⟨.CLKDOM_CFG, 29, 28, .rw, 1⟩
def CLKDOM_CFG.DIV : Fld := ⟨.CLKDOM_CFG, 27, 26, .ro, 0⟩
def CLKDOM_CFG.POSTDIV : Fld := ⟨.CLKDOM_CFG, 23, 20, .rw, 1⟩
def CLKDOM_CFG.MULT : Fld := ⟨.CLKDOM_CFG, 15, 8, .rw, 40⟩
def CLKDOM_CFG.LOOP_EN : Fld := ⟨.CLKDOM_CFG, 0, 0, .rw, 0⟩
def CLKDOM_STAT.FAILS : Fld := ⟨.CLKDOM_STAT, 63, 48, .rc, 0⟩
def CLKDOM_STAT.COUNT : Fld := ⟨.CLKDOM_STAT, 47, 32, .ro, 0⟩
def CLKDOM_STAT.SWITCHING : Fld := ⟨.CLKDOM_STAT, 7, 7, .ro, 0⟩
def CLKDOM_STAT.REFUSED : Fld := ⟨.CLKDOM_STAT, 6, 6, .w1c, 0⟩
def CLKDOM_STAT.STOPPED : Fld := ⟨.CLKDOM_STAT, 5, 5, .ro, 0⟩
def CLKDOM_STAT.ON_FIO : Fld := ⟨.CLKDOM_STAT, 4, 4, .ro, 0⟩
def CLKDOM_STAT.FAILED : Fld := ⟨.CLKDOM_STAT, 3, 3, .w1c, 0⟩
def CLKDOM_STAT.READY : Fld := ⟨.CLKDOM_STAT, 2, 2, .ro, 0⟩
def CLKDOM_STAT.LOCKED : Fld := ⟨.CLKDOM_STAT, 1, 1, .ro, 0⟩
def GATE.GATE_TIMEOUT : Fld := ⟨.GATE, 15, 15, .w1c, 0⟩
def GATE.PENDING_OFF : Fld := ⟨.GATE, 11, 11, .ro, 0⟩
def GATE.PENDING_ON : Fld := ⟨.GATE, 10, 10, .ro, 0⟩
def GATE.CLOSING : Fld := ⟨.GATE, 9, 9, .ro, 0⟩
def GATE.OPEN : Fld := ⟨.GATE, 8, 8, .ro, 1⟩
def GATE.DEEP_EN : Fld := ⟨.GATE, 2, 2, .rw, 0⟩
def GATE.SLEEP_EN : Fld := ⟨.GATE, 1, 1, .rw, 0⟩
def GATE.RUN_EN : Fld := ⟨.GATE, 0, 0, .rw, 1⟩
def CROSS_MERGED.NMI : Fld := ⟨.CROSS_MERGED, 3, 3, .w1c, 0⟩
def CROSS_MERGED.LAP_MARK : Fld := ⟨.CROSS_MERGED, 2, 2, .w1c, 0⟩
def CROSS_MERGED.TRIGOUT : Fld := ⟨.CROSS_MERGED, 1, 1, .w1c, 0⟩
def CROSS_MERGED.SCRUB_PROGRESS : Fld := ⟨.CROSS_MERGED, 0, 0, .w1c, 0⟩
def PKG_INPUT.PIN : Fld := ⟨.PKG_INPUT, 63, 48, .ro, 0⟩
def PKG_INPUT.IIN : Fld := ⟨.PKG_INPUT, 47, 32, .ro, 0⟩
def PKG_INPUT.VIN : Fld := ⟨.PKG_INPUT, 15, 0, .ro, 0⟩
def PKG_CAP.EFFECTIVE : Fld := ⟨.PKG_CAP, 63, 48, .ro, 2600⟩
def PKG_CAP.VIN_CAP : Fld := ⟨.PKG_CAP, 47, 32, .ro, 2600⟩
def PKG_CAP.ILIM : Fld := ⟨.PKG_CAP, 16, 16, .ro, 0⟩
def PKG_CAP.CAP : Fld := ⟨.PKG_CAP, 15, 0, .rw, 0⟩
def PKG_ENERGY.ENERGY : Fld := ⟨.PKG_ENERGY, 63, 0, .ro, 0⟩
def PKG_THERM.TMIN : Fld := ⟨.PKG_THERM, 63, 48, .ro, 0⟩
def PKG_THERM.TMAX : Fld := ⟨.PKG_THERM, 47, 32, .ro, 0⟩
def PKG_THERM.TOWER : Fld := ⟨.PKG_THERM, 31, 30, .ro, 0⟩
def PKG_THERM.SHUTDOWN : Fld := ⟨.PKG_THERM, 4, 4, .w1c, 0⟩
def PKG_THERM.CRIT : Fld := ⟨.PKG_THERM, 3, 3, .ro, 0⟩
def PKG_THERM.THROTTLE : Fld := ⟨.PKG_THERM, 2, 2, .ro, 0⟩
def PKG_THERM.WARN : Fld := ⟨.PKG_THERM, 1, 1, .ro, 0⟩
def PKG_THERM.DEGRADED : Fld := ⟨.PKG_THERM, 0, 0, .ro, 0⟩
def PKG_THRESH.TSHUT : Fld := ⟨.PKG_THRESH, 31, 24, .ro, 135⟩
def PKG_THRESH.TCRIT : Fld := ⟨.PKG_THRESH, 23, 16, .ro, 125⟩
def PKG_THRESH.TTHROTTLE : Fld := ⟨.PKG_THRESH, 15, 8, .rw, 115⟩
def PKG_THRESH.TWARN : Fld := ⟨.PKG_THRESH, 7, 0, .rw, 105⟩
def PD_CTRL.WAKE_ON_ACCESS : Fld := ⟨.PD_CTRL, 8, 8, .rw, 0⟩
def PD_CTRL.REQ : Fld := ⟨.PD_CTRL, 2, 0, .wo, 0⟩
def PD_STAT.SEQUENCES : Fld := ⟨.PD_STAT, 63, 32, .rc, 0⟩
def PD_STAT.LATCH_VALID : Fld := ⟨.PD_STAT, 19, 19, .ro, 0⟩
def PD_STAT.LATCHED : Fld := ⟨.PD_STAT, 18, 16, .ro, 0⟩
def PD_STAT.NOW : Fld := ⟨.PD_STAT, 10, 8, .ro, 0⟩
def PD_STAT.WORD : Fld := ⟨.PD_STAT, 7, 0, .ro, 0⟩
def TPWR_STAT.POWER : Fld := ⟨.TPWR_STAT, 63, 48, .ro, 0⟩
def TPWR_STAT.VLOGIC : Fld := ⟨.TPWR_STAT, 47, 32, .ro, 750⟩
def TPWR_STAT.LEVEL : Fld := ⟨.TPWR_STAT, 23, 20, .ro, 0⟩
def TPWR_STAT.TLEVEL : Fld := ⟨.TPWR_STAT, 19, 16, .ro, 0⟩
def TPWR_STAT.PLEVEL : Fld := ⟨.TPWR_STAT, 15, 12, .ro, 0⟩
def TPWR_STAT.DIV : Fld := ⟨.TPWR_STAT, 1, 0, .ro, 0⟩
def TEMP.VALID : Fld := ⟨.TEMP, 16, 16, .ro, 0⟩
def TEMP.VALUE : Fld := ⟨.TEMP, 15, 0, .ro, 0⟩
def TWR_TMAX.DEGRADED : Fld := ⟨.TWR_TMAX, 31, 31, .ro, 0⟩
def TWR_TMAX.LAYER : Fld := ⟨.TWR_TMAX, 30, 28, .ro, 0⟩
def TWR_TMAX.SENSOR : Fld := ⟨.TWR_TMAX, 27, 24, .ro, 0⟩
def TWR_TMAX.VALUE : Fld := ⟨.TWR_TMAX, 15, 0, .ro, 0⟩
def TEST_CTRL.RETRY_MS : Fld := ⟨.TEST_CTRL, 63, 48, .rw, 100⟩
def TEST_CTRL.SPACING : Fld := ⟨.TEST_CTRL, 47, 32, .rw, 1000⟩
def TEST_CTRL.SWEEP_HOURS : Fld := ⟨.TEST_CTRL, 31, 16, .rw, 24⟩
def TEST_CTRL.SWEEP_EN : Fld := ⟨.TEST_CTRL, 0, 0, .rw, 1⟩
def TEST_BUDGET.ANALOG : Fld := ⟨.TEST_BUDGET, 31, 16, .rw, 50⟩
def TEST_BUDGET.TILE : Fld := ⟨.TEST_BUDGET, 15, 0, .rw, 50⟩
def TEST_STAT.SWEEP_DONE : Fld := ⟨.TEST_STAT, 63, 32, .ro, 0⟩
def TEST_STAT.GROUPS : Fld := ⟨.TEST_STAT, 15, 8, .ro, 0⟩
def TEST_STAT.SWEEP : Fld := ⟨.TEST_STAT, 3, 3, .ro, 0⟩
def TEST_STAT.ANALOG : Fld := ⟨.TEST_STAT, 2, 2, .ro, 0⟩
def TEST_STAT.TILE : Fld := ⟨.TEST_STAT, 1, 1, .ro, 0⟩
def TEST_STAT.ROTATING : Fld := ⟨.TEST_STAT, 0, 0, .ro, 0⟩
def SPLIT_RESULT.BLOCK : Fld := ⟨.SPLIT_RESULT, 63, 32, .ro, 0⟩
def SPLIT_RESULT.ENGINE : Fld := ⟨.SPLIT_RESULT, 31, 24, .ro, 0⟩
def SPLIT_RESULT.RAIL_UNMONITORED : Fld := ⟨.SPLIT_RESULT, 17, 17, .w1c, 0⟩
def SPLIT_RESULT.LOOP_FAULT : Fld := ⟨.SPLIT_RESULT, 16, 16, .w1c, 0⟩
def SPLIT_RESULT.REPAIRS : Fld := ⟨.SPLIT_RESULT, 15, 8, .ro, 0⟩
def SPLIT_RESULT.RESULT : Fld := ⟨.SPLIT_RESULT, 7, 0, .ro, 0⟩
def GROUP_CFG.PERM : Fld := ⟨.GROUP_CFG, 32, 32, .ro, 0⟩
def GROUP_CFG.BANK : Fld := ⟨.GROUP_CFG, 31, 24, .ro, 0⟩
def GROUP_CFG.BUDGET : Fld := ⟨.GROUP_CFG, 15, 0, .rw, 50⟩
def STEER.RETIRED : Fld := ⟨.STEER, 17, 17, .ro, 0⟩
def STEER.WALKING : Fld := ⟨.STEER, 16, 16, .ro, 0⟩
def STEER.TARGET : Fld := ⟨.STEER, 14, 8, .ro, 64⟩
def STEER.S : Fld := ⟨.STEER, 6, 0, .ro, 64⟩
def TFAIL_L3.FAILED : Fld := ⟨.TFAIL_L3, 63, 0, .ro, 0⟩
def TFAIL_L4.FAILED : Fld := ⟨.TFAIL_L4, 63, 0, .ro, 0⟩
def BANK_DEGRADED.BANKS : Fld := ⟨.BANK_DEGRADED, 63, 0, .ro, 0⟩
def BANK_FAILED.BANKS : Fld := ⟨.BANK_FAILED, 63, 0, .ro, 0⟩
def LAYER_STAT.RETIRED : Fld := ⟨.LAYER_STAT, 5, 0, .ro, 0⟩
def REPAIR_STAT.TOTAL : Fld := ⟨.REPAIR_STAT, 63, 32, .ro, 0⟩
def REPAIR_STAT.UNCOMMITTED : Fld := ⟨.REPAIR_STAT, 31, 16, .ro, 0⟩
def REPAIR_STAT.NEXT : Fld := ⟨.REPAIR_STAT, 5, 0, .ro, 0⟩
def FUSE_CTRL.FREE : Fld := ⟨.FUSE_CTRL, 47, 32, .ro, 0⟩
def FUSE_CTRL.RESULT : Fld := ⟨.FUSE_CTRL, 9, 8, .ro, 0⟩
def FUSE_CTRL.BUSY : Fld := ⟨.FUSE_CTRL, 1, 1, .ro, 0⟩
def FUSE_CTRL.COMMIT : Fld := ⟨.FUSE_CTRL, 0, 0, .w1s, 0⟩
def REPAIR_LOG.KIND : Fld := ⟨.REPAIR_LOG, 63, 56, .ro, 0⟩
def REPAIR_LOG.COMMITTED : Fld := ⟨.REPAIR_LOG, 55, 55, .ro, 0⟩
def REPAIR_LOG.LEFT : Fld := ⟨.REPAIR_LOG, 47, 40, .ro, 0⟩
def REPAIR_LOG.LAYER : Fld := ⟨.REPAIR_LOG, 39, 37, .ro, 0⟩
def REPAIR_LOG.ROW : Fld := ⟨.REPAIR_LOG, 36, 31, .ro, 0⟩
def REPAIR_LOG.PCOL : Fld := ⟨.REPAIR_LOG, 30, 24, .ro, 0⟩
def REPAIR_LOG.CLUSTER : Fld := ⟨.REPAIR_LOG, 23, 18, .ro, 0⟩
def REPAIR_LOG.ITEM : Fld := ⟨.REPAIR_LOG, 17, 0, .ro, 0⟩
def REPAIR_LOG_LAP.LAP : Fld := ⟨.REPAIR_LOG_LAP, 63, 0, .ro, 0⟩
def SCRUB_CTRL.WDOG : Fld := ⟨.SCRUB_CTRL, 15, 0, .rw, 100⟩
def SCRUB_STAT.RESTARTS : Fld := ⟨.SCRUB_STAT, 63, 48, .rc, 0⟩
def SCRUB_STAT.VOTES : Fld := ⟨.SCRUB_STAT, 47, 40, .rc, 0⟩
def SCRUB_STAT.PASSES : Fld := ⟨.SCRUB_STAT, 31, 0, .ro, 0⟩
def SCRUB_POS.CORRECTED : Fld := ⟨.SCRUB_POS, 63, 32, .ro, 0⟩
def SCRUB_POS.FRAME : Fld := ⟨.SCRUB_POS, 17, 0, .ro, 0⟩
def FRAME_BAD.VALID : Fld := ⟨.FRAME_BAD, 63, 63, .ro, 0⟩
def FRAME_BAD.LAYER : Fld := ⟨.FRAME_BAD, 59, 57, .ro, 0⟩
def FRAME_BAD.FRAME : Fld := ⟨.FRAME_BAD, 17, 0, .ro, 0⟩
def MBX_MSG.WORD : Fld := ⟨.MBX_MSG, 63, 0, .wo, 0⟩
def MBX_ANS.WORD : Fld := ⟨.MBX_ANS, 63, 0, .ro, 0⟩
def MBX_CTRL.RELEASE : Fld := ⟨.MBX_CTRL, 1, 1, .w1s, 0⟩
def MBX_CTRL.GO : Fld := ⟨.MBX_CTRL, 0, 0, .w1s, 0⟩
def MBX_STAT.SESSION : Fld := ⟨.MBX_STAT, 63, 48, .ro, 0⟩
def MBX_STAT.STATE : Fld := ⟨.MBX_STAT, 1, 0, .ro, 0⟩
def REF_STAT.BOOT_RESULT : Fld := ⟨.REF_STAT, 63, 48, .ro, 0⟩
def REF_STAT.FAILOVERS : Fld := ⟨.REF_STAT, 47, 40, .ro, 0⟩
def REF_STAT.ALERTS : Fld := ⟨.REF_STAT, 13, 8, .w1c, 0⟩
def REF_STAT.BANKV_FAULT : Fld := ⟨.REF_STAT, 2, 2, .ro, 0⟩
def REF_STAT.REPLICA_OK : Fld := ⟨.REF_STAT, 1, 1, .ro, 1⟩
def REF_STAT.ACTIVE : Fld := ⟨.REF_STAT, 0, 0, .ro, 0⟩
def REF_STRAPS.BOOT : Fld := ⟨.REF_STRAPS, 19, 18, .ro, 0⟩
def REF_STRAPS.REF : Fld := ⟨.REF_STRAPS, 17, 17, .ro, 0⟩
def REF_STRAPS.SSC : Fld := ⟨.REF_STRAPS, 16, 16, .ro, 0⟩
def REF_STRAPS.IDLE : Fld := ⟨.REF_STRAPS, 15, 15, .ro, 0⟩
def REF_STRAPS.ANCHOR : Fld := ⟨.REF_STRAPS, 14, 14, .ro, 0⟩
def REF_STRAPS.LAB : Fld := ⟨.REF_STRAPS, 13, 13, .ro, 0⟩
def REF_STRAPS.BANKV : Fld := ⟨.REF_STRAPS, 11, 0, .ro, 0⟩
def REF_BOOTSRC.ADDR : Fld := ⟨.REF_BOOTSRC, 47, 0, .rw, 0⟩
def BB_STAT.PINNED : Fld := ⟨.BB_STAT, 63, 48, .ro, 0⟩
def BB_STAT.PINNED_FULL : Fld := ⟨.BB_STAT, 43, 43, .ro, 0⟩
def BB_STAT.COPY_FAULT : Fld := ⟨.BB_STAT, 42, 41, .ro, 0⟩
def BB_STAT.WRAPS : Fld := ⟨.BB_STAT, 40, 17, .ro, 0⟩
def BB_STAT.NEXT : Fld := ⟨.BB_STAT, 16, 0, .ro, 0⟩
def BB_SEL.COPY : Fld := ⟨.BB_SEL, 32, 32, .rw, 0⟩
def BB_SEL.INDEX : Fld := ⟨.BB_SEL, 16, 0, .rw, 0⟩
def BB_WINDOW.WORD : Fld := ⟨.BB_WINDOW, 63, 0, .ro, 0⟩
def BANK_CFG.FAULT : Fld := ⟨.BANK_CFG, 5, 5, .ro, 0⟩
def BANK_CFG.VOLT : Fld := ⟨.BANK_CFG, 4, 2, .ro, 0⟩
def BANK_CFG.IDLE_PD : Fld := ⟨.BANK_CFG, 1, 1, .ro, 0⟩
def BANK_CFG.ASYNC : Fld := ⟨.BANK_CFG, 0, 0, .ro, 0⟩
def PINS_STAT.CONFLICT_SIG : Fld := ⟨.PINS_STAT, 40, 32, .ro, 0⟩
def PINS_STAT.MAP_CONFLICT : Fld := ⟨.PINS_STAT, 0, 0, .w1c, 0⟩
def PAD_IN.PADS : Fld := ⟨.PAD_IN, 63, 0, .ro, 0⟩
def GATHER_IN.SAMPLES : Fld := ⟨.GATHER_IN, 63, 0, .ro, 0⟩
def DOUT.OUT : Fld := ⟨.DOUT, 63, 0, .rw, 0⟩
def GPIO_OUT.OUT : Fld := ⟨.GPIO_OUT, 63, 0, .rw, 0⟩
def GPIO_SET.BITS : Fld := ⟨.GPIO_SET, 63, 0, .wo, 0⟩
def GPIO_CLR.BITS : Fld := ⟨.GPIO_CLR, 63, 0, .wo, 0⟩
def GPIO_TGL.BITS : Fld := ⟨.GPIO_TGL, 63, 0, .wo, 0⟩
def GPIO_OE.OE : Fld := ⟨.GPIO_OE, 63, 0, .rw, 0⟩
def PIN_CFG.PARKED : Fld := ⟨.PIN_CFG, 17, 17, .ro, 0⟩
def PIN_CFG.DRIVE : Fld := ⟨.PIN_CFG, 15, 14, .rw, 1⟩
def PIN_CFG.SLOW : Fld := ⟨.PIN_CFG, 13, 13, .rw, 0⟩
def PIN_CFG.HYST : Fld := ⟨.PIN_CFG, 12, 12, .rw, 1⟩
def PIN_CFG.KEEPER : Fld := ⟨.PIN_CFG, 11, 11, .rw, 0⟩
def PIN_CFG.PULL : Fld := ⟨.PIN_CFG, 10, 9, .rw, 0⟩
def PIN_CFG.OD : Fld := ⟨.PIN_CFG, 8, 8, .rw, 0⟩
def PIN_CFG.SEL : Fld := ⟨.PIN_CFG, 7, 4, .rw, 0⟩
def PIN_CFG.FUNC : Fld := ⟨.PIN_CFG, 3, 0, .rw, 0⟩
def PIN_OWN.ENG : Fld := ⟨.PIN_OWN, 7, 4, .rw, 0⟩
def PIN_OWN.KIND : Fld := ⟨.PIN_OWN, 1, 0, .rw, 0⟩
def PMU_CTRL.MATCH : Fld := ⟨.PMU_CTRL, 33, 33, .ro, 0⟩
def PMU_CTRL.EN : Fld := ⟨.PMU_CTRL, 32, 32, .rw, 0⟩
def PMU_CTRL.VALUE : Fld := ⟨.PMU_CTRL, 31, 16, .rw, 0⟩
def PMU_CTRL.MASK : Fld := ⟨.PMU_CTRL, 15, 0, .rw, 0⟩
def PMU_SEL.PIN0 : Fld := ⟨.PMU_SEL, 8, 0, .rw, 0⟩
def PMU_SEL.PIN1 : Fld := ⟨.PMU_SEL, 24, 16, .rw, 0⟩
def PMU_SEL.PIN2 : Fld := ⟨.PMU_SEL, 40, 32, .rw, 0⟩
def PMU_SEL.PIN3 : Fld := ⟨.PMU_SEL, 56, 48, .rw, 0⟩
def PMU_STAT.MATCHES : Fld := ⟨.PMU_STAT, 63, 32, .rc, 0⟩
def PMU_STAT.HELD : Fld := ⟨.PMU_STAT, 0, 0, .ro, 0⟩
def RU_CTRL.RELEASE : Fld := ⟨.RU_CTRL, 24, 16, .rw, 0⟩
def RU_CTRL.PMU : Fld := ⟨.RU_CTRL, 12, 8, .rw, 0⟩
def RU_CTRL.ACTIVE_HIGH : Fld := ⟨.RU_CTRL, 2, 2, .rw, 0⟩
def RU_CTRL.FORCE_RELEASE : Fld := ⟨.RU_CTRL, 1, 1, .w1s, 0⟩
def RU_CTRL.EN : Fld := ⟨.RU_CTRL, 0, 0, .rw, 0⟩
def RU_STAT.SETS : Fld := ⟨.RU_STAT, 63, 32, .rc, 0⟩
def RU_STAT.ARMED : Fld := ⟨.RU_STAT, 1, 1, .ro, 0⟩
def RU_STAT.HELD : Fld := ⟨.RU_STAT, 0, 0, .ro, 0⟩
def TRIGOUT_CFG.WIDTH : Fld := ⟨.TRIGOUT_CFG, 7, 0, .rw, 4⟩
def DB_CREDIT.CREDITS : Fld := ⟨.DB_CREDIT, 15, 0, .rw, 0⟩
def DB_RING_PI.PI : Fld := ⟨.DB_RING_PI, 31, 0, .rw, 0⟩
def DB_RING_CI.CI : Fld := ⟨.DB_RING_CI, 31, 0, .rw, 0⟩
def DB_STAT.HIGH : Fld := ⟨.DB_STAT, 63, 63, .ro, 0⟩
def DB_STAT.FAULTED : Fld := ⟨.DB_STAT, 62, 62, .ro, 0⟩
def DB_STAT.POISON_HEAD : Fld := ⟨.DB_STAT, 61, 61, .ro, 0⟩
def DB_STAT.IN_FLOW : Fld := ⟨.DB_STAT, 60, 60, .ro, 0⟩
def DB_STAT.RING_FULL : Fld := ⟨.DB_STAT, 59, 59, .ro, 0⟩
def DB_STAT.CREDITS : Fld := ⟨.DB_STAT, 41, 21, .ro, 0⟩
def DB_STAT.COUNT : Fld := ⟨.DB_STAT, 20, 0, .ro, 0⟩

end F

/-- The fields of a register; bits outside them are reserved (R11). -/
def RegName.fields : RegName → List Fld
  | .LAP_CTRL => [F.LAP_CTRL.STOP, F.LAP_CTRL.CLR_TORN]
  | .LAP_STAT => [F.LAP_STAT.RETRIES, F.LAP_STAT.SCRATCH, F.LAP_STAT.RESULT, F.LAP_STAT.RETRY_HALT, F.LAP_STAT.STOP_PENDING, F.LAP_STAT.STATUS]
  | .LAP_COUNT => [F.LAP_COUNT.COUNT]
  | .LAP_END => [F.LAP_END.END]
  | .LAP_POS => [F.LAP_POS.POS]
  | .LAP_RETRY => [F.LAP_RETRY.DELAY, F.LAP_RETRY.LIMIT, F.LAP_RETRY.CAUSES]
  | .RETRY_STAT => [F.RETRY_STAT.SCRATCHED, F.RETRY_STAT.RETRIED]
  | .TRIG_CTRL => [F.TRIG_CTRL.PASS, F.TRIG_CTRL.PMU, F.TRIG_CTRL.COMBINE, F.TRIG_CTRL.MODE, F.TRIG_CTRL.EVENT, F.TRIG_CTRL.HALT, F.TRIG_CTRL.TRIGOUT, F.TRIG_CTRL.LOGMARK, F.TRIG_CTRL.ARMED]
  | .TRIG_ADDR => [F.TRIG_ADDR.DIE, F.TRIG_ADDR.ROW, F.TRIG_ADDR.COL, F.TRIG_ADDR.WORD]
  | .TRIG_MASK => [F.TRIG_MASK.MASK]
  | .TRIG_VALUE => [F.TRIG_VALUE.VALUE]
  | .TRIG_MATCHES => [F.TRIG_MATCHES.MATCHES]
  | .TRIG_FIRED_LAP => [F.TRIG_FIRED_LAP.LAP]
  | .TRIG_FIRED => [F.TRIG_FIRED.FIRED]
  | .BENCH => [F.BENCH.ENABLE, F.BENCH.DIE, F.BENCH.ROW_FIRST, F.BENCH.ROW_LAST, F.BENCH.COL_FIRST, F.BENCH.COL_LAST]
  | .BENCH_STAT => [F.BENCH_STAT.PENDING, F.BENCH_STAT.ACTIVE]
  | .FABRIC_LIMITS => [F.FABRIC_LIMITS.NONBLOCK, F.FABRIC_LIMITS.STEP_LIMIT]
  | .SCHED_STAT => [F.SCHED_STAT.POS, F.SCHED_STAT.KIND]
  | .LAP_KIND => [F.LAP_KIND.EDGES, F.LAP_KIND.COUNT, F.LAP_KIND.FIRST, F.LAP_KIND.VALID]
  | .LAP_SCHED => [F.LAP_SCHED.LAST, F.LAP_SCHED.KIND]
  | .LOAD_STAT => [F.LOAD_STAT.RESULT, F.LOAD_STAT.ENGINE, F.LOAD_STAT.KIND, F.LOAD_STAT.LATE, F.LOAD_STAT.UNBENCH_HELD, F.LOAD_STAT.UNSIGNED, F.LOAD_STAT.GSR, F.LOAD_STAT.PERSONA, F.LOAD_STAT.STAGED, F.LOAD_STAT.ACT_PENDING, F.LOAD_STAT.LOADER]
  | .LOAD_FAULT => [F.LOAD_FAULT.RESP, F.LOAD_FAULT.FRAME]
  | .LOAD_CTRL => [F.LOAD_CTRL.DEADLINE, F.LOAD_CTRL.DISCARD, F.LOAD_CTRL.PACE]
  | .ACT_AT => [F.ACT_AT.AT]
  | .ACT_LAP => [F.ACT_LAP.LAP]
  | .PERSONA_ID => [F.PERSONA_ID.ROOT]
  | .LOG_CTRL => [F.LOG_CTRL.QUEUE, F.LOG_CTRL.ITEMDATA, F.LOG_CTRL.DROP, F.LOG_CTRL.MODE]
  | .LOG_STAT => [F.LOG_STAT.LOST, F.LOG_STAT.DIVERGED]
  | .TLC_STAT => [F.TLC_STAT.TILES, F.TLC_STAT.STEP, F.TLC_STAT.WAIT_CONTEXT, F.TLC_STAT.WAIT_IMPORT, F.TLC_STAT.WAIT_STREAM, F.TLC_STAT.WAIT_VERDICT, F.TLC_STAT.PHASE]
  | .TLC_SCRATCH => [F.TLC_SCRATCH.CAUSE, F.TLC_SCRATCH.STEP, F.TLC_SCRATCH.VALID, F.TLC_SCRATCH.LAYER, F.TLC_SCRATCH.ROW, F.TLC_SCRATCH.COL, F.TLC_SCRATCH.CLUSTER]
  | .CNT_T => [F.CNT_T.VALUE]
  | .EVSEL_T => [F.EVSEL_T.EVENT]
  | .UNIT_CTRL_T => [F.UNIT_CTRL_T.TRAP_EN, F.UNIT_CTRL_T.OVF_EV_EN, F.UNIT_CTRL_T.LAPONLY, F.UNIT_CTRL_T.EN, F.UNIT_CTRL_T.CYC_EN]
  | .OVF_STAT_T => [F.OVF_STAT_T.OVF]
  | .OVF_TARGET_T => [F.OVF_TARGET_T.BIT, F.OVF_TARGET_T.TARGET]
  | .SHADOW_T => [F.SHADOW_T.VALUE]
  | .CNT_P => [F.CNT_P.VALUE]
  | .EVSEL_P => [F.EVSEL_P.EVENT]
  | .UNIT_CTRL_P => [F.UNIT_CTRL_P.TRAP_EN, F.UNIT_CTRL_P.OVF_EV_EN, F.UNIT_CTRL_P.LAPONLY, F.UNIT_CTRL_P.EN, F.UNIT_CTRL_P.CYC_EN]
  | .OVF_STAT_P => [F.OVF_STAT_P.OVF]
  | .OVF_TARGET_P => [F.OVF_TARGET_P.BIT, F.OVF_TARGET_P.TARGET]
  | .SHADOW_P => [F.SHADOW_P.VALUE]
  | .COUNTER_ACCESS => [F.COUNTER_ACCESS.PROGRAM, F.COUNTER_ACCESS.READ]
  | .COUNTER_SNAP => [F.COUNTER_SNAP.SNAP, F.COUNTER_SNAP.LAPSNAP, F.COUNTER_SNAP.EVERY]
  | .SNAP_LAP => [F.SNAP_LAP.LAP]
  | .TRACE_CTRL => [F.TRACE_CTRL.WAIT_MIN, F.TRACE_CTRL.QUEUE, F.TRACE_CTRL.EVENTS, F.TRACE_CTRL.EN]
  | .TRACE_STAT => [F.TRACE_STAT.LOST, F.TRACE_STAT.WRITTEN]
  | .BANK_OWNER => [F.BANK_OWNER.PENDING, F.BANK_OWNER.ENGINE, F.BANK_OWNER.KIND]
  | .BANK_STAT => [F.BANK_STAT.COLLISIONS, F.BANK_STAT.CORRECTED, F.BANK_STAT.SPARES_FUSED, F.BANK_STAT.SPARES_USED, F.BANK_STAT.VERDICT_WAIT, F.BANK_STAT.PORTA_RETIRED, F.BANK_STAT.STANDIN, F.BANK_STAT.COPY, F.BANK_STAT.UNCORR_SEEN]
  | .STANDIN_STAT => [F.STANDIN_STAT.BANK, F.STANDIN_STAT.PHASE]
  | .ECC_CTRL => [F.ECC_CTRL.WRAP, F.ECC_CTRL.CLEAR]
  | .ECC_STAT => [F.ECC_STAT.CORRECTED, F.ECC_STAT.UNCORRECTABLE, F.ECC_STAT.FROZEN, F.ECC_STAT.OVERRUN, F.ECC_STAT.COUNT]
  | .ECC_ADDR => [F.ECC_ADDR.ADDR]
  | .ECC_INFO => [F.ECC_INFO.LAP, F.ECC_INFO.UNCORR, F.ECC_INFO.SOURCE, F.ECC_INFO.UNIT, F.ECC_INFO.READER, F.ECC_INFO.SYNDROME]
  | .Q_BIND => [F.Q_BIND.ROLE, F.Q_BIND.CMD, F.Q_BIND.CONS_ENG, F.Q_BIND.CONS_KIND, F.Q_BIND.PROD_ENG, F.Q_BIND.PROD_KIND, F.Q_BIND.VALID]
  | .Q_LEVEL => [F.Q_LEVEL.LIMIT, F.Q_LEVEL.HIGH, F.Q_LEVEL.LOW]
  | .Q_STAT => [F.Q_STAT.HIGH, F.Q_STAT.FAULTED, F.Q_STAT.POISON_HEAD, F.Q_STAT.IN_FLOW, F.Q_STAT.RING_FULL, F.Q_STAT.CREDITS, F.Q_STAT.COUNT]
  | .Q_SEQ => [F.Q_SEQ.HEAD, F.Q_SEQ.TAIL]
  | .Q_RING => [F.Q_RING.BASE, F.Q_RING.ORDER]
  | .Q_RING_IDX => [F.Q_RING_IDX.PI, F.Q_RING_IDX.CI]
  | .Q_RING_WB => [F.Q_RING_WB.ADDR, F.Q_RING_WB.EN]
  | .Q_CTRL => [F.Q_CTRL.EV_RING, F.Q_CTRL.EV_LOW, F.Q_CTRL.EV_HIGH, F.Q_CTRL.SKIP, F.Q_CTRL.RESET]
  | .POOL_STAT => [F.POOL_STAT.TOTAL, F.POOL_STAT.FREE]
  | .POOL_BANK => [F.POOL_BANK.DRAINED, F.POOL_BANK.EN, F.POOL_BANK.BANK]
  | .ERRQ => [F.ERRQ.EN, F.ERRQ.QUEUE]
  | .ERRQ_HOST => [F.ERRQ_HOST.EN, F.ERRQ_HOST.QUEUE]
  | .ERR_LOST => [F.ERR_LOST.COUNT]
  | .FLOWCTL => [F.FLOWCTL.EN, F.FLOWCTL.INVERT, F.FLOWCTL.QUEUE]
  | .FLOW_BIND => [F.FLOW_BIND.DIE, F.FLOW_BIND.ROW, F.FLOW_BIND.COL, F.FLOW_BIND.PORT, F.FLOW_BIND.WDOG_EN, F.FLOW_BIND.OUT_EN, F.FLOW_BIND.IN_EN, F.FLOW_BIND.VALID]
  | .FLOW_QUEUES => [F.FLOW_QUEUES.OUT_Q, F.FLOW_QUEUES.IN_Q]
  | .FLOW_POS => [F.FLOW_POS.IN, F.FLOW_POS.OUT]
  | .FLOW_STAT => [F.FLOW_STAT.STARVED, F.FLOW_STAT.WAIT_IN, F.FLOW_STAT.WAIT_OUT, F.FLOW_STAT.PRESENT]
  | .FLOW_WDOG => [F.FLOW_WDOG.LIMIT]
  | .ROUTER_CFG => [F.ROUTER_CFG.W_VN0, F.ROUTER_CFG.W_VN3]
  | .ROUTER_STAT => [F.ROUTER_STAT.CORRECTED, F.ROUTER_STAT.FENCED, F.ROUTER_STAT.WAKE_HELD, F.ROUTER_STAT.HOLD_TIMEOUT, F.ROUTER_STAT.CFG_PENDING, F.ROUTER_STAT.HOLD]
  | .ROUTER_ERR => [F.ROUTER_ERR.DISCARDS, F.ROUTER_ERR.INPUT, F.ROUTER_ERR.VN]
  | .PACER => [F.PACER.ALWAYS, F.PACER.BURST, F.PACER.RATE]
  | .NET_TIMEOUT => [F.NET_TIMEOUT.LIMIT]
  | .HC_LINK => [F.HC_LINK.RETRAINS, F.HC_LINK.REPAIRED, F.HC_LINK.SPEED, F.HC_LINK.WIDTH, F.HC_LINK.UP]
  | .HC_HOSTMEM => [F.HC_HOSTMEM.GIB]
  | .HC_EVRING => [F.HC_EVRING.BASE, F.HC_EVRING.ORDER]
  | .HC_EVRING_IDX => [F.HC_EVRING_IDX.PI, F.HC_EVRING_IDX.CI]
  | .HC_EVCTRL => [F.HC_EVCTRL.HOLDOFF, F.HC_EVCTRL.NOTIFY, F.HC_EVCTRL.EN]
  | .HC_EVSTAT => [F.HC_EVSTAT.LOST, F.HC_EVSTAT.FAULT, F.HC_EVSTAT.OVERFLOW]
  | .HR_BASE => [F.HR_BASE.BASE, F.HR_BASE.VAULT, F.HR_BASE.DEV_WR, F.HR_BASE.DEV_RD, F.HR_BASE.EN]
  | .HR_LIMIT => [F.HR_LIMIT.LIMIT]
  | .PORT_CTRL => [F.PORT_CTRL.IDLE_AFTER, F.PORT_CTRL.MIN_WIDTH, F.PORT_CTRL.SPARE, F.PORT_CTRL.FAR_LOOP, F.PORT_CTRL.EN]
  | .PORT_STAT => [F.PORT_STAT.ACTIVE, F.PORT_STAT.SPARES, F.PORT_STAT.FAILED, F.PORT_STAT.TX_WIDTH, F.PORT_STAT.WIDTH, F.PORT_STAT.REF_FAULT, F.PORT_STAT.MAP_PENDING, F.PORT_STAT.MAP_QUEUED, F.PORT_STAT.IDLE_PENDING, F.PORT_STAT.STATE]
  | .PORT_MAP => [F.PORT_MAP.TX, F.PORT_MAP.RX]
  | .PORT_EVENTS => [F.PORT_EVENTS.EV_EN, F.PORT_EVENTS.LANE_FAILED, F.PORT_EVENTS.SUBSTITUTED, F.PORT_EVENTS.NARROWED, F.PORT_EVENTS.DOWN, F.PORT_EVENTS.UP, F.PORT_EVENTS.IDLE_EXIT_FAIL]
  | .PORT_LIMITS => [F.PORT_LIMITS.ACQ_LIMIT, F.PORT_LIMITS.IDLE_LONG, F.PORT_LIMITS.LOSS_LIMIT]
  | .LANE_CTRL => [F.LANE_CTRL.TX_PRESET, F.LANE_CTRL.PRBS, F.LANE_CTRL.RETIRE, F.LANE_CTRL.CLR_FAIL, F.LANE_CTRL.NEAR_LOOP, F.LANE_CTRL.ADAPT]
  | .LANE_STAT => [F.LANE_STAT.LOSSES, F.LANE_STAT.SKEW, F.LANE_STAT.FREQ, F.LANE_STAT.EYE, F.LANE_STAT.STATE]
  | .LANE_EQ => [F.LANE_EQ.CTLE, F.LANE_EQ.DFE]
  | .LANE_ERR => [F.LANE_ERR.HDR_ERR, F.LANE_ERR.PRBS_ERR]
  | .CHAIN_CFG => [F.CHAIN_CFG.ANCHOR_ID, F.CHAIN_CFG.MODE, F.CHAIN_CFG.ID]
  | .CHAIN_STAT => [F.CHAIN_STAT.FWD_DROP, F.CHAIN_STAT.ORIGIN, F.CHAIN_STAT.STALE, F.CHAIN_STAT.MISMATCH, F.CHAIN_STAT.CONFIG_FAULT, F.CHAIN_STAT.UNDECIDED, F.CHAIN_STAT.STATE]
  | .CHAIN_LIMITS => [F.CHAIN_LIMITS.REPLAY_LIMIT, F.CHAIN_LIMITS.REPLAY_TIMEOUT, F.CHAIN_LIMITS.BATON_LIMIT]
  | .CHAIN_CTRL => [F.CHAIN_CTRL.DISCARD]
  | .CHAIN_PORT => [F.CHAIN_PORT.PEER_ID, F.CHAIN_PORT.PEER_PORT, F.CHAIN_PORT.HELLO_FAULT, F.CHAIN_PORT.LAP_READY, F.CHAIN_PORT.ROLE]
  | .LINK_STAT => [F.LINK_STAT.REPLAYS, F.LINK_STAT.CRC_ERR, F.LINK_STAT.PROTO_ERR, F.LINK_STAT.EXHAUSTED, F.LINK_STAT.ALIVE_LOST]
  | .BRIDGE_CFG => [F.BRIDGE_CFG.PEER_BRIDGE, F.BRIDGE_CFG.PEER_ID, F.BRIDGE_CFG.EN, F.BRIDGE_CFG.DIR, F.BRIDGE_CFG.QUEUE]
  | .BRIDGE_STAT => [F.BRIDGE_STAT.UNACKED, F.BRIDGE_STAT.CREDITS, F.BRIDGE_STAT.STALLED]
  | .FWD => [F.FWD.VALID, F.FWD.PORT]
  | .SEC_STAT => [F.SEC_STAT.DENIED, F.SEC_STAT.AUTH_FAIL, F.SEC_STAT.LOCKOUT, F.SEC_STAT.ZEROISED, F.SEC_STAT.CLAIMED, F.SEC_STAT.LAB_ALLOWED, F.SEC_STAT.LAB]
  | .SEC_CTRL => [F.SEC_CTRL.EV_EN, F.SEC_CTRL.ALARM_HALT, F.SEC_CTRL.OPER_AUTH, F.SEC_CTRL.LAB_EN]
  | .SEC_ALARM => [F.SEC_ALARM.ZEROISE, F.SEC_ALARM.SEALED, F.SEC_ALARM.TAG_FAILED, F.SEC_ALARM.UNENROLLED_LINK, F.SEC_ALARM.LINK_AUTH, F.SEC_ALARM.LOCKOUT]
  | .SEC_COUNTS => [F.SEC_COUNTS.LINK_TAG, F.SEC_COUNTS.LINE_TAG]
  | .SEC_PORTS => [F.SEC_PORTS.ENROLLED, F.SEC_PORTS.UNENROLLED]
  | .ID_DIGEST => [F.ID_DIGEST.DIGEST]
  | .ID_BUNDLE => [F.ID_BUNDLE.WORD]
  | .ENROL_WINDOW => [F.ENROL_WINDOW.WORD]
  | .ENROL_CTRL => [F.ENROL_CTRL.RESULT, F.ENROL_CTRL.PORTS, F.ENROL_CTRL.KIND, F.ENROL_CTRL.INDEX, F.ENROL_CTRL.BUSY, F.ENROL_CTRL.REMOVE, F.ENROL_CTRL.GO]
  | .ROSTER => [F.ROSTER.DIGEST, F.ROSTER.PORTS, F.ROSTER.IN_USE, F.ROSTER.VALID]
  | .IMGKEY => [F.IMGKEY.DIGEST, F.IMGKEY.VALID]
  | .CRED => [F.CRED.DIGEST, F.CRED.VALID]
  | .SESS => [F.SESS.ROLE, F.SESS.PENDING, F.SESS.OPEN]
  | .VAULT_STAT => [F.VAULT_STAT.PENDING, F.VAULT_STAT.SEALS]
  | .VR_CFG => [F.VR_CFG.META, F.VR_CFG.INIT, F.VR_CFG.REINIT, F.VR_CFG.SIZE]
  | .VR_STAT => [F.VR_STAT.HWM, F.VR_STAT.STATE]
  | .SEAL => [F.SEAL.VALID, F.SEAL.LEVEL, F.SEAL.REGION, F.SEAL.NODE]
  | .PKGCLK_CFG => [F.PKGCLK_CFG.FRAC, F.PKGCLK_CFG.SEL, F.PKGCLK_CFG.DIV, F.PKGCLK_CFG.POSTDIV, F.PKGCLK_CFG.MULT, F.PKGCLK_CFG.LOOP_EN]
  | .PKGCLK_STAT => [F.PKGCLK_STAT.FAILS, F.PKGCLK_STAT.COUNT, F.PKGCLK_STAT.SWITCHING, F.PKGCLK_STAT.REFUSED, F.PKGCLK_STAT.STOPPED, F.PKGCLK_STAT.ON_FIO, F.PKGCLK_STAT.FAILED, F.PKGCLK_STAT.READY, F.PKGCLK_STAT.LOCKED]
  | .SRC_STAT => [F.SRC_STAT.SIO_T, F.SRC_STAT.FIO_T, F.SRC_STAT.SIO, F.SRC_STAT.FIO, F.SRC_STAT.REFCLK, F.SRC_STAT.XTALB, F.SRC_STAT.XTALA]
  | .CLKGATE_MODE => [F.CLKGATE_MODE.FORCED, F.CLKGATE_MODE.AUTO]
  | .CLKDOM_CFG => [F.CLKDOM_CFG.FRAC, F.CLKDOM_CFG.SEL, F.CLKDOM_CFG.DIV, F.CLKDOM_CFG.POSTDIV, F.CLKDOM_CFG.MULT, F.CLKDOM_CFG.LOOP_EN]
  | .CLKDOM_STAT => [F.CLKDOM_STAT.FAILS, F.CLKDOM_STAT.COUNT, F.CLKDOM_STAT.SWITCHING, F.CLKDOM_STAT.REFUSED, F.CLKDOM_STAT.STOPPED, F.CLKDOM_STAT.ON_FIO, F.CLKDOM_STAT.FAILED, F.CLKDOM_STAT.READY, F.CLKDOM_STAT.LOCKED]
  | .GATE => [F.GATE.GATE_TIMEOUT, F.GATE.PENDING_OFF, F.GATE.PENDING_ON, F.GATE.CLOSING, F.GATE.OPEN, F.GATE.DEEP_EN, F.GATE.SLEEP_EN, F.GATE.RUN_EN]
  | .CROSS_MERGED => [F.CROSS_MERGED.NMI, F.CROSS_MERGED.LAP_MARK, F.CROSS_MERGED.TRIGOUT, F.CROSS_MERGED.SCRUB_PROGRESS]
  | .PKG_INPUT => [F.PKG_INPUT.PIN, F.PKG_INPUT.IIN, F.PKG_INPUT.VIN]
  | .PKG_CAP => [F.PKG_CAP.EFFECTIVE, F.PKG_CAP.VIN_CAP, F.PKG_CAP.ILIM, F.PKG_CAP.CAP]
  | .PKG_ENERGY => [F.PKG_ENERGY.ENERGY]
  | .PKG_THERM => [F.PKG_THERM.TMIN, F.PKG_THERM.TMAX, F.PKG_THERM.TOWER, F.PKG_THERM.SHUTDOWN, F.PKG_THERM.CRIT, F.PKG_THERM.THROTTLE, F.PKG_THERM.WARN, F.PKG_THERM.DEGRADED]
  | .PKG_THRESH => [F.PKG_THRESH.TSHUT, F.PKG_THRESH.TCRIT, F.PKG_THRESH.TTHROTTLE, F.PKG_THRESH.TWARN]
  | .PD_CTRL => [F.PD_CTRL.WAKE_ON_ACCESS, F.PD_CTRL.REQ]
  | .PD_STAT => [F.PD_STAT.SEQUENCES, F.PD_STAT.LATCH_VALID, F.PD_STAT.LATCHED, F.PD_STAT.NOW, F.PD_STAT.WORD]
  | .TPWR_STAT => [F.TPWR_STAT.POWER, F.TPWR_STAT.VLOGIC, F.TPWR_STAT.LEVEL, F.TPWR_STAT.TLEVEL, F.TPWR_STAT.PLEVEL, F.TPWR_STAT.DIV]
  | .TEMP => [F.TEMP.VALID, F.TEMP.VALUE]
  | .TWR_TMAX => [F.TWR_TMAX.DEGRADED, F.TWR_TMAX.LAYER, F.TWR_TMAX.SENSOR, F.TWR_TMAX.VALUE]
  | .TEST_CTRL => [F.TEST_CTRL.RETRY_MS, F.TEST_CTRL.SPACING, F.TEST_CTRL.SWEEP_HOURS, F.TEST_CTRL.SWEEP_EN]
  | .TEST_BUDGET => [F.TEST_BUDGET.ANALOG, F.TEST_BUDGET.TILE]
  | .TEST_STAT => [F.TEST_STAT.SWEEP_DONE, F.TEST_STAT.GROUPS, F.TEST_STAT.SWEEP, F.TEST_STAT.ANALOG, F.TEST_STAT.TILE, F.TEST_STAT.ROTATING]
  | .SPLIT_RESULT => [F.SPLIT_RESULT.BLOCK, F.SPLIT_RESULT.ENGINE, F.SPLIT_RESULT.RAIL_UNMONITORED, F.SPLIT_RESULT.LOOP_FAULT, F.SPLIT_RESULT.REPAIRS, F.SPLIT_RESULT.RESULT]
  | .GROUP_CFG => [F.GROUP_CFG.PERM, F.GROUP_CFG.BANK, F.GROUP_CFG.BUDGET]
  | .STEER => [F.STEER.RETIRED, F.STEER.WALKING, F.STEER.TARGET, F.STEER.S]
  | .TFAIL_L3 => [F.TFAIL_L3.FAILED]
  | .TFAIL_L4 => [F.TFAIL_L4.FAILED]
  | .BANK_DEGRADED => [F.BANK_DEGRADED.BANKS]
  | .BANK_FAILED => [F.BANK_FAILED.BANKS]
  | .LAYER_STAT => [F.LAYER_STAT.RETIRED]
  | .REPAIR_STAT => [F.REPAIR_STAT.TOTAL, F.REPAIR_STAT.UNCOMMITTED, F.REPAIR_STAT.NEXT]
  | .FUSE_CTRL => [F.FUSE_CTRL.FREE, F.FUSE_CTRL.RESULT, F.FUSE_CTRL.BUSY, F.FUSE_CTRL.COMMIT]
  | .REPAIR_LOG => [F.REPAIR_LOG.KIND, F.REPAIR_LOG.COMMITTED, F.REPAIR_LOG.LEFT, F.REPAIR_LOG.LAYER, F.REPAIR_LOG.ROW, F.REPAIR_LOG.PCOL, F.REPAIR_LOG.CLUSTER, F.REPAIR_LOG.ITEM]
  | .REPAIR_LOG_LAP => [F.REPAIR_LOG_LAP.LAP]
  | .SCRUB_CTRL => [F.SCRUB_CTRL.WDOG]
  | .SCRUB_STAT => [F.SCRUB_STAT.RESTARTS, F.SCRUB_STAT.VOTES, F.SCRUB_STAT.PASSES]
  | .SCRUB_POS => [F.SCRUB_POS.CORRECTED, F.SCRUB_POS.FRAME]
  | .FRAME_BAD => [F.FRAME_BAD.VALID, F.FRAME_BAD.LAYER, F.FRAME_BAD.FRAME]
  | .MBX_MSG => [F.MBX_MSG.WORD]
  | .MBX_ANS => [F.MBX_ANS.WORD]
  | .MBX_CTRL => [F.MBX_CTRL.RELEASE, F.MBX_CTRL.GO]
  | .MBX_STAT => [F.MBX_STAT.SESSION, F.MBX_STAT.STATE]
  | .REF_STAT => [F.REF_STAT.BOOT_RESULT, F.REF_STAT.FAILOVERS, F.REF_STAT.ALERTS, F.REF_STAT.BANKV_FAULT, F.REF_STAT.REPLICA_OK, F.REF_STAT.ACTIVE]
  | .REF_STRAPS => [F.REF_STRAPS.BOOT, F.REF_STRAPS.REF, F.REF_STRAPS.SSC, F.REF_STRAPS.IDLE, F.REF_STRAPS.ANCHOR, F.REF_STRAPS.LAB, F.REF_STRAPS.BANKV]
  | .REF_BOOTSRC => [F.REF_BOOTSRC.ADDR]
  | .BB_STAT => [F.BB_STAT.PINNED, F.BB_STAT.PINNED_FULL, F.BB_STAT.COPY_FAULT, F.BB_STAT.WRAPS, F.BB_STAT.NEXT]
  | .BB_SEL => [F.BB_SEL.COPY, F.BB_SEL.INDEX]
  | .BB_WINDOW => [F.BB_WINDOW.WORD]
  | .BANK_CFG => [F.BANK_CFG.FAULT, F.BANK_CFG.VOLT, F.BANK_CFG.IDLE_PD, F.BANK_CFG.ASYNC]
  | .PINS_STAT => [F.PINS_STAT.CONFLICT_SIG, F.PINS_STAT.MAP_CONFLICT]
  | .PAD_IN => [F.PAD_IN.PADS]
  | .GATHER_IN => [F.GATHER_IN.SAMPLES]
  | .DOUT => [F.DOUT.OUT]
  | .GPIO_OUT => [F.GPIO_OUT.OUT]
  | .GPIO_SET => [F.GPIO_SET.BITS]
  | .GPIO_CLR => [F.GPIO_CLR.BITS]
  | .GPIO_TGL => [F.GPIO_TGL.BITS]
  | .GPIO_OE => [F.GPIO_OE.OE]
  | .PIN_CFG => [F.PIN_CFG.PARKED, F.PIN_CFG.DRIVE, F.PIN_CFG.SLOW, F.PIN_CFG.HYST, F.PIN_CFG.KEEPER, F.PIN_CFG.PULL, F.PIN_CFG.OD, F.PIN_CFG.SEL, F.PIN_CFG.FUNC]
  | .PIN_OWN => [F.PIN_OWN.ENG, F.PIN_OWN.KIND]
  | .PMU_CTRL => [F.PMU_CTRL.MATCH, F.PMU_CTRL.EN, F.PMU_CTRL.VALUE, F.PMU_CTRL.MASK]
  | .PMU_SEL => [F.PMU_SEL.PIN0, F.PMU_SEL.PIN1, F.PMU_SEL.PIN2, F.PMU_SEL.PIN3]
  | .PMU_STAT => [F.PMU_STAT.MATCHES, F.PMU_STAT.HELD]
  | .RU_CTRL => [F.RU_CTRL.RELEASE, F.RU_CTRL.PMU, F.RU_CTRL.ACTIVE_HIGH, F.RU_CTRL.FORCE_RELEASE, F.RU_CTRL.EN]
  | .RU_STAT => [F.RU_STAT.SETS, F.RU_STAT.ARMED, F.RU_STAT.HELD]
  | .TRIGOUT_CFG => [F.TRIGOUT_CFG.WIDTH]
  | .DB_CREDIT => [F.DB_CREDIT.CREDITS]
  | .DB_RING_PI => [F.DB_RING_PI.PI]
  | .DB_RING_CI => [F.DB_RING_CI.CI]
  | .DB_STAT => [F.DB_STAT.HIGH, F.DB_STAT.FAULTED, F.DB_STAT.POISON_HEAD, F.DB_STAT.IN_FLOW, F.DB_STAT.RING_FULL, F.DB_STAT.CREDITS, F.DB_STAT.COUNT]

/-- The address of a register's first copy, and the strides and counts of its copies, widest first (R21, R24, R25). -/
def RegName.place : RegName → Nat × List (Nat × Nat)
  | .LAP_CTRL => (0x030000900000, [])
  | .LAP_STAT => (0x030000900008, [])
  | .LAP_COUNT => (0x030000900010, [])
  | .LAP_END => (0x030000900018, [])
  | .LAP_POS => (0x030000900020, [])
  | .LAP_RETRY => (0x030000900028, [])
  | .RETRY_STAT => (0x030000900030, [])
  | .TRIG_CTRL => (0x030000900100, [(0x40, 16)])
  | .TRIG_ADDR => (0x030000900108, [(0x40, 16)])
  | .TRIG_MASK => (0x030000900110, [(0x40, 16)])
  | .TRIG_VALUE => (0x030000900118, [(0x40, 16)])
  | .TRIG_MATCHES => (0x030000900120, [(0x40, 16)])
  | .TRIG_FIRED_LAP => (0x030000900128, [(0x40, 16)])
  | .TRIG_FIRED => (0x030000900500, [])
  | .BENCH => (0x030000900600, [(0x8, 8)])
  | .BENCH_STAT => (0x030000900640, [])
  | .FABRIC_LIMITS => (0x030000900800, [])
  | .SCHED_STAT => (0x030000900900, [])
  | .LAP_KIND => (0x030000900A00, [(0x8, 8)])
  | .LAP_SCHED => (0x030000901000, [(0x8, 64)])
  | .LOAD_STAT => (0x030000902000, [])
  | .LOAD_FAULT => (0x030000902008, [])
  | .LOAD_CTRL => (0x030000902010, [])
  | .ACT_AT => (0x030000902018, [])
  | .ACT_LAP => (0x030000902020, [])
  | .PERSONA_ID => (0x030000902040, [(0x8, 6)])
  | .LOG_CTRL => (0x030000903000, [])
  | .LOG_STAT => (0x030000903008, [])
  | .TLC_STAT => (0x030001000000, [(0x1000000, 4)])
  | .TLC_SCRATCH => (0x030001000008, [(0x1000000, 4)])
  | .CNT_T => (0x030001800000, [(0x1000000, 4), (0x1000, 6), (0x8, 9)])
  | .EVSEL_T => (0x030001800088, [(0x1000000, 4), (0x1000, 6), (0x8, 8)])
  | .UNIT_CTRL_T => (0x030001800100, [(0x1000000, 4), (0x1000, 6)])
  | .OVF_STAT_T => (0x030001800108, [(0x1000000, 4), (0x1000, 6)])
  | .OVF_TARGET_T => (0x030001800110, [(0x1000000, 4), (0x1000, 6)])
  | .SHADOW_T => (0x030001800200, [(0x1000000, 4), (0x1000, 6), (0x8, 9)])
  | .CNT_P => (0x030000C01000, [(0x1000, 2), (0x8, 9)])
  | .EVSEL_P => (0x030000C01088, [(0x1000, 2), (0x8, 8)])
  | .UNIT_CTRL_P => (0x030000C01100, [(0x1000, 2)])
  | .OVF_STAT_P => (0x030000C01108, [(0x1000, 2)])
  | .OVF_TARGET_P => (0x030000C01110, [(0x1000, 2)])
  | .SHADOW_P => (0x030000C01200, [(0x1000, 2), (0x8, 9)])
  | .COUNTER_ACCESS => (0x030000C00000, [])
  | .COUNTER_SNAP => (0x030000C00008, [])
  | .SNAP_LAP => (0x030000C00010, [])
  | .TRACE_CTRL => (0x030001806000, [(0x1000000, 4)])
  | .TRACE_STAT => (0x030001806008, [(0x1000000, 4)])
  | .BANK_OWNER => (0x030001200000, [(0x1000000, 4), (0x8, 256)])
  | .BANK_STAT => (0x030001200800, [(0x1000000, 4), (0x8, 256)])
  | .STANDIN_STAT => (0x030001201000, [(0x1000000, 4), (0x8, 8)])
  | .ECC_CTRL => (0x030001201100, [(0x1000000, 4)])
  | .ECC_STAT => (0x030001201108, [(0x1000000, 4)])
  | .ECC_ADDR => (0x030001201200, [(0x1000000, 4), (0x10, 32)])
  | .ECC_INFO => (0x030001201208, [(0x1000000, 4), (0x10, 32)])
  | .Q_BIND => (0x030000500000, [(0x40, 8192)])
  | .Q_LEVEL => (0x030000500008, [(0x40, 8192)])
  | .Q_STAT => (0x030000500010, [(0x40, 8192)])
  | .Q_SEQ => (0x030000500018, [(0x40, 8192)])
  | .Q_RING => (0x030000500020, [(0x40, 8192)])
  | .Q_RING_IDX => (0x030000500028, [(0x40, 8192)])
  | .Q_RING_WB => (0x030000500030, [(0x40, 8192)])
  | .Q_CTRL => (0x030000500038, [(0x40, 8192)])
  | .POOL_STAT => (0x030000580000, [])
  | .POOL_BANK => (0x030000580100, [(0x8, 64)])
  | .ERRQ => (0x030000580200, [(0x8, 16)])
  | .ERRQ_HOST => (0x030000580280, [])
  | .ERR_LOST => (0x030000580290, [])
  | .FLOWCTL => (0x030000580300, [(0x8, 16)])
  | .FLOW_BIND => (0x030000600000, [(0x20, 16384)])
  | .FLOW_QUEUES => (0x030000600008, [(0x20, 16384)])
  | .FLOW_POS => (0x030000600010, [(0x20, 16384)])
  | .FLOW_STAT => (0x030000600018, [(0x20, 16384)])
  | .FLOW_WDOG => (0x030000680000, [])
  | .ROUTER_CFG => (0x030001100000, [(0x1000000, 4), (0x100, 24)])
  | .ROUTER_STAT => (0x030001100008, [(0x1000000, 4), (0x100, 24)])
  | .ROUTER_ERR => (0x030001100010, [(0x1000000, 4), (0x100, 24)])
  | .PACER => (0x030001104000, [(0x1000000, 4), (0x40, 29), (0x8, 4)])
  | .NET_TIMEOUT => (0x030001108000, [(0x1000000, 4)])
  | .HC_LINK => (0x030000300000, [(0x8, 4)])
  | .HC_HOSTMEM => (0x030000300040, [])
  | .HC_EVRING => (0x030000300100, [])
  | .HC_EVRING_IDX => (0x030000300108, [])
  | .HC_EVCTRL => (0x030000300110, [])
  | .HC_EVSTAT => (0x030000300118, [])
  | .HR_BASE => (0x030000301000, [(0x10, 64)])
  | .HR_LIMIT => (0x030000301008, [(0x10, 64)])
  | .PORT_CTRL => (0x030001700000, [(0x1000000, 4), (0x1000, 4)])
  | .PORT_STAT => (0x030001700008, [(0x1000000, 4), (0x1000, 4)])
  | .PORT_MAP => (0x030001700010, [(0x1000000, 4), (0x1000, 4)])
  | .PORT_EVENTS => (0x030001700018, [(0x1000000, 4), (0x1000, 4)])
  | .PORT_LIMITS => (0x030001700020, [(0x1000000, 4), (0x1000, 4)])
  | .LANE_CTRL => (0x030001700100, [(0x1000000, 4), (0x1000, 4), (0x40, 8)])
  | .LANE_STAT => (0x030001700108, [(0x1000000, 4), (0x1000, 4), (0x40, 8)])
  | .LANE_EQ => (0x030001700110, [(0x1000000, 4), (0x1000, 4), (0x40, 8)])
  | .LANE_ERR => (0x030001700118, [(0x1000000, 4), (0x1000, 4), (0x40, 8)])
  | .CHAIN_CFG => (0x030000800000, [])
  | .CHAIN_STAT => (0x030000800008, [])
  | .CHAIN_LIMITS => (0x030000800010, [])
  | .CHAIN_CTRL => (0x030000800018, [])
  | .CHAIN_PORT => (0x030000800100, [(0x8, 16)])
  | .LINK_STAT => (0x030000800200, [(0x8, 16)])
  | .BRIDGE_CFG => (0x030000801000, [(0x10, 64)])
  | .BRIDGE_STAT => (0x030000801008, [(0x10, 64)])
  | .FWD => (0x030000810000, [(0x8, 4096)])
  | .SEC_STAT => (0x030000100000, [])
  | .SEC_CTRL => (0x030000100008, [])
  | .SEC_ALARM => (0x030000100010, [])
  | .SEC_COUNTS => (0x030000100018, [])
  | .SEC_PORTS => (0x030000100020, [])
  | .ID_DIGEST => (0x030000100100, [(0x8, 6)])
  | .ID_BUNDLE => (0x030000101000, [(0x8, 256)])
  | .ENROL_WINDOW => (0x030000102000, [(0x8, 256)])
  | .ENROL_CTRL => (0x030000102800, [])
  | .ROSTER => (0x030000103000, [(0x8, 64)])
  | .IMGKEY => (0x030000103400, [(0x8, 8)])
  | .CRED => (0x030000103500, [(0x8, 12)])
  | .SESS => (0x030000104000, [(0x8, 69)])
  | .VAULT_STAT => (0x030000200000, [])
  | .VR_CFG => (0x030000200100, [(0x10, 64)])
  | .VR_STAT => (0x030000200108, [(0x10, 64)])
  | .SEAL => (0x030000201000, [(0x8, 32)])
  | .PKGCLK_CFG => (0x030000B00000, [(0x10, 4)])
  | .PKGCLK_STAT => (0x030000B00008, [(0x10, 4)])
  | .SRC_STAT => (0x030000B00100, [])
  | .CLKGATE_MODE => (0x030000B00108, [])
  | .CLKDOM_CFG => (0x030001400000, [(0x1000000, 4), (0x10, 6)])
  | .CLKDOM_STAT => (0x030001400008, [(0x1000000, 4), (0x10, 6)])
  | .GATE => (0x030001400100, [(0x1000000, 4), (0x8, 11)])
  | .CROSS_MERGED => (0x030001400200, [(0x1000000, 4)])
  | .PKG_INPUT => (0x030000A00000, [])
  | .PKG_CAP => (0x030000A00008, [])
  | .PKG_ENERGY => (0x030000A00010, [])
  | .PKG_THERM => (0x030000A00018, [])
  | .PKG_THRESH => (0x030000A00020, [])
  | .PD_CTRL => (0x030000A00100, [(0x10, 64)])
  | .PD_STAT => (0x030000A00108, [(0x10, 64)])
  | .TPWR_STAT => (0x030001500000, [(0x1000000, 4)])
  | .TEMP => (0x030001580000, [(0x1000000, 4), (0x80, 6), (0x8, 16)])
  | .TWR_TMAX => (0x030001580400, [(0x1000000, 4)])
  | .TEST_CTRL => (0x030001600000, [(0x1000000, 4)])
  | .TEST_BUDGET => (0x030001600008, [(0x1000000, 4)])
  | .TEST_STAT => (0x030001600010, [(0x1000000, 4)])
  | .SPLIT_RESULT => (0x030001600040, [(0x1000000, 4), (0x8, 8)])
  | .GROUP_CFG => (0x030001600100, [(0x1000000, 4), (0x8, 8)])
  | .STEER => (0x030001600200, [(0x1000000, 4), (0x8, 64)])
  | .TFAIL_L3 => (0x030001600400, [(0x1000000, 4), (0x8, 64)])
  | .TFAIL_L4 => (0x030001600600, [(0x1000000, 4), (0x8, 64)])
  | .BANK_DEGRADED => (0x030001600800, [(0x1000000, 4), (0x8, 4)])
  | .BANK_FAILED => (0x030001600820, [(0x1000000, 4), (0x8, 4)])
  | .LAYER_STAT => (0x030001600840, [(0x1000000, 4)])
  | .REPAIR_STAT => (0x030001600900, [(0x1000000, 4)])
  | .FUSE_CTRL => (0x030001600908, [(0x1000000, 4)])
  | .REPAIR_LOG => (0x030001601000, [(0x1000000, 4), (0x10, 64)])
  | .REPAIR_LOG_LAP => (0x030001601008, [(0x1000000, 4), (0x10, 64)])
  | .SCRUB_CTRL => (0x030001300000, [(0x1000000, 4)])
  | .SCRUB_STAT => (0x030001300008, [(0x1000000, 4), (0x8, 2)])
  | .SCRUB_POS => (0x030001300018, [(0x1000000, 4), (0x8, 2)])
  | .FRAME_BAD => (0x030001300100, [(0x1000000, 4), (0x8, 16)])
  | .MBX_MSG => (0x030000000000, [(0x1000, 4), (0x8, 34)])
  | .MBX_ANS => (0x030000000200, [(0x1000, 4), (0x8, 34)])
  | .MBX_CTRL => (0x030000000400, [(0x1000, 4)])
  | .MBX_STAT => (0x030000000408, [(0x1000, 4)])
  | .REF_STAT => (0x030000008000, [])
  | .REF_STRAPS => (0x030000008008, [])
  | .REF_BOOTSRC => (0x030000008010, [])
  | .BB_STAT => (0x030000700000, [])
  | .BB_SEL => (0x030000700008, [])
  | .BB_WINDOW => (0x030000701000, [(0x8, 512)])
  | .BANK_CFG => (0x030000400000, [(0x8, 4)])
  | .PINS_STAT => (0x030000400040, [])
  | .PAD_IN => (0x030000400100, [(0x8, 8)])
  | .GATHER_IN => (0x030000400140, [(0x8, 8)])
  | .DOUT => (0x030000400180, [(0x8, 8)])
  | .GPIO_OUT => (0x030000400200, [(0x8, 8)])
  | .GPIO_SET => (0x030000400240, [(0x8, 8)])
  | .GPIO_CLR => (0x030000400280, [(0x8, 8)])
  | .GPIO_TGL => (0x0300004002C0, [(0x8, 8)])
  | .GPIO_OE => (0x030000400300, [(0x8, 8)])
  | .PIN_CFG => (0x030000400400, [(0x8, 512)])
  | .PIN_OWN => (0x030000401400, [(0x8, 512)])
  | .PMU_CTRL => (0x030000402400, [(0x40, 32)])
  | .PMU_SEL => (0x030000402408, [(0x40, 32), (0x8, 4)])
  | .PMU_STAT => (0x030000402428, [(0x40, 32)])
  | .RU_CTRL => (0x030000402C00, [(0x20, 16)])
  | .RU_STAT => (0x030000402C08, [(0x20, 16)])
  | .TRIGOUT_CFG => (0x030000402E00, [])
  | .DB_CREDIT => (0x040000000040, [(0x1000, 8192)])
  | .DB_RING_PI => (0x040000000048, [(0x1000, 8192)])
  | .DB_RING_CI => (0x040000000050, [(0x1000, 8192)])
  | .DB_STAT => (0x040000000058, [(0x1000, 8192)])

/-- Who may write the register (R225, R310, R330, R350, R372, R394, R409 and the register maps). -/
def RegName.right : RegName → Right
  | .LAP_CTRL => .any
  | .LAP_STAT => .any
  | .LAP_COUNT => .any
  | .LAP_END => .any
  | .LAP_POS => .any
  | .LAP_RETRY => .any
  | .RETRY_STAT => .any
  | .TRIG_CTRL => .any
  | .TRIG_ADDR => .any
  | .TRIG_MASK => .any
  | .TRIG_VALUE => .any
  | .TRIG_MATCHES => .any
  | .TRIG_FIRED_LAP => .any
  | .TRIG_FIRED => .any
  | .BENCH => .any
  | .BENCH_STAT => .any
  | .FABRIC_LIMITS => .any
  | .SCHED_STAT => .any
  | .LAP_KIND => .any
  | .LAP_SCHED => .any
  | .LOAD_STAT => .any
  | .LOAD_FAULT => .any
  | .LOAD_CTRL => .any
  | .ACT_AT => .any
  | .ACT_LAP => .any
  | .PERSONA_ID => .any
  | .LOG_CTRL => .any
  | .LOG_STAT => .any
  | .TLC_STAT => .any
  | .TLC_SCRATCH => .any
  | .CNT_T => .any
  | .EVSEL_T => .any
  | .UNIT_CTRL_T => .any
  | .OVF_STAT_T => .any
  | .OVF_TARGET_T => .any
  | .SHADOW_T => .any
  | .CNT_P => .any
  | .EVSEL_P => .any
  | .UNIT_CTRL_P => .any
  | .OVF_STAT_P => .any
  | .OVF_TARGET_P => .any
  | .SHADOW_P => .any
  | .COUNTER_ACCESS => .installer
  | .COUNTER_SNAP => .any
  | .SNAP_LAP => .any
  | .TRACE_CTRL => .any
  | .TRACE_STAT => .any
  | .BANK_OWNER => .any
  | .BANK_STAT => .any
  | .STANDIN_STAT => .any
  | .ECC_CTRL => .any
  | .ECC_STAT => .any
  | .ECC_ADDR => .any
  | .ECC_INFO => .any
  | .Q_BIND => .custom
  | .Q_LEVEL => .any
  | .Q_STAT => .any
  | .Q_SEQ => .any
  | .Q_RING => .any
  | .Q_RING_IDX => .any
  | .Q_RING_WB => .any
  | .Q_CTRL => .any
  | .POOL_STAT => .any
  | .POOL_BANK => .any
  | .ERRQ => .any
  | .ERRQ_HOST => .any
  | .ERR_LOST => .any
  | .FLOWCTL => .any
  | .FLOW_BIND => .any
  | .FLOW_QUEUES => .any
  | .FLOW_POS => .any
  | .FLOW_STAT => .any
  | .FLOW_WDOG => .installer
  | .ROUTER_CFG => .installer
  | .ROUTER_STAT => .any
  | .ROUTER_ERR => .any
  | .PACER => .installer
  | .NET_TIMEOUT => .installer
  | .HC_LINK => .any
  | .HC_HOSTMEM => .any
  | .HC_EVRING => .installer
  | .HC_EVRING_IDX => .any
  | .HC_EVCTRL => .installer
  | .HC_EVSTAT => .any
  | .HR_BASE => .installer
  | .HR_LIMIT => .installer
  | .PORT_CTRL => .installer
  | .PORT_STAT => .any
  | .PORT_MAP => .any
  | .PORT_EVENTS => .any
  | .PORT_LIMITS => .installer
  | .LANE_CTRL => .installer
  | .LANE_STAT => .any
  | .LANE_EQ => .installer
  | .LANE_ERR => .any
  | .CHAIN_CFG => .custom
  | .CHAIN_STAT => .custom
  | .CHAIN_LIMITS => .custom
  | .CHAIN_CTRL => .custom
  | .CHAIN_PORT => .custom
  | .LINK_STAT => .any
  | .BRIDGE_CFG => .custom
  | .BRIDGE_STAT => .any
  | .FWD => .custom
  | .SEC_STAT => .any
  | .SEC_CTRL => .installer
  | .SEC_ALARM => .any
  | .SEC_COUNTS => .any
  | .SEC_PORTS => .any
  | .ID_DIGEST => .any
  | .ID_BUNDLE => .any
  | .ENROL_WINDOW => .installer
  | .ENROL_CTRL => .installer
  | .ROSTER => .any
  | .IMGKEY => .any
  | .CRED => .any
  | .SESS => .any
  | .VAULT_STAT => .any
  | .VR_CFG => .installer
  | .VR_STAT => .any
  | .SEAL => .installer
  | .PKGCLK_CFG => .installer
  | .PKGCLK_STAT => .any
  | .SRC_STAT => .any
  | .CLKGATE_MODE => .installer
  | .CLKDOM_CFG => .installer
  | .CLKDOM_STAT => .any
  | .GATE => .custom
  | .CROSS_MERGED => .any
  | .PKG_INPUT => .any
  | .PKG_CAP => .installer
  | .PKG_ENERGY => .any
  | .PKG_THERM => .any
  | .PKG_THRESH => .installer
  | .PD_CTRL => .custom
  | .PD_STAT => .any
  | .TPWR_STAT => .any
  | .TEMP => .any
  | .TWR_TMAX => .any
  | .TEST_CTRL => .installer
  | .TEST_BUDGET => .installer
  | .TEST_STAT => .any
  | .SPLIT_RESULT => .any
  | .GROUP_CFG => .installer
  | .STEER => .any
  | .TFAIL_L3 => .any
  | .TFAIL_L4 => .any
  | .BANK_DEGRADED => .any
  | .BANK_FAILED => .any
  | .LAYER_STAT => .any
  | .REPAIR_STAT => .any
  | .FUSE_CTRL => .installer
  | .REPAIR_LOG => .any
  | .REPAIR_LOG_LAP => .any
  | .SCRUB_CTRL => .installer
  | .SCRUB_STAT => .any
  | .SCRUB_POS => .any
  | .FRAME_BAD => .any
  | .MBX_MSG => .custom
  | .MBX_ANS => .custom
  | .MBX_CTRL => .custom
  | .MBX_STAT => .custom
  | .REF_STAT => .any
  | .REF_STRAPS => .any
  | .REF_BOOTSRC => .installer
  | .BB_STAT => .any
  | .BB_SEL => .any
  | .BB_WINDOW => .any
  | .BANK_CFG => .any
  | .PINS_STAT => .any
  | .PAD_IN => .any
  | .GATHER_IN => .any
  | .DOUT => .any
  | .GPIO_OUT => .custom
  | .GPIO_SET => .custom
  | .GPIO_CLR => .custom
  | .GPIO_TGL => .custom
  | .GPIO_OE => .custom
  | .PIN_CFG => .custom
  | .PIN_OWN => .installer
  | .PMU_CTRL => .any
  | .PMU_SEL => .any
  | .PMU_STAT => .any
  | .RU_CTRL => .any
  | .RU_STAT => .any
  | .TRIGOUT_CFG => .any
  | .DB_CREDIT => .any
  | .DB_RING_PI => .any
  | .DB_RING_CI => .any
  | .DB_STAT => .any

/-- All registers, by block. -/
def RegName.all : List RegName :=
  [.LAP_CTRL, .LAP_STAT, .LAP_COUNT, .LAP_END, .LAP_POS, .LAP_RETRY, .RETRY_STAT, .TRIG_CTRL, .TRIG_ADDR, .TRIG_MASK,
   .TRIG_VALUE, .TRIG_MATCHES, .TRIG_FIRED_LAP, .TRIG_FIRED, .BENCH, .BENCH_STAT, .FABRIC_LIMITS, .SCHED_STAT,
   .LAP_KIND, .LAP_SCHED, .LOAD_STAT, .LOAD_FAULT, .LOAD_CTRL, .ACT_AT, .ACT_LAP, .PERSONA_ID, .LOG_CTRL, .LOG_STAT,
   .TLC_STAT, .TLC_SCRATCH, .CNT_T, .EVSEL_T, .UNIT_CTRL_T, .OVF_STAT_T, .OVF_TARGET_T, .SHADOW_T, .CNT_P, .EVSEL_P,
   .UNIT_CTRL_P, .OVF_STAT_P, .OVF_TARGET_P, .SHADOW_P, .COUNTER_ACCESS, .COUNTER_SNAP, .SNAP_LAP, .TRACE_CTRL,
   .TRACE_STAT, .BANK_OWNER, .BANK_STAT, .STANDIN_STAT, .ECC_CTRL, .ECC_STAT, .ECC_ADDR, .ECC_INFO, .Q_BIND,
   .Q_LEVEL, .Q_STAT, .Q_SEQ, .Q_RING, .Q_RING_IDX, .Q_RING_WB, .Q_CTRL, .POOL_STAT, .POOL_BANK, .ERRQ, .ERRQ_HOST,
   .ERR_LOST, .FLOWCTL, .FLOW_BIND, .FLOW_QUEUES, .FLOW_POS, .FLOW_STAT, .FLOW_WDOG, .ROUTER_CFG, .ROUTER_STAT,
   .ROUTER_ERR, .PACER, .NET_TIMEOUT, .HC_LINK, .HC_HOSTMEM, .HC_EVRING, .HC_EVRING_IDX, .HC_EVCTRL, .HC_EVSTAT,
   .HR_BASE, .HR_LIMIT, .PORT_CTRL, .PORT_STAT, .PORT_MAP, .PORT_EVENTS, .PORT_LIMITS, .LANE_CTRL, .LANE_STAT,
   .LANE_EQ, .LANE_ERR, .CHAIN_CFG, .CHAIN_STAT, .CHAIN_LIMITS, .CHAIN_CTRL, .CHAIN_PORT, .LINK_STAT, .BRIDGE_CFG,
   .BRIDGE_STAT, .FWD, .SEC_STAT, .SEC_CTRL, .SEC_ALARM, .SEC_COUNTS, .SEC_PORTS, .ID_DIGEST, .ID_BUNDLE,
   .ENROL_WINDOW, .ENROL_CTRL, .ROSTER, .IMGKEY, .CRED, .SESS, .VAULT_STAT, .VR_CFG, .VR_STAT, .SEAL, .PKGCLK_CFG,
   .PKGCLK_STAT, .SRC_STAT, .CLKGATE_MODE, .CLKDOM_CFG, .CLKDOM_STAT, .GATE, .CROSS_MERGED, .PKG_INPUT, .PKG_CAP,
   .PKG_ENERGY, .PKG_THERM, .PKG_THRESH, .PD_CTRL, .PD_STAT, .TPWR_STAT, .TEMP, .TWR_TMAX, .TEST_CTRL, .TEST_BUDGET,
   .TEST_STAT, .SPLIT_RESULT, .GROUP_CFG, .STEER, .TFAIL_L3, .TFAIL_L4, .BANK_DEGRADED, .BANK_FAILED, .LAYER_STAT,
   .REPAIR_STAT, .FUSE_CTRL, .REPAIR_LOG, .REPAIR_LOG_LAP, .SCRUB_CTRL, .SCRUB_STAT, .SCRUB_POS, .FRAME_BAD,
   .MBX_MSG, .MBX_ANS, .MBX_CTRL, .MBX_STAT, .REF_STAT, .REF_STRAPS, .REF_BOOTSRC, .BB_STAT, .BB_SEL, .BB_WINDOW,
   .BANK_CFG, .PINS_STAT, .PAD_IN, .GATHER_IN, .DOUT, .GPIO_OUT, .GPIO_SET, .GPIO_CLR, .GPIO_TGL, .GPIO_OE, .PIN_CFG,
   .PIN_OWN, .PMU_CTRL, .PMU_SEL, .PMU_STAT, .RU_CTRL, .RU_STAT, .TRIGOUT_CFG, .DB_CREDIT, .DB_RING_PI, .DB_RING_CI,
   .DB_STAT]

/-- The offset of copy `ix` of a register. -/
def ixOffset : List (Nat × Nat) → List Nat → Nat
  | (st, _) :: ds, i :: is => st * i + ixOffset ds is
  | _, _ => 0

/-- The device address of copy `ix` of a register. -/
def RegName.addr (r : RegName) (ix : List Nat := []) : Nat := r.place.1 + ixOffset r.place.2 ix

/-- Entries 32 to 48 and 50 of the pool bank table have the addresses of ERRQ0 to ERRQ15, ERRQ_HOST and ERR_LOST: an access there
reaches those registers (notes/assumptions 75). -/
def shadowed (r : RegName) (ix : List Nat) : Bool :=
  r == .POOL_BANK && ix.any fun i => decide (32 ≤ i ∧ i ≤ 48) || i == 50

/-- The key under which copy `ix` is held: its address, but for the pool bank table, which is held apart. -/
def RegName.key (r : RegName) (ix : List Nat := []) : Nat := if r = .POOL_BANK then r.addr ix + 0x1000 else r.addr ix

/-- The copy a register's offset names, if there is one. -/
def ixOf : List (Nat × Nat) → Nat → Option (List Nat)
  | [], off => if off = 0 then some [] else none
  | (st, n) :: ds, off => if off / st < n then (ixOf ds (off % st)).map (off / st :: ·) else none

/-- The register at a device address that is a multiple of 8, if one is assigned there. -/
def regAt (addr : Nat) : Option (RegName × List Nat) :=
  RegName.all.findSome? fun r =>
    if addr < r.place.1 then none
    else ((ixOf r.place.2 (addr - r.place.1)).filter fun ix => !shadowed r ix).map fun ix => (r, ix)

/-- The reset value that a register's fields give. -/
def RegName.reset (r : RegName) : Nat := r.fields.foldl (fun n f => n + f.rst * 2 ^ f.lo) 0

/-- The bits of a register's fields with an access code among `as`. -/
def RegName.mask (r : RegName) (as : List Acc) : Nat :=
  r.fields.foldl (fun n f => if f.acc ∈ as then n + (2 ^ (f.hi + 1) - 2 ^ f.lo) else n) 0

end Sys2Proof.Machine
end

