-- ==== Sys2Proof/Machine/Ops.lean ====
section
/-! DEFINITION. The named operations on registers, engines and memories that every block shares: register and field access,
power-domain and role queries, engine updates, and taking and leaving a trap. -/

namespace Sys2Proof.Machine

/-! ### Registers -/

/-- The reset value of copy `ix` of a register: its fields', but for the copies whose reset value depends on the index
(R181, R209, R234, R281, R333, BANK_OWNERb, HR_BASEn, PACERe.v, PD_CTRLn, PD_STATn). -/
def resetOf (r : RegName) (ix : List Nat) : Nat :=
  match r, ix with
  | .BANK_OWNER, [_, b] => if 252 ≤ b then 2 else 0
  | .POOL_BANK, [i] => if i < 16 then 0x10000 + 256 * (i / 4) + 252 + i % 4 else 0
  | .HR_BASE, [n] => if n = 0 then 7 else 0
  | .HR_LIMIT, [n] => if n = 0 then 0x3FFFFFF * 4096 else 0
  | .PACER, [_, e, v] => 0x100000 + (if v = 3 ∨ (v = 0 ∧ (e < 4 ∨ e = 15)) then 0x40 else 0)
  | .SESS, [n] => if n < 64 then (if n % 16 = 0 then 1 else 0) else 1
  | .PD_CTRL, [n] => if 8 ≤ n ∧ 3 ≤ (n - 8) % 14 ∧ (n - 8) % 14 ≤ 6 then 256 else 0
  | .PD_STAT, [n] => if n = 0 ∨ n = 7 then 0x101 else 0
  | .FUSE_CTRL, _ => 4096 * 2 ^ 32
  | .POOL_STAT, _ => 0
  | r, _ => r.reset

def resetReg (r : RegName) (ix : List Nat) : W64 := BitVec.ofNat 64 (resetOf r ix)

/-- The stored value of copy `ix` of a register. -/
def State.reg (s : State) (r : RegName) (ix : List Nat := []) : W64 :=
  Sparse.read s.regs (r.key ix) ^^^ resetReg r ix

def State.setReg (s : State) (r : RegName) (ix : List Nat) (v : W64) : State :=
  { s with regs := Sparse.write s.regs (r.key ix) (v ^^^ resetReg r ix) }

/-- A field of a register, as a number. -/
def State.fld (s : State) (f : Fld) (ix : List Nat := []) : Nat := bitsOf (s.reg f.reg ix) f.hi f.lo

def State.flag (s : State) (f : Fld) (ix : List Nat := []) : Bool := s.fld f ix != 0

def State.put (s : State) (f : Fld) (n : Nat) (ix : List Nat := []) : State :=
  s.setReg f.reg ix (setBits (s.reg f.reg ix) f.hi f.lo n)

/-- Add to a count that saturates at the width of its field. -/
def State.count (s : State) (f : Fld) (ix : List Nat := []) (n : Nat := 1) : State :=
  s.put f (satAdd (f.hi + 1 - f.lo) (s.fld f ix) n) ix

/-- Set bits of a field. -/
def State.orBits (s : State) (f : Fld) (n : Nat) (ix : List Nat := []) : State :=
  s.put f (s.fld f ix ||| n) ix

/-- A register returned to its reset value. -/
def State.clearReg (s : State) (r : RegName) (ix : List Nat := []) : State := s.setReg r ix (resetReg r ix)

/-- Every copy of the registers of a block, between two device addresses, returned to reset. -/
def State.clearBlock (s : State) (first last : Nat) : State :=
  { s with regs := s.regs.filter fun p => decide (p.1 < first ∨ last < p.1) }

/-- The part of a write that reaches a register: all 64 bits, or one half (R8, R9). -/
inductive Half where
  | full | low | high
  deriving DecidableEq, Repr

def Half.mask : Half → Nat
  | .full => 2 ^ 64 - 1
  | .low => 2 ^ 32 - 1
  | .high => 2 ^ 64 - 2 ^ 32

def Half.code : Half → Nat
  | .full => 0 | .low => 1 | .high => 2
def halfOfCode (n : Nat) : Half := if n = 1 then .low else if n = 2 then .high else .full

/-- The effect of a write on stored bits: RW fields take the value, W1C fields lose the bits written 1, every other field
keeps its value (R9, R11, R12). -/
def mergeWrite (r : RegName) (h : Half) (old v : W64) : W64 :=
  let m : W64 := BitVec.ofNat 64 (r.mask [.rw] &&& h.mask)
  let c : W64 := BitVec.ofNat 64 (r.mask [.w1c] &&& h.mask)
  ((old &&& ~~~m) ||| (v &&& m)) &&& ~~~(v &&& c)

/-- The part of a write's data that reaches the register. -/
def Half.part (h : Half) (v : W64) : W64 := v &&& BitVec.ofNat 64 h.mask

/-- The register's value after a write that only its fields' access codes shape. -/
def State.merged (s : State) (r : RegName) (ix : List Nat) (h : Half) (v : W64) : W64 := mergeWrite r h (s.reg r ix) v

def State.store (s : State) (r : RegName) (ix : List Nat) (h : Half) (v : W64) : State := s.setReg r ix (s.merged r ix h v)

/-- A field's bits within a word. -/
def fieldIn (f : Fld) (v : W64) : Nat := bitsOf v f.hi f.lo

/-- The write carries a 1 for a field of one bit. -/
def wrote (f : Fld) (h : Half) (v : W64) : Bool := fieldIn f (h.part v) != 0

/-! ### Free values -/

/-- A free value of the machine: the counter is read and advanced (notes/assumptions 3). -/
def State.spend (s : State) : State := { s with free := s.free + 1 }

/-! ### Power domains (R333) -/

def pdNE (t : Nat) : Nat := 10 + 14 * t
def pdRelay (p : Nat) : Nat := 8 + 14 * (p / 4) + p % 4 / 2
def pdQuad (t bank : Nat) : Nat := 11 + 14 * t + bank / 64
def pdCfg (die : Nat) : Nat := 15 + 14 * (die / 2) + die % 2
def pdLogic (die pcol : Nat) : Nat := 17 + 14 * (die / 2) + 2 * (die % 2) + (if pcol ≤ 32 then 0 else 1)
def pdBank (b : Nat) : Nat := 2 + b
def pdTrace (t : Nat) : Nat := 21 + 14 * t

/-- The present state of a domain: 0 OFF, 1 RUN, 2 SLEEP, 3 DEEP. -/
def State.pd (s : State) (d : Nat) : Nat := s.fld F.PD_STAT.NOW [d]
/-- The state after any sequence in progress. -/
def State.pdTarget (s : State) (d : Nat) : Nat := s.fld F.PD_STAT.WORD [d] % 8
def State.pdBusy (s : State) (d : Nat) : Bool := bit (s.reg .PD_STAT [d]) 5

/-- The endpoint ports of a domain are fenced: it is in, or on its way to, DEEP or OFF (R220). -/
def State.fenced (s : State) (d : Nat) : Bool :=
  let low : Nat → Bool := fun x => x == 0 || x == 3
  low (s.pd d) || (s.pdBusy d && low (s.pdTarget d))

/-- Manual gating, and the gate of block `b` of tower `t` is closed: the block does none of its own work (R319). -/
def State.gateShut (s : State) (t b : Nat) : Bool := !s.flag F.CLKGATE_MODE.AUTO && !s.flag F.GATE.OPEN [t, b]

/-! ### Roles and sessions (R281) -/

def roleCode : Role → Nat
  | .operator => 0
  | .installer => 1
  | .maker => 2

def roleOfCode (n : Nat) : Role := if n = 1 then .installer else if n = 2 then .maker else .operator

/-- The role a request carries: that of an accepted request which is being delivered, the running program's, or the one bound to
the host session (R93, R229, R281, R286). -/
def State.roleOf (s : State) (rq : Rq) : Option Role :=
  match s.carried, rq.agent with
  | some p, _ => some p.1
  | none, .engine e => some s.engines[e].role
  | none, .host m n =>
    let ix := [16 * m.val + n.val]
    if s.flag F.SESS.OPEN ix then some (roleOfCode (s.fld F.SESS.ROLE ix)) else none

/-- The session identifier of a request (*Session identifiers*). -/
def State.sessionOf (s : State) (rq : Rq) : Nat :=
  match s.carried, rq.agent with
  | some p, _ => p.2.toNat
  | none, .engine e => 3 * 8192 + s.engines[e].cmdQueue.toNat
  | none, .host m n => 16 * m.val + n.val

/-- The tower whose endpoints serve the requester's own traffic (R210). -/
def towerOf (rq : Rq) : Nat :=
  match rq.agent with
  | .engine e => e.val / 4
  | .host m _ => m.val

/-! ### Laps -/

/-- Laps are running (LAPSTAT RUNNING). -/
def State.lapsRun (s : State) : Bool := s.fab.phase != .halted
def State.lapCount (s : State) : W64 := s.reg .LAP_COUNT

/-! ### The black box (R287, R390, R391) -/

/-- A black-box record of class `cls`; its time is a free value (notes/assumptions 3). -/
def State.record (s : State) (cls : Nat) (session : Nat) (role : Nat) (code : Nat) (object d0 d1 : W64)
    (pinned auto : Bool) : State :=
  let r : BBRec :=
    { cls := BitVec.ofNat 8 cls
      pinned := pinned
      sioTime := s.ref.xtalbFailed
      replica := s.flag F.REF_STAT.ACTIVE
      auto := auto
      time := Config.freeTime s.free
      session := BitVec.ofNat 16 session
      role := BitVec.ofNat 8 role
      code := BitVec.ofNat 8 code
      lap := BitVec.ofNat 32 s.lapCount.toNat
      object := object
      detail0 := d0
      detail1 := d1
      detail2 := 0 }
  { s.spend with ref := { s.ref with bb := s.ref.bb ++ [r] } }

/-- A record of an action the Referee takes by itself. -/
def State.recordAuto (s : State) (cls : Nat) (object d0 : W64) (pinned : Bool := false) : State :=
  s.record cls (4 * 8192) 0 0 object d0 0 pinned true

/-- A write accepted under a role (ROLE_WRITE): the address, old and new value. -/
def State.recordWrite (s : State) (rq : Rq) (addr : Nat) (old new : W64) : State :=
  s.record 3 (s.sessionOf rq) (((s.roleOf rq).map roleCode).getD 0) 0 (BitVec.ofNat 64 addr) old new false false

/-! ### Engines -/

def State.eng (s : State) (e : Eng) : Engine := s.engines[e]
def State.setEng (s : State) (e : Eng) (en : Engine) : State := { s with engines := s.engines.set e en }
def State.onEng (s : State) (e : Eng) (f : Engine → Engine) : State := s.setEng e (f (s.eng e))

/-- A general register; g0 reads as zero (R69). -/
def Engine.get (en : Engine) (r : Gpr) : W64 := if r = 0 then 0 else en.g[r]
/-- A write to a general register; one to g0 is discarded (R69). -/
def Engine.put (en : Engine) (r : Gpr) (v : W64) : Engine := if r = 0 then en else { en with g := en.g.set r v }

/-- `n` engine cycles pass for the program. -/
def Engine.tick (en : Engine) (n : W64) : Engine :=
  { en with cycle := en.cycle + n, runtime := en.runtime + n }

def Engine.setBit (en : Engine) (b : Fin 64) : Engine := { en with evpend := en.evpend ||| (1 <<< b.val) }

/-- An occurrence at an edge source: every event bit bound to class `cls` with an argument that `m` accepts is set (R83). -/
def Engine.edge (en : Engine) (cls : Nat) (m : W64 → Bool) : Engine :=
  en.bindings.foldl (fun en b => if b.cls.val = cls ∧ m b.arg then en.setBit b.bit else en) en

/-- An occurrence at an edge source that every engine may be bound to. -/
def State.edge (s : State) (cls : Nat) (m : W64 → Bool) : State :=
  { s with engines := s.engines.map fun en => en.edge cls m }

/-- The engine's domain runs it (R333). -/
def engDomain (e : Eng) : Nat := pdNE (e.val / 4)

/-- SIGNAL's effect on an engine target: the event bit and SIGDATA. An engine whose domain is off or in DEEP takes none. -/
def State.signalEngine (s : State) (e : Eng) (b : Fin 64) (data : W64) : State :=
  if s.fenced (engDomain e) then s else s.onEng e fun en => { en.setBit b with sigdata := data }

/-! ### Traps (R89, R90) -/

/-- *Octuk trap causes*. -/
inductive Trap where
  | software | illegal | roleDenied | fetchUncorrectable | dataUncorrectable | misaligned | busError | watchdog
  | nmiClock | nmiThermal | dmaHalt | counterOverflow
  deriving DecidableEq, Repr

def Trap.code : Trap → Nat
  | .software => 0 | .illegal => 1 | .roleDenied => 2 | .fetchUncorrectable => 3 | .dataUncorrectable => 4
  | .misaligned => 5 | .busError => 6 | .watchdog => 7 | .nmiClock => 8 | .nmiThermal => 9 | .dmaHalt => 10
  | .counterOverflow => 11

def Trap.nonMaskable : Trap → Bool
  | .nmiClock => true
  | .nmiThermal => true
  | _ => false

/-- TCAUSE, TVAL and TPC as the trap writes them. -/
def Engine.trapRegs (en : Engine) (c : Trap) (resp : Byte) (imprecise : Bool) (tval tpc : W64) : Engine :=
  { en with
    tcause := BitVec.ofNat 64 (c.code + b2n imprecise * 65536 + (if c = .busError then resp.toNat else 0) * 2 ^ 24)
    tval := tval
    tpc := tpc }

def Engine.tvecEn (en : Engine) : Bool := bit en.tvec 0

/-- A trap ends the program when TVEC.EN is 0, or when it is not a non-maskable event and arises while INTRAP is 1 (R90). -/
def Engine.trapEnds (en : Engine) (c : Trap) : Bool := !en.tvecEn || (en.inTrap && !c.nonMaskable)

/-- Entry into the handler table of the resident area (R89). -/
def Engine.enterHandler (en : Engine) (c : Trap) : Engine :=
  { en with
    inTrap := true
    state := .running
    waiting := none
    pc := BitVec.ofNat 16 (bitsOf en.tvec 15 10 * 0x400 + c.code * 0x40) }.tick 4

/-- Return from a trap: continue at TPC with INTRAP clear (R89). -/
def Engine.leaveHandler (en : Engine) : Engine :=
  { en with inTrap := false, pc := BitVec.ofNat 16 en.tpc.toNat }

/-! ### Answers to memory-mapped requests -/

/-- *Response codes* (R224). -/
inductive Resp where
  | ok | decodeError | roleDenied | uncorrectable | narrowWrite | writeSuperseded | domainOff | layerReset | tagFailed
  | regionSealed | timeout | bankNotOwned | routerHoldTimeout | tileFailed | unenrolled
  deriving DecidableEq, Repr

def Resp.code : Resp → Nat
  | .ok => 0 | .decodeError => 1 | .roleDenied => 2 | .uncorrectable => 3 | .narrowWrite => 4 | .writeSuperseded => 5
  | .domainOff => 6 | .layerReset => 7 | .tagFailed => 8 | .regionSealed => 9 | .timeout => 10 | .bankNotOwned => 11
  | .routerHoldTimeout => 12 | .tileFailed => 13 | .unenrolled => 14

def Resp.byte (r : Resp) : Byte := BitVec.ofNat 8 r.code

def respOfByte (b : Byte) : Resp :=
  match b.toNat with
  | 0 => .ok | 1 => .decodeError | 2 => .roleDenied | 3 => .uncorrectable | 4 => .narrowWrite | 5 => .writeSuperseded
  | 6 => .domainOff | 7 => .layerReset | 8 => .tagFailed | 9 => .regionSealed | 10 => .timeout | 11 => .bankNotOwned
  | 12 => .routerHoldTimeout | 13 => .tileFailed | 14 => .unenrolled
  | _ => .timeout

/-- A response is on its way to the requester, with the role of its request; a host's COMPLETION leaves over its module (R211, R216,
R231). -/
def State.answer (s : State) (rq : Rq) (read : Bool) (resp : Resp) (len : Nat) (data : Payload) : State :=
  match rq.agent with
  | .engine _ => { s with answers := s.answers ++ [⟨rq, (s.roleOf rq).getD .operator, resp.byte, read, data⟩] }
  | .host m _ => { s with hostOut := s.hostOut ++ [.completion m rq.tag resp.byte len data] }

/-! ### Addresses -/

/-- Design memory: tower, bank and word of an address (R21, R156). -/
def memTower (a : Nat) : Nat := a / 0x40000000
def memBank (a : Nat) : Nat := a % 0x40000000 / 0x400000
def memWord (a : Nat) : Nat := a % 0x400000 / 16
def bankBase (t b : Nat) : Nat := t * 0x40000000 + b * 0x400000

/-- The regions of the top-level address map (R21). -/
inductive Space where
  | memory | frame | stateStore | register | doorbell | host | none
  deriving DecidableEq, Repr

def spaceOf (a : Nat) : Space :=
  if a < 0x000100000000 then .memory
  else if 0x010000000000 ≤ a ∧ a < 0x010800000000 then .frame
  else if 0x020000000000 ≤ a ∧ a < 0x020100000000 then .stateStore
  else if 0x030000000000 ≤ a ∧ a < 0x030500000000 then .register
  else if 0x040000000000 ≤ a ∧ a < 0x040002000000 then .doorbell
  else if 0x800000000000 ≤ a ∧ a < 0x1000000000000 then .host
  else .none

end Sys2Proof.Machine
end

