-- ==== Sys2Proof/Machine/Crypto.lean ====
section
/-! DEFINITION. What the manual builds on AES-256, SHA-384 and ECDH P-384: GCM and GMAC, HMAC and HKDF, and the device's own digest.
The primitives are uninterpreted (Config); the modes and byte orders are those of the standards that the manual names
(notes/assumptions 90). A byte string held in a word has byte 0 lowest. -/

namespace Sys2Proof.Machine

/-! ### Bytes of an image, a key or a message -/

/-- `n` bytes from offset `off`, little-endian. -/
def leField (bs : List Byte) (off n : Nat) : Nat := joinBytes ((bs.drop off).take n)

/-- What an outside party's byte string gives as a digest, a key or a signature: byte 0 lowest. -/
def digestAt (bs : List Byte) (off : Nat) : BitVec 384 := BitVec.ofNat 384 (leField bs off 48)
def keyAt (bs : List Byte) (off : Nat) : BitVec 768 := BitVec.ofNat 768 (leField bs off 96)

/-- A byte of the identity bundle: the bytes that no field names, and those of CERT beyond CERT_LEN, are zero (R288). -/
def bundleByte (off : Nat) : Byte :=
  let raw (o : Nat) : Byte := byteAt (Config.identityWord (o / 8)) (o % 8)
  let len := (Config.certLen).val
  if off < 0x120 then raw off
  else if off < 0x122 then BitVec.ofNat 8 (len / 256 ^ (off - 0x120))
  else if 0x180 ≤ off ∧ off < 0x180 + len then raw off
  else 0

/-- Bytes of the identity bundle (R288). -/
def bundleBytes (off n : Nat) : List Byte := (List.range n).map fun i => bundleByte (off + i)
def keyBytes (k : BitVec 768) : List Byte := bytesOf 96 k.toNat
/-- The digest of a public key in uncompressed form: 0x04, X, Y (R288). -/
def keyDigest (bs : List Byte) : BitVec 384 := Config.sha384 ((0x04 : Byte) :: bs)
def idDigest : BitVec 384 := keyDigest (bundleBytes 0 96)
def digestBytes (d : BitVec 384) : List Byte := bytesOf 48 d.toNat

/-- Byte strings in ascending order, the first byte deciding first. -/
def bytesLess : List Byte → List Byte → Bool
  | [], _ :: _ => true
  | a :: as, b :: bs => decide (a.toNat < b.toNat) || (a == b && bytesLess as bs)
  | _, [] => false

/-! ### HMAC and HKDF with SHA-384 (R291, R292) -/

def xorBytes (xs ys : List Byte) : List Byte := (xs.zip ys).map fun p => p.1 ^^^ p.2

/-- HMAC-SHA-384, whose block is 128 bytes, for a key of at most a block. -/
def hmac (key msg : List Byte) : List Byte :=
  let k := key ++ List.replicate (128 - key.length) 0
  let inner := digestBytes (Config.sha384 (k.map (· ^^^ 0x36) ++ msg))
  digestBytes (Config.sha384 (k.map (· ^^^ 0x5C) ++ inner))

/-- The first 36 bytes of HKDF-Expand: one round gives 48. -/
def hkdfExpand36 (prk info : List Byte) : List Byte := (hmac prk (info ++ [1])).take 36

/-- A link key or HELLO key with its IV prefix. -/
def linkKeyOf (bs : List Byte) : LinkKey :=
  { key := BitVec.ofNat 256 (leField bs 0 32), ivHead := BitVec.ofNat 32 (leField bs 32 4) }

/-- PRK of a partner's agreement key: HKDF-Extract under 48 zero bytes (R291). -/
def linkPrk (agrPub : BitVec 768) : List Byte := hmac (List.replicate 48 0) (digestBytes (Config.ecdhSecret agrPub))

/-- The HELLO key of a sender with digest `id` (R291). -/
def helloKey (prk : List Byte) (nonce : W64) (id : BitVec 384) : LinkKey :=
  linkKeyOf (hkdfExpand36 prk ([0x52, 0x59, 0x55, 0x2D, 0x48] ++ bytesOf 8 nonce.toNat ++ digestBytes id))

/-- The link key of one direction; `high`: it is the direction from the device with the higher digest (R292). -/
def linkKey (prk : List Byte) (nonceLo nonceHi : W64) (high : Bool) : LinkKey :=
  linkKeyOf (hkdfExpand36 prk
    ([0x52, 0x59, 0x55, 0x2D, 0x4C] ++ bytesOf 8 nonceLo.toNat ++ bytesOf 8 nonceHi.toNat ++ [BitVec.ofNat 8 (b2n high)]))

/-! ### AES-256-GCM and GMAC (R292, R301) -/

/-- A block as a number whose first byte is the highest, and back. -/
def beNum (bs : List Byte) : Nat := joinBytes bs.reverse
def beBytes (n v : Nat) : List Byte := (bytesOf n v).reverse

/-- AES-256 of 16 bytes. -/
def aesBytes (key : BitVec 256) (bs : List Byte) : List Byte :=
  bytesOf 16 (Config.aes256 key (BitVec.ofNat 128 (joinBytes bs))).toNat

/-- Multiplication in GCM's field, the first bit of a block being its highest. -/
def gfMul : Nat → BitVec 128 → BitVec 128 → BitVec 128 → BitVec 128
  | 0, _, _, z => z
  | n + 1, x, v, z =>
    gfMul n (x <<< 1) (if v.getLsbD 0 then (v >>> 1) ^^^ (0xE1#128 <<< 120) else v >>> 1) (if x.getLsbD 127 then z ^^^ v else z)

/-- A byte string cut into 16-byte blocks, the last filled with zeros. -/
def blocks16 (bs : List Byte) : List (List Byte) :=
  (List.range ((bs.length + 15) / 16)).map fun i =>
    let b := (bs.drop (16 * i)).take 16
    b ++ List.replicate (16 - b.length) 0

def ghash (h : BitVec 128) (bs : List (List Byte)) : BitVec 128 :=
  bs.foldl (fun y b => gfMul 128 (y ^^^ BitVec.ofNat 128 (beNum b)) h 0) 0

/-- The 16-byte tag over additional data and ciphertext, for a 12-byte IV. -/
def gcmTag (key : BitVec 256) (iv aad ct : List Byte) : List Byte :=
  let h : BitVec 128 := BitVec.ofNat 128 (beNum (aesBytes key (List.replicate 16 0)))
  let lens := beBytes 8 (8 * aad.length) ++ beBytes 8 (8 * ct.length)
  xorBytes (beBytes 16 (ghash h (blocks16 aad ++ blocks16 ct ++ [lens])).toNat) (aesBytes key (iv ++ [0, 0, 0, 1]))

/-- The first `n` bytes of the keystream. -/
def gcmStream (key : BitVec 256) (iv : List Byte) (n : Nat) : List Byte :=
  ((List.range ((n + 15) / 16)).flatMap fun i => aesBytes key (iv ++ beBytes 4 (i + 2))).take n

def gcmCrypt (key : BitVec 256) (iv bs : List Byte) : List Byte := xorBytes bs (gcmStream key iv bs.length)

/-- The first 64 bits of a GMAC tag. -/
def gmac64 (key : BitVec 256) (iv msg : List Byte) : W64 := BitVec.ofNat 64 (leField (gcmTag key iv msg []) 0 8)

/-! ### Sealing a frame (R292) -/

def LinkKey.iv (k : LinkKey) (nonce : W64) : List Byte := bytesOf 4 k.ivHead.toNat ++ bytesOf 8 nonce.toNat

/-- The payload encrypted, and the tag over header and ciphertext. -/
def sealBytes (k : LinkKey) (nonce : W64) (header payload : List Byte) : List Byte :=
  let ct := gcmCrypt k.key (k.iv nonce) payload
  ct ++ gcmTag k.key (k.iv nonce) header ct

/-- The payload of sealed bytes, where their tag is good. -/
def openBytes (k : LinkKey) (nonce : W64) (header sealed_ : List Byte) : Option (List Byte) :=
  let ct := sealed_.take (sealed_.length - 16)
  if sealed_.drop (sealed_.length - 16) = gcmTag k.key (k.iv nonce) header ct then some (gcmCrypt k.key (k.iv nonce) ct) else none

end Sys2Proof.Machine
end

