-- ==== Sys2Proof/Machine/Network.lean ====
section
/-! DEFINITION. Where an address is served: endpoints, routers and the fences at their ports (R209, R220 to R223). -/

namespace Sys2Proof.Machine

/-! ### Endpoints (R209, R220) -/

/-- Where an address is served: tower, router number, port, and the power domain whose fence guards it. -/
structure Endpoint where
  tower : Nat
  router : Nat
  port : Nat
  dom : Nat
  deriving DecidableEq, Repr

def routerNo (u v : Nat) : Nat := 6 * v + u

/-- Port B of bank group `g` of tower `t`. -/
def groupEnd (t g : Nat) : Endpoint := ⟨t, routerNo (1 + g % 4) (if g < 4 then 0 else 3), 0, 11 + 14 * t + g / 2⟩

/-- Endpoint `e` of tower `t`, where the table has one, with the domain that holds its interface: endpoint 12 is held by quadrant 0
with the memory-layer registers, endpoints 16 and 18 by network-and-engines (R333); endpoint 17 stands here with the first of its four
logic halves. -/
def endpointNo (t e : Nat) : Option Endpoint :=
  if e < 4 then some ⟨t, [routerNo 1 1, routerNo 4 1, routerNo 1 2, routerNo 4 2].getD e 0, 0, pdNE t⟩
  else if e < 12 then some (groupEnd t (e - 4))
  else match e with
    | 12 => some ⟨t, routerNo 1 0, 1, pdQuad t 0⟩
    | 13 => some ⟨t, routerNo 0 1, 0, pdCfg (2 * t)⟩
    | 14 => some ⟨t, routerNo 5 1, 0, pdCfg (2 * t + 1)⟩
    | 15 => some ⟨t, routerNo 2 2, 0, 1⟩
    | 16 => some ⟨t, routerNo 0 2, 0, pdNE t⟩
    | 17 => some ⟨t, routerNo 3 1, 0, pdLogic (2 * t) 0⟩
    | 18 => some ⟨t, routerNo 2 1, 0, pdNE t⟩
    | 19 => some ⟨t, routerNo 3 1, 1, 2 + t⟩
    | 24 => if t = 0 then some ⟨0, routerNo 0 0, 0, pdNE 0⟩ else none
    | 25 => if t = 0 then some ⟨0, routerNo 0 0, 1, 0⟩ else none
    | 26 => if t = 0 then some ⟨0, routerNo 5 0, 0, 1⟩ else none
    | 27 => if t = 0 then some ⟨0, routerNo 0 3, 0, pdNE 0⟩ else none
    | 28 => if t = 1 then some ⟨1, routerNo 0 0, 0, 6⟩ else none
    | _ => none

/-- Every endpoint of the package; the stream ports' port of a tower stands once for each logic half behind it. -/
def endpoints : List Endpoint := (List.range 4).flatMap fun t =>
  (List.range 29).filterMap (endpointNo t) ++ [1, 2, 3].map fun k => ⟨t, routerNo 3 1, 0, pdLogic (2 * t) 0 + k⟩

/-- The endpoint that serves a device address; a request to host memory leaves through the requester's tower `tw`. -/
def endpointOf (tw a : Nat) : Endpoint :=
  match spaceOf a with
  | .memory => groupEnd (memTower a) (memBank a / 32)
  | .frame =>
    let d := (a - 0x010000000000) / 0x100000000
    (endpointNo (d / 2) (13 + d % 2)).getD ⟨0, 0, 0, 0⟩
  | .stateStore =>
    let o := a - 0x020000000000
    let d := o / 0x2000000
    ⟨d / 2, routerNo 3 1, 0, pdLogic d (o % 0x2000000 / 0x1000 % 65)⟩
  | .doorbell => ⟨0, routerNo 0 3, 0, pdNE 0⟩
  | .host => ⟨tw, routerNo 2 2, 0, 1⟩
  | .none => ⟨0, 0, 0, 0⟩
  | .register =>
    let o := a - 0x030000000000
    if o < 0x1000000 then
      match o / 0x100000 with
      | 0 => ⟨0, routerNo 0 0, 1, 0⟩
      | 1 => ⟨1, routerNo 0 0, 0, 6⟩
      | 2 => ⟨1, routerNo 0 0, 0, 6⟩
      | 3 => ⟨0, routerNo 5 0, 0, 1⟩
      | 4 => ⟨0, routerNo 5 0, 0, 1⟩
      | 5 => ⟨0, routerNo 0 3, 0, pdNE 0⟩
      | 6 => ⟨0, routerNo 0 3, 0, pdNE 0⟩
      | 8 => ⟨0, routerNo 0 0, 0, pdNE 0⟩
      | 9 => ⟨0, routerNo 0 0, 0, pdNE 0⟩
      | 12 => ⟨0, routerNo 5 0, 0, 1⟩
      | _ => ⟨0, routerNo 0 0, 1, 0⟩
    else
      let t := (o - 0x1000000) / 0x1000000
      let b := o % 0x1000000
      if 0x10000 ≤ b ∧ b < 0x50000 then (endpointNo t ((b - 0x10000) / 0x10000)).getD ⟨t, 0, 0, 0⟩
      else if b / 0x100000 = 2 then ⟨t, routerNo 1 0, 1, pdQuad t 0⟩
      else if b / 0x100000 = 7 then ⟨t, routerNo 0 2, 0, pdNE t⟩
      else ⟨t, routerNo 2 1, 0, pdNE t⟩

/-- Requests in the wake buffer of a router (R221). -/
def State.wakeHeld (s : State) (t r : Nat) : List Held :=
  s.held.filter fun h => (endpointOf (towerOf h.rq) h.addr).tower == t && (endpointOf (towerOf h.rq) h.addr).router == r

/-- The configuration writes that a router has taken and not answered; while there is one the router is in HOLD (R222, R223). -/
def State.routerHolds (s : State) (t r : Nat) : List RouterHold := s.holds.filter fun h => h.tower == t && h.router == r
def State.inHold (s : State) (t r : Nat) : Bool := !(s.routerHolds t r).isEmpty

/-! ### Fences (R220, R223) -/

/-- The fences of domain `d` are raised; at a router in HOLD the fence waits for the hold's end. -/
def State.raiseFences (s : State) (d : Nat) : State :=
  let waits := endpoints.filter fun e => e.dom == d && s.inHold e.tower e.router
  { s with fenceWait := s.fenceWait ++ waits.map fun e => (e.tower, e.router, d) }

/-- The fences of domain `d` are lowered. -/
def State.lowerFences (s : State) (d : Nat) : State := { s with fenceWait := s.fenceWait.filter fun w => w.2.2 != d }

/-- The fence at an endpoint acts: its domain is in, or on its way to, DEEP or OFF, and no hold defers it while the domain still
serves. -/
def State.portFenced (s : State) (e : Endpoint) : Bool :=
  s.fenced e.dom && !(s.fenceWait.contains (e.tower, e.router, e.dom) && (s.pd e.dom == 1 || s.pd e.dom == 2))

/-- Port 1 of the router of the memory-layer registers: those stay while any quadrant of the tower is in RUN or SLEEP (R334). -/
def State.memLayerOn (s : State) (t : Nat) : Bool := (List.range 4).any fun q => !s.fenced (pdQuad t (64 * q))

def Endpoint.isMemLayer (e : Endpoint) : Bool := e.router == routerNo 1 0 && e.port == 1

/-- Requests to the endpoint are stopped at its port. -/
def State.portOff (s : State) (e : Endpoint) : Bool := if e.isMemLayer then !s.memLayerOn e.tower else s.portFenced e

/-- ROUTER_STAT.FENCED: the ports of the router at which a fence acts. -/
def State.fencedPorts (s : State) (t r : Nat) : Nat :=
  natOfBits ((List.range 8).map fun p => endpoints.any fun e => e.tower == t && e.router == r && e.port == p && s.portOff e)

end Sys2Proof.Machine
end

