-- ==== Sys2Proof/Machine/VaultMem.lean ====
section
/-! DEFINITION. Host memory as the device reaches it: the region table, the layout, keystream, tags and counter tree of vault
regions, the counter cache, and reads and writes (R23, R227, R233, R234, R298 to R306).

A line's plaintext stands in `Vault.data`. What host memory holds of it, and of the tags and nodes, is computed from it, except for
words that something else has written since (`Vault.foreign`): those hold what was written. -/

namespace Sys2Proof.Machine

/-! ### The region table and seals (R23, R227, R233, R234, R306) -/

def State.regionBase (s : State) (n : Nat) : Nat := s.fld F.HR_BASE.BASE [n] * 4096
def State.regionEnd (s : State) (n : Nat) : Nat := (s.fld F.HR_LIMIT.LIMIT [n] + 1) * 4096
def State.regionEn (s : State) (n : Nat) : Bool := s.flag F.HR_BASE.EN [n]

/-- The enabled entry that covers every byte of `len` bytes at host address `h` and permits the direction. -/
def State.regionFor (s : State) (h len : Nat) (write : Bool) : Option Nat :=
  (List.range 64).find? fun n =>
    s.regionEn n && (s.regionBase n ≤ h && h + len ≤ s.regionEnd n) &&
      s.flag (if write then F.HR_BASE.DEV_WR else F.HR_BASE.DEV_RD) [n]

/-- Line number within vault region `n` of host address `h`. -/
def State.lineOf (s : State) (n h : Nat) : Nat := (h - s.regionBase n) / 64

/-- Lines of the region that a valid seal-table entry covers (R306). -/
def State.sealCovers (s : State) (j n line : Nat) : Bool :=
  s.flag F.SEAL.VALID [j] && s.fld F.SEAL.REGION [j] == n &&
    line / 8 ^ s.fld F.SEAL.LEVEL [j] == s.fld F.SEAL.NODE [j]

def State.sealedLine (s : State) (n line : Nat) : Bool :=
  s.fld F.VR_STAT.STATE [n] == 3 || (List.range 32).any fun j => s.sealCovers j n line

/-- The lines, by host address / 64, that `len` bytes at `h` touch. -/
def linesOf (h len : Nat) : List Nat := (List.range ((h + len - 1) / 64 - h / 64 + 1)).map (h / 64 + ·)

/-- The host channel's answer to a device request before it is sent: none when it may go. The region check comes before the
state of the link (R227, R234). -/
def State.devRefusal (s : State) (tw h len : Nat) (write : Bool) : Option Resp :=
  let gib := s.fld F.HC_HOSTMEM.GIB
  if gib = 0 ∨ gib * 2 ^ 30 < h + len then some .decodeError
  else match s.regionFor h len write with
    | none => some .decodeError
    | some n =>
      if s.flag F.HR_BASE.VAULT [n] && (linesOf h len).any (fun l => s.sealedLine n (s.lineOf n (l * 64)))
      then some .regionSealed
      else if !s.flag F.HC_LINK.UP [tw] then some .domainOff
      else none

/-- The vault region of an address, if its entry has VAULT set. -/
def State.vaultOf (s : State) (h len : Nat) (write : Bool) : Option Nat :=
  match s.regionFor h len write with
  | some n => if s.flag F.HR_BASE.VAULT [n] then some n else none
  | none => none

/-! ### Layout of a region (R298, R299) -/

/-- Lines of region `n`. -/
def State.lineCount (s : State) (n : Nat) : Nat := 2 ^ (s.fld F.VR_CFG.SIZE [n] - 6)

/-- The level of the tree that the on-chip root covers: the first that holds 8 nodes or fewer. -/
def State.topLevel (s : State) (n : Nat) : Nat := (s.fld F.VR_CFG.SIZE [n] - 7) / 3

/-- Nodes of the levels below `k`. -/
def nodesBelow (lines k : Nat) : Nat := ((List.range (k - 1)).map fun i => lines / 8 ^ (i + 1)).sum

/-- META_SIZE of a region of 2^size bytes. -/
def metaSize (size : Nat) : Nat :=
  let lines := 2 ^ (size - 6)
  (8 * lines + 64 * nodesBelow lines ((size - 7) / 3 + 1) + 4095) / 4096 * 4096

def State.metaBase (s : State) (n : Nat) : Nat := s.fld F.VR_CFG.META [n] * 4096
def State.metaEnd (s : State) (n : Nat) : Nat := s.metaBase n + metaSize (s.fld F.VR_CFG.SIZE [n])

/-- Where the tag of line `i` lies, and node `j` of level `k`. -/
def State.tagAddr (s : State) (n i : Nat) : Nat := s.metaBase n + 8 * i
def State.nodeAddr (s : State) (n k j : Nat) : Nat :=
  s.metaBase n + 8 * s.lineCount n + 64 * (nodesBelow (s.lineCount n) k + j)

/-- The host line that is line 0 of the region at the place where it was enabled last; none before that. -/
def State.firstLine (s : State) (n : Nat) : Option Nat :=
  match (Sparse.read s.vault.boundAt n).toNat with
  | 0 => none
  | page => some ((page - 1) * 64)

/-- What a word of host memory (address / 16) is to the vault engine: part of a line, the tags of line `i` and the next, or a word of a
node. -/
inductive VaultPlace where
  | line (n : Nat)
  | tags (n i : Nat)
  | node (n k j word : Nat)
  deriving DecidableEq, Repr

/-- The level and index of node number `m` of the region, counted from level 1 up. -/
def nodeNo (lines : Nat) : Nat → Nat → Nat → Option (Nat × Nat)
  | 0, _, _ => none
  | fuel + 1, k, m => if m < lines / 8 ^ k then some (k, m) else nodeNo lines fuel (k + 1) (m - lines / 8 ^ k)

/-- The part of region `n` that word `w` is. -/
def State.placeIn (s : State) (n w : Nat) : Option VaultPlace :=
  let lines := s.lineCount n
  let tags := s.metaBase n / 16
  let nodes := tags + lines / 2
  if (s.firstLine n).any fun l => decide (4 * l ≤ w ∧ w < 4 * (l + lines)) then some (.line n)
  else if w < tags then none
  else if w < nodes then some (.tags n (2 * (w - tags)))
  else (nodeNo lines (s.topLevel n) 1 ((w - nodes) / 4)).map fun x => .node n x.1 x.2 ((w - nodes) % 4)

/-- What a word is to the regions that have keys. -/
def State.vaultPlace (s : State) (w : Nat) : Option VaultPlace := s.vault.draws.findSome? fun d => s.placeIn d.1 w

/-! ### Keys, counters and versions (R300 to R302) -/

/-- The 256-bit number that the random generator gave at draw `k`. -/
def drawn (k : Nat) : BitVec 256 := BitVec.ofNat 256 (joinWords ((List.range 4).map fun i => Config.freeRandom (k + i)))

/-- The keys of region `n`: `draws` holds the number of their first word, plus one. -/
def State.encKey (s : State) (n : Nat) : BitVec 256 := drawn (Sparse.get (fun _ => 0) s.vault.draws n - 1)
def State.tagKey (s : State) (n : Nat) : BitVec 256 := drawn (Sparse.get (fun _ => 0) s.vault.draws n + 3)

/-- The counter that line `i` of a region, or the version that a node over it and below level `k`, has by the last initialisation of
the region or of a sealed range (R300, R307). -/
def State.initCounter (s : State) (n i : Nat) (k : Nat := 0) : Nat :=
  match s.vault.rebased.find? fun r => r.1 == n && decide (k < r.2.1) && i / 8 ^ r.2.1 == r.2.2.1 with
  | some r => r.2.2.2.toNat
  | none => (Sparse.read s.vault.baseCounter n).toNat

/-- The counter of a vault line, by host address / 64: its own, or the one it was initialised with. -/
def State.lineCounter (s : State) (n line : Nat) : Nat :=
  match (Sparse.read s.vault.counters line).toNat with
  | 0 => s.initCounter n (s.lineOf n (line * 64))
  | c => c

/-- The counter of line `i`: as initialised, while the region has no place. -/
def State.counterOf (s : State) (n i : Nat) : Nat :=
  match s.firstLine n with
  | some l => s.lineCounter n (l + i)
  | none => s.initCounter n i

def nodeKey (n k j : Nat) : Nat := (n * 16 + k) * 2 ^ 32 + j

/-- The parent's counter for node `j` of level `k`; for a node of the top level, the root counter. -/
def State.version (s : State) (n k j : Nat) : Nat :=
  match (Sparse.read s.vault.versions (nodeKey n k j)).toNat with
  | 0 => s.initCounter n (j * 8 ^ k) k
  | c => c

/-- The counters that node `j` of level `k` holds now. -/
def State.nodeCounters (s : State) (n k j : Nat) : List Nat :=
  (List.range 8).map fun c => if k = 1 then s.counterOf n (8 * j + c) else s.version n (k - 1) (8 * j + c)

/-- The counters as host memory has them: a dirty node's are those of its last write-back. -/
def State.nodeImage (s : State) (n k j : Nat) : List Nat :=
  match s.vault.dirty.find? fun d => d.1 == (n, k, j) with
  | some d => d.2
  | none => s.nodeCounters n k j

/-! ### Keystream and tags (R301) -/

/-- The keystream of the word `w` of host memory, under its line's counter. -/
def State.keystream (s : State) (n w : Nat) : Quad :=
  let block := s.lineCounter n (w / 4) * 2 ^ 72 + bitsOf (BitVec.ofNat 64 (w / 4 * 64)) 37 6 * 2 ^ 40 + n * 2 ^ 34 + w % 4
  Config.aes256 (s.encKey n) (BitVec.ofNat 128 (joinBytes (beBytes 16 block)))

/-- The tag of a line's 64 bytes. -/
def State.lineTag (s : State) (n line : Nat) (cipher : List Quad) : W64 :=
  let iv := s.lineCounter n line * 2 ^ 40 + bitsOf (BitVec.ofNat 64 (line * 64)) 37 6 * 2 ^ 8 + n * 4
  gmac64 (s.tagKey n) (beBytes 12 iv) (cipher.flatMap fun q => bytesOf 16 q.toNat)

/-- The tag of the 56 bytes of a node. -/
def State.nodeTag (s : State) (n k j : Nat) (counters : List Byte) : W64 :=
  gmac64 (s.tagKey n) (beBytes 12 (s.version n k j * 2 ^ 40 + j * 2 ^ 11 + k * 2 ^ 7 + n * 2 + 1)) counters

def wordsOfLine (line : Nat) : List Nat := (List.range 4).map (4 * line + ·)

/-- The ciphertext that the engine has written of a word, and the tag of a line. -/
def State.cipherWord (s : State) (n w : Nat) : Quad := Sparse.read s.vault.data w ^^^ s.keystream n w
def State.writtenTag (s : State) (n i : Nat) : W64 :=
  match s.firstLine n with
  | some l => s.lineTag n (l + i) ((wordsOfLine (l + i)).map (s.cipherWord n))
  | none => 0

def State.nodeBytes (s : State) (n k j : Nat) : List Byte :=
  let cs := (s.nodeImage n k j).flatMap (bytesOf 7)
  cs ++ bytesOf 8 (s.nodeTag n k j cs).toNat

/-- What the engine has written of a word. -/
def State.placeWord (s : State) (w : Nat) : VaultPlace → Quad
  | .line n => s.cipherWord n w
  | .tags n i => quadOf (s.writtenTag n i) (s.writtenTag n (i + 1))
  | .node n k j word => BitVec.ofNat 128 (leField (s.nodeBytes n k j) (16 * word) 16)

/-! ### Host memory, word by word -/

/-- The words that a region whose keys are gone, or that has another place now, has left there: their content is free, by draw. -/
def State.staleDraw (s : State) (w : Nat) : Option Nat :=
  (s.vault.stale.find? fun x => decide (x.1 ≤ w ∧ w < x.2.1)).map fun x => x.2.2

/-- What host memory holds at word `w` (address / 16). -/
def State.hostRaw (s : State) (w : Nat) : Quad :=
  if s.vault.foreign.contains w then Sparse.read s.hostmem w
  else match s.vaultPlace w with
    | some p => s.placeWord w p
    | none => match s.staleDraw w with
      | some k => Config.vaultCiphertext k w
      | none => Sparse.read s.hostmem w

/-- Something other than the vault engine writes a word of host memory. -/
def State.hostPut (s : State) (w : Nat) (q : Quad) : State :=
  { s with
    hostmem := Sparse.write s.hostmem w q
    vault := { s.vault with
      foreign := if (s.vaultPlace w).isSome || (s.staleDraw w).isSome then listAdd s.vault.foreign w else s.vault.foreign } }

/-- Words stored one after another from word number `w`. -/
def State.hostPuts (s : State) (w : Nat) : List Quad → State
  | [] => s
  | q :: qs => (s.hostPut w q).hostPuts (w + 1) qs

/-- The engine's view of a word of region `n`: the plaintext, or what a foreign word decrypts to. -/
def State.vaultWord (s : State) (n w : Nat) : Quad :=
  if s.vault.foreign.contains w then Sparse.read s.hostmem w ^^^ s.keystream n w else Sparse.read s.vault.data w

/-! ### Verification (R302, R303) -/

/-- None of the words is foreign: they are as the engine wrote them. -/
def State.untouched (s : State) (ws : List Nat) : Bool := ws.all fun w => !s.vault.foreign.contains w

/-- The tag of line `i`, at host line `line`, fits the bytes that host memory holds. -/
def State.lineTagOk (s : State) (n i line : Nat) : Bool :=
  let at_ := s.tagAddr n i
  s.untouched (at_ / 16 :: wordsOfLine line) ||
    wordAt (s.hostRaw (at_ / 16)) (at_ / 8 % 2) == s.lineTag n line ((wordsOfLine line).map s.hostRaw)

def State.nodeTagOk (s : State) (n k j : Nat) : Bool :=
  let ws := wordsOfLine (s.nodeAddr n k j / 64)
  s.untouched ws ||
    let bs := ws.flatMap fun w => bytesOf 16 (s.hostRaw w).toNat
    BitVec.ofNat 64 (leField bs 56 8) == s.nodeTag n k j (bs.take 56)

/-- The nodes over line `i`, the top one first. -/
def State.pathOf (s : State) (n i : Nat) : List (Nat × Nat × Nat) :=
  (List.range (s.topLevel n)).map fun x => (n, s.topLevel n - x, i / 8 ^ (s.topLevel n - x))

/-- The first node over line `i` that is not cached and whose tag fails: its level and index. -/
def State.badPath (s : State) (n i : Nat) : Option (Nat × Nat) :=
  ((s.pathOf n i).find? fun x => !s.vault.cache.contains x && !s.nodeTagOk n x.2.1 x.2.2).map fun x => x.2

/-! ### The counter cache (R302) -/

def cacheNodes : Nat := 65536

/-- The highest counter issued in the region. -/
def State.raiseMark (s : State) (n c : Nat) : State := if n < 64 ∧ s.fld F.VR_STAT.HWM [n] < c then s.put F.VR_STAT.HWM c [n] else s

/-- A node's counters are about to change: what memory holds of it is kept. The root is on chip. -/
def State.dirtyNode (s : State) (n k j : Nat) : State :=
  if s.topLevel n < k ∨ s.vault.dirty.any (fun d => d.1 == (n, k, j)) then s
  else { s with vault := { s.vault with dirty := ((n, k, j), s.nodeCounters n k j) :: s.vault.dirty } }

/-- A node is written back: its parent's counter for it increases. -/
def State.storeNode (s : State) (n k j : Nat) : State :=
  let c := s.version n k j + 1
  let s := s.dirtyNode n (k + 1) (j / 8)
  let s : State := { s with vault := { s.vault with
    dirty := s.vault.dirty.filter fun d => d.1 != (n, k, j)
    versions := Sparse.write s.vault.versions (nodeKey n k j) (BitVec.ofNat 64 c)
    foreign := s.vault.foreign.filter fun w => w / 4 != s.nodeAddr n k j / 64 } }
  s.raiseMark n c

/-- The node used longest ago leaves the cache; the order of use and the choice of the victim are the model's (notes/assumptions 98). -/
def State.evict (s : State) : State :=
  match s.vault.cache.getLast? with
  | none => s
  | some x =>
    let s : State := { s with vault := { s.vault with cache := s.vault.cache.dropLast } }
    if s.vault.dirty.any fun d => d.1 == x then s.storeNode x.1 x.2.1 x.2.2 else s

/-- The verified nodes over line `i` are in the cache, as the latest used, each after its parent. -/
def State.cachePath (s : State) (n i : Nat) : State :=
  let path := s.pathOf n i
  let cache := path ++ s.vault.cache.filter fun x => !path.contains x
  (List.range (cache.length - cacheNodes)).foldl (fun s _ => s.evict) { s with vault := { s.vault with cache := cache } }

/-! ### Regions that lose their keys or their place (R300, R309) -/

/-- The words of a region's lines, while it has a place, and of its tags and nodes: first word, end, and the draw of its keys. -/
def State.lineWords (s : State) (n draw : Nat) : List (Nat × Nat × Nat) :=
  match s.firstLine n with
  | some l => [(4 * l, 4 * (l + s.lineCount n), draw)]
  | none => []
def State.metaWords (s : State) (n draw : Nat) : Nat × Nat × Nat :=
  let a := s.metaBase n / 16
  (a, a + s.lineCount n / 2 + 4 * nodesBelow (s.lineCount n) (s.topLevel n + 1), draw)

/-- What every region leaves in host memory once its keys are gone. -/
def State.leftBehind (s : State) : List (Nat × Nat × Nat) :=
  s.vault.draws.flatMap fun d => s.metaWords d.1 d.2 :: s.lineWords d.1 d.2

/-- Every region key, counter and root is lost; host memory keeps what it holds. -/
def State.abandonVaults (s : State) : State :=
  { s with vault := { s.vault with
      data := [], counters := [], baseCounter := [], rebased := [], boundAt := [], badLines := []
      draws := [], cache := [], dirty := [], versions := [], stale := s.leftBehind ++ s.vault.stale } }

/-- The counter tree of region `n` is as initialisation leaves it. -/
def State.freshTree (s : State) (n : Nat) : State :=
  { s with vault := { s.vault with
      rebased := s.vault.rebased.filter fun r => r.1 != n
      versions := s.vault.versions.filter fun p => p.1 / 2 ^ 36 != n
      cache := s.vault.cache.filter fun x => x.1 != n
      dirty := s.vault.dirty.filter fun d => d.1.1 != n } }

/-- The lines that lie in the words from `a` to before `b` are nobody's any more. -/
def State.dropLines (s : State) (a b : Nat) : State :=
  { s with vault := { s.vault with
      data := s.vault.data.filter fun p => !(decide (a ≤ p.1) && decide (p.1 < b))
      counters := s.vault.counters.filter fun p => !(decide (a ≤ 4 * p.1) && decide (4 * p.1 < b))
      badLines := s.vault.badLines.filter fun l => !(decide (a ≤ 4 * l) && decide (4 * l < b)) } }

/-- The engine has written the words from `a` to before `b`. -/
def State.ownWords (s : State) (a b : Nat) : State :=
  { s with vault := { s.vault with foreign := s.vault.foreign.filter fun w => !(decide (a ≤ w) && decide (w < b)) } }

/-- A region leaves its place, if it has one: what its lines hold there stays, under the keys that it had. -/
def State.leavePlace (s : State) (n : Nat) : State :=
  (s.lineWords n (Sparse.get (fun _ => 0) s.vault.draws n)).foldl (fun s x =>
    let s := s.dropLines x.1 x.2.1
    { s with vault := { s.vault with boundAt := Sparse.write s.vault.boundAt n 0, stale := x :: s.vault.stale } }) s

/-! ### Reads -/

/-- The 16-byte words of host memory that the device reads at `h`: decrypted in a vault region. -/
def State.hostWords (s : State) (h len : Nat) (vault : Option Nat) : List Quad :=
  (List.range (len / 16)).map fun i => match vault with
    | some n => s.vaultWord n (h / 16 + i)
    | none => s.hostRaw (h / 16 + i)

/-- A device read of host memory: the answer, the data, and the vault lines whose verdicts are then outstanding (R303). -/
def State.hostRead (s : State) (tw h len : Nat) : Resp × List Quad × List Nat :=
  match s.devRefusal tw h len false with
  | some r => (r, [], [])
  | none =>
    match s.vaultOf h len false with
    | some n => (.ok, s.hostWords h len (some n), linesOf h len)
    | none => (.ok, s.hostWords h len none, [])

/-! ### Writes (R302, R304) -/

/-- Words stored one after another from word number `k`. -/
def writeWords (m : Sparse Quad) (k : Nat) : List Quad → Sparse Quad
  | [] => m
  | q :: qs => writeWords (Sparse.write m k q) (k + 1) qs

/-- A line that is about to be rewritten: foreign words that its tag has covered count as its plaintext, and are the engine's again. -/
def State.adoptLine (s : State) (n line : Nat) : State :=
  if s.untouched (wordsOfLine line) then s
  else { s with vault := { s.vault with
    data := writeWords s.vault.data (4 * line) ((wordsOfLine line).map (s.vaultWord n))
    foreign := s.vault.foreign.filter fun w => w / 4 != line } }

/-- The new tag of a line reaches a tag word that something else has written: the word's other half stays as it is. -/
def State.putTag (s : State) (n i : Nat) : State :=
  let w := s.tagAddr n i / 16
  if s.vault.foreign.contains w then
    let q := Sparse.read s.hostmem w
    let t := s.writtenTag n i
    { s with hostmem := Sparse.write s.hostmem w (if i % 2 = 0 then quadOf t (wordAt q 1) else quadOf (wordAt q 0) t) }
  else s

/-- A fresh counter for a line of region `n`, whose node is dirty then. -/
def State.bumpLine (s : State) (n line : Nat) : State :=
  let c := s.lineCounter n line + 1
  let i := s.lineOf n (line * 64)
  let s := ((s.adoptLine n line).cachePath n i).dirtyNode n 1 (i / 8)
  let s : State := { s with vault := { s.vault with
    counters := Sparse.write s.vault.counters line (BitVec.ofNat 64 c)
    badLines := listDrop s.vault.badLines line } }
  s.raiseMark n c

/-- A line is covered in part only by `len` bytes at `h`. -/
def partLine (h len line : Nat) : Bool := line * 64 < h || h + len < line * 64 + 64

/-- What keeps a write from a line: a node over it that fails, or a counter that would pass 2^56 − 1. Either seals the node. -/
def State.lineStop (s : State) (n line : Nat) : Option (Nat × Nat) :=
  let i := s.lineOf n (line * 64)
  (s.badPath n i).orElse fun _ => if 2 ^ 56 ≤ s.lineCounter n line + 1 then some (1, i / 8) else none

/-- A partial write reads the line first: its tag has failed. -/
def State.partFails (s : State) (n h len line : Nat) : Bool :=
  partLine h len line && (s.vault.badLines.contains line || !s.lineTagOk n (s.lineOf n (line * 64)) line)

/-- The engine writes words of region `n`, whose lines take fresh counters and tags. -/
def State.vaultStore (s : State) (n h : Nat) (qs : List Quad) : State :=
  let lines := linesOf h (16 * qs.length)
  let s := lines.foldl (fun s l => s.bumpLine n l) s
  let s : State := { s with vault := { s.vault with data := writeWords s.vault.data (h / 16) qs } }
  lines.foldl (fun s l => s.putTag n (s.lineOf n (l * 64))) s

/-- A device write of host memory (R234, R304): the answer and the new state. -/
def State.hostWrite (s : State) (tw h : Nat) (qs : List Quad) : Resp × State :=
  let len := 16 * qs.length
  match s.devRefusal tw h len true with
  | some r => (r, s)
  | none =>
    match s.vaultOf h len true with
    | none => (.ok, s.hostPuts (h / 16) qs)
    | some n =>
      let lines := linesOf h len
      let stops := lines.filterMap fun l => (s.lineStop n l).map fun x => (n, x)
      if !stops.isEmpty then (.regionSealed, { s with vault := { s.vault with sealDue := s.vault.sealDue ++ stops } })
      else if lines.any (s.partFails n h len) then
        (.tagFailed, { s with vault := { s.vault with alarmDue := s.vault.alarmDue ++ [3] } })
      else (.ok, s.vaultStore n h qs)

end Sys2Proof.Machine
end

