-- ==== Sys2Proof/Machine/Signals.lean ====
section
/-! DEFINITION. The event unit's ring and the counter units. -/

namespace Sys2Proof.Machine

/-! ### Counter units (R149 to R151) -/

/-- The registers of counter unit `u`: whether they lie in a tower, and the indices of the unit. -/
def unitIx (u : Nat) : Bool × List Nat :=
  if u < 4 then (true, [u, 0])
  else if u < 20 then (true, [(u - 4) / 4, (u - 4) % 4 + 1])
  else if u < 24 then (true, [u - 20, 5])
  else (false, [u - 24])

def cntReg (u : Nat) : RegName := if (unitIx u).1 then .CNT_T else .CNT_P
def shadowReg (u : Nat) : RegName := if (unitIx u).1 then .SHADOW_T else .SHADOW_P

/-- The counter unit that a copy of a counter register belongs to. -/
def unitOf (tower : Bool) (ix : List Nat) : Nat :=
  match tower, ix with
  | true, t :: j :: _ => if j = 0 then t else if j = 5 then 20 + t else 4 + 4 * t + (j - 1)
  | false, k :: _ => 24 + k
  | _, _ => 0

/-- The domain that holds counter unit `u`. -/
def unitDomain (u : Nat) : Nat :=
  if u < 4 then pdTrace u else if u < 20 then pdTrace ((u - 4) / 4) else if u < 24 then pdTrace (u - 20) else 1

/-- The tower whose gate 6 clocks counter unit `u`. -/
def unitTower (u : Nat) : Option Nat :=
  if u < 4 then some u else if u < 20 then some ((u - 4) / 4) else if u < 24 then some (u - 20) else none

structure UnitFields where
  en : Fld
  cycEn : Fld
  lapOnly : Fld
  trapEn : Fld
  ovfEv : Fld
  event : Fld
  cnt : Fld
  ovf : Fld
  target : Fld
  bitNo : Fld

def unitFields (tower : Bool) : UnitFields :=
  if tower then
    ⟨F.UNIT_CTRL_T.EN, F.UNIT_CTRL_T.CYC_EN, F.UNIT_CTRL_T.LAPONLY, F.UNIT_CTRL_T.TRAP_EN, F.UNIT_CTRL_T.OVF_EV_EN, F.EVSEL_T.EVENT,
      F.CNT_T.VALUE, F.OVF_STAT_T.OVF, F.OVF_TARGET_T.TARGET, F.OVF_TARGET_T.BIT⟩
  else
    ⟨F.UNIT_CTRL_P.EN, F.UNIT_CTRL_P.CYC_EN, F.UNIT_CTRL_P.LAPONLY, F.UNIT_CTRL_P.TRAP_EN, F.UNIT_CTRL_P.OVF_EV_EN, F.EVSEL_P.EVENT,
      F.CNT_P.VALUE, F.OVF_STAT_P.OVF, F.OVF_TARGET_P.TARGET, F.OVF_TARGET_P.BIT⟩

/-- The range of event numbers of a unit (*Counter events*). -/
def unitRange (u ev : Nat) : Bool :=
  ev / 0x100 == (if u < 4 then 0 else if u < 20 then 1 else if u < 24 then 2 else 3)

/-- Counter events that no command carries: those named in cycles or eighths, flits, and fetched nodes. -/
def unseenEvent (ev : Nat) : Bool :=
  (3 ≤ ev && ev ≤ 9) || (0x101 ≤ ev && ev ≤ 0x104) || (0x108 ≤ ev && ev ≤ 0x109) || (0x200 ≤ ev && ev ≤ 0x20C) || ev == 0x306 ||
    ev == 0x308

/-- Counter `n` of unit `u` counts what no command carries: the cycles of its clock (counter 0), or such an event. -/
def State.countsUnseen (s : State) (u n : Nat) : Bool :=
  let uf := unitFields (unitIx u).1
  let ix := (unitIx u).2
  match n with
  | 0 => s.flag uf.cycEn ix
  | i + 1 =>
    let ev := s.fld uf.event (ix ++ [i])
    (s.fld uf.en ix).testBit i && unitRange u ev && unseenEvent ev

/-- Counters, by number less 1, that count what no command carries and have wrapped unseen since OVF_STAT was read last: any may
(R149; notes/assumptions 3). -/
def State.wrapped (s : State) (u : Nat) : List Nat :=
  (List.range 8).filter fun i => s.countsUnseen u (i + 1) && Config.freeWrap u i s.free

/-- What counter `n` of unit `u` reads: a free value where it counts what no command carries (R149, R153; notes/assumptions 3). -/
def State.counter (s : State) (u n : Nat) : W64 :=
  if s.countsUnseen u n then Config.freeCount u n s.free else s.reg (cntReg u) ((unitIx u).2 ++ [n])

/-- Every counter of the unit keeps what it reads now, before its controls change. -/
def State.latchCounts (s : State) (u : Nat) : State :=
  if (List.range 9).any fun n => s.countsUnseen u n then
    ((List.range 9).foldl (fun s n => s.setReg (cntReg u) ((unitIx u).2 ++ [n]) (s.counter u n)) s).spend
  else s

/-- The counters of unit `u` that count event `ev` now. -/
def State.countersOf (s : State) (u ev : Nat) : List Nat :=
  let uf := unitFields (unitIx u).1
  let ix := (unitIx u).2
  let en := s.fld uf.en ix
  let shut := match unitTower u with | some t => s.gateShut t 6 | none => false
  let on := (s.pd (unitDomain u) == 1 || s.pd (unitDomain u) == 2) && !shut
  if en = 0 ∨ !on ∨ !unitRange u ev ∨ (s.flag uf.lapOnly ix ∧ !s.lapsRun) then []
  else (List.range 8).filter fun i => en.testBit i && s.fld uf.event (ix ++ [i]) == ev

/-- Add `k` to counter `i + 1` of unit `u`; a wrap sets its OVF bit and, where the unit's engine is enabled to trap on it,
holds the trap (R149, R151). -/
def State.addCounter (s : State) (u i k : Nat) : State × Bool :=
  let uf := unitFields (unitIx u).1
  let ix := (unitIx u).2
  let v := s.fld uf.cnt (ix ++ [i + 1]) + k
  let s := s.put uf.cnt (v % 2 ^ 64) (ix ++ [i + 1])
  if v < 2 ^ 64 then (s, false)
  else
    let s := s.orBits uf.ovf (2 ^ i) ix
    if h : 4 ≤ u ∧ u < 20 then
      if (s.fld uf.trapEn ix).testBit i then
        (s.onEng ⟨u - 4, by omega⟩ fun en => { en with ovfHeld := en.ovfHeld ||| BitVec.ofNat 8 (2 ^ i) }, true)
      else (s, true)
    else (s, true)

/-! ### The event unit (R236) -/

/-- The words of an event record. -/
def eventRecord (type source : Byte) (index : BitVec 16) (data lap : W64) : List Quad :=
  [quadOf (BitVec.ofNat 64 (type.toNat + source.toNat * 256 + index.toNat * 65536)) data, quadOf lap 0, 0, 0]

/-- A notify with the new PI, or a note that one is owed when the holdoff ends. -/
def State.notify (s : State) : State :=
  if s.holdoff then { s with notifyDue := true }
  else
    let m : Module := Fin.ofNat 4 (s.fld F.HC_EVCTRL.NOTIFY)
    { s with
      hostOut := s.hostOut ++ [.notify m (BitVec.ofNat 32 (s.fld F.HC_EVRING_IDX.PI))]
      holdoff := s.flag F.HC_EVCTRL.HOLDOFF }

/-- A record dropped: LOST increases and OVERFLOW is set. -/
def State.dropEvent (s : State) : State := (s.count F.HC_EVSTAT.LOST).put F.HC_EVSTAT.OVERFLOW 1

/-- SIGDATA of an overflow (R150). -/
def ovfData (lap : W64) (u i : Nat) : W64 := (lap <<< 16) ||| BitVec.ofNat 64 (u * 256 + (i + 1))

/-- The overflow event of counter `i + 1` of unit `u`, if it is enabled; `send` takes a message to the host (R150). -/
def State.overflowVia (send : Byte → Byte → BitVec 16 → W64 → State → State) (s : State) (u i : Nat) : State :=
  let uf := unitFields (unitIx u).1
  let ix := (unitIx u).2
  let target := s.fld uf.target ix
  if !(s.fld uf.ovfEv ix).testBit i then s
  else if h : target < 16 then s.signalEngine ⟨target, h⟩ (Fin.ofNat 64 (s.fld uf.bitNo ix)) (ovfData s.lapCount u i)
  else if target = 16 then send 6 18 (BitVec.ofNat 16 (u * 256 + (i + 1))) (ovfData s.lapCount u i) s
  else s

/-- `k` occurrences of counter event `ev` in unit `u`. -/
def State.tallyVia (send : Byte → Byte → BitVec 16 → W64 → State → State) (s : State) (u ev k : Nat) : State :=
  (s.countersOf u ev).foldl (fun s i =>
    match s.addCounter u i k with
    | (s, true) => s.overflowVia send u i
    | (s, false) => s) s

/-- A message for the host is put into the event ring, whose address lies in host memory (R236). The event unit's own traffic counts,
and a counter that it makes wrap sends its overflow event in turn: each of a unit's eight counters at most once, so that `n` of 9 is
enough. -/
def State.sendEvent : Nat → Byte → Byte → BitVec 16 → W64 → State → State
  | 0, _, _, _, _, s => s
  | n + 1, type, source, index, data, s =>
    let s := s.tallyVia (State.sendEvent n) 24 0x307 1
    let pi := s.fld F.HC_EVRING_IDX.PI
    let order := s.fld F.HC_EVRING.ORDER
    if !s.flag F.HC_EVCTRL.EN then s.dropEvent
    else if (pi + 2 ^ 32 - s.fld F.HC_EVRING_IDX.CI) % 2 ^ 32 = 2 ^ order then s.dropEvent
    else
      let a := s.fld F.HC_EVRING.BASE * 4096 + pi % 2 ^ order * 64
      let w := if a < 0x800000000000 then (Resp.decodeError, s)
        else s.hostWrite 0 (a - 0x800000000000) (eventRecord type source index data s.lapCount)
      match w with
      | (.ok, s) =>
        let lines := (s.vaultOf (a - 0x800000000000) 64 true).isSome
        let s := ((s.put F.HC_EVRING_IDX.PI ((pi + 1) % 2 ^ 32)).notify).tallyVia (State.sendEvent n) 24 0x303 1
        if lines then s.tallyVia (State.sendEvent n) 24 0x304 1 else s
      | (_, s) => ((s.put F.HC_EVSTAT.FAULT 1).put F.HC_EVCTRL.EN 0).dropEvent

/-- An event message reaches the event unit (R236). -/
def State.hostEvent (s : State) (type source : Byte) (index : BitVec 16) (data : W64) : State :=
  State.sendEvent 9 type source index data s

/-- The overflow event of counter `i + 1` of unit `u`. -/
def State.overflowEvent (s : State) (u i : Nat) : State := s.overflowVia (State.sendEvent 9) u i

/-- Events 0x07 BLOCK: the raising block's base address is DATA. -/
def State.blockEvent (s : State) (index : Nat) (base : Nat) : State :=
  s.hostEvent 7 19 (BitVec.ofNat 16 index) (BitVec.ofNat 64 base)

/-- `k` occurrences of counter event `ev` in unit `u`. -/
def State.tally (s : State) (u ev : Nat) (k : Nat := 1) : State :=
  if k = 0 then s else s.tallyVia (State.sendEvent 9) u ev k

/-- An event of every tower's lap unit. -/
def State.tallyLap (s : State) (ev : Nat) (k : Nat := 1) : State :=
  (List.range 4).foldl (fun s t => s.tally t ev k) s

/-- The engine's counter unit. -/
def unitOfEngine (e : Eng) : Nat := 4 + e.val

/-- The host-channel counter unit of UCIe module `m`. -/
def unitOfModule (m : Nat) : Nat := 24 + m / 2

/-! ### Device requests, counted (R302 of *Counter events*) -/

def State.devRead (s : State) (tw h len : Nat) : Resp × List Quad × List Nat × State :=
  match s.hostRead tw h len with
  | (.ok, qs, ls) =>
    let s : State := { s with vault := { s.vault with pendingLines := ls.foldl listAdd s.vault.pendingLines } }
    (.ok, qs, ls, (s.tally (unitOfModule tw) 0x302 ((len + 63) / 64)).tally (unitOfModule tw) 0x304 ls.length)
  | (r, qs, ls) => (r, qs, ls, s)

/-- A read of a span of host memory, as device requests that do not cross a 256-byte boundary, each checked on its own (R231, R234); it
ends at the first that fails. -/
def State.devSpan (s : State) (tw h len : Nat) : Nat → Resp × List Quad × List Nat × State
  | 0 => (.ok, [], [], s)
  | fuel + 1 =>
    if len = 0 then (.ok, [], [], s)
    else
      let n := min len (256 - h % 256)
      match s.devRead tw h n with
      | (.ok, qs, ls, s) =>
        match s.devSpan tw (h + n) (len - n) fuel with
        | (r, qs', ls', s) => (r, qs ++ qs', ls'.foldl listAdd ls, s)
      | p => p

def State.devWrite (s : State) (tw h : Nat) (qs : List Quad) : Resp × State :=
  match s.hostWrite tw h qs with
  | (.ok, s) => (.ok, s.tally (unitOfModule tw) 0x303 ((qs.length + 3) / 4))
  | p => p

end Sys2Proof.Machine
end

