-- ==== Sys2Proof/Machine/ErrorLog.lean ====
section
/-! DEFINITION. The error log of a tower's memory layer, and the scratchpads whose errors it holds (R71, R170 to R172, R177 to
R179). -/

namespace Sys2Proof.Machine

/-! ### The error log (R170 to R172) -/

/-- Sources and readers of an error log entry. -/
inductive EccSource where
  | bank | standin (g : Nat) | commitBuffer | instrSpad (k : Nat) | dataSpad (k : Nat)
  deriving DecidableEq, Repr

def EccSource.code : EccSource → Nat
  | .bank => 0 | .standin _ => 1 | .commitBuffer => 2 | .instrSpad _ => 3 | .dataSpad _ => 4
def EccSource.unit : EccSource → Nat
  | .bank => 0 | .standin g => g | .commitBuffer => 0 | .instrSpad k => k | .dataSpad k => k

def readerPortA : Nat := 0
def readerPortB : Nat := 1
def readerCopier : Nat := 2
def readerEngine : Nat := 3
def readerDma : Nat := 4

/-- *ECC_INFOi*. -/
def eccInfo (lap : W64) (uncorr : Bool) (src : EccSource) (reader syndrome : Nat) : W64 :=
  BitVec.ofNat 64 (lap.toNat % 2 ^ 32 * 2 ^ 32 + b2n uncorr * 2 ^ 31 + src.code * 2 ^ 20 + src.unit * 65536 + reader * 4096 +
    syndrome)

/-- Entry `i` moved down by one place, for `i` from 0 to 30. -/
def State.eccShift (s : State) (t : Nat) : State :=
  (List.range 31).foldl (fun s i =>
    (s.setReg .ECC_ADDR [t, i] (s.reg .ECC_ADDR [t, i + 1])).setReg .ECC_INFO [t, i] (s.reg .ECC_INFO [t, i + 1])) s

def State.eccPut (s : State) (t i addr : Nat) (info : W64) : State :=
  (s.setReg .ECC_ADDR [t, i] (BitVec.ofNat 64 addr)).setReg .ECC_INFO [t, i] info

/-- An entry with the same address, source and syndrome is held. -/
def State.eccHeld (s : State) (t addr : Nat) (src : EccSource) (syndrome : Nat) : Bool :=
  (List.range (s.fld F.ECC_STAT.COUNT [t])).any fun i =>
    s.fld F.ECC_ADDR.ADDR [t, i] == addr && s.fld F.ECC_INFO.SOURCE [t, i] == src.code &&
      s.fld F.ECC_INFO.SYNDROME [t, i] == syndrome

/-- FROZEN follows the log and WRAP. -/
def State.eccFrozen (s : State) (t : Nat) : State :=
  s.put F.ECC_STAT.FROZEN (b2n (s.fld F.ECC_STAT.COUNT [t] == 32 && !s.flag F.ECC_CTRL.WRAP [t])) [t]

/-- The key of a stored word in the record of syndromes: tower, source, unit and address. -/
def EccSource.key (src : EccSource) (t addr : Nat) : Nat := ((t * 8 + src.code) * 16 + src.unit) * 2 ^ 48 + addr

/-- The syndrome of a word as it is stored: a free value, drawn when an error of the word is first found (notes/assumptions 20). -/
def State.syndromeAt (s : State) (key : Nat) : Nat :=
  bitsOf (Config.freeMeasure (Sparse.get (fun _ => 0) s.syndromes key - 1)) 8 0
def State.drawSyndrome (s : State) (key : Nat) : State :=
  if Sparse.get (fun _ => 0) s.syndromes key = 0 then
    { s.spend with syndromes := Sparse.set (fun _ => 0) s.syndromes key (s.free + 1) }
  else s
/-- The word has been written: its next error is another one. -/
def State.dropSyndrome (s : State) (key : Nat) : State := { s with syndromes := Sparse.drop s.syndromes key }

/-- An entry is added to the log of tower `t`, unless it is there already (R171). -/
def State.eccAdd (s : State) (t addr : Nat) (src : EccSource) (syn : Nat) (info : W64) : State :=
  let n := s.fld F.ECC_STAT.COUNT [t]
  if s.eccHeld t addr src syn then s
  else if n < 32 then ((s.eccPut t n addr info).put F.ECC_STAT.COUNT (n + 1) [t]).eccFrozen t
  else if s.flag F.ECC_CTRL.WRAP [t] then ((s.eccShift t).eccPut t 31 addr info).put F.ECC_STAT.OVERRUN 1 [t]
  else s.put F.ECC_STAT.OVERRUN 1 [t]

/-- An error enters the log of tower `t` (R171). -/
def State.eccEnter (s : State) (t addr : Nat) (uncorr : Bool) (src : EccSource) (reader : Nat) : State :=
  let s := s.drawSyndrome (src.key t addr)
  let syn := s.syndromeAt (src.key t addr)
  s.eccAdd t addr src syn (eccInfo s.lapCount uncorr src reader syn)

/-- An error is counted and logged. -/
def State.eccError (s : State) (t addr : Nat) (uncorr : Bool) (src : EccSource) (reader : Nat) : State :=
  let s := if uncorr then s.count F.ECC_STAT.UNCORRECTABLE [t] else s.count F.ECC_STAT.CORRECTED [t]
  s.eccEnter t addr uncorr src reader

/-- The same for a design bank or its stand-in, with the bank's own counts. -/
def State.bankError (s : State) (t bank addr : Nat) (uncorr : Bool) (src : EccSource) (reader : Nat) : State :=
  let s := if uncorr then s.put F.BANK_STAT.UNCORR_SEEN 1 [t, bank] else s.count F.BANK_STAT.CORRECTED [t, bank]
  s.eccError t addr uncorr src reader

/-! ### Scratchpads (R71, R177 to R179) -/

def spadWord (instr : Bool) (en : Engine) (w : Nat) : Quad := Sparse.read (if instr then en.imem else en.dmem) w
def spadBad (instr : Bool) (en : Engine) (w : Nat) : Bool := (if instr then en.imemBad else en.dmemBad).contains w
def spadSoft (instr : Bool) (en : Engine) (w : Nat) : Bool := (if instr then en.imemSoft else en.dmemSoft).contains w

/-- A scratchpad of engine `e` as a source of the error log. -/
def spadSource (e : Eng) (instr : Bool) : EccSource := if instr then .instrSpad (e.val % 4) else .dataSpad (e.val % 4)

/-- The word holds no single-bit error any more. -/
def Engine.spadClean (en : Engine) (instr : Bool) (w : Nat) : Engine :=
  if instr then { en with imemSoft := listDrop en.imemSoft w } else { en with dmemSoft := listDrop en.dmemSoft w }

/-- A whole-word write replaces an uncorrectable word. -/
def Engine.spadStore (en : Engine) (instr : Bool) (w : Nat) (q : Quad) : Engine :=
  if instr then { en.spadClean true w with imem := Sparse.write en.imem w q, imemBad := listDrop en.imemBad w }
  else { en.spadClean false w with dmem := Sparse.write en.dmem w q, dmemBad := listDrop en.dmemBad w }

/-- A scratchpad word is written: the error that its syndrome showed is gone. -/
def State.spadWrite (s : State) (e : Eng) (instr : Bool) (w : Nat) (q : Quad) : State :=
  (s.onEng e fun en => en.spadStore instr w q).dropSyndrome ((spadSource e instr).key (e.val / 4) (16 * w))

/-- An error of a scratchpad word was found: counted and logged at the byte offset of the word. -/
def State.spadError (s : State) (e : Eng) (instr : Bool) (w : Nat) (uncorr : Bool) (reader : Nat) : State :=
  s.eccError (e.val / 4) (16 * w) uncorr (spadSource e instr) reader

/-- A single-bit error found in a scratchpad word is counted as SPAD_CORRECTED and logged, and the word is written back
(notes/assumptions 77). -/
def State.spadCorrect (s : State) (e : Eng) (instr : Bool) (w reader : Nat) : State :=
  if spadSoft instr (s.eng e) w then
    (((s.spadError e instr w false reader).tally (unitOfEngine e) 0x10A).onEng e fun en => en.spadClean instr w).dropSyndrome
      ((spadSource e instr).key (e.val / 4) (16 * w))
  else s

/-- A checked read of a scratchpad word (R179): none where it is uncorrectable. -/
def State.spadRead (s : State) (e : Eng) (instr : Bool) (w reader : Nat) : Option Quad × State :=
  if spadBad instr (s.eng e) w then (none, s.spadError e instr w true reader)
  else (some (spadWord instr (s.eng e) w), s.spadCorrect e instr w reader)

/-- Checked reads of `n` words from word `w`; none, with the first such word, where one is uncorrectable. -/
def State.spadReads (s : State) (e : Eng) (instr : Bool) (reader : Nat) : Nat → Nat → Except Nat (List Quad) × State
  | _, 0 => (.ok [], s)
  | w, n + 1 =>
    match s.spadRead e instr w reader with
    | (none, s) => (.error w, s)
    | (some q, s) =>
      match s.spadReads e instr reader (w + 1) n with
      | (.ok qs, s) => (.ok (q :: qs), s)
      | p => p

end Sys2Proof.Machine
end

