-- ==== Sys2Proof/Machine/LaneCode.lean ====
section
/-! DEFINITION. What goes onto the relay lanes: scrambling, the layouts of lane blocks and Ryulelo frames, their check bytes, and
striping over the lane map (R241 to R244, R258, R264, R269, R292). -/

namespace Sys2Proof.Machine

/-! ### Ports and lanes -/

def portIx (p : Nat) : List Nat := [p / 4, p % 4]
def State.onPort (s : State) (p : Nat) (f : PortH → PortH) : State := { s with ports := modifyAt s.ports p f }
def State.portH (s : State) (p : Nat) : PortH := s.ports.toList.getD p {}
def PortH.lane (h : PortH) (i : Nat) : LaneH := h.lanes.toList.getD i {}
def State.onLane (s : State) (p i : Nat) (f : LaneH → LaneH) : State := s.onPort p fun h => { h with lanes := modifyAt h.lanes i f }
def State.portState (s : State) (p : Nat) : Nat := s.fld F.PORT_STAT.STATE (portIx p)
/-- The port is UP; IDLE is UP with the transmitter at rest (R254). -/
def State.portUp (s : State) (p : Nat) : Bool := s.portState p == 2 || s.portState p == 3

def laneIx (p i : Nat) : List Nat := portIx p ++ [i]
def State.laneState (s : State) (p i : Nat) : Nat := s.fld F.LANE_STAT.STATE (laneIx p i)
def lanes8 : List Nat := List.range 8
def maskOf (ls : List Nat) : Nat := natOfBits (lanes8.map fun i => ls.contains i)
def lanesIn (m : Nat) : List Nat := lanes8.filter fun i => m.testBit i

/-- The lanes of a map of eight entries of 4 bits, 0xF standing for none (R241, MAP). -/
def mapLanes (m : Nat) : List Nat := (lanes8.map fun k => m / 16 ^ k % 16).filter fun n => decide (n < 8)
def mapWord (ls : List Nat) : Nat := (lanes8.map fun k => ls.getD k 15).foldr (fun n w => n + 16 * w) 0

def State.rxMap (s : State) (p : Nat) : List Nat := mapLanes (s.fld F.PORT_MAP.RX (portIx p))
def State.txMap (s : State) (p : Nat) : List Nat := mapLanes (s.fld F.PORT_MAP.TX (portIx p))

/-! ### Scrambling (R242) -/

/-- The payload bits of a block scrambled with x^58 + x^39 + 1, bit 0 first, `st` holding the 58 bits sent before: each bit is the
input with the bits sent 39 and 58 before it. The first 39 depend on `st` alone, the other 25 on those too. -/
def scrambled (st : BitVec 58) (w : W64) : W64 :=
  let lo := (w ^^^ st.setWidth 64 ^^^ (st >>> 19).setWidth 64) &&& 0x7FFFFFFFFF
  let line : BitVec 122 := st.setWidth 122 ||| (lo.setWidth 122 <<< 58)
  let hi := ((w >>> 39) ^^^ (line >>> 39).setWidth 64 ^^^ (line >>> 58).setWidth 64) &&& 0x1FFFFFF
  lo ||| (hi <<< 39)

/-- The same polynomial backwards: each bit received with those received 39 and 58 before it. -/
def descrambled (st : BitVec 58) (r : W64) : W64 :=
  let line : BitVec 122 := st.setWidth 122 ||| (r.setWidth 122 <<< 58)
  r ^^^ line.setWidth 64 ^^^ (line >>> 19).setWidth 64

/-- After a block the last 58 bits are all of that block's: a receiver needs no seed. -/
def lastBits (sent : W64) : BitVec 58 := (sent >>> 6).setWidth 58

/-! ### PRBS patterns (R258; notes/assumptions 91) -/

/-- The length and second tap of PRBS7, PRBS15 and PRBS31. -/
def prbsTaps (k : Nat) : Nat × Nat := match k with | 1 => (7, 6) | 2 => (15, 14) | _ => (31, 28)

/-- `n` bits of a pattern from the last bits `st`, the latest at bit 0; bit 0 of the result first. -/
def prbsBits (k : Nat) : Nat → Nat → List Bool
  | 0, _ => []
  | n + 1, st =>
    let b := st.testBit ((prbsTaps k).1 - 1) != st.testBit ((prbsTaps k).2 - 1)
    b :: prbsBits k n ((2 * st + b2n b) % 2 ^ (prbsTaps k).1)

/-- The first 64 bits of a generator that starts with ones. -/
def prbsWord (k : Nat) : W64 := BitVec.ofNat 64 (natOfBits (prbsBits k 64 (2 ^ (prbsTaps k).1 - 1)))

/-! ### Check bytes (R264; notes/assumptions 92) -/

def crc32Step (crc : BitVec 32) : Nat → BitVec 32
  | 0 => crc
  | n + 1 => crc32Step (if crc.getLsbD 0 then (crc >>> 1) ^^^ 0xEDB88320 else crc >>> 1) n

/-- CRC-32 with polynomial 0x04C1_1DB7, low bit first. -/
def crc32 (bs : List Byte) : BitVec 32 := ~~~(bs.foldl (fun crc b => crc32Step (crc ^^^ b.setWidth 32) 8) 0xFFFFFFFF)

def crc8Step (crc : Byte) : Nat → Byte
  | 0 => crc
  | n + 1 => crc8Step (if crc.getLsbD 7 then (crc <<< 1) ^^^ 0x07 else crc <<< 1) n

/-- CRC-8 with polynomial 0x07. -/
def crc8 (bs : List Byte) : Byte := bs.foldl (fun crc b => crc8Step (crc ^^^ b) 8) 0

/-! ### Frames (*Frame header*, *Frame kinds*, *Baton payload*; R269) -/

def batonBytes (kind : Byte) (b : Baton) : List Byte :=
  let flags := b2n b.scratch + 2 * b2n b.retry + 4 * b2n b.halt + 8 * b2n b.withdrawn + 16 * b2n b.stop + 32 * b2n b.mismatch
  [kind, BitVec.ofNat 8 flags, b.scause, b.hcause] ++ bytesOf 2 b.origin.toNat ++ bytesOf 2 b.attempt.toNat ++
    bytesOf 8 b.lap.toNat ++ bytesOf 1 b.pos.toNat ++ List.replicate 15 0

def tokenBytes (g : TokenGroup) : List Byte :=
  bytesOf 2 g.dgroup.toNat ++ bytesOf 2 g.attempt.toNat ++ bytesOf 4 g.lap.toNat ++ bytesOf 2 g.bits.toNat ++ List.replicate 6 0 ++
    bytesOf 64 g.data.toNat

end Sys2Proof.Machine

namespace Sys2Proof

/-- KIND. -/
def FrameBody.kind : FrameBody → Nat
  | .token _ => 1
  | .baton _ _ => 2
  | .flowItem _ _ _ => 3
  | .flowCredit _ _ _ => 4
  | .hello _ => 5
  | .boot _ _ => 6

/-- The class of a frame. -/
def FrameBody.class : FrameBody → Fin 3
  | .token _ => 0
  | .baton _ _ => 1
  | _ => 2

/-- The payload, LEN words of 16 bytes. -/
def FrameBody.payload : FrameBody → List Byte
  | .token g => Machine.tokenBytes g
  | .baton k b => Machine.batonBytes k b
  | .flowItem n pos x => Machine.bytesOf 16 (Config.flowItemHead n pos).toNat ++ Machine.bytesOf 64 x.toNat
  | .flowCredit n c hi => Machine.bytesOf 16 (Config.flowCreditWord n c hi).toNat
  | .hello h => Machine.bytesOf 32 (Config.helloWords h.id h.mode h.anchorId h.port h.role).toNat
  | .boot data _ => data ++ List.replicate ((16 - data.length % 16) % 16) 0

end Sys2Proof

namespace Sys2Proof.Machine

/-- The 16 header bytes. -/
def headerBytes (nonce : W64) (kind src dst : Nat) : List Byte :=
  bytesOf 16 (dst + src * 2 ^ 16 + kind * 2 ^ 32 + nonce.toNat * 2 ^ 64)

/-- Header, encrypted payload and tag of a frame under a key (R292). -/
def sealFrame (k : LinkKey) (nonce : W64) (src dst : BitVec 12) (body : FrameBody) : List Byte :=
  let h := headerBytes nonce body.kind src.toNat dst.toNat
  h ++ sealBytes k nonce h body.payload

/-- START bytes 1 to 7. -/
def startBytes (f : TxFrame) : List Byte :=
  BitVec.ofNat 8 f.body.kind :: bytesOf 3 f.seq.toNat ++ bytesOf 1 (f.body.payload.length / 16) ++ [0, 0]

/-! ### Lane blocks -/

/-- Eight bytes as a payload, byte 0 first. -/
def wordOfBytes (bs : List Byte) : W64 := BitVec.ofNat 64 (joinBytes (bs.take 8))

/-- A lane control block: its type, the bytes that the type gives, and what fills the rest. -/
def ctlWord (ty : Nat) (bs : List Byte) : W64 :=
  wordOfBytes (BitVec.ofNat 8 ty :: bs ++ (bytesOf 8 (Config.blockPad ty).toNat).drop (bs.length + 1))

/-- The units of a frame with their headers: START, the body, END with the CRC (R264). -/
def frameUnits (f : TxFrame) : List (BitVec 2 × W64) :=
  let crc := crc32 (startBytes f ++ f.sealed_)
  (2, wordOfBytes (0x80 :: startBytes f)) ::
    (List.range (f.sealed_.length / 8)).map (fun i => (1, wordOfBytes (f.sealed_.drop (8 * i)))) ++
    [(2, wordOfBytes (0x81 :: bytesOf 3 f.seq.toNat ++ bytesOf 4 crc.toNat))]

/-- An ACK or NAK. -/
def ackUnit (ty : Byte) (next : BitVec 24) (credits : List Nat) : BitVec 2 × W64 :=
  let bs := bytesOf 3 next.toNat ++ (List.range 3).map fun c => BitVec.ofNat 8 (credits.getD c 0)
  (2, wordOfBytes (ty :: bs ++ [crc8 bs]))

/-- A block goes out on a lane through its scrambler. -/
def State.drive (s : State) (p i : Nat) (u : BitVec 2 × W64) : State :=
  let x := scrambled ((s.portH p).lane i).scr u.2
  let s := s.onLane p i fun l => { l with scr := lastBits x }
  { s with wire := s.wire ++ [{ port := p, lane := i, hdr := u.1, bits := x }] }

/-- The next unit of the byte stream goes on map position n mod W; a FAILED lane's transmitter is off (R243, R246). -/
def State.stripe (s : State) (p : Nat) (u : BitVec 2 × W64) : State :=
  let m := s.txMap p
  let n := (s.portH p).unitNo
  let s := s.onPort p fun h => { h with unitNo := n + 1 }
  match m[n % m.length]? with
  | some i => if s.laneState p i = 7 then s else s.drive p i u
  | none => s

/-- The lanes that carry control blocks other than Ryulelo's: those of the map, and those outside it that are not FAILED or in near-end
loopback (R243). -/
def State.controlLanes (s : State) (p : Nat) : List Nat :=
  lanes8.filter fun i => s.laneState p i != 7 && s.laneState p i != 5

def State.everyLane (s : State) (p : Nat) (w : Nat → W64) : State :=
  (s.controlLanes p).foldl (fun s i => s.drive p i (2, w i)) s

/-- The place of a lane in the transmit map, 15 for none. -/
def State.placeOf (s : State) (p i : Nat) : Nat := (((s.txMap p).findIdx? (· == i)).getD 15)

/-- A lane's TRAIN flags: LOCKED, every lane of the receive map deskewed, and held outside the map. -/
def State.trainFlags (s : State) (p i : Nat) : Nat :=
  let locked := s.laneState p i == 3
  b2n locked + 2 * b2n ((s.rxMap p).all fun k => (s.portH p).deskewed.getLsbD k) + 4 * b2n (locked && !(s.rxMap p).contains i)

/-- A block leaves on the lanes of port `p` (*Lane control block types*). -/
def State.emit (s : State) (p : Nat) (b : Block) : State :=
  let s := match b with
    | .align c _ => s.everyLane p fun i => ctlWord 0x4B (bytesOf 1 (s.placeOf p i) ++ bytesOf 4 c)
    | .map e => s.everyLane p fun _ => ctlWord 0x55 (bytesOf 4 e.toNat)
    | .mapReq u sp => s.everyLane p fun _ => ctlWord 0x66 (bytesOf 1 u.toNat ++ bytesOf 1 sp.toNat)
    | .train _ => s.everyLane p fun i => ctlWord 0x2D (bytesOf 1 i ++ bytesOf 1 (s.trainFlags p i))
    | .idleEnter => s.everyLane p fun _ => ctlWord 0x78 []
    | .ack n c => s.stripe p (ackUnit 0x82 n c)
    | .nak n c => s.stripe p (ackUnit 0x83 n c)
    | .frame f => (frameUnits f).foldl (fun s u => s.stripe p u) s
    | .prbs i k => s.drive p i (1, prbsWord k)
    | .echo _ => s
  { s with sent := s.sent ++ [(p, b)] }

/-- TRAIN on every lane, with the flags as they stand; ALIGN on every lane with its count (R244, R254). -/
def State.emitTrain (s : State) (p : Nat) : State := s.emit p (.train ((s.controlLanes p).map fun i => (i, s.trainFlags p i)))
def State.sendAlign (s : State) (p : Nat) : State :=
  let s := s.onPort p fun h => { h with alignCount := (h.alignCount + 1) % 2 ^ 32 }
  s.emit p (.align (s.portH p).alignCount ((s.controlLanes p).map fun i => (i, s.placeOf p i)))

/-- A block goes out now, or waits while the transmitter is idle, which latches an exit (R254, R255). -/
def State.offer (s : State) (p : Nat) (b : Block) : State :=
  if s.portState p = 3 then
    (s.onPort p fun h => { h with waitBlocks := h.waitBlocks ++ [b] }).put F.PORT_STAT.IDLE_PENDING 1 (portIx p)
  else s.emit p b

end Sys2Proof.Machine
end

