-- ==== Sys2Proof/Machine/MemWords.lean ====
section
/-! DEFINITION. Words of design memory: stand-ins, errors, and checked reads (R156, R164 to R172, R176, R367). -/

namespace Sys2Proof.Machine

/-! ### Words of design memory (R156, R169, R176) -/

/-- The bank is marked FAILED: every access finds it uncorrectable (R367). -/
def State.bankFailed (s : State) (t b : Nat) : Bool := bit (s.reg .BANK_FAILED [t, b / 64]) (b % 64)

def State.standinPhase (s : State) (t g : Nat) : Nat := s.fld F.STANDIN_STAT.PHASE [t, g]
/-- The stand-in of the bank's group is concerned with this bank. -/
def State.standinFor (s : State) (t b : Nat) : Bool :=
  s.standinPhase t (b / 32) != 0 && s.fld F.STANDIN_STAT.BANK [t, b / 32] == b
/-- The stand-in serves the bank: serving, or copy-back (R169). -/
def State.standinServes (s : State) (t b : Nat) : Bool := s.standinFor t b && decide (2 ≤ s.standinPhase t (b / 32))
/-- Writes reach the bank itself: always but while the stand-in alone serves. -/
def State.bankWritten (s : State) (t b : Nat) : Bool := !(s.standinFor t b && s.standinPhase t (b / 32) == 2)

/-- The key of a stand-in word. -/
def standinKey (t b w : Nat) : Nat := (8 * t + b / 32) * 262144 + w

/-- The word at a device address of design memory, as every observer reads it. -/
def State.memWordAt (s : State) (a : Nat) : Quad :=
  if s.standinServes (memTower a) (memBank a) then Sparse.read s.standin (standinKey (memTower a) (memBank a) (memWord a))
  else Sparse.read s.mem (a / 16)

/-- The word is uncorrectable. -/
def State.memBadAt (s : State) (a : Nat) : Bool :=
  s.bankFailed (memTower a) (memBank a) || if s.standinServes (memTower a) (memBank a) then s.standinBad.contains (standinKey (memTower a) (memBank a) (memWord a))
  else s.memBad.contains (a / 16)

/-- The stored word has a single-bit error. -/
def State.memSoftAt (s : State) (a : Nat) : Bool :=
  if s.standinServes (memTower a) (memBank a) then s.standinSoft.contains (standinKey (memTower a) (memBank a) (memWord a))
  else s.memSoft.contains (a / 16)

/-- What was written of the word is another word: an error found in it later is another error. -/
def State.newWord (s : State) (a : Nat) : State :=
  (s.dropSyndrome (EccSource.bank.key (memTower a) a)).dropSyndrome ((EccSource.standin (memBank a / 32)).key (memTower a) a)

/-- An array word has taken an error: it is uncorrectable, or a single bit of it is wrong. -/
def State.upset (s : State) (a : Nat) (uncorr : Bool) : State :=
  let k := standinKey (memTower a) (memBank a) (memWord a)
  if s.standinServes (memTower a) (memBank a) then
    if uncorr then { s with standinBad := listAdd s.standinBad k } else { s with standinSoft := listAdd s.standinSoft k }
  else if uncorr then { s with memBad := listAdd s.memBad (a / 16) }
  else { s with memSoft := listAdd s.memSoft (a / 16) }

/-- A corrected word is rewritten: it holds no single-bit error any more (R170). -/
def State.eccRewrite (s : State) (a : Nat) : State :=
  if s.memSoftAt a then
    { s.newWord a with
      memSoft := if s.standinServes (memTower a) (memBank a) then s.memSoft else listDrop s.memSoft (a / 16)
      standinSoft := if s.standinServes (memTower a) (memBank a) then
          listDrop s.standinSoft (standinKey (memTower a) (memBank a) (memWord a)) else s.standinSoft }
  else s

/-- The word as stored in the stand-in, and in the bank, replaced by `q`. -/
def State.standinPut (s : State) (k : Nat) (q : Quad) : State :=
  { s with standin := Sparse.write s.standin k q, standinBad := listDrop s.standinBad k, standinSoft := listDrop s.standinSoft k }
def State.bankPut (s : State) (a : Nat) (q : Quad) : State :=
  { s with mem := Sparse.write s.mem (a / 16) q, memBad := listDrop s.memBad (a / 16), memSoft := listDrop s.memSoft (a / 16) }

/-- The stand-in copier writes a word of the bank; its data, or the poison check pattern (R169, R172). -/
def State.copierPut (s : State) (c : CopyBack) : State :=
  let s := s.dropSyndrome (EccSource.bank.key (memTower c.addr) c.addr)
  match c.data with
  | some q => s.bankPut c.addr q
  | none => { s with memBad := listAdd s.memBad (c.addr / 16) }

/-- A full 128-bit write: it replaces an uncorrectable or poisoned word (R166, R170). The copier does not write the word any more that
it had read before (R169). -/
def State.memStore (s : State) (a : Nat) (q : Quad) : State :=
  let t := memTower a
  let b := memBank a
  let s := { s.newWord a with copies := s.copies.filter fun c => c.addr != a }
  let s := if s.standinFor t b then s.standinPut (standinKey t b (memWord a)) q else s
  if s.bankWritten t b then s.bankPut a q else s

/-- The word takes the poison check pattern (R166, R172). -/
def State.memPoison (s : State) (a : Nat) : State :=
  let t := memTower a
  let b := memBank a
  let k := standinKey t b (memWord a)
  let s := s.newWord a
  let s := if s.standinFor t b then { s with standinBad := listAdd s.standinBad k } else s
  if s.bankWritten t b then { s with memBad := listAdd s.memBad (a / 16) } else s

def State.bankSource (s : State) (t b : Nat) : EccSource := if s.standinServes t b then .standin (b / 32) else .bank

/-- A checked read of one word: none where it is uncorrectable. A word with a single-bit error is delivered corrected and is
counted (R170). -/
def State.memRead (s : State) (a : Nat) (reader : Nat) : Option Quad × State :=
  let t := memTower a
  let b := memBank a
  let src := s.bankSource t b
  if s.memBadAt a then (none, s.bankError t b a true src reader)
  else if s.memSoftAt a then (some (s.memWordAt a), s.bankError t b a false src reader)
  else (some (s.memWordAt a), s)

/-- The 128-bit words from `a`, checked one after another; none when one of them is uncorrectable. -/
def State.readWords (s : State) (reader : Nat) : Nat → Nat → Option (List Quad) × State
  | _, 0 => (some [], s)
  | a, n + 1 =>
    match s.memRead a reader with
    | (q, s) =>
      match s.readWords reader (a + 16) n with
      | (qs, s) => ((q.bind fun q => qs.map fun qs => q :: qs), s)

end Sys2Proof.Machine
end

