-- ==== Sys2Proof/Machine/QueueBase.lean ====
section
/-! DEFINITION. Queues: the cell pool, credits, push and pop, watermarks, error records, and flows as stream ports see them. -/

namespace Sys2Proof.Machine

/-! ### Ends (R184) -/

/-- *Endpoint kinds*. -/
inductive Ends where
  | none | engine (e : Nat) | host | ring | fabric | lapLog | system | trace | reserved
  deriving DecidableEq, Repr

def endOf (kind eng : Nat) : Ends :=
  match kind with
  | 0 => .none | 1 => .engine eng | 2 => .host | 3 => .ring | 4 => .fabric | 5 => .lapLog | 6 => .system | 7 => .trace
  | _ => .reserved

def State.qValid (s : State) (q : Nat) : Bool := s.flag F.Q_BIND.VALID [q]
def State.producer (s : State) (q : Nat) : Ends :=
  if s.qValid q then endOf (s.fld F.Q_BIND.PROD_KIND [q]) (s.fld F.Q_BIND.PROD_ENG [q]) else .none
def State.consumer (s : State) (q : Nat) : Ends :=
  if s.qValid q then endOf (s.fld F.Q_BIND.CONS_KIND [q]) (s.fld F.Q_BIND.CONS_ENG [q]) else .none

/-! ### Items and the pool (R181, R182, R187, R188) -/

/-- The device address of the 64 bytes of a cell. -/
def QSlot.addr (c : QSlot) : Nat := 0x400000 * c.bank + 64 * c.cell

/-- The four words of a cell. -/
def cellWords (a : Nat) : List Nat := (List.range 4).map fun i => a + 16 * i

/-- An item as its consumer finds it: uncorrectable where a word of its cell is (R205). -/
def State.seen (s : State) (c : QSlot) : QCell :=
  { item := BitVec.ofNat 512 (joinQuads ((cellWords c.addr).map s.memWordAt))
    poison := (cellWords c.addr).any s.memBadAt
    lines := c.lines
    told := c.told }

def State.slots (s : State) (q : Nat) : List QSlot := Sparse.get (fun _ => []) s.qitems q
def State.setSlots (s : State) (q : Nat) (xs : List QSlot) : State :=
  { s with qitems := Sparse.set (fun _ => []) s.qitems q xs }
def State.items (s : State) (q : Nat) : List QCell := (s.slots q).map s.seen
def State.qCount (s : State) (q : Nat) : Nat := (s.slots q).length
def State.credits (s : State) (q : Nat) : Nat := s.fld F.Q_STAT.CREDITS [q]

/-- Credits of queue `q` set to `n`; each one reserves a cell. -/
def State.setCredits (s : State) (q n : Nat) : State :=
  { s.put F.Q_STAT.CREDITS n [q] with poolReserved := s.poolReserved + n - s.credits q }

/-- The package number of the bank that pool entry `i` names. -/
def State.poolBankNo (s : State) (i : Nat) : Nat := s.fld F.POOL_BANK.BANK [i]
def State.poolEn (s : State) (i : Nat) : Bool := s.flag F.POOL_BANK.EN [i]

/-- The cells of a bank that hold items. -/
def State.cellsUsed (s : State) (bank : Nat) : List Nat :=
  s.qitems.flatMap fun p => (p.2.filter fun c => c.bank == bank).map fun c => c.cell
def State.poolUsed (s : State) (bank : Nat) : Nat := (s.cellsUsed bank).length

/-- The banks that the enabled entries of a list name, each once. -/
def State.banksOf (s : State) (entries : List Nat) : List Nat := ((entries.filter s.poolEn).map s.poolBankNo).eraseDups
def State.poolBanks (s : State) : List Nat := s.banksOf (List.range 64)

/-- Cells of the enabled banks, and those of them that hold no item. -/
def State.poolTotal (s : State) : Nat := s.poolBanks.length * 65536
def State.emptyCells (s : State) (banks : List Nat) : Nat := banks.foldl (fun n b => n + (65536 - s.poolUsed b)) 0
def State.poolEmpty (s : State) : Nat := s.emptyCells s.poolBanks

/-- F of R188: cells neither stored nor reserved. -/
def State.poolFree (s : State) : Nat := s.poolEmpty - s.poolReserved

/-- The bank from which the next cell comes: that of the first enabled entry with a cell to give; and the cell, the lowest that holds no
item (notes/assumptions 16). -/
def State.poolPick (s : State) : Nat := (s.poolBanks.find? fun b => decide (s.poolUsed b < 65536)).getD 0
def State.cellPick (s : State) (bank : Nat) : Nat :=
  let used := s.cellsUsed bank
  ((List.range (used.length + 1)).find? fun n => !used.contains n).getD 0

/-- The head item. -/
def State.headCell (s : State) (q : Nat) : Option QCell := (s.items q).head?

/-- The queue manager reads the cell of item `i` of the queue through port B: errors are counted and logged (R170 to R172). -/
def State.readCell (s : State) (q i : Nat) : State :=
  match (s.slots q)[i]? with
  | none => s
  | some c => (s.readWords readerPortB c.addr 4).2

/-- The grant for a request of `n` credits (R188); a faulted queue is granted none (R206). -/
def State.grantSize (s : State) (q n : Nat) : Nat :=
  if s.flag F.Q_STAT.FAULTED [q] then 0
  else min n (min (s.fld F.Q_LEVEL.LIMIT [q] - s.qCount q - s.credits q) s.poolFree)

def State.grant (s : State) (q n : Nat) : State := s.setCredits q (s.credits q + s.grantSize q n)

/-! ### Watermarks (R191) -/

/-- The flag that COUNT and the old flag give. -/
def highFlag (low high count : Nat) (old : Bool) : Bool :=
  if high = 0 then false
  else if high ≤ low then decide (high ≤ count)
  else if high ≤ count then true
  else if count ≤ low then false
  else old

/-- The HIGH flag follows COUNT; its edges are event sources and, where enabled, host events. -/
def State.watermark (s : State) (q : Nat) : State :=
  let old := s.flag F.Q_STAT.HIGH [q]
  let new := highFlag (s.fld F.Q_LEVEL.LOW [q]) (s.fld F.Q_LEVEL.HIGH [q]) (s.qCount q) old
  let s := s.put F.Q_STAT.HIGH (b2n new) [q]
  if new && !old then
    let s := s.edge 4 fun a => bitsOf a 12 0 == q
    if s.flag F.Q_CTRL.EV_HIGH [q] then s.hostEvent 3 17 (BitVec.ofNat 16 q) 0 else s
  else if old && !new then
    let s := s.edge 5 fun a => bitsOf a 12 0 == q
    if s.flag F.Q_CTRL.EV_LOW [q] then s.hostEvent 4 17 (BitVec.ofNat 16 q) 0 else s
  else s

/-! ### Push and pop (R187, R189) -/

/-- The link entry of a cell (R181). -/
def QSlot.link (c : QSlot) : Nat := c.bank * 65536 + c.cell

/-- Its bytes go into a cell, which the queue's last link now names. -/
def State.storeItem (s : State) (q : Nat) (x : Item) (lines : List Nat) : State :=
  let bank := s.poolPick
  let c : QSlot := { bank := bank, cell := s.cellPick bank, lines := lines }
  let written := c.link :: ((s.slots q).getLast?.map QSlot.link).toList
  let s := (List.range 4).foldl (fun s i => s.memStore (c.addr + 16 * i) (quadAt x i)) s
  { s.setSlots q (s.slots q ++ [c]) with linkBad := s.linkBad.filter fun k => !written.contains k }

/-- TAIL increases by an item. -/
def State.appendItem (s : State) (q : Nat) (x : Item) (lines : List Nat := []) : State :=
  let s := s.storeItem q x lines
  (s.put F.Q_SEQ.TAIL ((s.fld F.Q_SEQ.TAIL [q] + 1) % 2 ^ 32) [q]).watermark q

/-- Append an item, taking one credit; TAIL increases. -/
def State.pushCell (s : State) (q : Nat) (x : Item) (lines : List Nat := []) : State :=
  (s.setCredits q (s.credits q - 1)).appendItem q x lines

/-- A producer that the queue manager grants credits as it needs them pushes one item, if a credit can be had. -/
def State.autoPush (s : State) (q : Nat) (x : Item) : Option State :=
  let s := if s.credits q = 0 then s.grant q 1 else s
  if s.credits q = 0 then none else some (s.pushCell q x)

/-! ### Error records (R204) -/

/-- *Error record*. -/
def errorItem (type : Nat) (resp : Nat) (source queue : Nat) (addr lap : W64) : Item :=
  BitVec.ofNat 512 (joinWords [BitVec.ofNat 64 (type + resp * 256 + source * 65536 + queue * 2 ^ 32), addr, lap])

/-- Where an error queue is named: engine `e`, or the host. -/
def State.errQueue (s : State) (target : Option Nat) : Option Nat :=
  match target with
  | some e => if s.flag F.ERRQ.EN [e] then some (s.fld F.ERRQ.QUEUE [e]) else none
  | none => if s.flag F.ERRQ_HOST.EN then some (s.fld F.ERRQ_HOST.QUEUE) else none

/-- An error record for engine `target`, or for the host: sent, or counted as lost. -/
def State.errRecord (s : State) (target : Option Nat) (type : Nat) (resp : Resp) (source queue : Nat) (addr : W64) : State :=
  match s.errQueue target with
  | none => s.count F.ERR_LOST.COUNT
  | some q =>
    if s.producer q = .system then
      match s.autoPush q (errorItem type resp.code source queue addr s.lapCount) with
      | some s => s
      | none => s.count F.ERR_LOST.COUNT
    else s.count F.ERR_LOST.COUNT

def sourceCode (rq : Rq) : Nat := match rq.agent with | .engine e => e.val | .host _ _ => 16
def errTarget (rq : Rq) : Option Nat := match rq.agent with | .engine e => some e.val | .host _ _ => none

/-- A refused posted write (R204, R220). -/
def State.postedFailed (s : State) (rq : Rq) (resp : Resp) (queue : Nat) (addr : W64) : State :=
  s.errRecord (errTarget rq) 1 resp (sourceCode rq) queue addr

/-- The queue enters FAULTED with an error record of the given type (R206). -/
def State.faultQueue (s : State) (q : Nat) (type : Nat) (resp : Resp) (addr : W64 := 0) : State :=
  if s.flag F.Q_STAT.FAULTED [q] then s
  else ((s.setCredits q 0).put F.Q_STAT.FAULTED 1 [q]).errRecord none type resp 17 q addr

/-! ### Removal (R187, R206) -/

/-- Free the cell of the item `d` places from the head, where its consumer stands; HEAD increases. -/
def State.freeCell (s : State) (q d : Nat) : State :=
  let s := s.setSlots q ((s.slots q).eraseIdx d)
  (s.put F.Q_SEQ.HEAD ((s.fld F.Q_SEQ.HEAD [q] + 1) % 2 ^ 32) [q]).watermark q

/-- The link from item `i` of the queue to the next is read: an uncorrectable one faults the queue. -/
def State.badLink (s : State) (q i : Nat) : Bool :=
  match (s.slots q)[i]? with
  | some c => s.linkBad.contains c.link && decide (i + 1 < s.qCount q)
  | none => false

/-- A cell is freed; the queue manager follows its link to the next. -/
def State.takeCell (s : State) (q d : Nat) : State :=
  if s.badLink q d then (s.freeCell q d).faultQueue q 5 .ok else s.freeCell q d

/-- Free the head cell. -/
def State.popCell (s : State) (q : Nat) : State := s.takeCell q 0

/-! ### Flows (R197 to R201) -/

/-- The flow table entry of a logical tile's stream port. -/
def tileNo (die row col : Nat) : Nat := (die * 64 + row) * 64 + col
def tileDie (x : Nat) : Nat := x / 4096
def tileRow (x : Nat) : Nat := x / 64 % 64
def tileCol (x : Nat) : Nat := x % 64
def tileKey (x : Tile) : Nat := tileNo x.die x.row x.col

def State.flowTile (s : State) (f : Nat) : Nat :=
  tileNo (s.fld F.FLOW_BIND.DIE [f]) (s.fld F.FLOW_BIND.ROW [f]) (s.fld F.FLOW_BIND.COL [f])
def State.flowValid (s : State) (f : Nat) : Bool := s.flag F.FLOW_BIND.VALID [f]

/-- Flow numbers with a listed FLOW_BIND: the only ones that can be valid, since the reset value is not. -/
def State.listedFlows (s : State) : List Nat :=
  s.regs.filterMap fun p =>
    if 0x030000600000 ≤ p.1 ∧ p.1 < 0x030000680000 ∧ p.1 % 0x20 = 0 then some ((p.1 - 0x030000600000) / 0x20) else none

/-- The valid flow at a stream port. -/
def State.flowAt (s : State) (tile port : Nat) : Option Nat :=
  s.listedFlows.find? fun f => s.flowValid f && s.flowTile f == tile && s.fld F.FLOW_BIND.PORT [f] == port

def State.flowIn (s : State) (f : Nat) : Option Nat :=
  if s.flowValid f && s.flag F.FLOW_BIND.IN_EN [f] then some (s.fld F.FLOW_QUEUES.IN_Q [f]) else none
def State.flowOut (s : State) (f : Nat) : Option Nat :=
  if s.flowValid f && s.flag F.FLOW_BIND.OUT_EN [f] then some (s.fld F.FLOW_QUEUES.OUT_Q [f]) else none

/-- Items of its to-design queue that a flow's port holds (R199). -/
def State.delivered (s : State) (f : Nat) : Nat := (Sparse.read s.fab.delivered f).toNat
def State.setDelivered (s : State) (f n : Nat) : State :=
  { s with fab := { s.fab with delivered := Sparse.write s.fab.delivered f (BitVec.ofNat 2 n) } }

/-- How far position FLOW_POS.IN lies behind the head of queue `q` (R187, R199). -/
def State.ahead (s : State) (f q : Nat) : Nat := (s.fld F.FLOW_POS.IN [f] + 2 ^ 32 - s.fld F.Q_SEQ.HEAD [q]) % 2 ^ 32

/-- The item at the recorded position. -/
def State.itemNext (s : State) (f q : Nat) : Option QCell := ((s.slots q)[s.ahead f q]?).map s.seen

/-- The item that a stream port presents: the one at the recorded position once it has been delivered to the port, unless the queue
is FAULTED (R199, R206). -/
def State.presented (s : State) (tile port : Nat) : Option QCell :=
  match s.flowAt tile port with
  | none => none
  | some f =>
    match s.flowIn f with
    | none => none
    | some q => if s.flag F.Q_STAT.FAULTED [q] || s.delivered f == 0 then none else s.itemNext f q

/-- The queue belongs to a valid flow. -/
def State.inFlow (s : State) (q : Nat) : Bool :=
  s.listedFlows.any fun f => s.flowIn f == some q || s.flowOut f == some q

end Sys2Proof.Machine
end

