-- ==== Sys2Proof/Machine/LapBase.lean ====
section
/-! DEFINITION. What every part of the lap shares: steering and state words, tiles in use, frames sent on relay ports, trace and
log records, scratching, retrying and halting. -/

namespace Sys2Proof.Machine

/-! ### Tiles, steering, slot maps (R3, R31, R34, R356) -/

/-- The physical column that serves logical column `col` of a row of tower `t`. -/
def State.pcol (s : State) (t row col : Nat) : Nat := if col < s.fld F.STEER.S [t, row] then col else col + 1

/-- The physical tile that serves a logical tile: die × 4,160 + row × 65 + physical column. -/
def State.phys (s : State) (x : Nat) : Nat :=
  tileDie x * 4160 + tileRow x * 65 + s.pcol (tileDie x / 2) (tileRow x) (tileCol x)

/-- The physical slot that serves slot number `k` of a physical tile. -/
def State.slotOf (s : State) (ptile k : Nat) : Nat :=
  Sparse.get (fun key => key % 36) s.fab.slotMap (ptile * 36 + k)

def State.setSlot (s : State) (ptile k v : Nat) : State :=
  { s with fab := { s.fab with slotMap := Sparse.set (fun key => key % 36) s.fab.slotMap (ptile * 36 + k) v } }

/-- The key of a context word: the frame's 512 words at its physical slot. -/
def frameKey (ptile slot word : Nat) : Nat := (ptile * 36 + slot) * 512 + word
def State.frameWord (s : State) (ptile slot word : Nat) : Quad :=
  Sparse.read s.fab.frames (frameKey ptile (s.slotOf ptile slot) word)
def State.setFrameWord (s : State) (ptile slot word : Nat) (q : Quad) : State :=
  { s with fab := { s.fab with frames := Sparse.write s.fab.frames (frameKey ptile (s.slotOf ptile slot) word) q } }

/-- Word `w` of 128 bits of a tile's committed or next-state buffer. -/
def stateKey (ptile w : Nat) : Nat := ptile * 128 + w

/-- What the committed state of a tower holds where nothing has written it since it became undefined: free (R56). -/
def State.undefWord (s : State) (key : Nat) : Quad :=
  match Sparse.get (fun _ => 0) s.fab.undef (key / (2 * 4160 * 128)) with
  | 0 => 0
  | n + 1 => Config.freeQuad (n * 2 ^ 23 + key)

/-- A word of committed state. -/
def State.committedWord (s : State) (key : Nat) : Quad := Sparse.read s.fab.committed key ^^^ s.undefWord key
def State.setCommitted (s : State) (key : Nat) (v : Quad) : State :=
  { s with fab := { s.fab with committed := Sparse.write s.fab.committed key (v ^^^ s.undefWord key) } }

/-- The committed state of tower `t` becomes undefined (R56). -/
def State.loseCommitted (s : State) (t : Nat) : State :=
  { s.spend with fab := { s.fab with undef := Sparse.set (fun _ => 0) s.fab.undef t (s.free + 1) } }

def State.stateBit (s : State) (x n : Nat) : Bool := bit (s.committedWord (stateKey (s.phys x) (n / 128))) (n % 128)
/-- State bits 64w to 64w + 63 of a logical tile (R135). -/
def State.stateWord (s : State) (x w : Nat) : W64 :=
  wordAt (s.committedWord (stateKey (s.phys x) (w / 2))) (w % 2)

/-! ### Bench (R138, R139) -/

/-- An entry in force that covers a logical tile. -/
def benchCovers (v : W64) (x : Nat) : Bool :=
  bit v 32 && bitsOf v 30 28 == tileDie x &&
    (decide (bitsOf v 27 22 ≤ tileRow x) && decide (tileRow x ≤ bitsOf v 21 16)) &&
    (decide (bitsOf v 11 6 ≤ tileCol x) && decide (tileCol x ≤ bitsOf v 5 0))

def State.benched (s : State) (x : Nat) : Bool := (List.range 8).any fun i => benchCovers (s.reg .BENCH [i]) x

/-- Tiles in use: those the image places design logic in, less benched ones (R50). -/
def State.inUse (s : State) : List Nat := s.fab.tilesUsed.filter fun x => !s.benched x
def State.tileInUse (s : State) (x : Nat) : Bool := s.fab.tilesUsed.contains x && !s.benched x
def towerOfTile (x : Nat) : Nat := tileDie x / 2
def State.inUseOf (s : State) (t : Nat) : List Nat := s.inUse.filter fun x => towerOfTile x == t

/-! ### The schedule (R65) -/

def State.pos (s : State) : Nat := s.fld F.SCHED_STAT.POS
def State.schedKind (s : State) (i : Nat) : Nat := s.fld F.LAP_SCHED.KIND [i]
def State.kind (s : State) : Nat := s.schedKind s.pos
def State.kindFirst (s : State) (k : Nat) : Nat := s.fld F.LAP_KIND.FIRST [k]
def State.kindCount (s : State) (k : Nat) : Nat := s.fld F.LAP_KIND.COUNT [k]
/-- The active context slot of step `n` of the lap in progress. -/
def State.stepSlot (s : State) (n : Nat) : Nat := s.kindFirst s.kind + n

/-- The first schedule entry with LAST set, or entry 63. -/
def State.lastEntry (s : State) : Nat := ((List.range 64).find? fun i => s.flag F.LAP_SCHED.LAST [i]).getD 63
def State.nextPos (s : State) : Nat := if s.pos ≥ s.lastEntry then 0 else s.pos + 1

/-- LAPRUN's check of the schedule from position `p` (R65). -/
def State.scheduleOk (s : State) (p : Nat) : Bool :=
  ((List.range 8).all fun k => !s.flag F.LAP_KIND.VALID [k] || decide (s.kindFirst k + s.kindCount k ≤ 31)) &&
  ((List.range (s.lastEntry + 1)).all fun i => s.flag F.LAP_KIND.VALID [s.schedKind i]) && decide (p ≤ s.lastEntry)

/-! ### Frames sent on relay ports (R259, R261, R263, R265, R266, R292, R294) -/

def State.lapReady (s : State) (p : Nat) : Bool := s.flag F.CHAIN_PORT.LAP_READY [p]
def State.portRole (s : State) (p : Nat) : Nat := s.fld F.CHAIN_PORT.ROLE [p]
def State.unenrolled (s : State) (p : Nat) : Bool := (s.fld F.SEC_PORTS.UNENROLLED).testBit p
def State.enrolled (s : State) (p : Nat) : Bool := (s.fld F.SEC_PORTS.ENROLLED).testBit p

/-- STANDALONE 0, ANCHOR 1, MEMBER 2; the reserved value is taken as STANDALONE (notes/assumptions 45). -/
def State.chainMode (s : State) : Nat := if s.fld F.CHAIN_CFG.MODE = 3 then 0 else s.fld F.CHAIN_CFG.MODE

/-- The port carries token, baton and flow frames: not on a stand-alone device (R259, R262, R294). -/
def State.carriesLap (s : State) (p : Nat) : Bool := s.chainMode != 0 && s.lapReady p && s.enrolled p

/-- The device's identifier; 0xFFF while it waits for a boot image from a neighbour (R263). -/
def State.selfId (s : State) : Nat :=
  if s.ref.straps.boot = 1 ∧ !s.ref.bootDone then 0xFFF else s.fld F.CHAIN_CFG.ID

/-- The PRK shared with the partner of a roster entry (R291). -/
def State.prkOf (s : State) (n : Nat) : List Byte :=
  match s.ref.roster.find? fun e => e.1 == n with
  | some e => linkPrk e.2.agrPub
  | none => []

/-- The NONCE of a frame that goes out now, and the bytes that it is on the lanes: an authentication HELLO is sealed under its roster
entry's HELLO key, every other frame under the link key (R291, R292). -/
def State.sealNow (s : State) (p : Nat) (f : TxFrame) : W64 × List Byte :=
  let h := s.portH p
  match f.under, h.txKey with
  | some n, _ =>
    let nonce := ((h.helloNonces.find? fun e => e.1 == n).map fun e => e.2).getD 0
    (nonce, sealFrame (helloKey (s.prkOf n) nonce idDigest) nonce f.src f.dst f.body)
  | none, some k => (h.nonceTx, sealFrame k h.nonceTx f.src f.dst f.body)
  | none, none => (0, [])

/-- The port may carry such a frame: an authentication HELLO at any time it is UP, any other under its link key, BOOT frames to an
enrolled partner, and lap traffic as R262 has it. -/
def State.mayCarry (s : State) (p : Nat) (f : TxFrame) : Bool :=
  f.under.isSome || ((s.portH p).txKey.isSome && match f.body with
    | .hello _ => true
    | .boot _ _ => s.enrolled p
    | _ => s.carriesLap p)

/-- A frame can go out now: the transmitter is not idle, the port may carry it, and there is a credit of its class and room to hold it
(R265, R266). -/
def State.canSend (s : State) (p : Nat) (f : TxFrame) : Bool :=
  s.portState p == 2 && s.mayCarry p f && (s.portH p).credits[f.body.class] != 0 && decide ((s.portH p).unacked.length < 256)

/-- A frame takes its sequence number and NONCE and goes out. -/
def State.transmit (s : State) (p : Nat) (w : TxFrame) : State :=
  let h := s.portH p
  let x := s.sealNow p w
  let f : TxFrame := { w with seq := h.txSeq, sends := 1, nonce := x.1, sealed_ := x.2 }
  let c := f.body.class
  let s := s.onPort p fun h =>
    { h with
      txSeq := h.txSeq + 1, unacked := h.unacked ++ [f], credits := h.credits.set c (h.credits[c] - 1)
      sinceLow := if c = 2 then 0 else min 7 (h.sinceLow + 1)
      nonceTx := if w.under.isSome then h.nonceTx else h.nonceTx + 1 }
  s.emit p (.frame f)

/-- A frame goes out, or waits for its turn; it brings an idle transmitter back (R254). -/
def State.sendWith (s : State) (src p dst : Nat) (body : FrameBody) (under : Option Nat) : State :=
  if !s.portUp p then s
  else
    let w : TxFrame := { seq := 0, src := BitVec.ofNat 12 src, dst := BitVec.ofNat 12 dst, body := body, sends := 0, under := under }
    if s.canSend p w then s.transmit p w
    else
      let s := s.onPort p fun h => { h with waitingTx := h.waitingTx ++ [w] }
      if s.portState p = 3 then s.put F.PORT_STAT.IDLE_PENDING 1 (portIx p) else s

def State.sendFrom (s : State) (src p dst : Nat) (body : FrameBody) : State := s.sendWith src p dst body none
def State.sendFrame (s : State) (p dst : Nat) (body : FrameBody) : State := s.sendFrom s.selfId p dst body

/-- The port by which frames for device `d` leave: the forwarding entry, when it is VALID and its port is LAP_READY. -/
def State.routeTo (s : State) (d : Nat) : Option Nat :=
  if s.flag F.FWD.VALID [d] && s.chainMode != 0 && s.lapReady (s.fld F.FWD.PORT [d]) then some (s.fld F.FWD.PORT [d]) else none

/-- The port has role PARENT or CHILD. -/
def State.inTree (s : State) (p : Nat) : Bool := s.portRole p == 1 || s.portRole p == 2

/-- The port may carry the frame by its role: batons travel over PARENT and CHILD ports only (R261). -/
def State.roleCarries (s : State) (p : Nat) (body : FrameBody) : Bool :=
  match body with
  | .baton _ _ => s.inTree p
  | _ => true

/-- A frame of device `src` forwarded towards device `d`; one without a route is discarded and counted (R263). -/
def State.forwardFrom (s : State) (src d : Nat) (body : FrameBody) : State :=
  match s.routeTo d with
  | some p => if s.roleCarries p body then s.sendFrom src p d body else s.count F.CHAIN_STAT.FWD_DROP
  | none => s.count F.CHAIN_STAT.FWD_DROP

/-- A frame of the device's own. One for the device itself is delivered here, when the block is next free (R263; notes/assumptions
94). -/
def State.forward (s : State) (d : Nat) (body : FrameBody) : State :=
  if d = s.selfId then { s with ownFrames := s.ownFrames ++ [(BitVec.ofNat 12 d, body)] } else s.forwardFrom s.selfId d body

def State.portsOf (s : State) (role : Nat) : List Nat := (List.range 16).filter fun p => s.portRole p == role
def State.parentPort (s : State) : Option Nat := (s.portsOf 1).head?
def State.childPorts (s : State) : List Nat := s.portsOf 2

/-- A baton sent on a port that carries lap traffic. -/
def State.sendBaton (s : State) (p kind : Nat) (b : Baton) : State :=
  if s.carriesLap p then s.sendFrame p (s.fld F.CHAIN_PORT.PEER_ID [p]) (.baton (BitVec.ofNat 8 kind) b) else s

/-- A baton sent on every CHILD port, or on the PARENT port. -/
def State.batonDown (s : State) (kind : Nat) (b : Baton) : State := s.childPorts.foldl (fun s p => s.sendBaton p kind b) s
def State.batonUp (s : State) (kind : Nat) (b : Baton) : State :=
  match s.parentPort with
  | some p => s.sendBaton p kind b
  | none => s

/-- The lap count that the commit of the lap in progress would give. -/
def State.lapNext (s : State) : W64 := s.lapCount + 1

def State.baton (s : State) : Baton :=
  { scratch := false, retry := false, halt := false, withdrawn := false, stop := false, mismatch := false,
    scause := 0, hcause := 0, origin := 0, attempt := s.chain.attempt, lap := s.lapNext, pos := BitVec.ofNat 6 s.pos }

/-- Halt causes in the order of R60. -/
def causeRank (c : Byte) : Nat :=
  match c.toNat with | 8 => 0 | 0x0C => 1 | 3 => 2 | 2 => 3 | 1 => 4 | _ => 5

/-- The first of two causes, each with the device that raised it; 0 is none. -/
def firstCauseOf (a b : Byte × BitVec 12) : Byte × BitVec 12 :=
  if b.1 = 0 then a else if a.1 = 0 then b else if causeRank b.1 < causeRank a.1 then b else a

/-- HCAUSE of the device and its children, with the device that raised it (R272). -/
def State.knownHalt (s : State) : Byte × BitVec 12 :=
  s.chain.doneFrom.foldl (fun c d => firstCauseOf c (d.2.hcause, d.2.origin)) (s.chain.hcauseHeld, s.chain.hcauseFrom)

/-- A stop request of the device's own, or of a child. -/
def State.childStop (s : State) : Bool := s.chain.stopHeld || s.chain.doneFrom.any fun d => d.2.stop

/-- The DONE that this device sends, with what its children reported (R272). -/
def State.doneBaton (s : State) (scause : Byte) (origin : BitVec 12) : Baton :=
  { s.baton with
    scratch := scause != 0
    stop := s.fab.stopAsked || s.childStop
    scause := scause
    hcause := s.knownHalt.1
    origin := if scause != 0 then origin else s.knownHalt.2 }

/-! ### Trace records (R154) -/

/-- *Trace record*. -/
def traceItem (ev tower kind pos : Nat) (lap time data : W64) : Item :=
  BitVec.ofNat 512 (joinWords
    [BitVec.ofNat 64 (0x10 + ev * 256 + tower * 65536 + kind * 2 ^ 24 + pos * 2 ^ 32), lap, time, data])

/-- A trace record of event `ev` in tower `t`, if it is selected; one without a credit is lost. Kind and entry are those of the lap
concerned. -/
def State.trace (s : State) (t ev kind entry : Nat) (lap data : W64) : State :=
  if !s.flag F.TRACE_CTRL.EN [t] || !(s.fld F.TRACE_CTRL.EVENTS [t]).testBit ev || s.pd (pdTrace t) == 0 then s
  else
    let q := s.fld F.TRACE_CTRL.QUEUE [t]
    if s.producer q = .trace then
      match s.spend.autoPush q (traceItem ev t kind entry lap (s.counter t 0) data) with
      | some s => s.count F.TRACE_STAT.WRITTEN [t]
      | none => s.spend.count F.TRACE_STAT.LOST [t]
    else s.count F.TRACE_STAT.LOST [t]

/-- Records in every tower about the lap in progress, and about the lap that committed last. -/
def State.traceAll (s : State) (ev : Nat) (lap : W64) (data : Nat → W64) : State :=
  (List.range 4).foldl (fun s t => s.trace t ev s.kind s.pos lap (data t)) s
def State.traceLast (s : State) (ev : Nat) (data : Nat → W64) : State :=
  (List.range 4).foldl (fun s t => s.trace t ev s.fab.lastKind s.fab.lastEntry s.lapCount (data t)) s

/-! ### Log records (R144, R145) -/

/-- CRC-32C (Castagnoli, reflected) of a byte string. -/
def crc32cStep (crc : BitVec 32) : Nat → BitVec 32
  | 0 => crc
  | n + 1 => crc32cStep (if crc.getLsbD 0 then (crc >>> 1) ^^^ 0x82F63B78 else crc >>> 1) n
def crc32c (bs : List Byte) : BitVec 32 :=
  ~~~(bs.foldl (fun crc b => crc32cStep (crc ^^^ b.setWidth 32) 8) 0xFFFFFFFF)

def State.logMode (s : State) : Nat := s.fld F.LOG_CTRL.MODE
def State.logQueue (s : State) : Nat := s.fld F.LOG_CTRL.QUEUE

/-- *LAP record*. -/
def lapRecord (flags kind pos : Nat) (cause : Byte) (pinrec flowrec : Nat) (lap : W64) (edges : Nat) : Item :=
  BitVec.ofNat 512 (joinWords
    [BitVec.ofNat 64 (1 + flags * 256 + kind * 65536 + pos * 2 ^ 24 + cause.toNat * 2 ^ 32 + pinrec * 2 ^ 40),
     BitVec.ofNat 64 flowrec, lap, BitVec.ofNat 64 edges])
/-- *PINS record*. -/
def pinsRecord (half : Nat) (samples : BitVec 256) : Item :=
  BitVec.ofNat 512 (2 + half * 256 + samples.toNat * 2 ^ 256)
/-- *FLOW record*. -/
def flowRecord (data : Bool) (flow pos : Nat) (item : Item) : Item :=
  BitVec.ofNat 512 (joinWords
    [BitVec.ofNat 64 (3 + b2n data * 256 + flow * 2 ^ 32), BitVec.ofNat 64 pos,
     BitVec.ofNat 64 (crc32c (bytesOf 64 item.toNat)).toNat])

/-- The gather samples of a half of the pins. -/
def State.samples (s : State) (half : Nat) : BitVec 256 :=
  BitVec.ofNat 256 (joinWords ((List.range 4).map fun i => s.reg .GATHER_IN [4 * half + i]))

/-- The PINS records due: halves whose samples differ from those last recorded. -/
def State.pinsDue (s : State) : List (Nat × BitVec 256) :=
  [(0, s.log.lastPins0), (1, s.log.lastPins1)].filterMap fun p =>
    if p.2 = some (s.samples p.1) then none else some (p.1, s.samples p.1)

def State.asyncBank (s : State) (b : Nat) : Bool := s.flag F.BANK_CFG.ASYNC [b]

/-- Flags [6:0] of the lap's record. -/
def State.logFlags (s : State) (scratched : Bool) : Nat :=
  b2n scratched + 2 * b2n (s.fab.retries != 0) + 4 * b2n s.log.activationMark + 8 * b2n s.log.triggerMark +
    16 * b2n s.fab.polled + 32 * b2n s.log.benchMark + 64 * b2n ((List.range 4).any s.asyncBank)

/-- The records of the lap in progress, in the order of R144: the LAP record, the PINS records and the FLOW records with
their items. A retry carries no PINS and no FLOW records. -/
def State.lapRecords (s : State) (scratched : Bool) (cause : Byte) (lap : W64) (consumed : List (Nat × Nat × Item)) :
    List Item :=
  let retry := s.fab.retries != 0
  let pins := if retry then [] else s.pinsDue
  let flows := if retry then [] else consumed
  let data := s.flag F.LOG_CTRL.ITEMDATA
  lapRecord (s.logFlags scratched) s.kind s.pos cause pins.length flows.length lap (s.fld F.LAP_KIND.EDGES [s.kind]) ::
    pins.map (fun p => pinsRecord p.1 p.2) ++
    flows.flatMap fun f => if data then [flowRecord true f.1 f.2.1 f.2.2, f.2.2] else [flowRecord false f.1 f.2.1 f.2.2]

/-- The samples recorded are those that the next ones are compared with (R145). -/
def State.logClosed (s : State) : State :=
  let pins (old : Option (BitVec 256)) (h : Nat) := if s.fab.retries != 0 then old else some (s.samples h)
  { s with log := { s.log with
      lastPins0 := pins s.log.lastPins0 0
      lastPins1 := pins s.log.lastPins1 1 } }

/-- The log records of one lap pushed as a whole, or lost as a whole (R144). -/
def State.writeLog (s : State) (rs : List Item) : State :=
  let q := s.logQueue
  if s.producer q = .lapLog ∧ rs.length ≤ s.credits q + s.grantSize q (rs.length - s.credits q) then
    (rs.foldl (fun s r => (s.autoPush q r).getD s) s).logClosed
  else s.count F.LOG_STAT.LOST

/-! ### Regions of tiles (R106, R107) -/

def inRegionTile (r : Region) (x : Nat) : Bool :=
  r.die == tileDie x && (decide (r.rowFirst ≤ tileRow x) && decide (tileRow x ≤ r.rowLast)) &&
    (decide (r.colFirst ≤ tileCol x) && decide (tileCol x ≤ r.colLast))

def regionTiles (r : Region) : List Nat :=
  (List.range (r.rowLast + 1 - r.rowFirst)).flatMap fun i =>
    (List.range (r.colLast + 1 - r.colFirst)).map fun j => tileNo r.die (r.rowFirst + i) (r.colFirst + j)

/-! ### Writes that wait for a boundary (R137, R138, R148, R154) -/

def State.trigTile (s : State) (i : Nat) : Nat :=
  tileNo (s.fld F.TRIG_ADDR.DIE [i]) (s.fld F.TRIG_ADDR.ROW [i]) (s.fld F.TRIG_ADDR.COL [i])
def State.trigWord (s : State) (i : Nat) : W64 := s.stateWord (s.trigTile i) (s.fld F.TRIG_ADDR.WORD [i])

/-- *TRIG CTRL*, MODE. -/
def modeMatch (mode : Nat) (mask value now old : W64) : Bool :=
  let eq := now &&& mask == value
  match mode with
  | 0 => eq
  | 1 => !eq
  | 2 => eq && !(old &&& mask == value)
  | _ => (now ^^^ old) &&& mask != 0

/-- The word that ENTER and CHANGE compare with is taken anew. -/
def State.latchTrig (s : State) (i : Nat) : State :=
  { s with fab := { s.fab with trigPrev := Sparse.write s.fab.trigPrev i (s.trigWord i) } }

/-- The credit queues are emptied: the next words come from the slots then active (R48, notes/assumptions 31). -/
def State.flushContexts (s : State) : State := { s with fab := { s.fab with creditQ := [] } }

/-- The registers whose writes wait for a boundary while laps run; a write of TRACE_CTRL waits for one in any case. -/
def waitsBoundary : RegName → Bool
  | .TRIG_CTRL | .TRIG_ADDR | .TRIG_MASK | .TRIG_VALUE | .LOG_CTRL | .BENCH | .TRACE_CTRL => true
  | _ => false

/-- They take effect at step 4 of R131 rather than between steps 1 and 2. -/
def waitsLate : RegName → Bool
  | .BENCH | .TRACE_CTRL => true
  | _ => false

/-- While UNBENCH_HELD is set, bench entry `i` with the value `new`, beside the others as `entry` gives them, would leave a tile of a
held region under no enabled entry (R140). -/
def State.unbenches (s : State) (entry : List Nat → W64) (i : Nat) (new : W64) : Bool :=
  let after : List W64 := (List.range 8).map fun k => if k = i then new else entry [k]
  s.flag F.LOAD_STAT.UNBENCH_HELD &&
    s.persona.heldRegions.any fun r => (regionTiles r).any fun x => !after.any fun v => benchCovers v x

/-- A write to such a register takes effect. A bench change accepted before a load came to hold its tiles is dropped where it
would uncover them (R107, notes/assumptions 78). -/
def State.applyWrite (s : State) (r : RegName) (ix : List Nat) (h : Half) (v : W64) : State :=
  let old := s.reg r ix
  let new := mergeWrite r h old v
  match r with
  | .TRIG_CTRL =>
    let s := s.setReg r ix new
    if wrote F.TRIG_CTRL.ARMED h v then (s.setReg .TRIG_MATCHES ix 0).latchTrig (ix.headD 0) else s
  | .TRIG_ADDR => (s.setReg r ix new).latchTrig (ix.headD 0)
  | .LOG_CTRL =>
    let s := s.setReg r ix new
    let s := if fieldIn F.LOG_CTRL.MODE new = 1 ∧ fieldIn F.LOG_CTRL.MODE old ≠ 1 then
        { s with log := { s.log with lastPins0 := none, lastPins1 := none } }
      else s
    if fieldIn F.LOG_CTRL.MODE new = 2 ∧ fieldIn F.LOG_CTRL.MODE old ≠ 2 then
      { s with log := { s.log with replayPins0 := none, replayPins1 := none, replayLap := none, replayFlows := [] } }
    else s
  | .BENCH =>
    if s.unbenches (fun k => s.reg .BENCH k) (ix.headD 0) new then s
    else { s.setReg r ix new with log := { s.log with benchMark := true } }.flushContexts
  | _ => s.setReg r ix new

/-- The value that a register will have once the writes that wait for it have taken effect. Until then it reads as it was
(notes/assumptions 79). -/
def State.pendingValue (s : State) (r : RegName) (ix : List Nat) : W64 :=
  s.fab.boundaryWrites.foldl (fun v p => if p.1 = r.addr ix then mergeWrite r (halfOfCode p.2.1) v p.2.2 else v) (s.reg r ix)

/-- The waiting writes of the registers that `due` selects take effect, in the order in which they were made. -/
def State.applyDue (s : State) (due : RegName → Bool) : State :=
  let mine := s.fab.boundaryWrites.filterMap fun p =>
    (regAt p.1).bind fun q => if waitsBoundary q.1 && due q.1 then some (q.1, q.2, halfOfCode p.2.1, p.2.2) else none
  let rest := s.fab.boundaryWrites.filter fun p => match regAt p.1 with | some (r, _) => !due r | none => false
  mine.foldl (fun s w => s.applyWrite w.1 w.2.1 w.2.2.1 w.2.2.2) { s with fab := { s.fab with boundaryWrites := rest } }

/-- A bench change waits. -/
def State.benchWaits (s : State) : Bool :=
  s.fab.boundaryWrites.any fun p => match regAt p.1 with | some (.BENCH, _) => true | _ => false

/-- *BENCH_STAT*, ACTIVE. -/
def State.benchActive (s : State) : W64 :=
  BitVec.ofNat 64 (natOfBits ((List.range 8).map fun i => s.flag F.BENCH.ENABLE [i]))

/-- Bench changes have been applied: the trace record (R154). -/
def State.traceBench (s : State) : State := s.traceLast 7 fun _ => s.benchActive

/-- A write to one of these registers: at the next boundary while laps run, at once while they are halted. A write of TRACE_CTRL
waits for the next boundary in either case (R154). Until then a read returns the old value (R12; notes/assumptions 79). -/
def State.writeBoundary (s : State) (r : RegName) (ix : List Nat) (h : Half) (v : W64) : State :=
  if s.lapsRun || r == .TRACE_CTRL then
    { s with fab := { s.fab with boundaryWrites := s.fab.boundaryWrites ++ [(r.addr ix, h.code, v)] } }
  else if r == .BENCH then (s.applyWrite r ix h v).traceBench
  else s.applyWrite r ix h v

/-- An accepted microcode swap takes place. -/
def State.mcSwap (s : State) : State :=
  let s : State := { s with mc := { s.mc with active := !s.mc.active, swapPending := false } }
  s.recordAuto 0x0F 0 (BitVec.ofNat 64 (s.mc.verA.toNat + s.mc.verB.toNat * 65536))

/-- The items that the lap has consumed, in ascending order of flow: flow, position and item (R144, R199). -/
def State.consumedItems (s : State) : List (Nat × Nat × Item) :=
  let fs := (s.fab.consumed.filterMap fun k => s.flowAt (k / 2) (k % 2)).mergeSort
  fs.filterMap fun f =>
    match (s.flowIn f).bind fun q => s.itemNext f q with
    | some c => some (f, s.fld F.FLOW_POS.IN [f], c.item)
    | none => none

/-! ### Halting (R60, R61, R132) -/

/-- Laps halt with a cause; `uncommitted`: the lap concerned did not commit. Writes that waited for a boundary take effect at once,
those of TRACE_CTRL apart, and so does an accepted microcode swap (R99; notes/assumptions 18). The count of retries starts anew
(notes/assumptions 35). -/
def State.haltLaps (s : State) (cause : Byte) (retryHalt : Bool := false) (uncommitted : Bool := retryHalt) : State :=
  let s := { s with
    ref := { s.ref with cause := cause }
    fab := { s.fab with phase := .halted, stopAsked := false, single := false, retries := 0, firstCause := 0, stepOpen := [],
                        stepsDone := [], committing := false, sampled := false, creditQ := [] }
    chain := { s.chain with readySent := false, doneSent := false, readyFrom := [], doneFrom := [], hcauseHeld := 0, hcauseFrom := 0,
                            stopHeld := false, decided := false, mismatch := false, singleLap := false } }
  let s := s.put F.LAP_STAT.RETRY_HALT (b2n retryHalt)
  let s := (s.put F.CHAIN_STAT.STATE 0).put F.CHAIN_STAT.UNDECIDED 0
  let s := (List.range 4).foldl (fun s t => (s.put F.TLC_STAT.PHASE 0 [t])) s
  let s := if uncommitted then s.traceAll 3 s.lapNext fun _ => cause.setWidth 64
    else s.traceLast 3 fun _ => cause.setWidth 64
  let s := if s.benchWaits then (s.applyDue (· != .TRACE_CTRL)).traceBench else s.applyDue (· != .TRACE_CTRL)
  let s := if s.mc.swapPending then s.mcSwap else s
  s.edge 1 fun _ => true

/-! ### Scratching (R57 to R59, R133, R423) -/

/-- The tower, step and cluster that raised a cause. -/
structure Where where
  tower : Nat
  step : Nat
  /-- logical tile and cluster -/
  cluster : Option (Nat × Nat) := none

/-- TLC_SCRATCH of a tower that raised a cause (R423). -/
def scratchWord (cause : Byte) (w : Where) : W64 :=
  let c := match w.cluster with
    | some (x, k) => 2 ^ 23 + tileDie x % 2 * 2 ^ 22 + tileRow x * 2 ^ 16 + tileCol x * 2 ^ 8 + k
    | none => 0
  BitVec.ofNat 64 (cause.toNat * 2 ^ 32 + w.step * 2 ^ 24 + c)

/-- A tower raises a cause: its first one in the lap is the one that it shows. -/
def State.raise (s : State) (cause : Byte) (w : Option Where) : State :=
  match w with
  | some w =>
    if s.fab.raised.any fun p => p.1 == w.tower then s
    else { s with fab := { s.fab with raised := s.fab.raised ++ [(w.tower, scratchWord cause w)] } }
  | none => s

/-- Every tower lap controller rewrites TLC_SCRATCH in full. -/
def State.tellRaised (s : State) : State :=
  (List.range 4).foldl (fun s t =>
    s.setReg .TLC_SCRATCH [t] (((s.fab.raised.find? fun p => p.1 == t).map fun p => p.2).getD 0)) s

/-- Nothing of the lap is kept: next state, masks, commit buffers, credit queues, read returns, collectors and imports are
discarded, and reserved cells return to their producers (R57, R190, R270). The next-state buffer at 0x800 then reads zero: the manual
does not say what it holds (R68; notes/assumptions 95). -/
def State.discardLap (s : State) : State :=
  let s := s.fab.outReserved.foldl (fun s fp =>
    match (s.flowAt (fp / 2) (fp % 2)).bind s.flowOut with
    | some q => s.put F.Q_STAT.CREDITS (s.credits q + 1) [q]
    | none => { s with poolReserved := s.poolReserved - 1 }) s
  { s with
    fab := { s.fab with
      nextState := [], wmask := [], creditQ := [], fired := [], portReads := [], commitBuf := [], collectors := [],
      imports := [], importsNext := [], consumed := [], polled := false, present := [], stepOpen := [], stepsDone := [],
      outReserved := [], vaultLap := [], committing := false }
    chain := { s.chain with storedGroups := [], doneFrom := [], doneSent := false, decided := false } }

/-- The causes that LAP_RETRY may permit: bits 4, 5, 6, 9 and 10 (R59). -/
def retryable (cause : Byte) : Bool := [4, 5, 6, 9, 10].contains cause.toNat

/-- LAP_RETRY permits another run of the lap (R133). -/
def State.mayRetry (s : State) (cause : Byte) : Bool :=
  retryable cause && (s.fld F.LAP_RETRY.CAUSES).testBit cause.toNat && decide (s.fab.retries < s.fld F.LAP_RETRY.LIMIT)

/-- The counts, status and records of a scratched lap. -/
def State.noteScratch (s : State) (cause : Byte) (w : Option Where) : State :=
  let s := s.count F.RETRY_STAT.SCRATCHED
  let s := s.put F.LAP_STAT.SCRATCH cause.toNat
  let s := (s.raise cause w).tellRaised
  let s := s.tallyLap 1
  let s := s.traceAll 1 s.lapNext fun t => s.reg .TLC_SCRATCH [t]
  if s.logMode = 1 then s.writeLog (s.lapRecords true cause s.lapNext s.consumedItems) else s

/-- The lap is scratched by a single device or as a decision: it is discarded and retried, or the laps halt. -/
def State.scratchNow (s : State) (cause : Byte) (w : Option Where) (retry : Bool) : State :=
  let h := s.knownHalt
  let stop := s.childStop
  let s := (s.noteScratch cause w).discardLap
  if retry then
    { s with fab := { s.fab with phase := .retryWait, firstCause := cause }
             chain := { s.chain with attempt := s.chain.attempt + 1, hcauseHeld := h.1, hcauseFrom := h.2, stopHeld := stop } }
  else s.haltLaps cause true

def State.lapLive (s : State) : Bool := s.fab.phase == .gatherDue || s.fab.phase == .steps

/-- A withdrawn lap: discarded and logged as scratched with cause 0x00, but not counted; the laps halt at the previous boundary
(R274). -/
def State.withdrawLap (s : State) (h : Byte) : State :=
  let s := if s.logMode = 1 then s.writeLog (s.lapRecords true 0 s.lapNext s.consumedItems) else s
  s.discardLap.haltLaps h false true

/-- The anchor decides a lap for which a scratch cause is known (R273, rules 1 and 2). -/
def State.anchorScratch (s : State) (cause : Byte) (origin : BitVec 12) (w : Option Where) : State :=
  let h := s.knownHalt
  if h.1 != 0 then
    let b := { s.baton with withdrawn := true, halt := true, hcause := h.1, origin := h.2 }
    let s := s.batonDown 5 b
    let s := { s with chain := { s.chain with lastDecision := some (5, b) } }
    (s.put F.CHAIN_STAT.ORIGIN h.2.toNat).withdrawLap h.1
  else
    let retry := s.mayRetry cause
    let b := { s.baton with scratch := true, retry := retry, halt := !retry, scause := cause, origin := origin,
                            hcause := if retry then 0 else cause }
    let s := s.batonDown 5 b
    let s := { s with chain := { s.chain with lastDecision := some (5, b) } }
    (s.put F.CHAIN_STAT.ORIGIN origin.toNat).scratchNow cause w retry

/-- A member's scratch cause: recorded, and reported at once in a DONE with SCRATCH (R272). -/
def State.memberScratch (s : State) (cause : Byte) (origin : BitVec 12) (w : Option Where) : State :=
  let s := (({ s with fab := { s.fab with firstCause := cause } } : State).raise cause w).tellRaised
  if s.chain.doneSent then s
  else { s.batonUp 3 (s.doneBaton cause origin) with chain := { s.chain with doneSent := true } }

/-- A scratch cause arises in the device (R57, R59). After commit has been issued it is no cause; for a lap that already has
one it is counted only. -/
def State.scratch (s : State) (cause : Byte) (w : Option Where := none) : State :=
  if s.fab.committing then s
  else if s.fab.phase == .retryWait || (s.lapLive && s.fab.firstCause != 0) then
    (({ s with fab := { s.fab with laterCauses := s.fab.laterCauses + 1 } } : State).raise cause w).tellRaised
  else if !s.lapLive then s
  else match s.chainMode with
    | 1 => s.anchorScratch cause (BitVec.ofNat 12 s.selfId) w
    | 2 => s.memberScratch cause (BitVec.ofNat 12 s.selfId) w
    | _ => s.scratchNow cause w (s.mayRetry cause)

/-! ### Layers a lap needs (R49) -/

/-- The lap in progress needs layer `n` of tower `t`. -/
def State.lapNeeds (s : State) (t n : Nat) : Bool :=
  match n with
  | 1 => (List.range 256).any fun b =>
      let v := Sparse.read s.fab.portBind (256 * t + b)
      bit v 0 && s.tileInUse (tileNo (2 * t + b2n (bit v 1)) (bitsOf v 13 8) (bitsOf v 21 16))
  | 2 => s.inUse.any fun x => tileDie x == 2 * t
  | 3 => s.inUse.any fun x => tileDie x == 2 * t
  | 4 => s.inUse.any fun x => tileDie x == 2 * t + 1
  | 5 => s.inUse.any fun x => tileDie x == 2 * t + 1
  | _ => true

/-! ### Bridges (R278, R279) -/

def State.listedBridges (s : State) : List Nat :=
  s.regs.filterMap fun p =>
    if 0x030000801000 ≤ p.1 ∧ p.1 < 0x030000801400 ∧ p.1 % 16 = 0 then some ((p.1 - 0x030000801000) / 16) else none

def State.bridgeEn (s : State) (b : Nat) : Bool := s.flag F.BRIDGE_CFG.EN [b]
def State.bridgeIn (s : State) (b : Nat) : Bool := s.flag F.BRIDGE_CFG.DIR [b]
def State.bridgeQ (s : State) (b : Nat) : Nat := s.fld F.BRIDGE_CFG.QUEUE [b]
def State.bridgePeer (s : State) (b : Nat) : Nat := s.fld F.BRIDGE_CFG.PEER_ID [b]
def State.onBridge (s : State) (b : Nat) (f : Bridge → Bridge) : State := { s with bridges := modifyAt s.bridges b f }
def State.bridge (s : State) (b : Nat) : Bridge := s.bridges.toList.getD b {}

def State.sendItem (s : State) (b : Nat) (x : BitVec 32 × Item) : State :=
  s.forward (s.bridgePeer b) (.flowItem (s.fld F.BRIDGE_CFG.PEER_BRIDGE [b]) x.1 x.2)

/-- A sending bridge sends the items of its queue for which it holds remote credits; the cells stay until acknowledged. -/
def State.pumpOut (s : State) (b : Nat) : Nat → State
  | 0 => s
  | n + 1 =>
    let br := s.bridge b
    match (s.items (s.bridgeQ b))[br.unacked.length]? with
    | none => s
    | some c =>
      if br.granted = 0 ∨ c.poison ∨ (s.routeTo (s.bridgePeer b)).isNone then s
      else
        let pos : BitVec 32 := BitVec.ofNat 32 (s.fld F.Q_SEQ.HEAD [s.bridgeQ b] + br.unacked.length)
        let s := s.onBridge b fun br =>
          { br with unacked := br.unacked ++ [(pos, c.item)], granted := br.granted - 1, nextPos := pos + 1 }
        (s.sendItem b (pos, c.item)).pumpOut b n

/-- How many credits a receiving bridge keeps out (notes/assumptions 42). -/
def bridgeWindow : Nat := 64

def State.sendBridgeCredit (s : State) (b n : Nat) : State :=
  s.forward (s.bridgePeer b)
    (.flowCredit (s.fld F.BRIDGE_CFG.PEER_BRIDGE [b]) (BitVec.ofNat 16 n) ((s.bridge b).nextPos - 1))

/-- A receiving bridge obtains credits from its queue and sends them on; `ack`: an acknowledgement is due in any case. -/
def State.pumpIn (s : State) (b : Nat) (ack : Bool) : State :=
  if (s.routeTo (s.bridgePeer b)).isNone then s
  else
    let n := s.grantSize (s.bridgeQ b) (bridgeWindow - (s.bridge b).granted)
    if n = 0 ∧ !ack then s
    else
      let s := (s.grant (s.bridgeQ b) n).onBridge b fun br => { br with granted := br.granted + n }
      s.sendBridgeCredit b n

def State.pumpBridges (s : State) : State :=
  s.listedBridges.foldl (fun s b =>
    if !s.bridgeEn b then s
    else if s.bridgeIn b then s.pumpIn b false
    else s.pumpOut b (s.bridge b).granted) s

end Sys2Proof.Machine
end

