-- ==== Sys2Proof/Machine/EngineBase.lean ====
section
/-! DEFINITION. What the engine instructions share: the end of a program, taking traps, retiring an instruction, special
registers, waiting instructions, event sources that are levels, and alarms and seals that a command leaves to carry out. -/

namespace Sys2Proof.Machine

/-! ### Status words -/

/-- The *LAPSTAT status word*. -/
def State.lapStatus (s : State) : W64 :=
  BitVec.ofNat 64 (s.pos * 65536 + b2n s.ref.torn * 1024 + b2n (s.flag F.LOAD_STAT.GSR) * 512 + b2n s.lapsRun * 256 +
    s.ref.cause.toNat)

def ChanState.code : ChanState → Nat
  | .idle => 0 | .busy => 1 | .halted => 2

/-- DMAn_STAT. -/
def Chan.stat (c : Chan) : W64 :=
  BitVec.ofNat 64 (c.bytes.toNat * 2 ^ 32 + c.resp.toNat * 2 ^ 24 + b2n c.verdictWait * 2 ^ 19 + b2n c.ctx * 2 ^ 18 +
    c.state.code * 65536 + c.result.toNat)

/-- STATUS. -/
def Engine.status (en : Engine) (bankB : Bool) : W64 :=
  let st := if en.frozen then 3 else match en.state with | .idle => 0 | .running => 1 | .waiting => 2
  BitVec.ofNat 64 (b2n en.superseded * 2048 + b2n en.nmiThermal * 1024 + b2n en.nmiClock * 512 + b2n en.inTrap * 256 +
    roleCode en.role * 16 + b2n bankB * 8 + st)

/-- MC_STAT. -/
def State.mcStat (s : State) : W64 :=
  BitVec.ofNat 64 (s.mc.verB.toNat * 2 ^ 32 + s.mc.verA.toNat * 2 ^ 16 + b2n s.mc.refused * 16 + b2n s.mc.swapPending * 8 +
    b2n s.mc.bValid * 4 + b2n s.mc.aValid * 2 + b2n s.mc.active)

/-- A special register as SRR reads it; none where the number is unassigned (R88). -/
def State.special (s : State) (e : Eng) (n : Nat) : Option W64 :=
  let en := s.eng e
  match n with
  | 0x000 => some (en.status s.mc.active)
  | 0x001 => some (BitVec.ofNat 64 (e.val + e.val / 4 * 16))
  | 0x002 => some en.cycle
  | 0x003 => some en.runtime
  | 0x004 => some (BitVec.ofNat 64 (en.cmdTag.toNat * 2 ^ 32 + en.cmdQueue.toNat))
  | 0x008 => some en.tcause
  | 0x009 => some en.tpc
  | 0x00A => some en.tval
  | 0x00B => some en.tvec
  | 0x00C => some en.tsave0
  | 0x00D => some en.tsave1
  | 0x010 => some en.evpend
  | 0x011 => some en.sigdata
  | 0x018 => some (en.wdog.setWidth 64)
  | 0x030 => some s.mcStat
  | 0x031 => some (BitVec.ofNat 64 (b2n s.mc.swapPending))
  | n => if h : 0x020 ≤ n ∧ n < 0x028 then some (en.chans[n - 0x020]'(by omega)).stat else none

/-! ### The end of a program (R97) -/

/-- *Completion item*. -/
def completionItem (en : Engine) (e : Eng) (kind cause resp value : Nat) (pc : W64) : Item :=
  BitVec.ofNat 512 (joinWords
    [BitVec.ofNat 64 (en.cmdTag.toNat + kind * 2 ^ 32 + cause * 2 ^ 40 + resp * 2 ^ 48 + e.val * 2 ^ 56), BitVec.ofNat 64 value,
     en.runtime, pc, en.g[1], en.g[2], en.g[3], en.g[4]])

/-- The completion item goes onto its queue against the credit kept back for it; where the queue has since lost that producer
or credit, a BAD_COMPLETION record takes its place (notes/assumptions 15). -/
def State.postCompletion (s : State) (e : Eng) (item : Item) : State :=
  let en := s.eng e
  if !en.cqen then s
  else
    let q := en.cq.toNat
    if s.producer q = .engine e.val ∧ 0 < s.credits q then s.pushCell q item
    else s.errRecord (some e.val) 7 .ok e.val q 0

/-- The program ends with a completion item, and the engine becomes idle. -/
def State.endProgram (s : State) (e : Eng) (kind cause resp value : Nat) (pc : W64) : State :=
  let s := s.postCompletion e (completionItem (s.eng e) e kind cause resp value pc)
  s.onEng e fun en => { en with state := .idle, waiting := none, inTrap := false, cqen := false, cqHeld := false,
                                 impreciseHeld := [], stores := en.stores.map fun st => { st with old := true } }

/-! ### Taking a trap (R89, R90) -/

/-- The trap is taken: its registers are written, and the handler or the end of the program follows. -/
def State.takeTrap (s : State) (e : Eng) (c : Trap) (resp : Byte) (imprecise : Bool) (tval tpc : W64) : State :=
  let s := s.tally (unitOfEngine e) 0x105
  let ends := (s.eng e).trapEnds c
  let s := s.onEng e fun en => en.trapRegs c resp imprecise tval tpc
  if ends then s.endProgram e 1 c.code (if c = .busError then resp.toNat else 0) 0 tpc
  else s.onEng e fun en => en.enterHandler c

def Engine.pc64 (en : Engine) : W64 := en.pc.setWidth 64

/-- A precise trap of the instruction at the program counter. -/
def State.trap (s : State) (e : Eng) (c : Trap) (tval : W64) (resp : Resp := .ok) : State :=
  s.takeTrap e c resp.byte false tval (s.eng e).pc64

/-- The same where the manual names no TVAL: a free value (notes/assumptions 3). -/
def State.trapOpen (s : State) (e : Eng) (c : Trap) : State := s.spend.trap e c (Config.freeWord s.free)

/-- The outcome of a refused or failed load (R77). -/
def State.loadTrap (s : State) (e : Eng) (resp : Resp) (addr : W64) : State :=
  match resp with
  | .roleDenied => s.trap e .roleDenied addr
  | .uncorrectable => s.trap e .dataUncorrectable addr
  | r => s.trap e .busError addr r

/-- The imprecise trap of a store's answer; WRITE_SUPERSEDED sets a flag instead (R77). -/
def State.storeTrap (s : State) (e : Eng) (st : Store) : State :=
  let tpc := (s.eng e).pc64
  match respOfByte (st.resp.getD 0) with
  | .ok => s
  | .writeSuperseded => s.onEng e fun en => { en with superseded := true }
  | .roleDenied => s.takeTrap e .roleDenied 0 true st.addr tpc
  | .uncorrectable => s.takeTrap e .dataUncorrectable 0 true st.addr tpc
  | r => s.takeTrap e .busError r.byte true st.addr tpc

/-- The lowest held counter overflow. -/
def firstBit (v : BitVec 8) : Nat := ((List.range 8).find? fun i => v.getLsbD i).getD 0

def Engine.nmiDue (en : Engine) : Bool := !en.inTrap && (en.nmiClock || en.nmiThermal)
def Engine.ovfDue (en : Engine) : Bool := !en.inTrap && en.ovfHeld != 0

/-- A pending non-maskable event is taken (R91); NMI_CLOCK first where both are pending (notes/assumptions 12). -/
def State.takeNmi (s : State) (e : Eng) : State :=
  let en := s.eng e
  if en.nmiClock then
    (s.spend.onEng e fun en => { en with nmiClock := false }).takeTrap e .nmiClock 0 false (Config.freeWord s.free) en.pc64
  else
    (s.spend.onEng e fun en => { en with nmiThermal := false }).takeTrap e .nmiThermal 0 false (Config.freeWord s.free) en.pc64

/-- A held counter overflow is raised (R151). -/
def State.takeOverflow (s : State) (e : Eng) (n : Nat) : State :=
  let en := s.eng e
  (s.onEng e fun en => { en with ovfHeld := en.ovfHeld &&& ~~~(BitVec.ofNat 8 (2 ^ n)) }).takeTrap e .counterOverflow 0 false
    (BitVec.ofNat 64 (n + 1)) en.pc64

/-- What is taken before the next instruction issues, if anything is due: the answer to a store, a non-maskable event, a counter
overflow (R77, R91, R151; their order where several are due: notes/assumptions 12). -/
def State.deliver (s : State) (e : Eng) : State :=
  let en := s.eng e
  if en.state != .running || en.frozen then s
  else match en.impreciseHeld with
    | st :: rest => (s.onEng e fun en => { en with impreciseHeld := rest }).storeTrap e st
    | [] =>
      if en.nmiDue then s.takeNmi e
      else if en.ovfDue then s.takeOverflow e (firstBit en.ovfHeld)
      else s

/-! ### Issuing and retiring -/

def Engine.fetchBad (en : Engine) : Bool := en.imemBad.contains (en.pc.toNat / 16)

/-- The engine's domain is in RUN and its clock gate lets it work (R319, R333). -/
def State.engClocked (s : State) (e : Eng) : Bool := s.pd (engDomain e) == 1 && !s.gateShut (e.val / 4) (e.val % 4)

/-- The engine issues the instruction at its program counter: it runs a program, is not frozen, its domain is on, nothing is
due before the instruction, and the fetch is good. -/
def State.canIssue (s : State) (e : Eng) : Bool :=
  let en := s.eng e
  en.state == .running && !en.frozen && s.engClocked e && !en.nmiDue && !en.ovfDue && en.impreciseHeld.isEmpty &&
    !en.fetchBad

/-- An engine that cannot issue takes what is due instead, or the fetch trap, or does nothing (notes/assumptions 6). -/
def State.noIssue (s : State) (e : Eng) : State :=
  let en := s.eng e
  if en.state != .running || en.frozen || !s.engClocked e then s
  else if en.nmiDue || !en.impreciseHeld.isEmpty || en.ovfDue then s.deliver e
  else (s.spadError e true (en.pc.toNat / 16) true readerEngine).trap e .fetchUncorrectable en.pc64

/-- The fetch of the instruction at the program counter: a single-bit error of its word is corrected (R179). -/
def State.fetchedWord (s : State) (e : Eng) : State := s.spadCorrect e true ((s.eng e).pc.toNat / 16) readerEngine

/-- Sequential execution goes on, or passes 0xFFF8 and traps (R70): the instruction at 0xFFF8 then stands completed, and TPC holds
0x10000 (notes/assumptions 68). -/
def State.advance (s : State) (e : Eng) : State :=
  if (s.eng e).pc = 0xFFF8 then s.takeTrap e .illegal 0 false 0x10000 0x10000
  else s.onEng e fun en => { en with pc := en.pc + 8, state := .running, waiting := none }

/-- An instruction of `n` cycles completes. -/
def State.retire (s : State) (e : Eng) (n : W64) : State :=
  ((s.tally (unitOfEngine e) 0x100).onEng e fun en => en.tick n).advance e

/-- An instruction completes with a value for `rd`. -/
def State.retireWith (s : State) (e : Eng) (rd : Gpr) (v : W64) (n : W64) : State :=
  (s.onEng e fun en => en.put rd v).retire e n

/-- Cycles of an instruction that waits for an answer: its own and a free number (notes/assumptions 3). -/
def State.cyclesWith (s : State) (n : W64) : W64 := n + Config.freeCycles s.free

/-- A wait ends: the instruction completes after its own two cycles and the wait; a store's failure held meanwhile is taken. -/
def State.endWait (s : State) (e : Eng) (rd : Gpr) (v : W64) (n : W64) : State :=
  (s.spend.retireWith e rd v (s.cyclesWith n)).deliver e

/-- The engine waits in the instruction at its program counter. -/
def State.waitIn (s : State) (e : Eng) (w : Waiting) : State :=
  s.onEng e fun en => { en with state := .waiting, waiting := some w }

/-! ### Waiting instructions (R82, R84, R85, R91, FENCE, HALT) -/

/-- Instruction fetch sees the instruction scratchpad as it stands (R73). -/
def Engine.refetch (en : Engine) : Engine := { en with code := en.imem }

/-- Stores and channels that FENCE and HALT wait for. -/
def Engine.fenceOpen (en : Engine) (mem dma : Bool) : Bool :=
  (mem && !en.stores.isEmpty) || (dma && en.chans.toList.any fun c => c.state == .busy)

/-- A non-maskable event is taken in place of the end of this wait. -/
def Waiting.interruptible : Waiting → Bool
  | .wait _ _ _ => true
  | .mwait _ _ => true
  | .lapStop _ _ => true
  | _ => false

/-- The wait of engine `e` ends if what it waits for has come. A store that fails during HALT's wait traps after HALT, and the program
goes on (R77; notes/assumptions 69). -/
def State.wake (s : State) (e : Eng) : State :=
  let en := s.eng e
  match en.waiting with
  | none => s
  | some w =>
    if en.frozen || en.state != .waiting || (w.interruptible && en.nmiDue) then s
    else match w with
      | .wait rd mask _ =>
        let v := en.evpend &&& mask
        if v = 0 then s
        else (s.onEng e fun en => { en with evpend := en.evpend &&& ~~~v }).endWait e rd v 2
      | .mwait rd ch =>
        let c := en.chans[ch]
        match c.state with
        | .busy => s
        | .idle => s.endWait e rd c.stat 2
        | .halted => s.trap e .dmaHalt (BitVec.ofNat 64 ch.val)
      | .lapStop rd r => if s.lapsRun then s else s.endWait e rd r 8
      | .lapStep rd => if s.lapsRun then s else s.endWait e rd s.lapStatus 8
      | .fence m d i => if en.fenceOpen m d then s else (s.onEng e fun en => if i then en.refetch else en).endWait e 0 0 1
      | .halt v =>
        if en.fenceOpen true true then s
        else if !en.impreciseHeld.isEmpty then s.endWait e 0 0 4
        else ((s.spend.onEng e fun en => en.tick (s.cyclesWith 4)).tally (unitOfEngine e) 0x100).endProgram e 0 0 0 v.toNat en.pc64
      | .tell _ => s
      | .vaultLoad _ _ _ => s
      | .access _ _ _ => s
      | .held => s

/-- The level sources of engine `e` (R83): LAP_COUNT, QUEUE_NONEMPTY and ERROR_QUEUE. -/
def State.levelHolds (s : State) (e : Nat) (b : Binding) : Bool :=
  match b.cls.val with
  | 2 => decide (b.arg ≤ s.lapCount)
  | 3 =>
    let q := bitsOf b.arg 12 0
    s.consumer q == .engine e && !s.flag F.Q_STAT.FAULTED [q] && decide (0 < s.qCount q)
  | 9 => s.flag F.ERRQ.EN [e] && decide (0 < s.qCount (s.fld F.ERRQ.QUEUE [e]))
  | _ => false

def State.levels (s : State) (e : Eng) : State :=
  if (s.eng e).bindings.isEmpty then s
  else s.onEng e fun en => en.bindings.foldl (fun en b => if s.levelHolds e.val b then en.setBit b.bit else en) en

def allEngines : List Eng := List.finRange 16

/-- One look at every engine: levels, then waits. -/
def State.lookAll (s : State) : State := allEngines.foldl (fun s e => (s.levels e).wake e) s

def State.waiters (s : State) : Nat := (allEngines.filter fun e => (s.eng e).waiting.isSome).length

/-- Ends of waits may satisfy other waits; at most sixteen engines wait. -/
def State.lookUntil (s : State) : Nat → State
  | 0 => s
  | n + 1 =>
    let s' := s.lookAll
    if s'.waiters = s.waiters then s' else s'.lookUntil n

/-- Some engine is bound to an event or waits. -/
def State.watching (s : State) : Bool := s.engines.toList.any fun en => en.waiting.isSome || !en.bindings.isEmpty

def State.look (s : State) : State := if s.watching then s.lookUntil 17 else s

/-! ### Alarms and seals (R306, R308) -/

def securityBase : Nat := 0x030000100000

/-- An alarm: its bit, a record, a host event where enabled, and the lap scratched under ALARM_HALT (R308). -/
def State.alarm (s : State) (b : Nat) : State :=
  let s := s.setReg .SEC_ALARM [] (s.reg .SEC_ALARM ||| BitVec.ofNat 64 (2 ^ b))
  let s := s.orBits F.REF_STAT.ALERTS 4
  let s := s.recordAuto 0x0C (BitVec.ofNat 64 b) 0
  let s := if (s.fld F.SEC_CTRL.EV_EN).testBit b then s.blockEvent (0x2000 + b) securityBase else s
  if s.flag F.SEC_CTRL.ALARM_HALT then s.scratch 0x0D else s

/-- Lines, by host address / 64, that a node of region `n` covers (R306). -/
def State.nodeCovers (s : State) (n level node line : Nat) : Bool :=
  decide (s.regionBase n ≤ line * 64) && s.lineOf n (line * 64) / 8 ^ level == node

/-- A range is sealed: a table entry, or the whole region where none is free; laps that used it are scratched (R306). -/
def State.seal (s : State) (n level node : Nat) (whole : Bool := false) : State :=
  let used := s.fab.vaultLap.any fun l => whole || s.nodeCovers n level node l
  let free := (List.range 32).find? fun j => !s.flag F.SEAL.VALID [j]
  let s := match whole, free with
    | false, some j =>
      s.setReg .SEAL [j] (BitVec.ofNat 64 (2 ^ 45 + level * 2 ^ 40 + n * 2 ^ 32 + node))
    | _, _ =>
      let s := s.put F.VR_STAT.STATE 3 [n]
      (List.range 32).foldl (fun s j => if s.fld F.SEAL.REGION [j] = n then s.setReg .SEAL [j] 0 else s) s
  let s := s.recordAuto 0x0C (BitVec.ofNat 64 n) (BitVec.ofNat 64 (level * 2 ^ 32 + node)) true
  let s := s.alarm 4
  if used then s.scratch 0x0D else s

/-- The alarms and seals that the command has left to carry out. -/
def State.carryOut (s : State) : State :=
  if s.vault.alarmDue.isEmpty && s.vault.sealDue.isEmpty then s
  else
    let as := s.vault.alarmDue
    let ns := s.vault.sealDue
    let s := { s with vault := { s.vault with alarmDue := [], sealDue := [] } }
    let s := as.foldl (fun s b => (if b = 3 then (s.count F.SEC_COUNTS.LINE_TAG).tally 24 0x305 else s).alarm b) s
    ns.foldl (fun s n => s.seal n.1 n.2.1 n.2.2) s

/-! ### Answers of the Referee (R377, R381) -/

/-- The header and payload of an answer (*Mailbox message header*); ARG is returned as it came (notes/assumptions 63). -/
def answerBytes (a : RefAnswer) : List Byte :=
  bytesOf 2 a.op.toNat ++ [a.status, a.flags] ++ bytesOf 2 a.payload.length ++ bytesOf 2 a.tag.toNat ++ bytesOf 8 a.arg.toNat ++
    a.payload

/-- The word that TELL returns: STATUS and payload bytes 0 to 6. -/
def tellWord (a : RefAnswer) : W64 := BitVec.ofNat 64 (a.status.toNat + joinBytes (a.payload.take 7) * 256)

/-- An answer that a failover has interrupted carries FAILOVER (R375). -/
def State.overtake (s : State) (a : RefAnswer) : RefAnswer × State :=
  if s.ref.overtaken.contains (a.path, a.tag) then
    ({ a with flags := a.flags ||| 1 },
      { s with ref := { s.ref with overtaken := s.ref.overtaken.filter fun x => x != (a.path, a.tag) } })
  else (a, s)

/-- The answer to the engine that waits in TELL: rd, or the trap ROLE_DENIED. -/
def State.answerTell (s : State) (e : Eng) (rd : Gpr) (a : RefAnswer) : State :=
  if a.status = 2 then s.trapOpen e .roleDenied else s.endWait e rd (tellWord a) 2

/-- The answer leaves on its path: a mailbox slot whose session still holds it, the management port, the sideband, or TELL. -/
def State.sendAnswer (s : State) (a : RefAnswer) : State :=
  let (a, s) := s.overtake a
  match a.path with
  | .mailbox k =>
    if s.ref.slots[k].owner.isNone then s
    else
      let bs := answerBytes a
      let s := (List.range 34).foldl (fun s i =>
        s.setReg .MBX_ANS [k.val, i] (BitVec.ofNat 64 (joinBytes ((bs.drop (8 * i)).take 8)))) s
      { s with ref := { s.ref with slots := s.ref.slots.set k { s.ref.slots[k] with state := 2 } } }
  | .smbus => { s with ref := { s.ref with smbusAns := answerBytes a } }
  | .sideband m =>
    { s with ref := { s.ref with
        answers := s.ref.answers ++ [a]
        vdmOutstanding := setBits s.ref.vdmOutstanding m m 0 } }
  | .tell e =>
    match (s.eng e).waiting with
    | some (.tell rd) =>
      if (s.eng e).frozen then s else s.answerTell e rd a
    | _ => { s with ref := { s.ref with answers := s.ref.answers ++ [a] } }

/-- What DUMP_ENGINE answers (R380). -/
def State.dumpBytes (s : State) (e : Eng) (part1 : Bool) : List Byte :=
  let en := s.eng e
  let ws : List W64 :=
    if part1 then
      [en.pc64, en.status s.mc.active, en.tcause, en.tpc, en.tval, en.evpend, en.runtime, (s.special e 4).getD 0] ++
        en.chans.toList.map Chan.stat
    else (List.finRange 32).map en.get
  ws.flatMap fun w => bytesOf 8 w.toNat

def dumpEng (arg : W64) : Eng := Fin.ofNat 16 (bitsOf arg 3 0)

/-- The engine is frozen, and the DUMP answered; PARTIAL where it is frozen within an instruction. -/
def State.dumpNow (s : State) (p : RPath) (tag : BitVec 16) (arg : W64) (partial_ : Bool) : State :=
  let e := dumpEng arg
  let s := s.onEng e fun en => { en with frozen := true, frozenPartial := en.frozenPartial || partial_ }
  s.sendAnswer
    { path := p, op := 7, status := 0, flags := if (s.eng e).frozenPartial then 2 else 0, tag := tag, arg := arg,
      payload := s.dumpBytes e (bit arg 8) }

/-- The DUMPs whose engines have reached an instruction boundary are answered (R381). -/
def State.serveDumps (s : State) : State :=
  let due := s.ref.dumps.filter fun d => (s.eng (dumpEng d.2.2)).waiting.isNone
  if due.isEmpty then s
  else
    let s : State := { s with ref := { s.ref with dumps := s.ref.dumps.filter fun d => !due.contains d } }
    due.foldl (fun s d => s.dumpNow d.1 d.2.1 d.2.2 false) s

/-- What follows every command that can end a wait, raise a level source or leave an alarm. -/
def State.settle (s : State) : State := s.carryOut.pumpBridges.look.serveDumps

/-- What follows the end of a program within a command: its completion item may be awaited. -/
def State.settleEnd (s was : State) (e : Eng) : State :=
  if (s.eng e).state = .idle ∧ (was.eng e).state ≠ .idle then s.settle else s

/-- An engine instruction: issued, or not (see noIssue). -/
def issue (e : Eng) (s : State) (body : State → State) : Out :=
  if s.canIssue e then .next ((body (s.fetchedWord e)).settleEnd s e) else .next ((s.noIssue e).settleEnd s e)

end Sys2Proof.Machine
end

