-- ==== Sys2Proof/Machine/Operands.lean ====
section
/-! DEFINITION. Operand forms of the engine instructions: immediates, displacements, OP32 fields, and the instruction words that
TVAL shows for an illegal one (R79, R80). -/

namespace Sys2Proof.Machine

/-- An immediate or displacement sign-extended to 64 bits. -/
def sext {n : Nat} (v : BitVec n) : W64 := v.signExtend 64
/-- An immediate zero-extended to 64 bits. -/
def zext {n : Nat} (v : BitVec n) : W64 := v.setWidth 64

/-- The shift count rb[5:0]. -/
def shiftCount (v : W64) : Nat := bitsOf v 5 0

/-- An instruction word of the register fields' formats: opcode [63:56], rd [55:51], ra [50:46], rb [45:41], and the rest. -/
def wordOf (op : Nat) (rd ra rb : Nat) (rest : Nat) : W64 :=
  BitVec.ofNat 64 (op * 2 ^ 56 + rd * 2 ^ 51 + ra * 2 ^ 46 + rb * 2 ^ 41 + rest)

/-- *Instruction formats*, M: S in [45], W in [44], DISP41 in [40:0]. -/
def wordM (op : Nat) (rd ra : Gpr) (sp w : Bool) (disp : BitVec 41) : W64 :=
  wordOf op rd.val ra.val 0 (b2n sp * 2 ^ 45 + b2n w * 2 ^ 44 + disp.toNat)

/-- *Instruction formats*, X: OP32 in [31:0]. -/
def wordX (op : Nat) (rd ra rb : Nat) (op32 : BitVec 32) : W64 := wordOf op rd ra rb op32.toNat

/-- The effective address: ra plus the displacement, modulo 2^64. -/
def Engine.ea {n : Nat} (en : Engine) (ra : Gpr) (disp : BitVec n) : W64 := en.get ra + sext disp

/-- A branch target: displacements of formats J and C count instructions from the branch itself (R80). -/
def Engine.target {n : Nat} (en : Engine) (disp : BitVec n) : W64 := en.pc64 + 8 * sext disp

/-- The pair of registers rd and rd + 1 of LDQ and STQ, where rd is even. -/
def pairHi (rd : Gpr) : Gpr := rd + 1

end Sys2Proof.Machine
end

