-- ==== Sys2Proof/Machine/Power.lean ====
section
/-! DEFINITION. Power-domain requests: ranks, sequences and the latch, and what a running lap asks of a domain (R333 to R338). -/

namespace Sys2Proof.Machine

/-- The tower of a tower domain. -/
def towerOfPd (d : Nat) : Option Nat := if d < 8 then none else some ((d - 8) / 14)

/-- The domain has a DEEP state: relay groups, memory quadrants, configuration layers and logic halves (*Power domains*). -/
def hasDeep (d : Nat) : Bool := decide (8 ≤ d) && (d - 8) % 14 != 2 && (d - 8) % 14 != 13

/-- A DEEP request to a domain that has no DEEP state is carried out as SLEEP (R334). -/
def fitTarget (d target : Nat) : Nat := if target = 3 ∧ !hasDeep d then 2 else target

/-- States ranked RUN, SLEEP, DEEP, OFF, from highest to lowest. -/
def pdRank (st : Nat) : Nat := match st with | 1 => 3 | 2 => 2 | 3 => 1 | _ => 0

/-- PD00 and PD07 cannot be switched (R334). -/
def pdFixed (d : Nat) : Bool := d == 0 || d == 7

/-- The tower of the domain lacks stack power (R340). -/
def State.noStack (s : State) (d : Nat) : Bool :=
  match towerOfPd d with
  | some t => !s.ref.stackPower.getLsbD t
  | none => false

/-- The bank voltage strap of target bank `d - 2` is reserved, which keeps its domain OFF (R382). -/
def State.bankvBad (s : State) (d : Nat) : Bool :=
  2 ≤ d && d ≤ 5 && decide (4 < bitsOf s.ref.straps.bankv (3 * (d - 2) + 2) (3 * (d - 2)))

/-- A memory quadrant of a tower whose layer L1 is retired: OFF until power-on reset (R369). -/
def State.layerOff (s : State) (d : Nat) : Bool :=
  match towerOfPd d with
  | some t => decide (3 ≤ (d - 8) % 14 ∧ (d - 8) % 14 ≤ 6) && (s.fld F.LAYER_STAT.RETIRED [t]).testBit 1
  | none => false

def State.latchValid (s : State) (d : Nat) : Bool := s.flag F.PD_STAT.LATCH_VALID [d]
def State.latched (s : State) (d : Nat) : Nat := s.fld F.PD_STAT.LATCHED [d]

/-- The status word's [7:0]: STATE, PENDING_ON, PENDING_OFF and BUSY. -/
def pdWord (state : Nat) (on off busy : Bool) : Nat := state + 8 * b2n on + 16 * b2n off + 32 * b2n busy

/-- Write the present state, the target, whether a sequence runs, and the latch. -/
def State.setPd (s : State) (d now target : Nat) (busy : Bool) (latch : Option Nat) : State :=
  let s := s.put F.PD_STAT.NOW now [d]
  let s := s.put F.PD_STAT.LATCH_VALID (b2n latch.isSome) [d]
  let s := s.put F.PD_STAT.LATCHED (latch.getD 0) [d]
  let on := match latch with | some l => decide (pdRank target < pdRank l) | none => false
  s.put F.PD_STAT.WORD (pdWord target on (latch.isSome && !on) busy) [d]

/-- A sequence of domain `d` has completed, or was not needed: PWR_DONE. -/
def State.pwrDone (s : State) (d : Nat) : State := s.edge 7 fun a => bitsOf a 5 0 == d

/-- The domains of tower `t` in the order in which they come up. -/
def bringUpOrder (t : Nat) : List Nat := ([2, 3, 4, 5, 6, 7, 8, 9, 10, 11, 12, 13, 0, 1].map fun k => 8 + 14 * t + k)

/-- Every domain of the tower that may run has come up. -/
def State.towerUp (s : State) (t : Nat) : Bool := (bringUpOrder t).all fun d => s.layerOff d || (!s.pdBusy d && s.pd d != 0)

/-- A sequence of domain `d` to `target` starts; toward DEEP or OFF its fences are raised (R220, R337). -/
def State.startSequence (s : State) (d target : Nat) : State :=
  let s := if target = 0 ∨ target = 3 then s.raiseFences d else s
  s.setPd d (s.pd d) target true none

/-- A request of domain `d` for state `target` (R337, R340). -/
def State.pdRequest (s : State) (d target : Nat) : State :=
  let target := fitTarget d target
  if pdFixed d || ((s.bankvBad d || s.layerOff d) && target != 0) then s
  else if s.noStack d then s.setPd d 0 0 false (some target)
  else if s.pdBusy d then
    if target = s.pdTarget d then s.setPd d (s.pd d) (s.pdTarget d) true none
    else s.setPd d (s.pd d) (s.pdTarget d) true (some target)
  else if target = s.pd d then s.pwrDone d
  else s.startSequence d target

/-- The domain status word that PWR returns for domain `d`; `refused` where the request was one to PD00 or PD07. -/
def State.pdReply (s : State) (d : Nat) (refused : Bool) : W64 := BitVec.ofNat 64 (s.fld F.PD_STAT.WORD [d] + 128 * b2n refused)

/-- The domain is OFF, or its running sequence or latched request leads to OFF (R338). -/
def State.offBound (s : State) (d : Nat) : Bool :=
  s.pd d == 0 || (s.pdBusy d && s.pdTarget d == 0) || (s.latchValid d && s.latched d == 0)

/-- The domain serves a running lap now. -/
def State.serves (s : State) (d : Nat) : Bool := s.pd d == 1 && !s.pdBusy d

/-- A need of the running lap finds domains that do not serve it: the lap is scratched where one is OFF or on its way there, and
RUN is requested of the others (R338). -/
def State.lapWants (s : State) (ds : List Nat) (w : Option Where) : State :=
  if ds.any s.offBound then s.scratch 9 w
  else ds.foldl (fun s d => if s.serves d then s else s.pdRequest d 1) s

end Sys2Proof.Machine
end

