-- ==== Sys2Proof/Machine/MemBase.lean ====
section
/-! DEFINITION. Design memory at port B: verdicts outstanding, ownership and layers held in reset (R158 to R160, R166, R388). -/

namespace Sys2Proof.Machine

/-- Words of design memory that have received data of lines whose verdicts are outstanding (R166, R303). -/
def State.carryVerdicts (s : State) (a n : Nat) (ls : List Nat) : State :=
  if spaceOf a ≠ .memory then s
  else
    let mine (p : Nat × Nat) : Bool := decide (a / 16 ≤ p.1 ∧ p.1 < a / 16 + n)
    { s with vault := { s.vault with
      bankVerdicts := (s.vault.bankVerdicts.filter fun p => !mine p) ++
        (List.range n).flatMap fun i => ls.map fun l => (a / 16 + i, l) } }

/-! ### Ownership (R158 to R160) -/

/-- Who makes a port B request: an owner's kind, or the image loader, which is none. -/
inductive Requester where
  | engine (e : Nat) | host | queueManager | loader
  deriving DecidableEq, Repr

def requesterOf (rq : Rq) : Requester := match rq.agent with | .engine e => .engine e.val | .host _ _ => .host

def State.ownerIs (s : State) (t b : Nat) (r : Requester) : Bool :=
  match s.fld F.BANK_OWNER.KIND [t, b], r with
  | 1, .engine e => s.fld F.BANK_OWNER.ENGINE [t, b] == e
  | 2, .queueManager => true
  | 3, .host => true
  | _, _ => false

/-- The answer of the bank's owner rules to a port B access under role `role` (R159, R160). -/
def State.portBAllows (s : State) (t b : Nat) (r : Requester) (role : Role) (write : Bool) : Resp :=
  if s.fld F.BANK_OWNER.KIND [t, b] = 0 then
    if !s.lapsRun then .ok
    else if write then .bankNotOwned
    else if role = .operator then .ok else .roleDenied
  else if s.ownerIs t b r then .ok else .bankNotOwned

/-- The logic of layer `n` of tower `t` is held in reset (R388), and so with a tower reset of the tower (R389). -/
def State.layerHeld (s : State) (t n : Nat) : Bool :=
  s.ref.resets.any fun r => r.tower.val == t && !r.waitsCommit && (r.layer == some n || r.layer == none)
def State.towerHeld (s : State) (t : Nat) : Bool := s.ref.resets.any fun r => r.tower.val == t && r.layer == none

end Sys2Proof.Machine
end

