-- ==== Sys2Proof/Machine/Fabric.lean ====
section
/-! DEFINITION. The handshake fabric: contexts and their delivery, cells and their sources, steps (R29 to R51), port tiles,
exports and imports. -/

namespace Sys2Proof.Machine

/-! ### Context words (R32, R35) -/

/-- The half of a context word that cell `c` uses, and its fields (*Context word half*). -/
def halfOf (w : Quad) (c : Nat) : W64 := wordAt w (c % 2)
def rdIdx (h : W64) : Nat := bitsOf h 63 60
def wrIdx (h : W64) : Nat := bitsOf h 59 56
def holdAct (h : W64) : Nat := bitsOf h 55 54
def wireSel (h : W64) : Nat := bitsOf h 53 52
def exportSel (h : W64) : Nat := bitsOf h 51 50
def ssWe (h : W64) : Bool := bit h 49
def mreq (h : W64) : Bool := bit h 48
/-- The select of input `i`, input a being 0. -/
def selOf (h : W64) (i : Nat) : Nat := bitsOf h (12 + 7 * i) (6 + 7 * i)
def funcOf (h : W64) : Nat := bitsOf h 5 0
def selects (h : W64) : List Nat := (List.range 6).map (selOf h)

/-- Cell `c` of cluster `k` owns an outgoing wire (R30). -/
def ownsWire (k c : Nat) : Bool :=
  decide (c < 8) || (c == 8 && (k % 8 == 0 || k % 8 == 7)) || (c == 9 && (k / 8 == 0 || k / 8 == 7))

/-- A half that R35 calls invalid, in cell `c` of cluster `k`. -/
def invalidHalf (k c : Nat) (h : W64) : Bool :=
  (selects h).any (fun n => decide (124 ≤ n) || n == c) || wireSel h == 3 || (wireSel h != 0 && !ownsWire k c)

/-! ### Keys -/

/-- A cell: logical tile × 1024 + cell number 16k + c. A cell pair: logical tile × 512 + 8k + pair. -/
def cellKey (x k c : Nat) : Nat := x * 1024 + 16 * k + c
def pairKey (x k p : Nat) : Nat := x * 512 + 8 * k + p
/-- A stream port: logical tile × 2 + port. -/
def portKey (x p : Nat) : Nat := x * 2 + p

/-! ### The step in progress -/

def State.step_ (s : State) (t : Nat) : Nat := s.fld F.TLC_STAT.STEP [t]
def State.stepIsOpen (s : State) (t : Nat) : Bool := s.fab.stepOpen.contains t
/-- The steps of the lap are over in tower `t`: its last step has completed, or it has no tiles in use. -/
def State.towerDone (s : State) (t : Nat) : Bool := s.fab.stepsDone.contains t || (s.inUseOf t).isEmpty
def State.lapFold (s : State) : Nat := s.kindCount s.kind + 1

/-- The words in the credit queue of a cell pair, oldest first. -/
def State.queueOf (s : State) (pk : Nat) : List CtxEntry := s.fab.creditQ.filter fun e => e.pair == pk
def State.headOf (s : State) (pk : Nat) : Option CtxEntry := s.fab.creditQ.find? fun e => e.pair == pk

/-- The half that cell `c` has taken up in the step its tower runs. -/
def State.context (s : State) (x k c : Nat) : Option W64 :=
  if s.stepIsOpen (towerOfTile x) then (s.headOf (pairKey x k (c / 2))).map fun e => halfOf e.word c else none

def State.firedCell (s : State) (ck : Nat) : Option Fired := s.fab.fired.find? fun f => f.cell == ck

/-! ### Sources (R33, R34) -/

/-- The data token on the outgoing wire of a cell, if it carries one (R44: a parked wire carries none). A wire that routes input a
through carries its token once the cell has fired (notes/assumptions 80). -/
def State.wireValue (s : State) (x k c : Nat) : Option Bool :=
  match s.context x k c, s.firedCell (cellKey x k c) with
  | some h, some f => if wireSel h = 1 then some f.out else if wireSel h = 2 then some f.a else none
  | _, _ => none

/-- An edge source: a valid 0 beyond the edge of the die. Rows grow northward and columns eastward (notes/assumptions 30). -/
def State.edgeValue (s : State) (x : Nat) (dRow dCol : Int) (k c : Nat) : Option Bool :=
  let r : Int := tileRow x + dRow
  let cl : Int := tileCol x + dCol
  if r < 0 ∨ 63 < r ∨ cl < 0 ∨ 63 < cl then some false
  else s.wireValue (tileNo (tileDie x) r.toNat cl.toNat) k c

/-- The tile that faces `x` in the other logic layer of its tower. -/
def facing (x : Nat) : Nat := tileNo (if tileDie x % 2 = 0 then tileDie x + 1 else tileDie x - 1) (tileRow x) (tileCol x)

/-- The import slot of a cell in the active context slot of the step. -/
def State.importValue (s : State) (x cell slot : Nat) : Option Bool :=
  (s.fab.imports.find? fun i => i.tile == x && i.cell == cell && i.slot == slot).map fun i => i.value

def State.memReadData (s : State) (x : Nat) : Option Quad :=
  (s.fab.portReads.reverse.find? fun r => bitsOf (Sparse.read s.fab.portBind r.bank) 0 0 == 1 &&
    tileNo (2 * (r.bank / 256) + bitsOf (Sparse.read s.fab.portBind r.bank) 1 1)
      (bitsOf (Sparse.read s.fab.portBind r.bank) 13 8) (bitsOf (Sparse.read s.fab.portBind r.bank) 21 16) == x).bind
    fun r => r.data

/-- Source `n` for cell `c` of cluster `k` of tile `x`: its value when it carries a data token for the step
(*Input select sources*). -/
def State.source (s : State) (x k c n : Nat) : Option Bool :=
  let cell := 16 * k + c
  if n < 16 then (s.firedCell (cellKey x k n)).map fun f => f.out
  else if n < 32 then some (s.fab.hold.contains (cellKey x k (n - 16)))
  else if n < 48 then s.wireValue x (8 * (k / 8) + (n - 32) / 2) ((n - 32) % 2)
  else if n < 64 then s.wireValue x (8 * ((n - 48) / 2) + k % 8) (2 + (n - 48) % 2)
  else if n < 72 then s.edgeValue x 0 (-1) (8 * (n - 64) + 7) 8
  else if n < 80 then s.edgeValue x 0 1 (8 * (n - 72)) 8
  else if n < 88 then s.edgeValue x 1 0 (n - 80) 9
  else if n < 96 then s.edgeValue x (-1) 0 (56 + (n - 88)) 9
  else if n < 100 then s.wireValue (facing x) k (4 + (n - 96))
  else if n < 116 then
    (s.context x k (n - 100)).map fun h => s.stateBit x (256 * k + 16 * (n - 100) + rdIdx h)
  else match n with
    | 116 => (s.presented x 0).map fun i => bit i.item (k + 64 * (c % 8))
    | 117 => (s.presented x 1).map fun i => bit i.item (k + 64 * (c % 8))
    | 118 => s.importValue x cell (s.stepSlot (s.step_ (towerOfTile x)))
    | 119 => (s.memReadData x).map fun q => bit q (cell % 128)
    | 120 => some false
    | 121 => some true
    | 122 => some (s.fab.present.contains (portKey x 0))
    | 123 => some (s.fab.present.contains (portKey x 1))
    | _ => none

def allSome : List (Option Bool) → Option (List Bool)
  | [] => some []
  | none :: _ => none
  | some b :: rest => (allSome rest).map (b :: ·)

/-- The six inputs of a cell once all its selected sources are valid. -/
def State.inputs (s : State) (x k c : Nat) (h : W64) : Option (List Bool) :=
  allSome ((selects h).map (s.source x k c))

/-- The function-table entry of a cluster, by physical tile. -/
def State.funcEntry (s : State) (x k n : Nat) : W64 := Sparse.read s.fab.ftable (s.phys x * 4096 + 64 * k + n)

/-- The cell's output: bit i of its entry, i formed from its inputs a to f (R29). -/
def lookup (entry : W64) (inputs : List Bool) : Bool := bit entry (natOfBits inputs)

/-! ### Waits (R51) -/

/-- A cell that has taken up its context waits on source `n`. -/
def State.waitsOn (s : State) (x k c n : Nat) : Bool :=
  match s.context x k c with
  | none => false
  | some h => (s.firedCell (cellKey x k c)).isNone && (selects h).contains n && (s.source x k c n).isNone

def cells : List (Nat × Nat) := (List.range 64).flatMap fun k => (List.range 16).map fun c => (k, c)

/-- Some cell of tower `t` waits on one of the sources in `ns`. -/
def State.towerWaits (s : State) (t : Nat) (ns : List Nat) : Bool :=
  s.stepIsOpen t && (s.inUseOf t).any fun x => cells.any fun kc => ns.any fun n => s.waitsOn x kc.1 kc.2 n

/-- A pair in use of the tower has no word for the step that its lap controller would start. -/
def State.waitsContext (s : State) (t : Nat) : Bool :=
  s.fab.phase == .steps && !s.stepIsOpen t && !s.towerDone t &&
    (s.inUseOf t).any fun x => (List.range 512).any fun p => (s.headOf (x * 512 + p)).isNone

/-! ### Context delivery (R45 to R49) -/

/-- Step `i` counted on from the first step of the lap at schedule entry `p`: the lap kind and the step within it. -/
def State.stepAhead (s : State) : Nat → Nat → Nat → Nat × Nat
  | 0, p, i => (s.schedKind p, i)
  | n + 1, p, i =>
    let f := s.kindCount (s.schedKind p) + 1
    if i < f then (s.schedKind p, i) else s.stepAhead n (if p ≥ s.lastEntry then 0 else p + 1) (i - f)

/-- The number, counted on from the lap's first step, of the first step that tower `t` has not completed. -/
def State.firstOpenStep (s : State) (t : Nat) : Nat :=
  if s.fab.phase != .steps then 0
  else if s.fab.stepsDone.contains t then s.lapFold
  else s.step_ t

/-- The kind, step and context slot of the next word that the configuration layer sends to a pair of tower `t` that holds `n`
words. -/
def State.nextWord (s : State) (t n : Nat) : Nat × Nat :=
  s.stepAhead 3 s.pos (s.firstOpenStep t + n)

/-- The word would lie beyond the lap in progress. -/
def State.beyondLap (s : State) (t n : Nat) : Bool := decide (s.lapFold ≤ s.firstOpenStep t + n)

/-- An activation is pending for the boundary that ends the lap in progress (R48, R117). -/
def State.activationNext (s : State) : Bool :=
  s.flag F.LOAD_STAT.ACT_PENDING &&
    (s.reg .ACT_AT == 0 || s.flag F.LOAD_STAT.LATE || s.reg .ACT_AT == s.lapNext)

/-- The word for the next lap's step 0 may not go yet: an activation comes between, or step 0 of a lap of fold depth 1 has not taken
up its own word (R48). -/
def State.acrossHeld (s : State) (t n : Nat) : Bool :=
  s.beyondLap t n && (s.activationNext || (s.lapFold == 1 && s.firstOpenStep t == 0 && !s.stepIsOpen t))

/-- A frame is marked BAD. -/
def State.frameBad (s : State) (pt slot : Nat) : Bool := s.fab.badFrames.contains (pt * 36 + s.slotOf pt slot)

/-- The frame at a physical slot, numbered physical tile × 36 + slot, is marked BAD and entered in FRAME_BAD, with a record and
an event (R364). -/
def State.markBadKey (s : State) (key : Nat) : State :=
  let pt := key / 36
  let t := pt / 4160 / 2
  if s.fab.badFrames.contains key then s
  else
    let s := { s with fab := { s.fab with badFrames := s.fab.badFrames ++ [key] } }
    let word : W64 := BitVec.ofNat 64 (2 ^ 63 + (if pt / 4160 % 2 = 0 then 2 else 5) * 2 ^ 57 + key % (4160 * 36))
    let s := match (List.range 16).find? fun i => !s.flag F.FRAME_BAD.VALID [t, i] with
      | some i => s.setReg .FRAME_BAD [t, i] word
      | none => s
    let s := s.recordAuto 0x0E (BitVec.ofNat 64 key) 0
    s.blockEvent (0x3300 + t) (0x030001300000 + t * 0x1000000)

def State.markBad (s : State) (pt slot : Nat) : State := s.markBadKey (pt * 36 + s.slotOf pt slot)

/-- The frame is good again: it has been written whole or rewritten (R364). -/
def State.clearBad (s : State) (pt pslot : Nat) : State :=
  let t := pt / 4160 / 2
  let key := pt * 36 + pslot
  let s := { s with fab := { s.fab with badFrames := listDrop s.fab.badFrames key } }
  let layer := if pt / 4160 % 2 = 0 then 2 else 5
  let keep := ((List.range 16).map fun i => s.reg .FRAME_BAD [t, i]).filter fun v =>
    bit v 63 && !(bitsOf v 59 57 == layer && bitsOf v 17 0 == key % (4160 * 36))
  (List.range 16).foldl (fun s i => s.setReg .FRAME_BAD [t, i] (keep.getD i 0)) s

/-- Where a cause raised by a cluster of a tile arose, in step `n`. -/
def whereAt (x k n : Nat) : Where := { tower := towerOfTile x, step := n, cluster := some (x, k) }

/-- The delivery of the next context word to a cell pair. A word sent ahead for the next lap that is invalid or uncorrectable scratches
the lap in progress (notes/assumptions 81). -/
def State.deliverContext (s : State) (x k p : Nat) (ecc : Ecc) : State :=
  let t := towerOfTile x
  let pk := pairKey x k p
  let n := (s.queueOf pk).length
  let slot := s.kindFirst (s.nextWord t n).1 + (s.nextWord t n).2
  let pt := s.phys x
  let w := whereAt x k (s.nextWord t n).2
  if !s.lapsRun || !s.tileInUse x || 2 ≤ n || s.layerHeld t (if tileDie x % 2 = 0 then 2 else 5) then s
  else if s.acrossHeld t n then s
  else if !s.serves (pdCfg (tileDie x)) then s.lapWants [pdCfg (tileDie x)] (some w)
  else if s.frameBad pt slot then s.scratch 4 (some w)
  else
    let word := s.frameWord pt slot (8 * k + p)
    match ecc with
    | .uncorrectable => (s.markBad pt slot).scratch 4 (some w)
    | _ =>
      let s := if ecc = .corrected then s.tally t 0x00B else s
      if invalidHalf k (2 * p) (halfOf word 0) || invalidHalf k (2 * p + 1) (halfOf word 1) then s.scratch 11 (some w)
      else { s with fab := { s.fab with creditQ := s.fab.creditQ ++ [⟨t, pk, (s.nextWord t n).2, word⟩] } }

/-- The configuration layer of the pair's die sends the next word of its cell pair. Words go only to tiles in use, while laps run
(notes/assumptions 31). -/
def execContextDelivery (x : Tile) (k : Fin 64) (pair : Fin 8) (ecc : Ecc) (s : State) : Out :=
  .next (s.deliverContext (tileKey x) k.val pair.val ecc).settle

/-! ### Imports (R42, R268 to R270, R400 to R402) -/

/-- *Pins* and *Imports* of the pin map: entries of a pin and of an import. -/
def pinEntry (m : PinMap) (p : Nat) : W64 := Sparse.read m.pins p
def outEntry (m : PinMap) (o : Nat) : W64 := Sparse.read m.outputs o
/-- The tile and cell that an import or export entry names, and its active context slot. -/
def entryTile (e : W64) : Nat := tileNo (bitsOf e 2 0) (bitsOf e 8 3) (bitsOf e 14 9)
def entryCell (e : W64) : Nat := 16 * bitsOf e 20 15 + bitsOf e 24 21
def entrySlot (e : W64) : Nat := bitsOf e 29 25

/-- The VALID pins whose IN names input signal `g`. -/
def pinsOfSignal (m : PinMap) (g : Nat) : List Nat :=
  (List.range 512).filter fun p => bit (pinEntry m p) 63 && bit (pinEntry m p) 9 && bitsOf (pinEntry m p) 8 0 == g

/-- The function of a pin as PIN_CFG holds it. -/
def State.pinFunc (s : State) (p : Nat) : Nat := s.fld F.PIN_CFG.FUNC [p]

/-- The one DESIGN pin that feeds input signal `g`; a signal that no pin or several pins name has none (R400). -/
def State.signalPin (s : State) (g : Nat) : Option Nat :=
  match (pinsOfSignal s.persona.pinActive g).filter fun p => s.pinFunc p == 1 with
  | [p] => some p
  | _ => none

/-- The bank of a pin: pins 128b to 128b + 127. -/
def bankOfPin (p : Nat) : Nat := p / 128

/-- A token for an import slot; a second one for an occupied slot scratches the lap (R42). -/
def State.addImport (s : State) (i : Import) : State :=
  if s.fab.imports.any fun j => j.tile == i.tile && j.cell == i.cell && j.slot == i.slot then
    s.scratch 11 (some { tower := towerOfTile i.tile, step := s.step_ (towerOfTile i.tile) })
  else { s with fab := { s.fab with imports := s.fab.imports ++ [i] } }

/-- Import tokens of the pin map for the entries that `want` selects; a signal's level comes from `level`. -/
def State.pinTokens (s : State) (want : W64 → Bool) (level : Nat → Bool) : State :=
  (s.persona.pinActive.imports.filter want).foldl (fun s e =>
    let g := bitsOf e 56 48
    let v := match s.signalPin g with | some p => level p | none => bit s.persona.pinActive.defaults g
    s.addImport ⟨entryTile e, entryCell e, entrySlot e, v⟩) s

/-- The entry's signal is fed from a pin of a bank in asynchronous sampling. -/
def State.asyncEntry (s : State) (e : W64) : Bool :=
  match s.signalPin (bitsOf e 56 48) with
  | some p => s.asyncBank (bankOfPin p)
  | none => false

/-- The import group of the token tables numbered `g`, and the entries that name it. -/
def importGroup (tt : TokenTables) (g : Nat) : Option W64 := tt.importGroups[g]?
def importsOf (tt : TokenTables) (g : Nat) : List W64 := tt.imports.filter fun e => bitsOf e 47 32 == g
def groupBits (e : W64) : Nat := bitsOf e 48 39
def groupTower (e : W64) : Nat := bitsOf e 38 37
def groupSlot (e : W64) : Nat := bitsOf e 36 32

/-- The import store's bank for a group: 0 the lap in progress, 1 the lap after it; none for any other LAP or ATTEMPT (R270). -/
def State.importBank (s : State) (lap : BitVec 32) (attempt : BitVec 16) : Option Nat :=
  if !s.lapsRun then none
  else if lap.toNat = s.lapNext.toNat % 2 ^ 32 ∧ attempt = s.chain.attempt then some 0
  else if lap.toNat = (s.lapNext.toNat + 1) % 2 ^ 32 ∧ attempt = 0 then some 1
  else none

/-- A group arrives that scratches its lap: at once where that lap can be scratched, else when it begins (notes/assumptions 82). -/
def State.badGroup (s : State) (bank : Nat) (w : Option Where) : State :=
  if bank = 0 ∧ s.lapLive ∧ !s.fab.committing then s.scratch 11 w
  else { s with chain := { s.chain with importFault := listAdd s.chain.importFault bank } }

/-- A token group arrives (R270). -/
def State.acceptGroup (s : State) (g : TokenGroup) : State :=
  match s.importBank g.lap g.attempt with
  | none => s.count F.CHAIN_STAT.STALE
  | some b =>
    match importGroup s.persona.tokens g.dgroup.toNat with
    | none => s.badGroup b none
    | some e =>
      if groupBits e ≠ g.bits.toNat ∨ s.chain.storedGroups.contains (g.dgroup.toNat, b, 0) then
        s.badGroup b (some { tower := groupTower e, step := s.step_ (groupTower e) })
      else
        let toks := (importsOf s.persona.tokens g.dgroup.toNat).map fun i =>
          (⟨entryTile i, entryCell i, entrySlot i, bit g.data (bitsOf i 56 48)⟩ : Import)
        let s := { s with chain := { s.chain with storedGroups := s.chain.storedGroups ++ [(g.dgroup.toNat, b, 0)] } }
        let s := s.tally (groupTower e) 0x011 g.bits.toNat
        if b = 0 then { s with fab := { s.fab with imports := s.fab.imports ++ toks } }
        else { s with fab := { s.fab with importsNext := s.fab.importsNext ++ toks } }

/-! ### Go (R46, R50, R402) -/

/-- Import entries of asynchronous signals for the step that tower `t` would start. -/
def State.asyncImports (s : State) (t : Nat) : List W64 :=
  s.persona.pinActive.imports.filter fun e =>
    entrySlot e == s.stepSlot (s.step_ t) && towerOfTile (entryTile e) == t && s.asyncEntry e

/-- The domains that a step of tower `t` needs: the halves in which its tiles in use lie, and the banks whose pads it samples. -/
def State.stepDomains (s : State) (t : Nat) : List Nat :=
  ((s.inUseOf t).map fun x => pdLogic (tileDie x) (s.pcol t (tileRow x) (tileCol x))).eraseDups ++
    (s.asyncImports t).filterMap fun e => (s.signalPin (bitsOf e 56 48)).map fun p => pdBank (bankOfPin p)

/-- A tile in use has been declared failed (R368). -/
def State.failedTile (s : State) (x : Nat) : Bool :=
  bit (s.reg (if tileDie x % 2 = 0 then .TFAIL_L3 else .TFAIL_L4) [tileDie x / 2, tileRow x]) (tileCol x)

/-- The step number that the tower's lap controller would start. -/
def State.goStep (s : State) (t : Nat) : Nat := s.step_ t

/-- Go for the next step of tower `t`. -/
def State.stepGo (s : State) (t : Nat) (pads : BitVec 512) : State :=
  let n := s.goStep t
  let w : Where := { tower := t, step := n }
  let heads := (s.inUseOf t).flatMap fun x => (List.range 512).filterMap fun p => s.headOf (x * 512 + p)
  if s.fab.phase != .steps || s.stepIsOpen t || s.towerDone t || s.fab.firstCause != 0 then s
  else if (s.stepDomains t).any fun d => !s.serves d then s.lapWants (s.stepDomains t) (some w)
  else if s.waitsContext t then s
  else if heads.any fun e => e.tag != n then s.scratch 11 (some w)
  else
    let ports := ((s.inUseOf t).flatMap fun x => [portKey x 0, portKey x 1]).filter fun k => (s.presented (k / 2) (k % 2)).isSome
    let s := { s with
      pads := pads
      fab := { s.fab with
        stepOpen := listAdd s.fab.stepOpen t
        present := s.fab.present.filter (fun k => towerOfTile (k / 2) != t) ++ ports } }
    let s := s.put F.TLC_STAT.PHASE 2 [t]
    s.pinTokens (fun e => entrySlot e == s.stepSlot n && towerOfTile (entryTile e) == t && s.asyncEntry e) (bit pads)

def execStepGo (t : Tower) (pads : BitVec 512) (s : State) : Out := .next (s.stepGo t.val pads).settle

/-! ### Cells (R29, R33) -/

/-- A cell fires once all six of its sources are valid. An uncorrectable error in what it reads, a poisoned item included, raises
UNCORRECTABLE (R61, R205). -/
def State.cellFire (s : State) (x k c : Nat) (wrong : Bool) : State :=
  let ck := cellKey x k c
  match s.context x k c with
  | none => s
  | some h =>
    if (s.firedCell ck).isSome || !s.tileInUse x || s.fab.phase != .steps then s
    else if wrong then s.scratch 4 (some (whereAt x k (s.step_ (towerOfTile x))))
    else match s.inputs x k c h with
      | none => s
      | some ins =>
        let uses := fun n => (selects h).contains n
        let bad := [0, 1].any fun p => uses (116 + p) && ((s.presented x p).map fun i => i.poison).getD false
        if bad then s.scratch 4 (some (whereAt x k (s.step_ (towerOfTile x))))
        else
          let read := ([0, 1].filter fun p => uses (116 + p)).map (portKey x)
          let lines := ([0, 1].filter fun p => uses (116 + p)).flatMap fun p => ((s.presented x p).map fun i => i.lines).getD []
          { s with fab := { s.fab with
              fired := s.fab.fired ++ [⟨ck, lookup (s.funcEntry x k (funcOf h)) ins, ins.headD false⟩]
              consumed := read.foldl listAdd s.fab.consumed
              polled := s.fab.polled || uses 122 || uses 123
              vaultLap := lines.foldl listAdd s.fab.vaultLap } }

def execCellFire (x : Tile) (k : Fin 64) (c : Fin 16) (bad : Bool) (s : State) : Out :=
  .next (if bad then (s.cellFire (tileKey x) k.val c.val bad).settle else s.cellFire (tileKey x) k.val c.val bad)

/-! ### Completion of a step (R36 to R40, R50, R269) -/

/-- The cells of tower `t` that have fired, in order of tile and cell number, each with its half. -/
def State.firedIn (s : State) (t : Nat) : List (Fired × W64) :=
  (s.inUseOf t).flatMap fun x => cells.filterMap fun kc =>
    match s.firedCell (cellKey x kc.1 kc.2), s.context x kc.1 kc.2 with
    | some f, some h => some (f, h)
    | _, _ => none

/-- The hold register's value at the end of the step. -/
def holdNext (h : W64) (f : Fired) (old : List Nat) : List Nat :=
  match holdAct h with
  | 0 => old
  | 1 => if f.out then listAdd old f.cell else listDrop old f.cell
  | 2 => if f.a then listAdd old f.cell else listDrop old f.cell
  | _ => listDrop old f.cell

/-- The cell's write of a next-state bit of its slice, with the mask (R31, R37). -/
def State.latchState (s : State) (f : Fired) (h : W64) : State :=
  if !ssWe h then s
  else
    let n := 16 * (f.cell % 1024) + wrIdx h
    let key := stateKey (s.phys (f.cell / 1024)) (n / 128)
    { s with fab := { s.fab with
        nextState := Sparse.write s.fab.nextState key
          (setBits (Sparse.read s.fab.nextState key) (n % 128) (n % 128) (b2n f.out))
        wmask := Sparse.write s.fab.wmask key (setBits (Sparse.read s.fab.wmask key) (n % 128) (n % 128) 1) } }

/-- The bit is packed into the outbound item of a stream port (R40). -/
def addExport (cs : List Collector) (x p : Nat) (v : Bool) : List Collector :=
  if cs.any fun c => c.flowTile == x && c.port == p then
    cs.map fun c => if c.flowTile = x ∧ c.port = p then { c with bits := c.bits ++ [v] } else c
  else cs ++ [⟨x, p, [v]⟩]

def State.latchExport (s : State) (f : Fired) (h : W64) : State :=
  if exportSel h = 1 ∨ exportSel h = 2 then
    { s with fab := { s.fab with collectors := addExport s.fab.collectors (f.cell / 1024) (exportSel h - 1) f.out } }
  else s

/-- The bank whose port A is bound to logical tile `x`: tower × 256 + bank. -/
def State.bankOfTile (s : State) (x : Nat) : Option Nat :=
  (List.range 256).findSome? fun b =>
    let v := Sparse.read s.fab.portBind (256 * towerOfTile x + b)
    if bit v 0 && tileNo (2 * towerOfTile x + bitsOf v 1 1) (bitsOf v 13 8) (bitsOf v 21 16) == x
    then some (256 * towerOfTile x + b) else none

/-- The tile's memory request: the outputs of its cells with MREQ set (R38). -/
def memRequest (fs : List (Fired × W64)) (x : Nat) : Option (BitVec 1024) :=
  let ms := fs.filter fun p => p.1.cell / 1024 == x && mreq p.2
  if ms.isEmpty then none
  else some (ms.foldl (fun v p => if p.1.out then setBits v (p.1.cell % 1024) (p.1.cell % 1024) 1 else v) 0)

/-- A port tile's request is issued: a write is held in the commit buffer, a read waits for its data (R38, R163, R164). An earlier read
whose verdict is still to come stays outstanding (R53). -/
def State.portRequest (s : State) (b : Nat) (r : BitVec 1024) : State :=
  let word := bitsOf r 17 0
  let s := if bit r 19 then
      { s with fab := { s.fab with commitBuf := s.fab.commitBuf ++ [⟨b, word, BitVec.ofNat 128 (bitsOf r 147 20)⟩] } }
    else s
  if bit r 18 then
    { s.tally (b / 256) 0x00C with fab := { s.fab with
        portReads := s.fab.portReads.filter (fun p => p.bank != b || p.data.isNone) ++ [⟨b, word, none⟩] } }
  else s

/-- The domain of a bank's quadrant finds the request (R173, R338). -/
def State.portRequests (s : State) (fs : List (Fired × W64)) (t n : Nat) : State :=
  (s.inUseOf t).foldl (fun s x =>
    match memRequest fs x, s.bankOfTile x with
    | some r, some b =>
      if s.fab.phase == .steps && (bit r 18 || bit r 19) then
        let s := s.lapWants [pdQuad t (b % 256)] (some { tower := t, step := n })
        if s.fab.phase == .steps then s.portRequest b r else s
      else s
    | _, _ => s) s

/-- The data of an export group: each bit the output of the cell that the group's entry names (R268, R269). -/
def State.exportData (s : State) (fs : List (Fired × W64)) (g : Nat) : Item :=
  (s.persona.tokens.exports.filter fun e => bitsOf e 47 32 == g).foldl (fun d e =>
    let ck := entryTile e * 1024 + entryCell e
    match fs.find? fun p => p.1.cell == ck with
    | some p => if p.1.out && exportSel p.2 == 3 then setBits d (bitsOf e 56 48) (bitsOf e 56 48) 1 else d
    | none => d) 0

/-- Export groups of the slot that the step ran are sent (R269); one for the device itself is delivered at once. -/
def State.sendGroups (s : State) (fs : List (Fired × W64)) (t slot : Nat) : State :=
  ((List.range s.persona.tokens.exportGroups.length).zip s.persona.tokens.exportGroups).foldl (fun s ge =>
    let e := ge.2
    if groupTower e = t ∧ groupSlot e = slot then
      let g : TokenGroup :=
        { dgroup := BitVec.ofNat 16 (bitsOf e 31 16)
          attempt := s.chain.attempt
          lap := BitVec.ofNat 32 s.lapNext.toNat
          bits := BitVec.ofNat 16 (groupBits e)
          data := s.exportData fs ge.1 }
      let s := s.tally t 0x010 (groupBits e)
      if bitsOf e 11 0 = s.selfId then s.acceptGroup g else s.forward (bitsOf e 11 0) (.token g)
    else s) s

/-- Credits for the outbound items of the lap are taken where they can be had (R190, R200): condition 4 of R53. -/
def State.reserveOut (s : State) : State :=
  (s.fab.collectors.filter fun c => !c.bits.isEmpty).foldl (fun s c =>
    let k := portKey c.flowTile c.port
    if s.fab.outReserved.contains k then s
    else match (s.flowAt c.flowTile c.port).bind s.flowOut with
      | none => s
      | some q =>
        if 0 < s.credits q then
          { s.put F.Q_STAT.CREDITS (s.credits q - 1) [q] with fab := { s.fab with outReserved := s.fab.outReserved ++ [k] } }
        else s) s

/-- The tower of an export to a port that has no outbound queue, found when the lap reaches verify (R200). -/
def State.exportUnbound (s : State) : Option Nat :=
  (s.fab.collectors.find? fun c => !c.bits.isEmpty && ((s.flowAt c.flowTile c.port).bind s.flowOut).isNone).map fun c =>
    towerOfTile c.flowTile

/-- All towers have completed their last step. -/
def State.allStepsDone (s : State) : Bool := (List.range 4).all s.towerDone

/-- The cells that the lap's log records need (condition 7 of R53). -/
def State.logNeed (s : State) : Nat :=
  if s.logMode = 1 then (s.lapRecords false 0 s.lapNext s.consumedItems).length else 0

def State.logReady (s : State) : Bool :=
  s.logMode != 1 || s.flag F.LOG_CTRL.DROP ||
    (s.producer s.logQueue == .lapLog &&
      decide (s.logNeed ≤ s.credits s.logQueue + s.grantSize s.logQueue (s.logNeed - s.credits s.logQueue)))

/-- The cells of the lap's log records are reserved (condition 7 of R53). -/
def State.reserveLog (s : State) : State :=
  if s.logMode = 1 ∧ s.logReady ∧ s.producer s.logQueue = .lapLog ∧ s.credits s.logQueue < s.logNeed then
    s.grant s.logQueue (s.logNeed - s.credits s.logQueue)
  else s

/-- The banks whose pins carry design I/O: a lap needs them at gather and at commit (R338, R408). -/
def State.pinDomains (s : State) : List Nat :=
  ((List.range 4).filter fun b => (List.range 128).any fun j =>
    s.pinFunc (128 * b + j) == 1 && bit (pinEntry s.persona.pinActive (128 * b + j)) 63).map pdBank

/-- The domains that the commit needs: the quadrants of the banks with held writes, and those banks (R173, R338). -/
def State.commitDomains (s : State) : List Nat :=
  ((s.fab.commitBuf.map fun w => pdQuad (w.bank / 256) (w.bank % 256)) ++ s.pinDomains).eraseDups

/-- Verify: outbound items and log records take their credits and the commit's domains are woken, or the lap has exported where no
queue is. -/
def State.verify (s : State) : State :=
  if s.fab.phase != .steps || !s.allStepsDone || s.fab.firstCause != 0 then s
  else match s.exportUnbound with
    | some t => s.scratch 11 (some { tower := t, step := s.step_ t })
    | none =>
      let s := if s.commitDomains.all s.serves then s else s.lapWants s.commitDomains none
      if s.fab.phase != .steps || s.fab.firstCause != 0 then s else s.reserveOut.reserveLog

/-- A vault line that the lap consumed still lacks its verdict (condition 3 of R53). -/
def State.verdictOpen (s : State) : Bool := s.fab.vaultLap.any fun l => s.vault.pendingLines.contains l

/-- Every outbound item has its cell (condition 4 of R53). -/
def State.outReady (s : State) : Bool :=
  s.fab.collectors.all fun c => c.bits.isEmpty || s.fab.outReserved.contains (portKey c.flowTile c.port)

/-- Conditions 1 to 4, 6 and 7 of R53. -/
def State.verifyHolds (s : State) : Bool :=
  s.fab.phase == .steps && s.allStepsDone && (s.fab.portReads.all fun r => r.data.isSome) && !s.verdictOpen && s.outReady &&
    s.fab.firstCause == 0 && s.logReady && s.commitDomains.all s.serves

def State.childrenDone (s : State) : Bool := s.childPorts.all fun p => s.chain.doneFrom.any fun d => d.1 == p

/-! ### Replay's check of the consumed items (R147) -/

def State.diverge (s : State) : State := s.put F.LOG_STAT.DIVERGED 1

/-- The consumed items match the FLOW records. -/
def replayFlowOk (f : Nat × Nat × Item) (x : Item) : Bool :=
  bitsOf x 63 32 == f.1 && bitsOf x 127 64 == f.2.1 && bitsOf x 159 128 == (crc32c (bytesOf 64 f.2.2.toNat)).toNat

def State.replayFlowsOk (s : State) : Bool :=
  s.logMode != 2 ||
    (s.consumedItems.length == s.log.replayFlows.length &&
      (s.consumedItems.zip s.log.replayFlows).all fun p => replayFlowOk p.1 p.2)

/-- A member whose conditions hold and whose children have reported sends its DONE (R272). At the anchor the same conditions
bring the decision; a halt cause of the previous boundary withdraws the lap at once (rule 1 of R273). -/
def State.reportDone (s : State) : State :=
  if s.chainMode = 2 ∧ !s.chain.doneSent ∧ s.verifyHolds ∧ !s.replayFlowsOk then s.diverge.scratch 1
  else if s.chainMode = 2 ∧ !s.chain.doneSent ∧ s.verifyHolds ∧ s.childrenDone then
    { s.batonUp 3 (s.doneBaton 0 0) with chain := { s.chain with doneSent := true } }
  else if s.chainMode = 1 ∧ s.verifyHolds ∧ s.childrenDone ∧ s.knownHalt.1 ≠ 0 then s.anchorScratch 0 0 none
  else s

/-- What follows a command that may complete a condition of verify. -/
def State.settleV (s : State) : State := s.verify.reportDone.settle

/-- The head entry of every pair of the tiles is freed: the first entry of each pair (R45). -/
def freeHeads (tiles : List Nat) : List CtxEntry → List Nat → List CtxEntry
  | [], _ => []
  | e :: rest, seen =>
    if tiles.contains (e.pair / 512) && !seen.contains e.pair then freeHeads tiles rest (e.pair :: seen)
    else e :: freeHeads tiles rest seen

/-- A completed step of tower `t` may have waited longer than WAIT_MIN: where such waits are selected, how long it waited and for what
are free values (R154, notes/assumptions 83). -/
def State.traceWait (s : State) (t n : Nat) : State :=
  let waited := bitsOf (Config.freeMeasure s.free) 31 0
  if s.flag F.TRACE_CTRL.EN [t] && (s.fld F.TRACE_CTRL.EVENTS [t]).testBit 5 then
    if s.fld F.TRACE_CTRL.WAIT_MIN [t] < waited then
      s.spend.trace t 5 s.kind s.pos s.lapNext
        (BitVec.ofNat 64 (n + bitsOf (Config.freeMeasure s.free) 35 32 * 256 + waited * 65536))
    else s.spend
  else s

/-- The step in progress of tower `t` completes. -/
def State.stepComplete (s : State) (t : Nat) : State :=
  let n := s.step_ t
  let fs := s.firedIn t
  if !s.stepIsOpen t || s.fab.phase != .steps || fs.length ≠ 1024 * (s.inUseOf t).length then s
  else
    let s : State := { s with fab := { s.fab with hold := fs.foldl (fun old p => holdNext p.2 p.1 old) s.fab.hold } }
    let s : State := fs.foldl (fun s p => (s.latchState p.1 p.2).latchExport p.1 p.2) s
    let tooLong := s.fab.collectors.any fun c => towerOfTile c.flowTile == t && decide (512 < c.bits.length)
    let tiles := s.inUseOf t
    let s := { s with fab := { s.fab with
        fired := s.fab.fired.filter fun f => towerOfTile (f.cell / 1024) != t
        creditQ := freeHeads tiles s.fab.creditQ []
        stepOpen := listDrop s.fab.stepOpen t } }
    let s := s.tally t 0x002
    if tooLong then s.scratch 11 (some { tower := t, step := n })
    else
      let s := ((s.traceWait t n).sendGroups fs t (s.stepSlot n)).portRequests fs t n
      if s.fab.phase != .steps then s
      else if n + 1 < s.lapFold then s.put F.TLC_STAT.STEP (n + 1) [t]
      else
        let s := { s with fab := { s.fab with stepsDone := listAdd s.fab.stepsDone t } }
        (s.put F.TLC_STAT.PHASE 3 [t]).verify

/-- The step of tower `t` completes once every cell of its tiles in use has fired. -/
def execStepComplete (t : Tower) (s : State) : Out := .next (s.stepComplete t.val).settleV

/-! ### Port A data, and the step limit (R51, R163, R172) -/

/-- A line of vault data in the bank whose verdict is outstanding: read through port A, the lap waits for it (R166). -/
def State.bankLines (s : State) (b : Nat) : List Nat := (s.vault.bankVerdicts.filter fun p => p.1 * 16 / 0x400000 == b).map fun p => p.2

/-- The oldest outstanding read of a bank has its data. -/
def answerRead (b : Nat) (q : Quad) : List PortRead → List PortRead
  | [] => []
  | r :: rest => if r.bank = b ∧ r.data = none then { r with data := some q } :: rest else r :: answerRead b q rest

/-- The port that serves fabric requests: port B once the vertical bundle of port A is retired (R165). -/
def State.fabricPort (s : State) (t b : Nat) : Nat := if s.flag F.BANK_STAT.PORTA_RETIRED [t, b] then readerPortB else readerPortA

/-- Port A of a bank delivers the data of its oldest outstanding read, or an uncorrectable verdict. -/
def State.portAReturn (s : State) (t b : Nat) (ecc : Ecc) : State :=
  let key := 256 * t + b
  let w : Where := { tower := t, step := s.step_ t }
  match s.fab.portReads.find? fun r => r.bank == key && r.data.isNone with
  | none => s
  | some r =>
    let a := bankBase t b + 16 * r.word
    let src := s.bankSource t b
    if !s.serves (pdQuad t b) || s.layerHeld t 1 then s
    else if ecc = .uncorrectable || s.memBadAt a then
      let s := if ecc = .uncorrectable then s.upset a true else s
      (s.bankError t b a true src (s.fabricPort t b)).scratch 4 (some w)
    else
      let s := if ecc = .corrected then s.upset a false else s
      let s := if s.memSoftAt a then s.bankError t b a false src (s.fabricPort t b) else s
      { s with fab := { s.fab with
          portReads := answerRead key (s.memWordAt a) s.fab.portReads
          vaultLap := (s.bankLines key).foldl listAdd s.fab.vaultLap } }

def execPortAReadReturn (t : Tower) (bank : Fin 256) (ecc : Ecc) (s : State) : Out :=
  .next (s.portAReturn t.val bank.val ecc).settleV

/-- The import slot of a cell is fed by a tile that is benched: its token never comes (R139). -/
def State.importBenched (s : State) (x cell slot : Nat) : Bool :=
  let tt := s.persona.tokens
  tt.imports.any fun i =>
    entryTile i == x && entryCell i == cell && entrySlot i == slot &&
      ((List.range tt.exportGroups.length).zip tt.exportGroups).any fun g =>
        bitsOf g.2 11 0 == s.selfId && bitsOf g.2 31 16 == bitsOf i 47 32 &&
          tt.exports.any fun e => bitsOf e 47 32 == g.1 && bitsOf e 56 48 == bitsOf i 56 48 && s.benched (entryTile e)

/-- A cell of tower `t` waits on a stream port, or on an import that a tile in laps is to send (R51, R139). -/
def State.waitsExternal (s : State) (t : Nat) : Bool :=
  s.towerWaits t [116, 117] ||
    (s.stepIsOpen t && (s.inUseOf t).any fun x => cells.any fun kc =>
      s.waitsOn x kc.1 kc.2 118 && !s.importBenched x (16 * kc.1 + kc.2) (s.stepSlot (s.step_ t)))

/-- A step has stayed incomplete beyond STEP_LIMIT while no cluster of the tower waits for an external value. A step that still lacks
its contexts, or its go, is incomplete. -/
def execStepLimitExpiry (t : Tower) (s : State) : Out :=
  if s.fab.phase == .steps && !s.towerDone t.val && s.fld F.FABRIC_LIMITS.STEP_LIMIT != 0 &&
      !(s.stepIsOpen t.val && (s.firedIn t.val).length == 1024 * (s.inUseOf t.val).length) && !s.waitsExternal t.val then
    .next (s.scratch 11 (some { tower := t.val, step := s.step_ t.val })).settle
  else .next s

end Sys2Proof.Machine
end

