-- ==== Sys2Proof/Machine/Pins.lean ====
section
/-! DEFINITION. Target pins: owners and functions, switches, sampling, design outputs, pattern-match and reaction units
(R395 to R409). -/

namespace Sys2Proof.Machine

/-! ### State of the pins -/

/-- The bank's units and clocked logic work: RUN or SLEEP (R405); changes at a pin-block edge need RUN (R408). -/
def State.bankLive (s : State) (b : Nat) : Bool := (s.pd (pdBank b) == 1 || s.pd (pdBank b) == 2) && !s.gateShut b 10
def State.bankRuns (s : State) (b : Nat) : Bool := s.pd (pdBank b) == 1

def State.gsr (s : State) : Bool := s.flag F.LOAD_STAT.GSR
def State.persona_ (s : State) : Nat := s.fld F.LOAD_STAT.PERSONA

/-- The pin's FUNC and SEL, as one number. -/
def State.pinSet (s : State) (p : Nat) : Nat := bitsOf (s.reg .PIN_CFG [p]) 7 0
def State.pinActs (s : State) (p : Nat) : Nat := (Sparse.read s.pinNow p).toNat
def State.pinParked (s : State) (p : Nat) : Bool := s.parked.any fun k => k.1 == p

/-- A switch of pin `p` to the function that PIN_CFG now holds: it parks until PARK_END; a park in progress restarts (R407). None
while the global set-reset is asserted (R408). -/
def State.switchPin (s : State) (p : Nat) : State :=
  if s.gsr then s
  else
    let s : State := { s with parked := s.parked.filter (fun k => k.1 != p) ++ [(p, BitVec.ofNat 64 (s.pinSet p))] }
    s.put F.PIN_CFG.PARKED 1 [p]

/-- FUNC and SEL set, with a switch where they change. -/
def State.setPinFunc (s : State) (p func sel : Nat) : State :=
  if s.pinSet p = func + 16 * sel then s
  else ((s.put F.PIN_CFG.FUNC func [p]).put F.PIN_CFG.SEL sel [p]).switchPin p

/-- Pins whose function differs from the one that acts switch when the set-reset is released (R408). -/
def State.switchChanged (s : State) : State :=
  (List.range 512).foldl (fun s p => if s.pinSet p = s.pinActs p ∨ s.pinParked p then s else s.switchPin p) s

/-- The park of pin `p` ends, and its newest function applies. -/
def execParkEnd (p : Pin) (s : State) : Out :=
  match s.parked.find? fun k => k.1 == p.val with
  | none => .next s
  | some k =>
    if !s.bankRuns (bankOfPin p.val) then .next s
    else
      let s : State := { s with parked := s.parked.filter (fun j => j.1 != p.val)
                                pinNow := Sparse.write s.pinNow p.val k.2 }
      .next (s.put F.PIN_CFG.PARKED 0 [p.val])

/-! ### Conflicts (R400) -/

def State.signalConflict (s : State) (g : Nat) : Bool :=
  decide (2 ≤ ((pinsOfSignal s.persona.pinActive g).filter fun p => s.pinFunc p == 1).length)

def State.checkConflicts (s : State) : State :=
  match (List.range 512).find? s.signalConflict with
  | some g => (s.put F.PINS_STAT.MAP_CONFLICT 1).put F.PINS_STAT.CONFLICT_SIG g
  | none => s

/-! ### Owners (R396, R397) -/

def State.pinOwner (s : State) (p : Nat) : Nat := s.fld F.PIN_OWN.KIND [p]

/-- The requester owns the pin as ENGINE or HOST. -/
def State.ownsPin (s : State) (rq : Rq) (p : Nat) : Bool :=
  match s.pinOwner p, rq.agent with
  | 1, .engine e => s.fld F.PIN_OWN.ENG [p] == e.val
  | 2, .host _ _ => true
  | _, _ => false

/-- The pin map of the loaded or active personality has a VALID entry for the pin. -/
def State.mapHolds (s : State) (p : Nat) : Bool :=
  match s.persona_ with
  | 1 => bit (pinEntry s.persona.pinLoaded p) 63
  | 2 => bit (pinEntry s.persona.pinActive p) 63
  | _ => false

def State.writePinOwn (s : State) (p : Nat) (h : Half) (v : W64) : Resp × State :=
  let new := s.merged .PIN_OWN [p] h v
  let old := s.pinOwner p
  let kind := fieldIn F.PIN_OWN.KIND new
  if new = s.reg .PIN_OWN [p] then (.ok, s)
  else if old = 0 && kind != 0 && s.mapHolds p then (.bankNotOwned, s)
  else
    let design := kind == 0 && s.persona_ != 1 && bit (pinEntry s.persona.pinActive p) 63
    (.ok, ((s.setReg .PIN_OWN [p] new).setPinFunc p (b2n design) 0).checkConflicts)

/-- *Pin functions*: a reserved FUNC, or PULL 0b11. -/
def pinCfgBad (v : W64) : Bool := decide (7 ≤ fieldIn F.PIN_CFG.FUNC v) || fieldIn F.PIN_CFG.PULL v == 3

/-- A write to PIN_CFG by the pin's owner, or under the installer role to the electrical fields of a DESIGN pin. -/
def State.writePinCfg (s : State) (rq : Rq) (role : Role) (p : Nat) (h : Half) (v : W64) : Resp × State :=
  let new := s.merged .PIN_CFG [p] h v
  if s.pinOwner p = 0 ∧ role = .installer then
    if fieldIn F.PIN_CFG.PULL new = 3 then (.decodeError, s)
    else (.ok, s.setReg .PIN_CFG [p] (setBits new 7 0 (s.pinSet p)))
  else if s.ownsPin rq p then
    if pinCfgBad new then (.decodeError, s)
    else
      let old := s.pinSet p
      let s := s.setReg .PIN_CFG [p] new
      (.ok, if s.pinSet p = old then s else s.switchPin p)
  else (.bankNotOwned, s)

/-! ### GPIO (R403) -/

/-- The bits of GPIO word `i` that a requester may change. -/
def State.gpioMask (s : State) (rq : Rq) (i : Nat) : W64 :=
  BitVec.ofNat 64 (natOfBits ((List.range 64).map fun j => s.ownsPin rq (64 * i + j) && s.pinFunc (64 * i + j) == 2))

/-- GPIO_OUT or GPIO_OE of word `i`, with `f` applied to the bits that the requester may change. -/
def State.writeGpio (s : State) (rq : Rq) (r : RegName) (i : Nat) (f : W64 → W64) : Resp × State :=
  let m := s.gpioMask rq i
  let old := s.reg r [i]
  (.ok, s.setReg r [i] ((old &&& ~~~m) ||| (f old &&& m)))

/-! ### Pattern-match units (R405) -/

/-- The pin that a unit's SEL registers name at place `j`, 0 to 15. -/
def State.unitPin (s : State) (n j : Nat) : Nat := bitsOf (s.reg .PMU_SEL [n, j / 4]) (16 * (j % 4) + 8) (16 * (j % 4))

/-- Whether the unit's pattern matches given pad levels. -/
def State.patternMatches (s : State) (n : Nat) (level : Nat → Bool) : Bool :=
  s.flag F.PMU_CTRL.EN [n] && (List.range 16).all fun j =>
    !(s.fld F.PMU_CTRL.MASK [n]).testBit j || level (s.unitPin n j) == (s.fld F.PMU_CTRL.VALUE [n]).testBit j

/-- A pin that takes part in the pattern lies in a bank in asynchronous sampling. -/
def State.patternAsync (s : State) (n : Nat) : Bool :=
  (List.range 16).any fun j => (s.fld F.PMU_CTRL.MASK [n]).testBit j && s.asyncBank (bankOfPin (s.unitPin n j))

def State.gatherLevel (s : State) (p : Nat) : Bool := bit (s.reg .GATHER_IN [p / 64]) (p % 64)

/-- The match that a trigger unit sees of unit `n` (R135, R405). -/
def State.triggerMatch (s : State) (n : Nat) : Bool :=
  if s.patternAsync n then s.flag F.PMU_STAT.HELD [n] else s.patternMatches n s.gatherLevel

def pmuBank (n : Nat) : Nat := n / 8
def ruBank (k : Nat) : Nat := k / 4

/-! ### Reaction units (R406) -/

def State.doutBit (s : State) (o : Nat) : Bool := bit (s.reg .DOUT [o / 64]) (o % 64)

/-- The unit is armed again: enabled, its pattern not matching, and its RELEASE output 0. -/
def State.rearm (s : State) (k : Nat) : State :=
  if s.flag F.RU_CTRL.EN [k] && !s.gsr && !s.flag F.RU_STAT.HELD [k] && !s.flag F.PMU_CTRL.MATCH [s.fld F.RU_CTRL.PMU [k]] &&
      !s.doutBit (s.fld F.RU_CTRL.RELEASE [k]) && s.bankRuns (ruBank k)
  then s.put F.RU_STAT.ARMED 1 [k] else s

def State.rearmAll (s : State) : State := (List.range 16).foldl (fun s k => s.rearm k) s

/-- HELD and ARMED clear. -/
def State.release (s : State) (k : Nat) : State := (s.put F.RU_STAT.HELD 0 [k]).put F.RU_STAT.ARMED 0 [k]

/-- Units whose RELEASE output a commit has made 1 are released (R406). -/
def State.releaseUnits (s : State) : State :=
  (List.range 16).foldl (fun s k =>
    if s.doutBit (s.fld F.RU_CTRL.RELEASE [k]) && s.bankRuns (ruBank k) then s.release k else s) s

/-- The armed units driven from pattern-match unit `n` set. -/
def State.reactTo (s : State) (n : Nat) : State :=
  (List.range 16).foldl (fun s k =>
    if s.fld F.RU_CTRL.PMU [k] = n ∧ s.flag F.RU_CTRL.EN [k] ∧ s.flag F.RU_STAT.ARMED [k] ∧ !s.flag F.RU_STAT.HELD [k] ∧
        s.bankLive (ruBank k) ∧ !s.gsr then
      (s.put F.RU_STAT.HELD 1 [k]).count F.RU_STAT.SETS [k]
    else s) s

/-- The pads come to match the pattern of unit `n`. -/
def execPatternMatch (n : Fin 32) (pads : BitVec 512) (s : State) : Out :=
  let s := { s with pads := pads }
  if s.bankLive (pmuBank n.val) && s.patternMatches n.val (bit pads) && !s.flag F.PMU_CTRL.MATCH [n.val] then
    let s := (s.put F.PMU_CTRL.MATCH 1 [n.val]).put F.PMU_STAT.HELD 1 [n.val]
    .next ((s.count F.PMU_STAT.MATCHES [n.val]).reactTo n.val)
  else .next s

/-- The pads cease to match the pattern of unit `n`. -/
def execMatchEnd (n : Fin 32) (pads : BitVec 512) (s : State) : Out :=
  let s := { s with pads := pads }
  if s.bankLive (pmuBank n.val) && !s.patternMatches n.val (bit pads) && s.flag F.PMU_CTRL.MATCH [n.val] then
    .next (s.put F.PMU_CTRL.MATCH 0 [n.val]).rearmAll
  else .next s

/-- While EN is 0 the unit does not match. A pattern written while EN is 1 is compared with the pads as they stand. -/
def State.writePmu (s : State) (r : RegName) (ix : List Nat) (h : Half) (v : W64) : Resp × State :=
  let n := ix.headD 0
  let s := s.store r ix h v
  let old := s.flag F.PMU_CTRL.MATCH [n]
  let now := s.patternMatches n (bit s.pads) && s.bankLive (pmuBank n)
  let s := s.put F.PMU_CTRL.MATCH (b2n now) [n]
  if now && !old then (.ok, ((s.put F.PMU_STAT.HELD 1 [n]).count F.PMU_STAT.MATCHES [n]).reactTo n)
  else (.ok, s.rearmAll)

/-- FORCE_RELEASE, and the enable. -/
def State.writeRuCtrl (s : State) (k : Nat) (h : Half) (v : W64) : Resp × State :=
  let s := s.store .RU_CTRL [k] h v
  let s := if wrote F.RU_CTRL.FORCE_RELEASE h v || !s.flag F.RU_CTRL.EN [k] then s.release k else s
  (.ok, s.rearm k)

/-! ### Design outputs and gather samples (R399 to R402) -/

/-- DOUT as the newly committed state gives it. -/
def State.newOutputs (s : State) (i : Nat) : W64 :=
  BitVec.ofNat 64 (natOfBits ((List.range 64).map fun j =>
    let e := outEntry s.persona.pinActive (64 * i + j)
    bit e 63 && s.stateBit (tileNo (bitsOf e 2 0) (bitsOf e 8 3) (bitsOf e 14 9)) (bitsOf e 28 15)))

/-- Commit action 3: the new design outputs, releases and re-arms. -/
def State.driveOutputs (s : State) : State :=
  if s.persona.pinActive.outputs.isEmpty then s
  else (((List.range 8).foldl (fun s i => s.setReg .DOUT [i] (s.newOutputs i)) s).releaseUnits).rearmAll

/-- A write to DOUT, which is accepted while laps are halted (R399). -/
def State.writeDout (s : State) (i : Nat) (h : Half) (v : W64) : Resp × State :=
  if s.lapsRun then (.bankNotOwned, s) else (.ok, ((s.store .DOUT [i] h v).rearmAll))

/-- HELD clears at each commit, and is set again where the pattern still matches (R405). -/
def State.heldAtCommit (s : State) : State :=
  (List.range 32).foldl (fun s n =>
    if s.bankLive (pmuBank n) then s.put F.PMU_STAT.HELD (b2n (s.flag F.PMU_CTRL.MATCH [n])) [n] else s) s

/-- GATHER_IN takes the pads of every bank in lap-aligned sampling; a pin in its park keeps its last sample (R401, R407). -/
def State.samplePads (s : State) (pads : BitVec 512) : State :=
  (List.range 8).foldl (fun s i =>
    if s.asyncBank (i / 2) || !s.bankRuns (i / 2) then s
    else
      let held := BitVec.ofNat 64 (natOfBits ((List.range 64).map fun j => s.pinParked (64 * i + j)))
      s.setReg .GATHER_IN [i] ((s.reg .GATHER_IN [i] &&& held) ||| (wordAt pads i &&& ~~~held))) s

/-- The import tokens of the samples (R52, R401): those of signals that no pin of an asynchronous bank feeds. -/
def State.sampleTokens (s : State) : State := s.pinTokens (fun e => !s.asyncEntry e) s.gatherLevel

/-! ### What a pin drives (R399, R403, R406 to R408) -/

/-- The value that a DESIGN pin drives. -/
def State.designLevel (s : State) (e : W64) : Bool :=
  (bit e 19 && s.doutBit (bitsOf e 18 10)) || (bit e 29 && s.doutBit (bitsOf e 28 20))

/-- The level that pin `p` drives onto its pad; none where its driver is off. A one-cycle LAPMARK pulse has no command that
ends it and is left out (notes/assumptions 33). -/
def State.padOut (s : State) (p : Nat) : Option Bool :=
  let e := pinEntry s.persona.pinActive p
  let od := fun (b : Bool) => if s.flag F.PIN_CFG.OD [p] && b then none else some b
  if !s.bankLive (bankOfPin p) || s.gsr || s.pinParked p then none
  else match s.pinActs p % 16 with
    | 1 =>
      match bitsOf e 41 40 with
      | 1 => od (s.designLevel e)
      | 2 => if s.designLevel e then none else some false
      | 3 => if bit e 39 && s.doutBit (bitsOf e 38 30) then od (s.designLevel e) else none
      | _ => none
    | 2 => if bit (s.reg .GPIO_OE [p / 64]) (p % 64) then od (bit (s.reg .GPIO_OUT [p / 64]) (p % 64)) else none
    | 3 =>
      let k := s.pinActs p / 16
      let held := s.flag F.RU_STAT.HELD [k]
      if s.flag F.PIN_CFG.OD [p] && !held then none else some (s.flag F.RU_CTRL.ACTIVE_HIGH [k] == held)
    | 4 => od s.trigPulse
    | 5 => od (s.pinActs p / 16 == 2 && s.fab.phase == .steps)
    | 6 =>
      let i := s.pinActs p / 16
      od (s.flag F.FLOWCTL.EN [i] && (s.flag F.Q_STAT.HIGH [s.fld F.FLOWCTL.QUEUE [i]] != s.flag F.FLOWCTL.INVERT [i]))
    | _ => none

/-- The pulse that a trigger firing began ends. -/
def execTrigoutPulseEnd (s : State) : Out := .next { s with trigPulse := false }

/-! ### Activation (R114, R397, R400) -/

/-- The loaded pin map becomes active: functions of DESIGN pins, sampling modes, conflicts. -/
def State.activatePins (s : State) : State :=
  let s := { s with persona := { s.persona with pinActive := s.persona.pinLoaded } }
  let s := (List.range 512).foldl (fun s p =>
    if s.pinOwner p = 0 then s.setPinFunc p (b2n (bit (pinEntry s.persona.pinActive p) 63)) 0 else s) s
  let s := (List.range 4).foldl (fun s b => s.put F.BANK_CFG.ASYNC (b2n (bit s.persona.pinActive.asyncBanks b)) [b]) s
  s.checkConflicts

/-- The global set-reset is asserted: reaction units are held clear (R114, R408). -/
def State.assertGsr (s : State) : State :=
  let s := s.put F.LOAD_STAT.GSR 1
  let s := { s with parked := [], pinNow := [] }
  let s := (List.range 512).foldl (fun s p => if s.flag F.PIN_CFG.PARKED [p] then s.put F.PIN_CFG.PARKED 0 [p] else s) s
  (List.range 16).foldl (fun s k => s.release k) s

/-- The global set-reset is released: switches apply, and reaction units arm (R408). -/
def State.releaseGsr (s : State) : State := ((s.put F.LOAD_STAT.GSR 0).switchChanged).rearmAll

end Sys2Proof.Machine
end

