-- ==== Sys2Proof/Machine/Loader.lean ====
section
/-! DEFINITION. Images: the loader's checks, the frame records, the end of a load, staging and activation (R101 to R127). -/

namespace Sys2Proof.Machine

/-! ### Bytes of an image (R101) -/

def quadBytes (qs : List Quad) : List Byte := qs.flatMap fun q => bytesOf 16 q.toNat
def zeroBytes (bs : List Byte) (off last : Nat) : Bool := ((bs.drop off).take (last + 1 - off)).all (· == 0)
/-- 128-bit words and 64-bit words of a payload. -/
def leQuads (bs : List Byte) (n : Nat) : List Quad := (List.range n).map fun i => BitVec.ofNat 128 (leField bs (16 * i) 16)
def leWords (bs : List Byte) (off n : Nat) : List W64 := (List.range n).map fun i => BitVec.ofNat 64 (leField bs (off + 8 * i) 8)

/-! ### Fetching (R111, R158) -/

/-- A fetch by the loader on behalf of `role` through the UCIe module of tower `tw`. -/
def State.loaderFetch (s : State) (role : Role) (tw a len : Nat) : Resp × List Byte × List Nat × State :=
  if len % 16 ≠ 0 ∨ a % 16 ≠ 0 then (.decodeError, [], [], s)
  else match spaceOf a with
    | .host =>
      match s.devSpan tw (a - 0x800000000000) len (len / 256 + 2) with
      | (.ok, qs, ls, s) => (.ok, quadBytes qs, ls, s)
      | (r, _, _, s) => (r, [], [], s)
    | .memory =>
      let t := memTower a
      let b := memBank a
      match s.portBAllows t b .loader role false with
      | .ok =>
        if s.fenced (pdQuad t b) then (.domainOff, [], [], s)
        else match s.readWords readerPortB a (len / 16) with
          | (some qs, s) => (.ok, quadBytes qs, [], s)
          | (none, s) => (.uncorrectable, [], [], s)
      | r => (r, [], [], s)
    | _ => (.decodeError, [], [], s)

/-! ### The header (R101, R102, check 1 of R109) -/

def hKind (h : List Byte) : Nat := leField h 6 1
def hUnsigned (h : List Byte) : Bool := leField h 7 1 % 2 == 1
def hLocked (h : List Byte) : Bool := leField h 7 1 / 2 % 2 == 1
def hKeyslot (h : List Byte) : Nat := leField h 0x12 1
def hRegions (h : List Byte) : Nat := leField h 0x13 1
def hDigests (h : List Byte) : Nat := leField h 0x14 4
def hSection (h : List Byte) (i : Nat) : Nat × Nat := (leField h (0x40 + 16 * i) 8, leField h (0x48 + 16 * i) 8)
def hRoot (h : List Byte) : BitVec 384 := digestAt h 0x90

def regionAt (h : List Byte) (i : Nat) : Region :=
  let b := fun j => leField h (0x100 + 8 * i + j) 1
  { die := b 0
    rowFirst := b 1
    rowLast := b 2
    colFirst := b 3
    colLast := b 4
    slotFirst := b 5
    slotLast := b 6 }

def regionOk (kind : Nat) (r : Region) : Bool :=
  decide (r.die ≤ 7) && (decide (r.rowFirst ≤ r.rowLast) && decide (r.rowLast ≤ 63)) &&
    (decide (r.colFirst ≤ r.colLast) && decide (r.colLast ≤ 63)) &&
    (decide (r.slotFirst ≤ r.slotLast) && decide (r.slotLast ≤ (if kind = 1 then 31 else 35)))

def segmentsOf (len : Nat) : Nat := (len + 0xFFFFFF) / 0x1000000
/-- The digest table, padded to a multiple of 64 bytes. -/
def tableLen (h : List Byte) : Nat := (hDigests h * 48 + 63) / 64 * 64

/-- The section layout of R102. -/
def sectionsOk (h : List Byte) (len : Nat) : Bool :=
  let s := fun i => hSection h i
  ((List.range 5).all fun i =>
    (s i).2 % 16 == 0 && (s i).1 == (if i = 0 then 0x1000 + tableLen h else (s (i - 1)).1 + (s (i - 1)).2)) &&
    (s 4).1 + (s 4).2 == len &&
    hDigests h == ((List.range 5).map fun i => segmentsOf (s i).2).foldl (· + ·) 0

/-- The fixed fields, reserved fields and layout of a header of a given kind; KEYSLOT, REGIONS and the region entries within their
ranges (notes/assumptions 85). -/
def headerForm (h : List Byte) (len : Nat) : Bool :=
  leField h 0 4 == 0x4B4D4946 && leField h 4 2 == 1 && decide (leField h 7 1 < 4) && leField h 8 8 == len &&
    leField h 0x10 2 == 0xA2 && decide (hKeyslot h ≤ 7) && decide (hRegions h ≤ 16) &&
    zeroBytes h 0x18 0x3F && zeroBytes h 0xF0 0xFF && zeroBytes h 0x1C0 0xF9F &&
    zeroBytes h (0x100 + 8 * hRegions h) 0x17F &&
    ((List.range (hRegions h)).all fun i => regionOk (hKind h) (regionAt h i) && leField h (0x107 + 8 * i) 1 == 0) &&
    sectionsOk h len && (!hUnsigned h || (hKeyslot h == 0 && zeroBytes h 0xFA0 0xFFF))

def headerOk (h : List Byte) (len : Nat) : Bool :=
  headerForm h len && decide (hKind h ≤ 2) && (hKind h == 0 || hRegions h != 0)

/-- The bytes of the digest table, and its padding, against ROOT (check 5). -/
def tableOk (h tbl : List Byte) : Bool :=
  Config.sha384 (tbl.take (hDigests h * 48)) == hRoot h && (tbl.drop (hDigests h * 48)).all (· == 0)

/-- The device's identity matches a locked image (check 3). -/
def lockOk (h : List Byte) : Bool := !hLocked h || digestAt h 0xC0 == idDigest

def sigOk (key : BitVec 768) (h : List Byte) : Bool :=
  Config.ecdsaVerify key (Config.sha384 (h.take 0xFA0)) (keyAt h 0xFA0)

/-! ### Regions (R106, R107) -/

def State.regionBenched (s : State) (r : Region) : Bool := (regionTiles r).all s.benched

/-- A region lies wholly within another. -/
def regionWithin (r o : Region) : Bool := (regionTiles r).all (inRegionTile o)

/-! ### The end of a load (R110 to R112) -/

def State.onChan (s : State) (e : Eng) (ch : Fin 8) (f : Chan → Chan) : State :=
  s.onEng e fun en => { en with chans := en.chans.set ch (f en.chans[ch]) }

/-- A channel becomes idle or halted: the edge source DMA_DONE of its engine (R83). -/
def State.chanDone (s : State) (e : Eng) (ch : Fin 8) : State :=
  s.onEng e fun en => en.edge 0 fun a => bitsOf a 2 0 == ch.val

/-- The channel that carried the load: idle with the result, or halted for TRANSFER (R111). -/
def State.endChan (s : State) (j : Job) (result resp : Nat) : State :=
  let s := s.onChan j.engine j.ch fun c =>
    { c with
      state := if result = 0x12 then .halted else .idle
      op := none
      verdictWait := false
      lines := []
      resp := BitVec.ofNat 8 resp
      result := BitVec.ofNat 16 result }
  s.chanDone j.engine j.ch

/-- The personality's part of a failed load after check 6 (*Outcome of a load that fails*). -/
def State.failAfter (s : State) (j : Job) : State :=
  match j.kind with
  | 0 =>
    { s.put F.LOAD_STAT.PERSONA 0 with persona := { s.persona with staged := [], stagedSetup := none } }.put F.LOAD_STAT.STAGED 0
  | 1 => { s with persona := { s.persona with staged := [], stagedSetup := none } }.put F.LOAD_STAT.STAGED 0
  | _ => s

/-- The first 8 bytes of ROOT. -/
def rootHead (r : BitVec 384) : W64 := BitVec.ofNat 64 r.toNat

/-- The record of a load (R112). -/
def State.recordLoad (s : State) (j : Job) (result frame : Nat) : State :=
  s.record 6 (3 * 8192 + j.queue.toNat) (roleCode j.role) (result % 256)
    (BitVec.ofNat 64 (j.engine.val + j.kind * 16 + b2n j.isUnsigned * 64)) (rootHead j.root) (BitVec.ofNat 64 frame) false false

/-- The load ends with a result. `frame` is the faulty frame's index, or 0xFFFFFFFF. -/
def State.endLoad (s : State) (result frame : Nat) (resp : Nat := 0) : State :=
  match s.persona.job with
  | none => s
  | some j =>
    let s : State := { s with persona := { s.persona with job := none } }
    let s := (s.put F.LOAD_STAT.RESULT result).put F.LOAD_STAT.LOADER 0
    let s := (s.put F.LOAD_FAULT.FRAME frame).put F.LOAD_FAULT.RESP resp
    let s := if j.accepted then s.recordLoad j result frame else s
    let s := if j.accepted && result != 0 then s.failAfter j else s
    s.endChan j result resp

def noFrame : Nat := 0xFFFFFFFF
def State.failLoad (s : State) (result : Nat) : State := s.endLoad result noFrame
def State.failFrame (s : State) (result frame : Nat) : State := s.endLoad result frame

/-- A fetch answered with a response other than OK. -/
def State.failTransfer (s : State) (r : Resp) : State := s.endLoad 0x12 noFrame r.code

/-- A reset ends the load (R110, R125). -/
def State.abortLoad (s : State) : State := s.failLoad 0x14

/-! ### CTXLOAD and the header checks (R109) -/

/-- The loader takes the image, or is busy. -/
def State.startLoad (s : State) (e : Eng) (ch : Fin 8) (a len : Nat) : Bool × State :=
  if s.persona.job.isSome then (false, s)
  else
    let en := s.eng e
    let j : Job :=
      { engine := e
        ch := ch
        role := en.role
        queue := en.cmdQueue
        addr := a
        len := len
        deadline := s.fld F.LOAD_CTRL.DEADLINE }
    let s : State := { s with persona := { s.persona with job := some j } }
    let s := s.onChan e ch fun _ => { state := .busy, op := some .image, ctx := true }
    (true, (((s.put F.LOAD_STAT.LOADER 1).put F.LOAD_STAT.ENGINE e.val).put F.LOAD_STAT.RESULT 0))

def State.putJob (s : State) (j : Job) : State := { s with persona := { s.persona with job := some j } }

/-- Bytes and vault lines that a fetch adds to the channel. -/
def State.fetched (s : State) (j : Job) (n : Nat) (ls : List Nat) : State :=
  s.onChan j.engine j.ch fun c =>
    { c with bytes := BitVec.ofNat 32 (satAdd 32 c.bytes.toNat n), lines := ls.foldl listAdd c.lines }

/-- Check 2. -/
def State.check2 (s : State) (h : List Byte) : Nat :=
  match hKind h with
  | 0 => if s.lapsRun then 2 else 0
  | k =>
    if s.persona_ ≠ 2 then 3
    else if k = 1 ∧ s.flag F.LOAD_STAT.ACT_PENDING then 0x15
    else if k = 2 ∧ !((List.range (hRegions h)).all fun i => s.regionBenched (regionAt h i)) then 0xD
    else 0

def State.imageKey (s : State) (slot : Nat) : Option (BitVec 768) :=
  if s.flag F.IMGKEY.VALID [slot] then some (Sparse.read s.ref.keys slot) else none

/-- Check 4. -/
def State.check4 (s : State) (h : List Byte) : Nat :=
  if hUnsigned h then (if s.flag F.SEC_CTRL.LAB_EN then 0 else 7)
  else match s.imageKey (hKeyslot h) with
    | none => 5
    | some k => if sigOk k h then 0 else 6

/-- Check 6: the header is accepted (R107, R114). A FULL image clears a pending activation and what is staged (notes/assumptions 84). -/
def State.acceptImage (s : State) (j : Job) (h tbl : List Byte) : State :=
  let j := { j with
    accepted := true
    kind := hKind h
    isUnsigned := hUnsigned h
    regions := (List.range (hRegions h)).map (regionAt h)
    sections := (List.range 5).map (hSection h)
    root := hRoot h
    digests := tbl }
  let s := ((s.putJob j).put F.LOAD_STAT.LOADER 2).put F.LOAD_STAT.KIND j.kind
  match j.kind with
  | 0 =>
    let s : State := { s with
      fab := { s.fab with committed := [], undef := [] }
      persona := { s.persona with staged := [], stagedSetup := none } }
    (((s.put F.LOAD_STAT.PERSONA 0).put F.LOAD_STAT.STAGED 0).put F.LOAD_STAT.ACT_PENDING 0).assertGsr
  | 1 => { s with persona := { s.persona with staged := [], stagedSetup := none } }.put F.LOAD_STAT.STAGED 0
  | _ =>
    { s with persona := { s.persona with heldRegions := s.persona.heldRegions ++ j.regions } }.put F.LOAD_STAT.UNBENCH_HELD 1

/-- The header and digest table are fetched and checks 1 to 6 made. -/
def State.headerChecks (s : State) (j : Job) : State :=
  match s.loaderFetch j.role (j.engine.val / 4) j.addr 4096 with
  | (.ok, h, ls, s) =>
    let s := s.fetched j 4096 ls
    if !headerOk h j.len then s.failLoad 1
    else if s.check2 h ≠ 0 then s.failLoad (s.check2 h)
    else if !lockOk h then s.failLoad 4
    else if s.check4 h ≠ 0 then s.failLoad (s.check4 h)
    else match s.loaderFetch j.role (j.engine.val / 4) (j.addr + 4096) (tableLen h) with
      | (.ok, tbl, ls, s) =>
        let s := s.fetched j (tableLen h) ls
        if tableOk h tbl then s.acceptImage j h tbl else s.failLoad 8
      | (r, _, _, s) => s.failTransfer r
  | (r, _, _, s) => s.failTransfer r

/-! ### Frame records (R103 to R106, check 7) -/

/-- The fields of a frame descriptor. -/
structure Desc where
  kind : Nat
  staged : Bool
  tile : Nat
  slot : Nat
  target : Nat
  len : Nat
  addr : Nat
  crc : Nat
  deriving DecidableEq, Repr

def descOf (d : List Byte) : Desc :=
  { kind := leField d 0 1
    staged := leField d 1 1 % 2 == 1
    tile := tileNo (leField d 2 1) (leField d 3 1) (leField d 4 1)
    slot := leField d 5 1
    target := leField d 6 1
    len := leField d 8 4
    addr := leField d 0x10 8
    crc := leField d 0x18 4 }

def isTileFrame (k : Nat) : Bool := k == 1 || k == 2 || k == 3

/-- The section that R104 gives for a frame. -/
def sectionFor (d : Desc) : Nat :=
  if isTileFrame d.kind then 1 + tileDie d.tile / 2 else if d.kind = 4 then 1 + memTower d.addr else 0

/-- The payload's length fits the kind. -/
def lenOk (d : Desc) : Bool :=
  match d.kind with
  | 1 => d.len == 8192
  | 2 => decide (512 ≤ d.len) && decide (d.len ≤ 512 + 8 * 4096) && d.len % 8 == 0
  | 3 => d.len == 2048
  | 4 => d.len % 16 == 0 && decide (16 ≤ d.len) && decide (d.len ≤ 0x400000)
  | 5 => decide (128 + 8192 ≤ d.len) && d.len % 8 == 0
  | 6 => d.len == 8768
  | 7 => decide (64 ≤ d.len) && d.len % 8 == 0
  | _ => true

/-- The descriptor is well formed (R103, R104). -/
def descOk (imageKind sec : Nat) (d : List Byte) : Bool :=
  let x := descOf d
  [1, 2, 3, 4, 5, 6, 7, 0x10, 0x11].contains x.kind &&
    decide (leField d 1 1 < 2) && (!x.staged || x.kind == 6) &&
    (isTileFrame x.kind || zeroBytes d 2 4) &&
    (!isTileFrame x.kind || (decide (leField d 2 1 ≤ 7) && decide (leField d 3 1 ≤ 63) && decide (leField d 4 1 ≤ 63))) &&
    (if x.kind = 1 then decide (x.slot ≤ 35) else x.slot == 0) &&
    (if x.kind = 1 ∧ 32 ≤ x.slot ∧ imageKind ≠ 2 then decide (x.target ≤ 31) else x.target == 0) &&
    leField d 7 1 == 0 && zeroBytes d 0x0C 0x0F && zeroBytes d 0x1C 0x3F &&
    (if x.kind = 4 then
      x.addr % 16 == 0 && decide (x.addr < 0x100000000) && (x.addr + x.len - 1) / 0x400000 == x.addr / 0x400000
     else x.addr == 0) &&
    lenOk x && sectionFor x == sec

/-- The frame is permitted in the image kind (R105). -/
def framePermitted (j : Job) (d : Desc) : Bool :=
  match j.kind, d.kind with
  | 0, 5 => j.pinmaps == 0
  | 0, 6 => if d.staged then j.stagedSetups == 0 else j.setups == 0
  | 0, 7 => j.tokens == 0
  | 0, k => decide (k ≤ 4)
  | 1, 1 => decide (32 ≤ d.slot)
  | 1, 6 => d.staged && j.stagedSetups == 0
  | 2, k => isTileFrame k
  | _, _ => false

/-- The frame lies inside the header's regions (R106). -/
def frameInRegions (j : Job) (d : Desc) : Bool :=
  j.kind == 0 || !isTileFrame d.kind || j.regions.any fun r =>
    inRegionTile r d.tile &&
      (d.kind != 1 ||
        (let n := if j.kind = 1 then d.target else d.slot
         decide (r.slotFirst ≤ n) && decide (n ≤ r.slotLast)))

/-! #### Payloads -/

def parseSetup (p : List Byte) : LapSetup :=
  { kinds := leWords p 0 8
    sched := leWords p 0x40 64
    ports := (List.range 1024).foldl (fun m b => Sparse.write m b (BitVec.ofNat 64 (leField p (0x240 + 8 * b) 8))) [] }

/-- The tile that the port binding of bank `b` (in package order) names. -/
def boundTile (b : Nat) (v : W64) : Nat := tileNo (2 * (b / 256) + bitsOf v 1 1) (bitsOf v 13 8) (bitsOf v 21 16)

/-- The schedule of a lap setup is one that R65 accepts from entry 0. -/
def setupSchedule (u : LapSetup) : Bool :=
  let kind := fun k => u.kinds.getD k 0
  let entry := fun i => u.sched.getD i 0
  let last := ((List.range 64).find? fun i => bit (entry i) 7).getD 63
  ((List.range 8).all fun k => !bit (kind k) 0 || decide (bitsOf (kind k) 12 8 + bitsOf (kind k) 20 16 ≤ 31)) &&
    (List.range (last + 1)).all fun i => bit (kind (bitsOf (entry i) 2 0)) 0

/-- Port bindings: reserved bits zero, and no tile bound twice (R104). -/
def setupPorts (u : LapSetup) : Bool :=
  let bound := u.ports.filter fun p => bit p.2 0
  (u.ports.all fun p => bitsOf p.2 63 22 == 0 && bitsOf p.2 15 14 == 0 && bitsOf p.2 7 2 == 0) &&
    ((bound.map fun p => boundTile p.1 p.2).eraseDups.length == bound.length)

def State.setupFabric (s : State) (u : LapSetup) : Bool :=
  u.ports.all fun p => !bit p.2 0 || s.fld F.BANK_OWNER.KIND [p.1 / 256, p.1 % 256] == 0

/-- The setup is written into LAP_KIND, LAP_SCHED and the port bindings. -/
def State.installSetup (s : State) (u : LapSetup) : State :=
  let s := (List.range 8).foldl (fun s k => s.store .LAP_KIND [k] .full (u.kinds.getD k 0)) s
  let s := (List.range 64).foldl (fun s i => s.store .LAP_SCHED [i] .full (u.sched.getD i 0)) s
  { s with fab := { s.fab with portBind := u.ports } }

def parsePinMap (p : List Byte) : PinMap :=
  { asyncBanks := BitVec.ofNat 4 (leField p 4 1)
    defaults := BitVec.ofNat 512 (leField p 0x40 64)
    outputs := (List.range 512).foldl (fun m o => Sparse.write m o (BitVec.ofNat 64 (leField p (128 + 8 * o) 8))) []
    pins := (List.range 512).foldl (fun m o => Sparse.write m o (BitVec.ofNat 64 (leField p (128 + 4096 + 8 * o) 8))) []
    imports := leWords p (128 + 8192) (leField p 0 4) }

/-- Bits of an import entry's cell fields and slot that must be zero besides the number in [56:48] or [47:32]. -/
def usedOutput (m : PinMap) (v : W64) (hi : Nat) : Bool :=
  !bit v hi || bit (outEntry m (bitsOf v (hi - 1) (hi - 9))) 63

/-- The checks of a PINMAP payload (R398). -/
def State.pinMapOk (s : State) (p : List Byte) (len : Nat) : Bool :=
  let m := parsePinMap p
  len == 128 + 8192 + 8 * leField p 0 4 && decide (leField p 4 1 < 16) && zeroBytes p 5 0x3F &&
    ((List.range 512).all fun o =>
      let e := outEntry m o
      bitsOf e 62 29 == 0) &&
    ((List.range 512).all fun n =>
      let e := pinEntry m n
      bitsOf e 62 42 == 0 &&
        (!bit e 63 || (s.pinOwner n == 0 && (bitsOf e 41 40 != 3 || bit e 39) &&
          usedOutput m e 39 && usedOutput m e 29 && usedOutput m e 19))) &&
    m.imports.all fun e => bitsOf e 63 57 == 0 && bitsOf e 47 30 == 0

def parseTokens (p : List Byte) : TokenTables :=
  let e := leField p 0 4
  let x := leField p 4 4
  let g := leField p 8 4
  let y := leField p 12 4
  { exportGroups := leWords p 64 e
    exports := leWords p (64 + 8 * e) x
    importGroups := leWords p (64 + 8 * (e + x)) g
    imports := leWords p (64 + 8 * (e + x + g)) y }

/-- An entry of a group's array: in range, in its group's slot and tower. -/
def tokenEntryOk (groups : List W64) (v : W64) : Bool :=
  match groups[bitsOf v 47 32]? with
  | none => false
  | some g =>
    bitsOf v 63 57 == 0 && bitsOf v 31 30 == 0 && decide (bitsOf v 56 48 < groupBits g) && entrySlot v == groupSlot g &&
      bitsOf v 2 0 / 2 == groupTower g

/-- Each bit of a group is named by exactly one entry. -/
def groupCovered (groups entries : List W64) : Bool :=
  ((List.range groups.length).zip groups).all fun p =>
    let bits := (entries.filter fun v => bitsOf v 47 32 == p.1).map fun v => bitsOf v 56 48
    decide (1 ≤ groupBits p.2) && decide (groupBits p.2 ≤ 512) && bits.length == groupBits p.2 &&
      bits.eraseDups.length == bits.length

/-- The checks of a TOKENS payload (R268). -/
def State.tokensOk (s : State) (p : List Byte) (len : Nat) : Bool :=
  let t := parseTokens p
  decide (leField p 0 4 ≤ 65536) && decide (leField p 8 4 ≤ 65536) && zeroBytes p 16 63 &&
    len == 64 + 8 * (leField p 0 4 + leField p 4 4 + leField p 8 4 + leField p 12 4) &&
    (t.exportGroups.all fun g => bitsOf g 63 49 == 0 && bitsOf g 15 12 == 0 &&
      (bitsOf g 11 0 != s.selfId || decide (bitsOf g 31 16 < t.importGroups.length))) &&
    (t.importGroups.all fun g => bitsOf g 63 49 == 0 && bitsOf g 31 12 == 0) &&
    t.exports.all (tokenEntryOk t.exportGroups) && t.imports.all (tokenEntryOk t.importGroups) &&
    groupCovered t.exportGroups t.exports && groupCovered t.importGroups t.imports

/-- Two import entries, of pin map or token tables, name one import slot (R42, check 8). -/
def importsConflict (m : PinMap) (t : TokenTables) : Bool :=
  let keys := (m.imports ++ t.imports).map fun e => (entryTile e, entryCell e, entrySlot e)
  keys.eraseDups.length != keys.length

/-! #### Writing frames -/

/-- A CONTEXT frame: 512 words into the physical slot that serves the slot number. -/
def State.writeContext (s : State) (d : Desc) (p : List Byte) : State :=
  let pt := s.phys d.tile
  let s := ((List.range 512).zip (leQuads p 512)).foldl (fun s w => s.setFrameWord pt d.slot w.1 w.2) s
  s.clearBad pt (s.slotOf pt d.slot)

/-- The function tables that an FTABLE payload gives: masks, then the given entries in order. -/
def ftableEntries (p : List Byte) : List (Nat × W64) :=
  let given := (List.range 4096).filter fun n => (leField p (8 * (n / 64)) 8).testBit (n % 64)
  ((List.range given.length).zip given).map fun q => (q.2, BitVec.ofNat 64 (leField p (512 + 8 * q.1) 8))

def State.writeFtable (s : State) (d : Desc) (p : List Byte) : State :=
  let pt := s.phys d.tile
  let keep := s.fab.ftable.filter fun q => q.1 / 4096 != pt
  let f := (ftableEntries p).foldl (fun m q => Sparse.write m (pt * 4096 + q.1) q.2) keep
  { s with fab := { s.fab with ftable := f } }

def State.writeState (s : State) (d : Desc) (p : List Byte) : State :=
  let pt := s.phys d.tile
  ((List.range 128).zip (leQuads p 128)).foldl (fun s q => s.setCommitted (stateKey pt q.1) q.2) s

/-- The words of a MEMORY frame; those that came from vault lines carry the lines' verdicts (R166). `from_`: the device address of the
payload. -/
def State.writeMemory (s : State) (d : Desc) (p : List Byte) (from_ : Nat) (ls : List Nat) : State :=
  let n := d.len / 16
  let line (i : Nat) : Nat := (from_ + 16 * i - 0x800000000000) / 64
  ((List.range n).zip (leQuads p n)).foldl (fun s q =>
    (s.memStore (d.addr + 16 * q.1) q.2).carryVerdicts (d.addr + 16 * q.1) 1
      (if spaceOf from_ == .host && ls.contains (line q.1) then [line q.1] else [])) s

/-- R108: within one tile, no second frame for a staging slot or a TARGET. -/
def stagedClash (staged : List (Nat × Nat × Nat)) (d : Desc) : Bool :=
  staged.any fun t => t.1 == d.tile && (t.2.1 == d.slot || t.2.2 == d.target)

/-- What a checked frame does: a result code, and the job and state after it. -/
def State.applyFrame (s : State) (j : Job) (d : Desc) (p : List Byte) (from_ : Nat) (ls : List Nat) : Nat × Job × State :=
  match d.kind with
  | 1 =>
    let staging := 32 ≤ d.slot ∧ j.kind ≠ 2
    if staging ∧ stagedClash j.staged d then (9, j, s)
    else
      let j := if staging then { j with staged := j.staged ++ [(d.tile, d.slot, d.target)] }
        else if d.slot < 32 then { j with tilesUsed := listAdd j.tilesUsed d.tile } else j
      (0, j, s.writeContext d p)
  | 2 => if d.len = 512 + 8 * (ftableEntries p).length then (0, j, s.writeFtable d p) else (9, j, s)
  | 3 => (0, j, s.writeState d p)
  | 4 =>
    if s.fld F.BANK_OWNER.KIND [memTower d.addr, memBank d.addr] ≠ 0 then (0xE, j, s)
    else (0, j, s.writeMemory d p from_ ls)
  | 5 =>
    if s.pinMapOk p d.len then (0, { j with pinmaps := j.pinmaps + 1, pinMap := some (parsePinMap p) }, s) else (9, j, s)
  | 6 =>
    let u := parseSetup p
    if !s.setupFabric u then (0xE, j, s)
    else if !setupSchedule u || !setupPorts u then (9, j, s)
    else if d.staged then (0, { j with stagedSetups := j.stagedSetups + 1, stagedSetup := some u }, s)
    else (0, { j with setups := j.setups + 1 }, s.installSetup u)
  | 7 => if s.tokensOk p d.len then (0, { j with tokens := j.tokens + 1, tokenTables := parseTokens p }, s) else (9, j, s)
  | _ => (0xB, j, s)

/-! #### Sections, segments and faults (R102, R110) -/

def Job.sectionAt (j : Job) (i : Nat) : Nat × Nat := j.sections.getD i (0, 0)
def Job.cursor (j : Job) (i : Nat) : Cursor := j.cursors.toList.getD i {}
def Job.setCursor (j : Job) (i : Nat) (c : Cursor) : Job := { j with cursors := modifyAt j.cursors i fun _ => c }
/-- The records of a section have all been processed. -/
def Job.over (j : Job) (i : Nat) : Bool := (j.cursor i).offset == (j.sectionAt i).2
def Job.allOver (j : Job) : Bool := (List.range 5).all j.over
/-- The four tower sections of a FULL image are processed in parallel, after section 0. -/
def Job.parallel (j : Job) (sec : Nat) : Bool := j.kind == 0 && sec != 0
/-- The section of the next record: sections one after another, and in a FULL image, past section 0, that of the given tower. -/
def Job.nextSection (j : Job) (t : Nat) : Nat :=
  if j.kind = 0 ∧ j.over 0 then 1 + t else ((List.range 5).find? fun i => !j.over i).getD 4

/-- The number of the digest-table entry of segment `n` of a section. -/
def Job.digestIndex (j : Job) (sec n : Nat) : Nat := ((j.sections.take sec).map fun q => segmentsOf q.2).foldl (· + ·) 0 + n

/-- Segments that have come in whole are held to their digests; none where one does not match. -/
def Job.checkSegments (j : Job) (sec : Nat) (c : Cursor) : Nat → Option Cursor
  | 0 => some c
  | fuel + 1 =>
    if 0x1000000 ≤ c.bytes.length ∨ (c.offset = (j.sectionAt sec).2 ∧ !c.bytes.isEmpty) then
      if Config.sha384 (c.bytes.take 0x1000000) == digestAt j.digests (48 * j.digestIndex sec c.segments) then
        j.checkSegments sec { c with bytes := c.bytes.drop 0x1000000, segments := c.segments + 1 } fuel
      else none
    else some c

/-- The records of a section from an offset on, as its descriptors count them. -/
def State.countRecords (s : State) (j : Job) (sec : Nat) : Nat → Nat → Nat
  | _, 0 => 0
  | off, fuel + 1 =>
    let q := j.sectionAt sec
    if q.2 ≤ off then 0
    else match s.loaderFetch j.role (sec - 1) (j.addr + q.1 + off) 64 with
      | (.ok, db, _, _) => 1 + s.countRecords j sec (off + 64 + ((descOf db).len + 15) / 16 * 16) fuel
      | _ => 0

/-- The frame index of record `n` of a section: records are counted through the sections in order. -/
def State.frameIndex (s : State) (j : Job) (sec n : Nat) : Nat :=
  ((List.range sec).map fun i =>
    (j.cursor i).records + s.countRecords j i (j.cursor i).offset ((j.sectionAt i).2 / 64 + 1)).foldl (· + ·) 0 + n

/-- A fault of a record, or of no record. The loader stops at it; in the tower sections of a FULL image the abort takes effect later
(notes/assumptions 86). -/
def State.faultAt (s : State) (j : Job) (sec result : Nat) (record : Option Nat) : State :=
  if j.parallel sec then s.putJob (j.setCursor sec { j.cursor sec with fault := some (result, record) })
  else s.endLoad result ((record.map (s.frameIndex j sec)).getD noFrame)

/-- The abort of a FULL load takes effect: the fault of the lowest frame index is reported. -/
def State.abortParallel (s : State) (j : Job) : State :=
  let faults := (List.range 5).filterMap fun sec =>
    (j.cursor sec).fault.map fun f => (f.1, (f.2.map (s.frameIndex j sec)).getD noFrame)
  match faults with
  | [] => s
  | f :: rest =>
    let least := rest.foldl (fun m g => if g.2 < m.2 then g else m) f
    s.endLoad least.1 least.2

/-- The domain into which a frame is written. -/
def State.frameDomain (s : State) (d : Desc) : Option Nat :=
  match d.kind with
  | 1 => some (pdCfg (tileDie d.tile))
  | 2 | 3 => some (pdLogic (tileDie d.tile) (s.pcol (tileDie d.tile / 2) (tileRow d.tile) (tileCol d.tile)))
  | 4 => some (pdQuad (memTower d.addr) (memBank d.addr))
  | _ => none

/-! #### Completion (check 8) -/

/-- The image is complete and loaded. -/
def State.loaded (s : State) (j : Job) : State :=
  let s : State := match j.kind with
    | 0 =>
      let s : State := { s with
        fab := { s.fab with tilesUsed := j.tilesUsed }
        persona := { s.persona with
          staged := j.staged
          stagedSetup := j.stagedSetup
          stagedRoot := j.root
          stagedKind := 0
          stagedUnsigned := j.isUnsigned
          heldRegions := []
          loadedRoot := j.root
          loadedUnsigned := j.isUnsigned
          pinLoaded := j.pinMap.getD {}
          tokens := j.tokenTables } }
      ((s.put F.LOAD_STAT.PERSONA 1).put F.LOAD_STAT.UNBENCH_HELD 0).put F.LOAD_STAT.STAGED
        (b2n (!j.staged.isEmpty || j.stagedSetup.isSome))
    | 1 =>
      { s with persona := { s.persona with
          staged := j.staged, stagedSetup := j.stagedSetup, stagedRoot := j.root, stagedKind := 1
          stagedUnsigned := j.isUnsigned } }.put
        F.LOAD_STAT.STAGED (b2n (!j.staged.isEmpty || j.stagedSetup.isSome))
    | _ =>
      let held := s.persona.heldRegions.filter fun r => !(j.regions.any fun o => regionWithin r o)
      let s : State := { s with
        fab := { s.fab with tilesUsed := j.tilesUsed.foldl listAdd s.fab.tilesUsed }
        persona := { s.persona with heldRegions := held } }
      s.put F.LOAD_STAT.UNBENCH_HELD (b2n (!held.isEmpty))
  s.endLoad 0 noFrame

/-- Check 8; a load whose vault lines still lack verdicts waits for them (R82). -/
def State.completeLoad (s : State) (j : Job) : State :=
  if j.kind = 0 ∧ j.setups ≠ 1 then s.failLoad 0x11
  else if importsConflict (j.pinMap.getD {}) j.tokenTables then s.failLoad 0x10
  else
    let s := s.put F.LOAD_STAT.LOADER 3
    if (s.eng j.engine).chans[j.ch].lines.isEmpty then s.loaded j
    else s.onChan j.engine j.ch fun c => { c with verdictWait := true }

/-- A record whose frame has been written: the loader goes on to the next one, and holds the segments that are complete to their
digests. -/
def State.recordDone (s : State) (j : Job) (sec : Nat) (bytes : List Byte) : State :=
  let c := j.cursor sec
  let c := { c with offset := c.offset + bytes.length, records := c.records + 1, bytes := c.bytes ++ bytes }
  match j.checkSegments sec c (bytes.length / 0x1000000 + 2) with
  | none => s.faultAt (j.setCursor sec c) sec 0xF none
  | some c =>
    let j := j.setCursor sec c
    let s := s.putJob j
    if j.allOver then s.completeLoad j else s

/-- A frame whose descriptor and payload have been fetched from `from_` is checked and written. -/
def State.frameIn (s : State) (j : Job) (sec : Nat) (db pb : List Byte) (from_ : Nat) (ls : List Nat) : State :=
  let d := descOf db
  let p := pb.take d.len
  let bad := fun (s : State) result => s.faultAt j sec result (some (j.cursor sec).records)
  if crc32c p ≠ BitVec.ofNat 32 d.crc then bad s 0xA
  else if !framePermitted j d then bad s 0xB
  else if !frameInRegions j d then bad s 0xC
  else match s.applyFrame j d p from_ ls with
    | (0, j, s) => s.recordDone j sec (db ++ pb)
    | (r, _, s) => bad s r

/-- The frame cannot be written now: its domain is fenced. A domain that wakes on access is asked for RUN and the record waits; else
the load ends with TRANSFER (notes/assumptions 87). -/
def State.frameWaits (s : State) (d : Nat) : State :=
  if s.flag F.PD_CTRL.WAKE_ON_ACCESS [d] then s.pdRequest d 1 else s.failTransfer .domainOff

/-- The next frame record of section `sec` is fetched, checked and written. -/
def State.frameRecord (s : State) (j : Job) (sec : Nat) : State :=
  let q := j.sectionAt sec
  let c := j.cursor sec
  let tw := if j.parallel sec then sec - 1 else j.engine.val / 4
  let base := j.addr + q.1 + c.offset
  if q.2 < c.offset + 64 then s.faultAt j sec 9 (some c.records)
  else match s.loaderFetch j.role tw base 64 with
    | (.ok, db, ls, s) =>
      let d := descOf db
      let padded := (d.len + 15) / 16 * 16
      if !descOk j.kind sec db ∨ q.2 < c.offset + 64 + padded then (s.fetched j 64 ls).faultAt j sec 9 (some c.records)
      else match (s.frameDomain d).filter s.fenced with
        | some dom => s.frameWaits dom
        | none =>
          match (s.fetched j 64 ls).loaderFetch j.role tw (base + 64) padded with
          | (.ok, pb, ls, s) => (s.fetched j padded ls).frameIn j sec db pb (base + 64) ls
          | (r, _, _, s) => s.failTransfer r
    | (r, _, _, s) => s.failTransfer r

/-- The loader goes on: with the next record, with the abort that a fault in the tower's section has brought, or with the end of an
image whose sections are all over. -/
def State.loadGoesOn (s : State) (j : Job) (t : Nat) : State :=
  let sec := j.nextSection t
  if j.allOver then s.completeLoad j
  else if (j.cursor sec).fault.isSome then s.abortParallel j
  else if j.over sec then s
  else s.frameRecord j sec

def execLoadFrameRecord (t : Tower) (s : State) : Out :=
  match s.persona.job with
  | some j => if j.accepted && s.fld F.LOAD_STAT.LOADER == 2 then .next (s.loadGoesOn j t.val).settle else .next s
  | none => .next s

/-- The load has run longer than the deadline it was accepted with (R113). -/
def execLoadTimeout (s : State) : Out :=
  match s.persona.job with
  | some j => if j.deadline = 0 then .next s else .next (s.failLoad 0x13).settle
  | none => .next s

/-! ### Activation (R116 to R120) -/

/-- The record of an activation, of what an image of kind `kind` has loaded (R112). -/
def State.recordActivation (s : State) (root : BitVec 384) (kind : Nat) (isUnsigned : Bool) : State :=
  s.record 6 (3 * 8192 + s.persona.actQueue.toNat) (roleCode s.persona.actRole) 0
    (BitVec.ofNat 64 (s.persona.actEngine.val + kind * 16 + b2n isUnsigned * 64)) (rootHead root) s.lapCount false false

def State.setPersonaId (s : State) (root : BitVec 384) : State :=
  (List.range 6).foldl (fun s i => s.setReg .PERSONA_ID [i] (wordAt root i)) s

/-- A full personality is activated: laps are halted. LATE reads 0 after it (notes/assumptions 88). -/
def State.activateFull (s : State) : State :=
  let s := (s.put F.SCHED_STAT.POS 0).put F.LOAD_STAT.LATE 0
  let s := (s.put F.LOAD_STAT.PERSONA 2).put F.LOAD_STAT.UNSIGNED (b2n s.persona.loadedUnsigned)
  let s := (s.activatePins.releaseGsr).flushContexts
  let s := (s.setReg .ACT_LAP [] s.lapCount).setPersonaId s.persona.loadedRoot
  let s : State := { s with log := { s.log with activationMark := true } }
  (s.traceLast 4 fun _ => BitVec.ofNat 64 (s.lapCount.toNat % 2 ^ 32)).recordActivation s.persona.loadedRoot 0
    s.persona.loadedUnsigned

/-- Slot `a` and slot `b` of a physical tile exchange their physical slots. -/
def State.swapSlots (s : State) (pt a b : Nat) : State :=
  (s.setSlot pt a (s.slotOf pt b)).setSlot pt b (s.slotOf pt a)

/-- A staged activation applies: slot maps are exchanged in every tower, and a staged lap setup is installed. UNSIGNED stays as the
full image left it (notes/assumptions 89). -/
def State.activateStaged (s : State) : State :=
  let s : State := s.persona.staged.foldl (fun s t =>
    { s.swapSlots (s.phys t.1) t.2.1 t.2.2 with fab := { (s.swapSlots (s.phys t.1) t.2.1 t.2.2).fab with
        tilesUsed := listAdd s.fab.tilesUsed t.1 } }) s
  let s := match s.persona.stagedSetup with
    | some u => (s.installSetup u).put F.SCHED_STAT.POS 0
    | none => s
  let root := s.persona.stagedRoot
  let s : State := { s with
    persona := { s.persona with staged := [], stagedSetup := none }
    log := { s.log with activationMark := true } }
  let s := ((s.put F.LOAD_STAT.STAGED 0).put F.LOAD_STAT.ACT_PENDING 0).flushContexts
  let s := s.traceLast 4 fun _ => BitVec.ofNat 64 (s.lapCount.toNat % 2 ^ 32)
  ((s.setReg .ACT_LAP [] s.lapCount).setPersonaId root).recordActivation root s.persona.stagedKind s.persona.stagedUnsigned

/-- CTXACT: the result code and the state (R116, R117, R123). -/
def State.ctxAct (s : State) (e : Eng) : Nat × State :=
  let at_ := s.reg .ACT_AT
  if s.persona.job.isSome then (2, s)
  else
    let s' : State := { s with persona := { s.persona with
      actEngine := e, actQueue := (s.eng e).cmdQueue, actRole := (s.eng e).role } }
    if s.persona_ = 1 then (0, s'.activateFull)
    else if !s.flag F.LOAD_STAT.STAGED then (1, s)
    else if s.flag F.LOAD_STAT.ACT_PENDING then (0, s)
    else
      let late := at_ != 0 && (decide (at_ < s.lapCount) || (at_ == s.lapCount && s.lapsRun))
      let s' := s'.put F.LOAD_STAT.LATE (b2n late)
      if !s.lapsRun && (at_ == 0 || late || at_ == s.lapCount) then (0, s'.activateStaged)
      else (0, s'.put F.LOAD_STAT.ACT_PENDING 1)

/-- A pending activation is due at the boundary just reached (R117). -/
def State.activationDue (s : State) : Bool :=
  s.flag F.LOAD_STAT.ACT_PENDING &&
    (s.reg .ACT_AT == 0 || s.flag F.LOAD_STAT.LATE || s.reg .ACT_AT == s.lapCount)

/-- While an activation is pending and laps are halted, a write to LAP_COUNT is tested as CTXACT is (R117). -/
def State.activationByCount (s : State) : State :=
  let at_ := s.reg .ACT_AT
  if !s.flag F.LOAD_STAT.ACT_PENDING || s.lapsRun || at_ == 0 then s
  else
    let s := s.put F.LOAD_STAT.LATE (b2n (decide (at_ < s.lapCount)))
    if at_ ≤ s.lapCount then s.activateStaged else s

/-- LOAD_CTRL.DISCARD: what is staged is discarded, unless an activation is pending (R123). -/
def State.discardStaged (s : State) : State :=
  if s.flag F.LOAD_STAT.ACT_PENDING then s
  else { s with persona := { s.persona with staged := [], stagedSetup := none } }.put F.LOAD_STAT.STAGED 0

end Sys2Proof.Machine
end

