-- ==== Sys2Proof/Machine/Repair.lean ====
section
/-! DEFINITION. Soft repairs and their log, tile rotation and the walk of a row's skip column, and spares (R356 to R358, R366
to R370). -/

namespace Sys2Proof.Machine

/-! ### The repair log (R370) -/

/-- *REPAIR_LOGi*, word 0. -/
structure RepairEntry where
  kind : Nat
  left : Nat := 0
  layer : Nat := 0
  row : Nat := 0
  pcol : Nat := 0
  cluster : Nat := 0
  item : Nat := 0
  deriving DecidableEq, Repr

def repairWord (r : RepairEntry) : W64 :=
  BitVec.ofNat 64 (r.kind * 2 ^ 56 + r.left * 2 ^ 40 + r.layer * 2 ^ 37 + r.row * 2 ^ 31 + r.pcol * 2 ^ 24 +
    r.cluster * 2 ^ 18 + r.item)

/-- An entry of the repair log of tower `t`, with its black-box record. -/
def State.logRepair (s : State) (t : Nat) (r : RepairEntry) : State :=
  let n := s.fld F.REPAIR_STAT.NEXT [t]
  let s := (s.setReg .REPAIR_LOG [t, n] (repairWord r)).setReg .REPAIR_LOG_LAP [t, n] s.lapCount
  let s := s.put F.REPAIR_STAT.NEXT ((n + 1) % 64) [t]
  s.recordAuto 0x0A (BitVec.ofNat 64 t) (repairWord r)

/-- Repairs that a fuse commit programs: not the marks and declarations that describe capacity, kinds 9 and 10 (R371). -/
def fusable (kind : Nat) : Bool := kind != 0 && kind != 9 && kind != 10

/-- A soft repair of tower `t` is logged, recorded and counted. -/
def State.softRepair (s : State) (t : Nat) (r : RepairEntry) : State :=
  ((s.logRepair t r).count F.REPAIR_STAT.TOTAL [t]).count F.REPAIR_STAT.UNCOMMITTED [t]

/-! ### Rotation (R356 to R358) -/

def State.skipCol (s : State) (t row : Nat) : Nat := s.fld F.STEER.S [t, row]

/-- The next column of a walk from `sc` toward `target`. -/
def walkNext (sc target : Nat) : Nat := if target < sc then sc - 1 else sc + 1

/-- Source and destination physical columns when S moves from `sc` to `new`, and the logical column that moves. -/
def movedCol (sc new : Nat) : Nat := if new < sc then new else sc
def sourceCol (sc new : Nat) : Nat := if new < sc then new else sc + 1
def destCol (sc _new : Nat) : Nat := sc

/-- A physical tile's frames, slot map and function tables copied to another's place. -/
def State.copyFrames (s : State) (src dst : Nat) : State :=
  let s := (List.range 36).foldl (fun s k => s.setSlot dst k (s.slotOf src k)) s
  let base := fun (p : Nat) => p * 36 * 512
  let moved := s.fab.frames.filter fun q => decide (base src ≤ q.1) && decide (q.1 < base (src + 1))
  let kept := s.fab.frames.filter fun q => !(decide (base dst ≤ q.1) && decide (q.1 < base (dst + 1)))
  let fmoved := s.fab.ftable.filter fun q => q.1 / 4096 == src
  let fkept := s.fab.ftable.filter fun q => q.1 / 4096 != dst
  let s : State := { s with fab := { s.fab with
      frames := moved.foldl (fun m q => Sparse.write m (q.1 - base src + base dst) q.2) kept
      ftable := fmoved.foldl (fun m q => Sparse.write m (q.1 - src * 4096 + dst * 4096) q.2) fkept } }
  (List.range 36).foldl (fun s k => s.clearBad dst k) s

/-- A physical tile's committed state copied to another's place. -/
def State.copyState (s : State) (src dst : Nat) : State :=
  (List.range 128).foldl (fun s w => s.setCommitted (stateKey dst w) (s.committedWord (stateKey src w))) s

/-- The physical tiles of both logic dies at a position. -/
def ptilesAt (t row pcol : Nat) : List Nat := [2 * t, 2 * t + 1].map fun d => d * 4160 + row * 65 + pcol

def State.setFail (s : State) (t row col : Nat) (v : Bool) (l3 l4 : Bool) : State :=
  let s := if l3 then s.setReg .TFAIL_L3 [t, row] (setBits (s.reg .TFAIL_L3 [t, row]) col col (b2n v)) else s
  if l4 then s.setReg .TFAIL_L4 [t, row] (setBits (s.reg .TFAIL_L4 [t, row]) col col (b2n v)) else s

/-- A walk of the row's S toward `target` begins, or goes on. -/
def State.walk (s : State) (t : Fin 4) (row target : Nat) : State :=
  let sc := s.skipCol t.val row
  let s := s.put F.STEER.TARGET target [t.val, row]
  let others := s.rotations.filter fun r => !(r.tower == t && r.row == row)
  if sc = target then
    let retire := s.ref.retiring.contains (t.val * 64 + row)
    let s := s.put F.STEER.WALKING 0 [t.val, row]
    if retire then
      let s := { s with rotations := others
                        ref := { s.ref with retiring := listDrop s.ref.retiring (t.val * 64 + row) } }
      s.put F.STEER.RETIRED 1 [t.val, row]
    else { s with rotations := others }
  else
    let s := s.put F.STEER.WALKING 1 [t.val, row]
    { s with rotations := others ++ [⟨t, row, walkNext sc target, false⟩] }

/-- The rotation's pre-copy: frames and function tables of the moving tiles (R356, part 1). -/
def State.preCopy (s : State) (r : Rotation) : State :=
  let sc := s.skipCol r.tower.val r.row
  (List.range 2).foldl (fun s i =>
    let d := 2 * r.tower.val + i
    s.copyFrames (d * 4160 + r.row * 65 + sourceCol sc r.newS) (d * 4160 + r.row * 65 + destCol sc r.newS)) s

/-- The rotation applies: state is copied and the row's steering switches (R356, part 2); the walk goes on. -/
def State.rotate (s : State) (r : Rotation) : State :=
  let t := r.tower.val
  let sc := s.skipCol t r.row
  let s := s.preCopy r
  let s := (List.range 2).foldl (fun s i =>
    let d := 2 * t + i
    s.copyState (d * 4160 + r.row * 65 + sourceCol sc r.newS) (d * 4160 + r.row * 65 + destCol sc r.newS)) s
  let s := s.put F.STEER.S r.newS [t, r.row]
  let s := s.setFail t r.row (movedCol sc r.newS) false true true
  (s.flushContexts).walk r.tower r.row (s.fld F.STEER.TARGET [t, r.row])

/-- The half-dies between which a rotation moves tiles are in RUN (R358). -/
def State.rotationPowered (s : State) (r : Rotation) : Bool :=
  let sc := s.skipCol r.tower.val r.row
  [0, 1].all fun i => let d := 2 * r.tower.val + i
    s.pd (pdLogic d (sourceCol sc r.newS)) == 1 && s.pd (pdLogic d (destCol sc r.newS)) == 1

/-- The rotations whose pre-copy is complete, at a boundary without an activation (R122). -/
def State.rotationsDue (s : State) : List Rotation := s.rotations.filter fun r => r.preCopied && s.rotationPowered r

def State.longCommit (s : State) : State := s.rotationsDue.foldl (fun s r => s.rotate r) s

/-- The loader writes frames in tower `t`: its rotations are deferred (R122). -/
def State.loaderWrites (s : State) (t : Nat) : Bool :=
  match s.persona.job with
  | some j => j.accepted && (j.sections.getD (1 + t) (0, 0)).2 != 0
  | none => false

/-- A rotation's pre-copy completes; while laps are halted the rotation applies at once. -/
def execPreCopyComplete (t : Tower) (s : State) : Out :=
  match s.rotations.find? fun r => r.tower == t && !r.preCopied with
  | none => .next s
  | some r =>
    if s.loaderWrites t.val || !s.rotationPowered r then .next s
    else
      let s := s.preCopy r
      if !s.lapsRun then .next (s.rotate r)
      else .next { s with rotations := s.rotations.map fun q => if q = r then { q with preCopied := true } else q }

/-! ### Spares and end states (R366 to R369) -/

/-- A tile is declared failed. -/
def State.declareFailed (s : State) (t row col : Nat) (l3 l4 : Bool) : State :=
  let s := s.setFail t row col true l3 l4
  s.softRepair t { kind := 10, row := row, layer := if l3 then 3 else 4, pcol := s.pcol t row col }

/-- The logical column that a physical column serves, if any. -/
def State.servedCol (s : State) (t row pcol : Nat) : Option Nat :=
  let sc := s.skipCol t row
  if pcol = sc then none else if pcol < sc then some pcol else some (pcol - 1)

/-- A tile position is retired: S walks to it, or its tile is declared failed where S is already held (R368). -/
def State.retirePosition (s : State) (t : Fin 4) (row pcol : Nat) : State :=
  if s.flag F.STEER.RETIRED [t.val, row] || s.ref.retiring.contains (t.val * 64 + row) then
    match s.servedCol t.val row pcol with
    | some c => s.declareFailed t.val row c true true
    | none => s
  else
    let s := s.softRepair t.val { kind := 6, row := row, pcol := pcol }
    let s := { s with ref := { s.ref with retiring := s.ref.retiring ++ [t.val * 64 + row] } }
    s.walk t row pcol

/-- A vertical wire of a position is replaced by a spare; the last one's use retires the position (R366). -/
def State.replaceWire (s : State) (t : Fin 4) (row pcol : Nat) : State :=
  let k := t.val * 4160 + row * 65 + pcol
  let used := (Sparse.read s.ref.wiresUsed k).toNat
  if 32 ≤ used then s.retirePosition t row pcol
  else
    let s := { s with ref := { s.ref with wiresUsed := Sparse.write s.ref.wiresUsed k (BitVec.ofNat 8 (used + 1)) } }
    let s := s.softRepair t.val { kind := 3, left := 32 - (used + 1), layer := 3, row := row, pcol := pcol, item := used }
    if used + 1 = 32 then s.retirePosition t row pcol else s

/-- A context-port wire of a cluster is replaced; the last spare's use retires the position. -/
def State.replaceContextWire (s : State) (t : Fin 4) (row pcol cluster : Nat) : State :=
  let k := (t.val * 4160 + row * 65 + pcol) * 64 + cluster
  let used := (Sparse.read s.ref.ctxWires k).toNat
  if 8 ≤ used then s.retirePosition t row pcol
  else
    let s : State := { s with ref := { s.ref with ctxWires := Sparse.write s.ref.ctxWires k (BitVec.ofNat 8 (used + 1)) } }
    let s := s.softRepair t.val { kind := 2, left := 8 - (used + 1), row := row, pcol := pcol, cluster := cluster, item := used }
    if used + 1 = 8 then s.retirePosition t row pcol else s

/-- A memory-port wire of a bank's port A is replaced; with no spare left a further failure retires port A (R165). -/
def State.replacePortWire (s : State) (t b : Nat) : State :=
  let k := t * 256 + b
  let used := (Sparse.read s.ref.portWires k).toNat
  if used < 16 then
    let s : State := { s with ref := { s.ref with portWires := Sparse.write s.ref.portWires k (BitVec.ofNat 8 (used + 1)) } }
    s.softRepair t { kind := 4, left := 16 - (used + 1), layer := 1, item := b }
  else if s.flag F.BANK_STAT.PORTA_RETIRED [t, b] then s
  else (s.put F.BANK_STAT.PORTA_RETIRED 1 [t, b]).softRepair t { kind := 11, layer := 1, item := b }

/-- The tiles of a logic die are declared failed, all at once: the layer's retirement is the one soft repair (R369). -/
def State.failDie (s : State) (t : Nat) (upper : Bool) : State :=
  (List.range 64).foldl (fun s row => s.setReg (if upper then .TFAIL_L4 else .TFAIL_L3) [t, row] (BitVec.allOnes 64)) s

/-- The retirement of layer `n` is in force: its bit in LAYER_STAT, and the tiles of the logic die it serves. -/
def State.layerRetired (s : State) (t n : Nat) : State :=
  let s := s.orBits F.LAYER_STAT.RETIRED (2 ^ n) [t]
  match n with
  | 2 => s.failDie t false
  | 3 => s.failDie t false
  | 4 => s.failDie t true
  | 5 => s.failDie t true
  | _ => s

/-- A layer is retired; L0 has no retirement. -/
def State.retireLayer (s : State) (t n : Nat) : State :=
  if n = 0 || (s.fld F.LAYER_STAT.RETIRED [t]).testBit n then s
  else (s.layerRetired t n).softRepair t { kind := 12, layer := n }

/-- A base-to-layer control wire is replaced; with no spare left a further failure retires the layer. -/
def State.replaceControlWire (s : State) (t n bundle : Nat) : State :=
  let k := t * 96 + n * 16 + bundle
  let used := (Sparse.read s.ref.ctlWires k).toNat
  if used < 8 then
    let s : State := { s with ref := { s.ref with ctlWires := Sparse.write s.ref.ctlWires k (BitVec.ofNat 8 (used + 1)) } }
    s.softRepair t { kind := 5, left := 8 - (used + 1), layer := n, item := bundle }
  else s.retireLayer t n

def State.wireFails (s : State) (t : Fin 4) : WireFault → State
  | .context row pcol k => s.replaceContextWire t row.val pcol.val k.val
  | .memPort b => s.replacePortWire t.val b.val
  | .control n b => s.replaceControlWire t.val n.val b.val

def State.bankDegraded (s : State) (t b : Nat) : Bool := bit (s.reg .BANK_DEGRADED [t, b / 64]) (b % 64)

/-- A failed column of a bank: a spare, then the stand-in for good, then DEGRADED, then FAILED (R367). -/
def State.columnFault (s : State) (t b : Nat) : State :=
  let used := s.fld F.BANK_STAT.SPARES_USED [t, b]
  let g := b / 32
  if used < 8 then
    (s.put F.BANK_STAT.SPARES_USED (used + 1) [t, b]).softRepair t { kind := 1, left := 7 - used, layer := 1, item := b }
  else if !s.flag F.GROUP_CFG.PERM [t, g] then
    ((s.put F.GROUP_CFG.PERM 1 [t, g]).put F.GROUP_CFG.BANK b [t, g]).softRepair t { kind := 7, layer := 1, item := b }
  else if !s.bankDegraded t b then
    let w := s.reg .BANK_DEGRADED [t, b / 64]
    (s.setReg .BANK_DEGRADED [t, b / 64] (setBits w (b % 64) (b % 64) 1)).softRepair t { kind := 8, layer := 1, item := b }
  else
    let w := s.reg .BANK_FAILED [t, b / 64]
    (s.setReg .BANK_FAILED [t, b / 64] (setBits w (b % 64) (b % 64) 1)).softRepair t { kind := 9, layer := 1, item := b }

end Sys2Proof.Machine
end

