-- ==== Sys2Proof/Machine/Lap.lean ====
section
/-! DEFINITION. Running laps: starting and stopping, gather, replay, commit, the boundary, triggers and snapshots (R52 to R54,
R60, R65, R85, R128 to R153). -/

namespace Sys2Proof.Machine

/-! ### Starting and stopping (R85, R128, R271, R424) -/

def readyOk (s : State) (b : Baton) : Bool := b.lap == s.lapNext && b.pos == BitVec.ofNat 6 s.pos && !b.mismatch
def State.readyAgree (s : State) : Bool := s.chain.readyFrom.all fun r => readyOk s r.2
def State.childrenReady (s : State) : Bool := s.childPorts.all fun p => s.chain.readyFrom.any fun r => r.1 == p

/-- Laps start: gather of the first lap is due. -/
def State.lapsStart (s : State) : State :=
  let s : State := { s with fab := { s.fab with phase := .gatherDue, firstCause := 0, laterCauses := 0, retries := 0, raised := [] } }
  let s := s.put F.CHAIN_STAT.STATE (if s.chainMode = 0 then 0 else 2)
  (List.range 4).foldl (fun s t => s.put F.TLC_STAT.PHASE 1 [t]) s

/-- An armed member sends READY once its children are ready; the anchor then sends GO, or SCRATCH on a mismatch (R271). -/
def State.barrierStart (s : State) : State :=
  if s.fab.phase != .goWait || !s.childrenReady then s
  else match s.chainMode with
    | 1 =>
      if s.readyAgree then
        let s : State := { s with chain := { s.chain with attempt := 0 } }
        (s.batonDown 2 s.baton).lapsStart
      else
        let b := { s.baton with scratch := true, halt := true, scause := 0x0B, hcause := 0x0B, origin := BitVec.ofNat 12 s.selfId }
        let s := (s.put F.CHAIN_STAT.MISMATCH 1).batonDown 5 b
        let s : State := { s with chain := { s.chain with lastDecision := some (5, b) } }
        (s.put F.CHAIN_STAT.ORIGIN s.selfId).scratchNow 0x0B none false
    | _ =>
      if s.chain.readySent then s
      else { s.batonUp 1 { s.baton with mismatch := !s.readyAgree } with chain := { s.chain with readySent := true } }

/-- Laps are started, or the barrier is joined. Tokens of an earlier run are gone. -/
def State.beginRun (s : State) (single : Bool) : State :=
  let s : State := { s with
    fab := { s.fab with imports := [], importsNext := [], single := single, stopAsked := false, sampled := false }
    chain := { s.chain with storedGroups := [], importFault := [], attempt := 0 } }
  if s.chainMode = 0 then s.lapsStart
  else
    let s : State := { s with fab := { s.fab with phase := .goWait } }
    (s.put F.CHAIN_STAT.STATE 1).barrierStart

/-- A member whose forwarding entry for the anchor does not name its PARENT port does not arm (R263). -/
def State.parentRouted (s : State) : Bool :=
  let d := s.fld F.CHAIN_CFG.ANCHOR_ID
  s.flag F.FWD.VALID [d] && s.parentPort == some (s.fld F.FWD.PORT [d])

/-- Whether laps may start, in the order of R424: a code of *LAPRUN result codes*. A member that does not arm for its forwarding
entry is given no code by the manual: a free value (notes/assumptions 40). -/
def State.runCode (s : State) : Nat :=
  if s.lapsRun then 1
  else if s.ref.torn then 4
  else if s.persona_ ≠ 2 ∨ s.gsr then 2
  else if !s.scheduleOk s.pos then 3
  else if s.chainMode = 2 ∧ !s.parentRouted then (Config.freeMeasure s.free).toNat % 256
  else 0

def State.mayStart (s : State) : Bool :=
  !s.lapsRun && !s.ref.torn && s.persona_ == 2 && !s.gsr && s.scheduleOk s.pos && !(s.chainMode == 2 && !s.parentRouted)

/-- The effects of a refused start: SCHEDULE_INVALID is reported as the halt cause; the code of a member that does not arm is spent. -/
def State.refuseStart (s : State) : State :=
  if s.lapsRun || s.ref.torn || s.persona_ != 2 || s.gsr then s
  else if !s.scheduleOk s.pos then { s with ref := { s.ref with cause := 0x0B } }
  else s.spend

/-- LAPRUN with the count `n`: its result code and the new state. -/
def State.lapRun (s : State) (n : W64) : Nat × State :=
  let code := s.runCode
  let s' :=
    if s.mayStart then
      let s := s.setReg .LAP_END [] (if s.chainMode = 2 ∨ n = 0 then 0 else s.lapCount + n)
      let s := s.put F.LAP_STAT.RETRIES 0
      { s with ref := { s.ref with cause := 0 } }.beginRun false
    else s.refuseStart
  (code, s'.put F.LAP_STAT.RESULT code)

/-- A request for a halt with cause REQUESTED (R85, R132). -/
def State.requestStop (s : State) : State :=
  if s.lapsRun then { s with fab := { s.fab with stopAsked := true } } else s

/-- LAPSTEP: whether a lap was started, for which the engine waits. -/
def State.lapStep (s : State) : Bool × State :=
  if s.lapsRun || s.chainMode = 2 then (false, s)
  else if s.mayStart then (true, s.beginRun true)
  else (false, s.refuseStart)

/-! ### Replay (R146, R147) -/

def recType (x : Item) : Nat := bitsOf x 7 0
def recFlags (x : Item) : Nat := bitsOf x 15 8
def recKind (x : Item) : Nat := bitsOf x 23 16
def recPos (x : Item) : Nat := bitsOf x 31 24
def recPins (x : Item) : Nat := bitsOf x 47 40
def recFlows (x : Item) : Nat := bitsOf x 95 64
def recLap (x : Item) : W64 := wordAt x 2

/-- Records taken from the log queue: how many items, the LAP record, and the PINS and FLOW records. Items that are no record of a
lap to be replayed are passed over; PINS records count wherever they stand (notes/assumptions 41). -/
structure Replayed where
  taken : Nat := 0
  lap : Option Item := none
  pins0 : Option (BitVec 256) := none
  pins1 : Option (BitVec 256) := none
  flows : List Item := []

def Replayed.pins (r : Replayed) (x : Item) : Replayed :=
  let v : BitVec 256 := BitVec.ofNat 256 (x.toNat / 2 ^ 256)
  if bitsOf x 15 8 = 0 then { r with pins0 := some v } else { r with pins1 := some v }

/-- Whether the records that the LAP record announces have been taken. -/
def Replayed.complete (r : Replayed) (pins flows : Nat) : Bool := r.lap.isSome && pins == 0 && flows == 0

/-- Take records from the head of the queue until those of one lap are present. -/
def takeRecords : List Item → Nat → Nat → Replayed → Option Replayed
  | [], p, f, r => if r.complete p f then some r else none
  | x :: rest, p, f, r =>
    if r.complete p f then some r
    else
      let r := { r with taken := r.taken + 1 }
      let data := recType x == 3 && bit x 8
      match recType x with
      | 2 => takeRecords rest (p - 1) f (r.pins x)
      | 3 =>
        let r := if r.lap.isSome then { r with flows := r.flows ++ [x] } else r
        match data, rest with
        | true, _ :: rest' => takeRecords rest' p (f - 1) { r with taken := r.taken + 1 }
        | true, [] => none
        | false, rest => takeRecords rest p (f - 1) r
      | 1 =>
        if r.lap.isSome ∨ bit x 8 ∨ bit x 9 then takeRecords rest p f r
        else takeRecords rest (recPins x) (recFlows x) { r with lap := some x }
      | _ => takeRecords rest p f r

/-- The records of the next lap, if they are present. -/
def State.replayNext (s : State) : Option Replayed :=
  if s.consumer s.logQueue = .lapLog ∧ !s.flag F.Q_STAT.FAULTED [s.logQueue] then
    takeRecords ((s.items s.logQueue).map fun c => c.item) 0 0 { pins0 := s.log.replayPins0, pins1 := s.log.replayPins1 }
  else none

def State.popMany (s : State) (q : Nat) : Nat → State
  | 0 => s
  | n + 1 => (s.popCell q).popMany q n

/-- The samples of the banks in lap-aligned sampling come from the log. -/
def State.replaySamples (s : State) (p0 p1 : BitVec 256) : State :=
  (List.range 8).foldl (fun s i =>
    if s.asyncBank (i / 2) then s
    else s.setReg .GATHER_IN [i] (wordAt (if i < 4 then p0 else p1) (i % 4))) s

/-- KIND, POS and LAP of the record match the lap (R147). -/
def State.replayLapOk (s : State) (x : Item) : Bool := recKind x == s.kind && recPos x == s.pos && recLap x == s.lapNext

/-! ### Gather (R52, R134) -/

/-- Gather actions 4 and 5: what the lap starts from is cleared, and the towers may go. Benched tiles keep their hold registers and
next-state buffers (R139). -/
def State.clearLap (s : State) : State :=
  let benched := fun (x : Nat) => s.fab.tilesUsed.contains x && s.benched x
  let kept := (s.fab.tilesUsed.filter s.benched).map s.phys
  let s : State := { s with
    fab := { s.fab with
      phase := .steps, committing := false, sampled := true
      hold := s.fab.hold.filter fun c => benched (c / 1024)
      nextState := s.fab.nextState.filter fun p => kept.contains (p.1 / 128)
      wmask := [], collectors := [], portReads := [], fired := [], commitBuf := [], consumed := [], polled := false,
      present := [], outReserved := [], vaultLap := [], stepOpen := [], stepsDone := [] } }
  (List.range 4).foldl (fun s t =>
    (s.put F.TLC_STAT.STEP 0 [t]).put F.TLC_STAT.PHASE (if (s.inUseOf t).isEmpty then 3 else 2) [t]) s

/-- A port that lap traffic needs lacks LAP_READY (R276). -/
def State.partnerLost (s : State) : Bool :=
  s.chainMode != 0 && (List.range 16).any fun p => s.portRole p != 0 && !s.lapReady p

/-- The tower of a layer that the lap needs and that is held in reset. -/
def State.layerLost (s : State) : Option Nat :=
  (List.range 4).find? fun t => (List.range 6).any fun n => s.layerHeld t n && s.lapNeeds t n

/-- The PARENT port of a member lacks LAP_READY: no report can reach the anchor. -/
def State.parentLost (s : State) : Bool :=
  s.chainMode == 2 && match s.parentPort with | some p => !s.lapReady p | none => true

/-- Causes that stand when the lap begins. -/
def State.standingCauses (s : State) : State :=
  if s.parentLost then (s.put F.CHAIN_STAT.ORIGIN s.selfId).scratchNow 6 none false
  else if s.partnerLost then s.scratch 6
  else match s.inUse.find? s.failedTile with
    | some x => s.scratch 7 (some { tower := towerOfTile x, step := 0 })
    | none => match s.layerLost with
      | some t => s.scratch 9 (some { tower := t, step := 0 })
      | none => if s.chain.importFault.contains 0 then s.scratch 11 else s

/-- The children's reports that came before the lap began here are looked at now. -/
def State.earlyReports (s : State) : State :=
  match s.chain.doneFrom.find? fun d => d.2.scratch with
  | some d =>
    if s.fab.phase != .steps || s.fab.firstCause != 0 then s
    else if s.chainMode = 1 then s.anchorScratch d.2.scause d.2.origin none
    else if s.chainMode = 2 then s.memberScratch d.2.scause d.2.origin none
    else s
  | none => s

/-- The lap begins: its tokens, its standing causes, and verify where no tower has a step to run. -/
def State.beginLap (s : State) : State :=
  ((s.clearLap.sampleTokens.standingCauses).earlyReports).verify

/-- Gather of a lap in replay (R146, R147): no lap is run where a half has no PINS record. A device of a chain reports that to its
anchor, or decides it as the anchor (R275). -/
def State.replayGather (s : State) (r : Replayed) : State :=
  let s := s.popMany s.logQueue r.taken
  let s : State := { s with log := { s.log with
    replayPins0 := r.pins0, replayPins1 := r.pins1, replayLap := r.lap, replayFlows := r.flows } }
  match r.pins0, r.pins1, r.lap with
  | some p0, some p1, some x =>
    let s := if bit x 10 && s.flag F.LOAD_STAT.STAGED then s.activateStaged else s
    let s := s.replaySamples p0 p1
    if s.replayLapOk x then s.beginLap else s.clearLap.diverge.scratch 1
  | _, _, _ => if s.chainMode = 0 then s.diverge.haltLaps 1 false true else s.diverge.scratch 1

/-- The gather of a new lap, once the target banks that carry design I/O are awake (R338, R408). -/
def State.gather (s : State) (pads : BitVec 512) : State :=
  if s.fab.phase != .gatherDue || s.fab.firstCause != 0 then s
  else if !s.pinDomains.all s.serves then { s with fab := { s.fab with committing := false } }.lapWants s.pinDomains none
  else if s.logMode = 2 then
    match s.replayNext with
    | some r => { s with pads := pads }.replayGather r
    | none => s
  else ({ s with pads := pads }.samplePads pads).beginLap

/-- A permitted retry begins (R19, R133, R134): counted and gathered again with the samples it had. -/
def State.retryBegin (s : State) : State :=
  let s : State := { s with fab := { s.fab with retries := s.fab.retries + 1, firstCause := 0, laterCauses := 0, raised := [] } }
  let s := ((s.count F.RETRY_STAT.RETRIED).count F.LAP_STAT.RETRIES).tallyLap 0x12
  let s := s.traceAll 2 s.lapNext fun _ => s.chain.attempt.setWidth 64
  let s := s.put F.CHAIN_STAT.STATE (if s.chainMode = 0 then 0 else 2)
  if s.fab.sampled then s.beginLap else { s with fab := { s.fab with phase := .gatherDue } }

/-- The delay of a retry has passed. The anchor sends GO; a member waits for it. -/
def execLapRetryStart (s : State) : Out :=
  if s.fab.phase != .retryWait then .next s
  else match s.chainMode with
    | 0 => .next s.retryBegin.settleV
    | 1 => .next (s.batonDown 2 s.baton).retryBegin.settleV
    | _ => .next s

/-! ### Triggers (R135 to R137) -/

def State.stateMatch (s : State) (i : Nat) : Bool :=
  modeMatch (s.fld F.TRIG_CTRL.MODE [i]) (s.reg .TRIG_MASK [i]) (s.reg .TRIG_VALUE [i]) (s.trigWord i)
    (Sparse.read s.fab.trigPrev i)

/-- The unit matches: *TRIG CTRL*, COMBINE. -/
def State.unitMatch (s : State) (i : Nat) : Bool :=
  let pin := s.triggerMatch (s.fld F.TRIG_CTRL.PMU [i])
  match s.fld F.TRIG_CTRL.COMBINE [i] with
  | 0 => s.stateMatch i
  | 1 => pin
  | 2 => s.stateMatch i && pin
  | _ => s.stateMatch i || pin

/-- Trigger unit `i` fires; HALT is left to the halt check. -/
def State.fireTrig (s : State) (i : Nat) : State :=
  let s := (s.put F.TRIG_FIRED.FIRED (s.fld F.TRIG_FIRED.FIRED ||| 2 ^ i)).setReg .TRIG_FIRED_LAP [i] s.lapCount
  let s := (s.put F.TRIG_CTRL.ARMED 0 [i]).tallyLap 0x13
  let s := if s.flag F.TRIG_CTRL.EVENT [i] then s.hostEvent 2 16 (BitVec.ofNat 16 i) s.lapCount else s
  let s := if s.flag F.TRIG_CTRL.TRIGOUT [i] then { s with trigPulse := true } else s
  if s.flag F.TRIG_CTRL.LOGMARK [i] then { s with log := { s.log with triggerMark := true } } else s

/-- One unit is evaluated: whether a breakpoint fired, and the state. -/
def State.evalTrig (s : State) (i : Nat) : Bool × State :=
  if !s.flag F.TRIG_CTRL.ARMED [i] then (false, s.latchTrig i)
  else if !s.unitMatch i then (false, s.latchTrig i)
  else
    let s := (s.count F.TRIG_MATCHES.MATCHES [i]).latchTrig i
    if s.fld F.TRIG_CTRL.PASS [i] = 0 ∨ s.fld F.TRIG_MATCHES.MATCHES [i] = s.fld F.TRIG_CTRL.PASS [i] then
      (s.flag F.TRIG_CTRL.HALT [i], s.fireTrig i)
    else (false, s)

def State.evalTrigs (s : State) : Bool × State :=
  (List.range 16).foldl (fun p i => let q := p.2.evalTrig i; (p.1 || q.1, q.2)) (false, s)

/-- Step 4: bench changes and trace settings. -/
def State.applyLate (s : State) : State :=
  if s.benchWaits then (s.applyDue waitsLate).traceBench else s.applyDue waitsLate

/-! ### Snapshots and microcode (R99, R153) -/

/-- Counters 0 to 8 of every unit whose domain is on go into its shadows. -/
def State.snapshot (s : State) : State :=
  ((List.range 26).foldl (fun s u =>
    if s.pd (unitDomain u) = 1 ∨ s.pd (unitDomain u) = 2 then
      (List.range 9).foldl (fun s n => s.setReg (shadowReg u) ((unitIx u).2 ++ [n]) (s.counter u n)) s
    else s) s).spend

def State.lapSnapshot (s : State) : State :=
  if s.flag F.COUNTER_SNAP.LAPSNAP && s.lapCount.toNat % 2 ^ s.fld F.COUNTER_SNAP.EVERY == 0 then
    s.snapshot.setReg .SNAP_LAP [] s.lapCount
  else s

/-! ### Commit (R54) -/

/-- Action 1: in every tile in use the state store swaps buffers. The bits that the lap wrote are the committed ones, the others keep
their value, and the former committed buffer is the next-state buffer (R54, R68). -/
def State.swapBuffers (s : State) : State :=
  let tiles := s.inUse.map s.phys
  let keys := tiles.flatMap fun pt => (List.range 128).map (stateKey pt)
  let former := keys.foldl (fun m k => Sparse.write m k (s.committedWord k))
    (s.fab.nextState.filter fun p => !tiles.contains (p.1 / 128))
  let s' := s.fab.wmask.foldl (fun s p =>
    s.setCommitted p.1 ((s.committedWord p.1 &&& ~~~p.2) ||| (Sparse.read s.fab.nextState p.1 &&& p.2))) s
  { s' with fab := { s'.fab with nextState := former, wmask := [] } }

/-- A held write meets the copier's write of the same word in one memory cycle: port A's write takes effect, and data that differ are
counted (R168). Through port B, where port A is retired, the two cannot meet. -/
def State.collide (s : State) (w : HeldWrite) : State :=
  let a := bankBase (w.bank / 256) (w.bank % 256) + 16 * w.word
  if !s.flag F.BANK_STAT.PORTA_RETIRED [w.bank / 256, w.bank % 256] && s.copies.any fun c => c.addr == a && c.meets && c.data != some w.data then
    s.count F.BANK_STAT.COLLISIONS [w.bank / 256, w.bank % 256]
  else s

/-- Action 2: the held writes, in order of issue; the copier's writes of these cycles that met none of them are made. -/
def State.drainWrites (s : State) : State :=
  let s := s.fab.commitBuf.foldl (fun s w =>
    ((s.collide w).memStore (bankBase (w.bank / 256) (w.bank % 256) + 16 * w.word) w.data).tally (w.bank / 256) 0x00D) s
  let s := (s.copies.filter fun c => c.meets).foldl (fun s c => s.copierPut c) s
  { s with copies := s.copies.filter (fun c => !c.meets), fab := { s.fab with commitBuf := [] } }

/-- Action 4, inward: consumed items leave their queues. -/
def State.consumeItems (s : State) : State :=
  s.fab.consumed.foldl (fun s k =>
    match s.flowAt (k / 2) (k % 2) with
    | some f =>
      match s.flowIn f with
      | some q =>
        let s := (s.takeCell q (s.ahead f q)).setDelivered f (s.delivered f - 1)
        (s.put F.FLOW_POS.IN ((s.fld F.FLOW_POS.IN [f] + 1) % 2 ^ 32) [f]).tally (towerOfTile (k / 2)) 0x00E
      | none => s
    | none => s) s

/-- An outbound item goes into the cell reserved for it. -/
def State.pushReserved (s : State) (q : Nat) (x : Item) : State :=
  State.appendItem { s with poolReserved := s.poolReserved - 1 } q x

/-- Action 4, outward: the items of the collectors are released. -/
def State.releaseItems (s : State) : State :=
  let s := (s.fab.collectors.filter fun c => !c.bits.isEmpty).foldl (fun s c =>
    match s.flowAt c.flowTile c.port with
    | some f =>
      match s.flowOut f with
      | some q =>
        let s := s.pushReserved q (BitVec.ofNat 512 (natOfBits c.bits))
        (s.put F.FLOW_POS.OUT ((s.fld F.FLOW_POS.OUT [f] + 1) % 2 ^ 32) [f]).tally (towerOfTile c.flowTile) 0x00F
      | none => s
    | none => s) s
  { s with fab := { s.fab with collectors := [], consumed := [], outReserved := [] } }

/-- The halt cause that the device finds for itself at a boundary, by the order of R60; `trig`: a breakpoint fired. -/
def State.ownCause (s : State) (trig : Bool) : Byte :=
  if s.flag F.PKG_THERM.CRIT then 8
  else if s.ref.powerCapHalt then 0x0C
  else if trig then 3
  else 0

/-- The end that LAPRUN's count, LAPSTEP or a stop request gives. -/
def State.countCause (s : State) : Byte :=
  if s.fab.single ∨ (s.reg .LAP_END ≠ 0 ∧ s.reg .LAP_END = s.lapCount) then 2
  else if s.fab.stopAsked then 1
  else 0

/-- Rotations due at the boundary, with their trace records. -/
def State.rotateDue (s : State) : State :=
  s.rotationsDue.foldl (fun s r =>
    let s := (s.rotate r).tally r.tower.val 0x00A
    s.spend.trace r.tower.val 6 s.fab.lastKind s.fab.lastEntry s.lapCount
      (BitVec.ofNat 64 (r.row + r.newS * 256 + (Config.freeMeasure s.free).toNat * 65536))) s

/-- The log record of the lap is closed, and its marks are used up (R131, step 1). -/
def State.closeLog (s : State) (used : List (Nat × Nat × Item)) : State :=
  let s := if s.logMode = 1 then s.writeLog (s.lapRecords false 0 s.lapCount used) else s
  { s with log := { s.log with activationMark := false, benchMark := false, triggerMark := false } }

/-- What belonged to the lap is over; the tokens for the next lap become those of the lap in progress (R270). -/
def State.lapOver (s : State) : State :=
  { s with
    fab := { s.fab with
      retries := 0, firstCause := 0, laterCauses := 0, raised := [], sampled := false, imports := s.fab.importsNext, importsNext := [], fired := [],
      portReads := [], present := [], vaultLap := [], polled := false }
    chain := { s.chain with
      attempt := 0, doneFrom := [], doneSent := false, decided := false, hcauseHeld := 0, hcauseFrom := 0, stopHeld := false
      storedGroups := s.chain.storedGroups.filterMap fun g => if g.2.1 = 1 then some (g.1, 0, 0) else none
      importFault := if s.chain.importFault.contains 1 then [0] else [] } }

/-- Commit actions 1 to 5, and LAP_COUNT. The cycles that the lap spent in verify are a free value (notes/assumptions 3). -/
def State.commitActions (s : State) : State :=
  let kind := s.kind
  let s := (s.swapBuffers.drainWrites).driveOutputs
  let s := s.consumeItems.releaseItems
  let s := (s.setReg .LAP_COUNT [] (s.lapCount + 1)).tallyLap 0
  s.spend.traceAll 0 s.lapCount fun _ =>
    BitVec.ofNat 64 (s.fld F.LAP_KIND.EDGES [kind] + (Config.freeMeasure s.free).toNat * 65536)

/-- Steps 1 to 4 of R131, and what else takes place between commit and gather: whether a breakpoint fired, and the state. -/
def State.boundary (s : State) (used : List (Nat × Nat × Item)) : Bool × State :=
  let (trig, s) := s.evalTrigs
  let s := s.heldAtCommit.closeLog used
  let s := if s.fab.polled then s.put F.FABRIC_LIMITS.NONBLOCK 1 else s
  let s : State := { s with fab := { s.fab with lastKind := s.kind, lastEntry := s.pos } }
  let s := (s.put F.SCHED_STAT.POS s.nextPos).lapOver
  let s := (s.applyDue fun r => !waitsLate r).lapSnapshot
  let act := s.activationDue
  let s := if act then s.activateStaged else s
  let s := s.applyLate
  let s := if act then s else s.rotateDue
  (trig, if s.mc.swapPending then s.mcSwap else s)

/-- Gather of the next lap is due; the commit is over when it begins (notes/assumptions 34). -/
def State.nextLap (s : State) : State :=
  let s : State := { s with fab := { s.fab with phase := .gatherDue, committing := true } }
  (List.range 4).foldl (fun s t => (s.put F.TLC_STAT.PHASE 1 [t]).put F.TLC_STAT.STEP 0 [t]) s

/-- A lap commits. `decision`: none on a single device, whose own halt check decides; else the halt cause that the commit baton
carries, 0 for none (R274). -/
def State.commitLap (s : State) (decision : Option Byte) : State :=
  let used := s.consumedItems
  let (trig, s) := s.commitActions.boundary used
  let own := s.ownCause trig
  let s : State := if own = 0x0C then { s with ref := { s.ref with powerCapHalt := false } } else s
  match decision with
  | none =>
    let c := if own ≠ 0 then own else s.countCause
    if c ≠ 0 then s.haltLaps c else s.nextLap
  | some c =>
    if c ≠ 0 then s.haltLaps c
    else { s with chain := { s.chain with hcauseHeld := own, hcauseFrom := BitVec.ofNat 12 s.selfId } }.nextLap

/-- The anchor's decision to commit, and the halt cause it carries (rule 3 of R273). -/
def State.anchorHalt (s : State) : Byte :=
  if s.fab.single ∨ (s.reg .LAP_END ≠ 0 ∧ s.reg .LAP_END = s.lapNext) then 2
  else if s.fab.stopAsked ∨ s.childStop then 1
  else 0

/-- The device that raised it: the anchor, but for a stop request that came in a DONE alone. -/
def State.anchorOrigin (s : State) : BitVec 12 :=
  let child := (s.chain.doneFrom.find? fun d => d.2.stop).map fun d => d.2.origin
  if s.anchorHalt = 1 ∧ !s.fab.stopAsked then child.getD (BitVec.ofNat 12 s.selfId) else BitVec.ofNat 12 s.selfId

def State.anchorCommit (s : State) : State :=
  let c := s.anchorHalt
  let o := s.anchorOrigin
  let b := { s.baton with halt := c != 0, hcause := c, origin := if c != 0 then o else 0 }
  let s := s.batonDown 4 b
  let s := if c != 0 then s.put F.CHAIN_STAT.ORIGIN o.toNat else s
  { s with chain := { s.chain with lastDecision := some (4, b) } }.commitLap (some c)

/-- The check of an entry of the commit buffers, oldest first: corrected, or the lap is scratched before commit is issued (R164, R170,
R172). -/
def State.checkEntry (s : State) (i : Nat) (ecc : Ecc) : State :=
  match s.fab.commitBuf[i]?, ecc with
  | none, _ => s
  | some _, .good => s
  | some w, e =>
    let t := w.bank / 256
    let a := bankBase t (w.bank % 256) + 16 * w.word
    let k := EccSource.commitBuffer.key t a
    let s := ((s.dropSyndrome k).eccError t a (e == .uncorrectable) .commitBuffer (s.fabricPort t (w.bank % 256))).dropSyndrome k
    if e = .uncorrectable then s.scratch 4 (some { tower := t, step := s.step_ t }) else s

/-- Verify has ended: the lap commits. In replay its consumed items are checked first (R147). -/
def State.verifyEnds (s : State) : State :=
  if !s.verifyHolds then s
  else if !s.replayFlowsOk then s.diverge.scratch 1
  else match s.chainMode with
    | 0 => s.commitLap none
    | 1 => if s.childrenDone && s.knownHalt.1 == 0 then s.anchorCommit else s
    | _ => s


end Sys2Proof.Machine
end

