-- ==== Sys2Proof/Machine/Relay.lean ====
section
/-! DEFINITION. Relay lanes: port and lane states, lane maps, electrical idle, frames held for a port, and what the loss or the
regaining of a partner does (R240 to R258, R262 to R266, R276, R279). -/

namespace Sys2Proof.Machine

/-! ### Registers of ports and lanes -/

def State.portEn (s : State) (p : Nat) : Bool := s.flag F.PORT_CTRL.EN (portIx p)

/-- MIN_WIDTH, 1 to 8. -/
def State.minWidth (s : State) (p : Nat) : Nat := max 1 (min 8 (s.fld F.PORT_CTRL.MIN_WIDTH (portIx p)))

/-- Locked lanes outside the receive map: PORT_STAT.SPARES. -/
def State.spareLanes (s : State) (p : Nat) : List Nat :=
  lanes8.filter fun i => s.laneState p i == 3 && !(s.rxMap p).contains i

/-- The relay group of the port is in RUN or SLEEP, so that its loops run (R240). -/
def State.groupOn (s : State) (p : Nat) : Bool := s.pd (pdRelay p) == 1 || s.pd (pdRelay p) == 2

/-- STRAP_REF selects the XTALA-derived reference: ports stay in ACQUIRE with REF_FAULT (R248). -/
def State.aloneRef (s : State) : Bool := s.ref.straps.ref

/-- FAR_LOOP is in force: with the XTALA reference the lanes support no far-end loopback (R248, R257). -/
def State.farLooped (s : State) (p : Nat) : Bool := s.flag F.PORT_CTRL.FAR_LOOP (portIx p) && !s.aloneRef

/-- An event bit of the port, and the host event where it is enabled. -/
def State.portEvent (s : State) (p n : Nat) : State :=
  let ix := portIx p
  let s := s.setReg .PORT_EVENTS ix (s.reg .PORT_EVENTS ix ||| BitVec.ofNat 64 (2 ^ n))
  if (s.fld F.PORT_EVENTS.EV_EN ix).testBit n then s.blockEvent (0x1000 + 16 * p + n) (RegName.PORT_CTRL.addr ix) else s

/-- A black-box record of the relay lanes: the lane or port, and a code of the model's for what happened. -/
def State.recordLink (s : State) (object what : Nat) : State := s.recordAuto 0x0D (BitVec.ofNat 64 object) (BitVec.ofNat 64 what)

/-- WIDTH, ACTIVE, SPARES and REF_FAULT follow the maps and the lanes. -/
def State.portMirror (s : State) (p : Nat) : State :=
  let ix := portIx p
  let s := (s.put F.PORT_STAT.WIDTH (s.rxMap p).length ix).put F.PORT_STAT.TX_WIDTH (s.txMap p).length ix
  let s := (s.put F.PORT_STAT.ACTIVE (maskOf (s.rxMap p)) ix).put F.PORT_STAT.SPARES (maskOf (s.spareLanes p)) ix
  let fault := (s.aloneRef && s.portEn p) || lanes8.any fun i => s.laneState p i == 8
  s.put F.PORT_STAT.REF_FAULT (b2n fault) ix

/-- A lane's receiver adapts: ADAPT is set, and the lane is neither off, at rest, stopped nor refused (R247). -/
def adaptingState (n : Nat) : Bool := n == 1 || n == 2 || n == 3 || n == 5 || n == 6
def State.adapting (s : State) (p i : Nat) : Bool := s.flag F.LANE_CTRL.ADAPT (laneIx p i) && adaptingState (s.laneState p i)

/-- What LANE_EQ reads: while the receiver adapts, a free value (R247; notes/assumptions 3). -/
def State.laneEq (s : State) (p i : Nat) : W64 :=
  if s.adapting p i then Config.freeLane 0 p i s.free else s.reg .LANE_EQ (laneIx p i)

/-- Adaptation ends or is suspended: the coefficients hold the values last adapted. -/
def State.latchEq (s : State) (p i : Nat) : State :=
  if s.adapting p i then (s.setReg .LANE_EQ (laneIx p i) (s.laneEq p i)).spend else s

/-- Lane `i` is in neither map. -/
def State.outsideMaps (s : State) (p i : Nat) : Bool := !(s.rxMap p).contains i && !(s.txMap p).contains i

/-- The PRBS pattern that a lane's generator and checker run: only in a loopback or outside both maps (R258), and while the lane runs. -/
def State.prbsRuns (s : State) (p i : Nat) : Option Nat :=
  let k := s.fld F.LANE_CTRL.PRBS (laneIx p i)
  let n := s.laneState p i
  if (k == 1 || k == 2 || k == 3) && (n == 5 || n == 6 || ((n == 1 || n == 2 || n == 3) && s.outsideMaps p i)) then some k else none

/-- PRBS_ERR: while a checker runs, the errors counted so far and a free number more (notes/assumptions 3, 91). -/
def State.prbsErrors (s : State) (p i : Nat) : Nat :=
  let n := s.fld F.LANE_ERR.PRBS_ERR (laneIx p i)
  if (s.prbsRuns p i).isSome then satAdd 32 n (Config.freeLane 1 p i s.free).toNat else n

/-- A checker stops: its count stands. -/
def State.latchPrbs (s : State) (p i : Nat) : State :=
  if (s.prbsRuns p i).isSome then (s.put F.LANE_ERR.PRBS_ERR (s.prbsErrors p i) (laneIx p i)).spend else s

/-- What a change of lanes or maps starts and stops: a checker that stops keeps its count, and a generator that begins puts its
pattern on its lane. -/
def State.lanesChange (s : State) (p : Nat) (ls : List Nat) (change : State → State) : State :=
  let was := ls.map (s.prbsRuns p)
  let s := change (ls.foldl (fun s i => s.latchPrbs p i) s)
  (ls.zip was).foldl (fun s x =>
    match s.prbsRuns p x.1 with
    | some k => if x.2 = some k then s else s.emit p (.prbs x.1 k)
    | none => s) s

/-- A lane takes a state. -/
def State.setLane (s : State) (p i n : Nat) : State :=
  if s.laneState p i = n then s
  else
    let s := if adaptingState n then s else s.latchEq p i
    s.lanesChange p [i] fun s => s.put F.LANE_STAT.STATE n (laneIx p i)

/-- A map of the port changes. -/
def State.setMap (s : State) (p : Nat) (f : Fld) (w : BitVec 32) : State :=
  s.lanesChange p lanes8 fun s => s.put f w.toNat (portIx p)

/-! ### Frames held for a port (R265, R266) -/

/-- The next waiting frame that can go: class 1 first, then 0, then 2, which comes first after seven frames of the others. -/
def State.nextFrame (s : State) (p : Nat) : Option TxFrame :=
  let h := s.portH p
  let ok := fun (c : Fin 3) => h.waitingTx.find? fun f => f.body.class == c && s.canSend p f
  let rest := (ok 1).orElse fun _ => (ok 0).orElse fun _ => ok 2
  if 7 ≤ h.sinceLow then (ok 2).orElse fun _ => rest else rest

/-- Waiting frames go out while credits last. -/
def State.drainPort (s : State) (p : Nat) : Nat → State
  | 0 => s
  | n + 1 =>
    match s.nextFrame p with
    | none => s
    | some f =>
      let s := s.onPort p fun h => { h with waitingTx := h.waitingTx.erase f }
      (s.transmit p f).drainPort p n

def State.drainAll (s : State) (p : Nat) : State := s.drainPort p (s.portH p).waitingTx.length

/-- An acknowledgement with the credits owed; while the transmitter idles it waits for the exit, which it latches. -/
def State.sendAck (s : State) (p : Nat) (c : Option (Fin 3)) : State :=
  let s := s.onPort p fun h => match c with
    | some c => { h with owed := h.owed.set c (h.owed[c] + 1) }
    | none => h
  if s.portState p = 3 then (s.onPort p fun h => { h with exitLatched := true }).put F.PORT_STAT.IDLE_PENDING 1 (portIx p)
  else
    let h := s.portH p
    let s := s.onPort p fun h => { h with owed := Vector.replicate 3 0, exitLatched := false }
    s.emit p (.ack h.rxSeq h.owed.toList)

/-! ### The partner's loss and return (R276, R277, R279) -/

def State.lapReadySet (s : State) (p : Nat) (v : Bool) : State := s.put F.CHAIN_PORT.LAP_READY (b2n v) [p]

/-- The lap is held undecided: its buffers are kept, and laps halt with PARTNER_LOST while LAPSTAT shows RUNNING. -/
def State.holdUndecided (s : State) : State :=
  let s : State := { s with
    fab := { s.fab with phase := .undecided }
    ref := { s.ref with cause := 6 } }
  (s.put F.CHAIN_STAT.UNDECIDED 1).put F.CHAIN_STAT.STATE 4

/-- A lap is in progress or undecided, so that ALIVE is sent and partners can be lost (R276). -/
def State.barrierLive (s : State) : Bool :=
  match s.fab.phase with
  | .halted => false
  | .goWait => false
  | _ => true

/-- The loss of a PARENT partner before DONE: the lap is scratched and laps halt; the device itself is the origin. -/
def State.loseParent (s : State) : State := (s.put F.CHAIN_STAT.ORIGIN s.selfId).scratchNow 6 none false

/-- What the loss of the partner of port `p` does to the barrier. -/
def State.losePartner (s : State) (p : Nat) : State :=
  if s.chainMode = 0 ∨ s.portRole p = 0 ∨ !s.barrierLive then s
  else
    let s := s.put F.LINK_STAT.ALIVE_LOST 1 [p]
    match s.fab.phase, s.portRole p with
    | .undecided, _ => s
    | .retryWait, 1 => (s.put F.CHAIN_STAT.ORIGIN s.selfId).haltLaps 6 true
    | _, 1 =>
      if s.chain.doneSent then s.holdUndecided
      else if s.fab.committing then s
      else s.loseParent
    | _, _ => s.scratch 6

/-- The path of the bridges that `back` selects is back: unacknowledged items go out again (R279). -/
def State.resendItems (s : State) (back : Nat → Bool) : State :=
  s.listedBridges.foldl (fun s b =>
    if s.bridgeEn b && !s.bridgeIn b && back b then (s.bridge b).unacked.foldl (fun s x => s.sendItem b x) s else s) s

def State.resendBridges (s : State) (p : Nat) : State := s.resendItems fun b => s.routeTo (s.bridgePeer b) == some p

/-- A port gains LAP_READY: bridges resend, an undecided device asks for the decision, and a waiting barrier goes on. -/
def State.gainPartner (s : State) (p : Nat) : State :=
  let s := (s.lapReadySet p true).resendBridges p
  let s := if s.fab.phase == .undecided && s.portRole p == 1 && s.carriesLap p then
      s.sendFrame p (s.fld F.CHAIN_CFG.ANCHOR_ID) (.baton 6 s.baton)
    else s
  s.barrierStart

/-! ### A port goes down; acquisition (R240, R250) -/

/-- What the relay layer forgets at the loss of a port: frames, maps in progress, the partner (R265, R276). -/
def State.forgetPort (s : State) (p : Nat) : State :=
  let was := s.lapReady p
  let s := s.onPort p fun h => { ({} : PortH) with lanes := h.lanes }
  let ix := portIx p
  let s := (s.setMap p F.PORT_MAP.TX 0xFFFFFFFF).setMap p F.PORT_MAP.RX 0xFFFFFFFF
  let s := ((s.put F.PORT_STAT.MAP_PENDING 0 ix).put F.PORT_STAT.MAP_QUEUED 0 ix).put F.PORT_STAT.IDLE_PENDING 0 ix
  let s := (s.lapReadySet p false).put F.CHAIN_PORT.HELLO_FAULT 0 [p]
  let s := s.put F.SEC_PORTS.ENROLLED (s.fld F.SEC_PORTS.ENROLLED &&& (0xFFFF ^^^ 2 ^ p))
  if was then s.losePartner p else s

def State.setPortState (s : State) (p n : Nat) : State := s.put F.PORT_STAT.STATE n (portIx p)

/-- Every lane that is neither FAILED nor in near-end loopback takes a state. -/
def State.setLanes (s : State) (p n : Nat) : State :=
  lanes8.foldl (fun s i => if s.laneState p i = 7 ∨ s.laneState p i = 5 then s else s.setLane p i n) s

/-- The relay group is in RUN: the lanes are driven and heard. In SLEEP they are in electrical idle (R240). -/
def State.groupRuns (s : State) (p : Nat) : Bool := s.pd (pdRelay p) == 1

/-- The receivers of a port start afresh (R245). -/
def State.freshLanes (s : State) (p : Nat) : State :=
  s.onPort p fun h => { h with
    lanes := h.lanes.map fun l => { l with good := 0, window := 0 }
    rxMapNext := none, txMapNext := none, partnerLocked := 0, deskewed := 0 }

/-- The port acquires afresh: its lanes send TRAIN and hunt, once their group is in RUN; with the group off they stay off. -/
def State.acquire (s : State) (p : Nat) : State :=
  if s.groupOn p then
    let s := ((s.freshLanes p).setPortState p 1)
    if s.groupRuns p then ((s.setLanes p 1).portMirror p).emitTrain p else (s.setLanes p 4).portMirror p
  else (((s.setPortState p 4).setLanes p 0).portMirror p)

/-- A port leaves UP or IDLE. -/
def State.leaveUp (s : State) (p : Nat) : State :=
  if s.portUp p then ((s.forgetPort p).portEvent p 2) else s.forgetPort p

/-- The port goes DOWN, and acquires afresh while it is enabled (notes/assumptions 43). -/
def State.portDown (s : State) (p : Nat) : State :=
  let s := s.leaveUp p
  if s.portEn p && !s.farLooped p then s.acquire p
  else ((s.setPortState p 4).setLanes p 0).portMirror p

/-! ### Lane maps (R250 to R252) -/

/-- The lanes of a new map: all that are locked and deskewed, but for the spare at width 8. -/
def mapFrom (ls : List Nat) (spare : Bool) : List Nat := if spare && ls.length == 8 then ls.take 7 else ls

/-- The width that R250 would give for `n` lanes. -/
def wantWidth (n : Nat) (spare : Bool) : Nat := if spare && n == 8 then 7 else n

/-- Unusable lanes are replaced by spares at their positions, or the map closes up. -/
def replaceLanes (bad : List Nat) : List Nat → List Nat → List Nat × List Nat
  | [], spares => ([], spares)
  | l :: rest, spares =>
    if bad.contains l then
      match spares with
      | sp :: more => let r := replaceLanes bad rest more; (sp :: r.1, r.2)
      | [] => replaceLanes bad rest []
    else let r := replaceLanes bad rest spares; (l :: r.1, r.2)

/-- The transmitter's new map, from the lanes that the partner cannot use, or whose transmitter here is off, and those that the
partner holds locked outside the map: they take the places of unusable lanes, and a request that names no unusable lane names the
lanes to be taken back (R251; notes/assumptions 96). -/
def State.newTxMap (s : State) (p bad spares : Nat) : List Nat :=
  let old := s.txMap p
  let off := lanes8.filter fun i => s.laneState p i == 5 || s.laneState p i == 7
  let free := (lanesIn spares).filter fun i => !old.contains i && !off.contains i
  let gone := old.filter fun i => (lanesIn bad).contains i || off.contains i
  let r := replaceLanes gone old free
  if bad = 0 then r.1 ++ r.2 else r.1

/-- A map is announced, or the port goes DOWN for want of lanes. -/
def State.announceMap (s : State) (p : Nat) (ls : List Nat) : State :=
  if ls.length < s.minWidth p then s.portDown p
  else
    let w : BitVec 32 := BitVec.ofNat 32 (mapWord ls)
    let s := s.onPort p fun h => { h with txMapNext := some w }
    (s.put F.PORT_STAT.MAP_PENDING 1 (portIx p)).offer p (.map w)

/-- The events and records of a change of a map: spares that took the places of lanes, a width that fell, a width that rose. -/
def State.mapChanged (s : State) (p : Nat) (old new : List Nat) : State :=
  let gone := old.filter fun i => !new.contains i
  let come := new.filter fun i => !old.contains i
  let s := if gone.isEmpty || come.isEmpty then s else (s.portEvent p 4).recordLink (8 * p) 1
  let s := if new.length < old.length then (s.portEvent p 3).recordLink (8 * p) 2 else s
  if old.length < new.length then s.recordLink (8 * p) 3 else s

/-- MAP_PENDING while either direction waits. -/
def State.mapPending (s : State) (p : Nat) : State :=
  let h := s.portH p
  s.put F.PORT_STAT.MAP_PENDING (b2n (h.txMapNext.isSome || h.rxMapNext.isSome)) (portIx p)

/-- The transmit map changes at an ALIGN; a latched request is then carried out. -/
def State.applyTxMap (s : State) (p : Nat) : State :=
  match (s.portH p).txMapNext with
  | none => s
  | some w =>
    let old := s.txMap p
    let s := s.setMap p F.PORT_MAP.TX w
    let s := s.onPort p fun h => { h with txMapNext := none }
    let s := ((s.mapChanged p old (s.txMap p)).mapPending p).portMirror p
    let h := s.portH p
    if h.reqLatched then
      let s := s.onPort p fun h => { h with reqLatched := false }
      (s.put F.PORT_STAT.MAP_QUEUED 0 (portIx p)).announceMap p (s.newTxMap p h.badTx.toNat h.spareTx.toNat)
    else s

/-- A lane of the port that its receiver can use: LOCKED, and at most 31 blocks behind the earliest (R244). -/
def State.usable (s : State) (p i : Nat) : Bool := s.laneState p i == 3 && (s.portH p).deskewed.getLsbD i

/-- A lane that it can no longer use; lanes at rest in electrical idle are none. -/
def State.unusable (s : State) (p i : Nat) : Bool := !s.usable p i && s.laneState p i != 4

/-- Lanes that the receiver holds outside its map and may take into it. -/
def State.offered (s : State) (p : Nat) : List Nat := (s.spareLanes p).filter (s.usable p)

/-- The receiver asks for a map change: the lanes it can no longer use, and those it holds locked outside the map. -/
def State.sendMapReq (s : State) (p : Nat) : State :=
  let bad := (s.rxMap p).filter (s.unusable p)
  let sp := s.offered p
  let usable := (s.rxMap p).length - bad.length + sp.length
  if usable < s.minWidth p then s.portDown p
  else s.offer p (.mapReq (BitVec.ofNat 8 (maskOf bad)) (BitVec.ofNat 8 (maskOf sp)))

/-- While no change waits, the receiver asks for what its map lacks: other lanes in place of those it cannot use, or lanes taken back
by a map narrower than R250 would give (R246, R251). -/
def State.mindMap (s : State) (p : Nat) : State :=
  let m := s.rxMap p
  let sp := s.offered p
  let want := wantWidth (m.length + sp.length) (s.flag F.PORT_CTRL.SPARE (portIx p))
  if !s.portUp p || (s.portH p).rxMapNext.isSome then s
  else if m.any (s.unusable p) then s.sendMapReq p
  else if m.length < want then s.offer p (.mapReq 0 (BitVec.ofNat 8 (maskOf (sp.take (want - m.length)))))
  else s

/-- The receive map changes at an ALIGN; the port goes DOWN where too few lanes are left. -/
def State.applyRxMap (s : State) (p : Nat) : State :=
  match (s.portH p).rxMapNext with
  | none => s
  | some w =>
    let old := s.rxMap p
    let s := s.setMap p F.PORT_MAP.RX w
    let s := s.onPort p fun h => { h with rxMapNext := none }
    let s := ((s.mapChanged p old (s.rxMap p)).mapPending p).portMirror p
    if (s.rxMap p).length < s.minWidth p then s.portDown p else s

/-! ### UP (R250, R262, R291) -/

/-- The authentication HELLOs: one under each roster entry that has the port in PORTS, in ascending order. -/
def State.helloOf (s : State) (p : Nat) : Hello :=
  { id := BitVec.ofNat 12 s.selfId
    mode := BitVec.ofNat 2 s.chainMode
    anchorId := BitVec.ofNat 12 (s.fld F.CHAIN_CFG.ANCHOR_ID)
    port := BitVec.ofNat 4 p
    role := BitVec.ofNat 2 (s.portRole p) }

/-- Each has a NONCE of its own from the random generator, and none is used again. -/
def State.sendHellos (s : State) (p : Nat) : State :=
  (List.range 64).foldl (fun s n =>
    if s.flag F.ROSTER.VALID [n] && (s.fld F.ROSTER.PORTS [n]).testBit p then
      let nonce := Config.freeRandom s.free
      let s := s.spend.onPort p fun h => { h with helloNonces := h.helloNonces.filter (fun e => e.1 != n) ++ [(n, nonce)] }
      s.sendWith s.selfId p 0 (.hello (s.helloOf p)) (some n)
    else s) s

/-- The maps that both ends know allow the port to be UP: the lanes of the receive map are still usable, and neither direction is
narrower than MIN_WIDTH (R250). -/
def State.mapsReady (s : State) (p : Nat) : Bool :=
  match (s.portH p).rxMapNext, (s.portH p).txMapNext with
  | some r, some x =>
    (mapLanes r.toNat).all (s.usable p) && decide (s.minWidth p ≤ (mapLanes r.toNat).length) &&
      decide (s.minWidth p ≤ (mapLanes x.toNat).length)
  | _, _ => false

/-- The port reaches UP: SEQ restarts, and the authentication HELLOs go out. -/
def State.portReady (s : State) (p : Nat) : State :=
  let h := s.portH p
  let s := (s.setMap p F.PORT_MAP.TX (h.txMapNext.getD 0xFFFFFFFF)).setMap p F.PORT_MAP.RX (h.rxMapNext.getD 0xFFFFFFFF)
  let s := s.onPort p fun h => { ({} : PortH) with
    lanes := h.lanes, alignCount := h.alignCount, partnerLocked := h.partnerLocked, deskewed := h.deskewed }
  let s := s.put F.SEC_PORTS.UNENROLLED (s.fld F.SEC_PORTS.UNENROLLED &&& (0xFFFF ^^^ 2 ^ p))
  let s := ((s.setPortState p 2).mapPending p).portMirror p
  (s.portEvent p 1).sendHellos p

/-! ### Enrolment of a port (R294) -/

/-- The port becomes unenrolled: a lap in progress or undecided is scratched with SECURITY first. -/
def State.unenroll (s : State) (p : Nat) : State :=
  let s := match s.fab.phase with
    | .undecided => (s.noteScratch 0x0D none).discardLap.haltLaps 0x0D true
    | _ => s.scratch 0x0D
  let was := s.lapReady p
  let s := (s.lapReadySet p false).put F.CHAIN_PORT.HELLO_FAULT 1 [p]
  let s := s.put F.SEC_PORTS.UNENROLLED (s.fld F.SEC_PORTS.UNENROLLED ||| 2 ^ p)
  let s := s.put F.SEC_PORTS.ENROLLED (s.fld F.SEC_PORTS.ENROLLED &&& (0xFFFF ^^^ 2 ^ p))
  let s := s.onPort p fun h => { h with partner := none, waitingTx := h.waitingTx.filter fun f => f.body.kind == 5 }
  let s := (s.recordLink (8 * p) 4).alarm 2
  if was then s.losePartner p else s

end Sys2Proof.Machine
end

