-- ==== Sys2Proof/Machine/RelayLanes.lean ====
section
/-! DEFINITION. The commands of the relay lanes: what arrives on a lane or a port, and what writes to its registers do (R240 to
R258). -/

namespace Sys2Proof.Machine

/-! ### What the lanes bring (R240, R257) -/

/-- What command `c` brings to port `p`: in far-end loopback it goes back on its lanes, while the group sleeps or is off nothing is
heard, and otherwise `act` is its effect. -/
def State.heard (s : State) (p : Nat) (c : Instr) (act : State → State) : State :=
  if s.portState p = 5 then s.emit p (.echo c)
  else if !s.groupRuns p then s
  else act s

/-! ### Lanes -/

/-- A lane becomes FAILED: it leaves the maps and is recorded with a reason (R246). -/
def State.failLane (s : State) (p i reason : Nat) : State :=
  if s.laneState p i = 7 then s
  else
    let ix := portIx p
    let s := s.setLane p i 7
    let s := s.put F.PORT_STAT.FAILED (s.fld F.PORT_STAT.FAILED ix ||| 2 ^ i) ix
    let s := ((s.portEvent p 5).recordLink (8 * p + i) (16 + reason)).portMirror p
    if s.portUp p && (s.rxMap p).contains i then s.sendMapReq p else s

/-- A lane that a held soft repair marks FAILED (R370). -/
def State.markLane (s : State) (lane : Nat) : State :=
  let p := lane / 8
  let i := lane % 8
  (s.put F.PORT_STAT.FAILED (s.fld F.PORT_STAT.FAILED (portIx p) ||| 2 ^ i) (portIx p)).put F.LANE_STAT.STATE 7 (laneIx p i)

/-- The state that a lane of the port takes when it is to acquire: off with the port, at rest while the group sleeps. -/
def State.acquireState (s : State) (p n : Nat) : Nat :=
  if s.portState p = 5 then 6
  else if !s.portEn p || s.portState p == 4 || !s.groupOn p then 0
  else if s.groupRuns p then n
  else 4

/-- A FAILED lane returns to acquisition; one in near-end loopback stays there, and is FAILED no more. -/
def State.clearFail (s : State) (p i : Nat) : State :=
  if !(s.fld F.PORT_STAT.FAILED (portIx p)).testBit i then s
  else
    let ix := portIx p
    let s := s.put F.PORT_STAT.FAILED (s.fld F.PORT_STAT.FAILED ix &&& (0xFF ^^^ 2 ^ i)) ix
    let s : State := { s with ref := { s.ref with badLanes := listDrop s.ref.badLanes (8 * p + i) } }
    let s := if s.laneState p i = 7 then s.setLane p i (s.acquireState p 1) else s
    (s.onLane p i fun l => { l with losses := 0, good := 0, window := 0 }).portMirror p

/-- The lane's receiver adapts and measures: eye margin and frequency offset are measured values (notes/assumptions 3). -/
def State.measureLane (s : State) (p i : Nat) : State :=
  let m := (Config.freeMeasure s.free).toNat
  ((s.spend.put F.LANE_STAT.EYE (m % 256) (laneIx p i)).put F.LANE_STAT.FREQ (m / 256) (laneIx p i))

/-- A lane that acquires or hunts declares lock, and its TRAIN blocks say so; a lane of a port that is UP is then a spare, once an ALIGN
has shown its skew (R245, R250, R251). -/
def State.lockLane (s : State) (p i : Nat) : State :=
  let s := s.onLane p i fun l => { l with good := 0, window := 0 }
  let s := ((s.setLane p i 3).measureLane p i).portMirror p
  if s.portState p = 1 then s.emitTrain p else s

/-- Losses within the last second, this one among them: at least one and at most all that were counted. How many is a matter of
time that the command does not carry: a free value (notes/assumptions 44). -/
def State.recentLosses (s : State) (p i : Nat) : Nat :=
  1 + (Config.freeMeasure s.free).toNat % ((s.portH p).lane i).losses

/-- A lane, LOCKED or at rest, loses lock and hunts again. -/
def State.lossOfLock (s : State) (p i : Nat) : State :=
  if s.laneState p i ≠ 3 ∧ s.laneState p i ≠ 4 then s
  else
    let inMap := (s.rxMap p).contains i
    let s := (s.setLane p i 2).count F.LANE_STAT.LOSSES (laneIx p i)
    let s := s.onLane p i fun l => { l with losses := l.losses + 1, good := 0, window := 0 }
    let s := s.onPort p fun h => { h with deskewed := h.deskewed &&& ~~~(BitVec.ofNat 8 (2 ^ i)) }
    let s := s.portMirror p
    let limit := s.fld F.PORT_LIMITS.LOSS_LIMIT (portIx p)
    let recent := s.recentLosses p i
    let s := s.spend
    if limit ≠ 0 ∧ limit ≤ recent then s.failLane p i 0
    else if s.portUp p && inMap then s.sendMapReq p
    else s

def syncOk (h : BitVec 2) : Bool := h == 1 || h == 2

/-- A hunting receiver sees a header at the boundary that it tries: 64 valid ones in a row are lock, and an invalid one moves the
boundary by one bit (R245). With the XTALA reference no lane locks (R248). -/
def State.huntHeader (s : State) (p i : Nat) (ok : Bool) : State :=
  if !ok then s.onLane p i fun l => { l with good := 0, boundary := (l.boundary + 1) % 66 }
  else
    let s := s.onLane p i fun l => { l with good := min 64 (l.good + 1) }
    if ((s.portH p).lane i).good = 64 ∧ !s.aloneRef then s.lockLane p i else s

/-- A LOCKED receiver sees a header: sixteen invalid ones among the last 64 are a loss of lock. -/
def State.lockedHeader (s : State) (p i : Nat) (ok : Bool) : State :=
  let s := s.onLane p i fun l => { l with window := (l.window <<< 1) ||| BitVec.ofNat 64 (b2n !ok) }
  if ok then s
  else
    let s := s.count F.LANE_ERR.HDR_ERR (laneIx p i)
    if 16 ≤ popcount ((s.portH p).lane i).window then s.lossOfLock p i else s

/-- A receiver whose partner leaves idle stands at the boundary that it had: sixteen valid headers are lock (R254). -/
def State.burstHeader (s : State) (p i : Nat) (ok : Bool) : State :=
  if !ok || !(s.portH p).rxIdle then s
  else
    let s := s.onLane p i fun l => { l with good := min 16 (l.good + 1) }
    if ((s.portH p).lane i).good = 16 then
      (s.onLane p i fun l => { l with good := 0, window := 0 }).setLane p i 3
    else s

/-- A lane's receiver sees a sync header. -/
def State.seeHeader (s : State) (p i : Nat) (h : BitVec 2) : State :=
  match s.laneState p i with
  | 1 => s.huntHeader p i (syncOk h)
  | 2 => s.huntHeader p i (syncOk h)
  | 3 => s.lockedHeader p i (syncOk h)
  | 4 => s.burstHeader p i (syncOk h)
  | _ => s

def State.seeHeaders (s : State) (p i : Nat) (hs : List (BitVec 2)) : State := hs.foldl (fun s h => s.seeHeader p i h) s

def execLaneLock (p : Port) (i : Lane) (hs : List (BitVec 2)) (s : State) : Out :=
  .next (s.heard p.val (.laneLock p i hs) fun s => s.seeHeaders p.val i.val hs).settle

def execLossOfLock (p : Port) (i : Lane) (hs : List (BitVec 2)) (s : State) : Out :=
  .next (s.heard p.val (.lossOfLock p i hs) fun s => s.seeHeaders p.val i.val hs).settle

/-- A lane is refused lock for its frequency (R249). -/
def execRefFault (p : Port) (i : Lane) (s : State) : Out :=
  if s.laneState p.val i.val = 1 ∨ s.laneState p.val i.val = 2 then .next ((s.setLane p.val i.val 8).portMirror p.val)
  else .next s

/-- Lanes not locked within ACQ_LIMIT become FAILED; with too few left, the port restarts acquisition (R250). -/
def execAcqLimitExpiry (p : Port) (s : State) : Out :=
  if s.portState p.val ≠ 1 ∨ s.aloneRef ∨ !s.groupRuns p.val then .next s
  else
    let late := lanes8.filter fun i => s.laneState p.val i == 1 || s.laneState p.val i == 2 || s.laneState p.val i == 8
    let s := late.foldl (fun s i => s.failLane p.val i 1) s
    let locked := lanes8.filter fun i => s.laneState p.val i == 3
    if locked.length < s.minWidth p.val then .next (s.acquire p.val) else .next s

/-! ### Control blocks received -/

/-- Types of control block that a command of its own brings, and fill (*Lane control block types*, *Ryulelo control blocks*). -/
def knownType (ty : Nat) : Bool := [0x1E, 0x2D, 0x4B, 0x55, 0x66, 0x78, 0x80, 0x81, 0x82, 0x83].contains ty

/-- Frame kinds 0x1 to 0x6. -/
def knownKind (k : Nat) : Bool := decide (1 ≤ k ∧ k ≤ 6)

/-- A frame of a reserved kind is discarded and counted; its number is used up (R264, R265; notes/assumptions 97). -/
def State.reservedFrame (s : State) (p : Nat) (seq : BitVec 24) : State :=
  let s := s.count F.LINK_STAT.PROTO_ERR [p]
  if seq = (s.portH p).rxSeq then s.onPort p fun h => { h with rxSeq := h.rxSeq + 1, nakSent := false } else s

/-- A control block that is none of another command: fill is discarded, a reserved type is discarded and counted (R243, R264). -/
def State.oddBlock (s : State) (p i : Nat) (w : W64) : State :=
  let ty := bitsOf w 7 0
  if ty = 0x80 then
    if s.portUp p && !knownKind (bitsOf w 11 8) then s.reservedFrame p (BitVec.ofNat 24 (bitsOf w 39 16)) else s
  else if knownType ty then s
  else if 0x80 ≤ ty then if s.portUp p then s.count F.LINK_STAT.PROTO_ERR [p] else s
  else if s.laneState p i = 3 then s.count F.LANE_ERR.HDR_ERR (laneIx p i)
  else s

/-- A block on a lane: its header is seen, and its payload descrambled (R242, R245). -/
def State.laneBlock (s : State) (p : Nat) (b : LaneIn) : State :=
  let i := b.lane.val
  let w := descrambled ((s.portH p).lane i).descr b.bits
  let s := s.onLane p i fun l => { l with descr := lastBits b.bits }
  let s := s.seeHeader p i b.hdr
  if b.hdr = 2 then s.oddBlock p i w else s

/-- In far-end loopback the recovered bits go back as they came. -/
def State.returnBlocks (s : State) (p : Nat) (bs : List LaneIn) : State :=
  { s with wire := s.wire ++ bs.map fun b => { port := p, lane := b.lane.val, hdr := b.hdr, bits := b.bits } }

def execIdle (p : Port) (bs : List LaneIn) (s : State) : Out :=
  let s := if s.portState p.val = 5 then s.returnBlocks p.val bs else s
  .next (s.heard p.val (.idle p bs) fun s => bs.foldl (fun s b => s.laneBlock p.val b) s).settle

/-- The lanes that the transmitter proposes: all but FAILED and looped ones. -/
def State.proposed (s : State) (p : Nat) : List Nat := lanes8.filter fun i => s.laneState p i != 7 && s.laneState p i != 5

/-- A TRAIN block: a valid header, and the partner's flags for the lane. Once it shows LOCKED on every proposed lane, an acquiring port
sends ALIGN. -/
def State.trainReceived (s : State) (p i : Nat) (locked : Bool) : State :=
  let s := s.seeHeader p i 2
  let old := (s.portH p).partnerLocked
  let b : BitVec 8 := BitVec.ofNat 8 (2 ^ i)
  let new := if locked then old ||| b else old &&& ~~~b
  let s := s.onPort p fun h => { h with partnerLocked := new }
  let all := fun (v : BitVec 8) => (s.proposed p).all fun i => v.getLsbD i
  if s.portState p = 1 ∧ all new ∧ !all old then s.sendAlign p else s

def execTrain (p : Port) (i : Lane) (locked deskewed outside : Bool) (s : State) : Out :=
  .next (s.heard p.val (.train p i locked deskewed outside) fun s => s.trainReceived p.val i.val locked).settle

/-- An acquiring port forms its receive map from its usable lanes, says so in TRAIN, and sends it (R250). -/
def State.formMap (s : State) (p : Nat) : State :=
  let ls := mapFrom (lanes8.filter (s.usable p)) (s.flag F.PORT_CTRL.SPARE (portIx p))
  if ls.length < s.minWidth p then s.onPort p fun h => { h with rxMapNext := none }
  else
    let w : BitVec 32 := BitVec.ofNat 32 (mapWord ls)
    let s := s.onPort p fun h => { h with rxMapNext := some w }
    (s.emitTrain p).emit p (.map w)

/-- The closing ALIGN of a burst: a lane of the map that has not declared lock, or comes too late, has lost lock (R254). -/
def State.burstEnds (s : State) (p : Nat) : State :=
  let s := s.onPort p fun h => { h with rxIdle := false }
  let s := ((s.rxMap p).filter fun i => s.laneState p i == 4 || s.unusable p i).foldl (fun s i => s.lossOfLock p i) s
  let s := lanes8.foldl (fun s i => if s.laneState p i = 4 then s.setLane p i 2 else s) s
  if s.portUp p then s else s.portEvent p 0

/-- An ALIGN deskews the locked lanes. An acquiring port forms its receive map and sends it, and at the next ALIGN with both maps
known reaches UP; a port that is UP switches to the map announced, and an idle partner is back (R244, R250, R251, R254). -/
def State.alignReceived (s : State) (p : Nat) (skew : Vector (BitVec 8) 8) : State :=
  let sk := fun i => (skew.toList.getD i 0).toNat
  let s := lanes8.foldl (fun s i =>
    if s.laneState p i = 3 then s.put F.LANE_STAT.SKEW (sk i) (laneIx p i) else s) s
  let good := lanes8.filter fun i => s.laneState p i == 3 && decide (sk i ≤ 31)
  let s := s.onPort p fun h => { h with deskewed := BitVec.ofNat 8 (maskOf good) }
  if s.portState p = 1 then if s.mapsReady p then s.portReady p else s.formMap p
  else if !s.portUp p then s
  else if (s.portH p).rxIdle then s.burstEnds p
  else (s.applyRxMap p).mindMap p

def execAlign (p : Port) (skew : Vector (BitVec 8) 8) (s : State) : Out :=
  .next (s.heard p.val (.align p skew) fun s => s.alignReceived p.val skew).settle

/-- The transmitter enters idle: five IDLE_ENTER blocks on every lane, and it stops driving (R253). -/
def State.enterIdle (s : State) (p : Nat) : State :=
  ((List.range 5).foldl (fun s _ => s.emit p .idleEnter) s).setPortState p 3

/-- The transmitter sends ALIGN, and its pending map applies; an entry into idle that waited for it is carried out. -/
def State.alignSends (s : State) (p : Nat) : State :=
  match s.portState p with
  | 1 => s.sendAlign p
  | 2 =>
    let s := (s.sendAlign p).applyTxMap p
    if s.flag F.PORT_STAT.IDLE_PENDING (portIx p) && (s.portH p).txMapNext.isNone then
      let s := s.put F.PORT_STAT.IDLE_PENDING 0 (portIx p)
      if (s.portH p).waitingTx.isEmpty && s.portState p == 2 then s.enterIdle p else s
    else s
  | _ => s

def execAlignSend (p : Port) (s : State) : Out := if s.groupRuns p.val then .next (s.alignSends p.val).settle else .next s

/-- A MAP: while the port acquires, the partner's receive map, which this end's transmitter applies; while it is UP, the map that
the partner's transmitter switches to. -/
def State.mapReceived (s : State) (p : Nat) (entries : BitVec 32) : State :=
  if s.portState p = 1 then s.onPort p fun h => { h with txMapNext := some entries }
  else if s.portUp p then (s.onPort p fun h => { h with rxMapNext := some entries }).mapPending p
  else s

def execMap (p : Port) (entries : BitVec 32) (s : State) : Out :=
  .next (s.heard p.val (.map p entries) fun s => s.mapReceived p.val entries)

/-- A MAP_REQ: a new map is computed and sent, or the request is latched (R252). -/
def State.mapRequested (s : State) (p : Nat) (unusable spares : BitVec 8) : State :=
  if !s.portUp p then s
  else
    let h := s.portH p
    if h.txMapNext.isSome then
      let bad := if h.reqLatched then (h.badTx ||| unusable) &&& ~~~spares else unusable
      let s := s.onPort p fun h => { h with reqLatched := true, badTx := bad, spareTx := spares }
      s.put F.PORT_STAT.MAP_QUEUED 1 (portIx p)
    else s.announceMap p (s.newTxMap p unusable.toNat spares.toNat)

def execMapReq (p : Port) (unusable spares : BitVec 8) (s : State) : Out :=
  .next (s.heard p.val (.mapReq p unusable spares) fun s => s.mapRequested p.val unusable spares).settle

/-! ### Electrical idle (R253 to R255) -/

/-- The partner's transmitter goes idle: the lanes that were locked rest, and count the headers of its burst anew. -/
def State.partnerIdles (s : State) (p : Nat) : State :=
  if s.portUp p then
    let s := s.onPort p fun h => { h with rxIdle := true, lanes := h.lanes.map fun l => { l with good := 0 } }
    lanes8.foldl (fun s i => if s.laneState p i = 3 then s.setLane p i 4 else s) s
  else s

def execIdleEnter (p : Port) (s : State) : Out :=
  .next (s.heard p.val (.idleEnter p) fun s => s.partnerIdles p.val)

/-- The transmitter has had nothing to send for IDLE_AFTER: it goes idle, or waits for a map change to end. -/
def execIdleAfterExpiry (p : Port) (s : State) : Out :=
  if s.portState p.val ≠ 2 ∨ s.fld F.PORT_CTRL.IDLE_AFTER (portIx p.val) = 0 ∨ !(s.portH p.val).waitingTx.isEmpty then .next s
  else if (s.portH p.val).txMapNext.isSome then .next (s.put F.PORT_STAT.IDLE_PENDING 1 (portIx p.val))
  else .next (s.enterIdle p.val)

/-- Something waits for the transmitter to leave idle. -/
def State.exitDue (s : State) (p : Nat) : Bool :=
  let h := s.portH p
  !h.waitingTx.isEmpty || !h.waitBlocks.isEmpty || h.exitLatched

/-- The training burst: 31 TRAIN blocks, or 1,023 after a long idle, and ALIGN (R254). -/
def State.burst (s : State) (p : Nat) (long : Bool) : State :=
  ((List.range (if long then 1023 else 31)).foldl (fun s _ => s.emitTrain p) s).sendAlign p

/-- The transmitter leaves idle with a training burst and sends what has waited. While its group sleeps it stays idle. -/
def State.idleExit (s : State) (p : Nat) (long : Bool) : State :=
  if s.portState p ≠ 3 ∨ !s.exitDue p ∨ !s.groupRuns p then s
  else
    let h := s.portH p
    let s := ((s.burst p long).setPortState p 2).put F.PORT_STAT.IDLE_PENDING 0 (portIx p)
    let s := s.onPort p fun h => { h with waitBlocks := [] }
    let s := h.waitBlocks.foldl (fun s b => s.emit p b) s
    let s := if h.exitLatched then s.sendAck p none else s
    s.drainAll p

def execIdleExit (p : Port) (long : Bool) (s : State) : Out := .next (s.idleExit p.val long)

/-! ### Writes to the registers -/

/-- The port goes into far-end loopback. -/
def State.farLoop (s : State) (p : Nat) : State := ((s.setPortState p 5).setLanes p 6).portMirror p

/-- PORT_CTRL: EN starts acquisition or takes the port DOWN; FAR_LOOP takes it out of service (R250, R257). -/
def State.writePortCtrl (s : State) (p : Nat) (h : Half) (v : W64) : Resp × State :=
  let ix := portIx p
  let wasEn := s.portEn p
  let wasLoop := s.farLooped p
  let s := s.store .PORT_CTRL ix h v
  let en := s.portEn p
  let loop := s.farLooped p
  if loop && !wasLoop then (.ok, (s.leaveUp p).farLoop p)
  else if loop then (.ok, s)
  else if en && (!wasEn || wasLoop) then (.ok, (s.acquire p))
  else if !en && (wasEn || wasLoop) then (.ok, s.portDown p)
  else (.ok, s)

/-- LANE_CTRL: RETIRE, CLR_FAIL, NEAR_LOOP, ADAPT and PRBS. Near-end loopback is for a lane outside both maps (R256). -/
def State.writeLaneCtrl (s : State) (p i : Nat) (h : Half) (v : W64) : Resp × State :=
  let ix := laneIx p i
  let old := s.flag F.LANE_CTRL.NEAR_LOOP ix
  let word := s.merged .LANE_CTRL ix h v
  let new := fieldIn F.LANE_CTRL.NEAR_LOOP word != 0
  if new && !old && !s.outsideMaps p i then (.bankNotOwned, s)
  else
    let s := if fieldIn F.LANE_CTRL.ADAPT word = 0 then s.latchEq p i else s
    let s := s.lanesChange p [i] fun s => s.store .LANE_CTRL ix h v
    let s := if wrote F.LANE_CTRL.RETIRE h v then s.failLane p i 2 else s
    let s := if wrote F.LANE_CTRL.CLR_FAIL h v then s.clearFail p i else s
    let s := if new && !old then s.setLane p i 5
      else if old && !new then
        s.setLane p i (if (s.fld F.PORT_STAT.FAILED (portIx p)).testBit i then 7 else s.acquireState p 2)
      else s
    (.ok, s.portMirror p)

/-- LANE_EQ, which ADAPT holds (R247). -/
def State.writeLaneEq (s : State) (p i : Nat) (h : Half) (v : W64) : Resp × State :=
  if s.flag F.LANE_CTRL.ADAPT (laneIx p i) then (.bankNotOwned, s) else (.ok, s.store .LANE_EQ (laneIx p i) h v)

/-! ### The relay group's power (R240) -/

/-- The group of the ports leaves RUN for DEEP or OFF, sleeps, or returns to RUN. -/
def groupPorts (d : Nat) : List Nat := (List.range 16).filter fun p => pdRelay p == d

def State.groupDown (s : State) (d : Nat) : State :=
  (groupPorts d).foldl (fun s p =>
    let s := s.leaveUp p
    ((s.setPortState p (if s.portEn p || s.portState p == 5 then 4 else s.portState p)).setLanes p 0).portMirror p) s

/-- SLEEP: the lanes of the group are held in electrical idle. -/
def State.groupSleeps (s : State) (d : Nat) : State :=
  (groupPorts d).foldl (fun s p =>
    let s := if s.portState p = 2 then s.enterIdle p else s
    let s := if s.portUp p then s.partnerIdles p else s
    if s.portState p = 1 || s.portUp p then (s.setLanes p 4).portMirror p else s) s

/-- RUN again: an enabled port that is not UP acquires afresh, or goes back into far-end loopback; one that slept while UP awaits its
partner's burst, and leaves idle itself when it has something to send. -/
def State.groupUp (s : State) (d : Nat) : State :=
  (groupPorts d).foldl (fun s p =>
    if s.farLooped p then s.farLoop p
    else if s.portEn p && !s.portUp p then s.acquire p
    else s) s

end Sys2Proof.Machine
end

