-- ==== Sys2Proof/Machine/Chain.lean ====
section
/-! DEFINITION. Ryulelo frames as they arrive, the lap barrier, partner loss, bridges, and what writes to the chain registers do
(R259 to R279, R291 to R295). -/

namespace Sys2Proof.Machine

/-! ### Reception and replay (R265, R266, R293) -/

/-- A frame that fails its checks, or comes after a gap: one NAK for each gap. -/
def State.nakOnce (s : State) (p : Nat) : State :=
  let h := s.portH p
  if h.nakSent then s
  else (s.onPort p fun h => { h with nakSent := true, owed := Vector.replicate 3 0 }).offer p (.nak h.rxSeq h.owed.toList)

/-- A good frame whose tag fails: the alarm, and after four within a second the port becomes unenrolled. How many of the failures
lie within the second is a matter of time: a free value (notes/assumptions 44). -/
def State.tagFailure (s : State) (p : Nat) : State :=
  let s := ((s.count F.SEC_COUNTS.LINK_TAG).alarm 1).onPort p fun h => { h with tagFails := h.tagFails + 1 }
  let recent := 1 + (Config.freeMeasure s.free).toNat % (s.portH p).tagFails
  let s := (s.spend.nakOnce p)
  if 4 ≤ recent ∧ !s.unenrolled p then s.unenroll p else s

/-- The distance by which `seq` lies before the next frame expected. -/
def behind (next seq : BitVec 24) : Nat := (next - seq).toNat

/-- The next frame expected has come: it is accepted, and acknowledged with a credit of its class. -/
def State.accept (s : State) (p : Nat) (c : Fin 3) : State :=
  (s.onPort p fun h => { h with rxSeq := h.rxSeq + 1, nakSent := false }).sendAck p (some c)

/-- A frame arrives: its CRC, its tag under the link key and its SEQ are checked; one that is accepted is acted on when the port may
carry it. Without a link key no tag verifies. -/
def State.receive (s : State) (p : Nat) (f : Frm) (c : Fin 3) (ok : Bool) (act : State → State) : State :=
  let h := s.portH p
  if !s.portUp p then s
  else if !f.crcOk then (s.count F.LINK_STAT.CRC_ERR [p]).nakOnce p
  else if !f.tagOk || h.rxKey.isNone then s.tagFailure p
  else if f.seq ≠ h.rxSeq then (if behind h.rxSeq f.seq < 2 ^ 23 then s.sendAck p none else s.nakOnce p)
  else
    let s := s.accept p c
    if ok then act s else s

/-- Frames before NEXT are acknowledged, and credits come back. -/
def State.acknowledge (s : State) (p : Nat) (next : BitVec 24) (credits : BitVec 24) : State :=
  s.onPort p fun h => { h with
    unacked := h.unacked.filter fun f => !(decide (0 < behind next f.seq) && decide (behind next f.seq < 2 ^ 23))
    credits := Vector.ofFn fun i => h.credits[i] + bitsOf credits (8 * i.val + 7) (8 * i.val) }

/-- Waiting frames go out, unless the transmitter idles. -/
def State.drainUp (s : State) (p : Nat) : State := if s.portState p = 2 then s.drainAll p else s

/-- Every unacknowledged frame that the port may still carry goes out again, from an idle transmitter once it has left idle; one that
has gone out REPLAY_LIMIT times takes the port DOWN. -/
def State.resend (s : State) (p : Nat) : State :=
  let limit := max 1 (s.fld F.CHAIN_LIMITS.REPLAY_LIMIT)
  let again := (s.portH p).unacked.map fun f => if s.mayCarry p f then ({ f with sends := f.sends + 1 }, true) else (f, false)
  let fs := (again.filter fun x => x.2).map fun x => x.1
  if fs.any fun f => limit < f.sends then (s.put F.LINK_STAT.EXHAUSTED 1 [p]).portDown p
  else
    let s := (s.onPort p fun h => { h with unacked := again.map fun x => x.1 }).count F.LINK_STAT.REPLAYS [p] fs.length
    fs.foldl (fun s f => s.offer p (.frame f)) s

/-- An ACK whose check byte is right. -/
def execAck (p : Port) (next credits : BitVec 24) (ok : Bool) (s : State) : Out :=
  .next (s.heard p.val (.ack p next credits ok) fun s =>
    if s.portUp p.val && ok then (s.acknowledge p.val next credits).drainUp p.val else s)

/-- A NAK: replays go before new frames (R266). -/
def execNak (p : Port) (next credits : BitVec 24) (ok : Bool) (s : State) : Out :=
  .next (s.heard p.val (.nak p next credits ok) fun s =>
    if s.portUp p.val && ok then ((s.acknowledge p.val next credits).resend p.val).drainUp p.val else s).settle

def execReplayTimeout (p : Port) (s : State) : Out :=
  if s.portUp p.val && !(s.portH p.val).unacked.isEmpty then .next (s.resend p.val).settle else .next s

/-! ### Batons (R271 to R277) -/

/-- A child's READY. -/
def State.readyReceived (s : State) (p : Nat) (b : Baton) : State :=
  let rs := s.chain.readyFrom.filter (fun r => r.1 != p) ++ [(p, b)]
  { s with chain := { s.chain with readyFrom := rs } }.barrierStart

/-- GO starts the laps of an armed member, or the retry that a member waits for. -/
def State.goReceived (s : State) (b : Baton) : State :=
  match s.fab.phase with
  | .goWait =>
    let s := s.batonDown 2 b
    { s with chain := { s.chain with attempt := b.attempt } }.lapsStart
  | .retryWait =>
    let s := s.batonDown 2 b
    { s with chain := { s.chain with attempt := b.attempt } }.retryBegin
  | _ => s

/-- The baton concerns the lap and attempt that this device is in. -/
def State.ofThisLap (s : State) (b : Baton) : Bool := b.lap == s.lapNext && b.attempt == s.chain.attempt

/-- A child's report is kept; one that reports a scratch is passed on, or decided, at once (R272, R273). -/
def State.doneReceived (s : State) (p : Nat) (b : Baton) : State :=
  if !s.lapsRun || !s.ofThisLap b then s
  else
    let ds := s.chain.doneFrom.filter (fun d => d.1 != p) ++ [(p, b)]
    { s with chain := { s.chain with doneFrom := ds } }.earlyReports

/-- A SCRATCH concerns the lap in progress or held undecided, or an armed device, whose laps never started: the anchor's answer to a
mismatch carries the anchor's own LAP (R271, R274). -/
def State.awaitsDecision (s : State) (b : Baton) : Bool :=
  match s.fab.phase with
  | .steps | .gatherDue | .undecided => s.ofThisLap b
  | .goWait => true
  | _ => false

/-- COMMIT: passed on, and the lap commits; the halt check applies only the baton's HALT (R274). -/
def State.commitReceived (s : State) (b : Baton) : State :=
  if !s.ofThisLap b || !(s.fab.phase == .undecided || (s.fab.phase == .steps && s.chain.doneSent)) then s
  else
    let s := s.batonDown 4 b
    let s := if b.halt then s.put F.CHAIN_STAT.ORIGIN b.origin.toNat else s
    let s := (s.put F.CHAIN_STAT.UNDECIDED 0).put F.CHAIN_STAT.STATE 2
    s.commitLap (some (if b.halt then b.hcause else 0))

/-- SCRATCH: passed on; the lap is withdrawn, or scratched and then retried or ended with the baton's cause (R274). -/
def State.scratchReceived (s : State) (b : Baton) : State :=
  if !s.awaitsDecision b then s
  else
    let s := ((s.batonDown 5 b).put F.CHAIN_STAT.UNDECIDED 0).put F.CHAIN_STAT.ORIGIN b.origin.toNat
    if b.withdrawn then s.withdrawLap b.hcause
    else if b.retry then ((s.scratchNow b.scause none true).put F.CHAIN_STAT.STATE 3)
    else (s.noteScratch b.scause none).discardLap.haltLaps b.hcause true

/-- QUERY: the anchor answers for its most recent decided lap (R277). -/
def State.queryReceived (s : State) (src : BitVec 12) (b : Baton) : State :=
  match s.chain.lastDecision with
  | some (kind, d) =>
    if s.chainMode = 1 ∧ d.lap = b.lap ∧ d.attempt = b.attempt then s.forward src.toNat (.baton kind d) else s
  | none => s

/-- A baton that came by port `p`: READY and DONE count from a CHILD, GO, COMMIT and SCRATCH from the PARENT; ALIVE only shows that the
partner is there (*Baton payload*). -/
def State.batonReceived (s : State) (p : Nat) (src : BitVec 12) (kind : Byte) (b : Baton) : State :=
  match kind.toNat, s.portRole p with
  | 1, 2 => s.readyReceived p b
  | 2, 1 => s.goReceived b
  | 3, 2 => s.doneReceived p b
  | 4, 1 => s.commitReceived b
  | 5, 1 => s.scratchReceived b
  | 6, _ => s.queryReceived src b
  | _, _ => s

/-! ### Bridged items (R279) -/

/-- The next position in order is pushed against a credit, and every other is discarded. -/
def State.bridgedItem (s : State) (b : Nat) (pos : BitVec 32) (x : Item) : State :=
  let br := s.bridge b
  let q := s.bridgeQ b
  if !s.bridgeEn b || !s.bridgeIn b || (br.started && br.nextPos != pos) || br.granted = 0 || s.credits q = 0 then s
  else
    let s := (s.pushCell q x).onBridge b fun br => { br with started := true, nextPos := pos + 1, granted := br.granted - 1 }
    s.pumpIn b true

/-- Credits, and the acknowledgement that frees cells. -/
def State.bridgedCredit (s : State) (b : Nat) (credits : BitVec 16) (highest : BitVec 32) : State :=
  if !s.bridgeEn b || s.bridgeIn b then s
  else
    let acked := ((s.bridge b).unacked.filter fun u => (highest - u.1).toNat < 2 ^ 31).length
    let s := s.onBridge b fun br => { br with granted := br.granted + credits.toNat, unacked := br.unacked.drop acked }
    let s := s.popMany (s.bridgeQ b) acked
    s.pumpOut b (s.bridge b).granted

/-! ### Delivery (R263, R267) -/

/-- The PARENT or CHILD port behind which device `src` is the neighbour: the one that a baton between sections came by. -/
def State.neighbourPort (s : State) (src : BitVec 12) : Option Nat :=
  (List.range 16).find? fun p => s.inTree p && s.fld F.CHAIN_PORT.PEER_ID [p] == src.toNat

/-- A frame for this device takes its effect: tokens into the import store, batons at once, flow items against their credits. HELLO and
BOOT frames are none of lap traffic. -/
def State.deliverFrame (s : State) (p : Option Nat) (src : BitVec 12) (body : FrameBody) : State :=
  match body with
  | .token g => s.acceptGroup g
  | .baton kind b =>
    match p.orElse fun _ => s.neighbourPort src with
    | some p => s.batonReceived p src kind b
    | none => s
  | .flowItem b pos x => s.bridgedItem b pos x
  | .flowCredit b c hi => s.bridgedCredit b c hi
  | .hello _ => s
  | .boot _ _ => s

/-- A frame of lap traffic that has reached the relay switch is delivered here, or forwarded (R263). -/
def State.routeFrame (s : State) (p : Option Nat) (src dst : BitVec 12) (body : FrameBody) : State :=
  if s.chainMode = 0 then s
  else if dst.toNat = s.selfId then s.deliverFrame p src body
  else s.forwardFrom src.toNat dst.toNat body

/-- A frame of lap traffic arrives on port `p`; a baton only counts on a PARENT or CHILD port (R261, R262). -/
def State.receiveLap (s : State) (p : Nat) (f : Frm) (body : FrameBody) : State :=
  s.receive p f body.class (s.carriesLap p && s.roleCarries p body) fun s => s.routeFrame (some p) f.src f.dst body

/-- A command that brings such a frame. -/
def State.lapFrame (s : State) (p : Port) (c : Instr) (f : Frm) (body : FrameBody) : State :=
  (s.heard p.val c fun s => s.receiveLap p.val f body).settleV

/-- The device's own frames that wait are addressed to itself: the oldest is delivered. -/
def State.deliverOwn (s : State) : State :=
  match s.ownFrames with
  | [] => s
  | x :: rest => ({ s with ownFrames := rest }.routeFrame none x.1 x.1 x.2).settleV

def execToken (p : Port) (f : Frm) (g : TokenGroup) (s : State) : Out := .next (s.lapFrame p (.token p f g) f (.token g))
def execReady (p : Port) (f : Frm) (b : Baton) (s : State) : Out := .next (s.lapFrame p (.ready p f b) f (.baton 1 b))
def execGo (p : Port) (f : Frm) (b : Baton) (s : State) : Out := .next (s.lapFrame p (.go p f b) f (.baton 2 b))
def execDone (p : Port) (f : Frm) (b : Baton) (s : State) : Out := .next (s.lapFrame p (.done p f b) f (.baton 3 b))
def execCommit (p : Port) (f : Frm) (b : Baton) (s : State) : Out := .next (s.lapFrame p (.commit p f b) f (.baton 4 b))
def execScratch (p : Port) (f : Frm) (b : Baton) (s : State) : Out := .next (s.lapFrame p (.scratch p f b) f (.baton 5 b))
def execQuery (p : Port) (f : Frm) (b : Baton) (s : State) : Out := .next (s.lapFrame p (.query p f b) f (.baton 6 b))

/-- ALIVE is not forwarded: it only shows that the partner is there. -/
def execAlive (p : Port) (f : Frm) (s : State) : Out :=
  .next (s.heard p.val (.alive p f) fun s => s.receive p.val f 1 false fun s => s)

def execFlowItem (p : Port) (f : Frm) (bridge : Fin 64) (pos : BitVec 32) (item : Item) (s : State) : Out :=
  .next (s.lapFrame p (.flowItem p f bridge pos item) f (.flowItem bridge.val pos item))

def execFlowCredit (p : Port) (f : Frm) (bridge : Fin 64) (credits : BitVec 16) (highest : BitVec 32) (s : State) : Out :=
  .next (s.lapFrame p (.flowCredit p f bridge credits highest) f (.flowCredit bridge.val credits highest))

/-- ALIVE goes out on a quiet PARENT or CHILD port while a lap is in progress or undecided. -/
def execAliveSend (p : Port) (s : State) : Out :=
  if s.barrierLive && s.inTree p.val then .next (s.sendBaton p.val 7 s.baton) else .next s

def execBatonLimitExpiry (p : Port) (s : State) : Out := .next (s.losePartner p.val).settleV

/-! ### HELLO and enrolment (R262, R291, R294) -/

/-- The roles of the two ends pair. -/
def rolesPair (mine theirs : Nat) : Bool :=
  (mine == 1 && theirs == 2) || (mine == 2 && theirs == 1) || (mine == 3 && theirs == 3)

/-- The partner's identity is recorded and the HELLO checked. A port with role NONE neither gains LAP_READY nor shows a fault
(notes/assumptions 46). -/
def State.applyHello (s : State) (p : Nat) (h : Hello) : State :=
  let was := s.lapReady p
  let s := (s.put F.CHAIN_PORT.PEER_ID h.id.toNat [p]).put F.CHAIN_PORT.PEER_PORT h.port.toNat [p]
  let s := s.onPort p fun x => { x with helloSeen := true }
  let ok := h.anchorId.toNat == s.fld F.CHAIN_CFG.ANCHOR_ID && h.id.toNat != s.selfId && rolesPair (s.portRole p) h.role.toNat
  if ok then (s.put F.CHAIN_PORT.HELLO_FAULT 0 [p]).gainPartner p
  else
    let s := (s.lapReadySet p false).put F.CHAIN_PORT.HELLO_FAULT (b2n (s.portRole p != 0)) [p]
    if was then s.losePartner p else s

/-- The boot image that a READY device serves to its neighbours: its length is in its header (R385). -/
def State.servedImage (s : State) : Option (List Byte) × State :=
  let a := s.fld F.REF_BOOTSRC.ADDR
  if s.ref.sbState ≠ 2 ∨ a = 0 then (none, s)
  else match s.loaderFetch .operator 0 a 4096 with
    | (.ok, h, _, s) =>
      match s.loaderFetch .operator 0 a (min 0x100000 (leField h 8 8) / 16 * 16) with
      | (.ok, bs, _, s) => (some bs, s)
      | (_, _, _, s) => (none, s)
    | (_, _, _, s) => (none, s)

/-- Bytes cut into frames of up to 256. -/
def bootChunks : Nat → List Byte → List (List Byte)
  | 0, _ => []
  | n + 1, bs => if bs.isEmpty then [] else bs.take 256 :: bootChunks n (bs.drop 256)

/-- A HELLO with ID 0xFFF asks for the boot image: it goes out in BOOT frames. -/
def State.serveBoot (s : State) (p : Nat) (h : Hello) : State :=
  if h.id.toNat ≠ 0xFFF ∨ !s.enrolled p then s
  else match s.servedImage with
    | (none, s) => s
    | (some bs, s) =>
      let cs := bootChunks 4096 bs
      (cs.zip (List.range cs.length)).foldl (fun s c => s.sendFrame p 0xFFF (.boot c.1 (c.2 + 1 == cs.length))) s

def execHello (p : Port) (f : Frm) (h : Hello) (s : State) : Out :=
  .next (s.heard p.val (.hello p f h) fun s =>
    s.receive p.val f 2 (s.enrolled p.val) fun s => (s.applyHello p.val h).serveBoot p.val h).settleV

/-- The link keys of both directions, from the nonces of the two authentication HELLOs: the first is that of the device with the lower
ID_DIGEST (R292). -/
def State.deriveKeys (s : State) (p n : Nat) (nonce : W64) : State :=
  match s.ref.roster.find? fun e => e.1 == n with
  | none => s
  | some e =>
    let mine := (((s.portH p).helloNonces.find? fun x => x.1 == n).map fun x => x.2).getD 0
    let low := bytesLess (digestBytes idDigest) (digestBytes (keyDigest (keyBytes e.2.idPub)))
    let key := linkKey (linkPrk e.2.agrPub) (if low then mine else nonce) (if low then nonce else mine)
    s.onPort p fun h => { h with txKey := some (key !low), rxKey := some (key low), nonceTx := 1 }

/-- An authentication HELLO, which the roster entry `accepted` has decrypted and verified, or none: the entry becomes the port's
partner, and the link keys are derived (R291, R292). -/
def State.authHello (s : State) (p : Nat) (nonce : W64) (h : Hello) (accepted : Option (Fin 64)) : State :=
  if !s.portUp p || s.unenrolled p then s
  else
    let s := s.accept p 2
    match accepted with
    | some n =>
      if s.enrolled p || !s.flag F.ROSTER.VALID [n.val] || !(s.fld F.ROSTER.PORTS [n.val]).testBit p then s
      else
        let s := s.put F.SEC_PORTS.ENROLLED (s.fld F.SEC_PORTS.ENROLLED ||| 2 ^ p)
        let s := (s.onPort p fun h => { h with partner := some n }).deriveKeys p n.val nonce
        ((s.applyHello p h).serveBoot p h).drainUp p
    | none => s

def execAuthenticationHello (p : Port) (nonce : W64) (h : Hello) (accepted : Option (Fin 64)) (s : State) : Out :=
  .next (s.heard p.val (.authenticationHello p nonce h accepted) fun s => s.authHello p.val nonce h accepted).settleV

def execEnrolmentTimeout (p : Port) (s : State) : Out :=
  if s.portUp p.val && !s.enrolled p.val && !s.unenrolled p.val then .next (s.unenroll p.val).settleV else .next s

/-! ### Writes to the chain registers (R259, R260, R278) -/

/-- CHAIN_CFG: ANCHOR needs its strap. -/
def State.writeChainCfg (s : State) (h : Half) (v : W64) : Resp × State :=
  let new := s.merged .CHAIN_CFG [] h v
  if s.lapsRun then (.bankNotOwned, s)
  else if fieldIn F.CHAIN_CFG.MODE new = 1 ∧ !s.ref.straps.anchor then (.decodeError, s)
  else (.ok, s.setReg .CHAIN_CFG [] new)

/-- CHAIN_LIMITS and CHAIN_PORT. -/
def State.writeChainPlain (s : State) (r : RegName) (ix : List Nat) (h : Half) (v : W64) : Resp × State :=
  if s.lapsRun then (.bankNotOwned, s) else (.ok, s.store r ix h v)

/-- FWD: an entry that names an unenrolled port is refused (R294); bridges whose path it brings back send again what is
unacknowledged (R279). -/
def State.writeFwd (s : State) (d : Nat) (h : Half) (v : W64) : Resp × State :=
  let new := s.merged .FWD [d] h v
  if s.lapsRun then (.bankNotOwned, s)
  else if fieldIn F.FWD.VALID new = 1 ∧ s.unenrolled (fieldIn F.FWD.PORT new) then (.unenrolled, s)
  else
    let was := s.routeTo d
    let s := s.setReg .FWD [d] new
    (.ok, if was.isNone && (s.routeTo d).isSome then s.resendItems fun b => s.bridgePeer b == d else s)

/-- An enabled bridge serves this end of the queue. -/
def State.bridgeOn (s : State) (q : Nat) (into : Bool) : Bool :=
  s.listedBridges.any fun b => s.bridgeEn b && s.bridgeQ b == q && s.bridgeIn b == into

/-- The queue's end is free for a bridge (R278). -/
def State.bridgeQualifies (s : State) (q : Nat) (into : Bool) : Bool :=
  s.qValid q && (if into then s.producer q else s.consumer q) == .none && !s.bridgeOn q into

/-- The bridge is taken out of use: a receiving bridge's credits are cancelled. -/
def State.closeBridge (s : State) (b : Nat) : State :=
  let s := if s.bridgeIn b then s.setCredits (s.bridgeQ b) 0 else s
  s.onBridge b fun _ => {}

def State.writeBridge (s : State) (b : Nat) (h : Half) (v : W64) : Resp × State :=
  let new := s.merged .BRIDGE_CFG [b] h v
  let closed := (if s.bridgeEn b then s.closeBridge b else s).put F.BRIDGE_CFG.EN 0 [b]
  let fwd := fieldIn F.BRIDGE_CFG.PEER_ID new
  if s.lapsRun then (.bankNotOwned, s)
  else if new = s.reg .BRIDGE_CFG [b] then (.ok, s)
  else if fieldIn F.BRIDGE_CFG.EN new = 0 then (.ok, closed.setReg .BRIDGE_CFG [b] new)
  else if !closed.bridgeQualifies (fieldIn F.BRIDGE_CFG.QUEUE new) (fieldIn F.BRIDGE_CFG.DIR new == 1) then (.bankNotOwned, s)
  else if s.flag F.FWD.VALID [fwd] && !s.enrolled (s.fld F.FWD.PORT [fwd]) then (.unenrolled, s)
  else (.ok, (closed.setReg .BRIDGE_CFG [b] new).pumpBridges)

/-- CHAIN_CTRL.DISCARD: an undecided lap is discarded as a scratch with no cause (R277). -/
def State.discardUndecided (s : State) : State :=
  if s.fab.phase == .undecided then (s.noteScratch 0 none).discardLap.haltLaps 6 else s

end Sys2Proof.Machine
end

