-- ==== Sys2Proof/Machine/Queue.lean ====
section
/-! DEFINITION. Queues and flows as commands reach them: binding, doorbells, rings, the pool bank table, flow binding and the
queue manager's own operations (R181 to R206). -/

namespace Sys2Proof.Machine

/-! ### Binding (R184, R185) -/

/-- An end of the queue is held by a valid flow or an enabled bridge: Q_STAT.IN_FLOW (R197, R278). -/
def State.qHeld (s : State) (q : Nat) : Bool := s.inFlow q || s.bridgeOn q true || s.bridgeOn q false

def isCmd (v : W64) : Bool := fieldIn F.Q_BIND.CMD v == 1
def prodOf (v : W64) : Ends := endOf (fieldIn F.Q_BIND.PROD_KIND v) (fieldIn F.Q_BIND.PROD_ENG v)
def consOf (v : W64) : Ends := endOf (fieldIn F.Q_BIND.CONS_KIND v) (fieldIn F.Q_BIND.CONS_ENG v)

/-- Ends that a write to Q_BIND may not name. -/
def endsBad (v : W64) : Bool :=
  let p := prodOf v
  let c := consOf v
  p == .reserved || c == .reserved || p == .fabric || c == .fabric || c == .host || c == .system || c == .trace ||
    (isCmd v && fieldIn F.Q_BIND.CONS_KIND v != 1)

/-- Queues with a listed Q_BIND: the only ones that can be bound. -/
def State.listedQueues (s : State) : List Nat :=
  s.regs.filterMap fun p =>
    if 0x030000500000 ≤ p.1 ∧ p.1 < 0x030000580000 ∧ p.1 % 0x40 = 0 then some ((p.1 - 0x030000500000) / 0x40) else none

/-- The command queues of engine `e`, in rising order. -/
def State.commandQueues (s : State) (e : Nat) : List Nat :=
  s.listedQueues.filter fun q => s.flag F.Q_BIND.CMD [q] && s.fld F.Q_BIND.CONS_ENG [q] == e

/-- The write would give one engine a ninth command queue. -/
def State.ninth (s : State) (q : Nat) (v : W64) : Bool :=
  isCmd v && decide (8 ≤ ((s.commandQueues (fieldIn F.Q_BIND.CONS_ENG v)).filter (· != q)).length)

def State.writeQBind (s : State) (role : Role) (q : Nat) (h : Half) (v : W64) : Resp × State :=
  let old := s.reg .Q_BIND [q]
  let new := s.merged .Q_BIND [q] h v
  if role ≠ .installer ∧ (isCmd new ∨ (isCmd old ∧ new ≠ old)) then (.roleDenied, s)
  else if s.qHeld q then (.bankNotOwned, s)
  else if endsBad new || s.ninth q new then (.decodeError, s)
  else
    let s := s.setReg .Q_BIND [q] new
    (.ok, if prodOf old = prodOf new then s else s.setCredits q 0)

/-- A write to Q_BIND that needed the installer is a recorded change (R287). -/
def State.bindRecorded (s : State) (q : Nat) (h : Half) (v : W64) : Bool :=
  isCmd (s.reg .Q_BIND [q]) || isCmd (s.merged .Q_BIND [q] h v)

def State.writeQLevel (s : State) (q : Nat) (h : Half) (v : W64) : Resp × State :=
  (.ok, (s.store .Q_LEVEL [q] h v).watermark q)

/-- Q_RING: an ORDER that the write reaches is 6 to 20. -/
def State.writeQRing (s : State) (q : Nat) (h : Half) (v : W64) : Resp × State :=
  let o := fieldIn F.Q_RING.ORDER v
  if h ≠ .high ∧ (o < 6 ∨ 20 < o) then (.decodeError, s) else (.ok, s.store .Q_RING [q] h v)

/-! ### Rings (R194 to R196) -/

def State.ringPi (s : State) (q : Nat) : Nat := s.fld F.Q_RING_IDX.PI [q]
def State.ringCi (s : State) (q : Nat) : Nat := s.fld F.Q_RING_IDX.CI [q]
def State.ringSize (s : State) (q : Nat) : Nat := 2 ^ s.fld F.Q_RING.ORDER [q]
/-- Entries between CI and a value of PI. -/
def ringUsed (pi ci : Nat) : Nat := (pi + 2 ^ 32 - ci) % 2 ^ 32
def State.ringAddr (s : State) (q i : Nat) : Nat := s.fld F.Q_RING.BASE [q] * 4096 + i % s.ringSize q * 64

/-- Q_STAT.RING_FULL. -/
def State.ringFull (s : State) (q : Nat) : Bool :=
  s.consumer q == .ring && decide (s.ringSize q ≤ ringUsed (s.ringPi q) (s.ringCi q))

/-- A device read or write of host memory by the queue manager at a device address. -/
def State.qmRead (s : State) (a : Nat) : Resp × List Quad × List Nat × State :=
  if spaceOf a = .host then s.devRead 0 (a - 0x800000000000) 64 else (.decodeError, [], [], s)
def State.qmWrite (s : State) (a : Nat) (qs : List Quad) : Resp × State :=
  if spaceOf a = .host then s.devWrite 0 (a - 0x800000000000) qs else (.decodeError, s)

/-- The write-back of the indices and its event (R196). -/
def State.writeBack (s : State) (q : Nat) : State :=
  if !s.flag F.Q_RING_WB.EN [q] then s
  else
    let word : W64 := BitVec.ofNat 64 (s.ringPi q + s.ringCi q * 2 ^ 32)
    let a := s.fld F.Q_RING_WB.ADDR [q] * 16
    match s.qmWrite a [quadOf word 0] with
    | (.ok, s) => if s.flag F.Q_CTRL.EV_RING [q] then s.hostEvent 5 17 (BitVec.ofNat 16 q) word else s
    | (r, s) => s.faultQueue q 3 r (BitVec.ofNat 64 a)

/-- The queue manager runs: its domain is in RUN (R333, R422). -/
def State.qmRuns (s : State) : Bool := s.pd (pdNE 0) == 1

/-- The next entry of a to-design ring is fetched and pushed. -/
def State.ringFetch (s : State) (q : Nat) : State :=
  let a := s.ringAddr q (s.ringCi q)
  let s := if s.credits q = 0 then s.grant q 1 else s
  if s.credits q = 0 then s
  else match s.qmRead a with
    | (.ok, qs, ls, s) =>
      let s := s.pushCell q (BitVec.ofNat 512 (joinQuads qs)) ls
      (s.put F.Q_RING_IDX.CI ((s.ringCi q + 1) % 2 ^ 32) [q]).writeBack q
    | (r, _, _, s) => s.faultQueue q 3 r (BitVec.ofNat 64 a)

def execRingFetch (q : Qn) (s : State) : Out :=
  if s.producer q.val = .ring ∧ s.flag F.Q_STAT.FAULTED [q.val] = false ∧ s.ringPi q.val ≠ s.ringCi q.val ∧ s.qmRuns then
    .next (s.ringFetch q.val).settleV
  else .next s

def itemQuads (x : Item) : List Quad := (List.range 4).map (quadAt x)

/-- The head item of a from-design ring's queue is written to entry PI; its cell is free once the write is issued. -/
def State.ringWrite (s : State) (q : Nat) (c : QCell) : State :=
  let a := s.ringAddr q (s.ringPi q)
  let s := (s.readCell q 0).popCell q
  let s := s.put F.Q_RING_IDX.PI ((s.ringPi q + 1) % 2 ^ 32) [q]
  match s.qmWrite a (itemQuads c.item) with
  | (.ok, s) => s.writeBack q
  | (r, s) => s.faultQueue q 3 r (BitVec.ofNat 64 a)

/-- A RING consumer stops at a poisoned item and reports it (R205). -/
def State.tellPoison (s : State) (q : Nat) : State :=
  match s.slots q with
  | [] => s
  | c :: rest =>
    if c.told then s else ((s.readCell q 0).setSlots q ({ c with told := true } :: rest)).errRecord none 6 .ok 17 q 0

/-- What the queue manager finds on its way to an item. -/
def State.findCell (s : State) (q i : Nat) (found : CellFound) : State :=
  match (s.slots q)[i]? with
  | none => s
  | some c =>
    match found with
    | .clean => s
    | .corrected => s.upset c.addr false
    | .uncorrectable => s.upset c.addr true
    | .link => { s with linkBad := listAdd s.linkBad c.link }

def execRingWrite (q : Qn) (found : CellFound) (s : State) : Out :=
  let s := s.findCell q.val 0 found
  match s.headCell q.val with
  | none => .next s
  | some c =>
    if s.consumer q.val = .ring ∧ s.flag F.Q_STAT.FAULTED [q.val] = false ∧ s.qmRuns then
      if c.poison then .next (s.tellPoison q.val).settle
      else if s.ringFull q.val then .next s
      else .next (s.ringWrite q.val c).settleV
    else .next s

/-! ### The doorbell page (R189, R193 to R196) -/

/-- A push through the window. One without a credit is discarded with a PUSH_NOCREDIT record. -/
def State.pushWindow (s : State) (role : Role) (q : Nat) (x : Item) : Resp × State :=
  if s.producer q ≠ .host then (.bankNotOwned, s)
  else if s.flag F.Q_BIND.CMD [q] ∧ s.fld F.Q_BIND.ROLE [q] ≠ roleCode role then (.roleDenied, s)
  else if s.credits q = 0 then (.ok, s.errRecord none 2 .ok 16 q (BitVec.ofNat 64 (0x040000000000 + q * 0x1000)))
  else (.ok, s.pushCell q x)

def State.writeCredit (s : State) (q : Nat) (h : Half) (v : W64) : Resp × State :=
  if s.producer q ≠ .host then (.bankNotOwned, s) else (.ok, s.grant q (fieldIn F.DB_CREDIT.CREDITS (h.part v)))

/-- An index write that is ignored is reported. -/
def State.ringIndexError (s : State) (q : Nat) : State := s.errRecord none 4 .ok 17 q 0

def State.writeRingPi (s : State) (q : Nat) (h : Half) (v : W64) : Resp × State :=
  if h = .high then (.ok, s)
  else
    let n := bitsOf v 31 0
    let d := ringUsed n (s.ringCi q)
    if ringUsed (s.ringPi q) (s.ringCi q) ≤ d ∧ d ≤ s.ringSize q then (.ok, s.put F.Q_RING_IDX.PI n [q])
    else (.ok, s.ringIndexError q)

def State.writeRingCi (s : State) (q : Nat) (h : Half) (v : W64) : Resp × State :=
  if h = .high then (.ok, s)
  else
    let n := bitsOf v 31 0
    if ringUsed n (s.ringCi q) ≤ ringUsed (s.ringPi q) (s.ringCi q) then (.ok, s.put F.Q_RING_IDX.CI n [q])
    else (.ok, s.ringIndexError q)

/-- What a read of the page gives. -/
def State.creditRead (s : State) (q : Nat) : W64 := if s.producer q = .host then BitVec.ofNat 64 (s.credits q) else 0

/-! ### Delivery and credits of the fabric (R190, R199) -/

/-- The queue manager delivers the next item to the port: the one at the recorded position, or the one after it. -/
def State.deliverItem (s : State) (f : Nat) : State :=
  match s.flowIn f with
  | none => s
  | some q =>
    let i := s.ahead f q + s.delivered f
    if s.qmRuns ∧ s.flag F.Q_STAT.FAULTED [q] = false ∧ s.delivered f < 2 ∧ i < s.qCount q then
      if 0 < i && s.badLink q (i - 1) then s.faultQueue q 5 .ok
      else (s.readCell q i).setDelivered f (s.delivered f + 1)
    else s

def execStreamDelivery (f : Flow) (found : CellFound) (s : State) : Out :=
  let s := match s.flowIn f.val with
    | none => s
    | some q => s.findCell q (s.ahead f.val q + s.delivered f.val) found
  .next (s.deliverItem f.val).settle

/-- Credits of the FABRIC producer of queue `q` that outbound items of the lap have taken. -/
def State.fabricTaken (s : State) (q : Nat) : Nat :=
  (s.fab.outReserved.filter fun k => (s.flowAt (k / 2) (k % 2)).bind s.flowOut == some q).length

def execFabricCreditGrant (q : Qn) (s : State) : Out :=
  let n := s.credits q.val + s.fabricTaken q.val
  if s.producer q.val = .fabric ∧ n < 2 ∧ s.qCount q.val + n < s.fld F.Q_LEVEL.LIMIT [q.val] ∧ s.qmRuns then
    .next (s.grant q.val 1).settleV
  else .next s

/-! ### The flow watchdog (R202) -/

/-- A cell waits on the flow's stream port: FLOW_STAT.WAIT_IN. -/
def State.flowWaitsIn (s : State) (f : Nat) : Bool :=
  let x := s.flowTile f
  s.flowValid f && s.stepIsOpen (towerOfTile x) && s.tileInUse x &&
    cells.any fun kc => s.waitsOn x kc.1 kc.2 (116 + s.fld F.FLOW_BIND.PORT [f])

/-- The lap waits in verify for the flow's outbound credit: FLOW_STAT.WAIT_OUT. -/
def State.flowWaitsOut (s : State) (f : Nat) : Bool :=
  let k := portKey (s.flowTile f) (s.fld F.FLOW_BIND.PORT [f])
  (s.flowOut f).isSome && s.fab.phase == .steps && s.allStepsDone && !s.fab.outReserved.contains k &&
    s.fab.collectors.any fun c => portKey c.flowTile c.port == k && !c.bits.isEmpty

/-- Where STARVED arises: the cluster of a cell that waits on the port, or the tower alone. -/
def State.starvedAt (s : State) (f : Nat) : Where :=
  let x := s.flowTile f
  let t := towerOfTile x
  let cell := if s.flowWaitsIn f then cells.find? fun kc => s.waitsOn x kc.1 kc.2 (116 + s.fld F.FLOW_BIND.PORT [f]) else none
  { tower := t, step := s.step_ t, cluster := cell.map fun kc => (x, kc.1) }

def execFlowWatchdogExpiry (f : Flow) (s : State) : Out :=
  if s.flag F.FLOW_BIND.WDOG_EN [f.val] && s.fld F.FLOW_WDOG.LIMIT != 0 && (s.flowWaitsIn f.val || s.flowWaitsOut f.val) then
    .next ((s.put F.FLOW_STAT.STARVED 1 [f.val]).scratch 0x0A (some (s.starvedAt f.val))).settleV
  else .next s

/-! ### Skip and reset (R205, R206) -/

/-- A valid flow whose to-design or from-design queue this is. -/
def State.flowOfQueue (s : State) (q : Nat) : Option Nat :=
  s.listedFlows.find? fun f => s.flowIn f == some q || s.flowOut f == some q

/-- The flow is bound to a tile that is in use and not benched, while laps run (R198, R206). -/
def State.flowBusy (s : State) (f : Nat) : Bool := s.flowValid f && s.lapsRun && s.tileInUse (s.flowTile f)

/-- A poisoned head leaves its queue. -/
def State.skipHead (s : State) (q : Nat) : State :=
  match s.headCell q with
  | none => s
  | some c =>
    if !c.poison then s
    else
      let s := s.popCell q
      match s.flowOfQueue q with
      | some f =>
        if s.flowIn f = some q then
          (s.put F.FLOW_POS.IN ((s.fld F.FLOW_POS.IN [f] + 1) % 2 ^ 32) [f]).setDelivered f (s.delivered f - 1)
        else s
      | none => s

/-- The queue is emptied with HEAD and TAIL at a position and the ring indices at 0. -/
def State.emptyQueue (s : State) (q pos : Nat) : State :=
  let s := s.setSlots q []
  let s := (s.put F.Q_SEQ.HEAD pos [q]).put F.Q_SEQ.TAIL pos [q]
  let s := ((s.put F.Q_RING_IDX.PI 0 [q]).put F.Q_RING_IDX.CI 0 [q]).watermark q
  match s.flowOfQueue q with
  | some f => if s.flowIn f = some q then s.setDelivered f 0 else s
  | none => s

/-- A sending bridge of the queue has nothing left to be acknowledged. -/
def State.dropUnacked (s : State) (q : Nat) : State :=
  s.listedBridges.foldl (fun s b =>
    if s.bridgeEn b && !s.bridgeIn b && s.bridgeQ b == q then s.onBridge b fun br => { br with unacked := [] } else s) s

def State.writeQCtrl (s : State) (q : Nat) (h : Half) (v : W64) : Resp × State :=
  let reset := wrote F.Q_CTRL.RESET h v
  if reset && ((s.flowOfQueue q).map s.flowBusy).getD false then (.bankNotOwned, s)
  else
    let s := s.store .Q_CTRL [q] h v
    let s := if wrote F.Q_CTRL.SKIP h v then s.skipHead q else s
    (.ok, if reset then ((s.setCredits q 0).put F.Q_STAT.FAULTED 0 [q]).put F.Q_CTRL.RESET 1 [q] else s)

/-- Every cell of the queue has been reclaimed. -/
def execQResetDone (q : Qn) (s : State) : Out :=
  if s.flag F.Q_CTRL.RESET [q.val] && s.qmRuns then
    let s := ((s.setCredits q.val 0).emptyQueue q.val 0).dropUnacked q.val
    .next (s.put F.Q_CTRL.RESET 0 [q.val]).settle
  else .next s

/-! ### The pool bank table (R182) -/

/-- Empty cells of the banks that enabled entries other than `i` name. -/
def State.emptyWithout (s : State) (i : Nat) : Nat := s.emptyCells (s.banksOf ((List.range 64).filter (· != i)))

/-- An entry may be enabled where the queue manager owns the bank. Of a stored entry, DRAINED says that the bank is retired. -/
def State.writePoolBank (s : State) (i : Nat) (h : Half) (v : W64) : Resp × State :=
  let old := s.reg .POOL_BANK [i]
  let new := s.merged .POOL_BANK [i] h v
  let en := fieldIn F.POOL_BANK.EN new == 1
  let bank := fieldIn F.POOL_BANK.BANK new
  if s.poolEn i then
    if bank ≠ s.poolBankNo i ∨ (!en ∧ s.emptyWithout i < s.poolReserved) then (.bankNotOwned, s)
    else (.ok, (s.setReg .POOL_BANK [i] new).put F.POOL_BANK.DRAINED (b2n !en) [i])
  else if en ∧ s.fld F.BANK_OWNER.KIND [bank / 256, bank % 256] ≠ 2 then (.bankNotOwned, s)
  else
    (.ok, if old = new then s
      else (s.setReg .POOL_BANK [i] new).put F.POOL_BANK.DRAINED (b2n (!en && s.flag F.POOL_BANK.DRAINED [i] && bank == s.poolBankNo i)) [i])

/-- POOL_BANK.DRAINED: the retired bank holds no item. -/
def State.poolDrained (s : State) (i : Nat) : Bool := s.flag F.POOL_BANK.DRAINED [i] && s.poolUsed (s.poolBankNo i) == 0

/-! ### Flow binding (R197, R198, R203) -/

def State.writeFlowQueues (s : State) (f : Nat) (h : Half) (v : W64) : Resp × State :=
  if s.flowValid f then (.bankNotOwned, s) else (.ok, s.store .FLOW_QUEUES [f] h v)

/-- A queue may take the fabric as its consumer, or as its producer. -/
def State.mayFlow (s : State) (q : Nat) (asConsumer : Bool) : Bool :=
  s.qValid q && (if asConsumer then s.consumer q else s.producer q) == .none && !s.inFlow q && !s.bridgeOn q (!asConsumer)

/-- The conditions of R197 on a FLOW_BIND value that makes flow `f` valid. -/
def State.mayBindFlow (s : State) (f : Nat) (v : W64) : Bool :=
  let tile := tileNo (fieldIn F.FLOW_BIND.DIE v) (fieldIn F.FLOW_BIND.ROW v) (fieldIn F.FLOW_BIND.COL v)
  (fieldIn F.FLOW_BIND.IN_EN v == 0 || s.mayFlow (s.fld F.FLOW_QUEUES.IN_Q [f]) true) &&
    (fieldIn F.FLOW_BIND.OUT_EN v == 0 || s.mayFlow (s.fld F.FLOW_QUEUES.OUT_Q [f]) false) &&
    (s.flowAt tile (fieldIn F.FLOW_BIND.PORT v)).isNone

/-- The fabric ends of the flow's queues set to a kind; the credits of OUT_Q go with a change of its producer. -/
def State.setFabricEnds (s : State) (f kind : Nat) : State :=
  let s := match s.flowIn f with
    | some q => (s.put F.Q_BIND.CONS_KIND kind [q]).put F.Q_BIND.CONS_ENG 0 [q]
    | none => s
  match s.flowOut f with
  | some q => ((s.setCredits q 0).put F.Q_BIND.PROD_KIND kind [q]).put F.Q_BIND.PROD_ENG 0 [q]
  | none => s

/-- A cell that the lap reserved for the flow's outbound item returns to the pool when the flow is unbound. -/
def State.unreserve (s : State) (k : Nat) : State :=
  if s.fab.outReserved.contains k then
    { s with poolReserved := s.poolReserved - 1, fab := { s.fab with outReserved := listDrop s.fab.outReserved k } }
  else s

def State.bindFlow (s : State) (f : Nat) (new : W64) : State := (s.setReg .FLOW_BIND [f] new).setFabricEnds f 4

def State.unbindFlow (s : State) (f : Nat) (new : W64) : State :=
  let k := portKey (s.flowTile f) (s.fld F.FLOW_BIND.PORT [f])
  (((s.unreserve k).setFabricEnds f 0).setDelivered f 0).setReg .FLOW_BIND [f] new

def State.writeFlowBind (s : State) (f : Nat) (h : Half) (v : W64) : Resp × State :=
  let old := s.reg .FLOW_BIND [f]
  let new := s.merged .FLOW_BIND [f] h v
  let valid := fieldIn F.FLOW_BIND.VALID new == 1
  let tile := tileNo (fieldIn F.FLOW_BIND.DIE new) (fieldIn F.FLOW_BIND.ROW new) (fieldIn F.FLOW_BIND.COL new)
  if s.flowBusy f || (valid && s.lapsRun && s.tileInUse tile) then (.bankNotOwned, s)
  else if s.flowValid f then
    if valid then
      if setBits old 3 3 0 = setBits new 3 3 0 then (.ok, s.setReg .FLOW_BIND [f] new) else (.bankNotOwned, s)
    else (.ok, s.unbindFlow f new)
  else if valid then
    if s.mayBindFlow f new then (.ok, s.bindFlow f new) else (.bankNotOwned, s)
  else (.ok, s.setReg .FLOW_BIND [f] new)

/-- FLOW_POS: the position record, and with it the queues that a valid flow binds, each by the half that holds its position (R9). The
FABRIC producer keeps its credits: the rule cancels those of the other producers. -/
def State.writeFlowPos (s : State) (f : Nat) (h : Half) (v : W64) : Resp × State :=
  if s.flowBusy f then (.bankNotOwned, s)
  else
    let s := s.store .FLOW_POS [f] h v
    let s := match s.flowIn f, h with
      | none, _ | _, .low => s
      | some q, _ => (s.setCredits q 0).emptyQueue q (s.fld F.FLOW_POS.IN [f])
    let s := match s.flowOut f, h with
      | none, _ | _, .high => s
      | some q, _ => s.emptyQueue q (s.fld F.FLOW_POS.OUT [f])
    (.ok, s)

end Sys2Proof.Machine
end

