-- ==== Sys2Proof/Machine/Security.lean ====
section
/-! DEFINITION. Sessions and roles, enrolment, lab mode and zeroisation (R280 to R297, R309). -/

namespace Sys2Proof.Machine

/-- The Referee's answer to an operation: response code, FLAGS, payload and the new state (*Mailbox message header*). -/
structure Reply where
  resp : Resp
  flags : Byte := 0
  payload : List Byte := []
  st : State

/-- A role refusal, counted (R280). -/
def State.denied (s : State) : State := s.count F.SEC_STAT.DENIED
def State.deny (s : State) : Reply := { resp := .roleDenied, st := s.denied }
def State.badArg (s : State) : Reply := { resp := .decodeError, st := s }
def State.notNow (s : State) : Reply := { resp := .bankNotOwned, st := s }
def State.done (s : State) (payload : List Byte := []) : Reply := { resp := .ok, payload := payload, st := s }

/-! ### Session identifiers (R281) -/

/-- The SESS register of a session identifier, for the sources that sessions may be opened on. -/
def sessIx (id : Nat) : Option Nat :=
  let low := id % 8192
  match id / 8192 with
  | 0 => if low < 64 then some low else none
  | 1 => if low < 4 then some (64 + low) else none
  | 2 => if low = 0 then some 68 else none
  | _ => none

def sessId (ix : Nat) : Nat := if ix < 64 then ix else if ix < 68 then 8192 + (ix - 64) else 2 * 8192

/-- The session that a message to the Referee arrives on (R377). -/
def State.pathSession (s : State) (p : RPath) : Nat :=
  match p with
  | .sideband m => 8192 + m.val
  | .smbus => 2 * 8192
  | .mailbox k => ((s.ref.slots[k].owner).map BitVec.toNat).getD 0
  | .tell e => 3 * 8192 + s.engines[e].cmdQueue.toNat

def State.sessRole (s : State) (ix : Nat) : Option Role :=
  if s.flag F.SESS.OPEN [ix] then some (roleOfCode (s.fld F.SESS.ROLE [ix])) else none

/-- The role that a message to the Referee carries: none where its session is not bound. -/
def State.pathRole (s : State) (p : RPath) : Option Role :=
  match p with
  | .tell e => some s.engines[e].role
  | p =>
    let id := s.pathSession p
    match sessIx id with
    | some ix => s.sessRole ix
    | none => some (roleOfCode (s.fld F.Q_BIND.ROLE [id % 8192]))

/-- A record of an operation, with the session and role it came under. -/
def State.recordOp (s : State) (p : RPath) (cls : Nat) (object d0 d1 : W64) (pinned : Bool := false) : State :=
  s.record cls (s.pathSession p) (((s.pathRole p).map roleCode).getD 0) 0 object d0 d1 pinned false

/-! ### Mailbox slots and the end of a session (R286, R394) -/

/-- A mailbox slot is freed: its request and its answer are discarded. -/
def State.freeSlot (s : State) (k : Nat) : State :=
  let s := (List.range 34).foldl (fun s i => (s.clearReg .MBX_MSG [k, i]).clearReg .MBX_ANS [k, i]) s
  { s with ref := { s.ref with slots := modifyAt s.ref.slots k fun _ => {} } }

def State.freeSlotsOf (s : State) (id : Nat) : State :=
  (List.range 4).foldl (fun s k =>
    if (s.ref.slots.toList.getD k {}).owner = some (BitVec.ofNat 16 id) then s.freeSlot k else s) s

def State.dropChallenge (s : State) (ix : Nat) : State :=
  { s with ref := { s.ref with challenges := s.ref.challenges.filter fun c => c.sess != ix } }

/-- A session takes a role; its challenge, if one is outstanding, is spent. -/
def State.bindSession (s : State) (ix : Nat) (r : Role) : State :=
  (s.dropChallenge ix).setReg .SESS [ix] (BitVec.ofNat 64 (256 * roleCode r + 1))

/-- A session closes: unbound, and session 0 of a module back to operator. -/
def State.closeSession (s : State) (ix : Nat) : State :=
  ((s.dropChallenge ix).setReg .SESS [ix] (if ix < 64 ∧ ix % 16 = 0 then 1 else 0)).freeSlotsOf (sessId ix)

/-! ### Opening and proving (R282 to R285) -/

/-- 48 bytes of the random generator. -/
def State.random48 (s : State) : BitVec 384 :=
  BitVec.ofNat 384 (joinWords ((List.range 6).map fun i => Config.freeRandom (s.free + i)))

/-- The session operations' ARG: target, role and slot; other bits reserved. -/
def argTarget (a : W64) : Nat := bitsOf a 15 0
def argRole (a : W64) : Nat := bitsOf a 17 16
def argSlot (a : W64) : Nat := bitsOf a 27 24
def argReserved (a : W64) : Bool := a &&& ~~~(0x0F03FFFF : W64) != 0

/-- The path may act on target session `id`: a sideband or SMBus session on any, a mainband one on itself, a program on none. -/
def State.mayTarget (s : State) (p : RPath) (id : Nat) : Bool :=
  match p with
  | .sideband _ => true
  | .smbus => true
  | .mailbox _ => s.pathSession p == id
  | .tell _ => false

/-- The role and slot of an ARG name a credential there is. -/
def credOk (role slot : Nat) : Bool :=
  match role with
  | 0 => decide (slot < 8)
  | 1 => decide (slot < 4)
  | 2 => true
  | _ => false

/-- An installer credential is held: SEC_STAT.CLAIMED. -/
def State.claimed (s : State) : Bool := (List.range 4).any fun c => s.flag F.CRED.VALID [c]

/-- What every operation on sessions checks first (R282, R378). -/
def State.sessionChecked (s : State) (p : RPath) (a : W64) (body : Nat → Reply) : Reply :=
  if argReserved a then s.badArg
  else if !s.mayTarget p (argTarget a) then s.deny
  else match sessIx (argTarget a) with
    | none => s.badArg
    | some ix => body ix

def sessionObject (ix : Nat) : W64 := BitVec.ofNat 64 (sessId ix)

def State.opSessionOpen (s : State) (p : RPath) (a : W64) : Reply :=
  s.sessionChecked p a fun ix =>
    let r := argRole a
    if !credOk r (argSlot a) then s.badArg
    else if (r = 1 ∧ !s.claimed) ∨ (r ≠ 0 ∧ s.flag F.SEC_STAT.LOCKOUT) then s.deny
    else if r = 0 ∧ !s.flag F.SEC_CTRL.OPER_AUTH then
      ((s.recordOp p 4 (sessionObject ix) 0 0).bindSession ix .operator).done
    else
      let c := s.random48
      let s := { s.dropChallenge ix with free := s.free + 6 }
      let s : State := { s with ref := { s.ref with challenges := s.ref.challenges ++ [⟨ix, a, c⟩] } }
      ((s.put F.SESS.PENDING 1 [ix]).recordOp p 4 (sessionObject ix) 0 0).done (bytesOf 48 c.toNat)

/-- The message that a proof signs: challenge, ID_DIGEST, session identifier, role. -/
def proofMessage (c : BitVec 384) (id role : Nat) : List Byte :=
  bytesOf 48 c.toNat ++ bytesOf 48 idDigest.toNat ++ bytesOf 2 id ++ bytesOf 1 role

/-- The public key that a proof must verify under, if there is one. -/
def State.proofKey (s : State) (role slot : Nat) (payload : List Byte) : Option (BitVec 768) :=
  match role with
  | 2 => if keyDigest ((payload.drop 96).take 96) = Config.makerDigest then some (keyAt payload 96) else none
  | r =>
    let c := if r = 1 then slot else 4 + slot
    if s.flag F.CRED.VALID [c] then some (Sparse.read s.ref.keys (8 + c)) else none

def State.proofOk (s : State) (c : Challenge) (a : W64) (payload : List Byte) : Bool :=
  c.arg == a && match s.proofKey (argRole a) (argSlot a) payload with
    | none => false
    | some k => Config.ecdsaVerify k (Config.sha384 (proofMessage c.value (argTarget a) (argRole a))) (keyAt payload 0)

/-- A failed proof. How many of the failures counted so far lie within 60 s is free (notes/assumptions 44). -/
def State.authFailed (s : State) : State :=
  let s := s.count F.SEC_STAT.AUTH_FAIL
  if s.flag F.SEC_STAT.LOCKOUT then s
  else
    let n := s.ref.authFails + 1
    let recent := 1 + (Config.freeMeasure s.free).toNat % n
    let s := s.spend
    if recent < 8 then { s with ref := { s.ref with authFails := n } }
    else
      let s : State := { s with ref := { s.ref with authFails := 0 } }
      ((s.put F.SEC_STAT.LOCKOUT 1).recordAuto 4 0 0).alarm 0

/-- The payload of SESSION_PROVE has the length that its role gives it. -/
def proofLength (role n : Nat) : Bool := if role = 2 then n == 192 else n == 96

def State.opSessionProve (s : State) (p : RPath) (a : W64) (payload : List Byte) : Reply :=
  s.sessionChecked p a fun ix =>
    if !credOk (argRole a) (argSlot a) || !proofLength (argRole a) payload.length then s.badArg
    else match s.ref.challenges.find? fun c => c.sess == ix with
      | none => s.notNow
      | some c =>
        let ok := s.proofOk c a payload
        let s := (s.dropChallenge ix).put F.SESS.PENDING 0 [ix]
        if ok then
          ((s.recordOp p 4 (sessionObject ix) 0 0).bindSession ix (roleOfCode (argRole a))).done
        else { resp := .roleDenied, st := s.authFailed }

def State.opSessionClose (s : State) (p : RPath) (a : W64) : Reply :=
  s.sessionChecked p a fun ix => ((s.recordOp p 4 (sessionObject ix) 0 0).closeSession ix).done

/-! ### Keys, credentials and the roster (R289 to R296) -/

/-- A public key put into the key store: image-signing keys at 0 to 7, credentials from 8. -/
def State.storeKey (s : State) (k : Nat) (r : RegName) (ix : Nat) (bs : List Byte) : State :=
  let s : State := { s with ref := { s.ref with keys := Sparse.write s.ref.keys k (keyAt bs 0) } }
  let d := Config.sha384 (bs.take 96)
  s.setReg r [ix] (BitVec.ofNat 64 (bitsOf d 31 0 * 2 ^ 32 + 1))

def State.opSessionClaim (s : State) (p : RPath) (a : W64) (payload : List Byte) : Reply :=
  if argReserved a then s.badArg
  else if p ≠ .smbus ∨ s.claimed then s.deny
  else if payload.length ≠ 96 then s.badArg
  else
    let s := s.storeKey 8 .CRED 0 payload
    ((s.recordOp p 4 (sessionObject 68) 0 0 true).bindSession 68 .installer).done

/-- The enrolment window, as 2,048 bytes. -/
def State.windowBytes (s : State) : List Byte :=
  (List.range 256).flatMap fun i => bytesOf 8 (s.reg .ENROL_WINDOW [i]).toNat

/-- A public key that is a point of the curve. -/
def pointOk (bs : List Byte) (off : Nat) : Bool := Config.onCurve (keyAt bs off)

/-- The bytes from `off` to `off + n` are zero. -/
def zeros (bs : List Byte) (off n : Nat) : Bool := ((bs.drop off).take n).all (· == 0)

/-- A partner's bundle is well formed (*Identity bundle*). -/
def bundleOk (bs : List Byte) : Bool :=
  let len := leField bs 0x120 2
  pointOk bs 0 && pointOk bs 0x60 && decide (len ≤ 1024) && zeros bs 0x122 0x5E && zeros bs (0x180 + len) (0x400 - len) &&
    zeros bs 0x580 0x280

def agrSigOk (bs : List Byte) : Bool :=
  Config.ecdsaVerify (keyAt bs 0) (Config.sha384 ((bs.drop 0x60).take 96)) (keyAt bs 0xC0)

def certOk (bs : List Byte) : Bool := Config.certVerify ((bs.drop 0x180).take (leField bs 0x120 2)) (keyAt bs 0)

def State.rosterHolds (s : State) (k : BitVec 768) : Bool := s.ref.roster.any fun e => e.2.idPub == k

/-- The number of slots of each KIND. -/
def kindSlots (kind : Nat) : Nat := match kind with | 0 => 64 | 1 => 8 | 2 => 4 | _ => 8

/-- The register of a slot, and its place in the key store. -/
def slotReg (kind i : Nat) : RegName × Nat × Nat :=
  match kind with
  | 0 => (.ROSTER, i, 0)
  | 1 => (.IMGKEY, i, i)
  | 2 => (.CRED, i, 8 + i)
  | _ => (.CRED, 4 + i, 12 + i)

def State.slotHeld (s : State) (kind i : Nat) : Bool :=
  let r := slotReg kind i
  bit (s.reg r.1 [r.2.1]) 0

/-- *ENROL_CTRL result codes*, in the order of the checks (notes/assumptions 50). -/
def State.enrolCheck (s : State) (kind i : Nat) : Nat :=
  let bs := s.windowBytes
  if s.slotHeld kind i then 4
  else if kind ≠ 0 then if pointOk bs 0 then 0 else 1
  else if !bundleOk bs then 1
  else if !certOk bs then 2
  else if !agrSigOk bs then 3
  else if s.rosterHolds (keyAt bs 0) then 5
  else 0

/-- A record of an enrolment, a removal or a provisioning, with the key digest's first 16 bytes. -/
def State.recordKey (s : State) (session role object : Nat) (d : BitVec 384) : State :=
  s.record 5 session role 0 (BitVec.ofNat 64 object) (wordAt d 0) (wordAt d 1) true false

def State.enrol (s : State) (j : EnrolJob) : State :=
  let bs := s.windowBytes
  let r := slotReg j.kind j.index
  let obj := j.kind * 256 + j.index
  if j.kind = 0 then
    let d := keyDigest (bs.take 96)
    let e : RosterEntry := { idPub := keyAt bs 0, agrPub := keyAt bs 0x60 }
    let s : State := { s with ref := { s.ref with roster := s.ref.roster ++ [(j.index, e)] } }
    (s.setReg .ROSTER [j.index] (BitVec.ofNat 64 (bitsOf d 31 0 * 2 ^ 32 + j.ports * 65536 + 1))).recordKey j.session j.role obj d
  else (s.storeKey r.2.2 r.1 r.2.1 bs).recordKey j.session j.role obj (Config.sha384 (bs.take 96))

/-- The ports whose partner is roster entry `i` become unenrolled (R295). -/
def State.unenrolPartner (s : State) (i : Nat) : State :=
  (List.range 16).foldl (fun s p =>
    if (s.portH p).partner.map Fin.val = some i ∧ s.enrolled p then s.unenroll p else s) s

def State.unenrolSlot (s : State) (j : EnrolJob) : State :=
  let r := slotReg j.kind j.index
  let s := (s.recordKey j.session j.role (j.kind * 256 + j.index) 0).setReg r.1 [r.2.1] 0
  if j.kind = 0 then
    let s : State := { s with ref := { s.ref with roster := s.ref.roster.filter fun e => e.1 != j.index } }
    s.unenrolPartner j.index
  else { s with ref := { s.ref with keys := Sparse.write s.ref.keys r.2.2 0 } }

/-- The removal would leave no installer credential. -/
def State.lastInstaller (s : State) (kind i : Nat) : Bool :=
  kind == 2 && !((List.range 4).any fun c => c != i && s.flag F.CRED.VALID [c])

/-- ENROL_CTRL: GO or REMOVE gives the Referee its work and sets BUSY; BAD_REQUEST changes nothing else, and neither has an effect while
BUSY is set (R290, R295). -/
def State.writeEnrolCtrl (s : State) (rq : Rq) (role : Role) (h : Half) (v : W64) : Resp × State :=
  let new := s.merged .ENROL_CTRL [] h v
  let go := wrote F.ENROL_CTRL.GO h v
  let remove := wrote F.ENROL_CTRL.REMOVE h v
  let kind := fieldIn F.ENROL_CTRL.KIND new
  let i := fieldIn F.ENROL_CTRL.INDEX new
  if !go && !remove then (.ok, s.setReg .ENROL_CTRL [] new)
  else if s.flag F.ENROL_CTRL.BUSY then (.ok, s)
  else if (go && remove) || decide (kindSlots kind ≤ i) then (.ok, s.put F.ENROL_CTRL.RESULT 7)
  else
    let j : EnrolJob := ⟨remove, s.sessionOf rq, roleCode role, kind, i, fieldIn F.ENROL_CTRL.PORTS new⟩
    let s := (s.setReg .ENROL_CTRL [] new).put (if go then F.ENROL_CTRL.GO else F.ENROL_CTRL.REMOVE) 1
    (.ok, { s.put F.ENROL_CTRL.BUSY 1 with ref := { s.ref with enrolDue := some j } })

/-- The RESULT of an enrolment or a removal, and the state with its effect. -/
def State.enrolOutcome (s : State) (j : EnrolJob) : Nat × State :=
  if j.remove then if s.lastInstaller j.kind j.index then (6, s) else (0, s.unenrolSlot j)
  else
    let r := s.enrolCheck j.kind j.index
    (r, if r = 0 then s.enrol j else s)

/-- The Referee does the work that ENROL_CTRL has given it and reports RESULT (notes/assumptions 50). -/
def State.enrolDone (s : State) (j : EnrolJob) : State :=
  let r := ({ s with ref := { s.ref with enrolDue := none } } : State).enrolOutcome j
  (((r.2.put F.ENROL_CTRL.RESULT r.1).put F.ENROL_CTRL.BUSY 0).put F.ENROL_CTRL.GO 0).put F.ENROL_CTRL.REMOVE 0

/-- ROSTER.IN_USE: a port is enrolled under the entry. -/
def State.rosterInUse (s : State) (i : Nat) : Bool :=
  (List.range 16).any fun p => s.enrolled p && (s.portH p).partner.map Fin.val == some i

/-! ### Lab mode (R297) -/

def State.labMode (s : State) : Bool := s.flag F.SEC_CTRL.LAB_EN

def State.writeSecCtrl (s : State) (rq : Rq) (h : Half) (v : W64) : Resp × State :=
  let new := s.merged .SEC_CTRL [] h v
  let on := fieldIn F.SEC_CTRL.LAB_EN new == 1
  if on && !s.ref.straps.lab then (.roleDenied, s)
  else
    let changed := on != s.labMode
    let s := s.setReg .SEC_CTRL [] new
    (.ok, if changed then s.recordKey (s.sessionOf rq) (((s.roleOf rq).map roleCode).getD 0) 0x300 0 else s)

/-! ### Zeroisation (R309) -/

/-- Every region key, root and HWM is destroyed. -/
def State.zeroiseVault (s : State) : State :=
  let s := (List.range 64).foldl (fun s n =>
    if s.fld F.VR_STAT.STATE [n] = 0 then s else s.setReg .VR_STAT [n] 3) s
  let s := (List.range 32).foldl (fun s j => s.setReg .SEAL [j] 0) s
  s.abandonVaults

/-- Every link key is destroyed, and every port re-authenticates without leaving UP: LAP_READY stays as it is. -/
def State.reauthenticate (s : State) : State :=
  (List.range 16).foldl (fun s p =>
    if s.portUp p && !s.unenrolled p then
      let s := s.put F.SEC_PORTS.ENROLLED (s.fld F.SEC_PORTS.ENROLLED &&& (0xFFFF ^^^ 2 ^ p))
      (s.onPort p fun h => { h with partner := none, txKey := none, rxKey := none, helloNonces := [] }).sendHellos p
    else s) s

/-- A lap in progress or undecided is scratched with SECURITY. -/
def State.securityScratch (s : State) : State :=
  match s.fab.phase with
  | .undecided => (s.noteScratch 0x0D none).discardLap.haltLaps 0x0D true
  | _ => s.scratch 0x0D

def State.closePrivileged (s : State) : State :=
  (List.range 69).foldl (fun s ix =>
    match s.sessRole ix with
    | some .installer => s.closeSession ix
    | some .maker => s.closeSession ix
    | _ => s) s

def State.opZeroise (s : State) (p : RPath) : Reply :=
  let s := s.recordOp p 5 0x400 0 0 true
  let s := s.securityScratch.zeroiseVault.reauthenticate.closePrivileged
  ((s.put F.SEC_STAT.ZEROISED 1).alarm 5).done

/-! ### Expiry -/

def execChallengeExpiry (sess : Fin 69) (s : State) : Out :=
  if s.ref.challenges.any fun c => c.sess == sess.val then
    .next ((s.dropChallenge sess.val).put F.SESS.PENDING 0 [sess.val])
  else .next s

def execLockoutEnd (s : State) : Out := .next (s.put F.SEC_STAT.LOCKOUT 0)

end Sys2Proof.Machine
end

