-- ==== Sys2Proof/Machine/Vault.lean ====
section
/-! DEFINITION. Vault regions: their registers, initialisation, and the verdicts of vault lines (R298 to R307), with the host
region table (R234, R235). -/

namespace Sys2Proof.Machine

/-! ### The region table (R234, R235, R298) -/

def State.vaultReady (s : State) (n : Nat) : Bool := s.fld F.VR_STAT.STATE [n] == 2

/-- Two half-open ranges overlap. -/
def overlaps (a b c d : Nat) : Bool := decide (a < d ∧ c < b)

/-- Conditions on setting EN of entry `n`, whose new value of HR_BASE is `v` (R234, R298). -/
def State.mayEnable (s : State) (n : Nat) (v : W64) : Bool :=
  let base := fieldIn F.HR_BASE.BASE v * 4096
  let fin := s.regionEnd n
  let size := 2 ^ s.fld F.VR_CFG.SIZE [n]
  decide (base < fin) &&
    ((List.range 64).all fun k => k == n || !s.regionEn k || !overlaps base fin (s.regionBase k) (s.regionEnd k)) &&
    ((List.range 64).all fun k => !s.vaultReady k || !overlaps base fin (s.metaBase k) (s.metaEnd k)) &&
    (fieldIn F.HR_BASE.VAULT v == 0 ||
      (s.vaultReady n && base % size == 0 && fin - base == size &&
        (List.range 64).all fun k => k == n || !s.regionEn k || !overlaps (s.metaBase n) (s.metaEnd n) (s.regionBase k) (s.regionEnd k)))

/-- A vault region is bound to its addresses: its lines are zeros there, as initialised, unless it was bound there before (R300). -/
def State.bindVault (s : State) (n : Nat) : State :=
  let page : W64 := BitVec.ofNat 64 (s.fld F.HR_BASE.BASE [n] + 1)
  if Sparse.read s.vault.boundAt n = page then s
  else
    let a := s.regionBase n / 16
    let b := s.regionEnd n / 16
    let s := (((s.leavePlace n).freshTree n).dropLines a b).ownWords a b
    { s with vault := { s.vault with boundAt := Sparse.write s.vault.boundAt n page } }

/-- HR_BASE: while EN is 1 only EN may change, to 0. -/
def State.writeHrBase (s : State) (n : Nat) (h : Half) (v : W64) : Resp × State :=
  let old := s.reg .HR_BASE [n]
  let new := s.merged .HR_BASE [n] h v
  if s.regionEn n then
    if new = old ∨ new = old &&& ~~~(1 : W64) then (.ok, s.setReg .HR_BASE [n] new) else (.bankNotOwned, s)
  else if fieldIn F.HR_BASE.EN new = 0 then (.ok, s.setReg .HR_BASE [n] new)
  else if !s.mayEnable n new then (.decodeError, s)
  else
    let s := s.setReg .HR_BASE [n] new
    (.ok, if fieldIn F.HR_BASE.VAULT new = 1 then s.bindVault n else s)

def State.writeHrLimit (s : State) (n : Nat) (h : Half) (v : W64) : Resp × State :=
  if s.regionEn n then (.bankNotOwned, s) else (.ok, s.store .HR_LIMIT [n] h v)

/-! ### VR_CFG, initialisation and re-initialisation (R300, R307) -/

/-- INIT starts where the entry is not enabled and no initialisation runs. -/
def State.startInit (s : State) (n : Nat) : State :=
  if s.regionEn n ∨ s.fld F.VR_STAT.STATE [n] = 1 then s
  else (s.put F.VR_STAT.STATE 1 [n]).put F.VR_CFG.INIT 1 [n]

def State.sealsOf (s : State) (n : Nat) : List Nat :=
  (List.range 32).filter fun j => s.flag F.SEAL.VALID [j] && s.fld F.SEAL.REGION [j] == n

/-- REINIT: on a region that is sealed whole it acts as INIT; else it starts on the region's seal entries, if there are any. -/
def State.startReinit (s : State) (n : Nat) : State :=
  match s.fld F.VR_STAT.STATE [n] with
  | 3 => s.startInit n
  | 2 => if (s.sealsOf n).isEmpty then s else (s.put F.VR_STAT.STATE 4 [n]).put F.VR_CFG.REINIT 1 [n]
  | _ => s

def State.writeVrCfg (s : State) (n : Nat) (h : Half) (v : W64) : Resp × State :=
  let old := s.reg .VR_CFG [n]
  let new := s.merged .VR_CFG [n] h v
  let size := fieldIn F.VR_CFG.SIZE new
  if h ≠ .high ∧ (size < 20 ∨ 38 < size) then (.decodeError, s)
  else if s.fld F.VR_STAT.STATE [n] ≠ 0 ∧ new ≠ old then (.bankNotOwned, s)
  else
    let s := s.setReg .VR_CFG [n] new
    let s := if wrote F.VR_CFG.INIT h v then s.startInit n else s
    (.ok, if wrote F.VR_CFG.REINIT h v then s.startReinit n else s)

/-- Initialisation of region `n` under counter `c`: two fresh keys, every line zero, every tag and node as that counter gives them. -/
def State.initRegion (s : State) (n c : Nat) : State :=
  let s := (s.leavePlace n).freshTree n
  let s : State := { s with
    free := s.free + 8
    vault := { s.vault with
      draws := Sparse.set (fun _ => 0) s.vault.draws n (s.free + 1)
      baseCounter := Sparse.write s.vault.baseCounter n (BitVec.ofNat 64 c) } }
  s.ownWords (s.metaWords n 0).1 (s.metaWords n 0).2.1

/-- Initialisation completes: fresh keys, every line zero under counter HWM + 1. -/
def execVaultInitDone (n : Fin 64) (s : State) : Out :=
  let k := n.val
  if s.fld F.VR_STAT.STATE [k] ≠ 1 then .next s
  else
    let c := s.fld F.VR_STAT.HWM [k] + 1
    let s := ((s.sealsOf k).foldl (fun s j => s.setReg .SEAL [j] 0) s).initRegion k c
    let s := (s.put F.VR_STAT.HWM c [k]).put F.VR_STAT.STATE 2 [k]
    .next ((s.put F.VR_CFG.INIT 0 [k]).put F.VR_CFG.REINIT 0 [k])

/-- Node `j` of level `k` is the sealed node, or lies under it. -/
def underNode (level node k j : Nat) : Bool := decide (k ≤ level) && j / 8 ^ (level - k) == node

/-- The word belongs to the lines, tags and nodes that a sealed range covers. -/
def State.inRange (s : State) (n level node w : Nat) : Bool :=
  match s.placeIn n w with
  | some (.line _) => s.nodeCovers n level node (w / 4)
  | some (.tags _ i) => i / 8 ^ level == node
  | some (.node _ k j _) => underNode level node k j
  | none => false

/-- The lines of a sealed range are zeros under a fresh counter; their tags and nodes are built anew, and the parent's counter
increases. -/
def State.rewriteRange (s : State) (n level node : Nat) : State :=
  let s := s.cachePath n (node * 8 ^ level)
  let c := s.fld F.VR_STAT.HWM [n] + 1
  let covered := s.nodeCovers n level node
  let s : State := { s with vault := { s.vault with
    data := s.vault.data.filter fun p => !covered (p.1 / 4)
    counters := s.vault.counters.filter fun p => !covered p.1
    badLines := s.vault.badLines.filter fun l => !covered l
    foreign := s.vault.foreign.filter fun w => !s.inRange n level node w
    versions := s.vault.versions.filter fun p =>
      !(p.1 / 2 ^ 36 == n && decide (p.1 / 2 ^ 32 % 16 < level) && underNode level node (p.1 / 2 ^ 32 % 16) (p.1 % 2 ^ 32))
    cache := s.vault.cache.filter fun x => !(x.1 == n && underNode level node x.2.1 x.2.2)
    dirty := s.vault.dirty.filter fun d => !(d.1.1 == n && underNode level node d.1.2.1 d.1.2.2)
    rebased := (n, level, node, BitVec.ofNat 64 c) :: s.vault.rebased } }
  (s.put F.VR_STAT.HWM c [n]).storeNode n level node

def execReinitDone (j : Fin 32) (s : State) : Out :=
  let n := s.fld F.SEAL.REGION [j.val]
  if s.flag F.SEAL.VALID [j.val] = false ∨ s.fld F.VR_STAT.STATE [n] ≠ 4 then .next s
  else
    let s := (s.rewriteRange n (s.fld F.SEAL.LEVEL [j.val]) (s.fld F.SEAL.NODE [j.val])).setReg .SEAL [j.val] 0
    if (s.sealsOf n).isEmpty then .next ((s.put F.VR_STAT.STATE 2 [n]).put F.VR_CFG.REINIT 0 [n]) else .next s

/-! ### Loads that wait for a verdict (R78) -/

/-- The word of host memory behind an engine's vault load. -/
def State.loadedWord (s : State) (a : Nat) : Quad :=
  match s.vaultOf (a - 0x800000000000) 16 false with
  | some n => s.vaultWord n ((a - 0x800000000000) / 16)
  | none => Sparse.read s.vault.data ((a - 0x800000000000) / 16)

/-- A vault load or atomic add completes with its verdict. -/
def State.vaultLoadDone (s : State) (e : Eng) (rd : Gpr) (addend : Option W64) (a : Nat) : State :=
  let q := s.loadedWord a
  let lo := wordAt q 0
  let hi := wordAt q 1
  match addend with
  | none => (s.onEng e fun en => (en.put rd lo).put (pairHi rd) hi).endWait e 0 0 2
  | some v =>
    match s.devWrite (e.val / 4) (a - 0x800000000000) [quadOf (lo + v) hi] with
    | (.ok, s) => s.endWait e rd lo 2
    | (r, s) => s.loadTrap e r (BitVec.ofNat 64 a)

/-- What line, by host address / 64, an engine waits for. -/
def Engine.waitsLine (en : Engine) : Option (Gpr × Option W64 × Nat) :=
  match en.waiting with
  | some (.vaultLoad rd v a) => if en.frozen || en.state != .waiting then none else some (rd, v, a)
  | _ => none

def vaultLineOf (a : Nat) : Nat := (a - 0x800000000000) / 64

/-- Every engine that waits for `line` goes on with its load, or takes the trap of a response other than OK. -/
def State.loadsOf (s : State) (line : Nat) (r : Resp) : State :=
  allEngines.foldl (fun s e =>
    match (s.eng e).waitsLine with
    | some (rd, v, a) =>
      if vaultLineOf a ≠ line then s
      else if r = .ok then s.vaultLoadDone e rd v a
      else s.loadTrap e r (BitVec.ofNat 64 a)
    | none => s) s

/-! ### Channels (R82, R303) -/

/-- A move is complete: the channel is idle. -/
def State.finishMove (s : State) (e : Eng) (ch : Fin 8) : State :=
  (s.onChan e ch fun c => { c with state := .idle, op := none, verdictWait := false, lines := [], resp := 0, result := 0 }).chanDone e ch

/-- A channel halts with a response code. -/
def State.haltMove (s : State) (e : Eng) (ch : Fin 8) (r : Resp) : State :=
  (s.onChan e ch fun c => { c with state := .halted, op := none, verdictWait := false, lines := [], resp := r.byte }).chanDone e ch

/-- The channel of the load in progress. -/
def State.isLoadChan (s : State) (e : Eng) (ch : Fin 8) : Bool :=
  match s.persona.job with
  | some j => j.engine == e && j.ch == ch
  | none => false

/-- The verdict `r` of a line reaches a channel that has read it. -/
def State.chanVerdict (s : State) (e : Eng) (ch : Fin 8) (line : Nat) (r : Resp) : State :=
  let c := (s.eng e).chans[ch]
  if c.state ≠ .busy ∨ !c.lines.contains line then s
  else if r ≠ .ok then if s.isLoadChan e ch then s.failTransfer r else s.haltMove e ch r
  else
    let left := listDrop c.lines line
    let s := s.onChan e ch fun c => { c with lines := left }
    if !left.isEmpty || !c.verdictWait then s
    else if s.isLoadChan e ch then
      match s.persona.job with
      | some j => s.loaded j
      | none => s
    else s.finishMove e ch

def State.chansOf (s : State) (line : Nat) (r : Resp) : State :=
  allEngines.foldl (fun s e => (List.finRange 8).foldl (fun s ch => s.chanVerdict e ch line r) s) s

/-! ### Queues and banks (R166, R206, R303) -/

/-- A queue that holds an item fetched from a failed line becomes FAULTED, with the address of its ring entry. -/
def State.faultRings (s : State) (line : Nat) (r : Resp) : State :=
  (s.qitems.filterMap fun p => (p.2.findIdx? fun c => c.lines.contains line).map fun i => (p.1, i)).foldl (fun s p =>
    let back := s.qCount p.1 - p.2
    let entry := (s.ringCi p.1 + 2 ^ 32 - back) % 2 ^ 32
    s.faultQueue p.1 3 r (BitVec.ofNat 64 (s.ringAddr p.1 entry))) s

/-- The words of design memory that hold a failed line are poisoned. -/
def State.poisonBanks (s : State) (line : Nat) : State :=
  (s.vault.bankVerdicts.filter fun p => p.2 == line).foldl (fun s p => s.memPoison (p.1 * 16)) s

def State.dropVerdict (s : State) (line : Nat) : State :=
  { s with vault := { s.vault with
      pendingLines := listDrop s.vault.pendingLines line
      bankVerdicts := s.vault.bankVerdicts.filter fun p => p.2 != line } }

/-! ### Verdicts (R303, *Outcome of vault integrity failures*) -/

/-- The verdict is bad: every holder of the line takes `r`. -/
def State.lineFails (s : State) (line : Nat) (r : Resp) : State :=
  let s := s.poisonBanks line
  (((s.loadsOf line r).chansOf line r).faultRings line r).dropVerdict line

def State.tagFailed (s : State) (line : Nat) : State :=
  let used := s.fab.vaultLap.contains line
  let s := (s.count F.SEC_COUNTS.LINE_TAG).tally 24 0x305
  let s := s.lineFails line .tagFailed
  let s : State := { s with vault := { s.vault with badLines := listAdd s.vault.badLines line } }
  let s := s.alarm 3
  if used then s.scratch 5 else s

/-- A node above the line is bad: its subtree is sealed. -/
def State.nodeFailed (s : State) (n level node line : Nat) : State :=
  (((s.tally 24 0x305).seal n level node).lineFails line .regionSealed)

def State.verdictGood (s : State) (line : Nat) : State := ((s.loadsOf line .ok).chansOf line .ok).dropVerdict line

/-- The verdict on line number `line` of region `n`: the nodes above it that are not cached, from the root down, and then the line's tag,
are verified against what host memory holds. `badNode` is a node that arrived poisoned or that the cache or the root has lost; with
`tagOk` false the line's bytes did not reach the engine as host memory holds them. -/
def State.vaultVerdict (s : State) (n line : Nat) (tagOk : Bool) (badNode : Option (Nat × Nat)) : State :=
  let l := s.regionBase n / 64 + line
  if !s.vault.pendingLines.contains l then s
  else match badNode.orElse fun _ => s.badPath n line with
    | some (level, node) => if level = 0 ∨ line / 8 ^ level ≠ node then s else s.nodeFailed n level node l
    | none =>
      let ok := tagOk && s.lineTagOk n line l
      let s := s.cachePath n line
      if ok then s.verdictGood l else s.tagFailed l

def execVaultVerdict (n : Fin 64) (line : Nat) (tagOk : Bool) (badNode : Option (Nat × Nat)) (s : State) : Out :=
  .next (s.vaultVerdict n.val line tagOk badNode).settleV

/-- Verdicts outstanding, and seal-table entries in use (VAULT_STAT). -/
def State.vaultStat (s : State) : W64 :=
  BitVec.ofNat 64 (min s.vault.pendingLines.length 0xFFFF * 65536 + ((List.range 32).filter fun j => s.flag F.SEAL.VALID [j]).length)

end Sys2Proof.Machine
end

