-- ==== Sys2Proof/Machine/Clocks.lean ====
section
/-! DEFINITION. Clock domains, loops, monitors, failover, switching and gates (R311 to R330). -/

namespace Sys2Proof.Machine

/-! ### Domains and their registers -/

def clkCfgReg : ClkDom → RegName × List Nat
  | .dom t n => (.CLKDOM_CFG, [t.val, n.val])
  | .pkg k => (.PKGCLK_CFG, [k.val])
def clkStatReg : ClkDom → RegName × List Nat
  | .dom t n => (.CLKDOM_STAT, [t.val, n.val])
  | .pkg k => (.PKGCLK_STAT, [k.val])

def State.clkCfg (s : State) (d : ClkDom) : W64 := s.reg (clkCfgReg d).1 (clkCfgReg d).2
def State.setClkCfg (s : State) (d : ClkDom) (v : W64) : State := s.setReg (clkCfgReg d).1 (clkCfgReg d).2 v
/-- A field of the domain's CFG or STAT register, named by the layout of CLKDOMn. -/
def State.clkFld (s : State) (d : ClkDom) (f : Fld) : Nat :=
  fieldIn f (if f.reg = .CLKDOM_CFG then s.reg (clkCfgReg d).1 (clkCfgReg d).2 else s.reg (clkStatReg d).1 (clkStatReg d).2)
def State.clkFlag (s : State) (d : ClkDom) (f : Fld) : Bool := s.clkFld d f != 0
def State.clkPut (s : State) (d : ClkDom) (f : Fld) (n : Nat) : State :=
  if f.reg = .CLKDOM_CFG then s.setReg (clkCfgReg d).1 (clkCfgReg d).2 (setBits (s.reg (clkCfgReg d).1 (clkCfgReg d).2) f.hi f.lo n)
  else s.setReg (clkStatReg d).1 (clkStatReg d).2 (setBits (s.reg (clkStatReg d).1 (clkStatReg d).2) f.hi f.lo n)

/-- The tower whose base die holds the domain's loop (*Multiplying loops*). -/
def clkTower : ClkDom → Nat
  | .dom t _ => t.val
  | .pkg k => if k.val = 0 then 1 else 0

/-- The power domain that holds the loop (R333). -/
def clkPower : ClkDom → Nat
  | .dom t n => match n.val with
    | 0 => pdNE t.val
    | 1 => pdNE t.val
    | 2 => pdNE t.val + 1
    | 3 => pdNE t.val + 5
    | 4 => pdNE t.val + 6
    | _ => 2 + t.val
  | .pkg k => match k.val with
    | 0 => 6
    | 1 => 1
    | _ => 0

/-- The loop's domain is powered. -/
def State.loopOn (s : State) (d : ClkDom) : Bool := s.pd (clkPower d) == 1 || s.pd (clkPower d) == 2

/-- Output frequency in kilohertz (*Multiplying loops*). -/
def clkKHz : ClkDom → Nat
  | .dom _ n => match n.val with
    | 0 => 2000000
    | 1 => 1600000
    | 2 => 1000000
    | 5 => 250000
    | _ => 800000
  | .pkg k => match k.val with
    | 0 => 1000000
    | 1 => 100000
    | 2 => 500000
    | _ => 200000

/-- Base address of the block that raises the domain's events, and the INDEX of its failure (R316). -/
def clkBase : ClkDom → Nat
  | .dom t _ => 0x030001000000 + t.val * 0x01000000 + 0x400000
  | .pkg _ => 0x030000B00000
def clkIndex : ClkDom → Nat
  | .dom t n => 0x3100 + 8 * t.val + n.val
  | .pkg k => 0x3140 + k.val

/-! ### Failures (R315 to R317) -/

/-- NMI_CLOCK to all sixteen engines. -/
def State.nmiClockAll (s : State) : State := { s with engines := s.engines.map fun en => { en with nmiClock := true } }

/-- The FIO of the die has failed. -/
def State.fioFailed (s : State) (t : Nat) : Bool := s.ref.fioFailed.getLsbD t

/-- A clock failure is recorded; OBJECT holds the event index of a loop, or the bit of SRC_STAT. -/
def State.recordClock (s : State) (object : Nat) : State := s.recordAuto 9 (BitVec.ofNat 64 object) 0

/-- The loop has failed: where SEL selects it, its domain is forced to FIO, or stops where the die's FIO has failed. -/
def State.loopFails (s : State) (d : ClkDom) : State :=
  let s := ((s.clkPut d F.CLKDOM_STAT.FAILED 1).clkPut d F.CLKDOM_STAT.READY 0).clkPut d F.CLKDOM_STAT.LOCKED 0
  if s.clkFld d F.CLKDOM_CFG.SEL ≠ 0 then s
  else
    let s := (s.clkPut d F.CLKDOM_CFG.SEL 1).clkPut d F.CLKDOM_STAT.SWITCHING 0
    let s := s.clkPut d F.CLKDOM_STAT.FAILS (satAdd 16 (s.clkFld d F.CLKDOM_STAT.FAILS) 1)
    let s := if s.fioFailed (clkTower d) then s.clkPut d F.CLKDOM_STAT.STOPPED 1 else s.clkPut d F.CLKDOM_STAT.ON_FIO 1
    (s.nmiClockAll.recordClock (clkIndex d)).blockEvent (clkIndex d) (clkBase d)

def allClkDoms : List ClkDom :=
  ((List.finRange 4).flatMap fun t => (List.finRange 6).map fun n => ClkDom.dom t n) ++ (List.finRange 4).map ClkDom.pkg

/-- Another source has failed: its bit of SRC_STAT, NMI_CLOCK and a record. -/
def State.sourceFails (s : State) (bitNo : Nat) : State :=
  ((s.setReg .SRC_STAT [] (s.reg .SRC_STAT ||| BitVec.ofNat 64 (2 ^ bitNo))).nmiClockAll).recordClock bitNo

/-- The frequency of a source and of the oscillator it is counted against, in hertz, and the window in percent
(*Clock sources*). -/
def srcWindow : ClkSrc → Nat × Nat × Nat
  | .domLoop t n => (1000 * clkKHz (.dom t n), 400000000, 10)
  | .pkgLoop k => (1000 * clkKHz (.pkg k), 400000000, 10)
  | .fioT _ => (400000000, 1000 * Config.xtalaKHz, 10)
  | .sioT _ => (1000000, 32768, 25)
  | .refFio => (400000000, 1000 * Config.xtalaKHz, 10)
  | .refSio => (1000000, 32768, 25)
  | .xtala => (1000 * Config.xtalaKHz, 400000000, 10)
  | .xtalb => (32768, 1000000, 25)
  | .refclk => (200000000, 1000 * Config.xtalaKHz, 2)

/-- The count of a window of 512 cycles lies within the source's window; a window with no edge does not. -/
def windowOk (src : ClkSrc) (count : Nat) : Bool :=
  let w := srcWindow src
  decide (count ≠ 0) && decide ((100 - w.2.2) * 512 * w.1 ≤ 100 * count * w.2.1) &&
    decide (100 * count * w.2.1 ≤ (100 + w.2.2) * 512 * w.1)

/-- A monitored loop's window. -/
def State.loopWindow (s : State) (d : ClkDom) (src : ClkSrc) (count : BitVec 16) : State :=
  if s.clkFlag d F.CLKDOM_CFG.LOOP_EN && s.loopOn d then
    let s := s.clkPut d F.CLKDOM_STAT.COUNT count.toNat
    if windowOk src count.toNat then s else s.loopFails d
  else s

/-- A die's FIO passes or fails its window. -/
def State.fioWindow (s : State) (t : Nat) (ok : Bool) : State :=
  let s : State := { s with ref := { s.ref with fioFailed := setBits s.ref.fioFailed t t (b2n !ok) } }
  if ok then s else s.sourceFails (8 + t)

/-- XTALA fails every loop in turn. -/
def State.xtalaWindow (s : State) (ok : Bool) : State :=
  let s : State := { s with ref := { s.ref with xtalaFailed := !ok } }
  if ok then s else allClkDoms.foldl (fun s d => if s.loopOn d then s.loopFails d else s) (s.sourceFails 0)

def State.xtalbWindow (s : State) (ok : Bool) : State :=
  let s : State := { s with ref := { s.ref with xtalbFailed := !ok } }
  if ok then s else s.sourceFails 1

/-! ### Switching and programming (R314, R318) -/

/-- Source `sel` is READY as the target of a switch; the reserved value never is (notes/assumptions 51). -/
def State.sourceReady (s : State) (d : ClkDom) (sel : Nat) : Bool :=
  match sel with
  | 0 => s.clkFlag d F.CLKDOM_STAT.READY
  | 1 => !s.fioFailed (clkTower d)
  | 2 => !s.ref.xtalaFailed
  | _ => false

/-- The fields whose change restarts the loop: FRAC, POSTDIV and MULT. -/
def loopWord (v : W64) : Nat :=
  (fieldIn F.CLKDOM_CFG.FRAC v * 16 + fieldIn F.CLKDOM_CFG.POSTDIV v) * 256 + fieldIn F.CLKDOM_CFG.MULT v

/-- The write reprograms the loop, or turns it off. -/
def loopChanged (old new : W64) : Bool :=
  loopWord old != loopWord new || (fieldIn F.CLKDOM_CFG.LOOP_EN old == 1 && fieldIn F.CLKDOM_CFG.LOOP_EN new == 0)

def State.writeClk (s : State) (d : ClkDom) (h : Half) (v : W64) : Resp × State :=
  let old := s.clkCfg d
  let new := s.merged (clkCfgReg d).1 (clkCfgReg d).2 h v
  let sel := fieldIn F.CLKDOM_CFG.SEL new
  let selChanged := sel != fieldIn F.CLKDOM_CFG.SEL old
  if (selChanged && s.clkFlag d F.CLKDOM_STAT.SWITCHING) || (loopChanged old new && fieldIn F.CLKDOM_CFG.SEL old == 0) then
    (.bankNotOwned, s)
  else
    let s := s.setClkCfg d (setBits new 29 28 (fieldIn F.CLKDOM_CFG.SEL old))
    let s := if loopChanged old new then
        (s.clkPut d F.CLKDOM_STAT.LOCKED 0).clkPut d F.CLKDOM_STAT.READY 0
      else s
    if !selChanged then (.ok, s)
    else if s.sourceReady d sel then (.ok, (s.clkPut d F.CLKDOM_CFG.SEL sel).clkPut d F.CLKDOM_STAT.SWITCHING 1)
    else (.ok, s.clkPut d F.CLKDOM_STAT.REFUSED 1)

def execClockSwitchComplete (d : ClkDom) (s : State) : Out :=
  if s.clkFlag d F.CLKDOM_STAT.SWITCHING then
    let s := (s.clkPut d F.CLKDOM_STAT.SWITCHING 0).clkPut d F.CLKDOM_STAT.STOPPED 0
    .next (if s.clkFld d F.CLKDOM_CFG.SEL = 1 then s else s.clkPut d F.CLKDOM_STAT.ON_FIO 0)
  else .next s

def execLoopLocked (d : ClkDom) (s : State) : Out :=
  if s.clkFlag d F.CLKDOM_CFG.LOOP_EN && s.loopOn d && !s.ref.xtalaFailed then .next (s.clkPut d F.CLKDOM_STAT.LOCKED 1) else .next s

/-- A loop becomes READY. While the gates are forced, in start-up and after a tower reset, the Referee then selects it, unless the
domain has failed over (notes/assumptions 61). -/
def execLoopReady (d : ClkDom) (s : State) : Out :=
  if !s.clkFlag d F.CLKDOM_STAT.LOCKED then .next s
  else
    let s := s.clkPut d F.CLKDOM_STAT.READY 1
    if s.flag F.CLKGATE_MODE.FORCED && s.clkFld d F.CLKDOM_CFG.SEL == 1 && !s.clkFlag d F.CLKDOM_STAT.ON_FIO then
      .next (s.clkPut d F.CLKDOM_CFG.SEL 0)
    else .next s

/-- MULT with FRAC as one number of 65,536ths, rounded to the nearest, and POSTDIV, for the loop's frequency (R313). -/
def loopSetting (d : ClkDom) : Nat × Nat :=
  let post := match d with
    | .dom _ n => if n.val = 5 then 8 else 1
    | .pkg _ => 1
  ((clkKHz d * post * 2 ^ 17 + Config.xtalaKHz) / (2 * Config.xtalaKHz), post)

/-- The Referee programs and starts a loop that does not run. -/
def State.startLoop (s : State) (d : ClkDom) : State :=
  if s.clkFlag d F.CLKDOM_CFG.LOOP_EN then s
  else
    let n := (loopSetting d).1
    let s := (s.clkPut d F.CLKDOM_CFG.MULT (n / 65536)).clkPut d F.CLKDOM_CFG.FRAC (n % 65536)
    (s.clkPut d F.CLKDOM_CFG.POSTDIV (loopSetting d).2).clkPut d F.CLKDOM_CFG.LOOP_EN 1

/-- The loops that power domain `d` holds. -/
def loopsIn (d : Nat) : List ClkDom := allClkDoms.filter fun c => clkPower c == d

/-- A loop that loses its power is no longer locked. -/
def State.loopUnlocks (s : State) (d : ClkDom) : State :=
  (s.clkPut d F.CLKDOM_STAT.LOCKED 0).clkPut d F.CLKDOM_STAT.READY 0

/-! ### Gates (R319 to R322) -/

/-- The domain of gated block `b` of tower `t` (*Gated blocks of a tower*). -/
def gateDomain (t b : Nat) : Nat :=
  if b = 4 then pdNE t + 5
  else if b = 6 then pdTrace t
  else if b = 7 then 8 + 14 * t
  else if b = 8 then 9 + 14 * t
  else if b = 10 then 2 + t
  else pdNE t

def State.gateAuto (s : State) : Bool := s.flag F.CLKGATE_MODE.AUTO

/-- The enable for the power state of the block's domain. -/
def State.gateEnable (s : State) (t b : Nat) : Bool :=
  match s.pd (gateDomain t b) with
  | 1 => s.flag F.GATE.RUN_EN [t, b]
  | 2 => s.flag F.GATE.SLEEP_EN [t, b]
  | 3 => s.flag F.GATE.DEEP_EN [t, b]
  | _ => false

/-- An opening: it withdraws a close that still waits for idle. -/
def State.openGate (s : State) (t b : Nat) : State :=
  ((s.put F.GATE.OPEN 1 [t, b]).put F.GATE.CLOSING 0 [t, b]).put F.GATE.PENDING_ON 0 [t, b]

/-- A close is asked for: it waits for the block's bus interface to report idle. -/
def State.askClose (s : State) (t b : Nat) : State :=
  if s.flag F.GATE.OPEN [t, b] then s.put F.GATE.CLOSING 1 [t, b] else s

/-- In manual mode the gate follows its enable. -/
def State.followGate (s : State) (t b : Nat) : State :=
  if s.gateAuto then s
  else if s.gateEnable t b then s.openGate t b
  else s.askClose t b

def State.followGates (s : State) : State :=
  (List.range 4).foldl (fun s t => (List.range 11).foldl (fun s b => s.followGate t b) s) s

/-- An access at the block's bus interface opens the gate; in manual mode the gate closes again afterwards. -/
def State.gateAccess (s : State) (t b : Nat) : State :=
  if s.flag F.GATE.OPEN [t, b] then s
  else if s.gateAuto then s.openGate t b
  else (s.openGate t b).followGate t b

def State.writeGate (s : State) (t b : Nat) (h : Half) (v : W64) : Resp × State :=
  (.ok, (s.store .GATE [t, b] h v).followGate t b)

/-- CLKGATE_MODE: while FORCED is set AUTO keeps its value, and the written one is kept for later. -/
def State.writeClkgateMode (s : State) (h : Half) (v : W64) : Resp × State :=
  if h = .high then (.ok, s)
  else
    let auto := fieldIn F.CLKGATE_MODE.AUTO v == 1
    let s : State := { s with ref := { s.ref with clkAuto := auto } }
    if s.flag F.CLKGATE_MODE.FORCED then (.ok, s) else (.ok, (s.put F.CLKGATE_MODE.AUTO (b2n auto)).followGates)

/-- FORCED is set with AUTO, or clears and AUTO returns to the value last written. -/
def State.forceGates (s : State) : State := (s.put F.CLKGATE_MODE.FORCED 1).put F.CLKGATE_MODE.AUTO 1
def State.unforceGates (s : State) : State :=
  ((s.put F.CLKGATE_MODE.FORCED 0).put F.CLKGATE_MODE.AUTO (b2n s.ref.clkAuto)).followGates

def execGateClose (t : Tower) (b : Fin 11) (s : State) : Out :=
  let ix := [t.val, b.val]
  if s.flag F.GATE.OPEN ix && (s.gateAuto || s.flag F.GATE.CLOSING ix) then
    .next ((s.put F.GATE.OPEN 0 ix).put F.GATE.CLOSING 0 ix)
  else .next s

/-- The interface has not been idle within 10 µs: the gate stays open. -/
def execGateTimeout (t : Tower) (b : Fin 11) (s : State) : Out :=
  let ix := [t.val, b.val]
  if s.flag F.GATE.CLOSING ix then
    let s := (s.put F.GATE.CLOSING 0 ix).put F.GATE.GATE_TIMEOUT 1 ix
    .next (s.blockEvent (0x3000 + 16 * t.val + b.val) (clkBase (.dom t 0))).settle
  else .next s

end Sys2Proof.Machine
end

