-- ==== Sys2Proof/Machine/Test.lean ====
section
/-! DEFINITION. In-service tests: splits, banks behind their stand-ins, tile scans, analogue tests, sweeps, the configuration
scrubber and the fuse commit (R351 to R372). -/

namespace Sys2Proof.Machine

/-! ### Blocks and classes (R351, R352) -/

/-- The SPLIT operands name a block: the kind is not reserved and the number lies within its range. -/
def testLegal (kind : Nat) (ra : W64) : Bool :=
  match kind with
  | 2 => decide (bitsOf ra 6 0 ≤ 64)
  | 4 => decide (bitsOf ra 4 0 ≤ 27)
  | 5 => decide (bitsOf ra 4 0 ≤ 23)
  | k => decide (k ≤ 7)

/-- The loop that LOOP_CHECK names. -/
def testLoop (n : Nat) : ClkDom := if n < 24 then .dom (Fin.ofNat 4 (n / 6)) (Fin.ofNat 6 (n % 6)) else .pkg (Fin.ofNat 4 (n - 24))

def tileRowOf (ra : W64) : Nat := bitsOf ra 13 8
def tileColOf (ra : W64) : Nat := bitsOf ra 6 0

/-- The tower in which the test of a block runs. -/
def testTower (kind : Nat) (ra : W64) : Fin 4 :=
  Fin.ofNat 4 (match kind with
    | 0 => bitsOf ra 9 0 / 256
    | 1 => bitsOf ra 4 0 / 8
    | 2 => bitsOf ra 15 14
    | 3 => bitsOf ra 6 0 / 32
    | 4 => clkTower (testLoop (bitsOf ra 4 0))
    | 5 => bitsOf ra 4 0 / 6
    | _ => if bit ra 2 then 0 else bitsOf ra 1 0)

/-- The class of test of which a tower or bank group runs one at a time. -/
def testClass (kind : Nat) (ra : W64) : TestSlot :=
  match kind with
  | 0 => .group (Fin.ofNat 8 (bitsOf ra 7 0 / 32))
  | 1 => .group (Fin.ofNat 8 (bitsOf ra 4 0))
  | 2 => .tile
  | _ => .analog

def State.testIn (s : State) (t : Fin 4) (slot : TestSlot) : Option TestRun :=
  s.tests.find? fun r => r.tower == t && r.slot == slot

/-- The block's domains are in RUN. -/
def State.blockRuns (s : State) (kind : Nat) (ra : W64) : Bool :=
  let t := (testTower kind ra).val
  match kind with
  | 0 => s.serves (pdQuad t (bitsOf ra 7 0))
  | 1 => s.serves (pdQuad t (32 * bitsOf ra 2 0))
  | 2 => s.serves (pdLogic (2 * t) (tileColOf ra)) && s.serves (pdLogic (2 * t + 1) (tileColOf ra))
  | 3 => s.serves (pdRelay (bitsOf ra 6 0 / 8))
  | 4 => s.serves (clkPower (testLoop (bitsOf ra 4 0)))
  | 5 => s.ref.stackPower.getLsbD t
  | _ => bit ra 2 || s.ref.stackPower.getLsbD t

/-- A tile position serves a logical tile in use, on L3 or L4 (R50, R357). -/
def State.posInUse (s : State) (t row pcol : Nat) : Bool :=
  match s.servedCol t row pcol with
  | some c => s.tileInUse (tileNo (2 * t) row c) || s.tileInUse (tileNo (2 * t + 1) row c)
  | none => false

/-- The spare column of the row is retired, or on the way there. -/
def State.rowRetired (s : State) (t row : Nat) : Bool :=
  s.flag F.STEER.RETIRED [t, row] || s.ref.retiring.contains (t * 64 + row)

def State.posFailed (s : State) (t row pcol : Nat) : Bool :=
  match s.servedCol t row pcol with
  | some c => bit (s.reg .TFAIL_L3 [t, row]) c || bit (s.reg .TFAIL_L4 [t, row]) c
  | none => false

/-- The test needs the row's skip column at its position: the position is in use, or the sweep walks to it. -/
def State.needsWalk (s : State) (t row pcol : Nat) (sweep : Bool) : Bool :=
  s.skipCol t row != pcol && (s.posInUse t row pcol || (sweep && !s.rowRetired t row))

/-- The block is not eligible (R352). -/
def State.testIneligible (s : State) (kind : Nat) (ra : W64) (sweep : Bool) : Bool :=
  let t := (testTower kind ra).val
  match kind with
  | 0 => s.standinPhase t (bitsOf ra 7 0 / 32) != 0 || s.bankFailed t (bitsOf ra 7 0)
  | 1 => s.standinPhase t (bitsOf ra 2 0) != 0
  | 2 =>
    let row := tileRowOf ra
    let col := tileColOf ra
    s.posFailed t row col || (s.needsWalk t row col sweep && (s.loaderWrites t || s.rowRetired t row))
  | 3 =>
    let p := bitsOf ra 6 0 / 8
    let i := bitsOf ra 6 0 % 8
    (s.rxMap p).contains i || (s.txMap p).contains i
  | _ => false

/-- SPLIT's BUSY. -/
def State.testBusy (s : State) (kind : Nat) (ra : W64) (sweep : Bool) : Bool :=
  (s.testIn (testTower kind ra) (testClass kind ra)).isSome || !s.blockRuns kind ra || s.testIneligible kind ra sweep

/-- The package loop P2, the test clock, runs at its 500 MHz; and, for tiles, VLOGIC lies within 5 % of 0.75 V (R354). -/
def State.testWindow (s : State) (kind : Nat) (t : Nat) : Bool :=
  let p2 : ClkDom := .pkg 2
  s.clkFld p2 F.CLKDOM_CFG.SEL == 0 && s.clkFlag p2 F.CLKDOM_STAT.READY && !s.clkFlag p2 F.CLKDOM_STAT.STOPPED &&
    (kind != 2 || decide (19 * 750 ≤ 20 * s.fld F.TPWR_STAT.VLOGIC [t]))

/-- Blocks that no later try of the sweep can test: a FAILED bank, a bank group whose stand-in serves for good, a tile position
that is failed or lies beyond a retired spare column, a lane inside a map, and a bank domain or tower without power. -/
def State.neverTested (s : State) (kind : Nat) (ra : W64) : Bool :=
  let t := (testTower kind ra).val
  match kind with
  | 0 => s.bankFailed t (bitsOf ra 7 0) || s.flag F.GROUP_CFG.PERM [t, bitsOf ra 7 0 / 32]
  | 1 => s.flag F.GROUP_CFG.PERM [t, bitsOf ra 2 0]
  | 2 =>
    let row := tileRowOf ra
    let col := tileColOf ra
    s.posFailed t row col || (s.skipCol t row != col && s.posInUse t row col && s.rowRetired t row)
  | 3 => s.testIneligible kind ra true
  | _ => false

/-! ### Starting and ending (R351, R355, R359, R360) -/

/-- The test begins: a bank with its copy-in, a tile position in use with the walk of its row's skip column. -/
def State.startTest (s : State) (kind : Nat) (ra : W64) (engine : Option Eng) : State :=
  let t := testTower kind ra
  let s : State := { s with tests := s.tests ++
    [{ tower := t, slot := testClass kind ra, kind := kind, block := ra.setWidth 32, engine := engine, inSplit := false,
       repairs := 0, result := 0, copied := 0 }] }
  if kind = 0 then
    (s.put F.STANDIN_STAT.PHASE 1 [t.val, bitsOf ra 7 0 / 32]).put F.STANDIN_STAT.BANK (bitsOf ra 7 0)
      [t.val, bitsOf ra 7 0 / 32]
  else if kind = 2 ∧ s.needsWalk t.val (tileRowOf ra) (tileColOf ra) engine.isNone then
    s.walk t (tileRowOf ra) (tileColOf ra)
  else s

/-- Blocks that the sweep of a tower visits in a class, by their order: (kind, ra). -/
def groupBlock (t g n : Nat) : Option (Nat × W64) :=
  if n < 32 then some (0, BitVec.ofNat 64 (256 * t + 32 * g + n))
  else if n = 32 then some (1, BitVec.ofNat 64 (8 * t + g))
  else none

/-- Tile positions, row by row: S walks down in one sweep and up in the next (R358). -/
def tileBlock (up : Bool) (t n : Nat) : Option (Nat × W64) :=
  if 4160 ≤ n then none
  else
    let col := if up then n % 65 else 64 - n % 65
    some (2, BitVec.ofNat 64 (t * 2 ^ 14 + n / 65 * 256 + col))

/-- Lanes, loops, sensor dies and rail monitors of a tower. -/
def analogBlock (t n : Nat) : Option (Nat × W64) :=
  let loops := (List.range 6).map (6 * t + ·) ++ ((List.range 4).filter fun k => (if k = 0 then 1 else 0) = t).map (24 + ·)
  let rails := if t = 0 then [0, 4] else [t]
  let blocks := (List.range 32).map (fun i => (3, 32 * t + i)) ++ loops.map (fun l => (4, l)) ++
    (List.range 6).map (fun d => (5, 6 * t + d)) ++ rails.map fun r => (6, r)
  blocks[n]?.map fun b => (b.1, BitVec.ofNat 64 b.2)

def State.sweepOf (s : State) (t : Fin 4) : Option SweepRun := s.sweeps.find? fun w => w.tower == t
def State.setSweep (s : State) (w : SweepRun) : State :=
  { s with sweeps := s.sweeps.map fun v => if v.tower = w.tower then w else v }

/-- The block whose turn it is in a class of the sweep. -/
def State.sweepBlock (s : State) (w : SweepRun) (slot : TestSlot) : Option (Nat × W64) :=
  match slot with
  | .group g => groupBlock w.tower.val g.val w.groupNext[g]
  | .tile => tileBlock (s.fld F.TEST_STAT.SWEEP_DONE [w.tower.val] % 2 == 1) w.tower.val w.tileNext
  | .analog => analogBlock w.tower.val w.analogNext

def SweepRun.next (w : SweepRun) (slot : TestSlot) : SweepRun :=
  match slot with
  | .group g => { w with groupNext := w.groupNext.set g (w.groupNext[g] + 1) }
  | .tile => { w with tileNext := w.tileNext + 1 }
  | .analog => { w with analogNext := w.analogNext + 1 }

def allSlots : List TestSlot := (List.finRange 8).map TestSlot.group ++ [.tile, .analog]

/-- SPLIT_RESULTk of the tower: the last result of the kind; the W1C bits stay. -/
def State.putResult (s : State) (t kind : Nat) (block : BitVec 32) (engine : Option Eng) (repairs result : Nat) : State :=
  let ix := [t, kind]
  let s := (s.put F.SPLIT_RESULT.BLOCK block.toNat ix).put F.SPLIT_RESULT.ENGINE ((engine.map Fin.val).getD 255) ix
  (s.put F.SPLIT_RESULT.REPAIRS (min 255 repairs) ix).put F.SPLIT_RESULT.RESULT result ix

/-- SPLIT_DONE for an engine (R83). -/
def State.splitDone (s : State) (engine : Option Eng) : State :=
  match engine with
  | some e => s.onEng e fun en => en.edge 8 fun _ => true
  | none => s

/-- The towers have come up after a boot image has verified, and their quick splits have ended: READY, and the gates are forced
no longer (R322, R384). In MAKER_TEST neither changes (R382). -/
def State.checkReady (s : State) : State :=
  if s.ref.bootDone && decide (s.ref.sbState ≤ 1) && s.ref.bringUp.isEmpty && !(s.sweeps.any fun w => w.quick) &&
      (List.range 4).all fun t => s.ref.stackPower.getLsbD t && s.towerUp t
  then
    let s : State := { s with ref := { s.ref with sbState := 2 } }
    s.unforceGates
  else s

/-- A sweep whose every class is done ends; SPLIT_DONE follows the last sweep that one SPLIT has started. -/
def State.sweepEnds (s : State) (t : Fin 4) : State :=
  match s.sweepOf t with
  | none => s
  | some w =>
    if allSlots.any fun slot => (s.sweepBlock w slot).isSome then s
    else
      let s : State := { s with sweeps := s.sweeps.filter fun v => v.tower != t }
      if w.quick then s.checkReady
      else
      let s := s.count F.TEST_STAT.SWEEP_DONE [t.val]
      let s := s.putResult t.val 7 0 w.engine w.repairs w.worst
      if s.sweeps.any fun v => v.engine == w.engine then s else s.splitDone w.engine

/-- The sweep takes up the next block of a class: it starts its test, or will try it again after RETRY_MS. -/
def State.sweepTry (s : State) (t : Fin 4) (slot : TestSlot) : Nat → State
  | 0 => s
  | n + 1 =>
    match s.sweepOf t with
    | none => s
    | some w =>
      match s.sweepBlock w slot with
      | none => s.sweepEnds t
      | some b =>
        if s.neverTested b.1 b.2 then (s.setSweep (w.next slot)).sweepTry t slot n
        else if s.testBusy b.1 b.2 true || !s.testWindow b.1 t.val then
          { s with retryTests := s.retryTests ++ [(t.val, slot)] }
        else s.startTest b.1 b.2 none

/-- The sweep goes on after one of its tests; an abandoned one is tried again (R360). -/
def State.sweepGoesOn (s : State) (r : TestRun) (result : Nat) : State :=
  match s.sweepOf r.tower with
  | none => s
  | some w =>
    if 4 ≤ result then { s with retryTests := s.retryTests ++ [(r.tower.val, r.slot)] }
    else
      let w := { w.next r.slot with repairs := w.repairs + r.repairs, worst := max w.worst result }
      (s.setSweep w).sweepTry r.tower r.slot 4200

/-- The last split of a test has ended, or the test has been abandoned. -/
def State.finishTest (s : State) (r : TestRun) (result : Nat) : State :=
  let s : State := { s with tests := s.tests.filter fun q => !(q.tower == r.tower && q.slot == r.slot) }
  let s := s.putResult r.tower.val r.kind r.block r.engine r.repairs result
  if r.engine.isSome then s.splitDone r.engine else s.sweepGoesOn r result

def State.setTest (s : State) (r : TestRun) : State :=
  { s with tests := s.tests.map fun q => if q.tower = r.tower ∧ q.slot = r.slot then r else q }

/-- The bank of a bank test, within its tower. -/
def TestRun.bank (r : TestRun) : Nat := bitsOf r.block 7 0
def TestRun.isBank (r : TestRun) : Bool := r.kind == 0

def State.phaseOf (s : State) (r : TestRun) : Nat := s.standinPhase r.tower.val (r.bank / 32)
/-- The stand-in enters a phase; once it is idle, no write of its copier is still to come. -/
def State.setPhase (s : State) (r : TestRun) (n : Nat) : State :=
  let s := s.put F.STANDIN_STAT.PHASE n [r.tower.val, r.bank / 32]
  if n = 0 then { s with copies := s.copies.filter fun c => !(memTower c.addr == r.tower.val && memBank c.addr == r.bank) } else s

/-- Copy-back begins; the result is reported when it has completed. -/
def State.beginCopyBack (s : State) (r : TestRun) (result : Nat) : State :=
  (s.setTest { r with inSplit := false, copied := 0, result := result }).setPhase r 3

/-- A test is abandoned (R358, R360). -/
def State.abandonTest (s : State) (r : TestRun) (result : Nat) : State :=
  if r.isBank then
    match s.phaseOf r with
    | 1 => (s.setPhase r 0).finishTest r result
    | 2 => s.beginCopyBack r result
    | _ => if 4 ≤ r.result then s else s.setTest { r with result := result }
  else s.finishTest r result

/-- The bank takes back, in one piece, what the stand-in holds of it (R174). -/
def State.restoreBank (s : State) (t b : Nat) : State :=
  let k0 := standinKey t b 0
  let a0 := bankBase t b / 16
  let inStand (k : Nat) : Bool := decide (k0 ≤ k) && decide (k < k0 + 262144)
  let inBank (k : Nat) : Bool := decide (a0 ≤ k) && decide (k < a0 + 262144)
  { s with
    mem := (s.standin.filter fun p => inStand p.1).foldl (fun m p => Sparse.write m (p.1 - k0 + a0) p.2)
      (s.mem.filter fun p => !inBank p.1)
    memBad := (s.memBad.filter fun k => !inBank k) ++ ((s.standinBad.filter inStand).map fun k => k - k0 + a0)
    memSoft := (s.memSoft.filter fun k => !inBank k) ++ ((s.standinSoft.filter inStand).map fun k => k - k0 + a0) }

/-- A layer reset of L1, or a tower reset, meets a test: a copy-in or copy-back ends with the bank serving as before the test,
and any other test is abandoned (R174, R360). -/
def State.resetTest (s : State) (r : TestRun) : State :=
  if r.isBank then
    match s.phaseOf r with
    | 3 => ((s.restoreBank r.tower.val r.bank).setPhase r 0).finishTest r 7
    | _ => s.abandonTest r 7
  else s.finishTest r 7

def State.resetGroupTests (s : State) (t : Nat) : State :=
  (s.tests.filter fun r => r.tower.val == t && (r.kind == 0 || r.kind == 1)).foldl (fun s r => s.resetTest r) s
def State.resetTests (s : State) (t : Nat) : State :=
  (s.tests.filter fun r => r.tower.val == t).foldl (fun s r => s.resetTest r) s

/-- Tests whose block a power sequence takes out of RUN, and those whose domain has lost its power (R361). -/
def State.checkTest (s : State) (r : TestRun) : State :=
  if r.isBank then
    let d := pdQuad r.tower.val r.bank
    if s.pd d = 0 ∨ s.pd d = 3 then (s.setPhase r 0).finishTest r (if 4 ≤ r.result then r.result else 6)
    else if s.fenced d then s.abandonTest r 6
    else s
  else if s.blockRuns r.kind (r.block.setWidth 64) then s
  else s.finishTest r 6

/-- The rotations of half-dies that have left RUN lose their pre-copy (R358). -/
def State.checkRotations (s : State) : State :=
  { s with rotations := s.rotations.map fun r => { r with preCopied := r.preCopied && s.rotationPowered r } }

def State.checkTests (s : State) : State := s.tests.foldl (fun s r => s.checkTest r) s.checkRotations

/-- A bank test still copies back in a quadrant of tower `t`: the fence drains only when it has completed (R361). -/
def State.copiesBack (s : State) (d : Nat) : Bool :=
  s.tests.any fun r => r.isBank && pdQuad r.tower.val r.bank == d && s.phaseOf r == 3

/-- An access from an engine with INTRAP set to bank `b` of tower `t` while it is under test (R360). -/
def State.trapAccess (s : State) (e : Eng) (t b : Nat) : State :=
  if !(s.eng e).inTrap then s
  else match s.tests.find? fun r => r.isBank && r.tower.val == t && r.bank == b with
    | some r => s.abandonTest r 4
    | none => s

/-- A load begins to write frames: pre-copies in its towers are abandoned, and scans that wait for one (R358). -/
def State.abandonForLoad (s : State) : State :=
  (List.range 4).foldl (fun s t =>
    if !s.loaderWrites t then s
    else
      let walking (r : TestRun) : Bool :=
        r.tower.val == t && r.kind == 2 && s.flag F.STEER.WALKING [t, tileRowOf (r.block.setWidth 64)]
      let tests := s.tests.filter walking
      let s : State := { s with rotations := s.rotations.map fun q =>
        if q.tower.val = t then { q with preCopied := false } else q }
      tests.foldl (fun s r => s.finishTest r 8) s) s

def execLoadHeaderChecks (s : State) : Out :=
  match s.persona.job with
  | some j =>
    if j.accepted then .next s
    else .next ((s.headerChecks j).abandonForLoad).settle
  | none => .next s

/-! ### Copy-in and copy-back (R169, R359) -/

def State.groupTest (s : State) (t : Fin 4) (g : Fin 8) : Option TestRun :=
  (s.testIn t (.group g)).filter fun r => r.isBank

/-- The quadrant can be accessed. -/
def State.quadServes (s : State) (t b : Nat) : Bool := s.pd (pdQuad t b) == 1 || s.pd (pdQuad t b) == 2

/-- One word of the bank goes to the stand-in, an uncorrectable one with the poison pattern. -/
def State.copyInWord (s : State) (r : TestRun) (w : Nat) : State :=
  let t := r.tower.val
  let a := bankBase t r.bank + 16 * w
  let k := standinKey t r.bank w
  let s := match s.memRead a readerCopier with
    | (some q, s) => s.standinPut k q
    | (none, s) => { s with standinBad := listAdd s.standinBad k }
  let s := s.setTest { r with copied := w + 1 }
  if w + 1 = 262144 then s.setPhase r 2 else s

/-- The words of a bank are copied in their order. -/
def execCopyIn (t : Tower) (g : Fin 8) (word : Fin 262144) (s : State) : Out :=
  match s.groupTest t g with
  | some r =>
    if s.phaseOf r = 1 ∧ r.copied = word.val ∧ s.quadServes t.val r.bank then .next (s.copyInWord r word.val).settle
    else .next s
  | none => .next s

/-- The copier's writes of a bank's words that are still to come. -/
def State.copiesOf (s : State) (t b : Nat) : List CopyBack := s.copies.filter fun c => memTower c.addr == t && memBank c.addr == b

/-- They are made. -/
def State.flushCopies (s : State) (t b : Nat) : State :=
  let s' := (s.copiesOf t b).foldl (fun s c => s.copierPut c) s
  { s' with copies := s.copies.filter fun c => !(memTower c.addr == t && memBank c.addr == b) }

/-- All words are back in the bank: the test ends and the stand-in is idle. -/
def State.endCopyBack (s : State) (r : TestRun) : State :=
  if r.copied = 262144 ∧ (s.copiesOf r.tower.val r.bank).isEmpty then (s.setPhase r 0).finishTest r r.result else s.setTest r

/-- One word of the stand-in goes back to the bank, once the copier has made its last write. -/
def State.copyBackWord (s : State) (r : TestRun) (w : Nat) (writes : CopyWrite) : State :=
  let t := r.tower.val
  let a := bankBase t r.bank + 16 * w
  let s := s.flushCopies t r.bank
  if r.copied = 262144 then s.endCopyBack r
  else
    let p := s.memRead a readerCopier
    let c : CopyBack := ⟨a, p.1, writes == .meets⟩
    let s := if writes = .atOnce then p.2.copierPut c else { p.2 with copies := p.2.copies ++ [c] }
    s.endCopyBack { r with copied := w + 1 }

/-- The words are copied back in their order. Where the write of the last one is still to come, the command for that word comes once
more. -/
def execCopyBack (t : Tower) (g : Fin 8) (word : Fin 262144) (writes : CopyWrite) (s : State) : Out :=
  match s.groupTest t g with
  | some r =>
    if s.phaseOf r = 3 ∧ (r.copied = word.val ∨ (r.copied = 262144 ∧ word.val = 262143)) ∧ s.quadServes t.val r.bank then
      .next (s.copyBackWord r word.val writes).settle
    else .next s
  | none => .next s

/-! ### Splits (R353, R354) -/

/-- The test logic of the tower works: its domain is in RUN and its clock gate is open. -/
def State.testLive (s : State) (t : Nat) : Bool := s.pd (pdNE t) == 1 && !s.gateShut t 5

/-- A tile position is free for its scan: the row's skip column stands there, or no tile in use is served from it. -/
def State.posFree (s : State) (r : TestRun) : Bool :=
  let ra : W64 := r.block.setWidth 64
  s.skipCol r.tower.val (tileRowOf ra) == tileColOf ra ||
    (!s.posInUse r.tower.val (tileRowOf ra) (tileColOf ra) && !s.flag F.STEER.WALKING [r.tower.val, tileRowOf ra])

/-- The next split of the test can begin. -/
def State.splitReady (s : State) (r : TestRun) : Bool :=
  match r.kind with
  | 0 => s.phaseOf r == 2
  | 2 => s.posFree r
  | _ => true

def execSplitStart (t : Tower) (slot : TestSlot) (windowOk : Bool) (s : State) : Out :=
  match s.testIn t slot with
  | some r =>
    if s.testLive t.val && !r.inSplit && windowOk && s.testWindow r.kind t.val && s.splitReady r &&
        s.blockRuns r.kind (r.block.setWidth 64)
    then .next (s.setTest { r with inSplit := true })
    else .next s
  | none => .next s

/-- `n` columns of the bank have failed: each is repaired, until the stand-in takes the bank's place for good. -/
def State.repairColumns (s : State) (t b : Nat) : Nat → State
  | 0 => s
  | n + 1 =>
    if s.flag F.GROUP_CFG.PERM [t, b / 32] then s else (s.columnFault t b).repairColumns t b n

/-- How many soft repairs a test has just added to the log's count. -/
def State.repairsSince (s : State) (t was : Nat) : Nat := s.fld F.REPAIR_STAT.TOTAL [t] - was

/-- A March test of a bank has reached its end with `n` failed columns (R359, R367). The first that fails is followed by another
March over the repaired bank. -/
def State.marchEnds (s : State) (r : TestRun) (n : Nat) : State :=
  let t := r.tower.val
  if n = 0 then s.beginCopyBack r (if r.repairs = 0 then 1 else 2)
  else
    let was := s.fld F.REPAIR_STAT.TOTAL [t]
    let s := s.repairColumns t r.bank n
    let r := { r with repairs := r.repairs + s.repairsSince t was, inSplit := false }
    if s.flag F.GROUP_CFG.PERM [t, r.bank / 32] then s.finishTest r 2 else s.setTest r

/-- A tile scan has reached its end with `n` failed vertical wires (R366, R368). -/
def State.scanEnds (s : State) (r : TestRun) (n : Nat) : State :=
  let ra : W64 := r.block.setWidth 64
  let t := r.tower.val
  let was := s.fld F.REPAIR_STAT.TOTAL [t]
  let s := (List.range (min n 544)).foldl (fun s _ => s.replaceWire r.tower (tileRowOf ra) (tileColOf ra)) s
  let gone := s.posFailed t (tileRowOf ra) (tileColOf ra) || s.rowRetired t (tileRowOf ra)
  s.finishTest { r with repairs := s.repairsSince t was } (if n = 0 then 1 else if gone then 3 else 2)

/-- The consequence of an analogue failure (R362). `n` counts faults; for sensors it is the mask of the failing ones, for rail
monitors two bits to a rail. -/
def State.analogFails (s : State) (r : TestRun) (n : Nat) : State :=
  let t := r.tower.val
  let no := r.block.toNat % 128
  match r.kind with
  | 3 =>
    let s : State := { s with ref := { s.ref with badLanes := listAdd s.ref.badLanes no } }
    (s.failLane (no / 8) (no % 8) 3).softRepair t { kind := 13, item := no }
  | 4 =>
    let no := no % 32
    let s := s.put F.SPLIT_RESULT.LOOP_FAULT 1 [t, 4]
    (s.logRepair t { kind := 0, item := no }).blockEvent (0x3180 + no) (0x030001600000 + t * 0x1000000)
  | 5 => s.logRepair t { kind := 0, layer := no % 32 % 6 }
  | _ =>
    let both := (List.range 16).any fun i => n.testBit (2 * i) && n.testBit (2 * i + 1)
    let s := if both then s.put F.SPLIT_RESULT.RAIL_UNMONITORED 1 [t, 6] else s
    s.logRepair t { kind := 0, item := no % 8 }

/-- Sensors of a die become invalid, or valid again once their die passes. -/
def State.markSensors (s : State) (r : TestRun) (mask : Nat) : State :=
  let base := r.block.toNat % 32 * 16
  let bad := s.ref.badSensors.filter fun i => !(decide (base ≤ i) && decide (i < base + 16))
  { s with ref := { s.ref with
      badSensors := bad ++ ((List.range 16).filter fun i => mask.testBit i).map (base + ·) } }

/-- An analogue test has reached its end. -/
def State.analogEnds (s : State) (r : TestRun) (n : Nat) : State :=
  let t := r.tower.val
  let was := s.fld F.REPAIR_STAT.TOTAL [t]
  let s := if n = 0 then s else s.analogFails r n
  let s := if r.kind = 5 then s.markSensors r n else s
  s.finishTest { r with repairs := s.repairsSince t was } (if n = 0 then 1 else 3)

/-- The test has come to its end with `n` faults found. -/
def State.testEnds (s : State) (r : TestRun) (n : Nat) : State :=
  match r.kind with
  | 0 => s.marchEnds r n
  | 1 => s.finishTest r (if n = 0 then 1 else 3)
  | 2 => s.scanEnds r n
  | _ => s.analogEnds r n

/-! ### Sweeps (R355) -/

/-- A sweep of tower `t` begins: every class takes up its first block. -/
def State.startSweep (s : State) (t : Fin 4) (engine : Option Eng) : State :=
  let s : State := { s with sweeps := s.sweeps ++
    [{ tower := t, engine := engine, groupNext := Vector.replicate 8 0, tileNext := 0, analogNext := 0 }] }
  allSlots.foldl (fun s slot => s.sweepTry t slot 4200) s

/-- The quick splits of start-up, once the tower has come up (R384). -/
def State.startQuick (s : State) (t : Fin 4) : State :=
  let s : State := { s with sweeps := (s.sweeps.filter fun w => w.tower != t) ++
    [{ tower := t, engine := none, groupNext := Vector.replicate 8 32, tileNext := 4160, analogNext := 32, quick := true }] }
  allSlots.foldl (fun s slot => s.sweepTry t slot 4200) s

/-- SWEEP_HOURS after the end of the last sweep. One that has not finished finishes first. -/
def execSweepStart (t : Tower) (s : State) : Out :=
  if s.flag F.TEST_CTRL.SWEEP_EN [t.val] && (s.sweepOf t).isNone && s.testLive t.val then .next (s.startSweep t none).settle
  else .next s

/-- RETRY_MS after a refusal. -/
def execTestRetry (t : Tower) (slot : TestSlot) (s : State) : Out :=
  if s.retryTests.contains (t.val, slot) && s.testLive t.val then
    let s : State := { s with retryTests := s.retryTests.filter fun p => p != (t.val, slot) }
    .next (s.sweepTry t slot 4200).settle
  else .next s

/-! ### The configuration scrubber (R363 to R365) -/

def cfgIx : CfgLayer → Nat
  | .l2 => 0
  | .l5 => 1

/-- The scrubber's part for the layer works. -/
def State.scrubLive (s : State) (t : Nat) (l : CfgLayer) : Bool := s.pd (pdCfg (2 * t + cfgIx l)) == 1 && !s.gateShut t 4

/-- One frame of the pass: corrected words are counted; a frame whose CRC does not match is BAD. -/
def execScrubFrame (t : Tower) (l : CfgLayer) (corrected : Nat) (crcOk : Bool) (s : State) : Out :=
  let ix := [t.val, cfgIx l]
  if !s.scrubLive t.val l then .next s
  else
    let n := s.fld F.SCRUB_POS.FRAME ix
    let s := s.count F.SCRUB_POS.CORRECTED ix corrected
    let s := if crcOk then s else s.markBadKey ((2 * t.val + cfgIx l) * 149760 + n)
    if n + 1 < 149760 then .next (s.put F.SCRUB_POS.FRAME (n + 1) ix).settle
    else
      let s := (s.put F.SCRUB_POS.FRAME 0 ix).put F.SCRUB_POS.CORRECTED 0 ix
      .next (s.put F.SCRUB_STAT.PASSES ((s.fld F.SCRUB_STAT.PASSES ix + 1) % 2 ^ 32) ix).settle

/-- The parameters reloaded are those the scrubber holds: nothing that software sees changes. -/
def execScrubParameterReload (_ : Tower) (s : State) : Out := .next s

/-- The Referee restarts the part at the frame after the last completed one. -/
def State.scrubRestart (s : State) (t : Nat) (l : CfgLayer) : State :=
  (s.count F.SCRUB_STAT.RESTARTS [t, cfgIx l]).recordAuto 0x0E (BitVec.ofNat 64 (2 * t + cfgIx l)) 1

def execScrubWatchdog (t : Tower) (l : CfgLayer) (s : State) : Out :=
  if s.scrubLive t.val l then .next (s.scrubRestart t.val l) else .next s

def execScrubberCopyDisagrees (t : Tower) (l : CfgLayer) (allThree : Bool) (s : State) : Out :=
  if !s.scrubLive t.val l then .next s
  else if allThree then .next (s.scrubRestart t.val l)
  else .next (s.count F.SCRUB_STAT.VOTES [t.val, cfgIx l])

/-! ### The fuse commit (R344, R371) -/

/-- The package lies within the temperature window for fuses. -/
def State.fuseWindow (s : State) : Bool :=
  decide (0 ≤ signedOf 16 (s.fld F.PKG_THERM.TMIN)) && decide (signedOf 16 (s.fld F.PKG_THERM.TMAX) ≤ 85 * 16)

/-- The entries of the repair log of tower `t`, oldest first. -/
def State.logOrder (s : State) (t : Nat) : List Nat :=
  (List.range 64).map fun i => (s.fld F.REPAIR_STAT.NEXT [t] + i) % 64

/-- Entry `i` is a repair that is not in fuses. -/
def State.uncommitted (s : State) (t i : Nat) : Bool :=
  fusable (bitsOf (s.reg .REPAIR_LOG [t, i]) 63 56) && !bit (s.reg .REPAIR_LOG [t, i]) 55

/-- One repair is programmed and verified. -/
def State.fuseEntry (s : State) (t i : Nat) : State :=
  let w := s.reg .REPAIR_LOG [t, i]
  let s := s.setReg .REPAIR_LOG [t, i] (setBits w 55 55 1)
  let s := s.put F.FUSE_CTRL.FREE (s.fld F.FUSE_CTRL.FREE [t] - 1) [t]
  let s := s.put F.REPAIR_STAT.UNCOMMITTED (s.fld F.REPAIR_STAT.UNCOMMITTED [t] - 1) [t]
  let s : State := { s with ref := { s.ref with fused := s.ref.fused ++ [(t, w)] } }
  let s := if bitsOf w 63 56 = 1 then s.count F.BANK_STAT.SPARES_FUSED [t, bitsOf w 7 0] else s
  s.recordAuto 0x0B (BitVec.ofNat 64 t) w true

def State.fuseEntries (s : State) (t : Nat) : List Nat → State
  | [] => s.put F.FUSE_CTRL.RESULT 0 [t]
  | i :: rest =>
    if s.fld F.FUSE_CTRL.FREE [t] = 0 then s.put F.FUSE_CTRL.RESULT 2 [t] else (s.fuseEntry t i).fuseEntries t rest

/-- FUSE_CTRL.COMMIT. The programming is one command, so BUSY and STOPPED are not seen. -/
def State.commitFuses (s : State) (t : Nat) : State :=
  if !s.fuseWindow then s.put F.FUSE_CTRL.RESULT 1 [t]
  else if s.fld F.FUSE_CTRL.FREE [t] = 0 then s.put F.FUSE_CTRL.RESULT 2 [t]
  else s.fuseEntries t ((s.logOrder t).filter fun i => s.uncommitted t i)

end Sys2Proof.Machine
end

