-- ==== Sys2Proof/Machine/PowerOff.lean ====
section
/-! DEFINITION. What a domain loses in OFF, the end of a power sequence, forced power-off, stack power, temperature and the
power cap (R331 to R350, R412). -/

namespace Sys2Proof.Machine

/-! ### Engines (R98, R180, R383) -/

/-- The engine at reset, with its scratchpads. -/
def Engine.atReset (en : Engine) : Engine :=
  { imem := en.imem, dmem := en.dmem, imemBad := en.imemBad, dmemBad := en.dmemBad, imemSoft := en.imemSoft,
    dmemSoft := en.dmemSoft }

/-- An engine reset: its program ends without a completion item, and a load that one of its channels carries with it. -/
def State.resetEngine (s : State) (e : Eng) : State :=
  let s := match s.persona.job with
    | some j => if j.engine = e then s.abortLoad else s
    | none => s
  s.onEng e Engine.atReset

def State.clearSpads (s : State) (e : Eng) : State :=
  s.onEng e fun en => { en with imem := [], dmem := [], imemBad := [], dmemBad := [], imemSoft := [], dmemSoft := [] }

/-- The resident area rewritten from the boot store. -/
def State.loadResident (s : State) (e : Eng) : State :=
  s.onEng e fun en =>
    { en with
      imem := s.ref.bootResident.filter (fun p => p.1 < 1024) ++ en.imem.filter fun p => !decide (p.1 < 1024)
      imemBad := en.imemBad.filter fun w => !decide (w < 1024)
      imemSoft := en.imemSoft.filter fun w => !decide (w < 1024) }

def enginesOf (t : Nat) : List Eng := allEngines.filter fun e => e.val / 4 == t

/-! ### Laps -/

/-- A lap in progress or undecided is scratched with a cause, and the laps halt. -/
def State.scratchHalt (s : State) (cause : Byte) : State :=
  if !s.lapsRun then s
  else if s.lapLive || s.fab.phase == .undecided then (s.noteScratch cause none).discardLap.haltLaps cause true
  else s.discardLap.haltLaps cause

/-- PERSONA becomes NONE, and the global set-reset is asserted until a full load is activated (R339). -/
def State.losePersona (s : State) : State :=
  let s : State := { s with persona := { s.persona with staged := [], stagedSetup := none, heldRegions := [] } }
  let s := ((s.put F.LOAD_STAT.PERSONA 0).put F.LOAD_STAT.STAGED 0).put F.LOAD_STAT.ACT_PENDING 0
  (s.put F.LOAD_STAT.UNBENCH_HELD 0).assertGsr

/-- A tile of the loaded or active personality for which `f` holds. -/
def State.personaUses (s : State) (f : Nat → Bool) : Bool := s.persona_ != 0 && s.fab.tilesUsed.any f

/-! ### Contents lost in OFF (R173, R335, R339) -/

/-- The physical tiles of a half of a logic die: columns 0 to 32, or 33 to 64. -/
def halfTile (die : Nat) (east : Bool) (pt : Nat) : Bool :=
  pt / 4160 == die && (decide (33 ≤ pt % 65) == east)

def State.loseFrames (s : State) (die : Nat) : State :=
  let mine (pt : Nat) : Bool := pt / 4160 == die
  let s : State := { s with fab := { s.fab with
    frames := s.fab.frames.filter fun p => !mine (p.1 / (36 * 512))
    ftable := s.fab.ftable.filter fun p => !mine (p.1 / 4096)
    badFrames := s.fab.badFrames.filter fun k => !mine (k / 36) } }
  if s.personaUses fun x => tileDie x == die then s.losePersona else s

def State.loseHalf (s : State) (die : Nat) (east : Bool) : State :=
  let mine := halfTile die east
  let s : State := { s with fab := { s.fab with
    committed := s.fab.committed.filter fun p => !mine (p.1 / 128)
    nextState := s.fab.nextState.filter fun p => !mine (p.1 / 128)
    wmask := s.fab.wmask.filter fun p => !mine (p.1 / 128) } }
  let s := if s.inUse.any fun x => mine (s.phys x) then s.scratch 9 (some { tower := die / 2, step := s.step_ (die / 2) }) else s
  if s.personaUses fun x => mine (s.phys x) then s.losePersona else s

/-- Bank number `b`, tower × 256 + bank, lies in quadrant `q` of tower `t`. -/
def inQuad (t q b : Nat) : Bool := b / 256 == t && b % 256 / 64 == q

/-- Design memory, stand-ins and commit buffers of a memory quadrant are lost. Items whose cells lie there read as zero. -/
def State.dropQuad (s : State) (t q : Nat) : State :=
  let wordIn (k : Nat) : Bool := inQuad t q (k * 16 / 0x400000)
  let groupIn (k : Nat) : Bool := k / 262144 / 8 == t && k / 262144 % 8 / 2 == q
  { s with
    mem := s.mem.filter fun p => !wordIn p.1
    memBad := s.memBad.filter fun k => !wordIn k
    memSoft := s.memSoft.filter fun k => !wordIn k
    standin := s.standin.filter fun p => !groupIn p.1
    standinBad := s.standinBad.filter fun k => !groupIn k
    standinSoft := s.standinSoft.filter fun k => !groupIn k
    vault := { s.vault with bankVerdicts := s.vault.bankVerdicts.filter fun p => !wordIn p.1 }
    fab := { s.fab with
      commitBuf := s.fab.commitBuf.filter fun w => !inQuad t q w.bank
      portReads := s.fab.portReads.filter fun r => !inQuad t q r.bank } }

/-- A memory quadrant loses its content; a lap with a read or a held write there is scratched (R173). -/
def State.loseQuad (s : State) (t q : Nat) : State :=
  let used := (s.fab.commitBuf.any fun w => inQuad t q w.bank) || s.fab.portReads.any fun r => inQuad t q r.bank
  if used then (s.dropQuad t q).scratch 9 (some { tower := t, step := s.step_ t }) else s.dropQuad t q

/-- The engines, the loads and the laps of a network-and-engines domain. -/
def State.loseNE (s : State) (t : Nat) : State :=
  let s := (enginesOf t).foldl (fun s e => (s.resetEngine e).clearSpads e) s
  ((s.clearReg .TLC_STAT [t]).clearReg .TLC_SCRATCH [t]).scratchHalt 9

/-- Every region key, root and HWM is lost; the controls of the security block return to reset (notes/assumptions 52). -/
def State.loseSecurity (s : State) : State :=
  let s := s.zeroiseVault
  let s := ((s.clearReg .SEC_CTRL).clearReg .SEC_ALARM).clearReg .SEC_COUNTS
  let s := (s.clearBlock 0x030000102000 0x0300001027FF).clearReg .ENROL_CTRL
  { s with ref := { s.ref with enrolDue := none } }

def State.loseCounters (s : State) (t : Nat) : State :=
  s.clearBlock (0x030001800000 + t * 0x01000000) (0x030001800000 + t * 0x01000000 + 0x7FFFFF)

/-- The pin block of a target bank returns to reset; PIN_OWN keeps its values (R408). -/
def State.resetPinBank (s : State) (b : Nat) : State :=
  let s := (List.range 128).foldl (fun s j => s.clearReg .PIN_CFG [128 * b + j]) s
  let s := [2 * b, 2 * b + 1].foldl (fun s i => ((s.clearReg .GPIO_OUT [i]).clearReg .GPIO_OE [i]).clearReg .DOUT [i]) s
  let s := (List.range 8).foldl (fun s j =>
    let n := 8 * b + j
    let s := (s.clearReg .PMU_CTRL [n]).clearReg .PMU_STAT [n]
    (List.range 4).foldl (fun s i => s.clearReg .PMU_SEL [n, i]) s) s
  let s := (List.range 4).foldl (fun s j => (s.clearReg .RU_CTRL [4 * b + j]).clearReg .RU_STAT [4 * b + j]) s
  { s with pinNow := s.pinNow.filter fun p => p.1 / 128 != b, parked := s.parked.filter fun p => p.1 / 128 != b }

/-- A personality is active: the bank takes its pin map from the lap engine's copy, with a switch (R407, R408). -/
def State.takePinMap (s : State) (b : Nat) : State :=
  if s.persona_ ≠ 2 then s
  else
    (List.range 128).foldl (fun s j =>
      let p := 128 * b + j
      if s.pinOwner p = 0 then s.setPinFunc p (b2n (bit (pinEntry s.persona.pinActive p) 63)) 0 else s) s

/-! ### The host links (R227) -/

/-- An operation of a channel touches host memory. -/
def DmaOp.usesHost : DmaOp → Bool
  | .move ssp dsp src dst _ => (ssp == 0 && decide (0x800000000000 ≤ src)) || (dsp == 0 && decide (0x800000000000 ≤ dst))
  | .image => false
  | .program src _ _ => decide (0x800000000000 ≤ src)

/-- Channels of tower `m` with requests over the module halt with TIMEOUT. -/
def State.cutChannels (s : State) (m : Nat) : State :=
  (enginesOf m).foldl (fun s e => (List.finRange 8).foldl (fun s ch =>
    let c := (s.eng e).chans[ch]
    if c.state = .busy ∧ (c.op.map DmaOp.usesHost).getD false then s.haltMove e ch .timeout else s) s) s

/-- The load fetches over the module. -/
def State.cutLoad (s : State) (m : Nat) : State :=
  match s.persona.job with
  | some j => if j.engine.val / 4 = m ∧ 0x800000000000 ≤ j.addr then s.failTransfer .timeout else s
  | none => s

/-- The mainband of module `m` goes down; nothing more happens where it was down. -/
def State.mainbandDown (s : State) (m : Nat) : State :=
  if s.flag F.HC_LINK.UP [m] then ((s.put F.HC_LINK.UP 0 [m]).cutChannels m).cutLoad m else s

/-- The host channel and its counters return to reset. -/
def State.loseHostChannel (s : State) : State :=
  let s := (List.range 4).foldl (fun s m => s.mainbandDown m) s
  let s := (s.clearBlock 0x030000300000 0x0300003FFFFF).clearBlock 0x030000C00000 0x030000CFFFFF
  { s with holdoff := false, notifyDue := false }

/-! ### OFF, and the way back (R339, R422) -/

/-- What OFF does to the parts that domain `d` holds. -/
def State.offEffects (s : State) (d : Nat) : State :=
  if d = 1 then s.loseHostChannel
  else if 2 ≤ d ∧ d ≤ 5 then s.resetPinBank (d - 2)
  else if d = 6 then s.loseSecurity
  else if d < 8 then s
  else
    let t := (d - 8) / 14
    match (d - 8) % 14 with
    | 0 => s.groupDown d
    | 1 => s.groupDown d
    | 2 => s.loseNE t
    | 3 => s.loseQuad t 0
    | 4 => s.loseQuad t 1
    | 5 => s.loseQuad t 2
    | 6 => s.loseQuad t 3
    | 7 => s.loseFrames (2 * t)
    | 8 => s.loseFrames (2 * t + 1)
    | 9 => s.loseHalf (2 * t) false
    | 10 => s.loseHalf (2 * t) true
    | 11 => s.loseHalf (2 * t + 1) false
    | 12 => s.loseHalf (2 * t + 1) true
    | _ => s.loseCounters t

/-- The queue manager, its link memory and the flow table return to reset (R422). A pool entry whose bank the queue manager
does not own comes up with EN clear. -/
def State.resetQueueManager (s : State) : State :=
  let s := s.clearBlock 0x030000500000 0x0300006FFFFF
  let s : State := { s with
    qitems := []
    linkBad := []
    poolReserved := 0
    bridges := Vector.replicate 64 {}
    fab := { s.fab with delivered := [], outReserved := [] } }
  (List.range 16).foldl (fun s i =>
    let b := s.poolBankNo i
    if s.fld F.BANK_OWNER.KIND [b / 256, b % 256] = 2 then s else s.put F.POOL_BANK.EN 0 [i]) s

/-- The lap engine's registers and the personality return to reset. -/
def State.resetLapEngine (s : State) : State :=
  let s := s.losePersona
  let s := s.clearBlock 0x030000900000 0x0300009FFFFF
  { s with
    fab := { s.fab with portBind := [], tilesUsed := [], retries := 0, laterCauses := 0, firstCause := 0,
                        stopAsked := false, single := false, boundaryWrites := [], trigPrev := [] }
    persona := {}
    log := {} }

/-- The chain registers return to reset. -/
def State.resetChain (s : State) : State :=
  let s := s.clearBlock 0x030000800000 0x0300008FFFFF
  { s with chain := {}, bridges := Vector.replicate 64 {} }

/-- What T0's network-and-engines domain brings back at reset when it reaches RUN (R339). -/
def State.resetT0 (s : State) : State := s.resetLapEngine.resetQueueManager.resetChain

/-- What happens when domain `d` reaches RUN from OFF: HC_HOSTMEM mirrors the locked SB_HOSTMEM again (R233), the pin map is taken, T0's
parts return at reset, the engines' resident areas are loaded. -/
def State.onEffects (s : State) (d : Nat) : State :=
  if d = 1 then s.put F.HC_HOSTMEM.GIB s.ref.sbHostmem.toNat
  else if 2 ≤ d ∧ d ≤ 5 then s.takePinMap (d - 2)
  else if d < 8 then s
  else if (d - 8) % 14 = 2 then
    let t := (d - 8) / 14
    let s := if t = 0 then s.resetT0 else s
    (enginesOf t).foldl (fun s e => s.loadResident e) s
  else s

/-- The domain is in `now`, coming from `was`. -/
def State.stateEffects (s : State) (d was now : Nat) : State :=
  let s := if now = 0 ∧ was ≠ 0 then (loopsIn d).foldl (fun s c => s.loopUnlocks c) (s.offEffects d)
    else if now = 1 ∧ was = 0 then (loopsIn d).foldl (fun s c => s.startLoop c) (s.onEffects d)
    else s
  let s :=
    if 8 ≤ d ∧ (d - 8) % 14 < 2 then
      if now = 1 then s.groupUp d else if now = 2 then s.groupSleeps d else if now = 3 then s.groupDown d else s
    else s
  s.followGates.checkTests

/-! ### Sequences (R337) -/

/-- The running sequence of domain `d` completes; a latched request starts at once. -/
def State.completeSequence (s : State) (d : Nat) : State :=
  let was := s.pd d
  let now := s.pdTarget d
  let latch := if s.latchValid d then some (s.latched d) else none
  let s := s.count F.PD_STAT.SEQUENCES [d]
  let s := (s.lowerFences d).setPd d now now false none
  let s := match latch with
    | some l => s.startSequence d l
    | none => s
  (s.stateEffects d was now).pwrDone d

/-! ### Forced power-off and stack power (R336, R340, R343) -/

/-- The rail is removed: any sequence is cut short, the latch is emptied, and the domain is OFF. -/
def State.cutOff (s : State) (d : Nat) : State :=
  let was := s.pd d
  ((s.lowerFences d).setPd d 0 0 false none).stateEffects d was 0

def State.setStack (s : State) (t : Nat) (v : Bool) : State :=
  { s with ref := { s.ref with stackPower := setBits s.ref.stackPower t t (b2n v) } }

/-- Stack power is removed from tower `t`. -/
def State.removeStack (s : State) (t : Nat) : State :=
  let s := (bringUpOrder t).reverse.foldl (fun s d => s.cutOff d) s
  s.setStack t false

def State.removeStacks (s : State) : State :=
  let s := (List.range 4).reverse.foldl (fun s t => s.removeStack t) s
  { s with ref := { s.ref with bringUp := [] } }

/-- The towers that lack stack power are to be powered in the order T0 to T3. -/
def State.startBringUp (s : State) : State :=
  let ts := (List.range 4).filter fun t => !s.ref.stackPower.getLsbD t
  { s with ref := { s.ref with bringUp := ts.flatMap bringUpOrder } }

/-- The next domain's sequence may start: a tower starts only after the one before it has reached RUN. Before a boot image has
verified, only the parts that a relay boot needs come up (R385). -/
def State.mayBringUp (s : State) (d : Nat) : Bool :=
  decide (d < 8) || !s.ref.bootDone || (d - 8) % 14 != 2 ||
    (List.range ((d - 8) / 14)).all fun u => !s.ref.stackPower.getLsbD u || s.towerUp u

/-- The next domain in the order of R336 starts its sequence to RUN; a request latched meanwhile follows it. -/
def State.bringUpNext (s : State) : State :=
  match s.ref.bringUp with
  | [] => s
  | d :: rest =>
    if !s.mayBringUp d then s
    else
      let s : State := { s with ref := { s.ref with bringUp := rest } }
      let s := if d < 8 then s else s.setStack ((d - 8) / 14) true
      let latch := if s.latchValid d ∧ s.latched d ≠ 1 then some (s.latched d) else none
      if s.pd d = 1 ∨ s.bankvBad d ∨ s.layerOff d then s else s.setPd d (s.pd d) 1 true latch

/-- A power record: OBJECT names the domain or tower, CODE in DETAIL the event. -/
def State.recordPower (s : State) (object code : Nat) (pinned : Bool := false) : State :=
  s.recordAuto 8 (BitVec.ofNat 64 object) (BitVec.ofNat 64 code) pinned

def execRailUndervoltage (d : Pd) (s : State) : Out :=
  if pdFixed d.val || s.pd d.val != 1 then .next s
  else .next ((s.recordPower d.val 1).cutOff d.val).settleV

/-- VIN is out of range: stack power goes from every tower. -/
def State.vinOut (s : State) (code : Nat) : State :=
  let s := (s.recordPower 0 code).removeStacks
  { s with ref := { s.ref with vinRemoved := true } }

def execVinLow (s : State) : Out := .next (s.vinOut 2).settleV
def execVinOvervoltage (s : State) : Out := .next (s.vinOut 3).settleV

/-- VIN has stayed in range: stack power returns, unless TSHUT removed it. -/
def execVinRestored (s : State) : Out :=
  if s.ref.vinRemoved then
    let s : State := { s with ref := { s.ref with vinRemoved := false } }
    .next (if s.ref.powerLock then s else s.startBringUp)
  else .next s

/-! ### The end of a split (R353, R366 to R369) -/

/-- A retired L1 forces the tower's memory quadrants OFF. -/
def State.forceQuads (s : State) (t : Nat) : State :=
  ((List.range 4).map fun q => 11 + 14 * t + q).foldl (fun s d => if s.layerOff d ∧ s.pd d ≠ 0 then s.cutOff d else s) s

/-- Wires that have failed by the end of the split are replaced, or what they serve is retired. -/
def State.replaceWires (s : State) (t : Fin 4) (ws : List WireFault) : State :=
  (ws.foldl (fun s w => s.wireFails t w) s).forceQuads t.val

def execSplitEnd (t : Tower) (slot : TestSlot) (o : SplitOutcome) (wires : List WireFault) (s : State) : Out :=
  match s.testIn t slot with
  | some r =>
    if !r.inSplit || !s.testLive t.val then .next s
    else match o with
      | .budget => .next ((s.setTest { r with inSplit := false }).replaceWires t wires).settleV
      | .window => .next ((s.abandonTest r 5).replaceWires t wires).settleV
      | .last n => .next ((s.testEnds r n).replaceWires t wires).settleV
  | none => .next s

/-! ### Temperature (R341 to R343, R345) -/

/-- A threshold of PKG_THRESH in units of 1/16 °C. -/
def State.threshold (s : State) (f : Fld) : Int := 16 * (s.fld f : Int)

/-- Sensor `i` of the package, 96 to a tower and 16 to a die: tower × 96 + layer × 16 + sensor. -/
def State.sensorValid (s : State) (i : Nat) (v : BitVec 16) : Bool :=
  decide (-64 * 16 ≤ v.toInt ∧ v.toInt ≤ 160 * 16) && !s.ref.badSensors.contains i

/-- The highest of the valid readings, with its sensor. -/
def hottest (rs : List (Nat × BitVec 16)) : Option (Nat × BitVec 16) :=
  rs.foldl (fun m r => match m with
    | none => some r
    | some b => if b.2.toInt < r.2.toInt then some r else some b) none

def coldest (rs : List (Nat × BitVec 16)) : Option (Nat × BitVec 16) :=
  rs.foldl (fun m r => match m with
    | none => some r
    | some b => if r.2.toInt < b.2.toInt then some r else some b) none

/-- A reading clamped from below. -/
def atLeast (v : BitVec 16) (limit : Int) : BitVec 16 := if v.toInt < limit then BitVec.ofInt 16 limit else v

/-- Readings of the valid sensors of tower `t`. -/
def State.validOf (s : State) (rs : List (Nat × BitVec 16)) (t : Nat) : List (Nat × BitVec 16) :=
  rs.filter fun r => r.1 / 96 == t && s.sensorValid r.1 r.2

/-- TEMP and TWR_TMAX of tower `t` (R341). -/
def State.convertTower (s : State) (rs : List (Nat × BitVec 16)) (t : Nat) : State :=
  let s := (rs.filter fun r => r.1 / 96 == t).foldl (fun s r =>
    s.setReg .TEMP [t, r.1 % 96 / 16, r.1 % 16] (BitVec.ofNat 64 (r.2.toNat + 65536 * b2n (s.sensorValid r.1 r.2)))) s
  let valid := s.validOf rs t
  let degraded := (List.range 6).any fun l => decide ((valid.filter fun r => r.1 % 96 / 16 == l).length < 4)
  let top := (hottest valid).getD (96 * t, 0)
  let v := if degraded then atLeast top.2 (s.threshold F.PKG_THRESH.TTHROTTLE) else top.2
  s.setReg .TWR_TMAX [t] (BitVec.ofNat 64
    (b2n degraded * 2 ^ 31 + top.1 % 96 / 16 * 2 ^ 28 + top.1 % 16 * 2 ^ 24 + v.toNat))

def State.towerMax (s : State) (t : Nat) : Int := signedOf 16 (s.fld F.TWR_TMAX.VALUE [t])

/-- Package maximum, minimum and flags. -/
def State.convertPackage (s : State) (rs : List (Nat × BitVec 16)) : State :=
  let valid := rs.filter fun r => s.sensorValid r.1 r.2
  let top := (hottest valid).getD (0, 0)
  let low := (coldest valid).getD (0, 0)
  let s := (s.put F.PKG_THERM.TMAX top.2.toNat).put F.PKG_THERM.TMIN low.2.toNat
  let s := s.put F.PKG_THERM.TOWER (top.1 / 96)
  s.put F.PKG_THERM.DEGRADED (b2n ((List.range 4).any fun t => s.flag F.TWR_TMAX.DEGRADED [t]))

/-- TWARN is set at its value and clears 5 °C below it. -/
def warnNow (was : Bool) (v limit : Int) : Bool := if limit ≤ v then true else if v ≤ limit - 80 then false else was

def thermalBase (t : Nat) : Nat := 0x030001000000 + t * 0x01000000 + 0x580000

/-- TWARN is reached: a record, an event and an alert. -/
def State.warn (s : State) (t : Nat) : State :=
  ((s.recordPower t 4).orBits F.REF_STAT.ALERTS 8).blockEvent (0x3200 + t) (thermalBase t)

def State.nmiThermalAll (s : State) : State := { s with engines := s.engines.map fun en => { en with nmiThermal := true } }

def State.setLevels (s : State) (t tl pl : Nat) : State :=
  let level := max tl pl
  let div := if level < 9 then 0 else if level = 9 then 1 else 2
  let mv := if level ≤ 10 then 750 else 750 - (level - 10) * 25
  let s := ((s.put F.TPWR_STAT.TLEVEL tl [t]).put F.TPWR_STAT.PLEVEL pl [t]).put F.TPWR_STAT.LEVEL level [t]
  let s := (s.put F.TPWR_STAT.DIV div [t]).put F.TPWR_STAT.VLOGIC mv [t]
  [2, 3, 4].foldl (fun s n => s.put F.CLKDOM_CFG.DIV div [t, n]) s

def State.tlevel (s : State) (t : Nat) : Nat := s.fld F.TPWR_STAT.TLEVEL [t]
def State.plevel (s : State) : Nat := s.fld F.TPWR_STAT.PLEVEL [0]

/-- A tower's crossings of TWARN and TCRIT. `was` holds the tower's former maximum. -/
def State.crossings (s : State) (t : Nat) (was : Int) : State :=
  let v := s.towerMax t
  let warnAt := s.threshold F.PKG_THRESH.TWARN
  let s := if warnAt ≤ v ∧ was < warnAt ∧ !s.flag F.PKG_THERM.WARN then s.warn t else s
  if 125 * 16 ≤ v then
    let s := if was < 125 * 16 then (s.recordPower t 5).nmiThermalAll else s
    s.setLevels t 14 s.plevel
  else s

/-- THROTTLE reads 1 while a tower's thermal level is above 0. -/
def State.throttleFlag (s : State) : State := s.put F.PKG_THERM.THROTTLE (b2n ((List.range 4).any fun t => s.tlevel t != 0))

def State.convert (s : State) (readings : List (BitVec 16)) : State :=
  let rs := (List.range 384).zip readings
  let old := (List.range 4).map fun t => (t, s.towerMax t)
  let s := (List.range 4).foldl (fun s t => s.convertTower rs t) s
  let s := s.convertPackage rs
  let s := old.foldl (fun s o => s.crossings o.1 o.2) s
  let hot := (List.range 4).foldl (fun m t => max m (s.towerMax t)) (-32768)
  let s := s.put F.PKG_THERM.WARN (b2n (warnNow (s.flag F.PKG_THERM.WARN) hot (s.threshold F.PKG_THRESH.TWARN)))
  (s.put F.PKG_THERM.CRIT (b2n (decide (125 * 16 ≤ signedOf 16 (s.fld F.PKG_THERM.TMAX))))).throttleFlag

/-- A conversion gives one reading for each of the 384 sensors. -/
def execTemperatureConversion (readings : List (BitVec 16)) (s : State) : Out :=
  if readings.length = 384 then .next (s.convert readings).settleV else .fault .malformedCommand

/-- A TSHUT comparator trips. -/
def execTshut (s : State) : Out :=
  let s := (s.recordPower 0 6 true).removeStacks
  let s : State := { s with ref := { s.ref with powerLock := true } }
  .next ((s.losePersona).put F.PKG_THERM.SHUTDOWN 1).settleV

def execThermalLevelUpdate (t : Tower) (s : State) : Out :=
  let v := s.towerMax t.val
  let limit := s.threshold F.PKG_THRESH.TTHROTTLE
  let l := s.tlevel t.val
  let l := if limit ≤ v then min 14 (l + 1) else if v ≤ limit - 80 then l - 1 else l
  .next (s.setLevels t.val l s.plevel).throttleFlag

/-! ### Input power and the cap (R346 to R348) -/

def State.setPlevel (s : State) (l : Nat) : State := (List.range 4).foldl (fun s t => s.setLevels t (s.tlevel t) l) s

/-- The power controller's comparison; `heldBelow` says that the power has stayed below 95 % of the cap for 1 ms. While laps
are halted with the level at 14 after POWER_CAP, the level stays. -/
def State.powerUpdate (s : State) (pin : Nat) (heldBelow : Bool) : State :=
  let cap := s.fld F.PKG_CAP.EFFECTIVE
  let s := s.put F.PKG_INPUT.PIN pin
  let l := s.plevel
  if cap < pin then s.setPlevel (min 14 (l + 1))
  else
    let s : State := { s with ref := { s.ref with powerCapHalt := false } }
    if heldBelow ∧ 100 * pin < 95 * cap ∧ !(l = 14 ∧ !s.lapsRun ∧ s.ref.cause = 0x0C) then s.setPlevel (l - 1) else s

def execPowerLevelUpdate (pin : BitVec 16) (heldBelow : Bool) (s : State) : Out := .next (s.powerUpdate pin.toNat heldBelow)

/-- The effective cap is the lowest of 2,600 W, the VIN cap and the installer's cap. -/
def State.effectiveCap (s : State) : State :=
  let c := s.fld F.PKG_CAP.CAP
  let e := min 2600 (s.fld F.PKG_CAP.VIN_CAP)
  s.put F.PKG_CAP.EFFECTIVE (if c = 0 then e else min e c)

/-- The VIN cap: 245 A × 0.92 below 10.8 V, in whole watts (R28). -/
def vinCap (mv : Nat) : Nat := if mv < 10800 then mv * 245 * 92 / 100000 else 2600

def execVinCapRecompute (vin iin : BitVec 16) (ilim : Bool) (s : State) : Out :=
  let s := (s.put F.PKG_INPUT.VIN vin.toNat).put F.PKG_INPUT.IIN iin.toNat
  .next ((s.put F.PKG_CAP.ILIM (b2n ilim)).put F.PKG_CAP.VIN_CAP (vinCap vin.toNat)).effectiveCap

def execPowerCapTimeout (s : State) : Out :=
  if s.plevel = 14 ∧ s.fld F.PKG_CAP.EFFECTIVE < s.fld F.PKG_INPUT.PIN then
    .next { s with ref := { s.ref with powerCapHalt := true } }
  else .next s

/-- The installer's cap as a write or PWR gives it: 0 for none, else held between 400 and 2,600 W. -/
def clampCap (n : Nat) : Nat := if n = 0 then 0 else max 400 (min 2600 n)

/-- An accepted write of the cap, which is recorded whether or not it changes the cap (R287, R350). -/
def State.setCap (s : State) (rq : Rq) (n : Nat) : State :=
  let new := clampCap n
  let role := ((s.roleOf rq).map roleCode).getD 0
  let s := s.record 8 (s.sessionOf rq) role 0 (BitVec.ofNat 64 new) 7 0 false false
  (s.put F.PKG_CAP.CAP new).effectiveCap

def State.writePkgCap (s : State) (rq : Rq) (h : Half) (v : W64) : Resp × State :=
  (.ok, s.setCap rq (if h = .high then s.fld F.PKG_CAP.CAP else fieldIn F.PKG_CAP.CAP v))

/-- PKG_THRESH: values beyond the limits are taken as the nearer limit. -/
def State.writePkgThresh (s : State) (h : Half) (v : W64) : Resp × State :=
  if h = .high then (.ok, s)
  else
    let tt := max 70 (min 115 (fieldIn F.PKG_THRESH.TTHROTTLE v))
    let tw := max 60 (min 105 (fieldIn F.PKG_THRESH.TWARN v))
    (.ok, (s.put F.PKG_THRESH.TTHROTTLE tt).put F.PKG_THRESH.TWARN tw)

/-! ### Requests (R337, R350) -/

/-- The target that a REQ value asks for, as STATE encodes it: 1 RUN, 2 SLEEP, 3 DEEP, 4 OFF. -/
def reqTarget (n : Nat) : Option Nat := match n with | 1 => some 1 | 2 => some 2 | 3 => some 3 | 4 => some 0 | _ => none

/-- PD_CTRL: any role may make a request, and only the installer may change WAKE_ON_ACCESS. -/
def State.writePdCtrl (s : State) (role : Role) (d : Nat) (h : Half) (v : W64) : Resp × State :=
  if h = .high then (.ok, s)
  else
    let wake := fieldIn F.PD_CTRL.WAKE_ON_ACCESS v
    if wake ≠ s.fld F.PD_CTRL.WAKE_ON_ACCESS [d] ∧ role ≠ .installer then (.roleDenied, s)
    else
      let s := s.put F.PD_CTRL.WAKE_ON_ACCESS wake [d]
      match reqTarget (fieldIn F.PD_CTRL.REQ v) with
      | some target => (.ok, s.pdRequest d target)
      | none => (.ok, s)

end Sys2Proof.Machine
end

