-- ==== Sys2Proof/Machine/Reset.lean ====
section
/-! DEFINITION. Resets of a layer, a tower and the package, the power-on reset, and clock monitors whose failure resets or hands
over (R56, R125, R174, R315 to R317, R386 to R389, R422). -/

namespace Sys2Proof.Machine

/-! ### What a reset does to laps, loads and requests -/

/-- The queue that an error record of a posted write names: that of the doorbell page, or 0xFFFF (*Error record*). -/
def queueAt (a : Nat) : Nat := if spaceOf a = .doorbell then (a - 0x040000000000) / 0x1000 else 0xFFFF

/-- A store on its way gets its answer: the first of this address that has none. -/
def fillStore (addr : W64) (r : Byte) : List Store → List Store
  | [] => []
  | st :: rest => if st.addr = addr ∧ st.resp.isNone then { st with resp := some r } :: rest else st :: fillStore addr r rest

/-- A load that the engine waits for with a request held at a fence. -/
def Engine.heldLoad (en : Engine) (a : Nat) : Option (Gpr × LoadForm × W64) :=
  match en.waiting with
  | some (.access rd form addr) => if addr.toNat = a ∧ !en.frozen then some (rd, form, addr) else none
  | _ => none

/-- A request that is refused: a posted one leaves an error record, any other is answered. -/
def State.refuse (s : State) (rq : Rq) (op : ReqOp) (addr : Nat) (r : Resp) : State :=
  match op with
  | .read => s.answer rq true r 0 0
  | .amoadd _ => s.answer rq true r 0 0
  | .write _ => s.answer rq false r 0 0
  | .posted _ => s.postedFailed rq r (queueAt addr) (BitVec.ofNat 64 addr)
  | .queue q (.push _) => s.postedFailed rq r q.val (BitVec.ofNat 64 addr)
  | .queue _ (.delivery _) => s
  | .queue _ _ => s.answer rq true r 0 0
  | .maint _ => s
  | .poolBank _ _ => s.answer rq false r 0 0

/-- An accepted request goes on under the role and session it was accepted with (R286). -/
def State.carrying (s : State) (role : Role) (session : BitVec 16) (f : State → State) : State :=
  { f { s with carried := some (role, session) } with carried := none }

/-- The request of an instruction or a channel of an engine, or of the network, that was held, is refused; one that its requester has
timed out ends unseen. -/
def State.endHeld (s : State) (h : Held) (r : Resp) : State :=
  match h.rq.agent, h.who with
  | .engine e, .load =>
    match (s.eng e).heldLoad h.addr with
    | some (_, _, addr) => s.loadTrap e r addr
    | none => s
  | .engine e, .store => s.onEng e fun en => { en with stores := fillStore (BitVec.ofNat 64 h.addr) r.byte en.stores }
  | .engine e, .chan c => if (s.eng e).chans[c].state = .busy then s.haltMove e c r else s
  | .engine e, .instr =>
    if (s.eng e).waiting = some .held then s.spend.trap e .busError (Config.freeWord s.free) r else s
  | _, .discarded => s
  | _, _ => s.carrying h.role h.session fun s => s.refuse h.rq h.op h.addr r

/-- The requests held for the domains `ds` are answered LAYER_RESET. -/
def State.dropHeld (s : State) (ds : List Nat) : State :=
  let mine := s.held.filter fun h => ds.contains h.dom
  let s : State := { s with held := s.held.filter fun h => !ds.contains h.dom }
  mine.foldl (fun s h => s.endHeld h .layerReset) s

/-- The commit in progress is interrupted: TORN, and the committed state of the tower is undefined (R56). -/
def State.tear (s : State) (t : Nat) : State :=
  let s : State := { s with ref := { s.ref with torn := true } }
  (s.loseCommitted t).haltLaps 9 true

/-- A reset meets a lap that it touches: TORN within a commit, else the lap is scratched with LAYER_RESET. -/
def State.resetLap (s : State) (t : Nat) : State :=
  if s.fab.committing then s.tear t
  else if s.fab.phase == .undecided then s.scratchHalt 9
  else s.scratch 9 (some { tower := t, step := s.step_ t })

/-- The staged frames of the dies in reset are lost. -/
def State.loseStaged (s : State) (dies : List Nat) : State :=
  let keep := s.persona.staged.filter fun p => !dies.contains (tileDie p.1)
  { s with persona := { s.persona with staged := keep } }.put F.LOAD_STAT.STAGED
    (b2n (!keep.isEmpty || s.persona.stagedSetup.isSome))

/-- A load in progress ends with ABORTED; a pending activation is cancelled, and the staged frames of the dies in reset are lost
(R125). -/
def State.resetLoad (s : State) (dies : List Nat) : State :=
  let s := if s.persona.job.isSome then s.abortLoad else s
  if s.flag F.LOAD_STAT.ACT_PENDING then (s.put F.LOAD_STAT.ACT_PENDING 0).loseStaged dies else s

/-! ### Layer resets (R174, R387, R388) -/

/-- The power domains of a layer. -/
def layerDomains (t n : Nat) : List Nat :=
  match n with
  | 1 => (List.range 4).map fun q => pdNE t + 1 + q
  | 2 => [pdNE t + 5]
  | 3 => [pdNE t + 7, pdNE t + 8]
  | 4 => [pdNE t + 9, pdNE t + 10]
  | 5 => [pdNE t + 6]
  | _ => [pdNE t]

/-- Hold registers, next state and stream-port prefetch of a logic die are cleared. -/
def State.clearLogic (s : State) (die : Nat) : State :=
  let mine (k : Nat) : Bool := k / 128 / 4160 == die
  let s : State := { s with fab := { s.fab with
    hold := s.fab.hold.filter fun h => tileDie (h / 1024) != die
    nextState := s.fab.nextState.filter fun p => !mine p.1
    wmask := s.fab.wmask.filter fun p => !mine p.1 } }
  s.listedFlows.foldl (fun s f => if s.flowValid f && tileDie (s.flowTile f) == die then s.setDelivered f 0 else s) s

/-- A configuration layer in reset flushes its credit queues, those of the logic die that it feeds (R49). -/
def State.flushDie (s : State) (die : Nat) : State :=
  { s with fab := { s.fab with creditQ := s.fab.creditQ.filter fun c => tileDie (c.pair / 512) != die } }

/-- The logic of layer `n` is reset. -/
def State.layerReset (s : State) (t n : Nat) : State :=
  let s := if s.fab.committing then s.tear t else if s.lapNeeds t n then s.resetLap t else s
  let s := s.dropHeld (layerDomains t n)
  match n with
  | 1 =>
    { s with fab := { s.fab with commitBuf := s.fab.commitBuf.filter fun w => w.bank / 256 != t } }.resetGroupTests t
  | 2 => (s.flushDie (2 * t)).resetLoad [2 * t]
  | 5 => (s.flushDie (2 * t + 1)).resetLoad [2 * t + 1]
  | 3 => s.clearLogic (2 * t)
  | _ => s.clearLogic (2 * t + 1)

/-! ### Tower resets -/

/-- The registers of tower `t` return to reset: lap controller and engines' counters, routers, scrubber, clocks and gates, tests,
relay ports. The memory-layer block, the power and thermal registers, FRAME_BAD and what the soft repairs hold stay. -/
def State.resetTowerRegs (s : State) (t : Nat) : State :=
  let base := 0x030001000000 + t * 0x01000000
  let s := (s.clearBlock base (base + 0x1FFFFF)).clearBlock (base + 0x300000) (base + 0x3000FF)
  let s := s.clearBlock (base + 0x400000) (base + 0x4FFFFF)
  let s := (s.clearBlock (base + 0x600000) (base + 0x60000F)).clearBlock (base + 0x600040) (base + 0x60007F)
  let s := (List.range 8).foldl (fun s g => s.put F.GROUP_CFG.BUDGET 50 [t, g]) s
  s.clearBlock (base + 0x700000) (base + 0xFFFFFF)

/-- The relay ports of tower `t` go down and return to reset. -/
def State.resetRelays (s : State) (t : Nat) : State :=
  let s := (s.groupDown (8 + 14 * t)).groupDown (9 + 14 * t)
  (List.range 4).foldl (fun s i => s.onPort (4 * t + i) fun _ => {}) s

/-- The lanes of tower `t` that held soft repairs mark are FAILED again (R370). -/
def State.keepBadLanes (s : State) (t : Nat) : State :=
  (s.ref.badLanes.filter fun n => n / 32 == t).foldl (fun s n => s.markLane n) s

/-- Engines of the tower are reset and their scratchpads cleared. -/
def State.resetEngines (s : State) (t : Nat) : State :=
  (enginesOf t).foldl (fun s e => (s.resetEngine e).clearSpads e) s

/-- The target bank of the tower returns to reset; DOUT follows the lap engine's copy while a personality is active (R408). -/
def State.resetTarget (s : State) (t : Nat) : State :=
  let out := [2 * t, 2 * t + 1].map fun i => (i, s.reg .DOUT [i])
  let s := s.resetPinBank t
  if s.persona_ = 2 then out.foldl (fun s p => s.setReg .DOUT [p.1] p.2) s else s

/-- The laps, when a reset returns the lap engine to reset: they halt, and the cause reads as R56 gives. -/
def State.resetLapEngineLaps (s : State) (t : Nat) : State :=
  if !s.lapsRun then { s with ref := { s.ref with cause := 0 } }
  else if s.fab.committing then s.tear t
  else s.scratchHalt 9

/-- A tower in reset: its parts but for the laps and the load. -/
def State.resetTowerParts (s : State) (t : Nat) : State :=
  let s := s.resetTests t
  let s : State := { s with
    rotations := s.rotations.map fun r => if r.tower.val = t then { r with preCopied := false } else r
    sweeps := s.sweeps.filter fun w => w.tower.val != t
    retryTests := s.retryTests.filter fun p => p.1 != t
    holds := s.holds.filter fun h => h.tower != t }
  let s := s.dropHeld (bringUpOrder t)
  let s := (((s.resetEngines t).resetRelays t).resetTowerRegs t).keepBadLanes t
  (((s.clearLogic (2 * t)).clearLogic (2 * t + 1)).resetTarget t).forceGates

/-- Bank A and the resident areas are loaded from the boot store; bank B is then not valid (R383). -/
def State.reloadMicrocode (s : State) : State :=
  { s with mc := { s.mc with bValid := false, refused := false, swapPending := false, active := false } }

/-- A tower reset takes hold (R389). -/
def State.towerReset (s : State) (t : Fin 4) : State :=
  let s := s.resetLoad [2 * t.val, 2 * t.val + 1]
  let s := if t = 0 then s.resetLapEngineLaps 0 else if s.lapsRun then s.resetLap t.val else s
  let s := s.resetTowerParts t.val
  let s := if t = 0 then s.resetT0 else s
  let s := s.reloadMicrocode
  let runs := s.ref.resets.filter fun r => r.tower != t
  { s with ref := { s.ref with resets := runs ++ [{ tower := t, layer := none, waitsCommit := false }] } }

/-! ### The package reset -/

/-- Sessions as the package reset leaves them. -/
def State.resetSessions (s : State) : State :=
  let s := (List.range 69).foldl (fun s ix => s.clearReg .SESS [ix]) s
  let s := (List.range 4).foldl (fun s k => s.freeSlot k) s
  { s with ref := { s.ref with challenges := [] } }

/-- BANK_OWNER, the bank counts and the error logs return to reset; what the repairs and the tests in service hold stays. -/
def State.resetMemoryRegs (s : State) (t : Nat) : State :=
  let base := 0x030001200000 + t * 0x01000000
  let kept := (List.range 256).map fun b =>
    (b, s.fld F.BANK_STAT.SPARES_USED [t, b], s.fld F.BANK_STAT.SPARES_FUSED [t, b], s.fld F.BANK_STAT.PORTA_RETIRED [t, b])
  let s := ((s.clearBlock base (base + 0xFFF))).clearBlock (base + 0x1100) (base + 0x1FFF)
  kept.foldl (fun s k => if k.2.1 = 0 ∧ k.2.2.1 = 0 ∧ k.2.2.2 = 0 then s
    else ((s.put F.BANK_STAT.SPARES_USED k.2.1 [t, k.1]).put F.BANK_STAT.SPARES_FUSED k.2.2.1 [t, k.1]).put
      F.BANK_STAT.PORTA_RETIRED k.2.2.2 [t, k.1]) s

/-- PD01 to PD06: the host channel, the pins, and the security and vault block. The key store, the session registers and the size
of host memory belong to PD00 (R233, R386). -/
def State.resetPackageBlocks (s : State) : State :=
  let gib := s.fld F.HC_HOSTMEM.GIB
  let s := (s.loseHostChannel).put F.HC_HOSTMEM.GIB gib
  let s := (s.clearBlock 0x030000400000 0x0300004FFFFF).loseSecurity
  { s with
    pinNow := []
    parked := []
    ref := { s.ref with sbHostmemLocked := false } }

def State.packageReset (s : State) : State :=
  let s := s.resetLoad (List.range 8)
  let torn := s.fab.committing
  let s := s.resetLapEngineLaps 0
  let s := if torn then (((s.loseCommitted 1).loseCommitted 2).loseCommitted 3) else s
  let s := (List.range 4).foldl (fun s t => (s.resetTowerParts t).resetMemoryRegs t) s
  let s := s.resetT0.resetPackageBlocks.resetSessions.reloadMicrocode
  let s := s.setReg .PKG_ENERGY [] 0
  { s with ref := { s.ref with
      packageBusy := true
      resets := (List.finRange 4).map fun t => { tower := t, layer := none, waitsCommit := false } } }

/-! ### Requests for a reset, and its end (R387 to R389) -/

/-- A black-box record of a reset: scope and target. -/
def State.recordReset (s : State) (scope target : Nat) : State :=
  s.recordAuto 7 (BitVec.ofNat 64 (scope * 2 ^ 32 + target)) 0

/-- A tower reset is in progress. -/
def State.inTowerReset (s : State) (t : Nat) : Bool := s.ref.resets.any fun r => r.tower.val == t && r.layer == none

/-- The reset of a layer takes hold at once, or waits for the commit in progress or for an earlier reset of the tower. -/
def State.beginLayer (s : State) (t : Fin 4) (n : Nat) : State :=
  let waits := s.fab.committing || s.ref.resets.any fun r => r.tower == t
  let s : State := { s with ref := { s.ref with
    resets := s.ref.resets ++ [{ tower := t, layer := some n, waitsCommit := waits }] } }
  if waits then s else s.layerReset t.val n

/-- The first waiting reset of tower `t` takes hold. -/
def State.proceedReset (s : State) (t : Fin 4) : State :=
  match s.ref.resets.find? fun r => r.tower == t with
  | some r =>
    if !r.waitsCommit then s
    else
      let s : State := { s with ref := { s.ref with
        resets := s.ref.resets.map fun q => if q = r then { q with waitsCommit := false } else q } }
      match r.layer with
      | some n => s.layerReset t.val n
      | none => s
  | none => s

/-- The resets that waited for a commit take hold when it is over. -/
def State.proceedResets (s : State) : State :=
  if s.fab.committing then s else (List.finRange 4).foldl (fun s t => s.proceedReset t) s

/-- The commit that a layer reset waits for has not completed in 3 µs: the reset proceeds (R56). -/
def execLayerResetProceed (t : Tower) (layer : Fin 6) (s : State) : Out :=
  match s.ref.resets.find? fun r => r.tower == t with
  | some r => if r.waitsCommit && r.layer == some layer.val then .next (s.proceedReset t).settleV else .next s
  | none => .next s

/-- What the Referee does when the towers are released: resident areas, loops, pin maps, and gates once no tower is in reset. -/
def State.releaseTower (s : State) (t : Nat) : State :=
  let s := (enginesOf t).foldl (fun s e => s.loadResident e) s
  let s := (bringUpOrder t).foldl (fun s d =>
    if s.pd d = 0 then s else (loopsIn d).foldl (fun s c => s.startLoop c) s) s
  let s := s.takePinMap t
  if s.ref.resets.isEmpty ∧ s.ref.sbState = 2 then s.unforceGates else s

/-- A gather ends the commit that resets may wait for. -/
def execGather (pads : BitVec 512) (s : State) : Out := .next (s.gather pads).proceedResets.settleV
def execLapCommit (entry : Option (Nat × Ecc)) (s : State) : Out :=
  .next (match entry with | some p => s.checkEntry p.1 p.2 | none => s).verifyEnds.settleV

def execResetN (s : State) : Out := .next ((s.recordReset 1 0).packageReset).settleV

/-! ### Monitors (R315 to R317) -/

/-- The Referee's copy that serves fails over to the replica (R374). -/
def State.failover (s : State) : State :=
  if !s.flag F.REF_STAT.REPLICA_OK then
    { s with ref := { s.ref with bothFailed := true } }
  else
    let s := s.put F.REF_STAT.ACTIVE (1 - s.fld F.REF_STAT.ACTIVE)
    let s := ((s.put F.REF_STAT.REPLICA_OK 0).count F.REF_STAT.FAILOVERS).orBits F.REF_STAT.ALERTS 1
    let s : State := { s with ref := { s.ref with
      restartDue := true
      overtaken := (s.ref.dumps ++ s.ref.resetWaits).map fun w => (w.1, w.2.1) } }
    s.recordAuto 0x10 0 0 true

def execHeartbeatTimeout (s : State) : Out := .next s.failover

/-- One second after a failover the failed copy is restarted once. -/
def execReplicaRestart (selfTestOk : Bool) (s : State) : Out :=
  if !s.ref.restartDue then .next s
  else
    let s : State := { s with ref := { s.ref with restartDue := false } }
    .next ((s.put F.REF_STAT.REPLICA_OK (b2n selfTestOk)).recordAuto 0x10 1 0 true)

def State.refFioWindow (s : State) (ok : Bool) : State :=
  let s : State := { s with ref := { s.ref with refFioFailed := !ok } }
  if ok then s else (s.sourceFails 3).failover

/-- A monitor's window of 512 cycles ends with a count of edges. -/
def execMonitorWindow (src : ClkSrc) (count : BitVec 16) (s : State) : Out :=
  let ok := windowOk src count.toNat
  .next (match src with
    | .domLoop t n => s.loopWindow (.dom t n) src count
    | .pkgLoop k => s.loopWindow (.pkg k) src count
    | .fioT t => s.fioWindow t.val ok
    | .sioT t => if ok then s else s.sourceFails (12 + t.val)
    | .refFio => s.refFioWindow ok
    | .refSio => if ok then s else s.sourceFails 4
    | .xtala => s.xtalaWindow ok
    | .xtalb => s.xtalbWindow ok
    | .refclk => if ok || s.ref.straps.ref then s else s.sourceFails 2).settleV

/-- STOPPED has lasted 100 µs: the Referee resets the tower whose die holds the loop. -/
def execDomainStoppedTimeout (d : ClkDom) (s : State) : Out :=
  if s.clkFlag d F.CLKDOM_STAT.STOPPED then
    let t : Fin 4 := Fin.ofNat 4 (clkTower d)
    let s := s.clkPut d F.CLKDOM_STAT.STOPPED 0
    .next (if s.inTowerReset t.val then s else (s.recordReset 2 t.val).towerReset t).settleV
  else .next s

/-! ### Power-on reset (R370, R371, R382, R383, R386) -/

/-- Copies of the registers of the key store. -/
def keptRegs : List (RegName × List Nat) :=
  (List.range 64).map (fun i => (RegName.ROSTER, [i])) ++ (List.range 8).map (fun i => (RegName.IMGKEY, [i])) ++
    (List.range 12).map fun i => (RegName.CRED, [i])

/-- A fused repair of tower `t` is applied before the tower's domains come up. -/
def State.applyFused (s : State) (t : Nat) (w : W64) : State :=
  let item := bitsOf w 17 0
  let row := bitsOf w 36 31
  let pcol := bitsOf w 30 24
  let s := s.put F.FUSE_CTRL.FREE (s.fld F.FUSE_CTRL.FREE [t] - 1) [t]
  match bitsOf w 63 56 with
  | 1 => (s.count F.BANK_STAT.SPARES_USED [t, item % 256]).count F.BANK_STAT.SPARES_FUSED [t, item % 256]
  | 3 =>
    let k := t * 4160 + row * 65 + pcol
    { s with ref := { s.ref with wiresUsed := Sparse.write s.ref.wiresUsed k (Sparse.read s.ref.wiresUsed k + 1) } }
  | 6 => ((s.put F.STEER.S pcol [t, row]).put F.STEER.TARGET pcol [t, row]).put F.STEER.RETIRED 1 [t, row]
  | 7 =>
    let b := item % 256
    let s := (s.put F.GROUP_CFG.PERM 1 [t, b / 32]).put F.GROUP_CFG.BANK b [t, b / 32]
    (s.put F.STANDIN_STAT.PHASE 2 [t, b / 32]).put F.STANDIN_STAT.BANK b [t, b / 32]
  | 8 => s.setReg .BANK_DEGRADED [t, item % 256 / 64] (setBits (s.reg .BANK_DEGRADED [t, item % 256 / 64]) (item % 64) (item % 64) 1)
  | 2 =>
    let k := (t * 4160 + row * 65 + pcol) * 64 + bitsOf w 23 18
    { s with ref := { s.ref with ctxWires := Sparse.write s.ref.ctxWires k (Sparse.read s.ref.ctxWires k + 1) } }
  | 4 =>
    let k := t * 256 + item % 256
    { s with ref := { s.ref with portWires := Sparse.write s.ref.portWires k (Sparse.read s.ref.portWires k + 1) } }
  | 5 =>
    let k := t * 96 + bitsOf w 39 37 * 16 + item % 16
    { s with ref := { s.ref with ctlWires := Sparse.write s.ref.ctlWires k (Sparse.read s.ref.ctlWires k + 1) } }
  | 11 => s.put F.BANK_STAT.PORTA_RETIRED 1 [t, item % 256]
  | 12 => s.layerRetired t (bitsOf w 39 37)
  | 13 =>
    { s.markLane (item % 128) with ref := { s.ref with badLanes := listAdd s.ref.badLanes (item % 128) } }
  | _ => s

/-- REF_STRAPS (*REF_STRAPS*). -/
def strapsWord (p : Straps) : W64 :=
  BitVec.ofNat 64 (p.boot.toNat * 2 ^ 18 + b2n p.ref * 2 ^ 17 + b2n p.ssc * 2 ^ 16 + b2n p.idle * 2 ^ 15 + b2n p.anchor * 2 ^ 14 +
    b2n p.lab * 2 ^ 13 + p.bankv.toNat)

/-- A bank voltage strap is reserved. -/
def bankvFault (p : Straps) : Bool := (List.range 4).any fun b => decide (4 < bitsOf p.bankv (3 * b + 2) (3 * b))

/-- SB_STATE as the straps start it. -/
def startState (p : Straps) : Nat := if p.boot = 2 then 3 else if p.boot = 3 then 4 else 0

/-- What the Referee is to bring up before a boot image has come: the package domains; and for a relay boot every tower's
network-and-engines domain and relay groups (R385). In HOLD, nothing (R382). -/
def startOrder (p : Straps) : List Nat :=
  if p.boot = 2 then []
  else [1, 6, 2, 3, 4, 5] ++ (if p.boot = 1 then (List.range 4).flatMap fun t => [pdNE t, 8 + 14 * t, 9 + 14 * t] else [])

/-- The state that a power-on reset starts from, with the straps sampled; fuses, key store, black box and what lies outside the
package stay. -/
def State.powerOn (s : State) (p : Straps) : State :=
  let s' : State := { State.reset with
    hostmem := s.hostmem
    vault := { foreign := s.vault.foreign, stale := s.leftBehind ++ s.vault.stale }
    pads := s.pads
    free := s.free
    pending := s.pending
    ref := { State.reset.ref with
      straps := p
      keys := s.ref.keys
      roster := s.ref.roster
      fuseWords := s.ref.fuseWords
      fused := s.ref.fused
      bb := s.ref.bb
      sbState := startState p
      bringUp := startOrder p } }
  let s' := keptRegs.foldl (fun s' r => s'.setReg r.1 r.2 (s.reg r.1 r.2)) s'
  let s' := s'.setReg .REF_STRAPS [] (strapsWord p)
  let s' := if bankvFault p then (s'.put F.REF_STAT.BANKV_FAULT 1).orBits F.REF_STAT.ALERTS 32 else s'
  let s' := if p.boot = 1 then (List.range 16).foldl (fun s k => s.put F.PORT_CTRL.EN 1 (portIx k)) s' else s'
  s'.ref.fused.foldl (fun s' r => s'.applyFused r.1 r.2) s'

def execPowerOnReset (straps : Straps) (s : State) : Out :=
  let s := s.powerOn straps
  .next (s.recordAuto 1 0 (s.reg .REF_STRAPS) true)

end Sys2Proof.Machine
end

