-- ==== Sys2Proof/Machine/ReadView.lean ====
section
/-! DEFINITION. What a register read returns: stored values, and the values that a register takes from elsewhere in the state
(R8, R9, R12, R100, R209, R221, R394). -/

namespace Sys2Proof.Machine

/-! ### The black box's window (R390, R391, R394) -/

/-- The first 60 bytes of record `n`, counted from 0 since the black box began. -/
def bbBody (n : Nat) (r : BBRec) : List Byte :=
  bytesOf 6 (n + 1) ++ [r.cls] ++
    [BitVec.ofNat 8 (b2n r.pinned + 2 * b2n r.sioTime + 4 * b2n r.replica + 8 * b2n r.auto)] ++
    bytesOf 8 r.time.toNat ++ bytesOf 2 r.session.toNat ++ [r.role, r.code] ++ bytesOf 4 r.lap.toNat ++
    bytesOf 8 r.object.toNat ++ bytesOf 8 r.detail0.toNat ++ bytesOf 8 r.detail1.toNat ++ bytesOf 8 r.detail2.toNat ++
    bytesOf 4 0

def bbBytes (n : Nat) (r : BBRec) : List Byte := bbBody n r ++ bytesOf 4 (crc32c (bbBody n r)).toNat

def ringRecords : Nat := 126976
def pinnedRecords : Nat := 4096

/-- The pinned records, each with its number. -/
def State.pinned (s : State) : List (Nat × BBRec) :=
  ((List.range s.ref.bb.length).zip s.ref.bb).filter fun p => p.2.pinned

/-- The number of the latest record at place `i` of the general ring. -/
def latestAt (n i : Nat) : Option Nat := if n ≤ i then none else some ((n - 1 - i) / ringRecords * ringRecords + i)

/-- The 64 bytes at index `i` of a copy; a place that holds no record reads as zero (notes/assumptions 62). -/
def State.bbAt (s : State) (i : Nat) : List Byte :=
  let none_ := bytesOf 64 0
  if i < ringRecords then
    match latestAt s.ref.bb.length i with
    | none => none_
    | some n => match s.ref.bb[n]? with
      | some r => bbBytes n r
      | none => none_
  else match s.pinned[i - ringRecords]? with
    | some p => bbBytes p.1 p.2
    | none => none_

/-- The index after `k` others, wrapping within its area. -/
def bbIndex (i k : Nat) : Nat :=
  if i < ringRecords then (i + k) % ringRecords else ringRecords + (i - ringRecords + k) % pinnedRecords

def State.bbStat (s : State) : W64 :=
  let n := s.ref.bb.length
  let p := min pinnedRecords s.pinned.length
  BitVec.ofNat 64 (p * 2 ^ 48 + b2n (p == pinnedRecords) * 2 ^ 43 + s.fld F.BB_STAT.COPY_FAULT * 2 ^ 41 +
    min (n / ringRecords) 0xFFFFFF * 2 ^ 17 + n % ringRecords)

/-! ### Values from elsewhere -/

def State.qStat (s : State) (q : Nat) : W64 :=
  BitVec.ofNat 64 (b2n (s.flag F.Q_STAT.HIGH [q]) * 2 ^ 63 + b2n (s.flag F.Q_STAT.FAULTED [q]) * 2 ^ 62 +
    b2n ((s.headCell q).any fun c => c.poison) * 2 ^ 61 + b2n (s.qHeld q) * 2 ^ 60 + b2n (s.ringFull q) * 2 ^ 59 +
    s.credits q * 2 ^ 21 + s.qCount q)

def State.tlcStat (s : State) (t : Nat) : W64 :=
  BitVec.ofNat 64 ((s.inUseOf t).length * 2 ^ 32 + s.step_ t * 65536 + b2n (s.waitsContext t) * 2048 +
    b2n (s.towerWaits t [118]) * 1024 + b2n (s.towerWaits t [116, 117]) * 512 +
    b2n (s.fab.phase == .steps && s.allStepsDone && s.verdictOpen) * 256 + s.fld F.TLC_STAT.PHASE [t])

def State.testStat (s : State) (t : Nat) : W64 :=
  let on (slot : TestSlot) : Bool := s.tests.any fun r => r.tower.val == t && r.slot == slot
  BitVec.ofNat 64 (s.fld F.TEST_STAT.SWEEP_DONE [t] * 2 ^ 32 +
    natOfBits ((List.finRange 8).map fun g => on (.group g)) * 256 + b2n (s.sweeps.any fun w => w.tower.val == t) * 8 +
    b2n (on .analog) * 4 + b2n (on .tile) * 2 + b2n (s.rotations.any fun r => r.tower.val == t))

/-- A host line whose verdict is outstanding was written into the bank (R166). -/
def State.bankVerdictWait (s : State) (t b : Nat) : Bool :=
  s.vault.bankVerdicts.any fun p => memTower (p.1 * 16) == t && memBank (p.1 * 16) == b

def State.bankStat (s : State) (t b : Nat) : W64 :=
  let c := s.standinFor t b && (s.standinPhase t (b / 32) == 1 || s.standinPhase t (b / 32) == 3)
  (s.reg .BANK_STAT [t, b] &&& ~~~(0x16 : W64)) |||
    BitVec.ofNat 64 (b2n (s.bankVerdictWait t b) * 16 + b2n (s.standinServes t b) * 4 + b2n c * 2)

def State.bankCfg (s : State) (b : Nat) : W64 :=
  let volt := bitsOf s.ref.straps.bankv (3 * b + 2) (3 * b)
  BitVec.ofNat 64 (b2n (decide (4 < volt)) * 32 + volt * 4 + b2n s.ref.straps.idle * 2 + s.fld F.BANK_CFG.ASYNC [b])

/-- A HELLO fault at some port, or a member whose way to the anchor is not its PARENT port (R262, R263). -/
def State.configFault (s : State) : Bool :=
  (List.range 16).any (fun p => s.flag F.CHAIN_PORT.HELLO_FAULT [p]) ||
    (s.chainMode == 2 && !s.parentRouted)

def State.bridgeStat (s : State) (b : Nat) : W64 :=
  let h := s.bridge b
  let out := s.bridgeEn b && !s.bridgeIn b
  BitVec.ofNat 64 (h.unacked.length * 2 ^ 32 + (if out then min h.granted 0xFFFF else 0) * 65536 +
    b2n (s.bridgeEn b && (s.routeTo (s.bridgePeer b)).isNone))

def State.flowStat (s : State) (f : Nat) : W64 :=
  let x := s.flowTile f
  let present := (s.presented x (s.fld F.FLOW_BIND.PORT [f])).isSome
  BitVec.ofNat 64 (s.fld F.FLOW_STAT.STARVED [f] * 128 + b2n (s.flowWaitsIn f) * 64 + b2n (s.flowWaitsOut f) * 32 +
    b2n (s.flowValid f && present) * 16)

def State.secStat (s : State) : W64 :=
  (s.reg .SEC_STAT &&& ~~~(7 : W64)) |||
    BitVec.ofNat 64 (b2n s.claimed * 4 + b2n s.ref.straps.lab * 2 + b2n s.labMode)

/-- The digest words of the identity key (R288). -/
def digestWord (i : Nat) : W64 := wordAt idDigest i

/-- OVF bits of a list of counters. -/
def wrapBits (is : List Nat) : W64 := is.foldl (fun v i => v ||| BitVec.ofNat 64 (2 ^ i)) 0

/-- The value that a 64-bit read of copy `ix` of a register returns. -/
def State.regView (s : State) (r : RegName) (ix : List Nat) : W64 :=
  let v := s.reg r ix
  let with_ (m n : Nat) : W64 := (v &&& ~~~(BitVec.ofNat 64 m)) ||| BitVec.ofNat 64 n
  match r, ix with
  | .LAP_STAT, _ => with_ 0x7FFFFF (bitsOf s.lapStatus 21 0 + b2n s.fab.stopAsked * 2 ^ 22)
  | .LAP_POS, _ => BitVec.ofNat 64 s.pos
  | .SCHED_STAT, _ => BitVec.ofNat 64 (s.pos * 256 + s.kind)
  | .BENCH_STAT, _ =>
    BitVec.ofNat 64 (b2n (s.fab.boundaryWrites.any fun w => decide (0x030000900600 ≤ w.1 ∧ w.1 < 0x030000900640)) * 256 +
      s.benchActive.toNat % 256)
  | .TLC_STAT, [t] => s.tlcStat t
  | .Q_STAT, [q] => s.qStat q
  | .CNT_T, [_, _, n] => s.counter (unitOf true ix) n
  | .CNT_P, [_, n] => s.counter (unitOf false ix) n
  | .PKG_ENERGY, _ => Config.freeEnergy s.free
  | .TPWR_STAT, [t] => (v &&& ~~~(0xFFFF000000000000 : W64)) ||| ((Config.freePower t s.free).setWidth 64 <<< 48)
  | .POOL_STAT, _ => BitVec.ofNat 64 (s.poolTotal * 2 ^ 32 + s.poolFree)
  | .POOL_BANK, [i] => with_ 0x20000 (b2n (s.poolDrained i) * 0x20000)
  | .FLOW_STAT, [f] => s.flowStat f
  | .ROUTER_STAT, [t, n] =>
    with_ 0xFF7F03 (s.fencedPorts t n * 65536 + (s.wakeHeld t n).length * 256 +
      b2n (decide (1 < (s.routerHolds t n).length)) * 2 + b2n (decide (0 < (s.routerHolds t n).length)))
  | .HC_HOSTMEM, _ => v
  | .CHAIN_STAT, _ => with_ 0x10 (b2n s.configFault * 16)
  | .BRIDGE_STAT, [b] => s.bridgeStat b
  | .SEC_STAT, _ => s.secStat
  | .ID_DIGEST, [i] => digestWord i
  | .ID_BUNDLE, [i] => BitVec.ofNat 64 (joinBytes (bundleBytes (8 * i) 8))
  | .ROSTER, [i] => with_ 2 (b2n (s.rosterInUse i) * 2)
  | .VAULT_STAT, _ => s.vaultStat
  | .TEST_STAT, [t] => s.testStat t
  | .OVF_STAT_T, ix => v ||| wrapBits (s.wrapped (unitOf true ix))
  | .OVF_STAT_P, ix => v ||| wrapBits (s.wrapped (unitOf false ix))
  | .BANK_STAT, [t, b] => s.bankStat t b
  | .BANK_CFG, [b] => s.bankCfg b
  | .PAD_IN, [i] => wordAt s.pads i
  | .MBX_STAT, [_, _] => v
  | .MBX_STAT, [m] =>
    match s.ref.slots.toList[m]? with
    | some l => BitVec.ofNat 64 (((l.owner.map BitVec.toNat).getD 0) * 2 ^ 48 + l.state)
    | none => 0
  | .BB_STAT, _ => s.bbStat
  | .BB_WINDOW, [w] => BitVec.ofNat 64 (leField (s.bbAt (bbIndex (s.fld F.BB_SEL.INDEX) (w / 8))) (8 * (w % 8)) 8)
  | .LANE_EQ, [t, j, i] => s.laneEq (4 * t + j) i
  | .LANE_ERR, [t, j, i] => setBits v 31 0 (s.prbsErrors (4 * t + j) i)
  | .DB_CREDIT, [q] => s.creditRead q
  | .DB_RING_PI, [q] => BitVec.ofNat 64 (s.ringPi q)
  | .DB_RING_CI, [q] => BitVec.ofNat 64 (s.ringCi q)
  | .DB_STAT, [q] => s.qStat q
  | r, _ => v &&& ~~~(BitVec.ofNat 64 (r.mask [.wo]))

/-- Registers that a read measures: counters of what no command carries, the meters of energy and power, and the coefficients of
a receiver that adapts (notes/assumptions 3). -/
def State.measured (s : State) : RegName → List Nat → Bool
  | .CNT_T, [t, j, n] => s.countsUnseen (unitOf true [t, j, n]) n
  | .CNT_P, [k, n] => s.countsUnseen (unitOf false [k, n]) n
  | .PKG_ENERGY, _ => true
  | .TPWR_STAT, _ => true
  | .LANE_EQ, [t, j, i] => s.adapting (4 * t + j) i
  | _, _ => false

/-- OVF bits that a read has found stay set until they are cleared; their overflow events have been sent (R149, R150). -/
def State.latchUnit (s : State) (u : Nat) : State :=
  let is := s.wrapped u
  if is.isEmpty then s
  else is.foldl (fun s i =>
    if (s.fld (unitFields (unitIx u).1).ovf (unitIx u).2).testBit i then s
    else (s.orBits (unitFields (unitIx u).1).ovf (2 ^ i) (unitIx u).2).overflowEvent u i) s.spend

/-- What a read has shown of something that goes on counting stands from then on. -/
def State.latchWraps (s : State) (r : RegName) (ix : List Nat) : State :=
  match r, ix with
  | .OVF_STAT_T, ix => s.latchUnit (unitOf true ix)
  | .OVF_STAT_P, ix => s.latchUnit (unitOf false ix)
  | .LANE_ERR, [t, j, i] => s.latchPrbs (4 * t + j) i
  | _, _ => s

/-- The effect of a read on the register: RC fields in the half read are cleared (R9, R12), and a measured value is used up. -/
def State.afterRead (s : State) (r : RegName) (ix : List Nat) (h : Half) : State :=
  let s := if s.measured r ix then s.spend else s.latchWraps r ix
  if r.mask [.rc] = 0 then s
  else s.setReg r ix (s.reg r ix &&& ~~~(BitVec.ofNat 64 (r.mask [.rc] &&& h.mask)))

/-- What a read of half `h` returns: 64 bits, or the half in bits [31:0]. -/
def Half.pick (h : Half) (v : W64) : W64 :=
  match h with
  | .full => v
  | .low => v &&& 0xFFFFFFFF
  | .high => v >>> 32

/-! ### The engine register block (R100) -/

/-- A 64-bit read at offset `off` of engine `e`'s block; none at an unassigned offset. -/
def State.engineView (s : State) (e : Eng) (off : Nat) : Option W64 :=
  let en := s.eng e
  if off = 0 then some en.pc64
  else if 0x100 ≤ off ∧ off < 0x200 then
    some (if en.frozen then en.get (Fin.ofNat 32 ((off - 0x100) / 8)) else 0)
  else if 0x8000 ≤ off then some ((s.special e ((off - 0x8000) / 8)).getD 0)
  else none

/-- A target of a register access: a register of the map, or an offset of an engine's block. -/
inductive RegTarget where
  | reg (r : RegName) (ix : List Nat)
  | engine (e : Eng) (off : Nat)
  deriving DecidableEq, Repr

/-- The pacers that exist: those of the endpoints of the tower (R225). -/
def copyAssigned : RegName → List Nat → Bool
  | .PACER, [t, e, _] => (endpointNo t e).isSome
  | _, _ => true

/-- The engine block of an address, with the offset in it. -/
def engineBlock (a : Nat) : Option (Eng × Nat) :=
  let o := a - 0x030001000000
  let b := o % 0x1000000
  if a < 0x030001000000 ∨ 0x030005000000 ≤ a ∨ b < 0x10000 ∨ 0x50000 ≤ b then none
  else some (Fin.ofNat 16 (4 * (o / 0x1000000) + (b - 0x10000) / 0x10000), b % 0x10000)

/-- What an address of register space or of the doorbell registers reaches. -/
def targetAt (a : Nat) : Option RegTarget :=
  match engineBlock a with
  | some (e, off) =>
    if off % 8 = 0 ∧ (off = 0 ∨ (0x100 ≤ off ∧ off < 0x200) ∨ 0x8000 ≤ off) then some (.engine e off) else none
  | none => match regAt a with
    | some (r, ix) => if copyAssigned r ix then some (.reg r ix) else none
    | none => none

end Sys2Proof.Machine
end

