-- ==== Sys2Proof/Machine/Boot.lean ====
section
/-! DEFINITION. Boot and microcode images: how the Referee fetches, verifies and takes them (R127, R383 to R385). -/

namespace Sys2Proof.Machine

/-! ### The checks (R127) -/

/-- The records of a section of a boot image: 0, or the result of the first fault. -/
def bootRecords : Nat → Nat → List Byte → Nat
  | 0, _, _ => 9
  | n + 1, sec, bs =>
    if bs.isEmpty then 0
    else
      let d := bs.take 64
      let x := descOf d
      let padded := (x.len + 15) / 16 * 16
      let body := (bs.drop 64).take padded
      if bs.length < 64 + padded || !descOk 3 sec d then 9
      else if (crc32c (body.take x.len)).toNat ≠ x.crc then 0xA
      else if x.kind ≠ 0x10 ∧ x.kind ≠ 0x11 then 0xB
      else bootRecords n sec (bs.drop (64 + padded))

/-- Sections `i` and up, with the number of digest segments before them; a section of at most 1 MiB is one segment. -/
def bootSections (bs : List Byte) : List Nat → Nat → Nat
  | [], _ => 0
  | i :: rest, seg =>
    let h := bs.take 4096
    let sec := (bs.drop (hSection h i).1).take (hSection h i).2
    if sec.isEmpty then bootSections bs rest seg
    else match bootRecords (sec.length / 64 + 1) i sec with
      | 0 => if Config.sha384 sec = digestAt bs (0x1000 + 48 * seg) then bootSections bs rest (seg + 1) else 0xF
      | r => r

/-- Check 1 of a boot image. -/
def bootHeaderOk (h : List Byte) (len : Nat) : Bool :=
  headerForm h len && hKind h == 3 && hKeyslot h == 0 && !hUnsigned h && decide (len ≤ 0x100000)

/-- The result of verifying a boot image of these bytes: 0, or a load result code. -/
def bootCheck (bs : List Byte) : Nat :=
  let h := bs.take 4096
  if !bootHeaderOk h bs.length then 1
  else if !lockOk h then 4
  else if !sigOk Config.makerKey h then 6
  else if !tableOk h ((bs.drop 0x1000).take (tableLen h)) then 8
  else bootSections bs (List.range 5) 0

/-- The image at host address `a`, fetched over module 0: its bytes, or the response that the fetch failed with. A header whose
LENGTH cannot be a boot image's is all that is fetched. -/
def State.fetchImage (s : State) (a : Nat) : Resp × List Byte × State :=
  match s.loaderFetch .operator 0 (0x800000000000 + a) 4096 with
  | (.ok, h, _, s) =>
    let len := leField h 8 8
    if len < 4096 ∨ 0x100000 < len ∨ len % 16 ≠ 0 then (.ok, h, s)
    else match s.loaderFetch .operator 0 (0x800000000000 + a) len with
      | (.ok, bs, _, s) => (.ok, bs, s)
      | (r, _, _, s) => (r, [], s)
  | (r, _, _, s) => (r, [], s)

/-! ### Taking an image -/

/-- The BOOT record of an image: result, version and the first 8 bytes of ROOT. -/
def State.recordBoot (s : State) (session role result : Nat) (bs : List Byte) (auto : Bool) : State :=
  s.record 2 session role (result % 256) 0
    (BitVec.ofNat 64 (result + (Config.microcodeVersion bs).toNat * 65536)) (rootHead (hRoot bs)) true auto

/-- A boot image has failed: the result is reported and another is awaited (R127). -/
def State.bootFails (s : State) (result : Nat) (bs : List Byte) : State :=
  let s := (s.put F.REF_STAT.BOOT_RESULT result).orBits F.REF_STAT.ALERTS 2
  let s : State := if s.ref.sbState = 4 then s else { s with ref := { s.ref with sbState := 1 } }
  s.recordBoot (4 * 8192) 0 result bs true

/-- A boot image has verified: it stays in the boot store, microcode bank A is its, and start-up goes on (R383, R384). -/
def State.bootTakes (s : State) (bs : List Byte) : State :=
  let s := s.put F.REF_STAT.BOOT_RESULT 0
  let words := Config.residentImage bs
  let resident := ((List.range 1024).zip words).foldl (fun m p => Sparse.write m p.1 p.2) ([] : Sparse Quad)
  let towers := (List.range 4).filter fun t => !s.ref.stackPower.getLsbD t || !s.towerUp t
  let s : State := { s with
    mc := { s.mc with verA := Config.microcodeVersion bs, aValid := true, bValid := false, refused := false, swapPending := false,
                      active := false }
    ref := { s.ref with
      bootStore := bs
      bootResident := resident
      bootDone := true
      sbState := if s.ref.sbState = 1 then 0 else s.ref.sbState
      bringUp := s.ref.bringUp.filter (· < 8) ++ towers.flatMap bringUpOrder } }
  let s := allEngines.foldl (fun s e => s.loadResident e) s
  s.recordBoot (4 * 8192) 0 0 bs true

/-- A complete boot image is verified and taken or refused. -/
def State.bootVerify (s : State) (bs : List Byte) : State :=
  match bootCheck bs with
  | 0 => s.bootTakes bs
  | r => s.bootFails r bs

/-- The state admits a boot image: PRESENT_BOOTING, BOOT_FAILED, or MAKER_TEST, and none has verified. -/
def State.bootOpen (s : State) : Bool :=
  (s.ref.sbState == 0 || s.ref.sbState == 1 || s.ref.sbState == 4) && !s.ref.bootDone

/-- The boot image that BOOT_IMAGE asked for has been fetched. -/
def execBootImageFetched (s : State) : Out :=
  match s.ref.bootFetch with
  | none => .next s
  | some a =>
    let s : State := { s with ref := { s.ref with bootFetch := none } }
    match s.fetchImage a with
    | (.ok, bs, s) => .next (s.bootVerify bs).settle
    | (_, _, s) => .next (s.bootFails 0x12 []).settle

/-! ### A relay boot (R385) -/

def State.bootBytes (s : State) (p : Nat) : List Byte := ((s.ref.bootRelay.find? fun x => x.1 == p).map fun x => x.2).getD []

/-- A BOOT frame's data has come over port `p`; the last frame completes an image. -/
def State.bootFrame (s : State) (p : Nat) (data : List Byte) (last : Bool) : State :=
  if s.ref.straps.boot ≠ 1 || !s.bootOpen then s
  else
    let bs := s.bootBytes p ++ data
    let rest := s.ref.bootRelay.filter fun x => x.1 != p
    if last then { s with ref := { s.ref with bootRelay := rest } }.bootVerify bs
    else { s with ref := { s.ref with bootRelay := rest ++ [(p, bs)] } }

def execBoot (p : Port) (f : Frm) (data : List Byte) (last : Bool) (s : State) : Out :=
  .next (s.heard p.val (.boot p f data last) fun s =>
    s.receive p.val f 2 (s.enrolled p.val) fun s => s.bootFrame p.val data last).settleV

/-! ### RELAY packets (R211, R267) -/

/-- A frame has passed from one tower section of the relay switch to another, without NONCE and tag: it is delivered here or leaves by a
relay port, sealed again; a BOOT frame reaches the Referee (notes/assumptions 66). -/
def execRelay (t _u : Tower) (src dst : BitVec 12) (body : FrameBody) (s : State) : Out :=
  .next (match body with
    | .boot data last => s.bootFrame (16 + t.val) data last
    | .hello _ => s
    | body => s.routeFrame none src dst body).settleV

end Sys2Proof.Machine
end

