-- ==== Sys2Proof/Machine/Referee.lean ====
section
/-! DEFINITION. The Referee's operations, the paths on which they come, and the end of resets (R375 to R381, R386 to R389,
R394). -/

namespace Sys2Proof.Machine

/-- The answer to an operation; `later` where it is given when a reset or a wait ends. -/
structure OpReply where
  reply : Reply
  later : Bool := false

def now (r : Reply) : OpReply := { reply := r }
def deferred (s : State) : OpReply := { reply := s.done, later := true }

/-! ### Form and rights (R378, R380) -/

/-- The bits that ARG may have in each operation; none for an unassigned OP. -/
def argBits (op : Nat) : Option W64 :=
  match op with
  | 0x01 => some 0
  | 0x02 => some 0xFFFFFFFF00000001
  | 0x03 => some 0
  | 0x04 => some 0x3F
  | 0x05 => some 0xF0737
  | 0x06 => some 0
  | 0x07 => some 0x10F
  | 0x08 => some 0xF
  | 0x09 => some 0
  | 0x10 => some 0x0F03FFFF
  | 0x11 => some 0x0F03FFFF
  | 0x12 => some 0x0F03FFFF
  | 0x13 => some 0x0F03FFFF
  | 0x14 => some 0
  | 0x15 => some 0xFFFFFFFFFFFFFFFF
  | 0x16 => some 0xFFFFFFFFFFFFFFFF
  | 0x17 => some 0
  | 0x18 => some 0
  | 0x19 => some 0
  | 0x1A => some 0xF
  | _ => none

/-- The operation has the payload length that it needs; the session operations judge their own. -/
def payloadOk (op n : Nat) : Bool :=
  match op with
  | 0x11 => true
  | 0x13 => true
  | 0x18 => n == 8
  | 0x19 => n == 8
  | _ => n == 0

def needsPayload (op : Nat) : Bool := [0x11, 0x13, 0x18, 0x19].contains op

def resetScope (a : W64) : Nat := bitsOf a 2 0
def resetLayerNo (a : W64) : Nat := bitsOf a 10 8
/-- The tower that a RESET's ARG names. -/
def resetTowerNo (a : W64) : Nat := if resetScope a = 4 then bitsOf a 19 16 / 4 else bitsOf a 5 4

/-- ARG names something that exists. -/
def argOk (op : Nat) (a : W64) : Bool :=
  match op with
  | 0x02 => decide (bitsOf a 63 32 < 131072)
  | 0x04 => !pdFixed (bitsOf a 5 0)
  | 0x05 => decide (1 ≤ resetScope a) && decide (resetScope a ≤ 4) && (resetScope a != 3 || decide (resetLayerNo a ≤ 5))
  | _ => true

/-- The operations on sessions, which deny a program whatever it names (R282). -/
def isSessionOp (op : Nat) : Bool := decide (0x10 ≤ op) && decide (op ≤ 0x13)

/-- The message is one that the Referee acts on. -/
def opForm (p : RPath) (op : Nat) (a : W64) (payload : List Byte) : Bool :=
  match argBits op with
  | none => false
  | some m =>
    a &&& ~~~m == 0 && argOk op a && payloadOk op payload.length &&
      (match p with | .tell _ => !needsPayload op || isSessionOp op | _ => true)

/-- The roles that hold the right (*Referee operations*, *Rights by role*). -/
def opRight (op : Nat) (a : W64) (r : Role) : Bool :=
  match op with
  | 0x04 => r != .operator
  | 0x05 => resetScope a == 4 || r != .operator
  | 0x06 => r != .maker
  | 0x09 => r != .operator
  | 0x14 => r == .installer
  | 0x15 => r == .installer
  | 0x17 => r == .maker
  | 0x18 => r == .maker
  | _ => true

/-! ### What the operations do -/

def wordBytes (ws : List W64) : List Byte := ws.flatMap fun w => bytesOf 8 w.toNat

/-- SB_ID. -/
def sbId : W64 := 0x4B4D9410000000A2

def State.opReadId (s : State) : Reply :=
  s.done (wordBytes [sbId, BitVec.ofNat 64 s.ref.sbState] ++ bytesOf 48 idDigest.toNat ++
    wordBytes [s.regView .LAP_STAT [], s.regView .LAP_COUNT [], s.regView .SEC_STAT [], s.regView .REF_STAT []])

/-- Up to four records from an index, within its area. -/
def State.opReadBb (s : State) (a : W64) : Reply :=
  let i := bitsOf a 63 32
  let last := if i < ringRecords then ringRecords else ringRecords + pinnedRecords
  s.done ((List.range (min 4 (last - i))).flatMap fun k => s.bbAt (i + k))

def State.opReadEnv (s : State) : Reply :=
  s.spend.done (wordBytes ([s.regView .PKG_INPUT [], s.regView .PKG_CAP [], s.regView .PKG_THERM []] ++
    (List.range 4).flatMap fun t => [s.regView .TPWR_STAT [t], s.regView .TWR_TMAX [t]]))

def State.opForceOff (s : State) (p : RPath) (a : W64) : Reply :=
  let d := bitsOf a 5 0
  ((s.recordOp p 8 (BitVec.ofNat 64 d) 0 0).cutOff d).done

/-- A reset in progress covers the request (R389). -/
def State.resetCovered (s : State) (a : W64) : Bool :=
  match resetScope a with
  | 1 => s.ref.packageBusy
  | 3 => s.inTowerReset (resetTowerNo a) ||
      (resetLayerNo a != 0 && s.ref.resets.any fun r => r.tower.val == resetTowerNo a && r.layer == some (resetLayerNo a))
  | _ => s.inTowerReset (resetTowerNo a)

def State.recordResetOp (s : State) (p : RPath) (a : W64) : State := s.recordOp p 7 a 0 0

def State.opReset (s : State) (p : RPath) (tag : BitVec 16) (a : W64) : OpReply :=
  let t : Fin 4 := Fin.ofNat 4 (resetTowerNo a)
  let n := resetLayerNo a
  if s.resetCovered a then
    deferred { s with ref := { s.ref with resetWaits := s.ref.resetWaits ++ [(p, tag, a)] } }
  else match resetScope a with
    | 1 => now ((s.recordResetOp p a).packageReset).done
    | 2 => now ((s.recordResetOp p a).towerReset t).done
    | 3 =>
      if n = 0 then now ((s.recordResetOp p a).towerReset t).done
      else if (layerDomains t.val n).all fun d => s.pd d == 0 then now { resp := .domainOff, st := s }
      else now ((s.recordResetOp p a).beginLayer t n).done
    | _ =>
      let e : Eng := Fin.ofNat 16 (bitsOf a 19 16)
      now ((s.recordOp p 0x0F (BitVec.ofNat 64 e.val) 0 0).resetEngine e).done

def State.opFreeze (s : State) : Reply := s.requestStop.done

/-- DUMP_ENGINE: at once where the engine is between instructions; else when its wait ends or 10 µs have passed. An engine that
dumps itself cannot reach the end of its TELL: it is frozen within it. -/
def State.opDump (s : State) (p : RPath) (tag : BitVec 16) (a : W64) : OpReply :=
  let e := dumpEng a
  if p = .tell e ∧ (s.eng e).waiting.isSome then
    deferred (s.dumpNow p tag a true)
  else if (s.eng e).waiting.isSome && !(s.eng e).frozen then
    deferred { s with ref := { s.ref with dumps := s.ref.dumps ++ [(p, tag, a)] } }
  else
    deferred (s.dumpNow p tag a false)

/-- The freeze of engine `e` ends; a partial instruction starts again (R381). -/
def State.thaw (s : State) (e : Eng) : State :=
  if !(s.eng e).frozen then s
  else
    let s := s.onEng e fun en =>
      if en.frozenPartial then
        { en with frozen := false, frozenPartial := false, waiting := none,
                  state := if en.state = .waiting then .running else en.state }
      else { en with frozen := false }
    s.deliver e

def State.opThaw (s : State) (a : W64) : Reply := (s.thaw (dumpEng a)).done

/-- POWER_RESTORE: only after a TSHUT. That 10 s have passed is the sender's to see to (notes/assumptions 64). -/
def State.opPowerRestore (s : State) (p : RPath) : Reply :=
  if !s.ref.powerLock then s.notNow
  else
    let s : State := { s with ref := { s.ref with powerLock := false } }
    let s := s.recordOp p 8 0 8 0
    (if s.ref.vinRemoved then s else s.startBringUp).done

/-- MC_LOAD: the image goes into the inactive bank of every engine. -/
def State.opMcLoad (s : State) (p : RPath) (a : W64) : Reply :=
  match s.fetchImage a.toNat with
  | (.ok, bs, s) =>
    let role := ((s.pathRole p).map roleCode).getD 0
    match bootCheck bs with
    | 0 =>
      let v := Config.microcodeVersion bs
      let s : State :=
        if s.mc.active then { s with mc := { s.mc with verA := v, aValid := true } }
        else { s with mc := { s.mc with verB := v, bValid := true } }
      (s.recordBoot (s.pathSession p) role 0 bs false).done
    | r => (s.recordBoot (s.pathSession p) role r bs false).badArg
  | (r, _, s) => { resp := r, st := s }

def State.opBootImage (s : State) (a : W64) : Reply :=
  if !s.bootOpen || s.ref.bootFetch.isSome then s.notNow
  else State.done { s with ref := { s.ref with bootFetch := some a.toNat } }

def State.opTestUnlock (s : State) (p : RPath) : Reply :=
  if s.ref.sbState ≠ 4 then s.notNow
  else
    let s := s.recordOp p 0x12 0 0 0 true
    State.done { s with ref := { s.ref with testPort := true } }

/-- FUSE_PROGRAM: a word number and a value of 32 bits each, of which the set bits are programmed (notes/assumptions 65). -/
def State.opFuseProgram (s : State) (p : RPath) (payload : List Byte) : Reply :=
  if !s.fuseWindow then s.notNow
  else
    let k := leField payload 0 4
    let v : BitVec 32 := BitVec.ofNat 32 (leField payload 4 4)
    let s := s.recordOp p 0x12 (BitVec.ofNat 64 k) (v.setWidth 64) 0 true
    State.done { s with ref := { s.ref with fuseWords := Sparse.write s.ref.fuseWords k (Sparse.read s.ref.fuseWords k ||| v) } }

def State.opSetTime (s : State) (p : RPath) (payload : List Byte) : Reply :=
  (s.recordOp p 0x11 0 (BitVec.ofNat 64 (leField payload 0 8)) 0).done

def State.opResidentReload (s : State) (p : RPath) (a : W64) : Reply :=
  let e := dumpEng a
  if (s.eng e).state ≠ .idle ∧ !(s.eng e).frozen then s.notNow
  else ((s.recordOp p 0x0F (BitVec.ofNat 64 e.val) 0 0).loadResident e).done

/-- Carry out an operation whose form and role are good. -/
def State.carryOp (s : State) (p : RPath) (op : Nat) (tag : BitVec 16) (a : W64) (payload : List Byte) : OpReply :=
  match op with
  | 0x01 => now s.opReadId
  | 0x02 => now (s.opReadBb a)
  | 0x03 => now s.opReadEnv
  | 0x04 => now (s.opForceOff p a)
  | 0x05 => s.opReset p tag a
  | 0x06 => now s.opFreeze
  | 0x07 => s.opDump p tag a
  | 0x08 => now (s.opThaw a)
  | 0x09 => now (s.opZeroise p)
  | 0x10 => now (s.opSessionOpen p a)
  | 0x11 => now (s.opSessionProve p a payload)
  | 0x12 => now (s.opSessionClose p a)
  | 0x13 => now (s.opSessionClaim p a payload)
  | 0x14 => now (s.opPowerRestore p)
  | 0x15 => now (s.opMcLoad p a)
  | 0x16 => now (s.opBootImage a)
  | 0x17 => now (s.opTestUnlock p)
  | 0x18 => now (s.opFuseProgram p payload)
  | 0x19 => now (s.opSetTime p payload)
  | 0x1A => now (s.opResidentReload p a)
  | _ => now s.badArg

/-- The Referee acts on a message (R377, R378). -/
def State.refRun (s : State) (p : RPath) (op : Nat) (tag : BitVec 16) (a : W64) (payload : List Byte) : OpReply :=
  if !opForm p op a payload then now s.badArg
  else match s.pathRole p with
    | none => if isSessionOp op then s.carryOp p op tag a payload else now s.deny
    | some r => if opRight op a r then s.carryOp p op tag a payload else now s.deny

/-! ### Paths (R376, R377, R379, R394) -/

def replyAnswer (p : RPath) (op : Nat) (tag : BitVec 16) (a : W64) (r : Reply) : RefAnswer :=
  { path := p, op := BitVec.ofNat 16 op, status := r.resp.byte, flags := r.flags, tag := tag, arg := a, payload := r.payload }

/-- A message on path `p` is served and answered; where the answer comes later, a sideband or a slot stays busy. -/
def State.serveOp (s : State) (p : RPath) (op : Nat) (tag : BitVec 16) (a : W64) (payload : List Byte) : State :=
  match s.refRun p op tag a payload with
  | { reply := r, later := false } => r.st.sendAnswer (replyAnswer p op tag a r)
  | { reply := r, later := true } => r.st

/-- A second message on a module whose message is outstanding (R377). -/
def State.sidebandBusy (s : State) (m : Module) (op : Nat) (tag : BitVec 16) (a : W64) : State :=
  { s with ref := { s.ref with answers := s.ref.answers ++ [replyAnswer (.sideband m) op tag a s.notNow] } }

def State.sidebandServe (s : State) (m : Module) (op : Nat) (tag : BitVec 16) (a : W64) (payload : List Byte) : State :=
  if s.ref.vdmOutstanding.getLsbD m then s.sidebandBusy m op tag a
  else
    let s : State := { s with ref := { s.ref with vdmOutstanding := setBits s.ref.vdmOutstanding m m 1 } }
    s.serveOp (.sideband m) op tag a payload

/-- A message reaches the Referee; none is answered when both copies have failed (R376). Before READY no message comes over the
mainband (R377). -/
def State.takeOp (s : State) (p : RPath) (op : Nat) (tag : BitVec 16) (a : W64) (payload : List Byte) : State :=
  if s.ref.bothFailed then s
  else match p with
    | .sideband m => s.sidebandServe m op tag a payload
    | .mailbox k =>
      if s.ref.slots[k].owner.isNone then s
      else
        let s : State := { s with ref := { s.ref with slots := s.ref.slots.set k { s.ref.slots[k] with state := 1 } } }
        s.serveOp p op tag a payload
    | p => s.serveOp p op tag a payload

/-- A message's bytes: OP, TAG, ARG and payload; the second component says whether its form is good. -/
def parseMessage (bs : List Byte) : Nat × BitVec 16 × W64 × List Byte × Bool :=
  let len := leField bs 4 2
  (leField bs 0 2, BitVec.ofNat 16 (leField bs 6 2), BitVec.ofNat 64 (leField bs 8 8), (bs.drop 16).take len,
    decide (len ≤ 256) && zeroBytes bs 2 3 && decide (16 + len ≤ bs.length))

/-- The bytes of a message, from any path but TELL. -/
def State.takeMessage (s : State) (p : RPath) (bs : List Byte) : State :=
  match parseMessage bs with
  | (op, tag, a, payload, true) => s.takeOp p op tag a payload
  | (_, tag, a, _, false) => s.takeOp p 0 tag a []

/-- A Referee operation as a command. -/
def refCommand (p : RPath) (op : Nat) (tag : BitVec 16) (a : W64) (payload : List Byte) (s : State) : Out :=
  .next (s.takeOp p op tag a payload).settleV

def execReadId (p : RPath) (tag : BitVec 16) (arg : W64) (s : State) : Out := refCommand p 0x01 tag arg [] s
def execReadBb (p : RPath) (tag : BitVec 16) (arg : W64) (s : State) : Out := refCommand p 0x02 tag arg [] s
def execReadEnv (p : RPath) (tag : BitVec 16) (arg : W64) (s : State) : Out := refCommand p 0x03 tag arg [] s
def execForceOff (p : RPath) (tag : BitVec 16) (arg : W64) (s : State) : Out := refCommand p 0x04 tag arg [] s
def execResetPackage (p : RPath) (tag : BitVec 16) (s : State) : Out := refCommand p 0x05 tag 1 [] s
def execResetTower (p : RPath) (tag : BitVec 16) (t : Tower) (s : State) : Out :=
  refCommand p 0x05 tag (BitVec.ofNat 64 (2 + 16 * t.val)) [] s
def execResetLayer (p : RPath) (tag : BitVec 16) (t : Tower) (layer : Fin 8) (s : State) : Out :=
  refCommand p 0x05 tag (BitVec.ofNat 64 (3 + 16 * t.val + 256 * layer.val)) [] s
def execResetEngine (p : RPath) (tag : BitVec 16) (e : Eng) (s : State) : Out :=
  refCommand p 0x05 tag (BitVec.ofNat 64 (4 + 65536 * e.val)) [] s
def execFreeze (p : RPath) (tag : BitVec 16) (arg : W64) (s : State) : Out := refCommand p 0x06 tag arg [] s
def execDumpEngine (p : RPath) (tag : BitVec 16) (arg : W64) (s : State) : Out := refCommand p 0x07 tag arg [] s
def execThawEngine (p : RPath) (tag : BitVec 16) (arg : W64) (s : State) : Out := refCommand p 0x08 tag arg [] s
def execZeroise (p : RPath) (tag : BitVec 16) (arg : W64) (s : State) : Out := refCommand p 0x09 tag arg [] s
def execSessionOpen (p : RPath) (tag : BitVec 16) (arg : W64) (s : State) : Out := refCommand p 0x10 tag arg [] s
def execSessionProve (p : RPath) (tag : BitVec 16) (arg : W64) (payload : List Byte) (s : State) : Out :=
  refCommand p 0x11 tag arg payload s
def execSessionClose (p : RPath) (tag : BitVec 16) (arg : W64) (s : State) : Out := refCommand p 0x12 tag arg [] s
def execSessionClaim (p : RPath) (tag : BitVec 16) (arg : W64) (payload : List Byte) (s : State) : Out :=
  refCommand p 0x13 tag arg payload s
def execPowerRestore (p : RPath) (tag : BitVec 16) (arg : W64) (s : State) : Out := refCommand p 0x14 tag arg [] s
def execMcLoad (p : RPath) (tag : BitVec 16) (arg : W64) (s : State) : Out := refCommand p 0x15 tag arg [] s
def execBootImage (p : RPath) (tag : BitVec 16) (arg : W64) (s : State) : Out := refCommand p 0x16 tag arg [] s
def execTestUnlock (p : RPath) (tag : BitVec 16) (arg : W64) (s : State) : Out := refCommand p 0x17 tag arg [] s
def execFuseProgram (p : RPath) (tag : BitVec 16) (arg : W64) (payload : List Byte) (s : State) : Out :=
  refCommand p 0x18 tag arg payload s
def execSetTime (p : RPath) (tag : BitVec 16) (arg : W64) (payload : List Byte) (s : State) : Out :=
  refCommand p 0x19 tag arg payload s
def execResidentReload (p : RPath) (tag : BitVec 16) (arg : W64) (s : State) : Out := refCommand p 0x1A tag arg [] s

/-- A message arrives whole over a sideband. -/
def execVendorDefinedMessage (m : Module) (bytes : List Byte) (s : State) : Out :=
  .next (s.takeMessage (.sideband m) bytes).settleV

/-- The engine of a DUMP has not come to an instruction boundary within 10 µs: it is frozen within the instruction (R381). -/
def execDumpFreezeTimeout (p : RPath) (tag : BitVec 16) (arg : W64) (s : State) : Out :=
  if s.ref.dumps.contains (p, tag, arg) then
    let s : State := { s with ref := { s.ref with dumps := s.ref.dumps.erase (p, tag, arg) } }
    .next (s.dumpNow p tag arg true).settleV
  else .next s

/-! ### The management port (R379) -/

/-- A read on the management port. -/
def State.smbusRead (s : State) (bs : List Byte) : State :=
  if s.ref.bothFailed then s else { s with ref := { s.ref with smbusOut := bs } }

def execState (s : State) : Out := .next (s.smbusRead [BitVec.ofNat 8 s.ref.sbState])
def execAlerts (s : State) : Out := .next (s.smbusRead (bytesOf 2 (s.fld F.REF_STAT.ALERTS)))
def execAlertsClear (v : BitVec 16) (s : State) : Out :=
  if s.ref.bothFailed then .next s
  else .next (s.put F.REF_STAT.ALERTS (s.fld F.REF_STAT.ALERTS &&& (0x3F ^^^ (v.toNat % 64))))

def execReqPart (bytes : List Byte) (s : State) : Out :=
  if s.ref.bothFailed then .next s
  else .next { s with ref := { s.ref with smbusReq := s.ref.smbusReq ++ bytes.take 255 } }

/-- The last bytes of a request: the Referee acts on it. -/
def execReqEnd (bytes : List Byte) (s : State) : Out :=
  if s.ref.bothFailed then .next s
  else
    let bs := s.ref.smbusReq ++ bytes.take 255
    let s : State := { s with ref := { s.ref with smbusReq := [], smbusAns := [] } }
    .next (s.takeMessage .smbus bs).settleV

/-- The next up to 255 bytes of the answer; none when it is not ready. -/
def execAnsPart (s : State) : Out :=
  if s.ref.bothFailed then .next s
  else
    let bs := s.ref.smbusAns.take 255
    let s : State := { s with ref := { s.ref with smbusAns := s.ref.smbusAns.drop 255 } }
    .next (s.smbusRead bs)

/-! ### Mailbox slots (R394) -/

/-- GO: the request in slot `k` is sent. -/
def State.slotGo (s : State) (k : Fin 4) : State :=
  let l := s.ref.slots[k]
  if l.owner.isNone ∨ l.state ≠ 0 then s
  else s.takeMessage (.mailbox k) ((List.range 34).flatMap fun i => bytesOf 8 (s.reg .MBX_MSG [k.val, i]).toNat)

/-- A write of MBX_CTRL: RELEASE frees the slot. -/
def State.writeMbxCtrl (s : State) (k : Nat) (h : Half) (v : W64) : Resp × State :=
  let s := if wrote F.MBX_CTRL.GO h v then s.slotGo (Fin.ofNat 4 k) else s
  let s := if wrote F.MBX_CTRL.RELEASE h v then s.freeSlot k else s
  (.ok, s)

/-- The session of a request may use slot `k` (R394). -/
def State.slotOpen (s : State) (rq : Rq) (k : Nat) : Bool :=
  match (s.ref.slots.toList.getD k {}).owner with
  | none => true
  | some o => o.toNat == s.sessionOf rq

/-- A write of a word of the message area: a free slot becomes the session's. -/
def State.writeMbxMsg (s : State) (rq : Rq) (k i : Nat) (h : Half) (v : W64) : Resp × State :=
  let l := s.ref.slots.toList.getD k {}
  if l.state ≠ 0 then (.bankNotOwned, s)
  else
    let s : State := { s with ref := { s.ref with
      slots := modifyAt s.ref.slots k fun l => { l with owner := some (BitVec.ofNat 16 (s.sessionOf rq)) } } }
    let old := s.reg .MBX_MSG [k, i]
    (.ok, s.setReg .MBX_MSG [k, i] ((old &&& ~~~(BitVec.ofNat 64 h.mask)) ||| h.part v))

/-! ### The end of a reset (R388, R389) -/

/-- A request that waits for the end of the reset of layer `n`, or of tower `t` where `n` is none. -/
def waitEnds (t : Nat) (n : Option Nat) (a : W64) : Bool :=
  resetScope a != 1 && resetTowerNo a == t &&
    (match n with
      | some k => resetScope a == 3 && resetLayerNo a == k
      | none => true)

/-- The requests that the ended reset covered are answered OK. -/
def State.answerWaits (s : State) (ends : W64 → Bool) : State :=
  let due := s.ref.resetWaits.filter fun w => ends w.2.2
  let s : State := { s with ref := { s.ref with resetWaits := s.ref.resetWaits.filter fun w => !ends w.2.2 } }
  due.foldl (fun s w => s.sendAnswer (replyAnswer w.1 5 w.2.1 w.2.2 s.done)) s

def State.dropRun (s : State) (r : ResetRun) : State := { s with ref := { s.ref with resets := s.ref.resets.erase r } }

/-- The reset in progress in tower `t` ends; the next one takes hold. -/
def State.endReset (s : State) (t : Fin 4) : State :=
  match s.ref.resets.find? fun r => r.tower == t && !r.waitsCommit with
  | none => s
  | some r =>
    let s := s.dropRun r
    match r.layer with
    | some n =>
      let s := s.answerWaits (waitEnds t.val (some n))
      if s.fab.committing then s else s.proceedReset t
    | none =>
      let s := (s.releaseTower t.val).answerWaits (waitEnds t.val none)
      if s.ref.resets.any fun r => r.layer == none then s
      else { s with ref := { s.ref with packageBusy := false } }.answerWaits fun a => resetScope a == 1

def execResetRelease (t : Tower) (s : State) : Out := .next (s.endReset t).settleV

end Sys2Proof.Machine
end

