-- ==== Sys2Proof/Machine/Access.lean ====
section
/-! DEFINITION. How a memory-mapped request is checked and what the memory-type regions and host memory answer: width and
alignment, unassigned addresses, power domains, resets, ownership (R8 to R10, R20 to R26, R68, R126, R159, R160, R210, R220). -/

namespace Sys2Proof.Machine

/-! ### Requests -/

/-- What serving a request comes to: an answer with its data, or a wait (held at a fence, or behind a router hold). -/
inductive Served where
  | done (r : Resp) (data : Payload)
  | waits
  deriving DecidableEq, Repr

def ReqOp.isWrite : ReqOp → Bool
  | .write _ => true
  | .posted _ => true
  | _ => false

/-- The request has no response (R211, R220). -/
def ReqOp.isPosted : ReqOp → Bool
  | .posted _ => true
  | _ => false

def ReqOp.data : ReqOp → Payload
  | .write d => d
  | .posted d => d
  | _ => 0

def frameBase : Nat := 0x010000000000
def storeBase : Nat := 0x020000000000
def doorbellBase : Nat := 0x040000000000
def hostBase : Nat := 0x800000000000

/-- A memory-type access is 16 to 256 bytes, a multiple of 16, aligned, within one 256-byte block (R10, R229). -/
def wideOk (a len : Nat) : Bool :=
  decide (16 ≤ len ∧ len ≤ 256 ∧ len % 16 = 0 ∧ a % 16 = 0 ∧ a % 256 + len ≤ 256)

/-- A register access is one aligned word of 32 or 64 bits (R8). -/
def narrowOk (a len : Nat) : Bool := (len == 4 || len == 8) && a % len == 0

def isHost (rq : Rq) : Bool := match rq.agent with | .host _ _ => true | .engine _ => false

/-- The push window of a doorbell page takes one aligned 64-byte write of the host channel (R193). -/
def isPush (rq : Rq) (op : ReqOp) (a len : Nat) : Bool :=
  match op with
  | .posted _ => isHost rq && a % 0x1000 == 0 && len == 64
  | _ => false

def isAdd : ReqOp → Bool
  | .amoadd _ => true
  | _ => false

/-- The refusal of a form that breaks R8 or R10; none for a form that goes on. -/
def formRefusal (rq : Rq) (op : ReqOp) (a len : Nat) : Option Resp :=
  match spaceOf a with
  | .none => some .decodeError
  | .register => if isAdd op || !narrowOk a len then some .decodeError else none
  | .doorbell =>
    if isPush rq op a len then none
    else if isAdd op || a % 0x1000 < 0x40 || !narrowOk a len then some .decodeError
    else none
  | .memory => if op.isWrite && decide (len < 16) then some .narrowWrite else if wideOk a len then none else some .decodeError
  | .frame | .stateStore =>
    if op.isWrite && decide (len < 16) then some .narrowWrite
    else if isAdd op || !wideOk a len then some .decodeError
    else none
  | .host => if isHost rq || !wideOk a len then some .decodeError else none

/-! ### Tiles in the windows (R21, R22) -/

/-- The physical tile at a frame-window address, with the offset in the tile. -/
def frameTile (a : Nat) : Nat := (a - frameBase) / 0x100000000 * 4160 + (a - frameBase) % 0x100000000 / 0x80000
def frameIndex (a : Nat) : Nat := (a - frameBase) % 0x100000000 / 0x80000
def frameOff (a : Nat) : Nat := (a - frameBase) % 0x80000
def frameSlot (a : Nat) : Nat := frameOff a / 0x2000
def frameWordNo (a : Nat) : Nat := frameOff a % 0x2000 / 16

def storeDie (a : Nat) : Nat := (a - storeBase) / 0x2000000
def storeIndex (a : Nat) : Nat := (a - storeBase) % 0x2000000 / 0x1000
def storeTile (a : Nat) : Nat := storeDie a * 4160 + storeIndex a
def storeWord (a : Nat) : Nat := (a - storeBase) % 0x1000 / 16

/-- The address names something: a register, a slot of a tile, a tile's state store (R8, R21, R22). -/
def assigned (rq : Rq) (op : ReqOp) (a len : Nat) : Bool :=
  match spaceOf a with
  | .none => false
  | .register => (targetAt (a / 8 * 8)).isSome
  | .doorbell => isPush rq op a len || (targetAt (a / 8 * 8)).isSome
  | .memory => true
  | .frame => decide (frameIndex a < 4160 ∧ frameOff a < 0x48000)
  | .stateStore => decide (storeIndex a < 4160)
  | .host => true

/-! ### Domains and resets (R26, R220, R387, R388) -/

/-- What a block stands on: one domain, or one of several domains of the tower. -/
def pinDomain (o : Nat) : Nat :=
  match regAt (0x030000000000 + o / 8 * 8) with
  | some (.BANK_CFG, i :: _) => pdBank (i % 4)
  | some (.PIN_CFG, p :: _) => pdBank (bankOfPin p)
  | some (.PIN_OWN, p :: _) => pdBank (bankOfPin p)
  | some (.PMU_CTRL, n :: _) => pdBank (pmuBank n)
  | some (.PMU_SEL, n :: _) => pdBank (pmuBank n)
  | some (.PMU_STAT, n :: _) => pdBank (pmuBank n)
  | some (.RU_CTRL, k :: _) => pdBank (ruBank k)
  | some (.RU_STAT, k :: _) => pdBank (ruBank k)
  | some (.PINS_STAT, _) => pdBank 0
  | some (.TRIGOUT_CFG, _) => pdBank 0
  | some (_, i :: _) => pdBank (i / 2 % 4)
  | _ => pdBank 0

/-- The power domain that serves register space and the doorbells (R24, R25, *Power domains*). -/
def regDomain (a : Nat) : Nat :=
  if spaceOf a = .doorbell then pdNE 0
  else
    let o := a - 0x030000000000
    if o < 0x1000000 then
      match o / 0x100000 with
      | 1 => 6
      | 2 => 6
      | 3 => 1
      | 4 => pinDomain o
      | 5 => pdNE 0
      | 6 => pdNE 0
      | 8 => pdNE 0
      | 9 => pdNE 0
      | 12 => 1
      | _ => 0
    else
      let t := (o - 0x1000000) / 0x1000000
      match o % 0x1000000 / 0x100000 with
      | 2 => pdQuad t 0
      | 7 => pdRelay (4 * t + o % 0x100000 / 0x1000 % 4)
      | 8 => pdTrace t
      | _ => pdNE t

def isMemLayer (a : Nat) : Bool :=
  spaceOf a == .register && decide (0x030001000000 ≤ a) && (a - 0x030000000000) % 0x1000000 / 0x100000 == 2

/-- The domain of the block behind the address. -/
def addrDomain (rq : Rq) (a : Nat) : Nat :=
  match spaceOf a with
  | .memory => pdQuad (memTower a) (memBank a)
  | .frame => pdCfg ((a - frameBase) / 0x100000000)
  | .stateStore => pdLogic (storeDie a) (storeIndex a % 65)
  | .host => if isHost rq then 0 else 1
  | _ => regDomain a

/-- The endpoint at which a requester's access to the address arrives. -/
def portOf (rq : Rq) (a : Nat) : Endpoint := endpointOf (towerOf rq) a

/-- The target is off, in DEEP or fenced: its port, or the block behind a port of another domain (R220). -/
def State.targetOff (s : State) (rq : Rq) (a : Nat) : Bool :=
  s.portOff (portOf rq a) || (decide (addrDomain rq a ≠ (portOf rq a).dom) && s.fenced (addrDomain rq a))

/-- The tower whose base layer serves a register (R24). -/
def regTower (a : Nat) : Nat :=
  if spaceOf a = .doorbell then 0
  else
    let o := a - 0x030000000000
    if o < 0x1000000 then
      match o / 0x100000 with
      | 1 => 1
      | 2 => 1
      | 4 => pinDomain o - 2
      | _ => 0
    else (o - 0x1000000) / 0x1000000

/-- The target's layer is held in reset. -/
def State.targetHeld (s : State) (a : Nat) : Bool :=
  match spaceOf a with
  | .memory => s.layerHeld (memTower a) 1
  | .frame =>
    let d := (a - frameBase) / 0x100000000
    s.layerHeld (d / 2) (if d % 2 = 0 then 2 else 5)
  | .stateStore => s.layerHeld (storeDie a / 2) (if storeDie a % 2 = 0 then 3 else 4)
  | .register | .doorbell =>
    if regDomain a = 0 ∨ regDomain a = 1 ∨ regDomain a = 6 then false
    else s.towerHeld (regTower a) || (isMemLayer a && s.layerHeld (regTower a) 1)
  | _ => false

/-- A held request counts and asks for RUN (R221). -/
def State.holdRequest (s : State) (h : Held) : State :=
  let s : State := { s with held := s.held ++ [h] }
  (s.tally (20 + (portOf h.rq h.addr).tower) 0x211).pdRequest h.dom 1

/-- The router's wake buffer has room for a request to this address. -/
def State.wakeRoom (s : State) (rq : Rq) (a : Nat) : Bool :=
  let ep := portOf rq a
  decide ((s.wakeHeld ep.tower ep.router).length < 64)

/-- A request for the address arrives at a fence whose domain wakes on access, and the router can hold it (R221). -/
def State.wakes (s : State) (rq : Rq) (a : Nat) : Bool :=
  let ep := portOf rq a
  s.portOff ep && s.flag F.PD_CTRL.WAKE_ON_ACCESS [ep.dom] && s.wakeRoom rq a

/-- The request is held at the fence, with the role and session it was accepted under (R221, R286). -/
def State.holdAt (s : State) (rq : Rq) (role : Role) (who : HeldBy) (op : ReqOp) (a len : Nat) (poison : Bool := false) : State :=
  s.holdRequest ⟨(portOf rq a).dom, rq, a, len, op, who, role, BitVec.ofNat 16 (s.sessionOf rq), poison⟩

/-- A refusal at a fence counts as DOMAIN_OFF (R220). -/
def State.offRefusal (s : State) (rq : Rq) (a : Nat) : State :=
  s.tally (20 + (portOf rq a).tower) 0x210

/-! ### Design memory (R159, R160, R170, R360) -/

def State.storeWords (s : State) : Nat → List Quad → State
  | _, [] => s
  | a, q :: qs => (s.memStore a q).storeWords (a + 16) qs

def payloadQuads (d : Payload) (len : Nat) : List Quad := (List.range (len / 16)).map (quadAt d)
def quadsPayload (qs : List Quad) : Payload := BitVec.ofNat 2048 (joinQuads qs)

/-- The reader that an error log names: an engine's load, its DMA, or port B for the host. -/
def readerOf (rq : Rq) (who : HeldBy) : Nat :=
  match rq.agent, who with
  | .engine _, .chan _ => readerDma
  | .engine _, _ => readerEngine
  | _, _ => readerPortB

/-- The old value and the write of an atomic add to a word (R78). -/
def addedWord (q : Quad) (v : W64) : Quad := quadOf (wordAt q 0 + v) (wordAt q 1)

def State.serveMemory (s : State) (rq : Rq) (role : Role) (who : HeldBy) (op : ReqOp) (a len : Nat) : Resp × Payload × State :=
  let t := memTower a
  let b := memBank a
  match s.portBAllows t b (requesterOf rq) role (op.isWrite || isAdd op) with
  | .ok =>
    let s := match rq.agent with
      | .engine e => s.trapAccess e t b
      | .host _ _ => s
    match op with
    | .read =>
      match s.readWords (readerOf rq who) a (len / 16) with
      | (some qs, s) => (.ok, quadsPayload qs, s)
      | (none, s) => (.uncorrectable, 0, s)
    | .amoadd v =>
      match s.memRead a (readerOf rq who) with
      | (some q, s) => (.ok, BitVec.ofNat 2048 (wordAt q 0).toNat, s.memStore a (addedWord q v))
      | (none, s) => (.uncorrectable, 0, s)
    | op => (.ok, 0, s.storeWords a (payloadQuads op.data len))
  | r => (r, 0, s)

/-! ### The frame window (R32, R126) -/

/-- The logical column that a physical column of a row serves; none for the one that S leaves out. -/
def State.logicalCol (s : State) (t row pc : Nat) : Option Nat :=
  let sc := s.fld F.STEER.S [t, row]
  if pc < sc then some pc else if pc = sc then none else some (pc - 1)

/-- The logical tile that a physical tile serves. -/
def State.logicalTile (s : State) (pt : Nat) : Option Nat :=
  let die := pt / 4160
  let row := pt % 4160 / 65
  (s.logicalCol (die / 2) row (pt % 65)).map fun c => tileNo die row c

/-- A write of slot `slot` of physical tile `pt` is permitted. -/
def State.frameWritable (s : State) (pt slot : Nat) : Bool :=
  s.labMode &&
    (decide (32 ≤ slot) || ((s.logicalTile pt).map s.benched).getD false || (!s.lapsRun && s.persona_ == 0))

/-- A word of a frame is written, and the frame stops being BAD. -/
def State.storeFrame (s : State) (pt slot word : Nat) (q : Quad) : State :=
  (s.setFrameWord pt slot word q).clearBad pt (s.slotOf pt slot)

def State.frameWords (s : State) : Nat → List Quad → State
  | _, [] => s
  | a, q :: qs => (s.storeFrame (frameTile a) (frameSlot a) (frameWordNo a) q).frameWords (a + 16) qs

def State.serveFrame (s : State) (op : ReqOp) (a len : Nat) : Resp × Payload × State :=
  if op.isWrite then
    if s.frameWritable (frameTile a) (frameSlot a) then (.ok, 0, s.frameWords a (payloadQuads op.data len))
    else (.roleDenied, 0, s)
  else
    (.ok, quadsPayload ((List.range (len / 16)).map fun i => s.frameWord (frameTile a) (frameSlot a) (frameWordNo a + i)), s)

/-! ### The state store window (R68, R114) -/

/-- A full load writes frames: from its check 6 until it ends. -/
def State.fullLoadRuns (s : State) : Bool := s.persona.job.any fun j => j.accepted && j.kind == 0

def State.stateWords (s : State) : Nat → List Quad → State
  | _, [] => s
  | a, q :: qs =>
    let k := stateKey (storeTile a) (storeWord a)
    let s := if storeWord a < 128 then s.setCommitted k q
      else { s with fab := { s.fab with nextState := Sparse.write s.fab.nextState (stateKey (storeTile a) (storeWord a - 128)) q } }
    s.stateWords (a + 16) qs

def State.stateQuad (s : State) (a : Nat) : Quad :=
  if storeWord a < 128 then s.committedWord (stateKey (storeTile a) (storeWord a))
  else Sparse.read s.fab.nextState (stateKey (storeTile a) (storeWord a - 128))

def State.serveState (s : State) (op : ReqOp) (a len : Nat) : Resp × Payload × State :=
  if s.lapsRun ∧ (op.isWrite ∨ 128 ≤ storeWord a) then (.bankNotOwned, 0, s)
  else if op.isWrite then
    if s.fullLoadRuns then (.bankNotOwned, 0, s) else (.ok, 0, s.stateWords a (payloadQuads op.data len))
  else (.ok, quadsPayload ((List.range (len / 16)).map fun i => s.stateQuad (a + 16 * i)), s)

/-! ### Host memory (R78, R210, R227, R234) -/

/-- The answer other than OK that the host die has given to an engine's own access to the word, if it has, taken (R231). -/
def State.hostFailure (s : State) (rq : Rq) (who : HeldBy) (h : Nat) : Option (Resp × State) :=
  match rq.agent, who with
  | .engine _, .chan _ => none
  | .engine e, _ =>
    (s.hostFails.find? fun f => f.1 == e && f.2.1 == h / 16).map fun f =>
      (respOfByte f.2.2, { s with hostFails := s.hostFails.erase f })
  | .host _ _, _ => none

/-- Host memory as it answers a device request. -/
def State.hostAccess (s : State) (tw : Nat) (op : ReqOp) (h len : Nat) : Resp × Payload × State :=
  match op with
  | .read =>
    match s.devRead tw h len with
    | (.ok, qs, _, s) => (.ok, quadsPayload qs, s)
    | (r, _, _, s) => (r, 0, s)
  | .amoadd v =>
    match s.devRead tw h 16 with
    | (.ok, qs, _, s) =>
      let q := qs.headD 0
      match s.devWrite tw h [addedWord q v] with
      | (.ok, s) => (.ok, BitVec.ofNat 2048 (wordAt q 0).toNat, s)
      | (r, s) => (r, 0, s)
    | (r, _, _, s) => (r, 0, s)
  | op =>
    match s.devWrite tw h (payloadQuads op.data len) with
    | (r, s) => (r, 0, s)

def State.serveHost (s : State) (rq : Rq) (who : HeldBy) (op : ReqOp) (a len : Nat) : Resp × Payload × State :=
  let h := a - hostBase
  match s.devRefusal (towerOf rq) h len op.isWrite, s.hostFailure rq who h with
  | none, some (r, s) => (r, 0, s)
  | _, _ => s.hostAccess (towerOf rq) op h len

end Sys2Proof.Machine
end

