-- ==== Sys2Proof/Machine/RegWrite.lean ====
section
/-! DEFINITION. Reads and writes of registers by role: the rights, what a write of each register does besides storing its fields,
and which writes the black box records (R9, R11, R12, R67, R123, R124, R129, R130, R137 to R140, R152, R155, R161, R162, R222,
R236, R280, R287, R330, R394). -/

namespace Sys2Proof.Machine

/-! ### Rights (R152, R155, R280) -/

/-- The counter unit that a register belongs to, for the registers of R152 and R155. -/
def counterUnit (r : RegName) (ix : List Nat) : Option Nat :=
  match r with
  | .CNT_T | .EVSEL_T | .UNIT_CTRL_T | .OVF_STAT_T | .OVF_TARGET_T | .SHADOW_T => some (unitOf true ix)
  | .CNT_P | .EVSEL_P | .UNIT_CTRL_P | .OVF_STAT_P | .OVF_TARGET_P | .SHADOW_P => some (unitOf false ix)
  | .TRACE_CTRL | .TRACE_STAT => some (ix.headD 0)
  | _ => none

/-- Registers that an operator reads only while the unit's READ bit is set. -/
def readGuarded : RegName → Bool
  | .CNT_T | .SHADOW_T | .CNT_P | .SHADOW_P | .TRACE_CTRL | .TRACE_STAT => true
  | _ => false

/-- An operator may read unit `u`. -/
def State.unitReadable (s : State) (role : Role) (u : Nat) : Bool :=
  role != .operator || (s.fld F.COUNTER_ACCESS.READ).testBit u

/-- An operator may write the registers of unit `u`. -/
def State.unitWritable (s : State) (role : Role) (u : Nat) : Bool :=
  role != .operator || (s.flag F.COUNTER_ACCESS.PROGRAM && (s.fld F.COUNTER_ACCESS.READ).testBit u)

def State.readRight (s : State) (role : Role) (r : RegName) (ix : List Nat) : Bool :=
  match counterUnit r ix with
  | some u => !readGuarded r || s.unitReadable role u
  | none => true

/-- A write that leaves every RW field as it is: it can only clear W1C bits. -/
def State.onlyClears (s : State) (r : RegName) (ix : List Nat) (h : Half) (v : W64) : Bool :=
  let m : W64 := BitVec.ofNat 64 (r.mask [.rw])
  s.merged r ix h v &&& m == s.reg r ix &&& m

/-- The role has the right to make the write. -/
def State.writeRight (s : State) (role : Role) (r : RegName) (ix : List Nat) (h : Half) (v : W64) : Bool :=
  match r with
  | .CHAIN_CFG | .CHAIN_LIMITS | .CHAIN_PORT | .FWD | .BRIDGE_CFG => role == .installer
  | .GATE => role == .installer || s.onlyClears r ix h v
  | .COUNTER_SNAP => role != .operator || s.fld F.COUNTER_ACCESS.READ != 0
  | _ =>
    match counterUnit r ix with
    | some u => s.unitWritable role u
    | none => r.right != .installer || role == .installer

/-! ### Lap engine and loader registers (R67, R117, R123, R129, R130, R140) -/

/-- LAP_COUNT, while halted: the next lap continues from it, and a pending activation is tested (R117, R129). -/
def State.writeLapCount (s : State) (h : Half) (v : W64) : Resp × State :=
  if s.lapsRun then (.bankNotOwned, s) else (.ok, (s.store .LAP_COUNT [] h v).activationByCount)

def State.writeLapPos (s : State) (h : Half) (v : W64) : Resp × State :=
  if s.lapsRun then (.bankNotOwned, s)
  else if h = .high then (.ok, s)
  else (.ok, s.put F.SCHED_STAT.POS (fieldIn F.LAP_POS.POS v))

def State.writeHalted (s : State) (r : RegName) (ix : List Nat) (h : Half) (v : W64) : Resp × State :=
  if s.lapsRun then (.bankNotOwned, s) else (.ok, s.store r ix h v)

/-- LAP_CTRL: STOP requests a halt; CLR_TORN clears TORN while laps are halted. -/
def State.writeLapCtrl (s : State) (h : Half) (v : W64) : Resp × State :=
  let s := if wrote F.LAP_CTRL.CLR_TORN h v && !s.lapsRun then { s with ref := { s.ref with torn := false } } else s
  (.ok, if wrote F.LAP_CTRL.STOP h v then s.requestStop else s)

/-- Bits of LAP_RETRY that are writable: CAUSES has only bits 4, 5, 6, 9 and 10. -/
def retryMask : W64 := 0xFFFF0670

def State.writeLapRetry (s : State) (h : Half) (v : W64) : Resp × State :=
  let old := s.reg .LAP_RETRY
  let m := retryMask &&& BitVec.ofNat 64 h.mask
  (.ok, s.setReg .LAP_RETRY [] ((old &&& ~~~m) ||| (v &&& m)))

/-- A write that takes effect at the next lap boundary (R137, R138, R148, R154). -/
def State.writeDelayed (s : State) (r : RegName) (ix : List Nat) (h : Half) (v : W64) : Resp × State :=
  if r = .BENCH ∧ s.unbenches (fun k => s.pendingValue .BENCH k) (ix.headD 0) (mergeWrite r h (s.pendingValue r ix) v) then (.bankNotOwned, s)
  else (.ok, s.writeBoundary r ix h v)

def State.writeActAt (s : State) (h : Half) (v : W64) : Resp × State :=
  if s.flag F.LOAD_STAT.ACT_PENDING then (.bankNotOwned, s) else (.ok, s.store .ACT_AT [] h v)

def State.writeLoadCtrl (s : State) (h : Half) (v : W64) : Resp × State :=
  let s := s.store .LOAD_CTRL [] h v
  (.ok, if wrote F.LOAD_CTRL.DISCARD h v then s.discardStaged else s)

/-! ### Counters, error logs, bank owners (R150 to R153, R161, R162, R171) -/

def State.writeSnap (s : State) (h : Half) (v : W64) : Resp × State :=
  let s := s.store .COUNTER_SNAP [] h v
  (.ok, if wrote F.COUNTER_SNAP.SNAP h v then s.snapshot else s)

/-- UNIT_CTRL: TRAP_EN exists in the engine units only. -/
def State.writeUnitCtrl (s : State) (r : RegName) (ix : List Nat) (h : Half) (v : W64) : Resp × State :=
  let u := (counterUnit r ix).getD 0
  let s := (s.latchCounts u).store r ix h v
  (.ok, if 4 ≤ u ∧ u < 20 then s else s.put (if r = .UNIT_CTRL_T then F.UNIT_CTRL_T.TRAP_EN else F.UNIT_CTRL_P.TRAP_EN) 0 ix)

/-- ECC_CTRL.CLEAR empties the log and clears OVERRUN. -/
def State.writeEccCtrl (s : State) (t : Nat) (h : Half) (v : W64) : Resp × State :=
  let s := s.store .ECC_CTRL [t] h v
  let s := if wrote F.ECC_CTRL.CLEAR h v then (s.put F.ECC_STAT.COUNT 0 [t]).put F.ECC_STAT.OVERRUN 0 [t] else s
  (.ok, s.eccFrozen t)

/-- The bank is bound in the loaded or active personality, or in a staged lap setup that is held (R124). -/
def State.bankBound (s : State) (t b : Nat) : Bool :=
  let k := 256 * t + b
  (s.persona_ != 0 && bit (Sparse.read s.fab.portBind k) 0) ||
    s.persona.stagedSetup.any fun u => bit (Sparse.read u.ports k) 0

/-- A cell of the pool in the bank is in use, or the pool may still take one (R162, R182). -/
def State.bankPooled (s : State) (t b : Nat) : Bool :=
  s.poolBanks.contains (256 * t + b) || decide (0 < s.poolUsed (256 * t + b))

def State.writeBankOwner (s : State) (t b : Nat) (h : Half) (v : W64) : Resp × State :=
  let ix := [t, b]
  let new := s.merged .BANK_OWNER ix h v
  let kind := fieldIn F.BANK_OWNER.KIND new
  let eng := if kind = 1 then fieldIn F.BANK_OWNER.ENGINE new else 0
  let was := s.fld F.BANK_OWNER.KIND ix
  if s.flag F.BANK_OWNER.PENDING ix then (.bankNotOwned, s)
  else if kind = was ∧ eng = s.fld F.BANK_OWNER.ENGINE ix then (.ok, s)
  else if (was = 0 ∧ s.bankBound t b) ∨ (was = 2 ∧ s.bankPooled t b) then (.bankNotOwned, s)
  else (.ok, ((s.put F.BANK_OWNER.KIND kind ix).put F.BANK_OWNER.ENGINE eng ix).put F.BANK_OWNER.PENDING 1 ix)

/-! ### Host channel and routers (R222, R223, R236) -/

def State.writeEvring (s : State) (h : Half) (v : W64) : Resp × State :=
  let o := fieldIn F.HC_EVRING.ORDER v
  if h ≠ .high ∧ (o < 6 ∨ 16 < o) then (.decodeError, s) else (.ok, s.store .HC_EVRING [] h v)

/-- CI moves forward as far as PI; any other write is ignored. -/
def State.writeEvringCi (s : State) (h : Half) (v : W64) : Resp × State :=
  let pi := s.fld F.HC_EVRING_IDX.PI
  let n := fieldIn F.HC_EVRING_IDX.CI v
  if h = .high then (.ok, s)
  else if ringUsed pi n ≤ ringUsed pi (s.fld F.HC_EVRING_IDX.CI) then (.ok, s.put F.HC_EVRING_IDX.CI n)
  else (.ok, s)

/-- A write of ROUTER_CFG waits: the router goes into HOLD for the first, and the others wait behind it. -/
def State.holdRouter (s : State) (rq : Rq) (role : Role) (who : HeldBy) (t r : Nat) (h : Half) (v : W64) (posted : Bool) : State :=
  let first := !s.inHold t r
  let s : State := { s with
    holds := s.holds ++ [⟨t, r, rq, h.code, v, who, role, BitVec.ofNat 16 (s.sessionOf rq), posted⟩] }
  if first then s.tally (20 + t) 0x20E else s

/-! ### Fuses -/

def State.writeFuseCtrl (s : State) (t : Nat) (h : Half) (v : W64) : Resp × State :=
  (.ok, if wrote F.FUSE_CTRL.COMMIT h v then s.commitFuses t else s)

/-! ### Each register's write -/

/-- What an accepted write of the lap engine's and the loader's registers does. -/
def State.writeLapReg (s : State) (r : RegName) (ix : List Nat) (h : Half) (v : W64) : Resp × State :=
  match r with
  | .LAP_CTRL => s.writeLapCtrl h v
  | .LAP_COUNT => s.writeLapCount h v
  | .LAP_POS => s.writeLapPos h v
  | .LAP_RETRY => s.writeLapRetry h v
  | .LAP_KIND => s.writeHalted r ix h v
  | .LAP_SCHED => s.writeHalted r ix h v
  | .ACT_AT => s.writeActAt h v
  | .LOAD_CTRL => s.writeLoadCtrl h v
  | _ => if waitsBoundary r then s.writeDelayed r ix h v else (.ok, s.store r ix h v)

/-- Registers of queues and flows. -/
def State.writeQueueReg (s : State) (role : Role) (r : RegName) (ix : List Nat) (h : Half) (v : W64) : Resp × State :=
  let n := ix.headD 0
  match r with
  | .Q_BIND => s.writeQBind role n h v
  | .Q_LEVEL => s.writeQLevel n h v
  | .Q_RING => s.writeQRing n h v
  | .Q_CTRL => s.writeQCtrl n h v
  | .POOL_BANK => s.writePoolBank n h v
  | .FLOW_BIND => s.writeFlowBind n h v
  | .FLOW_QUEUES => s.writeFlowQueues n h v
  | .FLOW_POS => s.writeFlowPos n h v
  | .DB_CREDIT => s.writeCredit n h v
  | .DB_RING_PI => s.writeRingPi n h v
  | .DB_RING_CI => s.writeRingCi n h v
  | _ => (.ok, s.store r ix h v)

/-- Registers of relay ports and of the chain. -/
def State.writeRelayReg (s : State) (r : RegName) (ix : List Nat) (h : Half) (v : W64) : Resp × State :=
  let n := ix.headD 0
  match r, ix with
  | .PORT_CTRL, [t, j] => s.writePortCtrl (4 * t + j) h v
  | .LANE_CTRL, [t, j, i] => s.writeLaneCtrl (4 * t + j) i h v
  | .LANE_EQ, [t, j, i] => s.writeLaneEq (4 * t + j) i h v
  | .CHAIN_CFG, _ => s.writeChainCfg h v
  | .CHAIN_LIMITS, _ => s.writeChainPlain r ix h v
  | .CHAIN_PORT, _ => s.writeChainPlain r ix h v
  | .FWD, _ => s.writeFwd n h v
  | .BRIDGE_CFG, _ => s.writeBridge n h v
  | .CHAIN_CTRL, _ => (.ok, if wrote F.CHAIN_CTRL.DISCARD h v then s.discardUndecided else s)
  | _, _ => (.ok, s.store r ix h v)

/-- Registers of the pin block. -/
def State.writePinReg (s : State) (rq : Rq) (role : Role) (r : RegName) (ix : List Nat) (h : Half) (v : W64) : Resp × State :=
  let n := ix.headD 0
  let w := h.part v
  match r with
  | .PIN_OWN => s.writePinOwn n h v
  | .PIN_CFG => s.writePinCfg rq role n h v
  | .GPIO_OUT => s.writeGpio rq .GPIO_OUT n fun old => (old &&& ~~~(BitVec.ofNat 64 h.mask)) ||| w
  | .GPIO_OE => s.writeGpio rq .GPIO_OE n fun old => (old &&& ~~~(BitVec.ofNat 64 h.mask)) ||| w
  | .GPIO_SET => s.writeGpio rq .GPIO_OUT n fun old => old ||| w
  | .GPIO_CLR => s.writeGpio rq .GPIO_OUT n fun old => old &&& ~~~w
  | .GPIO_TGL => s.writeGpio rq .GPIO_OUT n fun old => old ^^^ w
  | .DOUT => s.writeDout n h v
  | .PMU_CTRL => s.writePmu r ix h v
  | .PMU_SEL => s.writePmu r ix h v
  | .RU_CTRL => s.writeRuCtrl n h v
  | _ => (.ok, s.store r ix h v)

/-- What an accepted write of a register does: the response and the new state. -/
def State.writeEffect (s : State) (rq : Rq) (role : Role) (r : RegName) (ix : List Nat) (h : Half) (v : W64) : Resp × State :=
  let n := ix.headD 0
  match r, ix with
  | .LAP_CTRL, _ | .LAP_COUNT, _ | .LAP_POS, _ | .LAP_RETRY, _ | .LAP_KIND, _ | .LAP_SCHED, _ | .ACT_AT, _ | .LOAD_CTRL, _
  | .TRIG_CTRL, _ | .TRIG_ADDR, _ | .TRIG_MASK, _ | .TRIG_VALUE, _ | .LOG_CTRL, _ | .BENCH, _ | .TRACE_CTRL, _ =>
    s.writeLapReg r ix h v
  | .Q_BIND, _ | .Q_LEVEL, _ | .Q_RING, _ | .Q_CTRL, _ | .POOL_BANK, _ | .FLOW_BIND, _ | .FLOW_QUEUES, _ | .FLOW_POS, _
  | .DB_CREDIT, _ | .DB_RING_PI, _ | .DB_RING_CI, _ => s.writeQueueReg role r ix h v
  | .PORT_CTRL, _ | .LANE_CTRL, _ | .LANE_EQ, _ | .CHAIN_CFG, _ | .CHAIN_LIMITS, _ | .CHAIN_PORT, _ | .FWD, _
  | .BRIDGE_CFG, _ | .CHAIN_CTRL, _ => s.writeRelayReg r ix h v
  | .PIN_OWN, _ | .PIN_CFG, _ | .GPIO_OUT, _ | .GPIO_OE, _ | .GPIO_SET, _ | .GPIO_CLR, _ | .GPIO_TGL, _ | .DOUT, _
  | .PMU_CTRL, _ | .PMU_SEL, _ | .RU_CTRL, _ => s.writePinReg rq role r ix h v
  | .UNIT_CTRL_T, _ => s.writeUnitCtrl r ix h v
  | .UNIT_CTRL_P, _ => s.writeUnitCtrl r ix h v
  | .EVSEL_T, _ => (.ok, (s.latchCounts (unitOf true ix)).store r ix h v)
  | .EVSEL_P, _ => (.ok, (s.latchCounts (unitOf false ix)).store r ix h v)
  | .COUNTER_SNAP, _ => s.writeSnap h v
  | .BANK_OWNER, [t, b] => s.writeBankOwner t b h v
  | .ECC_CTRL, _ => s.writeEccCtrl n h v
  | .HC_EVRING, _ => s.writeEvring h v
  | .HC_EVRING_IDX, _ => s.writeEvringCi h v
  | .HR_BASE, _ => s.writeHrBase n h v
  | .HR_LIMIT, _ => s.writeHrLimit n h v
  | .SEC_CTRL, _ => s.writeSecCtrl rq h v
  | .ENROL_WINDOW, _ =>
    (.ok, s.setReg r ix ((s.reg r ix &&& ~~~(BitVec.ofNat 64 h.mask)) ||| h.part v))
  | .ENROL_CTRL, _ => s.writeEnrolCtrl rq role h v
  | .VR_CFG, _ => s.writeVrCfg n h v
  | .PKGCLK_CFG, _ => s.writeClk (.pkg (Fin.ofNat 4 n)) h v
  | .CLKDOM_CFG, [t, k] => s.writeClk (.dom (Fin.ofNat 4 t) (Fin.ofNat 6 k)) h v
  | .CLKGATE_MODE, _ => s.writeClkgateMode h v
  | .GATE, [t, b] => s.writeGate t b h v
  | .PKG_CAP, _ => s.writePkgCap rq h v
  | .PKG_THRESH, _ => s.writePkgThresh h v
  | .PD_CTRL, _ => s.writePdCtrl role n h v
  | .FUSE_CTRL, _ => s.writeFuseCtrl n h v
  | .MBX_MSG, [k, i] => s.writeMbxMsg rq k i h v
  | .MBX_CTRL, _ => s.writeMbxCtrl n h v
  | _, _ => (.ok, s.store r ix h v)

/-- The write is a recorded change (R130, R287, R350): one that needed the installer, LAP_RETRY, CHAIN_CTRL.DISCARD, PD_CTRL.
The power cap, an enrolment that succeeds and a lab-mode change have records of their own classes. -/
def State.writeRecorded (s : State) (r : RegName) (ix : List Nat) (h : Half) (v : W64) : Bool :=
  match r with
  | .PKG_CAP => false
  | .LAP_RETRY | .PD_CTRL | .CHAIN_CFG | .CHAIN_LIMITS | .CHAIN_PORT | .FWD | .BRIDGE_CFG => true
  | .CHAIN_CTRL => wrote F.CHAIN_CTRL.DISCARD h v
  | .GATE => !s.onlyClears r ix h v
  | .Q_BIND => s.bindRecorded (ix.headD 0) h v
  | .PIN_CFG => s.pinOwner (ix.headD 0) == 0
  | r => r.right == .installer

/-- The slot of the mailbox that a register belongs to. -/
def mailboxSlot (r : RegName) (ix : List Nat) : Option Nat :=
  match r with
  | .MBX_MSG | .MBX_ANS | .MBX_CTRL => ix.head?
  | .MBX_STAT => ix.head?
  | _ => none

/-- A mailbox slot is in the hands of another session (R394). -/
def State.slotDenies (s : State) (rq : Rq) (r : RegName) (ix : List Nat) : Bool :=
  match mailboxSlot r ix with
  | some k => !s.slotOpen rq k
  | none => false

/-- A register write that its form and its block's state allow. -/
def State.writeReg (s : State) (rq : Rq) (role : Role) (r : RegName) (ix : List Nat) (h : Half) (v : W64) : Resp × State :=
  if !s.writeRight role r ix h v then (.roleDenied, s)
  else if s.slotDenies rq r ix then (.bankNotOwned, s)
  else
    let old := s.reg r ix
    let recorded := s.writeRecorded r ix h v
    match s.writeEffect rq role r ix h v with
    | (.ok, s) => (.ok, if recorded then s.recordWrite rq (r.addr ix) old (s.reg r ix) else s)
    | (e, s) => (e, s)

/-- A register read that its form and its block's state allow: the whole register's bits, and the state after it. -/
def State.readReg (s : State) (rq : Rq) (role : Role) (r : RegName) (ix : List Nat) (h : Half) : Resp × W64 × State :=
  if !s.readRight role r ix then (.roleDenied, 0, s)
  else if s.slotDenies rq r ix then (.bankNotOwned, 0, s)
  else (.ok, h.pick (s.regView r ix), s.afterRead r ix h)

end Sys2Proof.Machine
end

