-- ==== Sys2Proof/Machine/Bus.lean ====
section
/-! DEFINITION. Requests on the package network: served, refused or held; deliveries after a wake; responses, timeouts, router
holds, events, queue operations and maintenance packets (R210 to R223, R226). -/

namespace Sys2Proof.Machine

/-! ### Serving a request -/

/-- The clock gate of the block behind a register address: tower and block (R319). -/
def gateOfAddr (a : Nat) : Option (Nat × Nat) :=
  if spaceOf a != .register then none
  else
    let o := a - 0x030000000000
    if o < 0x1000000 then
      if o / 0x100000 = 4 then some (pinDomain o - 2, 10) else none
    else
      let t := (o - 0x1000000) / 0x1000000
      match engineBlock a with
      | some (e, _) => some (t, e.val % 4)
      | none =>
        match o % 0x1000000 / 0x100000 with
        | 3 => some (t, 4)
        | 6 => some (t, 5)
        | 7 => some (t, if o % 0x100000 / 0x1000 < 2 then 7 else 8)
        | 8 => some (t, 6)
        | _ => none

/-- An access at a gated block opens its gate. -/
def State.touchGate (s : State) (a : Nat) : State :=
  match gateOfAddr a with
  | some (t, b) => s.gateAccess t b
  | none => s

/-- The part of a register that an access reaches (R8). -/
def halfOfAccess (a len : Nat) : Half := if len = 8 then .full else if a % 8 = 0 then .low else .high

/-- A write's data at its place in the register. -/
def placed (h : Half) (d : Payload) : W64 :=
  match h with
  | .full => BitVec.ofNat 64 d.toNat
  | .low => BitVec.ofNat 64 (bitsOf d 31 0)
  | .high => BitVec.ofNat 64 (bitsOf d 31 0 * 2 ^ 32)

/-- A register access that reaches its block. -/
def State.serveReg (s : State) (rq : Rq) (role : Role) (who : HeldBy) (op : ReqOp) (a len : Nat) : Served × State :=
  let h := halfOfAccess a len
  match targetAt (a / 8 * 8) with
  | none => (.done .decodeError 0, s)
  | some (.engine e off) =>
    if op.isWrite then (.done .ok 0, s)
    else (.done .ok ((h.pick ((s.engineView e off).getD 0)).setWidth 2048), s)
  | some (.reg r ix) =>
    if op.isWrite then
      match r, ix with
      | .ROUTER_CFG, [t, n] =>
        if role = .installer then (.waits, s.holdRouter rq role who t n h (placed h op.data) op.isPosted)
        else (.done .roleDenied 0, s)
      | _, _ =>
        match s.writeReg rq role r ix h (placed h op.data) with
        | (x, s) => (.done x 0, s)
    else
      match s.readReg rq role r ix h with
      | (x, v, s) => (.done x (v.setWidth 2048), s)

/-- A push through a doorbell window. -/
def State.servePush (s : State) (role : Role) (op : ReqOp) (a : Nat) : Served × State :=
  match s.pushWindow role ((a - doorbellBase) / 0x1000) (op.data.setWidth 512) with
  | (x, s) => (.done x 0, s)

/-- A request at a block that answers. -/
def State.serveNow (s : State) (rq : Rq) (role : Role) (who : HeldBy) (op : ReqOp) (a len : Nat) : Served × State :=
  let pack (p : Resp × Payload × State) : Served × State := (.done p.1 p.2.1, p.2.2)
  match spaceOf a with
  | .memory => pack (s.serveMemory rq role who op a len)
  | .frame => pack (s.serveFrame op a len)
  | .stateStore => pack (s.serveState op a len)
  | .host => pack (s.serveHost rq who op a len)
  | .none => (.done .decodeError 0, s)
  | _ => if isPush rq op a len then s.servePush role op a else (s.touchGate a).serveReg rq role who op a len

/-- Refusals by role are counted (R280). -/
def State.countDenied (p : Served × State) : Served × State :=
  match p with
  | (.done .roleDenied d, s) => (.done .roleDenied d, s.denied)
  | p => p

/-- A request that has reached a block whose domain serves it: LAYER_RESET, or the block's own answer (R26). -/
def State.serveOn (s : State) (rq : Rq) (role : Role) (who : HeldBy) (op : ReqOp) (a len : Nat) : Served × State :=
  if s.targetHeld a then (.done .layerReset 0, s) else State.countDenied (s.serveNow rq role who op a len)

/-- What a memory-mapped request meets on its way to its block, in order: its form and address, and the fence at its port, which
refuses it or holds it; none where it reaches the block (R10, R26, R210, R220, R221). -/
def State.arrive (s : State) (rq : Rq) (role : Role) (who : HeldBy) (op : ReqOp) (a len : Nat) (poison : Bool := false) :
    Option (Served × State) :=
  match formRefusal rq op a len with
  | some r => some (.done r 0, s)
  | none =>
    if !assigned rq op a len then some (.done .decodeError 0, s)
    else if s.targetOff rq a then
      if s.wakes rq a then some (.waits, s.holdAt rq role who op a len poison)
      else some (.done .domainOff 0, s.offRefusal rq a)
    else none

/-- A memory-mapped request: what it meets on its way, then the target's reset, the role and the block (R26, R210, R220, R221). -/
def State.serve (s : State) (rq : Rq) (role : Role) (who : HeldBy) (op : ReqOp) (a len : Nat) : Served × State :=
  match s.arrive rq role who op a len with
  | some p => p
  | none => s.serveOn rq role who op a len

/-! ### Answers to requests of the network -/

/-- The response leaves; a refused posted write leaves an error record instead (R204, R216, R220). -/
def State.respond (s : State) (rq : Rq) (op : ReqOp) (a len : Nat) (r : Resp) (data : Payload) : State :=
  match op with
  | .read => s.answer rq true r len (if r = .ok then data else 0)
  | .amoadd _ => s.answer rq true r 8 (if r = .ok then data else 0)
  | .posted _ => if r = .ok then s else s.refuse rq op a r
  | op => if r = .ok then s.answer rq false r 0 0 else s.refuse rq op a r

/-- A request of the network: a form that no endpoint sends, or an address that none serves, is refused first; then a session that is
not bound; then it is served and answered, or held (R10, R210, R229). -/
def State.request (s : State) (rq : Rq) (op : ReqOp) (a len : Nat) : State :=
  match s.roleOf rq, formRefusal rq op a len with
  | none, none => s.respond rq op a len (if assigned rq op a len then .roleDenied else .decodeError) 0
  | none, some r => s.respond rq op a len r 0
  | some role, _ =>
    match s.serve rq role .bus op a len with
    | (.done r d, s) => s.respond rq op a len r d
    | (.waits, s) => s

/-! ### What the routers find (R212) -/

/-- The code of a port of a router as ROUTER_ERR.INPUT gives it, and the packet, discarded there. -/
def State.discardPacket (s : State) (t r input vn : Nat) : State :=
  let ix := [t, r]
  ((s.count F.ROUTER_ERR.DISCARDS ix).put F.ROUTER_ERR.INPUT input ix).put F.ROUTER_ERR.VN vn ix

/-- No response will reach the requester, who waits for TIMEOUT (R217); one that asked for none waits for nothing. -/
def State.loseAnswer (s : State) (rq : Rq) (op : ReqOp) : State :=
  if op.isPosted then s else { s with lost := s.lost ++ [rq] }

/-- A poisoned request: refused UNCORRECTABLE where nothing refuses it before. -/
def State.requestPoisoned (s : State) (rq : Rq) (op : ReqOp) (a len : Nat) : State :=
  match s.roleOf rq with
  | none => s.request rq op a len
  | some role =>
    match s.arrive rq role .bus op a len true with
    | some (.done r d, s) => s.respond rq op a len r d
    | some (.waits, s) => s
    | none => s.respond rq op a len (if s.targetHeld a then .layerReset else .uncorrectable) 0

/-- What the request does, with its response discarded on the way: no answer is sent. -/
def State.requestUnanswered (s : State) (rq : Rq) (op : ReqOp) (a len : Nat) : State :=
  let u := s.request rq op a len
  if u.answers.length = s.answers.length ∧ u.hostOut.length = s.hostOut.length then u
  else ({ u with answers := s.answers, hostOut := u.hostOut.filter fun m => s.hostOut.contains m } : State).loseAnswer rq op

/-- What the request does, with its response poisoned on the way: data that arrived OK becomes UNCORRECTABLE (R172, R212). -/
def State.requestSpoilt (s : State) (rq : Rq) (op : ReqOp) (a len : Nat) : State :=
  match op.isWrite, s.roleOf rq with
  | false, some role =>
    match s.serve rq role .bus op a len with
    | (.done .ok _, s) => s.respond rq op a len .uncorrectable 0
    | (.done r d, s) => s.respond rq op a len r d
    | (.waits, s) => s
  | _, _ => s.request rq op a len

/-- A request of the network, with what the routers on its path find of it. -/
def State.requestOver (s : State) (path : Path) (rq : Rq) (op : ReqOp) (a len : Nat) : State :=
  match path with
  | .clean => s.request rq op a len
  | .corrected t r => ((s.count F.ROUTER_STAT.CORRECTED [t.val, r.val]).tally (20 + t.val) 0x20D).request rq op a len
  | .discarded t r input => (s.discardPacket t.val r.val input.val 0).loseAnswer rq op
  | .poisoned => s.requestPoisoned rq op a len
  | .answerDiscarded t r input => (s.requestUnanswered rq op a len).discardPacket t.val r.val input.val 1
  | .answerPoisoned => s.requestSpoilt rq op a len
  | .arrayError uncorr => (if spaceOf a = .memory then s.upset (a / 16 * 16) uncorr else s).request rq op a len

/-- What ends a command of the network. -/
def State.finish (s : State) : State := s.checkTests.settleV

def execRead (rq : Rq) (addr : Addr) (len : Nat) (path : Path) (s : State) : Out :=
  .next (s.requestOver path rq .read addr.toNat len).finish
def execWrite (rq : Rq) (addr : Addr) (len : Nat) (data : Payload) (path : Path) (s : State) : Out :=
  .next (s.requestOver path rq (.write data) addr.toNat len).finish
def execWritePosted (rq : Rq) (addr : Addr) (len : Nat) (data : Payload) (path : Path) (s : State) : Out :=
  .next (s.requestOver path rq (.posted data) addr.toNat len).finish
def execAmoaddRequest (rq : Rq) (addr : Addr) (v : W64) (path : Path) (s : State) : Out :=
  .next (s.requestOver path rq (.amoadd v) addr.toNat 16).finish

/-! ### Queue operations, frame traffic and pool entries as packets (R182, R211, R220, R221) -/

/-- The requester is the end of the queue that the operation needs. -/
def State.isProducer (s : State) (ag : Agent) (q : Nat) : Bool :=
  match ag with
  | .engine e => s.producer q == .engine e.val
  | .host _ _ => s.producer q == .host

def State.isConsumer (s : State) (ag : Agent) (q : Nat) : Bool :=
  match ag with
  | .engine e => s.consumer q == .engine e.val
  | .host _ _ => false

/-- The credit of queue `q` that an engine keeps back for its completion item (R95). -/
def State.keptBack (s : State) (ag : Agent) (q : Nat) : Nat :=
  match ag with
  | .engine e => b2n ((s.eng e).cqHeld && (s.eng e).cq.toNat == q)
  | .host _ _ => 0

/-- A push under a role: the result code of QPUSH, or none where the queue's ROLE refuses it (R186, R189, R206). -/
def State.tryPush (s : State) (ag : Agent) (role : Role) (q : Nat) (x : Item) : Option Nat × State :=
  if !s.isProducer ag q then (some 2, s)
  else if s.flag F.Q_BIND.CMD [q] ∧ s.fld F.Q_BIND.ROLE [q] ≠ roleCode role then (none, s.denied)
  else if s.credits q ≤ s.keptBack ag q then (some 1, s)
  else (some 0, s.pushCell q x)

/-- A pop: the result code of QPOP and the item, or none where the head is uncorrectable (R205, R206). -/
def State.tryPop (s : State) (ag : Agent) (q : Nat) : Option (Nat × Option Item) × State :=
  if !s.isConsumer ag q then (some (2, none), s)
  else if s.flag F.Q_STAT.FAULTED [q] then (some (0, none), s)
  else match s.headCell q with
    | none => (some (0, none), s)
    | some c => if c.poison then (none, s.readCell q 0) else (some (1, some c.item), (s.readCell q 0).popCell q)

/-- A grant: the credits held afterwards (R188). -/
def State.tryGrant (s : State) (ag : Agent) (q n : Nat) : Nat × State :=
  if !s.isProducer ag q then (0, s)
  else
    let s := s.grant q n
    (s.credits q, s)

def codeWord (n : Nat) : Payload := BitVec.ofNat 2048 n

/-- The address at which the queue manager takes the packets of a queue. -/
def queueAddr (q : Qn) : Nat := doorbellBase + q.val * 0x1000

/-- One packet at the queue manager. A push without a role's right leaves an error record (R186, R204). -/
def State.queueServed (s : State) (rq : Rq) (role : Role) (q : Qn) (op : QOp) : State :=
  match op with
  | .push x =>
    match s.tryPush rq.agent role q.val x with
    | (some n, s) => s.answer rq true .ok 8 (codeWord n)
    | (none, s) => s.refuse rq (.queue q op) (queueAddr q) .roleDenied
  | .pop =>
    match s.tryPop rq.agent q.val with
    | (some (_, some x), s) => s.answer rq true .ok 64 (x.setWidth 2048)
    | (some (n, none), s) => s.answer rq true .ok 8 (codeWord n)
    | (none, s) => s.answer rq true .uncorrectable 0 0
  | .grant n =>
    match s.tryGrant rq.agent q.val n.toNat with
    | (c, s) => s.answer rq true .ok 8 (codeWord c)
  | .delivery f => if s.flowIn f.val = some q.val then s.deliverItem f.val else s

/-- A write of a POOL_BANK entry whose own address reaches another register (notes/assumptions 75). -/
def State.poolServed (s : State) (rq : Rq) (role : Role) (i : Fin 64) (v : W64) : State :=
  let a := RegName.POOL_BANK.addr [i.val]
  match (s.touchGate a).writeReg rq role .POOL_BANK [i.val] .full v with
  | (.ok, s) => s.answer rq false .ok 0 0
  | (.roleDenied, s) => s.denied.refuse rq (.poolBank i v) a .roleDenied
  | (x, s) => s.refuse rq (.poolBank i v) a x

/-- What a packet that is no memory-mapped access does at its block. -/
def State.packetServed (s : State) (rq : Rq) (role : Role) (op : ReqOp) (a : Nat) : State :=
  match op with
  | .queue q op => s.queueServed rq role q op
  | .maint q => s.storeFrame (frameTile a) (frameSlot a) (frameWordNo a) q
  | .poolBank i v => s.poolServed rq role i v
  | _ => s

/-- A packet that is no memory-mapped access: held or refused at a fence, refused in a reset, or served (R220, R221). -/
def State.packet (s : State) (rq : Rq) (role : Role) (op : ReqOp) (a : Nat) : State :=
  if s.targetOff rq a then
    if s.wakes rq a then s.holdAt rq role .bus op a 8 else (s.offRefusal rq a).refuse rq op a .domainOff
  else if s.targetHeld a then s.refuse rq op a .layerReset
  else s.packetServed rq role op a

/-! ### Loads and stores of engines, and deliveries after a wake (R76 to R78, R221) -/

/-- The requester and tag of an engine's own accesses. -/
def engRq (e : Eng) : Rq := ⟨.engine e, 0⟩

def LoadForm.op : LoadForm → ReqOp
  | .add v => .amoadd v
  | _ => .read

def LoadForm.len : LoadForm → Nat
  | .word => 8
  | .half => 4
  | _ => 16

/-- The registers that a load writes. -/
def Engine.loaded (en : Engine) (rd : Gpr) (form : LoadForm) (d : Payload) : Engine :=
  match form with
  | .quad => (en.put rd (wordAt d 0)).put (pairHi rd) (wordAt d 1)
  | _ => en.put rd (wordAt d 0)

/-- The answer to a load has arrived. -/
def State.loadArrived (s : State) (e : Eng) (rd : Gpr) (form : LoadForm) (addr : W64) (r : Resp) (d : Payload) : State :=
  if r = .ok then (s.onEng e fun en => en.loaded rd form d).endWait e 0 0 2 else s.loadTrap e r addr

/-- The load reads a vault line and so waits for its verdict (R78). -/
def State.vaultLoads (s : State) (form : LoadForm) (a : Nat) : Bool :=
  spaceOf a == .host && decide (form.len = 16) && (s.vaultOf (a - hostBase) 16 false).isSome && !s.targetOff (engRq 0) a

/-- A load of device space: its data, a trap, or a wait for a waking domain or for a verdict. -/
def State.engineLoad (s : State) (e : Eng) (rd : Gpr) (form : LoadForm) (addr : W64) : State :=
  let a := addr.toNat
  if s.vaultLoads form a then
    match s.devRead (e.val / 4) (a - hostBase) 16 with
    | (.ok, _, _, s) => s.waitIn e (.vaultLoad rd (match form with | .add v => some v | _ => none) a)
    | (r, _, _, s) => s.loadTrap e r addr
  else
    match s.serve (engRq e) (s.eng e).role .load form.op a form.len with
    | (.done r d, s) => s.loadArrived e rd form addr r d
    | (.waits, s) => s.waitIn e (.access rd form addr)

/-- A held request is delivered (R221), under the role and session it was accepted with (R286); a store's answer is on the way; an
instruction of an engine that waited issues again. -/
def State.deliverHeld (s : State) (h : Held) : State :=
  match h.rq.agent, h.who with
  | .engine e, .load =>
    match (s.eng e).heldLoad h.addr with
    | some (rd, form, addr) => s.engineLoad e rd form addr
    | none => s
  | .engine e, .store =>
    let p := { s with carried := some (h.role, h.session) }.serve h.rq h.role .store h.op h.addr h.len
    let s : State := { p.2 with carried := none }
    match p.1 with
    | .done r _ => s.onEng e fun en => { en with stores := fillStore (BitVec.ofNat 64 h.addr) r.byte en.stores }
    | .waits => s
  | .engine _, .chan _ => s
  | .engine e, .instr =>
    if (s.eng e).waiting = some .held then s.onEng e fun en => { en with state := .running, waiting := none } else s
  | _, .discarded =>
    let u := s.carrying h.role h.session fun s => s.request h.rq h.op h.addr h.len
    { u with answers := s.answers, hostOut := u.hostOut.filter fun m => s.hostOut.contains m }
  | _, _ => s.carrying h.role h.session fun s =>
    match h.op with
    | .read | .write _ | .posted _ | .amoadd _ =>
      if h.poison then s.requestPoisoned h.rq h.op h.addr h.len else s.request h.rq h.op h.addr h.len
    | op => s.packet h.rq h.role op h.addr

/-- Held requests whose domain is in RUN and whose router is not in HOLD go on, in the order of arrival (R221, R223). -/
def State.deliverWhere (s : State) (f : Held → Bool) : State :=
  let mine := s.held.filter f
  let s : State := { s with held := s.held.filter fun h => !f h }
  mine.foldl (fun s h => s.deliverHeld h) s

/-- The router that holds a request is in HOLD. -/
def State.heldByHold (s : State) (h : Held) : Bool := s.inHold (portOf h.rq h.addr).tower (portOf h.rq h.addr).router

/-- The domain has reached RUN: what its fences held goes on; what a router in HOLD holds stays until the hold's end. -/
def State.deliverDomain (s : State) (d : Nat) : State := s.deliverWhere fun h => h.dom == d && !s.heldByHold h

/-- The domain has not reached RUN within 1 ms of the first hold: its held requests are refused. -/
def execWakeHoldExpiry (d : Pd) (s : State) : Out :=
  if s.serves d.val then .next s
  else
    let n := (s.held.filter fun h => h.dom == d.val)
    let s := n.foldl (fun s h => s.offRefusal h.rq h.addr) s
    let s : State := { s with held := s.held.filter fun h => h.dom != d.val }
    .next (n.foldl (fun s h => s.endHeld h .domainOff) s).finish

/-! ### Responses (R216, R217) -/

/-- The first answer that matches is taken by its requester. -/
def dropAnswer (rq : Rq) (read : Bool) : List Answer → List Answer
  | [] => []
  | x :: rest => if x.rq = rq ∧ x.read = read then rest else x :: dropAnswer rq read rest

def execReadResp (rq : Rq) (s : State) : Out := .next { s with answers := dropAnswer rq true s.answers }
def execWriteResp (rq : Rq) (s : State) : Out := .next { s with answers := dropAnswer rq false s.answers }

/-- A request that has no answer within the limit and that its requester gives up: a later answer is discarded (R217). -/
def State.giveUp (s : State) (h : Held) : State :=
  { s with held := s.held.map fun x => if x == h then { x with who := .discarded } else x }

/-- What a requester is told of its request held at a fence: TIMEOUT. A posted write and a MAINT packet have no answer to wait
for. -/
def State.timeOutHeld (s : State) (h : Held) : State :=
  match h.rq.agent, h.who, h.op with
  | .engine _, .load, _ | .engine _, .store, _ | .engine _, .chan _, _ | .engine _, .instr, _ => (s.giveUp h).endHeld h .timeout
  | _, _, .posted _ | _, _, .maint _ | _, _, .queue _ (.push _) | _, _, .queue _ (.delivery _) => s
  | _, _, op => (s.giveUp h).carrying h.role h.session fun s => s.respond h.rq op h.addr h.len .timeout 0

/-- The address that a write of ROUTER_CFG named. -/
def RouterHold.addr (h : RouterHold) : Nat := RegName.ROUTER_CFG.addr [h.tower, h.router] + (if h.half = 2 then 4 else 0)

/-- The same for a write of ROUTER_CFG that waits for the router. -/
def State.timeOutHold (s : State) (h : RouterHold) : State :=
  if h.posted then s
  else
    let s : State := { s with holds := s.holds.map fun x => if x == h then { x with who := .discarded } else x }
    match h.rq.agent, h.who with
    | .engine e, .store => s.onEng e fun en => { en with stores := fillStore (BitVec.ofNat 64 h.addr) Resp.timeout.byte en.stores }
    | _, _ => s.carrying h.role h.session fun s => s.answer h.rq false .timeout 0 0

/-- A response on its way is overtaken by the requester's TIMEOUT, and discarded when it comes. -/
def State.timeOutAnswer (s : State) (x : Answer) : State :=
  ({ s with answers := s.answers.erase x } : State).answer x.rq x.read .timeout 0 0

/-- The oldest request of `rq` that is unanswered: held at a fence, waiting for a router, its response on the way, or lost. -/
def State.timeOut (s : State) (rq : Rq) : State :=
  match s.held.find? fun h => h.rq == rq && h.who != .discarded with
  | some h => s.timeOutHeld h
  | none =>
    match s.holds.find? fun h => h.rq == rq && h.who != .discarded with
    | some h => s.timeOutHold h
    | none =>
      if s.lost.contains rq then ({ s with lost := s.lost.erase rq } : State).answer rq true .timeout 0 0
      else match s.answers.find? fun x => x.rq == rq with
        | some x => s.timeOutAnswer x
        | none => s

/-- REQUEST_TIMEOUT for the requester and tag, where a request of theirs is unanswered. -/
def execRequestTimeout (rq : Rq) (s : State) : Out :=
  if (s.held.any fun h => h.rq == rq && h.who != .discarded) || (s.holds.any fun h => h.rq == rq && h.who != .discarded) ||
      s.lost.contains rq || s.answers.any fun x => x.rq == rq
  then .next (s.timeOut rq).finish else .next s

/-- A tag of the host's is outstanding on module `m`, of whatever session: a request with a response that is held, that waits for a
router, or that is lost (R230). A request given up after TIMEOUT is answered. -/
def State.tagOut (s : State) (m : Module) (tag : BitVec 10) : Bool :=
  let mine (rq : Rq) : Bool := match rq.agent with | .host k _ => k == m && rq.tag == tag | .engine _ => false
  (s.held.any fun h => mine h.rq && h.who == .bus && !h.op.isPosted) ||
    (s.holds.any fun h => mine h.rq && h.who == .bus && !h.posted) || s.lost.any mine

/-! ### Router holds (R222, R223) -/

/-- A write of ROUTER_CFG is answered; one without a response leaves an error record where it failed. -/
def State.answerHold (s : State) (h : RouterHold) (r : Resp) : State :=
  match h.rq.agent, h.who with
  | _, .discarded => s
  | .engine e, .store => s.onEng e fun en => { en with stores := fillStore (BitVec.ofNat 64 h.addr) r.byte en.stores }
  | _, _ =>
    if h.posted then (if r = .ok then s else s.postedFailed h.rq r 0xFFFF (BitVec.ofNat 64 h.addr))
    else s.carrying h.role h.session fun s => s.answer h.rq false r 0 0

/-- The router leaves HOLD: the fences raised meanwhile act, and packets that it held for domains since in RUN go on (R223). -/
def State.leaveHold (s : State) (t r : Nat) : State :=
  let s : State := { s with fenceWait := s.fenceWait.filter fun w => !(w.1 == t && w.2.1 == r) }
  s.deliverWhere fun h => (portOf h.rq h.addr).tower == t && (portOf h.rq h.addr).router == r && s.serves h.dom

/-- The hold of the router ends; the next write that waits begins the next hold. -/
def State.endHold (s : State) (h : RouterHold) (r : Resp) : State :=
  let s := ({ s with holds := s.holds.erase h } : State).answerHold h r
  if s.inHold h.tower h.router then s.tally (20 + h.tower) 0x20E else s.leaveHold h.tower h.router

/-- The buffers are empty: the settings apply, and the write is recorded under the role that made it (R222, R286, R287). -/
def execRouterHoldDrained (t : Tower) (r : Fin 24) (s : State) : Out :=
  match s.routerHolds t.val r.val with
  | [] => .next s
  | h :: _ =>
    let ix := [t.val, r.val]
    let old := s.reg .ROUTER_CFG ix
    let s := s.store .ROUTER_CFG ix (halfOfCode h.half) h.value
    let s := s.carrying h.role h.session fun s => s.recordWrite h.rq (RegName.ROUTER_CFG.addr ix) old (s.reg .ROUTER_CFG ix)
    .next (s.endHold h .ok).finish

def execRouterHoldTimeout (t : Tower) (r : Fin 24) (s : State) : Out :=
  match s.routerHolds t.val r.val with
  | [] => .next s
  | h :: _ =>
    let s := (s.put F.ROUTER_STAT.HOLD_TIMEOUT 1 [t.val, r.val]).tally (20 + t.val) 0x20F
    .next (s.endHold h .routerHoldTimeout).finish

/-! ### Events, queue operations, maintenance and relay packets (R83, R211, R220, R236) -/

def execEvent (m : EvMsg) (s : State) : Out :=
  match m with
  | .toEngine e b d => .next (s.signalEngine e b d).finish
  | .toHost ty src ix d => .next (s.hostEvent ty src ix d).finish

def execNotifyHoldoffEnd (s : State) : Out :=
  let s : State := { s with holdoff := false }
  if s.notifyDue then .next { s with notifyDue := false }.notify else .next s

/-- A request of a session that is not bound gets no further (R229). -/
def execQueueOp (rq : Rq) (q : Qn) (op : QOp) (s : State) : Out :=
  match s.roleOf rq with
  | none => .next (s.answer rq true .roleDenied 0 0)
  | some role => .next (s.packet rq role (.queue q op) (queueAddr q)).finish

/-- A maintenance packet: a word of frame traffic, discarded at a fence that does not wake its domain or in a reset (R211, R220). -/
def State.maintain (s : State) (a : Nat) (q : Quad) : State :=
  let rq := engRq 0
  if spaceOf a ≠ .frame ∨ a % 16 ≠ 0 ∨ !assigned rq .read a 16 then s else s.packet rq .operator (.maint q) a

def execMaint (m : Maint) (s : State) : Out := .next (s.maintain m.addr.toNat m.data).finish

end Sys2Proof.Machine
end

