-- ==== Sys2Proof/Machine/Bring.lean ====
section
/-! DEFINITION. Power sequences as they complete, and the order in which the package comes up (R221, R336, R337, R361, R384). -/

namespace Sys2Proof.Machine

/-- The domain's sequence toward DEEP or OFF cannot end while a bank test copies back in it (R361). -/
def State.sequenceWaits (s : State) (d : Nat) : Bool :=
  s.copiesBack d && (s.pdTarget d == 0 || s.pdTarget d == 3)

/-- What a sequence that has brought a domain to RUN lets go on: held requests, and during start-up the tower's quick splits
and the package's loops. -/
def State.afterRun (s : State) (d : Nat) : State :=
  let s := if s.serves d then s.deliverDomain d else s
  let s := if d = 1 ∧ !s.ref.bootDone ∧ s.pd 1 = 1 then (s.startLoop (.pkg 2)).startLoop (.pkg 3) else s
  match towerOfPd d with
  | some t =>
    if s.ref.bootDone && decide (s.ref.sbState ≠ 2) && s.pd d == 1 && s.ref.bringUp.all (fun x => towerOfPd x != some t) &&
        s.towerUp t && !(s.sweeps.any fun w => w.tower.val == t)
    then s.startQuick (Fin.ofNat 4 t) else s
  | none => s

def execSequenceComplete (d : Pd) (s : State) : Out :=
  if !s.pdBusy d.val || s.sequenceWaits d.val then .next s
  else .next ((s.completeSequence d.val).afterRun d.val).checkReady.finish

/-- The next domain of the order of R336 starts its sequence, 20 µs after the one before it. -/
def execDomainStart (s : State) : Out := .next s.bringUpNext.checkReady.finish

end Sys2Proof.Machine
end

