-- ==== Sys2Proof/Machine/Flags.lean ====
section
/-! DEFINITION. No instruction sets flags (R69). What takes their place: the comparison results that CMP, MIN, MAX and the
branches use. -/

namespace Sys2Proof.Machine

/-- CMP: −1, 0 or 1, signed. -/
def cmpWord (a b : W64) : W64 := if a.slt b then -1 else if a = b then 0 else 1
def minWord (a b : W64) : W64 := if a.slt b then a else b
def maxWord (a b : W64) : W64 := if a.slt b then b else a

end Sys2Proof.Machine
end

