-- ==== Sys2Proof/Machine/EngineAlu.lean ====
section
/-! DEFINITION. Engine instructions on registers alone: arithmetic, logic, and flow of control. -/

namespace Sys2Proof.Machine

/-- rd = f ra rb in `n` cycles. -/
def aluOp (f : W64 → W64 → W64) (n : W64) (e : Eng) (rd ra rb : Gpr) (s : State) : Out :=
  issue e s fun s => s.retireWith e rd (f ((s.eng e).get ra) ((s.eng e).get rb)) n

/-- rd = f ra immediate in one cycle. -/
def immOp (f : W64 → W64) (e : Eng) (rd ra : Gpr) (s : State) : Out :=
  issue e s fun s => s.retireWith e rd (f ((s.eng e).get ra)) 1

/-- The program counter goes to `t`, or the branch traps because `t` lies outside the instruction scratchpad (R70). -/
def State.jump (s : State) (e : Eng) (t : W64) : State :=
  if 0xFFF8 < t.toNat then s.trap e .illegal t
  else (s.tally (unitOfEngine e) 0x100).onEng e fun en => { en.tick 2 with pc := BitVec.ofNat 16 t.toNat }

def branchOp (c : W64 → W64 → Bool) (e : Eng) (ra rb : Gpr) (disp : BitVec 41) (s : State) : Out :=
  issue e s fun s =>
    if c ((s.eng e).get ra) ((s.eng e).get rb) then s.jump e ((s.eng e).target disp) else s.retire e 1

def execNop (e : Eng) (s : State) : Out := issue e s fun s => s.retire e 1
def execAdd (e : Eng) (rd ra rb : Gpr) (s : State) : Out := aluOp (· + ·) 1 e rd ra rb s
def execSub (e : Eng) (rd ra rb : Gpr) (s : State) : Out := aluOp (· - ·) 1 e rd ra rb s
def execAnd (e : Eng) (rd ra rb : Gpr) (s : State) : Out := aluOp (· &&& ·) 1 e rd ra rb s
def execOr (e : Eng) (rd ra rb : Gpr) (s : State) : Out := aluOp (· ||| ·) 1 e rd ra rb s
def execXor (e : Eng) (rd ra rb : Gpr) (s : State) : Out := aluOp (· ^^^ ·) 1 e rd ra rb s
/-- SHL, SHR, SHA shift by rb[5:0]. -/
def execShl (e : Eng) (rd ra rb : Gpr) (s : State) : Out := aluOp (fun a b => a <<< shiftCount b) 1 e rd ra rb s
def execShr (e : Eng) (rd ra rb : Gpr) (s : State) : Out := aluOp (fun a b => a >>> shiftCount b) 1 e rd ra rb s
def execSha (e : Eng) (rd ra rb : Gpr) (s : State) : Out := aluOp (fun a b => a.sshiftRight (shiftCount b)) 1 e rd ra rb s
def execMul (e : Eng) (rd ra rb : Gpr) (s : State) : Out := aluOp (· * ·) 3 e rd ra rb s
def execMin (e : Eng) (rd ra rb : Gpr) (s : State) : Out := aluOp minWord 1 e rd ra rb s
def execMax (e : Eng) (rd ra rb : Gpr) (s : State) : Out := aluOp maxWord 1 e rd ra rb s
def execCmp (e : Eng) (rd ra rb : Gpr) (s : State) : Out := aluOp cmpWord 1 e rd ra rb s
def execMov (e : Eng) (rd ra : Gpr) (s : State) : Out := immOp id e rd ra s
def execAddi (e : Eng) (rd ra : Gpr) (imm : BitVec 46) (s : State) : Out := immOp (· + sext imm) e rd ra s
def execAndi (e : Eng) (rd ra : Gpr) (imm : BitVec 46) (s : State) : Out := immOp (· &&& zext imm) e rd ra s
def execOri (e : Eng) (rd ra : Gpr) (imm : BitVec 46) (s : State) : Out := immOp (· ||| zext imm) e rd ra s
def execXori (e : Eng) (rd ra : Gpr) (imm : BitVec 46) (s : State) : Out := immOp (· ^^^ zext imm) e rd ra s
def execLui (e : Eng) (rd : Gpr) (imm : BitVec 51) (s : State) : Out := immOp (fun _ => zext imm <<< 13) e rd 0 s

def execB (e : Eng) (disp : BitVec 56) (s : State) : Out := issue e s fun s => s.jump e ((s.eng e).target disp)
def execBeq (e : Eng) (ra rb : Gpr) (disp : BitVec 41) (s : State) : Out := branchOp (· == ·) e ra rb disp s
def execBne (e : Eng) (ra rb : Gpr) (disp : BitVec 41) (s : State) : Out := branchOp (· != ·) e ra rb disp s
def execBlt (e : Eng) (ra rb : Gpr) (disp : BitVec 41) (s : State) : Out := branchOp (fun a b => a.slt b) e ra rb disp s
def execBge (e : Eng) (ra rb : Gpr) (disp : BitVec 41) (s : State) : Out := branchOp (fun a b => !a.slt b) e ra rb disp s

/-- CALL writes g31 only when its target is good: a precise trap has no effect (R89). -/
def execCall (e : Eng) (disp : BitVec 56) (s : State) : Out :=
  issue e s fun s =>
    let t := (s.eng e).target disp
    if 0xFFF8 < t.toNat then s.trap e .illegal t
    else (s.onEng e fun en => en.put 31 (en.pc64 + 8)).jump e t

/-- RET: a target that is not a multiple of 8 takes MISALIGNED, whatever else is wrong with it (R70). -/
def execRet (e : Eng) (s : State) : Out :=
  issue e s fun s =>
    let t := (s.eng e).get 31
    if bitsOf t 2 0 ≠ 0 then s.trap e .misaligned t else s.jump e t

end Sys2Proof.Machine
end

