-- ==== Sys2Proof/Machine/EngineMem.lean ====
section
/-! DEFINITION. Memory instructions and block moves: LD, ST, LDQ, STQ, AMOADD, the answers to stores, MOVE, the channels and
MWAIT (R72 to R78, R81, R82, R177 to R179). -/

namespace Sys2Proof.Machine

/-! ### Effective addresses (R74, R75) -/

/-- An address of the selected space: below 64 KiB in the data scratchpad, or with bits [63:48] zero. -/
def eaOk (sp : Bool) (a : W64) : Bool := if sp then decide (a.toNat < 0x10000) else decide (a.toNat < 2 ^ 48)

/-- *Regions reached by memory instructions*: LD and ST. -/
def narrowReach (write : Bool) (a : Nat) : Option Resp :=
  match spaceOf a with
  | .register => none
  | .doorbell => none
  | .memory | .frame | .stateStore => some (if write then .narrowWrite else .decodeError)
  | _ => some .decodeError

/-- LDQ and STQ, and with them MOVE. -/
def quadReach (a : Nat) : Option Resp :=
  match spaceOf a with
  | .memory | .frame | .stateStore | .host => none
  | _ => some .decodeError

/-- AMOADD. -/
def addReach (a : Nat) : Option Resp :=
  match spaceOf a with
  | .memory | .host => none
  | _ => some .decodeError

/-- A memory-type region refuses an access narrower than 128 bits whatever its alignment (R10). -/
def tooNarrow (a len : Nat) : Bool :=
  decide (len < 16) && (spaceOf a == .memory || spaceOf a == .frame || spaceOf a == .stateStore)

/-- What is refused before the access leaves the engine, with a precise trap: the bounds of the space, a width too narrow for the
region, the alignment, the region (R10, R74, R75; their order: notes/assumptions 70). -/
def State.checked (s : State) (e : Eng) (sp : Bool) (a : W64) (len : Nat) (reach : Nat → Option Resp)
    (spad dev : State → State) : State :=
  if !eaOk sp a then s.trap e .busError a .decodeError
  else if !sp && tooNarrow a.toNat len then s.trap e .busError a ((reach a.toNat).getD .decodeError)
  else if a.toNat % len ≠ 0 then s.trap e .misaligned a
  else if sp then spad s
  else match reach a.toNat with
    | some r => s.trap e .busError a r
    | none => dev s

/-! ### Loads (R76 to R78) -/

/-- The scratchpad word of a byte address. -/
def spadAt (a : W64) : Nat := a.toNat / 16

/-- The part of a 128-bit word that a load form takes at address `a`, at bit 0. -/
def loadPart (form : LoadForm) (a : W64) (q : Quad) : Payload :=
  match form with
  | .word => (wordAt q (a.toNat % 16 / 8)).setWidth 2048
  | .half => (BitVec.ofNat 32 (q.toNat >>> (8 * (a.toNat % 16)))).setWidth 2048
  | .quad => q.setWidth 2048
  | .add _ => (wordAt q 0).setWidth 2048

/-- A load from the data scratchpad in `n` cycles; AMOADD writes the word back. -/
def State.spadLoad (s : State) (e : Eng) (rd : Gpr) (form : LoadForm) (a : W64) (n : W64) : State :=
  match s.spadRead e false (spadAt a) readerEngine with
  | (none, s) => s.loadTrap e .uncorrectable a
  | (some q, s) =>
    let s := match form with
      | .add v => s.spadWrite e false (spadAt a) (addedWord q v)
      | _ => s
    (s.onEng e fun en => en.loaded rd form (loadPart form a q)).retire e n

/-- An earlier store of the engine to the 128-bit word has no answer yet. -/
def Engine.storesTo (en : Engine) (a : W64) : Bool := en.stores.any fun st => st.addr.toNat / 16 == a.toNat / 16

/-- A load of device space; it waits for the engine's earlier stores to the word. -/
def State.devLoad (s : State) (e : Eng) (rd : Gpr) (form : LoadForm) (a : W64) : State :=
  if (s.eng e).storesTo a then s else (s.engineLoad e rd form a).finish

def execLd (e : Eng) (rd ra : Gpr) (sp w : Bool) (disp : BitVec 41) (s : State) : Out :=
  issue e s fun s =>
    let a := (s.eng e).ea ra disp
    let form : LoadForm := if w then .half else .word
    s.checked e sp a form.len (narrowReach false) (fun s => s.spadLoad e rd form a 2) (fun s => s.devLoad e rd form a)

/-- LDQ; an odd rd is illegal. -/
def execLdq (e : Eng) (rd ra : Gpr) (sp : Bool) (disp : BitVec 41) (s : State) : Out :=
  issue e s fun s =>
    let a := (s.eng e).ea ra disp
    if rd.val % 2 = 1 then s.trap e .illegal (wordM 0x32 rd ra sp false disp)
    else s.checked e sp a 16 quadReach (fun s => s.spadLoad e rd .quad a 3) (fun s => s.devLoad e rd .quad a)

def execAmoadd (e : Eng) (rd ra rb : Gpr) (sp : Bool) (disp : BitVec 40) (s : State) : Out :=
  issue e s fun s =>
    let a := (s.eng e).ea ra disp
    let form := LoadForm.add ((s.eng e).get rb)
    s.checked e sp a 16 addReach (fun s => s.spadLoad e rd form a 4) (fun s => s.devLoad e rd form a)

/-! ### Stores (R76, R77, R178) -/

/-- The word with `len` bytes at byte `off` replaced. -/
def mergeBytes (q : Quad) (off len : Nat) (v : W64) : Quad := setBits q (8 * (off + len) - 1) (8 * off) (bitsOf v (8 * len - 1) 0)

/-- A narrow store into the data scratchpad: read, merge and write. An uncorrectable word stays so and is reported back. -/
def State.spadMerge (s : State) (e : Eng) (a : W64) (len : Nat) (v : W64) : State :=
  match s.spadRead e false (spadAt a) readerEngine with
  | (none, s) => (s.retire e 2).storeTrap e { addr := a, resp := some Resp.uncorrectable.byte }
  | (some q, s) => (s.spadWrite e false (spadAt a) (mergeBytes q (a.toNat % 16) len v)).retire e 2

/-- A store of device space is posted: it takes effect at its block, and its answer is on the way, unless the request is held. A
17th store outstanding stalls. -/
def State.devStore (s : State) (e : Eng) (a : W64) (len : Nat) (d : Payload) (n : W64) : State :=
  if 16 ≤ (s.eng e).stores.length then s
  else
    let p := s.serve (engRq e) (s.eng e).role .store (.write d) a.toNat len
    let st : Store := match p.1 with
      | .done r _ => { addr := a, resp := some r.byte }
      | .waits => { addr := a, resp := none }
    let s := p.2
    let s := if (s.eng e).state = .running then
        (s.onEng e fun en => { en with stores := en.stores ++ [st] }).retire e n
      else s
    s.finish

def execSt (e : Eng) (rd ra : Gpr) (sp w : Bool) (disp : BitVec 41) (s : State) : Out :=
  issue e s fun s =>
    let a := (s.eng e).ea ra disp
    let len := if w then 4 else 8
    let v := (s.eng e).get rd
    s.checked e sp a len (narrowReach true) (fun s => s.spadMerge e a len v)
      (fun s => s.devStore e a len (if w then (v.setWidth 32).setWidth 2048 else v.setWidth 2048) 2)

/-- STQ; an odd rd is illegal. -/
def execStq (e : Eng) (rd ra : Gpr) (sp : Bool) (disp : BitVec 41) (s : State) : Out :=
  issue e s fun s =>
    let a := (s.eng e).ea ra disp
    let q := quadOf ((s.eng e).get rd) ((s.eng e).get (pairHi rd))
    if rd.val % 2 = 1 then s.trap e .illegal (wordM 0x33 rd ra sp false disp)
    else s.checked e sp a 16 quadReach
      (fun s => (s.spadWrite e false (spadAt a) q).retire e 3)
      (fun s => s.devStore e a 16 (q.setWidth 2048) 3)

/-- The answer to a store of the running program: OK and WRITE_SUPERSEDED end the matter; a trap is taken before the next
instruction issues. The answer to a store of an ended program goes nowhere (notes/assumptions 71). -/
def State.storeAnswered (s : State) (e : Eng) (st : Store) (r : Byte) : State :=
  if st.old then s
  else match respOfByte r with
    | .ok => s
    | .writeSuperseded => s.onEng e fun en => { en with superseded := true }
    | _ => (s.onEng e fun en => { en with impreciseHeld := en.impreciseHeld ++ [st] }).deliver e

/-- An answer arrives once the request has been served. -/
def execStoreResponse (e : Eng) (i : Fin 16) (s : State) : Out :=
  match (s.eng e).stores[i.val]? with
  | none => .next s
  | some st =>
    match st.resp with
    | none => .next s
    | some r =>
      let s := s.onEng e fun en => { en with stores := en.stores.eraseIdx i.val }
      .next (s.storeAnswered e st r).settle

/-! ### MOVE (R72, R81) -/

/-- The bits of MOVE's OP32 that must be zero. -/
def moveFormed (op32 : BitVec 32) : Bool :=
  bitsOf op32 31 8 == 0 && !bit op32 3 && decide (bitsOf op32 5 4 ≤ 1) && decide (bitsOf op32 7 6 ≤ 2)

/-- `len` bytes from `a` lie inside a space: a scratchpad, or one region that LDQ and STQ reach. -/
def moveFits (space a len : Nat) : Bool :=
  if space = 0 then (quadReach a).isNone && spaceOf (a + len - 1) == spaceOf a else decide (a + len ≤ 0x10000)

/-- The channel takes the move. A write of the resident area is recorded (R94). -/
def State.startMove (s : State) (e : Eng) (ch : Fin 8) (ssp dsp src dst len : Nat) : State :=
  let s := if dsp = 2 ∧ dst < 0x4000 then
      s.record 0x0F (s.sessionOf (engRq e)) (roleCode (s.eng e).role) 0 (BitVec.ofNat 64 e.val) (BitVec.ofNat 64 dst)
        (BitVec.ofNat 64 len) false false
    else s
  s.onEng e fun en => { en with
    chans := en.chans.set ch { state := .busy, op := some (.move ssp dsp src dst len), role := en.role } }

/-- A refusal by the engine's own role check is counted (R93, R94, R280). -/
def State.denyInstr (s : State) (e : Eng) : State := s.denied.trapOpen e .roleDenied

def State.moveInstr (s : State) (e : Eng) (ch : Fin 8) (ssp dsp : Nat) (len src dst : W64) : State :=
  if len.toNat % 16 ≠ 0 then s.trap e .misaligned len
  else if src.toNat % 16 ≠ 0 then s.trap e .misaligned src
  else if dst.toNat % 16 ≠ 0 then s.trap e .misaligned dst
  else if len = 0 then s.retire e 4
  else if !moveFits ssp src.toNat len.toNat then s.trap e .busError src .decodeError
  else if !moveFits dsp dst.toNat len.toNat then s.trap e .busError dst .decodeError
  else if dsp = 2 ∧ dst.toNat < 0x4000 ∧ (s.eng e).role = .operator then s.denyInstr e
  else match (s.eng e).chans[ch].state with
    | .busy => s
    | .halted => s.trap e .dmaHalt (BitVec.ofNat 64 ch.val)
    | .idle => (s.startMove e ch ssp dsp src.toNat dst.toNat len.toNat).retire e 4

def chanOf (op32 : BitVec 32) : Fin 8 := Fin.ofNat 8 (bitsOf op32 2 0)

def execMove (e : Eng) (rd ra rb : Gpr) (op32 : BitVec 32) (s : State) : Out :=
  issue e s fun s =>
    let en := s.eng e
    if !moveFormed op32 ∨ 0xFFFFFFF0 < (en.get rd).toNat then s.trap e .illegal (wordX 0x38 rd.val ra.val rb.val op32)
    else s.moveInstr e (chanOf op32) (bitsOf op32 5 4) (bitsOf op32 7 6) (en.get rd) (en.get ra) (en.get rb)

/-! ### Channels at work (R82, R303) -/

/-- What one access of a channel comes to: words, a response other than OK, or a wait at the fence of a waking domain. -/
inductive Fetched where
  | words (qs : List Quad) (lines : List Nat)
  | failed (r : Resp)
  | waits

/-- A channel reads one word of host memory. Lines are counted once each. -/
def State.chanHostRead (s : State) (e : Eng) (a : Nat) (first : Bool) : Fetched × State :=
  let m := unitOfModule (e.val / 4)
  match s.hostRead (e.val / 4) (a - hostBase) 16 with
  | (.ok, qs, ls) =>
    let s : State := { s with vault := { s.vault with pendingLines := ls.foldl listAdd s.vault.pendingLines } }
    let s := if first || a % 64 == 0 then (s.tally m 0x302).tally m 0x304 ls.length else s
    (.words qs ls, s)
  | (r, _, _) => (.failed r, s)

/-- A channel reads the word at `a` of device space or of the data scratchpad. -/
def State.chanRead (s : State) (e : Eng) (ch : Fin 8) (role : Role) (ssp a : Nat) (first : Bool) : Fetched × State :=
  if ssp = 1 then
    match s.spadRead e false (a / 16) readerDma with
    | (none, s) => (.failed .uncorrectable, s)
    | (some q, s) => (.words [q] [], s)
  else if spaceOf a == .host && !s.targetOff (engRq e) a then s.chanHostRead e a first
  else match s.serve (engRq e) role (.chan ch) .read a 16 with
    | (.done .ok d, s) => (.words [quadAt d 0] [], s)
    | (.done r _, s) => (.failed r, s)
    | (.waits, s) => (.waits, s)

/-- `n` words from `a`, up to the first that fails: the words, their vault lines, and what stopped the reading. -/
def State.chanReads (s : State) (e : Eng) (ch : Fin 8) (role : Role) (ssp a : Nat) (first : Bool) :
    Nat → List Quad → List Nat → List Quad × List Nat × Option Fetched × State
  | 0, qs, ls => (qs, ls, none, s)
  | n + 1, qs, ls =>
    match s.chanRead e ch role ssp (a + 16 * qs.length) (first && qs.isEmpty) with
    | (.words q l, s) => s.chanReads e ch role ssp a first n (qs ++ q) (l.foldl listAdd ls)
    | (x, s) => (qs, ls, some x, s)

def State.spadWrites (s : State) (e : Eng) (instr : Bool) : Nat → List Quad → State
  | _, [] => s
  | w, q :: qs => (s.spadWrite e instr w q).spadWrites e instr (w + 1) qs

/-- A channel writes words at `a`. -/
def State.chanWrite (s : State) (e : Eng) (ch : Fin 8) (role : Role) (dsp a : Nat) (qs : List Quad) (ls : List Nat) :
    Served × State :=
  if dsp ≠ 0 then (.done .ok 0, s.spadWrites e (dsp == 2) (a / 16) qs)
  else match s.serve (engRq e) role (.chan ch) (.write (quadsPayload qs)) a (16 * qs.length) with
    | (.done .ok d, s) => (.done .ok d, s.carryVerdicts a qs.length ls)
    | p => p

/-- Words that a channel moves at a time: to host memory, those of one 64-byte line, so that a line that the move covers is
written whole (R304); else one. -/
def moveBurst (dsp dst left : Nat) : Nat :=
  if dsp = 0 ∧ spaceOf dst = .host then min (left / 16) (4 - dst / 16 % 4) else 1

/-- The channel has moved `n` words, of which `ls` are the vault lines. -/
def State.chanMoved (s : State) (e : Eng) (ch : Fin 8) (n : Nat) (ls : List Nat) : State :=
  (s.onChan e ch fun c =>
    { c with bytes := c.bytes + BitVec.ofNat 32 (16 * n), lines := ls.foldl listAdd c.lines }).tally (unitOfEngine e) 0x107 n

/-- All words have been written: the channel is idle, or waits for verdicts. -/
def State.moveWritten (s : State) (e : Eng) (ch : Fin 8) : State :=
  if (s.eng e).chans[ch].lines.isEmpty then s.finishMove e ch
  else s.onChan e ch fun c => { c with verdictWait := true }

/-- The channel goes on from where it stands, burst by burst, until it is done, halts or waits. -/
def State.chanRun (s : State) (e : Eng) (ch : Fin 8) (ssp dsp src dst len : Nat) : Nat → State
  | 0 => s
  | fuel + 1 =>
    let c := (s.eng e).chans[ch]
    let done := c.bytes.toNat
    if c.state ≠ .busy then s
    else if len ≤ done then s.moveWritten e ch
    else
      match s.chanReads e ch c.role ssp (src + done) (done == 0) (moveBurst dsp (dst + done) (len - done)) [] [] with
      | (qs, ls, stop, s) =>
        let p := if qs.isEmpty then (Served.done .ok 0, s) else s.chanWrite e ch c.role dsp (dst + done) qs ls
        match p with
        | (.done .ok _, s) =>
          let s := s.chanMoved e ch qs.length ls
          match stop with
          | none => s.chanRun e ch ssp dsp src dst len fuel
          | some (.failed r) => s.haltMove e ch r
          | some _ => s
        | (.done r _, s) => s.haltMove e ch r
        | (.waits, s) => s

/-- Half `i` of an instruction scratchpad word is replaced; an uncorrectable word is good again once both are. -/
def Engine.putInstr (en : Engine) (i : Nat) (v : W64) : Engine :=
  let q := spadWord true en (i / 2)
  { en with imem := Sparse.write en.imem (i / 2) (if i % 2 = 0 then quadOf v (wordAt q 1) else quadOf (wordAt q 0) v) }

/-- Instructions taken from a 128-bit word go to index `i`. -/
def Engine.putInstrs (en : Engine) : Nat → List W64 → Engine
  | _, [] => en
  | i, v :: vs => (en.putInstr i v).putInstrs (i + 1) vs

/-- The words of the instruction scratchpad that `n` instructions from index `i` fill whole hold good check bits. -/
def Engine.cleanInstrs (en : Engine) (i n : Nat) : Engine :=
  let keep (w : Nat) : Bool := !(decide (i ≤ 2 * w) && decide (2 * w + 2 ≤ i + n))
  { en with imemBad := en.imemBad.filter keep, imemSoft := en.imemSoft.filter keep }

/-- The dispatcher's copy goes on, one 128-bit word of the source at a time (R96). -/
def State.copyRun (s : State) (e : Eng) (ch : Fin 8) (src n at_ : Nat) : Nat → State
  | 0 => s
  | fuel + 1 =>
    let c := (s.eng e).chans[ch]
    let i := c.bytes.toNat / 8
    if c.state ≠ .busy then s
    else if n ≤ i then (s.onEng e fun en => en.cleanInstrs at_ n).moveWritten e ch
    else
      let a := src + 8 * i
      let h := a % 16 / 8
      let k := min (2 - h) (n - i)
      match s.chanRead e ch c.role 0 (a / 16 * 16) (i == 0) with
      | (.words qs ls, s) =>
        let vs := (List.range k).map fun j => wordAt (qs.headD 0) (h + j)
        let s := s.onEng e fun en => en.putInstrs (at_ + i) vs
        let s := (s.onChan e ch fun c =>
          { c with bytes := c.bytes + BitVec.ofNat 32 (8 * k), lines := ls.foldl listAdd c.lines }).tally (unitOfEngine e) 0x107
        s.copyRun e ch src n at_ fuel
      | (.failed r, s) => s.haltMove e ch r
      | (.waits, s) => s

/-- An access of the channel is held at a fence. -/
def State.chanHeld (s : State) (e : Eng) (ch : Fin 8) : Bool := s.held.any fun h => h.rq.agent == .engine e && h.who == .chan ch

/-- The channel works: it is busy, nothing holds it, and the domain of its engine is in RUN (R82, R333). -/
def State.chanWorks (s : State) (e : Eng) (ch : Fin 8) : Bool :=
  let c := (s.eng e).chans[ch]
  c.state == .busy && !c.verdictWait && !s.chanHeld e ch && s.pd (engDomain e) == 1

/-- The channel's operation is carried on as far as it goes. -/
def State.chanGo (s : State) (e : Eng) (ch : Fin 8) : State :=
  match (s.eng e).chans[ch].op with
  | some (.move ssp dsp src dst len) => s.chanRun e ch ssp dsp src dst len (len / 16 + 1)
  | some (.program src n at_) => s.copyRun e ch src n at_ (n + 1)
  | _ => s

def execDmaDone (e : Eng) (ch : Fin 8) (s : State) : Out :=
  if s.chanWorks e ch then .next (s.chanGo e ch).finish else .next s

/-- MWAIT (R82). -/
def execMwait (e : Eng) (rd : Gpr) (op32 : BitVec 32) (s : State) : Out :=
  issue e s fun s =>
    if bitsOf op32 31 3 ≠ 0 then s.trap e .illegal (wordX 0x39 rd.val 0 0 op32)
    else
      let c := (s.eng e).chans[chanOf op32]
      match c.state with
      | .idle => s.retireWith e rd c.stat 2
      | .halted => s.trap e .dmaHalt (BitVec.ofNat 64 (chanOf op32).val)
      | .busy => s.waitIn e (.mwait rd (chanOf op32))

end Sys2Proof.Machine
end

