-- ==== Sys2Proof/Machine/EngineSys.lean ====
section
/-! DEFINITION. System instructions and what befalls an engine: events, TELL, FENCE, TRAP, ERET, special registers, HALT,
asynchronous traps, the watchdog and microcode swaps (R83, R84, R88 to R94, R97, R99). -/

namespace Sys2Proof.Machine

/-- The trap ILLEGAL of an X-format instruction. -/
def State.illegalX (s : State) (e : Eng) (op rd ra rb : Nat) (op32 : BitVec 32) : State :=
  s.trap e .illegal (wordX op rd ra rb op32)

/-! ### ARM, WAIT, SIGNAL (R83, R84) -/

def Engine.unbind (en : Engine) (b : Fin 64) : Engine := { en with bindings := en.bindings.filter fun x => x.bit != b }

/-- Bind event bit `b`. The source TIMER with argument 0 fires at once. -/
def Engine.bind (en : Engine) (b : Fin 64) (cls : Fin 16) (arg : W64) : Engine :=
  let en := { en.unbind b with bindings := (en.unbind b).bindings ++ [⟨b, cls, arg⟩] }
  if cls.val = 6 ∧ arg = 0 then en.setBit b else en

/-- Bits of ARM's OP32 that must be zero. -/
def armFormed (op32 : BitVec 32) : Bool := bitsOf op32 7 6 == 0 && bitsOf op32 15 12 == 0 && bitsOf op32 31 17 == 0

def execArm (e : Eng) (ra : Gpr) (op32 : BitVec 32) (s : State) : Out :=
  issue e s fun s =>
    let b : Fin 64 := Fin.ofNat 64 (bitsOf op32 5 0)
    let cls : Fin 16 := Fin.ofNat 16 (bitsOf op32 11 8)
    if !armFormed op32 ∨ (!bit op32 16 ∧ 10 ≤ cls.val) then s.illegalX e 0x42 0 ra.val 0 op32
    else if bit op32 16 then (s.onEng e fun en => en.unbind b).retire e 2
    else ((s.onEng e fun en => en.bind b cls (en.get ra)).retire e 2).settle

/-- WAIT; OP32 is the timeout in microseconds, 0 for none. -/
def execWait (e : Eng) (rd ra : Gpr) (op32 : BitVec 32) (s : State) : Out :=
  issue e s fun s =>
    let mask := (s.eng e).get ra
    let v := (s.eng e).evpend &&& mask
    if mask = 0 then s.illegalX e 0x40 rd.val ra.val 0 op32
    else if v = 0 then s.waitIn e (.wait rd mask (op32 != 0))
    else ((s.onEng e fun en => { en with evpend := en.evpend &&& ~~~v }).retireWith e rd v 2).settle

/-- The timeout of a WAIT that no event has ended: rd receives 0. -/
def execWaitTimeout (e : Eng) (s : State) : Out :=
  let en := s.eng e
  match en.waiting with
  | some (.wait rd mask true) =>
    if en.state ≠ .waiting ∨ en.frozen ∨ en.nmiDue ∨ en.evpend &&& mask ≠ 0 then .next s
    else .next (s.endWait e rd 0 2).settle
  | _ => .next s

/-- A TIMER source fires, once: its argument becomes 0. -/
def Engine.fireTimer (en : Engine) (b : Fin 64) : Engine :=
  if en.bindings.any fun x => x.bit == b && x.cls.val == 6 && x.arg != 0 then
    { en.setBit b with
      bindings := en.bindings.map fun x => if x.bit = b ∧ x.cls.val = 6 then { x with arg := 0 } else x }
  else en

def execTimer (e : Eng) (bit : Fin 64) (s : State) : Out := .next (s.onEng e fun en => en.fireTimer bit).settle

/-- Bits of SIGNAL's OP32 that must be zero, and its target. -/
def signalFormed (op32 : BitVec 32) : Bool :=
  bitsOf op32 7 5 == 0 && bitsOf op32 31 14 == 0 && decide (bitsOf op32 4 0 ≤ 16)

/-- An earlier store of the engine to host memory is still held on its path: the event message waits for it (R232). -/
def Engine.hostStoreHeld (en : Engine) : Bool := en.stores.any fun st => st.resp.isNone && spaceOf st.addr.toNat == .host

def execSignal (e : Eng) (ra : Gpr) (op32 : BitVec 32) (s : State) : Out :=
  issue e s fun s =>
    let t := bitsOf op32 4 0
    let b := bitsOf op32 13 8
    let v := (s.eng e).get ra
    if !signalFormed op32 then s.illegalX e 0x41 0 ra.val 0 op32
    else if t = 16 then
      if (s.eng e).hostStoreHeld then s
      else ((s.hostEvent 1 (BitVec.ofNat 8 e.val) (BitVec.ofNat 16 b) v).retire e 4).finish
    else ((s.signalEngine (Fin.ofNat 16 t) (Fin.ofNat 64 b) v).retire e 4).settle

/-! ### TELL, FENCE, TRAP, ERET, HALT -/

/-- TELL: the Referee's answer ends it (R377). -/
def execTell (e : Eng) (rd ra : Gpr) (op32 : BitVec 32) (s : State) : Out :=
  issue e s fun s =>
    let a := (s.eng e).get ra
    if bitsOf op32 31 16 ≠ 0 then s.illegalX e 0x70 rd.val ra.val 0 op32
    else ((s.waitIn e (.tell rd)).takeOp (.tell e) (bitsOf op32 15 0) 0 a []).finish

/-- FENCE. With IFETCH set, fetch sees what has been written. Queue operations are answered within their instruction. -/
def execFence (e : Eng) (op32 : BitVec 32) (s : State) : Out :=
  issue e s fun s =>
    if bitsOf op32 31 4 ≠ 0 then s.illegalX e 0x71 0 0 0 op32
    else if (s.eng e).fenceOpen (bit op32 0) (bit op32 1) then s.waitIn e (.fence (bit op32 0) (bit op32 1) (bit op32 2))
    else (s.onEng e fun en => if bit op32 2 then en.refetch else en).retire e 1

/-- TRAP: TPC holds the instruction after it. -/
def execTrap (e : Eng) (op32 : BitVec 32) (s : State) : Out :=
  issue e s fun s =>
    (s.tally (unitOfEngine e) 0x100).takeTrap e .software 0 false (BitVec.ofNat 64 (bitsOf op32 15 0)) ((s.eng e).pc64 + 8)

/-- ERET: on to TPC, which is a return target (R70, R89). What is pending is taken at once. -/
def execEret (e : Eng) (s : State) : Out :=
  issue e s fun s =>
    let en := s.eng e
    if !en.inTrap then s.illegalX e 0x73 0 0 0 0
    else if en.tpc.toNat % 8 ≠ 0 then s.trap e .misaligned en.tpc
    else if 0xFFF8 < en.tpc.toNat then s.trap e .illegal en.tpc
    else ((s.tally (unitOfEngine e) 0x100).onEng e fun en => (en.leaveHandler).tick 4).deliver e

/-- HALT: as FENCE with MEM, DMA and QUEUE, and then the end of the program. -/
def execHalt (e : Eng) (ra : Gpr) (s : State) : Out :=
  issue e s fun s =>
    let v : BitVec 16 := ((s.eng e).get ra).setWidth 16
    if (s.eng e).fenceOpen true true then s.waitIn e (.halt v)
    else
      let pc := (s.eng e).pc64
      ((s.tally (unitOfEngine e) 0x100).onEng e fun en => en.tick 4).endProgram e 0 0 0 v.toNat pc

/-! ### Special registers (R88, R93, R94) -/

def execSrr (e : Eng) (rd : Gpr) (op32 : BitVec 32) (s : State) : Out :=
  issue e s fun s =>
    match s.special e (bitsOf op32 11 0) with
    | some v => s.retireWith e rd v 2
    | none => s.illegalX e 0x74 rd.val 0 0 op32

/-- The role may write the special register (*Special registers*). -/
def srwRight (n : Nat) (role : Role) : Bool :=
  match n with
  | 0x00B => role != .operator
  | 0x018 => role == .installer
  | 0x031 => role == .installer
  | _ => true

/-- Writes of these are recorded (R94). -/
def srwRecorded (n : Nat) : Bool := n == 0x00B || n == 0x018 || n == 0x031

/-- TVEC: values of BASE of 16 and above are ignored. -/
def tvecWrite (old v : W64) : W64 :=
  BitVec.ofNat 64 ((if bitsOf v 15 10 < 16 then bitsOf v 15 10 else bitsOf old 15 10) * 1024 + bitsOf v 0 0)

/-- DMAn_STAT.CLR: a halted channel becomes idle. -/
def Chan.clear (c : Chan) : Chan := if c.state = .halted then { c with state := .idle, resp := 0, result := 0 } else c

def Engine.clearChan (en : Engine) (ch : Fin 8) : Engine := { en with chans := en.chans.set ch en.chans[ch].clear }

/-- MC_CTRL.SWAP (R99). REFUSED stays set when a later swap is accepted: only REFUSED_CLR and a boot clear it (notes/assumptions 93). -/
def State.requestSwap (s : State) : State :=
  if s.mc.swapPending then s
  else if !(if s.mc.active then s.mc.aValid else s.mc.bValid) then { s with mc := { s.mc with refused := true } }
  else if s.lapsRun then { s with mc := { s.mc with swapPending := true } }
  else s.mcSwap

/-- MC_CTRL.REFUSED_CLR. -/
def State.clearRefused (s : State) : State := { s with mc := { s.mc with refused := false } }

def State.writeMcCtrl (s : State) (v : W64) : State :=
  let s := if bit v 1 then s.clearRefused else s
  if bit v 0 then s.requestSwap else s

/-- The engine's part of a write to special register `n`. Fields that are RO keep their value (R12). -/
def Engine.writeSpecial (en : Engine) (n : Nat) (v : W64) : Engine :=
  match n with
  | 0x000 => { en with superseded := en.superseded && !bit v 11 }
  | 0x009 => if en.inTrap then { en with tpc := v } else en
  | 0x00B => { en with tvec := tvecWrite en.tvec v }
  | 0x00C => { en with tsave0 := v }
  | 0x00D => { en with tsave1 := v }
  | 0x010 => { en with evpend := en.evpend &&& ~~~v }
  | 0x018 => { en with wdog := v.setWidth 32 }
  | n => if 0x020 ≤ n ∧ n < 0x028 ∧ bit v 20 then en.clearChan (Fin.ofNat 8 (n - 0x020)) else en

/-- The mirror of special register `n` in the engine's register block (R100). -/
def specialAddr (e : Eng) (n : Nat) : Nat := 0x030001000000 + e.val / 4 * 0x1000000 + (e.val % 4 + 1) * 0x10000 + 0x8000 + 8 * n

/-- A write to special register `n` that the role may make. -/
def State.writeSpecial (s : State) (e : Eng) (n : Nat) (v : W64) : State :=
  let old := (s.special e n).getD 0
  let s := if n = 0x031 then s.writeMcCtrl v else s.onEng e fun en => en.writeSpecial n v
  if srwRecorded n then s.recordWrite (engRq e) (specialAddr e n) old ((s.special e n).getD 0) else s

/-- SRW of a register by its number and value; `w` is the instruction word. -/
def State.srw (s : State) (e : Eng) (n : Nat) (v w : W64) : State :=
  if (s.special e n).isNone then s.trap e .illegal w
  else if !srwRight n (s.eng e).role then s.denyInstr e
  else ((s.writeSpecial e n v).retire e 2).settle

def execSrw (e : Eng) (ra : Gpr) (op32 : BitVec 32) (s : State) : Out :=
  issue e s fun s => s.srw e (bitsOf op32 11 0) ((s.eng e).get ra) (wordX 0x75 0 ra.val 0 op32)

/-- SRW of CLR to DMAn_STAT. -/
def execDmaClr (e : Eng) (ch : Fin 8) (s : State) : Out := issue e s fun s => s.srw e (0x020 + ch.val) 0x100000 0

/-- SRW of SWAP, and of REFUSED_CLR, to MC_CTRL. -/
def execSwap (e : Eng) (s : State) : Out := issue e s fun s => s.srw e 0x031 1 0
def execRefusedClr (e : Eng) (s : State) : Out := issue e s fun s => s.srw e 0x031 2 0

/-! ### Asynchronous traps and the watchdog (R91, R92, R151) -/

/-- The engine waits in WAIT, MWAIT or LAPSTOP. -/
def Engine.inWait (en : Engine) : Bool := en.state == .waiting && (en.waiting.map Waiting.interruptible).getD false

/-- A pending non-maskable event is taken between instructions, or at once within WAIT, MWAIT or LAPSTOP. -/
def execNmiTaken (e : Eng) (s : State) : Out :=
  let en := s.eng e
  if en.nmiDue && !en.frozen && s.engClocked e && (en.state == .running || en.inWait) then .next (s.takeNmi e).settle else .next s

/-- Counter `n + 1` of the engine may wrap at any time, and its trap is enabled: what it counts no command carries. -/
def State.wrapsUnseen (s : State) (e : Eng) (n : Fin 8) : Bool :=
  let u := unitOfEngine e
  !(s.eng e).ovfHeld.getLsbD n && s.countsUnseen u (n + 1) && (s.fld F.UNIT_CTRL_T.TRAP_EN (unitIx u).2).testBit n

/-- It wraps: its OVF bit is set, the trap held, and its overflow event sent (R149 to R151). -/
def State.wrapUnseen (s : State) (e : Eng) (n : Fin 8) : State :=
  let u := unitOfEngine e
  ((s.orBits F.OVF_STAT_T.OVF (2 ^ n.val) (unitIx u).2).onEng e fun en =>
    { en with ovfHeld := en.ovfHeld ||| BitVec.ofNat 8 (2 ^ n.val) }).overflowEvent u n

/-- A counter's overflow is taken: one that is held, or that of a counter whose counting no command carries (R151;
notes/assumptions 3). -/
def execCounterOverflow (e : Eng) (n : Fin 8) (s : State) : Out :=
  if s.wrapsUnseen e n then
    let s := s.wrapUnseen e n
    let en := s.eng e
    .next (if !en.inTrap && !en.frozen && s.engClocked e && en.state == .running then s.takeOverflow e n.val else s).settle
  else
  let en := s.eng e
  if en.ovfHeld.getLsbD n && !en.inTrap && !en.frozen && s.engClocked e && en.state == .running then
    .next (s.takeOverflow e n.val).settle
  else .next s

/-- RUNTIME exceeds the limit: by its value, or within the time that WAIT, MWAIT or LAPSTOP takes, which the command leaves open
(notes/assumptions 72). -/
def Engine.overran (en : Engine) : Bool :=
  en.wdog != 0 && (en.inWait || (en.state == .running && decide (en.wdog.toNat * 1024 < en.runtime.toNat)))

/-- The first time a trap, RUNTIME starting again from 0; the second time the end of the program. -/
def State.overrun (s : State) (e : Eng) : State :=
  let pc := (s.eng e).pc64
  if (s.eng e).wdogHits = 0 then
    (s.spend.onEng e fun en => { en with runtime := 0, wdogHits := 1 }).takeTrap e .watchdog 0 false (Config.freeWord s.free) pc
  else (s.onEng e fun en => { en with tpc := pc }).endProgram e 2 0 0 0 pc

def execWatchdog (e : Eng) (s : State) : Out :=
  let en := s.eng e
  if en.overran && !en.frozen && s.engClocked e then .next (s.overrun e).settle else .next s

/-! ### The command dispatcher (R95 to R97) -/

def dProg (x : Item) : Nat := bitsOf x 63 0
def dLen (x : Item) : Nat := bitsOf x 79 64
def dEntry (x : Item) : Nat := bitsOf x 95 80
def dLoadAt (x : Item) : Nat := bitsOf x 111 96
def dCqen (x : Item) : Bool := bit x 127
def dCq (x : Item) : Nat := bitsOf x 124 112
def dTag (x : Item) : BitVec 32 := BitVec.ofNat 32 (bitsOf x 159 128)
def dArg (x : Item) (i : Nat) : W64 := wordAt x (3 + i)

/-- The checks of R96; ENTRY above 8,191 uses reserved bits of its field (notes/assumptions 73). -/
def badCommand (x : Item) : Bool :=
  (dLen x != 0 && (decide (dLoadAt x < 2048) || decide (8192 < dLoadAt x + dLen x))) || bitsOf x 126 125 != 0 ||
    bitsOf x 191 160 != 0 || decide (8191 < dEntry x)

/-- Command queues of the engine whose head descriptor can be taken, in round-robin order (R95). -/
def State.readyQueues (s : State) (e : Eng) : List Nat :=
  let ready := (s.commandQueues e.val).filter fun q =>
    s.consumer q == .engine e.val && !s.flag F.Q_STAT.FAULTED [q] && match s.headCell q with
      | some c => !c.poison
      | none => false
  (ready.filter fun q => decide ((s.eng e).lastQueue ≤ q)) ++ ready.filter fun q => decide (q < (s.eng e).lastQueue)

/-- The program starts. -/
def State.launch (s : State) (e : Eng) (x : Item) : State :=
  (s.tally (unitOfEngine e) 0x106).onEng e fun en =>
    { en.refetch with
      launch := none
      g := Vector.ofFn fun i => if 1 ≤ i.val ∧ i.val ≤ 5 then dArg x (i.val - 1) else 0
      evpend := 0
      bindings := []
      runtime := 0
      wdogHits := 0
      superseded := false
      pc := BitVec.ofNat 16 (8 * dEntry x)
      state := .running }

/-- The descriptor comes to nothing: a completion item of kind BAD_COMMAND or LOAD_FAILED. Its PC is a free value. -/
def State.launchFails (s : State) (e : Eng) (kind resp : Nat) : State :=
  (s.spend.onEng e fun en => { en with launch := none }).endProgram e kind 0 resp 0 (Config.freeWord s.free)

/-- The copy to the instruction scratchpad has ended, or goes on. -/
def State.launchOn (s : State) (e : Eng) (x : Item) : State :=
  let c := (s.eng e).chans[7]
  match c.state with
  | .busy => s
  | .halted => s.launchFails e 4 c.resp.toNat
  | .idle => s.launch e x

/-- The copy begins on channel 7 under the queue's role. A PROG that is not a device address of an instruction, or lies where
MOVE does not reach, is refused (notes/assumptions 73). -/
def State.beginCopy (s : State) (e : Eng) (x : Item) : State :=
  let a := dProg x
  let n := dLen x
  let s := s.onEng e fun en => { en with
    launch := some x
    chans := en.chans.set 7 { state := .busy, op := some (.program a n (dLoadAt x)), role := en.role } }
  if a % 8 ≠ 0 ∨ 2 ^ 48 ≤ a ∨ !moveFits 0 (a / 16 * 16) ((a + 8 * n + 15) / 16 * 16 - a / 16 * 16) then s.haltMove e 7 .decodeError
  else s.chanGo e 7

/-- The head descriptor of queue `q` is taken. -/
def State.takeDescriptor (s : State) (e : Eng) (q : Nat) (x : Item) : State :=
  let s := (s.readCell q 0).popCell q
  let s := s.onEng e fun en => { en with
    role := roleOfCode (s.fld F.Q_BIND.ROLE [q])
    cmdQueue := BitVec.ofNat 13 q
    cmdTag := dTag x
    cqen := dCqen x
    cqHeld := dCqen x
    cq := BitVec.ofNat 13 (dCq x)
    lastQueue := q + 1 }
  if badCommand x then s.launchFails e 3 0
  else if dLen x = 0 then s.launch e x
  else (s.beginCopy e x).launchOn e x

/-- A descriptor whose completion queue has another producer is discarded with a BAD_COMPLETION record (R204). -/
def State.discardDescriptor (s : State) (e : Eng) (q : Nat) (x : Item) : State :=
  ((s.popCell q).onEng e fun en => { en with lastQueue := q + 1 }).errRecord (some e.val) 7 .ok e.val (dCq x) 0

/-- The dispatcher looks at the next descriptor: it is discarded, taken, or waits for a credit (R95) or for channel 7. -/
def State.dispatchFrom (s : State) (e : Eng) (q : Nat) (x : Item) : State :=
  if dCqen x ∧ s.producer (dCq x) ≠ .engine e.val then s.discardDescriptor e q x
  else
    let s' := if dCqen x ∧ s.credits (dCq x) = 0 then s.grant (dCq x) 1 else s
    if dCqen x ∧ s'.credits (dCq x) = 0 then s
    else if !badCommand x ∧ dLen x ≠ 0 ∧ (s.eng e).chans[7].state = .busy then s
    else s'.takeDescriptor e q x

/-- The engine may take a descriptor: it is idle, it works, and the queue manager answers it. -/
def State.mayDispatch (s : State) (e : Eng) : Bool :=
  (s.eng e).state == .idle && !(s.eng e).frozen && s.engClocked e && !s.towerHeld (e.val / 4) &&
    !s.targetOff (engRq e) doorbellBase && !s.targetHeld doorbellBase

def execCommandDispatch (e : Eng) (s : State) : Out :=
  if !s.mayDispatch e then .next s
  else match (s.eng e).launch with
    | some x => .next (s.launchOn e x).finish
    | none =>
      match s.readyQueues e with
      | [] => .next s
      | q :: _ =>
        match s.headCell q with
        | some c => .next (s.dispatchFrom e q c.item).finish
        | none => .next s

end Sys2Proof.Machine
end

