-- ==== Sys2Proof/Machine/EngineBlocks.lean ====
section
/-! DEFINITION. Instructions that act on blocks outside the engine: laps, contexts, queues, power, tests and counters (R85 to
R87, R35, R93, R116, R128, R152, R188, R189, R337, R348, R351, R352, R424). -/

namespace Sys2Proof.Machine

/-- The block that serves address `a` answers, or refuses the instruction as it refuses any access: BUS_ERROR with DOMAIN_OFF or
LAYER_RESET (R26; TVAL is a free value). At the fence of a domain that wakes on access the engine waits in the instruction, which
issues again when its request is delivered (R221). -/
def State.atBlock (s : State) (e : Eng) (a : Nat) (body : State → State) : State :=
  let rq := engRq e
  if s.targetOff rq a then
    if s.wakes rq a then ((s.holdAt rq (s.eng e).role .instr .read a 8).waitIn e .held).finish
    else ((s.offRefusal rq a).spend.trap e .busError (Config.freeWord s.free) .domainOff).finish
  else if s.targetHeld a then s.spend.trap e .busError (Config.freeWord s.free) .layerReset
  else (body s).finish

/-- The lap engine and the image loader's registers stand on T0. -/
def State.atT0 (s : State) (e : Eng) (body : State → State) : State := s.atBlock e (RegName.LAP_CTRL.addr []) body

/-- The queue manager takes the packets of queue `q`. -/
def State.atQueue (s : State) (e : Eng) (q : Nat) (body : State → State) : State := s.atBlock e (doorbellBase + q * 0x1000) body

/-- A push that a fence refuses leaves an error record besides (R220). -/
def State.pushAtFence (s : State) (e : Eng) (q : Nat) : State :=
  let a := doorbellBase + q * 0x1000
  if s.targetOff (engRq e) a && !s.wakes (engRq e) a then s.postedFailed (engRq e) .domainOff q (BitVec.ofNat 64 a) else s

def codeOf (n : Nat) : W64 := BitVec.ofNat 64 n

/-! ### Laps (R85, R128, R424) -/

def execLapRun (e : Eng) (rd ra : Gpr) (s : State) : Out :=
  issue e s fun s => s.atT0 e fun s =>
    let p := s.lapRun ((s.eng e).get ra)
    p.2.endWait e rd (codeOf p.1) 8

/-- LAPSTOP; with WAIT set and laps running, the engine waits until they have halted. -/
def execLapStop (e : Eng) (rd : Gpr) (op32 : BitVec 32) (s : State) : Out :=
  issue e s fun s => s.atT0 e fun s =>
    if !s.lapsRun then s.endWait e rd 1 8
    else if bit op32 0 then s.requestStop.waitIn e (.lapStop rd 0)
    else s.requestStop.endWait e rd 0 8

/-- LAPSTEP: the engine waits for the one lap, or reads the status word where none runs. -/
def execLapStep (e : Eng) (rd : Gpr) (s : State) : Out :=
  issue e s fun s => s.atT0 e fun s =>
    match s.lapStep with
    | (true, s) => s.waitIn e (.lapStep rd)
    | (false, s) => s.endWait e rd s.lapStatus 8

/-- LAPSTAT: OP32 = 0 the status word, OP32 = 1 LAP_COUNT; other values are illegal. -/
def State.lapStat (s : State) (e : Eng) (rd : Gpr) (op32 : BitVec 32) : State :=
  if 1 < op32.toNat then s.illegalX e 0x4B rd.val 0 0 op32
  else s.atT0 e fun s => s.endWait e rd (if op32 = 0 then s.lapStatus else s.lapCount) 4

def execLapStat (e : Eng) (rd : Gpr) (op32 : BitVec 32) (s : State) : Out := issue e s fun s => s.lapStat e rd op32
def execLapStatCount (e : Eng) (rd : Gpr) (s : State) : Out := issue e s fun s => s.lapStat e rd 1

/-! ### Contexts (R35, R86, R109, R116) -/

/-- CTXLOAD: LOADER_BUSY while another load is in progress. A busy channel stalls it, and a halted one is taken over
(notes/assumptions 74). -/
def execCtxLoad (e : Eng) (rd ra rb : Gpr) (op32 : BitVec 32) (s : State) : Out :=
  issue e s fun s =>
    if bitsOf op32 31 3 ≠ 0 then s.illegalX e 0x50 rd.val ra.val rb.val op32
    else s.atT0 e fun s =>
      if s.persona.job.isSome then s.endWait e rd 1 8
      else if (s.eng e).chans[chanOf op32].state = .busy then s
      else
        let p := s.startLoad e (chanOf op32) ((s.eng e).get ra).toNat ((s.eng e).get rb).toNat
        p.2.endWait e rd 0 8

def execCtxAct (e : Eng) (rd : Gpr) (s : State) : Out :=
  issue e s fun s => s.atT0 e fun s =>
    let p := s.ctxAct e
    p.2.endWait e rd (codeOf p.1) 8

/-- An address is the base of an assigned slot in the configuration frame window. -/
def isSlotBase (a : Nat) : Bool :=
  spaceOf a == .frame && a % 0x2000 == 0 && decide (frameIndex a < 4160) && decide (frameOff a < 0x48000)

/-- The number of the frame at a slot base within its die, in frame order. -/
def frameNumber (a : Nat) : Nat := frameIndex a * 36 + frameSlot a

/-- The first invalid half of frame `n` of a die: word × 2 + half. -/
def State.invalidIn (s : State) (die n : Nat) : Option Nat :=
  (List.range 1024).find? fun i =>
    let w := s.frameWord (die * 4160 + n / 36) (n % 36) (i / 2)
    invalidHalf (i / 2 / 8) (2 * (i / 2 % 8) + i % 2) (halfOf w (i % 2))

/-- The index of the first invalid half of `k` frames from frame `n`, counted from `base`. -/
def State.firstInvalid (s : State) (die n base : Nat) : Nat → Option Nat
  | 0 => none
  | k + 1 =>
    match s.invalidIn die n with
    | some i => some (base * 1024 + i)
    | none => s.firstInvalid die (n + 1) (base + 1) k

/-- CTXCHK: −1 where every half is valid. -/
def State.ctxChk (s : State) (e : Eng) (rd : Gpr) (a n : Nat) : State :=
  let die := (a - frameBase) / 0x100000000
  let v : W64 := match s.firstInvalid die (frameNumber a) 0 n with
    | some i => codeOf i
    | none => -1
  s.retireWith e rd v (8 + 520 * BitVec.ofNat 64 n)

def execCtxChk (e : Eng) (rd ra rb : Gpr) (s : State) : Out :=
  issue e s fun s =>
    let a := ((s.eng e).get ra).toNat
    let n := ((s.eng e).get rb).toNat
    let die := (a - frameBase) / 0x100000000
    if !isSlotBase a then s.illegalX e 0x52 rd.val ra.val rb.val 0
    else if 149760 < frameNumber a + n then s.trap e .busError ((s.eng e).get ra) .decodeError
    else if s.layerHeld (die / 2) (if die % 2 = 0 then 2 else 5) then s.trap e .busError ((s.eng e).get ra) .layerReset
    else s.atBlock e a fun s => s.ctxChk e rd a n

/-! ### Queues (R184, R188, R189, R205) -/

/-- A 64-byte buffer in the data scratchpad: aligned, and inside it. -/
def State.spadBuffer (s : State) (e : Eng) (a : W64) (body : State → State) : State :=
  if a.toNat % 64 ≠ 0 then s.trap e .misaligned a
  else if 0x10000 ≤ a.toNat then s.trap e .busError a .decodeError
  else body s

def queueOfReg (v : W64) : Nat := bitsOf v 12 0

def execQPush (e : Eng) (rd ra rb : Gpr) (s : State) : Out :=
  issue e s fun s =>
    let a := (s.eng e).get ra
    let q := queueOfReg ((s.eng e).get rb)
    s.spadBuffer e a fun s =>
      match s.spadReads e false readerEngine (spadAt a) 4 with
      | (.error _, s) => s.loadTrap e .uncorrectable a
      | (.ok qs, s) => (s.pushAtFence e q).atQueue e q fun s =>
        match s.tryPush (.engine e) (s.eng e).role q (BitVec.ofNat 512 (joinQuads qs)) with
        | (some c, s) => s.endWait e rd (codeOf c) 8
        | (none, s) => s.trapOpen e .roleDenied

def execQPop (e : Eng) (rd ra rb : Gpr) (s : State) : Out :=
  issue e s fun s =>
    let q := queueOfReg ((s.eng e).get ra)
    let a := (s.eng e).get rb
    s.spadBuffer e a fun s => s.atQueue e q fun s =>
      match s.tryPop (.engine e) q with
      | (some (c, some x), s) => (s.spadWrites e false (spadAt a) (itemQuads x)).endWait e rd (codeOf c) 8
      | (some (c, none), s) => s.endWait e rd (codeOf c) 8
      | (none, s) => s.trapOpen e .dataUncorrectable

def execQCred (e : Eng) (rd ra : Gpr) (op32 : BitVec 32) (s : State) : Out :=
  issue e s fun s => s.atQueue e (queueOfReg ((s.eng e).get ra)) fun s =>
    let p := s.tryGrant (.engine e) (queueOfReg ((s.eng e).get ra)) (bitsOf op32 15 0)
    p.2.endWait e rd (codeOf p.1) 8

/-! ### Power (R87, R93, R337, R348) -/

def pwrDomain (v : W64) : Nat := bitsOf v 5 0

def execPwrQuery (e : Eng) (rd ra : Gpr) (s : State) : Out :=
  issue e s fun s => (s.endWait e rd (s.pdReply (pwrDomain ((s.eng e).get ra)) false) 8).settle

/-- PWR actions 1 to 4: a request, and the domain status word. -/
def State.pwrAction (s : State) (e : Eng) (rd ra : Gpr) (target : Nat) : State :=
  let d := pwrDomain ((s.eng e).get ra)
  let s := s.pdRequest d target
  (s.endWait e rd (s.pdReply d (pdFixed d)) 8).finish

def execPwrRun (e : Eng) (rd ra : Gpr) (s : State) : Out := issue e s fun s => s.pwrAction e rd ra 1
def execPwrSleep (e : Eng) (rd ra : Gpr) (s : State) : Out := issue e s fun s => s.pwrAction e rd ra 2
def execPwrDeep (e : Eng) (rd ra : Gpr) (s : State) : Out := issue e s fun s => s.pwrAction e rd ra 3
def execPwrOff (e : Eng) (rd ra : Gpr) (s : State) : Out := issue e s fun s => s.pwrAction e rd ra 0

/-- PWR action 5, the installer's: the cap. It names no domain, so that the status word in rd is a free value. -/
def execPwrSetCap (e : Eng) (rd ra : Gpr) (s : State) : Out :=
  issue e s fun s =>
    if (s.eng e).role ≠ .installer then s.denyInstr e
    else
      let v := Config.freeWord s.free
      ((s.spend.setCap (engRq e) ((s.eng e).get ra).toNat).endWait e rd v 8).finish

/-! ### Tests (R351, R352, R354, R355) -/

/-- The towers of a sweep's mask. -/
def sweepTowers (ra : W64) : List (Fin 4) := (List.finRange 4).filter fun t => bit ra t.val

/-- A SPLIT that starts is recorded: it needs the installer or the maker (R287). -/
def State.recordSplit (s : State) (e : Eng) (kind : Nat) (ra : W64) : State :=
  s.record 3 (s.sessionOf (engRq e)) (roleCode (s.eng e).role) 0 ra (BitVec.ofNat 64 kind) 0 false false

/-- SPLIT of kinds 0 to 6: STARTED, REFUSED or BUSY. -/
def State.splitOne (s : State) (e : Eng) (kind : Nat) (ra : W64) : Nat × State :=
  if s.testBusy kind ra false then (2, s)
  else if !s.testWindow kind (testTower kind ra).val then (1, s)
  else (0, (s.recordSplit e kind ra).startTest kind ra (some e))

/-- SPLIT of kind 7. A mask that names no tower ends at once. -/
def State.splitSweep (s : State) (e : Eng) (ra : W64) : Nat × State :=
  let ts := sweepTowers ra
  if ts.any fun t => (s.sweepOf t).isSome then (2, s)
  else if ts.any fun t => !s.testWindow 7 t.val then (1, s)
  else
    let s := s.recordSplit e 7 ra
    (0, if ts.isEmpty then s.splitDone (some e) else ts.foldl (fun s t => s.startSweep t (some e)) s)

/-- The towers that a SPLIT reaches. -/
def splitTowers (kind : Nat) (ra : W64) : List (Fin 4) := if kind = 7 then sweepTowers ra else [testTower kind ra]

/-- The test registers of a tower. -/
def testAddr (t : Fin 4) : Nat := RegName.TEST_STAT.addr [t.val]

def State.split (s : State) (e : Eng) (rd ra : Gpr) (kind : Nat) : State :=
  let v := (s.eng e).get ra
  if !testLegal kind v then s.illegalX e 0x61 rd.val ra.val 0 (BitVec.ofNat 32 kind)
  else if (s.eng e).role = .operator then s.denyInstr e
  else
    match (splitTowers kind v).find? fun t => s.targetOff (engRq e) (testAddr t) || s.targetHeld (testAddr t) with
    | some t => s.atBlock e (testAddr t) id
    | none =>
      let p := if kind = 7 then s.splitSweep e v else s.splitOne e kind v
      (p.2.endWait e rd (codeOf p.1) 8).finish

def execBankMarch (e : Eng) (rd ra : Gpr) (s : State) : Out := issue e s fun s => s.split e rd ra 0
def execStandinMarch (e : Eng) (rd ra : Gpr) (s : State) : Out := issue e s fun s => s.split e rd ra 1
def execTileScan (e : Eng) (rd ra : Gpr) (s : State) : Out := issue e s fun s => s.split e rd ra 2
def execLaneLoop (e : Eng) (rd ra : Gpr) (s : State) : Out := issue e s fun s => s.split e rd ra 3
def execLoopCheck (e : Eng) (rd ra : Gpr) (s : State) : Out := issue e s fun s => s.split e rd ra 4
def execSensorRef (e : Eng) (rd ra : Gpr) (s : State) : Out := issue e s fun s => s.split e rd ra 5
def execVmonCheck (e : Eng) (rd ra : Gpr) (s : State) : Out := issue e s fun s => s.split e rd ra 6
def execSweep (e : Eng) (rd ra : Gpr) (s : State) : Out := issue e s fun s => s.split e rd ra 7

/-! ### Counters (R93, R152) -/

/-- A counter of a unit. -/
def execCntrd (e : Eng) (rd ra : Gpr) (op32 : BitVec 32) (s : State) : Out :=
  issue e s fun s =>
    let u := bitsOf ((s.eng e).get ra) 4 0
    let n := bitsOf op32 3 0
    if 25 < u ∨ 8 < n then s.illegalX e 0x68 rd.val ra.val 0 op32
    else if !s.unitReadable (s.eng e).role u then s.denyInstr e
    else s.atBlock e ((cntReg u).addr ((unitIx u).2 ++ [n])) fun s =>
      (if s.countsUnseen u n then s.spend else s).endWait e rd (s.counter u n) 4

end Sys2Proof.Machine
end

