-- ==== Sys2Proof/Machine/HostChannel.lean ====
section
/-! DEFINITION. The host channel: requests of the host die, its answers to device requests, mainbands and sidebands coming and
going, and the size of host memory (R226 to R239). -/

namespace Sys2Proof.Machine

/-! ### Host requests (R228 to R231, R238) -/

/-- The KIND of a host request (*Transaction header*). -/
def hdrKind (op : ReqOp) : Nat := match op with | .read => 1 | .write _ => 2 | _ => 3

/-- The header is no malformed one: its KIND is the request's own, its zero fields are zero, SIZE is a register's or zero, and a
register access carries one word. -/
def hdrFormed (h : Hdr) (op : ReqOp) : Bool :=
  h.kind.toNat == hdrKind op && bitsOf h.session 7 4 == 0 && bitsOf h.tag 15 10 == 0 && h.resp == 0 && h.zero7 == 0 &&
    (h.size == 0 || ((h.size == 4 || h.size == 8) && h.length == 0))

/-- The bytes that the request reads or writes. -/
def hdrBytes (h : Hdr) : Nat := if h.size = 0 then 16 * (h.length.toNat + 1) else h.size.toNat

def hdrRq (h : Hdr) (m : Module) : Rq := ⟨.host m (Fin.ofNat 16 (bitsOf h.session 3 0)), h.tag.setWidth 10⟩

/-- The mainbands serve every host request: READY, or under MAKER_TEST once a boot image has verified and the towers are up. -/
def State.hostServed (s : State) : Bool :=
  s.ref.sbState == 2 ||
    (s.ref.sbState == 4 && s.ref.bootDone && (List.range 4).all fun t => s.ref.stackPower.getLsbD t && s.towerUp t)

/-- What the host channel itself answers before a request becomes network packets; none where it goes on. Before READY every request
but the boot-image transfer is answered DOMAIN_OFF (R238); then come a malformed header and an address of host memory (R228, R229), a
tag that the module still has outstanding (R230), and the form of the access (R210); a session that is not bound is refused by the
request itself. -/
def State.hostRefusal (s : State) (m : Module) (h : Hdr) (op : ReqOp) : Option Resp :=
  if !s.hostServed then some .domainOff
  else if !hdrFormed h op || decide (hostBase ≤ h.addr.toNat) then some .decodeError
  else if !op.isPosted && s.tagOut m (h.tag.setWidth 10) then some .decodeError
  else none

/-- A host request over module `m`, which reaches the device while the mainband is up. -/
def State.hostRequest (s : State) (m : Module) (h : Hdr) (op : ReqOp) : State :=
  if !s.flag F.HC_LINK.UP [m.val] then s
  else match s.hostRefusal m h op with
    | some r => s.respond (hdrRq h m) op h.addr.toNat (hdrBytes h) r 0
    | none => (s.tally (unitOfModule m.val) (if op.isWrite then 0x301 else 0x300)).request (hdrRq h m) op h.addr.toNat (hdrBytes h)

def execHRead (m : Module) (h : Hdr) (s : State) : Out := .next (s.hostRequest m h .read).finish
def execHWrite (m : Module) (h : Hdr) (data : Payload) (s : State) : Out := .next (s.hostRequest m h (.write data)).finish
def execHWritePosted (m : Module) (h : Hdr) (data : Payload) (s : State) : Out :=
  .next (s.hostRequest m h (.posted data)).finish

/-! ### Answers of the host die (R231) -/

/-- The host die refuses an engine's own access: a load that waits for the line's verdict fails; else the engine's next access to the
word gets the answer. -/
def State.engineHostFails (s : State) (e : Eng) (r : Resp) (a : Nat) : State :=
  match (s.eng e).waiting with
  | some (.vaultLoad _ _ addr) =>
    if addr / 64 = a / 64 ∧ !(s.eng e).frozen then s.loadTrap e r (BitVec.ofNat 64 addr)
    else { s with hostFails := s.hostFails ++ [(e, a / 16, r.byte)] }
  | _ => { s with hostFails := s.hostFails ++ [(e, a / 16, r.byte)] }

/-- A device request has failed: its requester takes the outcome that its chapter gives (R82, R110, R206, R236). -/
def State.deviceFailed (s : State) (who : DevReq) (r : Resp) (a : W64) : State :=
  match who with
  | .dma e ch => if (s.eng e).chans[ch].state = .busy && !s.isLoadChan e ch then s.haltMove e ch r else s
  | .imageLoader => if s.persona.job.isSome then s.failTransfer r else s
  | .ring q => s.faultQueue q.val 3 r a
  | .writeBack q => s.faultQueue q.val 3 r a
  | .eventUnit => ((s.put F.HC_EVSTAT.FAULT 1).put F.HC_EVCTRL.EN 0).dropEvent
  | .engine e => s.engineHostFails e r a.toNat

/-- The host die answers a device request with the 16 bytes that host memory holds there, or with a response code. -/
def execCompletion (who : DevReq) (resp : Byte) (addr : Addr) (data : Quad) (s : State) : Out :=
  let a := addr.toNat
  if resp ≠ 0 then .next (s.deviceFailed who (respOfByte resp) (addr.setWidth 64)).finish
  else if spaceOf a = .host ∧ a % 16 = 0 then .next (s.hostPut ((a - hostBase) / 16) data)
  else .next s

/-! ### Mainbands, sidebands and the reset of the host die (R226, R227, R233, R237 to R239) -/

def execMainbandDown (m : Module) (s : State) : Out := .next (s.mainbandDown m.val).finish

def speedOk (v : Byte) : Bool := [4, 8, 12, 16, 24, 32].contains v.toNat

/-- A mainband trains, or retrains, which is counted. The UCIe domain must run. -/
def execMainbandUp (m : Module) (x32 : Bool) (speed : Byte) (repaired : Byte) (s : State) : Out :=
  if !speedOk speed then .fault .malformedCommand
  else if s.pd 1 ≠ 1 then .next s
  else
    let ix := [m.val]
    let s := if s.flag F.HC_LINK.SPEED ix then s.count F.HC_LINK.RETRAINS ix else s
    let s := (s.put F.HC_LINK.UP 1 ix).put F.HC_LINK.WIDTH (b2n x32) ix
    .next ((s.put F.HC_LINK.SPEED speed.toNat ix).put F.HC_LINK.REPAIRED repaired.toNat ix).finish

/-- A sideband register (*Sideband registers*); none at an offset that has no register. -/
def State.sidebandReg (s : State) (off : Nat) : Option W64 :=
  match off with
  | 0x00 => some 0x4B4D9410000000A2
  | 0x08 => some (BitVec.ofNat 64 s.ref.sbState)
  | 0x10 => some (s.ref.sbDeadline.setWidth 64)
  | 0x18 => some (s.ref.sbHostmem.setWidth 64)
  | _ => none

/-- The Referee answers a read of a sideband register over module `m`. -/
def State.sidebandRead (s : State) (m : Module) (off : Nat) : State :=
  let x := match s.sidebandReg off with
    | some v => HostMsg.sideband m Resp.ok.byte v
    | none => HostMsg.sideband m Resp.decodeError.byte 0
  { s with hostOut := s.hostOut ++ [x] }

/-- The sideband is up; from then on the Referee answers reads of its registers (R237, R238). -/
def execSidebandLinkUp (m : Module) (read : Option Byte) (s : State) : Out :=
  let s : State := { s with ref := { s.ref with sbLinkUp := setBits s.ref.sbLinkUp m.val m.val 1 } }
  match read with
  | none => .next s
  | some off => .next (s.sidebandRead m off.toNat)

/-- A write of SB_HOSTMEM over the sideband, with its answer. -/
def State.writeHostmem (s : State) (v : W64) : Resp × State :=
  if s.ref.sbHostmemLocked then (.ok, s)
  else if 256 < v.toNat then (.decodeError, s)
  else
    let s : State := { s with ref := { s.ref with sbHostmem := v.setWidth 9, sbHostmemLocked := true } }
    (.ok, s.put F.HC_HOSTMEM.GIB v.toNat)

def execSbHostmem (m : Module) (v : W64) (s : State) : Out :=
  if !s.ref.sbLinkUp.getLsbD m.val then .next s
  else match s.writeHostmem v with
    | (r, s) => .next { s with hostOut := s.hostOut ++ [.sideband m r.byte 0] }

/-- A reset of the host die: every mainband goes down, and every mainband and sideband session closes. -/
def execPerstN (s : State) : Out :=
  let s := (List.range 4).foldl (fun s m => s.mainbandDown m) s
  .next ((List.range 68).foldl (fun s i => s.closeSession i) s).finish

end Sys2Proof.Machine
end

