-- ==== Sys2Proof/Machine/RegCommands.lean ====
section
/-! DEFINITION. The commands that are writes of one register: each is the write that its row names, answered to its sender
(R8, R9, R210, R216). -/

namespace Sys2Proof.Machine

/-- A 64-bit write of copy `ix` of a register. -/
def State.busReg (s : State) (rq : Rq) (r : RegName) (ix : List Nat) (v : W64) : State :=
  (s.request rq (.write (v.setWidth 2048)) (r.addr ix) 8).finish

/-- The value of the register with a field replaced. -/
def State.withField (s : State) (f : Fld) (ix : List Nat) (n : Nat) : W64 := setBits (s.reg f.reg ix) f.hi f.lo n

/-- The value that sets a W1S field and leaves the register's RW fields as they are. -/
def State.withSet (s : State) (f : Fld) (ix : List Nat) : W64 :=
  (s.reg f.reg ix &&& BitVec.ofNat 64 (f.reg.mask [.rw])) ||| BitVec.ofNat 64 (2 ^ f.lo)

/-! ### Laps, loading, observing -/

def execStop (rq : Rq) (s : State) : Out := .next (s.busReg rq .LAP_CTRL [] 2)
def execClrTorn (rq : Rq) (s : State) : Out := .next (s.busReg rq .LAP_CTRL [] 1)
def execLapCount (rq : Rq) (v : W64) (s : State) : Out := .next (s.busReg rq .LAP_COUNT [] v)
def execLapPos (rq : Rq) (v : W64) (s : State) : Out := .next (s.busReg rq .LAP_POS [] v)
def execLapKind (rq : Rq) (k : Fin 8) (v : W64) (s : State) : Out := .next (s.busReg rq .LAP_KIND [k.val] v)
def execLapSched (rq : Rq) (i : Fin 64) (v : W64) (s : State) : Out := .next (s.busReg rq .LAP_SCHED [i.val] v)
def execActAt (rq : Rq) (v : W64) (s : State) : Out := .next (s.busReg rq .ACT_AT [] v)
def execLoadCtrlDiscard (rq : Rq) (s : State) : Out := .next (s.busReg rq .LOAD_CTRL [] (s.withSet F.LOAD_CTRL.DISCARD []))

/-- The registers of a trigger unit: TRIG_CTRL, TRIG_ADDR, TRIG_MASK and TRIG_VALUE. -/
def trigReg (reg : Fin 4) : RegName :=
  match reg.val with
  | 0 => .TRIG_CTRL
  | 1 => .TRIG_ADDR
  | 2 => .TRIG_MASK
  | _ => .TRIG_VALUE

def execTrigCtrl (rq : Rq) (i : Fin 16) (reg : Fin 4) (v : W64) (s : State) : Out := .next (s.busReg rq (trigReg reg) [i.val] v)
def execBench (rq : Rq) (i : Fin 8) (v : W64) (s : State) : Out := .next (s.busReg rq .BENCH [i.val] v)
def execLogCtrl (rq : Rq) (v : W64) (s : State) : Out := .next (s.busReg rq .LOG_CTRL [] v)
def execTraceCtrl (rq : Rq) (t : Tower) (v : W64) (s : State) : Out := .next (s.busReg rq .TRACE_CTRL [t.val] v)
def execSnap (rq : Rq) (s : State) : Out := .next (s.busReg rq .COUNTER_SNAP [] (s.withSet F.COUNTER_SNAP.SNAP []))

/-! ### Design memory -/

def execBankOwner (rq : Rq) (t : Tower) (bank : Fin 256) (v : W64) (s : State) : Out :=
  .next (s.busReg rq .BANK_OWNER [t.val, bank.val] v)
def execEccClear (rq : Rq) (t : Tower) (s : State) : Out :=
  .next (s.busReg rq .ECC_CTRL [t.val] (s.withSet F.ECC_CTRL.CLEAR [t.val]))

/-- The last access of the old owner has completed (R161). -/
def execHandoverComplete (t : Tower) (bank : Fin 256) (s : State) : Out :=
  .next (s.put F.BANK_OWNER.PENDING 0 [t.val, bank.val])

/-- The memory layer rewrites a corrected word: the word holds no error any more (R170). -/
def execEccWriteBack (t : Tower) (bank : Fin 256) (word : Fin 262144) (s : State) : Out :=
  .next (s.eccRewrite (bankBase t.val bank.val + 16 * word.val))

/-! ### Queues and flows -/

/-- A push through the doorbell window: a posted write of 64 bytes (R193). -/
def execPush (rq : Rq) (q : Qn) (item : Item) (s : State) : Out :=
  .next (s.request rq (.posted (item.setWidth 2048)) (doorbellBase + q.val * 0x1000) 64).finish
def execCredit (rq : Rq) (q : Qn) (v : W64) (s : State) : Out := .next (s.busReg rq .DB_CREDIT [q.val] v)
def execRingPi (rq : Rq) (q : Qn) (v : W64) (s : State) : Out := .next (s.busReg rq .DB_RING_PI [q.val] v)
def execRingCi (rq : Rq) (q : Qn) (v : W64) (s : State) : Out := .next (s.busReg rq .DB_RING_CI [q.val] v)
def execQBind (rq : Rq) (q : Qn) (v : W64) (s : State) : Out := .next (s.busReg rq .Q_BIND [q.val] v)
def execSkip (rq : Rq) (q : Qn) (s : State) : Out := .next (s.busReg rq .Q_CTRL [q.val] (s.withSet F.Q_CTRL.SKIP [q.val]))
def execQCtrlReset (rq : Rq) (q : Qn) (s : State) : Out :=
  .next (s.busReg rq .Q_CTRL [q.val] (s.withSet F.Q_CTRL.RESET [q.val]))
def execPoolBank (rq : Rq) (i : Fin 64) (v : W64) (s : State) : Out :=
  if shadowed .POOL_BANK [i.val] then
    match s.roleOf rq with
    | none => .next (s.answer rq false .roleDenied 0 0).finish
    | some role => .next (s.packet rq role (.poolBank i v) (RegName.POOL_BANK.addr [i.val])).finish
  else .next (s.busReg rq .POOL_BANK [i.val] v)
def execFlowQueues (rq : Rq) (f : Flow) (v : W64) (s : State) : Out := .next (s.busReg rq .FLOW_QUEUES [f.val] v)
def execFlowBind (rq : Rq) (f : Flow) (v : W64) (s : State) : Out := .next (s.busReg rq .FLOW_BIND [f.val] v)
def execFlowPos (rq : Rq) (f : Flow) (v : W64) (s : State) : Out := .next (s.busReg rq .FLOW_POS [f.val] v)

/-! ### Network and host channel -/

def execRouterCfg (rq : Rq) (t : Tower) (r : Fin 24) (v : W64) (s : State) : Out :=
  .next (s.busReg rq .ROUTER_CFG [t.val, r.val] v)
def execHrBase (rq : Rq) (n : Fin 64) (v : W64) (s : State) : Out := .next (s.busReg rq .HR_BASE [n.val] v)
def execHrLimit (rq : Rq) (n : Fin 64) (v : W64) (s : State) : Out := .next (s.busReg rq .HR_LIMIT [n.val] v)
def execEvringCi (rq : Rq) (v : W64) (s : State) : Out := .next (s.busReg rq .HC_EVRING_IDX [] v)

/-! ### Relay ports and lanes -/

def laneIxOf (p : Port) (i : Lane) : List Nat := portIx p.val ++ [i.val]

def execPortEnable (rq : Rq) (p : Port) (s : State) : Out :=
  .next (s.busReg rq .PORT_CTRL (portIx p.val) (s.withField F.PORT_CTRL.EN (portIx p.val) 1))
def execPortDisable (rq : Rq) (p : Port) (s : State) : Out :=
  .next (s.busReg rq .PORT_CTRL (portIx p.val) (s.withField F.PORT_CTRL.EN (portIx p.val) 0))
def execFarLoop (rq : Rq) (p : Port) (s : State) : Out :=
  .next (s.busReg rq .PORT_CTRL (portIx p.val) (s.withField F.PORT_CTRL.FAR_LOOP (portIx p.val) 1))
def execNearLoop (rq : Rq) (p : Port) (i : Lane) (s : State) : Out :=
  .next (s.busReg rq .LANE_CTRL (laneIxOf p i) (s.withField F.LANE_CTRL.NEAR_LOOP (laneIxOf p i) 1))
def execRetire (rq : Rq) (p : Port) (i : Lane) (s : State) : Out :=
  .next (s.busReg rq .LANE_CTRL (laneIxOf p i) (s.withSet F.LANE_CTRL.RETIRE (laneIxOf p i)))
def execClrFail (rq : Rq) (p : Port) (i : Lane) (s : State) : Out :=
  .next (s.busReg rq .LANE_CTRL (laneIxOf p i) (s.withSet F.LANE_CTRL.CLR_FAIL (laneIxOf p i)))
def execLaneEq (rq : Rq) (p : Port) (i : Lane) (v : W64) (s : State) : Out := .next (s.busReg rq .LANE_EQ (laneIxOf p i) v)

/-! ### Chains and security -/

def execChainCfg (rq : Rq) (v : W64) (s : State) : Out := .next (s.busReg rq .CHAIN_CFG [] v)
def execBridgeCfg (rq : Rq) (n : Fin 64) (v : W64) (s : State) : Out := .next (s.busReg rq .BRIDGE_CFG [n.val] v)
def execChainCtrlDiscard (rq : Rq) (s : State) : Out := .next (s.busReg rq .CHAIN_CTRL [] 1)
/-- ENROL_CTRL with GO, and with REMOVE: KIND, INDEX and PORTS come from `v`. -/
def execEnrolGo (rq : Rq) (v : W64) (s : State) : Out := .next (s.busReg rq .ENROL_CTRL [] ((v &&& ~~~(3 : W64)) ||| 1))
def execEnrolRemove (rq : Rq) (v : W64) (s : State) : Out := .next (s.busReg rq .ENROL_CTRL [] ((v &&& ~~~(3 : W64)) ||| 2))
def execLabEn (rq : Rq) (s : State) : Out := .next (s.busReg rq .SEC_CTRL [] (s.withField F.SEC_CTRL.LAB_EN [] 1))
def execVrCfg (rq : Rq) (n : Fin 64) (v : W64) (s : State) : Out := .next (s.busReg rq .VR_CFG [n.val] v)
def execInit (rq : Rq) (n : Fin 64) (s : State) : Out := .next (s.busReg rq .VR_CFG [n.val] (s.withSet F.VR_CFG.INIT [n.val]))
def execReinit (rq : Rq) (n : Fin 64) (s : State) : Out := .next (s.busReg rq .VR_CFG [n.val] (s.withSet F.VR_CFG.REINIT [n.val]))

/-! ### Clocks and power -/

/-- The CFG register of a clock domain. -/
def clkCfg (d : ClkDom) : RegName × List Nat :=
  match d with
  | .dom t n => (.CLKDOM_CFG, [t.val, n.val])
  | .pkg k => (.PKGCLK_CFG, [k.val])

def execClockSwitch (rq : Rq) (d : ClkDom) (sel : BitVec 2) (s : State) : Out :=
  .next (s.busReg rq (clkCfg d).1 (clkCfg d).2 (setBits (s.reg (clkCfg d).1 (clkCfg d).2) 29 28 sel.toNat))
def execLoopProgram (rq : Rq) (d : ClkDom) (v : W64) (s : State) : Out := .next (s.busReg rq (clkCfg d).1 (clkCfg d).2 v)
def execClkgateMode (rq : Rq) (v : W64) (s : State) : Out := .next (s.busReg rq .CLKGATE_MODE [] v)

/-- PD_CTRL with a request, WAKE_ON_ACCESS as it is. -/
def State.pdWrite (s : State) (rq : Rq) (d n : Nat) : State := s.busReg rq .PD_CTRL [d] (s.withField F.PD_CTRL.REQ [d] n)

def execPdReqRun (rq : Rq) (d : Pd) (s : State) : Out := .next (s.pdWrite rq d.val 1)
def execPdReqSleep (rq : Rq) (d : Pd) (s : State) : Out := .next (s.pdWrite rq d.val 2)
def execPdReqDeep (rq : Rq) (d : Pd) (s : State) : Out := .next (s.pdWrite rq d.val 3)
def execPdReqOff (rq : Rq) (d : Pd) (s : State) : Out := .next (s.pdWrite rq d.val 4)

/-! ### Fuses, mailbox, pins -/

def execFuseCommit (rq : Rq) (t : Tower) (s : State) : Out := .next (s.busReg rq .FUSE_CTRL [t.val] 1)
def execMbxGo (rq : Rq) (slot : Fin 4) (s : State) : Out := .next (s.busReg rq .MBX_CTRL [slot.val] 1)
def execMbxRelease (rq : Rq) (slot : Fin 4) (s : State) : Out := .next (s.busReg rq .MBX_CTRL [slot.val] 2)
def execPinOwn (rq : Rq) (p : Pin) (v : W64) (s : State) : Out := .next (s.busReg rq .PIN_OWN [p.val] v)
def execPinCfg (rq : Rq) (p : Pin) (v : W64) (s : State) : Out := .next (s.busReg rq .PIN_CFG [p.val] v)
def execGpioSet (rq : Rq) (i : Fin 8) (v : W64) (s : State) : Out := .next (s.busReg rq .GPIO_SET [i.val] v)
def execGpioClr (rq : Rq) (i : Fin 8) (v : W64) (s : State) : Out := .next (s.busReg rq .GPIO_CLR [i.val] v)
def execGpioTgl (rq : Rq) (i : Fin 8) (v : W64) (s : State) : Out := .next (s.busReg rq .GPIO_TGL [i.val] v)
def execDout (rq : Rq) (i : Fin 8) (v : W64) (s : State) : Out := .next (s.busReg rq .DOUT [i.val] v)
def execForceRelease (rq : Rq) (k : Fin 16) (s : State) : Out :=
  .next (s.busReg rq .RU_CTRL [k.val] (s.withSet F.RU_CTRL.FORCE_RELEASE [k.val]))

/-- A write of a register that has no row of its own: `v` holds the data of a 32-bit or 64-bit write. -/
def execRegisterWrite (rq : Rq) (addr : Addr) (len : Nat) (v : W64) (s : State) : Out :=
  .next (s.request rq (.write (v.setWidth 2048)) addr.toNat len).finish

end Sys2Proof.Machine
end

