-- ==== Sys2Proof/Machine/Dispatch.lean ====
section
/-! DEFINITION. One arm per command: the direct call of its meaning. -/

namespace Sys2Proof.Machine

/-- The command's effect on everything but the queue of waiting commands. -/
def exec (i : Instr) (s : State) : Host.Outcome State Fault Refusal :=
  match i with
  | .nop e => Sys2Proof.Machine.execNop e s
  | .add e rd ra rb => Sys2Proof.Machine.execAdd e rd ra rb s
  | .sub e rd ra rb => Sys2Proof.Machine.execSub e rd ra rb s
  | .and e rd ra rb => Sys2Proof.Machine.execAnd e rd ra rb s
  | .or e rd ra rb => Sys2Proof.Machine.execOr e rd ra rb s
  | .xor e rd ra rb => Sys2Proof.Machine.execXor e rd ra rb s
  | .shl e rd ra rb => Sys2Proof.Machine.execShl e rd ra rb s
  | .shr e rd ra rb => Sys2Proof.Machine.execShr e rd ra rb s
  | .sha e rd ra rb => Sys2Proof.Machine.execSha e rd ra rb s
  | .mul e rd ra rb => Sys2Proof.Machine.execMul e rd ra rb s
  | .min e rd ra rb => Sys2Proof.Machine.execMin e rd ra rb s
  | .max e rd ra rb => Sys2Proof.Machine.execMax e rd ra rb s
  | .cmp e rd ra rb => Sys2Proof.Machine.execCmp e rd ra rb s
  | .mov e rd ra => Sys2Proof.Machine.execMov e rd ra s
  | .addi e rd ra imm => Sys2Proof.Machine.execAddi e rd ra imm s
  | .andi e rd ra imm => Sys2Proof.Machine.execAndi e rd ra imm s
  | .ori e rd ra imm => Sys2Proof.Machine.execOri e rd ra imm s
  | .xori e rd ra imm => Sys2Proof.Machine.execXori e rd ra imm s
  | .lui e rd imm => Sys2Proof.Machine.execLui e rd imm s
  | .b e disp => Sys2Proof.Machine.execB e disp s
  | .beq e ra rb disp => Sys2Proof.Machine.execBeq e ra rb disp s
  | .bne e ra rb disp => Sys2Proof.Machine.execBne e ra rb disp s
  | .blt e ra rb disp => Sys2Proof.Machine.execBlt e ra rb disp s
  | .bge e ra rb disp => Sys2Proof.Machine.execBge e ra rb disp s
  | .call e disp => Sys2Proof.Machine.execCall e disp s
  | .ret e => Sys2Proof.Machine.execRet e s
  | .ld e rd ra sp w disp => Sys2Proof.Machine.execLd e rd ra sp w disp s
  | .st e rd ra sp w disp => Sys2Proof.Machine.execSt e rd ra sp w disp s
  | .ldq e rd ra sp disp => Sys2Proof.Machine.execLdq e rd ra sp disp s
  | .stq e rd ra sp disp => Sys2Proof.Machine.execStq e rd ra sp disp s
  | .amoadd e rd ra rb sp disp => Sys2Proof.Machine.execAmoadd e rd ra rb sp disp s
  | .storeResponse e ii => Sys2Proof.Machine.execStoreResponse e ii s
  | .move e rd ra rb op32 => Sys2Proof.Machine.execMove e rd ra rb op32 s
  | .dmaDone e ch => Sys2Proof.Machine.execDmaDone e ch s
  | .mwait e rd op32 => Sys2Proof.Machine.execMwait e rd op32 s
  | .arm e ra op32 => Sys2Proof.Machine.execArm e ra op32 s
  | .wait e rd ra op32 => Sys2Proof.Machine.execWait e rd ra op32 s
  | .waitTimeout e => Sys2Proof.Machine.execWaitTimeout e s
  | .timer e bit => Sys2Proof.Machine.execTimer e bit s
  | .signal e ra op32 => Sys2Proof.Machine.execSignal e ra op32 s
  | .lapRun e rd ra => Sys2Proof.Machine.execLapRun e rd ra s
  | .lapStop e rd op32 => Sys2Proof.Machine.execLapStop e rd op32 s
  | .lapStep e rd => Sys2Proof.Machine.execLapStep e rd s
  | .lapStat e rd op32 => Sys2Proof.Machine.execLapStat e rd op32 s
  | .lapStatCount e rd => Sys2Proof.Machine.execLapStatCount e rd s
  | .ctxLoad e rd ra rb op32 => Sys2Proof.Machine.execCtxLoad e rd ra rb op32 s
  | .ctxAct e rd => Sys2Proof.Machine.execCtxAct e rd s
  | .ctxChk e rd ra rb => Sys2Proof.Machine.execCtxChk e rd ra rb s
  | .qPush e rd ra rb => Sys2Proof.Machine.execQPush e rd ra rb s
  | .qPop e rd ra rb => Sys2Proof.Machine.execQPop e rd ra rb s
  | .qCred e rd ra op32 => Sys2Proof.Machine.execQCred e rd ra op32 s
  | .pwrQuery e rd ra => Sys2Proof.Machine.execPwrQuery e rd ra s
  | .pwrRun e rd ra => Sys2Proof.Machine.execPwrRun e rd ra s
  | .pwrSleep e rd ra => Sys2Proof.Machine.execPwrSleep e rd ra s
  | .pwrDeep e rd ra => Sys2Proof.Machine.execPwrDeep e rd ra s
  | .pwrOff e rd ra => Sys2Proof.Machine.execPwrOff e rd ra s
  | .pwrSetCap e rd ra => Sys2Proof.Machine.execPwrSetCap e rd ra s
  | .bankMarch e rd ra => Sys2Proof.Machine.execBankMarch e rd ra s
  | .standinMarch e rd ra => Sys2Proof.Machine.execStandinMarch e rd ra s
  | .tileScan e rd ra => Sys2Proof.Machine.execTileScan e rd ra s
  | .laneLoop e rd ra => Sys2Proof.Machine.execLaneLoop e rd ra s
  | .loopCheck e rd ra => Sys2Proof.Machine.execLoopCheck e rd ra s
  | .sensorRef e rd ra => Sys2Proof.Machine.execSensorRef e rd ra s
  | .vmonCheck e rd ra => Sys2Proof.Machine.execVmonCheck e rd ra s
  | .sweep e rd ra => Sys2Proof.Machine.execSweep e rd ra s
  | .cntrd e rd ra op32 => Sys2Proof.Machine.execCntrd e rd ra op32 s
  | .tell e rd ra op32 => Sys2Proof.Machine.execTell e rd ra op32 s
  | .fence e op32 => Sys2Proof.Machine.execFence e op32 s
  | .trap e op32 => Sys2Proof.Machine.execTrap e op32 s
  | .eret e => Sys2Proof.Machine.execEret e s
  | .srr e rd op32 => Sys2Proof.Machine.execSrr e rd op32 s
  | .srw e ra op32 => Sys2Proof.Machine.execSrw e ra op32 s
  | .halt e ra => Sys2Proof.Machine.execHalt e ra s
  | .nmiTaken e => Sys2Proof.Machine.execNmiTaken e s
  | .counterOverflow e n => Sys2Proof.Machine.execCounterOverflow e n s
  | .watchdog e => Sys2Proof.Machine.execWatchdog e s
  | .commandDispatch e => Sys2Proof.Machine.execCommandDispatch e s
  | .dmaClr e ch => Sys2Proof.Machine.execDmaClr e ch s
  | .swap e => Sys2Proof.Machine.execSwap e s
  | .refusedClr e => Sys2Proof.Machine.execRefusedClr e s
  | .contextDelivery x k pair ecc => Sys2Proof.Machine.execContextDelivery x k pair ecc s
  | .stepGo t pads => Sys2Proof.Machine.execStepGo t pads s
  | .cellFire x k c bad => Sys2Proof.Machine.execCellFire x k c bad s
  | .stepComplete t => Sys2Proof.Machine.execStepComplete t s
  | .portAReadReturn t bank ecc => Sys2Proof.Machine.execPortAReadReturn t bank ecc s
  | .stepLimitExpiry t => Sys2Proof.Machine.execStepLimitExpiry t s
  | .lapRetryStart => Sys2Proof.Machine.execLapRetryStart s
  | .gather pads => Sys2Proof.Machine.execGather pads s
  | .lapCommit en => Sys2Proof.Machine.execLapCommit en s
  | .stop rq => Sys2Proof.Machine.execStop rq s
  | .clrTorn rq => Sys2Proof.Machine.execClrTorn rq s
  | .lapCount rq v => Sys2Proof.Machine.execLapCount rq v s
  | .lapPos rq v => Sys2Proof.Machine.execLapPos rq v s
  | .lapKind rq k v => Sys2Proof.Machine.execLapKind rq k v s
  | .lapSched rq ii v => Sys2Proof.Machine.execLapSched rq ii v s
  | .actAt rq v => Sys2Proof.Machine.execActAt rq v s
  | .loadCtrlDiscard rq => Sys2Proof.Machine.execLoadCtrlDiscard rq s
  | .trigCtrl rq ii reg v => Sys2Proof.Machine.execTrigCtrl rq ii reg v s
  | .bench rq ii v => Sys2Proof.Machine.execBench rq ii v s
  | .logCtrl rq v => Sys2Proof.Machine.execLogCtrl rq v s
  | .traceCtrl rq t v => Sys2Proof.Machine.execTraceCtrl rq t v s
  | .snap rq => Sys2Proof.Machine.execSnap rq s
  | .loadHeaderChecks => Sys2Proof.Machine.execLoadHeaderChecks s
  | .loadFrameRecord t => Sys2Proof.Machine.execLoadFrameRecord t s
  | .loadTimeout => Sys2Proof.Machine.execLoadTimeout s
  | .bankOwner rq t bank v => Sys2Proof.Machine.execBankOwner rq t bank v s
  | .handoverComplete t bank => Sys2Proof.Machine.execHandoverComplete t bank s
  | .eccWriteBack t bank word => Sys2Proof.Machine.execEccWriteBack t bank word s
  | .eccClear rq t => Sys2Proof.Machine.execEccClear rq t s
  | .copyIn t g word => Sys2Proof.Machine.execCopyIn t g word s
  | .copyBack t g word how => Sys2Proof.Machine.execCopyBack t g word how s
  | .push rq q item => Sys2Proof.Machine.execPush rq q item s
  | .credit rq q v => Sys2Proof.Machine.execCredit rq q v s
  | .ringPi rq q v => Sys2Proof.Machine.execRingPi rq q v s
  | .ringCi rq q v => Sys2Proof.Machine.execRingCi rq q v s
  | .ringFetch q => Sys2Proof.Machine.execRingFetch q s
  | .ringWrite q found => Sys2Proof.Machine.execRingWrite q found s
  | .streamDelivery f found => Sys2Proof.Machine.execStreamDelivery f found s
  | .fabricCreditGrant q => Sys2Proof.Machine.execFabricCreditGrant q s
  | .flowWatchdogExpiry f => Sys2Proof.Machine.execFlowWatchdogExpiry f s
  | .qBind rq q v => Sys2Proof.Machine.execQBind rq q v s
  | .skip rq q => Sys2Proof.Machine.execSkip rq q s
  | .qCtrlReset rq q => Sys2Proof.Machine.execQCtrlReset rq q s
  | .qResetDone q => Sys2Proof.Machine.execQResetDone q s
  | .poolBank rq ii v => Sys2Proof.Machine.execPoolBank rq ii v s
  | .flowQueues rq f v => Sys2Proof.Machine.execFlowQueues rq f v s
  | .flowBind rq f v => Sys2Proof.Machine.execFlowBind rq f v s
  | .flowPos rq f v => Sys2Proof.Machine.execFlowPos rq f v s
  | .read rq addr len path => Sys2Proof.Machine.execRead rq addr len path s
  | .write rq addr len data path => Sys2Proof.Machine.execWrite rq addr len data path s
  | .writePosted rq addr len data path => Sys2Proof.Machine.execWritePosted rq addr len data path s
  | .amoaddRequest rq addr v path => Sys2Proof.Machine.execAmoaddRequest rq addr v path s
  | .readResp rq => Sys2Proof.Machine.execReadResp rq s
  | .writeResp rq => Sys2Proof.Machine.execWriteResp rq s
  | .event m => Sys2Proof.Machine.execEvent m s
  | .notifyHoldoffEnd => Sys2Proof.Machine.execNotifyHoldoffEnd s
  | .queueOp rq q op => Sys2Proof.Machine.execQueueOp rq q op s
  | .maint m => Sys2Proof.Machine.execMaint m s
  | .relay t u src dst body => Sys2Proof.Machine.execRelay t u src dst body s
  | .requestTimeout rq => Sys2Proof.Machine.execRequestTimeout rq s
  | .routerCfg rq t r v => Sys2Proof.Machine.execRouterCfg rq t r v s
  | .routerHoldDrained t r => Sys2Proof.Machine.execRouterHoldDrained t r s
  | .routerHoldTimeout t r => Sys2Proof.Machine.execRouterHoldTimeout t r s
  | .wakeHoldExpiry d => Sys2Proof.Machine.execWakeHoldExpiry d s
  | .hRead m h => Sys2Proof.Machine.execHRead m h s
  | .hWrite m h data => Sys2Proof.Machine.execHWrite m h data s
  | .hWritePosted m h data => Sys2Proof.Machine.execHWritePosted m h data s
  | .completion who resp addr data => Sys2Proof.Machine.execCompletion who resp addr data s
  | .mainbandDown m => Sys2Proof.Machine.execMainbandDown m s
  | .mainbandUp m x32 speed repaired => Sys2Proof.Machine.execMainbandUp m x32 speed repaired s
  | .sidebandLinkUp m read => Sys2Proof.Machine.execSidebandLinkUp m read s
  | .sbHostmem m v => Sys2Proof.Machine.execSbHostmem m v s
  | .hrBase rq n v => Sys2Proof.Machine.execHrBase rq n v s
  | .hrLimit rq n v => Sys2Proof.Machine.execHrLimit rq n v s
  | .evringCi rq v => Sys2Proof.Machine.execEvringCi rq v s
  | .perstN => Sys2Proof.Machine.execPerstN s
  | .portEnable rq p => Sys2Proof.Machine.execPortEnable rq p s
  | .portDisable rq p => Sys2Proof.Machine.execPortDisable rq p s
  | .farLoop rq p => Sys2Proof.Machine.execFarLoop rq p s
  | .nearLoop rq p ii => Sys2Proof.Machine.execNearLoop rq p ii s
  | .retire rq p ii => Sys2Proof.Machine.execRetire rq p ii s
  | .clrFail rq p ii => Sys2Proof.Machine.execClrFail rq p ii s
  | .laneEq rq p ii v => Sys2Proof.Machine.execLaneEq rq p ii v s
  | .laneLock p ii hs => Sys2Proof.Machine.execLaneLock p ii hs s
  | .lossOfLock p ii hs => Sys2Proof.Machine.execLossOfLock p ii hs s
  | .refFault p ii => Sys2Proof.Machine.execRefFault p ii s
  | .acqLimitExpiry p => Sys2Proof.Machine.execAcqLimitExpiry p s
  | .idle p bs => Sys2Proof.Machine.execIdle p bs s
  | .train p ii locked deskewed outside => Sys2Proof.Machine.execTrain p ii locked deskewed outside s
  | .align p skew => Sys2Proof.Machine.execAlign p skew s
  | .alignSend p => Sys2Proof.Machine.execAlignSend p s
  | .map p entries => Sys2Proof.Machine.execMap p entries s
  | .mapReq p unusable spares => Sys2Proof.Machine.execMapReq p unusable spares s
  | .idleEnter p => Sys2Proof.Machine.execIdleEnter p s
  | .idleAfterExpiry p => Sys2Proof.Machine.execIdleAfterExpiry p s
  | .idleExit p long => Sys2Proof.Machine.execIdleExit p long s
  | .token p f g => Sys2Proof.Machine.execToken p f g s
  | .ready p f b => Sys2Proof.Machine.execReady p f b s
  | .go p f b => Sys2Proof.Machine.execGo p f b s
  | .done p f b => Sys2Proof.Machine.execDone p f b s
  | .commit p f b => Sys2Proof.Machine.execCommit p f b s
  | .scratch p f b => Sys2Proof.Machine.execScratch p f b s
  | .query p f b => Sys2Proof.Machine.execQuery p f b s
  | .alive p f => Sys2Proof.Machine.execAlive p f s
  | .aliveSend p => Sys2Proof.Machine.execAliveSend p s
  | .batonLimitExpiry p => Sys2Proof.Machine.execBatonLimitExpiry p s
  | .flowItem p f bridge pos item => Sys2Proof.Machine.execFlowItem p f bridge pos item s
  | .flowCredit p f bridge credits highest => Sys2Proof.Machine.execFlowCredit p f bridge credits highest s
  | .hello p f h => Sys2Proof.Machine.execHello p f h s
  | .authenticationHello p nonce h accepted => Sys2Proof.Machine.execAuthenticationHello p nonce h accepted s
  | .enrolmentTimeout p => Sys2Proof.Machine.execEnrolmentTimeout p s
  | .boot p f data last => Sys2Proof.Machine.execBoot p f data last s
  | .ack p next credits ok => Sys2Proof.Machine.execAck p next credits ok s
  | .nak p next credits ok => Sys2Proof.Machine.execNak p next credits ok s
  | .replayTimeout p => Sys2Proof.Machine.execReplayTimeout p s
  | .chainCfg rq v => Sys2Proof.Machine.execChainCfg rq v s
  | .bridgeCfg rq n v => Sys2Proof.Machine.execBridgeCfg rq n v s
  | .chainCtrlDiscard rq => Sys2Proof.Machine.execChainCtrlDiscard rq s
  | .enrolGo rq v => Sys2Proof.Machine.execEnrolGo rq v s
  | .enrolRemove rq v => Sys2Proof.Machine.execEnrolRemove rq v s
  | .labEn rq => Sys2Proof.Machine.execLabEn rq s
  | .vrCfg rq n v => Sys2Proof.Machine.execVrCfg rq n v s
  | .init rq n => Sys2Proof.Machine.execInit rq n s
  | .vaultInitDone n => Sys2Proof.Machine.execVaultInitDone n s
  | .reinit rq n => Sys2Proof.Machine.execReinit rq n s
  | .reinitDone j => Sys2Proof.Machine.execReinitDone j s
  | .vaultVerdict n line tagOk badNode => Sys2Proof.Machine.execVaultVerdict n line tagOk badNode s
  | .challengeExpiry sess => Sys2Proof.Machine.execChallengeExpiry sess s
  | .lockoutEnd => Sys2Proof.Machine.execLockoutEnd s
  | .clockSwitch rq d sel => Sys2Proof.Machine.execClockSwitch rq d sel s
  | .loopProgram rq d v => Sys2Proof.Machine.execLoopProgram rq d v s
  | .loopLocked d => Sys2Proof.Machine.execLoopLocked d s
  | .loopReady d => Sys2Proof.Machine.execLoopReady d s
  | .monitorWindow src count => Sys2Proof.Machine.execMonitorWindow src count s
  | .domainStoppedTimeout d => Sys2Proof.Machine.execDomainStoppedTimeout d s
  | .clkgateMode rq v => Sys2Proof.Machine.execClkgateMode rq v s
  | .gateClose t b => Sys2Proof.Machine.execGateClose t b s
  | .gateTimeout t b => Sys2Proof.Machine.execGateTimeout t b s
  | .pdReqRun rq d => Sys2Proof.Machine.execPdReqRun rq d s
  | .pdReqSleep rq d => Sys2Proof.Machine.execPdReqSleep rq d s
  | .pdReqDeep rq d => Sys2Proof.Machine.execPdReqDeep rq d s
  | .pdReqOff rq d => Sys2Proof.Machine.execPdReqOff rq d s
  | .sequenceComplete d => Sys2Proof.Machine.execSequenceComplete d s
  | .domainStart => Sys2Proof.Machine.execDomainStart s
  | .railUndervoltage d => Sys2Proof.Machine.execRailUndervoltage d s
  | .vinLow => Sys2Proof.Machine.execVinLow s
  | .vinOvervoltage => Sys2Proof.Machine.execVinOvervoltage s
  | .vinRestored => Sys2Proof.Machine.execVinRestored s
  | .temperatureConversion readings => Sys2Proof.Machine.execTemperatureConversion readings s
  | .tshut => Sys2Proof.Machine.execTshut s
  | .thermalLevelUpdate t => Sys2Proof.Machine.execThermalLevelUpdate t s
  | .powerLevelUpdate pin heldBelow => Sys2Proof.Machine.execPowerLevelUpdate pin heldBelow s
  | .vinCapRecompute vin iin ilim => Sys2Proof.Machine.execVinCapRecompute vin iin ilim s
  | .powerCapTimeout => Sys2Proof.Machine.execPowerCapTimeout s
  | .splitEnd t slot o wires => Sys2Proof.Machine.execSplitEnd t slot o wires s
  | .sweepStart t => Sys2Proof.Machine.execSweepStart t s
  | .testRetry t slot => Sys2Proof.Machine.execTestRetry t slot s
  | .preCopyComplete t => Sys2Proof.Machine.execPreCopyComplete t s
  | .scrubFrame t l corrected crcOk => Sys2Proof.Machine.execScrubFrame t l corrected crcOk s
  | .scrubParameterReload t => Sys2Proof.Machine.execScrubParameterReload t s
  | .scrubWatchdog t l => Sys2Proof.Machine.execScrubWatchdog t l s
  | .fuseCommit rq t => Sys2Proof.Machine.execFuseCommit rq t s
  | .readId p tag arg => Sys2Proof.Machine.execReadId p tag arg s
  | .readBb p tag arg => Sys2Proof.Machine.execReadBb p tag arg s
  | .readEnv p tag arg => Sys2Proof.Machine.execReadEnv p tag arg s
  | .forceOff p tag arg => Sys2Proof.Machine.execForceOff p tag arg s
  | .resetPackage p tag => Sys2Proof.Machine.execResetPackage p tag s
  | .resetTower p tag t => Sys2Proof.Machine.execResetTower p tag t s
  | .resetLayer p tag t layer => Sys2Proof.Machine.execResetLayer p tag t layer s
  | .resetEngine p tag e => Sys2Proof.Machine.execResetEngine p tag e s
  | .layerResetProceed t layer => Sys2Proof.Machine.execLayerResetProceed t layer s
  | .resetRelease t => Sys2Proof.Machine.execResetRelease t s
  | .resetN => Sys2Proof.Machine.execResetN s
  | .powerOnReset straps => Sys2Proof.Machine.execPowerOnReset straps s
  | .freeze p tag arg => Sys2Proof.Machine.execFreeze p tag arg s
  | .dumpEngine p tag arg => Sys2Proof.Machine.execDumpEngine p tag arg s
  | .dumpFreezeTimeout p tag arg => Sys2Proof.Machine.execDumpFreezeTimeout p tag arg s
  | .thawEngine p tag arg => Sys2Proof.Machine.execThawEngine p tag arg s
  | .zeroise p tag arg => Sys2Proof.Machine.execZeroise p tag arg s
  | .sessionOpen p tag arg => Sys2Proof.Machine.execSessionOpen p tag arg s
  | .sessionProve p tag arg payload => Sys2Proof.Machine.execSessionProve p tag arg payload s
  | .sessionClose p tag arg => Sys2Proof.Machine.execSessionClose p tag arg s
  | .sessionClaim p tag arg payload => Sys2Proof.Machine.execSessionClaim p tag arg payload s
  | .powerRestore p tag arg => Sys2Proof.Machine.execPowerRestore p tag arg s
  | .mcLoad p tag arg => Sys2Proof.Machine.execMcLoad p tag arg s
  | .bootImage p tag arg => Sys2Proof.Machine.execBootImage p tag arg s
  | .bootImageFetched => Sys2Proof.Machine.execBootImageFetched s
  | .testUnlock p tag arg => Sys2Proof.Machine.execTestUnlock p tag arg s
  | .fuseProgram p tag arg payload => Sys2Proof.Machine.execFuseProgram p tag arg payload s
  | .setTime p tag arg payload => Sys2Proof.Machine.execSetTime p tag arg payload s
  | .residentReload p tag arg => Sys2Proof.Machine.execResidentReload p tag arg s
  | .state => Sys2Proof.Machine.execState s
  | .alerts => Sys2Proof.Machine.execAlerts s
  | .alertsClear v => Sys2Proof.Machine.execAlertsClear v s
  | .reqPart bytes => Sys2Proof.Machine.execReqPart bytes s
  | .reqEnd bytes => Sys2Proof.Machine.execReqEnd bytes s
  | .ansPart => Sys2Proof.Machine.execAnsPart s
  | .mbxGo rq slot => Sys2Proof.Machine.execMbxGo rq slot s
  | .mbxRelease rq slot => Sys2Proof.Machine.execMbxRelease rq slot s
  | .heartbeatTimeout => Sys2Proof.Machine.execHeartbeatTimeout s
  | .replicaRestart selfTestOk => Sys2Proof.Machine.execReplicaRestart selfTestOk s
  | .pinOwn rq p v => Sys2Proof.Machine.execPinOwn rq p v s
  | .pinCfg rq p v => Sys2Proof.Machine.execPinCfg rq p v s
  | .parkEnd p => Sys2Proof.Machine.execParkEnd p s
  | .gpioSet rq ii v => Sys2Proof.Machine.execGpioSet rq ii v s
  | .gpioClr rq ii v => Sys2Proof.Machine.execGpioClr rq ii v s
  | .gpioTgl rq ii v => Sys2Proof.Machine.execGpioTgl rq ii v s
  | .dout rq ii v => Sys2Proof.Machine.execDout rq ii v s
  | .patternMatch n pads => Sys2Proof.Machine.execPatternMatch n pads s
  | .matchEnd n pads => Sys2Proof.Machine.execMatchEnd n pads s
  | .forceRelease rq k => Sys2Proof.Machine.execForceRelease rq k s
  | .trigoutPulseEnd => Sys2Proof.Machine.execTrigoutPulseEnd s
  | .registerWrite rq addr len v => Sys2Proof.Machine.execRegisterWrite rq addr len v s
  | .vendorDefinedMessage m bytes => Sys2Proof.Machine.execVendorDefinedMessage m bytes s
  | .splitStart t slot windowOk => Sys2Proof.Machine.execSplitStart t slot windowOk s
  | .clockSwitchComplete d => Sys2Proof.Machine.execClockSwitchComplete d s
  | .scrubberCopyDisagrees t l allThree => Sys2Proof.Machine.execScrubberCopyDisagrees t l allThree s

end Sys2Proof.Machine
end

