-- ==== Sys2Proof/Machine/Fetch.lean ====
section
/-! DEFINITION. An engine fetches, decodes and executes the instruction at its program counter (R70, R73, R79). -/

namespace Sys2Proof.Machine

/-- The instruction word at the program counter, as instruction fetch sees the scratchpad (R73). -/
def Engine.fetched (en : Engine) : W64 := wordAt (Sparse.read en.code (en.pc.toNat / 16)) (en.pc.toNat / 8 % 2)

/-- The engine's next instruction, or what is due before it. A word that spells none takes ILLEGAL with TVAL holding the word. -/
def execFetched (e : Eng) (s : State) : Out :=
  let w := (s.eng e).fetched
  match decodeOctuk e w with
  | some i => exec i s
  | none => issue e s fun s => s.trap e .illegal w

/-- The engines that run a program and work. -/
def State.runners (s : State) : List Eng :=
  allEngines.filter fun e => (s.eng e).state == .running && !(s.eng e).frozen && s.engClocked e

/-- No command waits: one of the engines that run a program goes on by an instruction, a free choice among them; where none runs,
the block idles (notes/assumptions 1). -/
def State.runEngine (s : State) : Out :=
  match s.runners with
  | [] => .next s
  | e :: es => execFetched ((e :: es).getD (Config.freePick s.free % (es.length + 1)) e) s.spend

/-- What happens when no command waits: the Referee ends an enrolment, a frame of the device's own that is addressed to itself is
delivered (notes/assumptions 50, 94), and else an engine goes on. -/
def State.goOn (s : State) : Out :=
  match s.ref.enrolDue, s.ownFrames with
  | some j, _ => .next (s.enrolDone j).settleV
  | none, _ :: _ => .next s.deliverOwn
  | none, [] => s.runEngine

end Sys2Proof.Machine
end

