-- ==== Sys2Proof/WellFormed.lean ====
section
/-! DEFINITION. Which commands are well formed: the operands that no type of Syntax bounds have a value the row's own
table gives them. -/

namespace Sys2Proof

/-- The transfer rates of a trained mainband (HC_LINK.SPEED). -/
def linkRates : List Nat := [4, 8, 12, 16, 24, 32]

/-- The readings of one temperature conversion: sixteen sensors on each of 24 layers (R341, R342). -/
def sensorCount : Nat := 384

/-- A mainband trains at a rate that HC_LINK.SPEED can show, and a conversion gives one reading a sensor. Every other row's
operands are bounded by their types. -/
def WellFormed : Instr → Bool
  | .mainbandUp _ _ speed _ => linkRates.contains speed.toNat
  | .temperatureConversion readings => readings.length == sensorCount
  | _ => true

end Sys2Proof
end

