-- ==== Sys2Proof/Safety.lean ====
section
/-! DEFINITION. The terms in which claims speak of a run: which copies of a register exist, what counting and events may change
besides a command's own effect, how a command completes, when a request finds its block, and the canonical form of the
memories. -/

namespace Sys2Proof.Machine

/-- The indices `ix` name a copy of a register with the given strides and numbers of copies. -/
def ixValid : List (Nat × Nat) → List Nat → Bool
  | [], [] => true
  | (_, n) :: ds, i :: is => decide (i < n) && ixValid ds is
  | _, _ => false

/-- Copy `ix` of the register exists. -/
def RegName.valid (r : RegName) (ix : List Nat) : Bool := ixValid r.place.2 ix

/-! ### Counting and events -/

/-- The registers that a counted occurrence, its overflow events and the event unit may write (R149, R150, R236; VR_STAT through
the vault lines of an event ring that lies in a vault region). -/
def eventRegs : List RegName :=
  [.CNT_T, .CNT_P, .OVF_STAT_T, .OVF_STAT_P, .HC_EVRING_IDX, .HC_EVSTAT, .HC_EVCTRL, .VR_STAT]

/-- An engine but for the three places that an event may write: EVPEND, SIGDATA and the counter overflows held for it. -/
def Engine.own (en : Engine) : Engine := { en with evpend := 0, sigdata := 0, ovfHeld := 0 }

/-- The engine when an instruction of `n` cycles has completed: it goes on at the next instruction (R70, R71). -/
def Engine.done (en : Engine) (n : W64) : Engine := { en.tick n with pc := en.pc + 8, state := .running, waiting := none }

/-- The engine when a branch, call or return has gone to `t` in two cycles. -/
def Engine.jumped (en : Engine) (t : W64) : Engine := { en.tick 2 with pc := BitVec.ofNat 16 t.toNat }

/-- The engine when trap `c` has taken it into its handler: TCAUSE, TVAL and TPC are written (R89). -/
def Engine.trapped (en : Engine) (c : Trap) (resp : Byte) (imprecise : Bool) (tval tpc : W64) : Engine :=
  (en.trapRegs c resp imprecise tval tpc).enterHandler c

/-- The state when engine `e` has completed an instruction that waits for an answer: `f` says what it writes; `n` cycles are its
own, and the others are free (notes/assumptions 3). -/
def State.waited (s : State) (e : Eng) (n : W64) (f : Engine → Engine) : State :=
  s.spend.onEng e fun en => (f en).done (s.cyclesWith n)

/-- What follows an instruction that waited for an answer: traps then due, what the command makes possible elsewhere, and, where a
trap has ended the program, what that makes possible. -/
def State.afterWait (was : State) (e : Eng) (u : State) : State := ((u.deliver e).finish).settleEnd was e

/-- The performance counters of the engine's unit do not count. -/
def Uncounted (s : State) (e : Eng) : Prop :=
  s.fld (unitFields (unitIx (unitOfEngine e)).1).en (unitIx (unitOfEngine e)).2 = 0

/-- `t` is `s` after nothing but counted occurrences and events: every other register and every other part of every engine holds
its value, and so does the rest of the state but host memory, the vault and what goes to the host. -/
structure OnlyEvents (s t : State) : Prop where
  reg : ∀ r ix, r.valid ix = true → r ∉ eventRegs → t.reg r ix = s.reg r ix
  eng : ∀ e, (t.eng e).own = (s.eng e).own
  rest : t = { s with
    regs := t.regs, engines := t.engines, hostmem := t.hostmem, vault := t.vault, hostOut := t.hostOut
    holdoff := t.holdoff, notifyDue := t.notifyDue }

/-- The command completes in `t`, but for counted occurrences and events. -/
def Gives (c : Instr) (s t : State) : Prop := ∃ u, exec c s = .next u ∧ OnlyEvents t u

/-- The same, where `after` follows: the part that every such command shares (settle, settleV, finish). -/
def GivesThen (after : State → State) (c : Instr) (s t : State) : Prop :=
  ∃ u, exec c s = .next (after u) ∧ OnlyEvents t u

/-- An instruction of engine `e` completes: `t` says what it makes of the state after its fetch (R70, R179). -/
def Runs (c : Instr) (s : State) (e : Eng) (t : State → State) : Prop := Gives c s (t (s.fetchedWord e))
def RunsThen (after : State → State) (c : Instr) (s : State) (e : Eng) (t : State → State) : Prop :=
  GivesThen after c s (t (s.fetchedWord e))

/-- The command completes, and what it has done before the shared part `after` meets `P`. -/
def Completes (after : State → State) (c : Instr) (s : State) (P : State → Prop) : Prop :=
  ∃ u, exec c s = .next (after u) ∧ P u

/-- Every register but those of `rs` and the event registers keeps its value, and so do design memory and the stand-in arrays. -/
structure Keeps (s u : State) (rs : List RegName) : Prop where
  reg : ∀ r ix, r.valid ix = true → r ∉ rs → r ∉ eventRegs → u.reg r ix = s.reg r ix
  mem : u.mem = s.mem
  standin : u.standin = s.standin

/-! ### The cell pool -/

/-- The pool can take an item: a cell is empty, the next one lies in a bank that is not FAILED, and the cells in use are cells of banks. -/
def State.CanStore (s : State) : Prop :=
  0 < s.poolEmpty ∧ s.bankFailed (s.poolPick / 256) (s.poolPick % 256) = false ∧
    ∀ p ∈ s.qitems, ∀ c ∈ p.2, c.bank < 1024 ∧ c.cell < 65536

/-! ### Requests -/

/-- The sender has a role, and the block at address `a` is on and not in reset. -/
structure Reaches (s : State) (rq : Rq) (role : Role) (a : Nat) : Prop where
  role : s.roleOf rq = some role
  on : s.targetOff rq a = false
  held : s.targetHeld a = false

/-- A write of copy `ix` of a register is accepted: the access opens the clock gate of the register's block, `f` is the write's
effect, and the sender is answered OK. -/
def Writes (c : Instr) (s : State) (rq : Rq) (r : RegName) (ix : List Nat) (f : State → State) : Prop :=
  exec c s = .next ((f (s.touchGate (r.addr ix))).answer rq false .ok 0 0).finish

/-- The same for a write that the black box records with the register's old and new values (R287). -/
def WritesRecorded (c : Instr) (s : State) (rq : Rq) (r : RegName) (ix : List Nat) (f : State → State) : Prop :=
  Writes c s rq r ix fun g => (f g).recordWrite rq (r.addr ix) (g.reg r ix) ((f g).reg r ix)

/-- A write of copy `ix` of a register is refused with response `x`, and nothing is written. -/
def RefusesWrite (c : Instr) (s : State) (rq : Rq) (r : RegName) (ix : List Nat) (x : Resp) : Prop :=
  exec c s = .next ((s.touchGate (r.addr ix)).answer rq false x 0 0).finish

/-! ### Memories -/

/-- The canonical form of a memory that reads as zero where nothing is listed. -/
abbrev Memory.wf (m : Sparse Quad) : Bool := Sparse.wf (fun _ => 0) m

/-- Design memory and the stand-in arrays have their canonical form. -/
def State.arraysWf (s : State) : Bool := Memory.wf s.mem && Memory.wf s.standin

end Sys2Proof.Machine
end

