-- ==== Sys2Proof/Certificates/Slice0/Obligations.lean ====
section
/-! DEFINITION. The statements for the provers. Each cites in OBLIGATIONS.json the rules of spec/ it formalises. -/

open Sys2Proof Sys2Proof.Machine

/-! ### Steps and outcomes -/

/-- A step takes the command at the front of the queue and runs it with the rest of the queue. -/
def Obligations.StepRunsTheFrontCommand : Prop :=
  ∀ (s : State) (c : Instr) (rest : List Instr), step { s with pending := c :: rest } = exec c { s with pending := rest }

/-- A well-formed command always answers a next state, in every state; one that is not is a fault (the model's form of the rows'
operand ranges). -/
def Obligations.WellFormedCommandsComplete : Prop :=
  ∀ (s : State) (c : Instr),
    (WellFormed c = true → ∃ t, exec c s = .next t) ∧ (WellFormed c = false → exec c s = .fault .malformedCommand)

/-! ### Engine instructions -/

/-- What an operation gives on two registers, on a register and an immediate (ADDI extends the sign, the logical ones zeros, LUI shifts by
13), with its cycles; NOP only goes on. g0 reads as zero, and a write to it changes no register. -/
def Obligations.ComputeInstructions : Prop :=
  (∀ (s : State) (e : Eng) (rd ra rb : Gpr), s.canIssue e = true → (s.eng e).pc ≠ 0xFFF8 →
      let a := (s.eng e).get ra
      let b := (s.eng e).get rb
      let k := (b &&& 63).toNat
      let result (c : Instr) (v n : W64) := Runs c s e fun s => s.onEng e fun en => (en.put rd v).done n
      result (.add e rd ra rb) (a + b) 1 ∧ result (.sub e rd ra rb) (a - b) 1 ∧ result (.and e rd ra rb) (a &&& b) 1 ∧
        result (.or e rd ra rb) (a ||| b) 1 ∧ result (.xor e rd ra rb) (a ^^^ b) 1 ∧
        result (.shl e rd ra rb) (a <<< k) 1 ∧ result (.shr e rd ra rb) (a >>> k) 1 ∧
        result (.sha e rd ra rb) (a.sshiftRight k) 1 ∧ result (.mul e rd ra rb) (a * b) 3 ∧
        result (.min e rd ra rb) (if a.toInt < b.toInt then a else b) 1 ∧
        result (.max e rd ra rb) (if a.toInt < b.toInt then b else a) 1 ∧
        result (.cmp e rd ra rb) (if a.toInt < b.toInt then -1 else if a.toInt = b.toInt then 0 else 1) 1 ∧
        result (.mov e rd ra) a 1) ∧
    (∀ (s : State) (e : Eng) (rd ra : Gpr) (imm : BitVec 46) (high : BitVec 51), s.canIssue e = true → (s.eng e).pc ≠ 0xFFF8 →
      let a := (s.eng e).get ra
      let result (c : Instr) (v : W64) := Runs c s e fun s => s.onEng e fun en => (en.put rd v).done 1
      result (.addi e rd ra imm) (BitVec.ofInt 64 (a.toInt + imm.toInt)) ∧
        result (.andi e rd ra imm) (a &&& BitVec.ofNat 64 imm.toNat) ∧
        result (.ori e rd ra imm) (a ||| BitVec.ofNat 64 imm.toNat) ∧
        result (.xori e rd ra imm) (a ^^^ BitVec.ofNat 64 imm.toNat) ∧
        result (.lui e rd high) (BitVec.ofNat 64 (high.toNat * 2 ^ 13)) ∧
        Runs (.nop e) s e fun s => s.onEng e fun en => en.done 1) ∧
    ∀ (en : Engine) (a b : Gpr) (v : W64),
      en.get 0 = 0 ∧ en.put 0 v = en ∧ (a ≠ 0 → (en.put a v).get a = v) ∧ (a ≠ b → (en.put a v).get b = en.get b)

/-- The fetch: a word without a single-bit error leaves no trace; such an error is corrected, counted as the engine's SPAD_CORRECTED and by
the memory layer, and written back, and no other part of the engine changes. Where no command waits, one engine runs a program and
nothing of the device's own is due, a step carries out the instruction that the word at its program counter spells, or takes ILLEGAL
with TVAL holding the word; where no engine runs, a step changes nothing. -/
def Obligations.InstructionFetch : Prop :=
  (∀ (s : State) (e : Eng),
      let en := s.eng e
      let w := en.pc.toNat / 16
      let u := s.fetchedWord e
      (w ∉ en.imemSoft → u = s) ∧
      (w ∈ en.imemSoft →
        (∃ v, OnlyEvents v u ∧ (v.eng e).own = ({ en with imemSoft := listDrop en.imemSoft w } : Engine).own ∧
          (∀ e', e' ≠ e → v.eng e' = s.eng e') ∧ v.mem = s.mem ∧
          v.fld F.ECC_STAT.CORRECTED [e.val / 4] = min (s.fld F.ECC_STAT.CORRECTED [e.val / 4] + 1) (2 ^ 32 - 1) ∧
          v.fld F.ECC_STAT.UNCORRECTABLE [e.val / 4] = s.fld F.ECC_STAT.UNCORRECTABLE [e.val / 4]))) ∧
    ∀ (s : State) (e : Eng), s.pending = [] → s.ref.enrolDue = none → s.ownFrames = [] →
      let w := (s.eng e).fetched
      (s.runners = [] → step s = .next s) ∧
      (s.runners = [e] →
        (∀ i, decodeOctuk e w = some i → step s = exec i s.spend) ∧
        (decodeOctuk e w = none → s.spend.canIssue e = true → (s.eng e).tvecEn = true → (s.eng e).inTrap = false →
          ∃ t, step s = .next t ∧
            OnlyEvents ((s.spend.fetchedWord e).onEng e fun en => en.trapped .illegal 0 false w (en.pc.setWidth 64)) t))

/-- Branches, calls and returns to a target inside the instruction scratchpad; a branch whose comparison fails goes on. Where the target
lies outside, the trap ILLEGAL with TVAL holding the target, g31 unwritten by CALL; RET to a target that is no multiple of 8 takes
MISALIGNED; execution past 0xFFF8 takes ILLEGAL (here ADDI), its result written. -/
def Obligations.FlowOfControl : Prop :=
  (∀ (s : State) (e : Eng) (ra rb : Gpr) (far : BitVec 56) (near : BitVec 41), s.canIssue e = true →
    let en := s.eng e
    let a := en.get ra
    let b := en.get rb
    let pc : Int := en.pc.toNat
    let goes (c : Instr) (t : Int) := Runs c s e fun s => s.onEng e fun en => en.jumped (BitVec.ofInt 64 t)
    let on (c : Instr) := Runs c s e fun s => s.onEng e fun en => en.done 1
    let good (t : Int) : Prop := 0 ≤ t ∧ t ≤ 0xFFF8
    let branch (c : Instr) (holds : Prop) : Prop :=
      (holds → good (pc + 8 * near.toInt) → goes c (pc + 8 * near.toInt)) ∧ (¬holds → en.pc ≠ 0xFFF8 → on c)
    branch (.beq e ra rb near) (a = b) ∧ branch (.bne e ra rb near) (a ≠ b) ∧
      branch (.blt e ra rb near) (a.toInt < b.toInt) ∧ branch (.bge e ra rb near) (b.toInt ≤ a.toInt) ∧
      (good (pc + 8 * far.toInt) → goes (.b e far) (pc + 8 * far.toInt)) ∧
      (good (pc + 8 * far.toInt) →
        Runs (.call e far) s e fun s =>
          s.onEng e fun en => (en.put 31 (BitVec.ofInt 64 (pc + 8))).jumped (BitVec.ofInt 64 (pc + 8 * far.toInt))) ∧
      (en.g[31].toNat ≤ 0xFFF8 → en.g[31].toNat % 8 = 0 → Runs (.ret e) s e fun s => s.onEng e fun en => en.jumped en.g[31])) ∧
  ∀ (s : State) (e : Eng) (rd ra rb : Gpr) (far : BitVec 56) (near : BitVec 41) (imm : BitVec 46), s.canIssue e = true →
    let en := s.eng e
    let a := en.get ra
    let b := en.get rb
    let pc := en.pc.setWidth 64
    let bf := pc + 8 * far.signExtend 64
    let bn := pc + 8 * near.signExtend 64
    let traps (i : Instr) (c : Trap) (tval : W64) := Runs i s e fun s => s.onEng e fun en => en.trapped c 0 false tval pc
    en.tvecEn = true → en.inTrap = false →
      (0xFFF8 < bf.toNat → traps (.b e far) .illegal bf ∧ traps (.call e far) .illegal bf) ∧
      (0xFFF8 < bn.toNat →
        (a = b → traps (.beq e ra rb near) .illegal bn) ∧ (a ≠ b → traps (.bne e ra rb near) .illegal bn) ∧
          (a.toInt < b.toInt → traps (.blt e ra rb near) .illegal bn) ∧
          (b.toInt ≤ a.toInt → traps (.bge e ra rb near) .illegal bn)) ∧
      (en.g[31].toNat % 8 ≠ 0 → traps (.ret e) .misaligned en.g[31]) ∧
      (en.g[31].toNat % 8 = 0 → 0xFFF8 < en.g[31].toNat → traps (.ret e) .illegal en.g[31]) ∧
      (en.pc = 0xFFF8 → Runs (.addi e rd ra imm) s e fun s => s.onEng e fun en =>
        ((en.put rd (a + imm.signExtend 64)).tick 1).trapped .illegal 0 false 0x10000 0x10000)

/-- Entry into a handler: TRAP n, NMI_TAKEN, COUNTER_OVERFLOW and the first overrun of WDOG write TCAUSE, TVAL and TPC and go on
at the handler with INTRAP set; ERET goes back to TPC. TVAL of the last three but COUNTER_OVERFLOW is a free value. -/
def Obligations.TrapEntryAndReturn : Prop :=
  ∀ (s : State) (e : Eng) (op32 : BitVec 32) (n : Fin 8),
    let en := s.eng e
    let pc := en.pc.setWidth 64
    let free := Config.freeWord s.free
    let awake : Prop := en.frozen = false ∧ s.engClocked e = true
    (s.canIssue e = true → en.tvecEn = true → en.inTrap = false →
      Runs (.trap e op32) s e fun s =>
        s.onEng e fun en => en.trapped .software 0 false ((op32.setWidth 16).setWidth 64) (pc + 8)) ∧
      (awake → en.tvecEn = true → en.inTrap = false → en.state = .running ∨ en.inWait = true →
        (en.nmiClock = true → GivesThen State.settle (.nmiTaken e) s
          (s.spend.onEng e fun en => ({ en with nmiClock := false } : Engine).trapped .nmiClock 0 false free pc)) ∧
        (en.nmiClock = false → en.nmiThermal = true → GivesThen State.settle (.nmiTaken e) s
          (s.spend.onEng e fun en => ({ en with nmiThermal := false } : Engine).trapped .nmiThermal 0 false free pc))) ∧
      (awake → en.tvecEn = true → en.inTrap = false → en.state = .running → en.ovfHeld.getLsbD n = true →
        GivesThen State.settle (.counterOverflow e n) s
          (s.onEng e fun en => en.trapped .counterOverflow 0 false (BitVec.ofNat 64 (n + 1)) pc)) ∧
      (awake → en.tvecEn = true → en.inTrap = false → en.wdog ≠ 0 →
        (en.state = .running ∧ en.wdog.toNat * 1024 < en.runtime.toNat) ∨ en.inWait = true → en.wdogHits = 0 →
        GivesThen State.settle (.watchdog e) s
          (s.spend.onEng e fun en => ({ en with runtime := 0, wdogHits := 1 } : Engine).trapped .watchdog 0 false free pc)) ∧
      (s.canIssue e = true → en.inTrap = true → en.tpc.toNat % 8 = 0 → en.tpc.toNat ≤ 0xFFF8 →
        RunsThen (fun u => (u.deliver e).settleEnd s e) (.eret e) s e fun s => s.onEng e fun en => en.leaveHandler.tick 4)

/-- The end of a program: HALT with nothing outstanding, a trap with TVEC.EN 0 or within a handler, and the second overrun of WDOG
end it with a completion item of their kind; the engine becomes idle. -/
def Obligations.EndOfProgram : Prop :=
  ∀ (s : State) (e : Eng) (ra : Gpr) (op32 : BitVec 32),
    let en := s.eng e
    let pc := en.pc.setWidth 64
    let ends (kind cause value : Nat) (at_ : W64) (u : State) : State := (u.endProgram e kind cause 0 value at_).settle
    (s.canIssue e = true → en.fenceOpen true true = false →
      RunsThen (ends 0 0 ((en.get ra).setWidth 16).toNat pc) (.halt e ra) s e fun s => s.onEng e fun en => en.tick 4) ∧
      (s.canIssue e = true → en.tvecEn = false ∨ en.inTrap = true →
        RunsThen (ends 1 0 0 (pc + 8)) (.trap e op32) s e fun s =>
          s.onEng e fun en => en.trapRegs .software 0 false ((op32.setWidth 16).setWidth 64) (pc + 8)) ∧
      (en.frozen = false → s.engClocked e = true → en.wdog ≠ 0 →
        (en.state = .running ∧ en.wdog.toNat * 1024 < en.runtime.toNat) ∨ en.inWait = true → en.wdogHits ≠ 0 →
        GivesThen (ends 2 0 0 pc) (.watchdog e) s (s.onEng e fun en => { en with tpc := pc })) ∧
      ∀ (kind cause value : Nat) (at_ : W64),
        let after := s.endProgram e kind cause 0 value at_
        (after.eng e).state = .idle ∧ (after.eng e).inTrap = false ∧ (after.eng e).waiting = none ∧
          (∀ r, (after.eng e).get r = en.get r) ∧ (∀ e', e' ≠ e → (after.eng e').own = (s.eng e').own) ∧
          (en.cqen = false → after.qitems = s.qitems) ∧
          (en.cqen = true → s.producer en.cq.toNat = .engine e.val → 0 < s.credits en.cq.toNat → s.CanStore →
            ∃ cell, after.items en.cq.toNat = s.items en.cq.toNat ++ [cell] ∧
              cell.item = completionItem en e kind cause 0 value at_ ∧ cell.poison = false)

/-- Memory instructions on the data scratchpad (S = 1), aligned, below 64 KiB: LD and LDQ load the word's parts, ST and STQ replace
their bytes, AMOADD adds to bits [63:0] and returns the old ones. The word that is read must have no error (one that is uncorrectable
traps; a corrected one is counted besides); STQ replaces a word whatever its errors. -/
def Obligations.ScratchpadMemory : Prop :=
  ∀ (s : State) (e : Eng) (rd ra rb : Gpr) (disp : BitVec 41) (short : BitVec 40), s.canIssue e = true →
    (s.eng e).pc ≠ 0xFFF8 →
    let en := s.eng e
    let a := en.get ra + disp.signExtend 64
    let b := en.get ra + short.signExtend 64
    let w := a.toNat / 16
    let q := Sparse.read en.dmem w
    let sound (w : Nat) : Prop := w ∉ en.dmemBad ∧ w ∉ en.dmemSoft
    let gives (c : Instr) (n : W64) (f : Engine → Engine) := Runs c s e fun s => s.onEng e fun en => (f en).done n
    let stores (c : Instr) (n : W64) (w : Nat) (q : Quad) (f : Engine → Engine) := Runs c s e fun s =>
      (s.spadWrite e false w q).onEng e fun en => (f en).done n
    (a.toNat < 0x10000 → sound w →
      (a.toNat % 8 = 0 →
        gives (.ld e rd ra true false disp) 2 (fun en => en.put rd (BitVec.ofNat 64 (q.toNat / 2 ^ (8 * (a.toNat % 16))))) ∧
        stores (.st e rd ra true false disp) 2 w
          (setBits q (8 * (a.toNat % 16) + 63) (8 * (a.toNat % 16)) (en.get rd).toNat) id) ∧
      (a.toNat % 4 = 0 →
        gives (.ld e rd ra true true disp) 2
          (fun en => en.put rd (BitVec.ofNat 64 (q.toNat / 2 ^ (8 * (a.toNat % 16)) % 2 ^ 32))) ∧
        stores (.st e rd ra true true disp) 2 w
          (setBits q (8 * (a.toNat % 16) + 31) (8 * (a.toNat % 16)) (en.get rd).toNat) id) ∧
      (a.toNat % 16 = 0 → rd.val % 2 = 0 →
        gives (.ldq e rd ra true disp) 3 (fun en => (en.put rd (q.setWidth 64)).put (rd + 1) (BitVec.ofNat 64 (q.toNat / 2 ^ 64))))) ∧
      (a.toNat < 0x10000 → a.toNat % 16 = 0 → rd.val % 2 = 0 →
        stores (.stq e rd ra true disp) 3 w (en.get (rd + 1) ++ en.get rd) id) ∧
      (b.toNat < 0x10000 → b.toNat % 16 = 0 → sound (b.toNat / 16) →
        let q := Sparse.read en.dmem (b.toNat / 16)
        stores (.amoadd e rd ra rb true short) 4 (b.toNat / 16)
          (BitVec.ofNat 64 (q.toNat / 2 ^ 64) ++ (q.setWidth 64 + en.get rb)) fun en => en.put rd (q.setWidth 64)) ∧
      ∀ (instr : Bool) (w : Nat) (q : Quad),
        let x := (s.spadWrite e instr w q).eng e
        spadWord instr x w = q ∧ spadBad instr x w = false ∧ spadSoft instr x w = false ∧
          (∀ v, v ≠ w → spadWord instr x v = spadWord instr en v) ∧ x.g = en.g ∧ x.pc = en.pc

/-- What every memory instruction is refused before it leaves the engine, with a precise trap: an address outside its space
(BUS_ERROR with DECODE_ERROR), then a width that a memory-type region refuses whatever the alignment, then a misaligned one, then a
region that the instruction does not reach; an odd rd of LDQ and STQ is illegal. The order of the first and the third is the model's
reading (notes/assumptions 70). -/
def Obligations.MemoryTraps : Prop :=
  ∀ (s : State) (e : Eng) (rd ra rb : Gpr) (sp w : Bool) (disp : BitVec 41) (short : BitVec 40), s.canIssue e = true →
    (s.eng e).tvecEn = true → (s.eng e).inTrap = false →
    let en := s.eng e
    let a := en.get ra + disp.signExtend 64
    let b := en.get ra + short.signExtend 64
    let outside (a : W64) : Prop := (sp = true ∧ 0x10000 ≤ a.toNat) ∨ (sp = false ∧ 2 ^ 48 ≤ a.toNat)
    let wide (a : W64) : Prop := sp = false ∧ spaceOf a.toNat ∈ [.memory, .frame, .stateStore]
    let traps (i : Instr) (c : Trap) (tval : W64) (r : Resp) :=
      Runs i s e fun s => s.onEng e fun en => en.trapped c r.byte false tval (en.pc.setWidth 64)
    (outside a → traps (.ld e rd ra sp w disp) .busError a .decodeError ∧ traps (.st e rd ra sp w disp) .busError a .decodeError ∧
      (rd.val % 2 = 0 → traps (.ldq e rd ra sp disp) .busError a .decodeError ∧
        traps (.stq e rd ra sp disp) .busError a .decodeError)) ∧
      (outside b → traps (.amoadd e rd ra rb sp short) .busError b .decodeError) ∧
      (¬outside a → wide a →
        traps (.ld e rd ra sp w disp) .busError a .decodeError ∧ traps (.st e rd ra sp w disp) .busError a .narrowWrite) ∧
      (¬outside a → ¬wide a → a.toNat % (if w then 4 else 8) ≠ 0 →
        traps (.ld e rd ra sp w disp) .misaligned a .ok ∧ traps (.st e rd ra sp w disp) .misaligned a .ok) ∧
      (¬outside a → a.toNat % 16 ≠ 0 → rd.val % 2 = 0 →
        traps (.ldq e rd ra sp disp) .misaligned a .ok ∧ traps (.stq e rd ra sp disp) .misaligned a .ok) ∧
      (¬outside b → b.toNat % 16 ≠ 0 → traps (.amoadd e rd ra rb sp short) .misaligned b .ok) ∧
      (sp = false → ¬outside a → a.toNat % 16 = 0 → spaceOf a.toNat ∈ [.host, .none] →
        traps (.ld e rd ra sp w disp) .busError a .decodeError ∧ traps (.st e rd ra sp w disp) .busError a .decodeError) ∧
      (sp = false → ¬outside a → a.toNat % 16 = 0 → spaceOf a.toNat ∈ [.register, .doorbell, .none] → rd.val % 2 = 0 →
        traps (.ldq e rd ra sp disp) .busError a .decodeError ∧ traps (.stq e rd ra sp disp) .busError a .decodeError) ∧
      (sp = false → ¬outside b → b.toNat % 16 = 0 → spaceOf b.toNat ∈ [.register, .doorbell, .frame, .stateStore, .none] →
        traps (.amoadd e rd ra rb sp short) .busError b .decodeError) ∧
      (rd.val % 2 = 1 → traps (.ldq e rd ra sp disp) .illegal (wordM 0x32 rd ra sp false disp) .ok ∧
        traps (.stq e rd ra sp disp) .illegal (wordM 0x33 rd ra sp false disp) .ok)

/-- Memory instructions on design memory (S = 0): a bank that the engine may reach, a word without errors. The store's answer is
outstanding until STORE_RESPONSE. -/
def Obligations.DesignMemoryAccess : Prop :=
  ∀ (s : State) (e : Eng) (rd ra rb : Gpr) (disp : BitVec 41) (short : BitVec 40), s.canIssue e = true →
    (s.eng e).pc ≠ 0xFFF8 → (s.eng e).inTrap = false →
    let en := s.eng e
    let a := (en.get ra + disp.signExtend 64).toNat
    let b := (en.get ra + short.signExtend 64).toNat
    let reaches (a : Nat) (write : Bool) : Prop :=
      a < 0x100000000 ∧ a % 16 = 0 ∧ s.targetOff (engRq e) a = false ∧
        s.targetHeld a = false ∧ s.portBAllows (memTower a) (memBank a) (.engine e.val) en.role write = .ok
    let sound (a : Nat) : Prop := s.memBadAt a = false ∧ s.memSoftAt a = false ∧ en.storesTo (BitVec.ofNat 64 a) = false
    let q (a : Nat) := s.memWordAt a
    (reaches a false → sound a → rd.val % 2 = 0 →
      RunsThen (s.afterWait e) (.ldq e rd ra false disp) s e fun s =>
        s.waited e 2 fun en => (en.put rd (wordAt (q a) 0)).put (rd + 1) (wordAt (q a) 1)) ∧
      (reaches a true → rd.val % 2 = 0 → en.stores.length < 16 →
        RunsThen (fun u => u.finish.settleEnd s e) (.stq e rd ra false disp) s e fun s =>
          (s.memStore a (en.get (rd + 1) ++ en.get rd)).onEng e fun en =>
            ({ en with stores := en.stores ++ [{ addr := BitVec.ofNat 64 a, resp := some 0 }] } : Engine).done 3) ∧
      (reaches b true → sound b →
        RunsThen (s.afterWait e) (.amoadd e rd ra rb false short) s e fun s =>
          (s.memStore b (wordAt (q b) 1 ++ (wordAt (q b) 0 + en.get rb))).waited e 2 fun en => en.put rd (wordAt (q b) 0))

/-- LD and ST on a register (S = 0): the load brings the register's value as a read shows it, with what the read does; the store
writes all its RW fields where the write does nothing else. The words are whole registers; STORE_RESPONSE takes the answer. -/
def Obligations.RegisterAccess : Prop :=
  ∀ (s : State) (e : Eng) (rd ra : Gpr) (disp : BitVec 41) (r : RegName) (ix : List Nat) (i : Fin 16), s.canIssue e = true →
    (s.eng e).pc ≠ 0xFFF8 →
    let en := s.eng e
    let a := r.addr ix
    let g := (s.fetchedWord e).touchGate a
    (r.valid ix = true → shadowed r ix = false → copyAssigned r ix = true → spaceOf a = .register ∨ spaceOf a = .doorbell →
      en.get ra + disp.signExtend 64 = BitVec.ofNat 64 a → s.targetOff (engRq e) a = false → s.targetHeld a = false →
      (g.readRight en.role r ix = true → g.slotDenies (engRq e) r ix = false → en.storesTo (BitVec.ofNat 64 a) = false →
        GivesThen (s.afterWait e) (.ld e rd ra false false disp) s
          ((g.afterRead r ix .full).waited e 2 fun en => en.put rd (g.regView r ix))) ∧
      (∀ u, en.stores.length < 16 → r ≠ .ROUTER_CFG → g.writeReg (engRq e) en.role r ix .full (en.get rd) = (.ok, u) →
        (u.eng e).state = .running →
        exec (.st e rd ra false false disp) s = .next (((u.onEng e fun en =>
          { en with stores := en.stores ++ [{ addr := BitVec.ofNat 64 a, resp := some 0 }] }).retire e 2).finish.settleEnd s e))) ∧
      (∀ st, en.stores[i.val]? = some st →
        (st.resp = some 0 → exec (.storeResponse e i) s =
          .next (s.onEng e fun en => { en with stores := en.stores.eraseIdx i.val }).settle) ∧
        (st.resp = some 1 → st.old = false → en.tvecEn = true → en.inTrap = false →
          GivesThen State.settle (.storeResponse e i) s (s.onEng e fun en =>
            ({ en with stores := en.stores.eraseIdx i.val } : Engine).trapped .busError 1 true st.addr (en.pc.setWidth 64))))

/-- Block moves: MOVE hands a move to an idle channel and goes on; MWAIT reads DMAn_STAT of an idle channel, waits for a busy one
and traps on a halted one; DMA_CLR makes a halted channel idle; DMA_DONE carries a move between places of the data scratchpad to
its end, word by word in address order. -/
def Obligations.BlockMoves : Prop :=
  ∀ (s : State) (e : Eng) (rd ra rb : Gpr) (op32 : BitVec 32) (ch : Fin 8),
    let en := s.eng e
    let len := (en.get rd).toNat
    let src := (en.get ra).toNat
    let dst := (en.get rb).toNat
    let ssp := bitsOf op32 5 4
    let dsp := bitsOf op32 7 6
    let c := en.chans[ch]
    let on (f : Chan → Chan) (en : Engine) : Engine := { en with chans := en.chans.set ch (f en.chans[ch]) }
    let gives (c : Instr) (f : Engine → Engine) := Runs c s e fun s => s.onEng e f
    (s.canIssue e = true → en.pc ≠ 0xFFF8 →
      (op32.toNat % 8 = ch.val → bitsOf op32 31 8 = 0 → op32.getLsbD 3 = false → ssp ≤ 1 → dsp ≤ 2 → len ≤ 0xFFFFFFF0 →
        len % 16 = 0 → src % 16 = 0 → dst % 16 = 0 →
        (len = 0 → gives (.move e rd ra rb op32) fun en => en.done 4) ∧
        (len ≠ 0 → moveFits ssp src len = true → moveFits dsp dst len = true → dsp ≠ 2 ∨ 0x4000 ≤ dst → c.state = .idle →
          gives (.move e rd ra rb op32) fun en =>
            (on (fun _ => { state := .busy, op := some (.move ssp dsp src dst len), role := en.role }) en).done 4)) ∧
      (op32.toNat = ch.val →
        (c.state = .idle → gives (.mwait e rd op32) fun en => (en.put rd c.stat).done 2) ∧
        (c.state = .busy → gives (.mwait e rd op32) fun en => { en with state := .waiting, waiting := some (.mwait rd ch) }) ∧
        (c.state = .halted → en.tvecEn = true → en.inTrap = false → gives (.mwait e rd op32)
          fun en => en.trapped .dmaHalt 0 false (BitVec.ofNat 64 ch.val) (en.pc.setWidth 64))) ∧
      RunsThen (fun u => u.settle.settleEnd s e) (.dmaClr e ch) s e fun s => s.onEng e fun en =>
        (on (fun c => if c.state = .halted then { c with state := .idle, resp := 0, result := 0 } else c) en).done 2) ∧
      ∀ (src dst n : Nat), c.state = .busy → c.op = some (.move 1 1 (16 * src) (16 * dst) (16 * n)) → c.bytes = 0 →
        c.verdictWait = false → c.lines = [] → en.dmemBad = [] → en.dmemSoft = [] → src + n ≤ 4096 → dst + n ≤ 4096 → n ≠ 0 →
        s.chanHeld e ch = false → s.pd (engDomain e) = 1 →
        GivesThen State.finish (.dmaDone e ch) s
          (((List.range n).foldl (fun u i => u.spadWrite e false (dst + i) (spadWord false (u.eng e) (src + i))) s).onEng e
            (on fun c => { c with state := .idle, op := none, resp := 0, result := 0, bytes := BitVec.ofNat 32 (16 * n) }))

/-- Events: ARM binds and unbinds, WAIT returns pending bits of its mask and clears them or waits, its timeout returns 0, TIMER
fires a bound timer once, and SIGNAL sets a bit and SIGDATA of an engine that is on, or sends the host a message once no earlier store of
the engine to host memory is held on its way. Exact where the engine's performance counters do not count. -/
def Obligations.EventsOfEngines : Prop :=
  ∀ (s : State) (e e' : Eng) (rd ra : Gpr) (op32 : BitVec 32) (b : Fin 64) (cls : Fin 16),
    let en := s.eng e
    let f := s.fetchedWord e
    let v := (f.eng e).evpend &&& en.get ra
    let unbind (en : Engine) : Engine := { en with bindings := en.bindings.filter fun x => x.bit != b }
    let ends (u : State) : State := u.settleEnd s e
    (s.canIssue e = true → en.pc ≠ 0xFFF8 → Uncounted s e →
      (op32 = BitVec.ofNat 32 (65536 + b.val) → exec (.arm e ra op32) s = .next (f.onEng e fun en => (unbind en).done 2)) ∧
      (op32 = BitVec.ofNat 32 (cls.val * 256 + b.val) → cls.val ≤ 9 → ¬(cls.val = 6 ∧ en.get ra = 0) →
        exec (.arm e ra op32) s = .next (ends (f.onEng e fun en =>
          ({ unbind en with bindings := (unbind en).bindings ++ [⟨b, cls, en.get ra⟩] } : Engine).done 2).settle)) ∧
      (en.get ra ≠ 0 → v ≠ 0 → exec (.wait e rd ra op32) s = .next (ends (f.onEng e fun en =>
        (({ en with evpend := en.evpend &&& ~~~v } : Engine).put rd v).done 2).settle)) ∧
      (en.get ra ≠ 0 → v = 0 → exec (.wait e rd ra op32) s = .next (f.onEng e fun en =>
        { en with state := .waiting, waiting := some (.wait rd (en.get ra) (op32 != 0)) })) ∧
      (op32 = BitVec.ofNat 32 (b.val * 256 + e'.val) →
        (s.fenced (engDomain e') = false → exec (.signal e ra op32) s = .next (ends (((f.onEng e' fun x =>
          { x with evpend := x.evpend ||| (1 <<< b.val), sigdata := en.get ra }).onEng e fun en => en.done 4).settle))) ∧
        (s.fenced (engDomain e') = true → exec (.signal e ra op32) s = .next (ends ((f.onEng e fun en => en.done 4).settle)))) ∧
      (op32 = BitVec.ofNat 32 (b.val * 256 + 16) →
        (en.hostStoreHeld = true → exec (.signal e ra op32) s = .next f) ∧
        (en.hostStoreHeld = false → exec (.signal e ra op32) s = .next (ends
          ((f.hostEvent 1 (BitVec.ofNat 8 e.val) (BitVec.ofNat 16 b.val) (en.get ra)).onEng e fun en => en.done 4).finish)))) ∧
      (∀ mask, en.waiting = some (.wait rd mask true) → en.state = .waiting → en.frozen = false → en.nmiDue = false →
        en.evpend &&& mask = 0 → en.pc ≠ 0xFFF8 →
        GivesThen (fun u => (u.deliver e).settle) (.waitTimeout e) s (s.waited e 2 fun en => en.put rd 0)) ∧
      (∀ x ∈ en.bindings, x.bit = b → x.cls.val = 6 → x.arg ≠ 0 →
        exec (.timer e b) s = .next (s.onEng e fun en =>
          { en with
            evpend := en.evpend ||| (1 <<< b.val)
            bindings := en.bindings.map fun x => if x.bit = b ∧ x.cls.val = 6 then { x with arg := 0 } else x }).settle)

/-- Laps as engines command them: LAPSTOP, LAPSTEP and LAPSTAT, LAPRUN of a standalone device, and LAPRUN refused: the first of
RUNNING, TORN, NOT_ACTIVE and SCHEDULE_INVALID that applies, with its effect alone (the last one reports the halt cause). The lap
engine stands on T0, which is on and not in reset. -/
def Obligations.LapInstructions : Prop :=
  ∀ (s : State) (e : Eng) (rd ra : Gpr) (op32 : BitVec 32), s.canIssue e = true → (s.eng e).pc ≠ 0xFFF8 →
    s.fenced (pdNE 0) = false → s.towerHeld 0 = false →
    let en := s.eng e
    let gives (c : Instr) (t : State → State) (n v : W64) :=
      RunsThen (s.afterWait e) c s e fun s => (t s).waited e n fun en => en.put rd v
    let waits (c : Instr) (P : State → Prop) (w : Waiting) :=
      Completes (fun u => u.finish.settleEnd s e) c s fun u => P u ∧ (u.eng e).state = .waiting ∧ (u.eng e).waiting = some w
    let stopping (s : State) : State := { s with fab := { s.fab with stopAsked := true } }
    let result (n : Nat) (u : State) : State := u.put F.LAP_STAT.RESULT n
    let started (u : State) : Prop :=
      u.fab.phase = .gatherDue ∧ Keeps (s.fetchedWord e) u [.LAP_END, .LAP_STAT, .TLC_STAT, .CHAIN_STAT]
    (s.lapsRun = false → gives (.lapStop e rd op32) id 8 1) ∧
      (s.lapsRun = true → op32.getLsbD 0 = false → gives (.lapStop e rd op32) stopping 8 0) ∧
      (s.lapsRun = true → op32.getLsbD 0 = true →
        waits (.lapStop e rd op32) (fun u => u.fab.stopAsked = true) (.lapStop rd 0)) ∧
      gives (.lapStat e rd 0) id 4 s.lapStatus ∧ gives (.lapStat e rd 1) id 4 s.lapCount ∧
      gives (.lapStatCount e rd) id 4 s.lapCount ∧
      (s.lapsRun = true → gives (.lapStep e rd) id 8 s.lapStatus) ∧
      (s.lapsRun = true → gives (.lapRun e rd ra) (result 1) 8 1) ∧
      (s.lapsRun = false → s.ref.torn = true → gives (.lapRun e rd ra) (result 4) 8 4) ∧
      (s.lapsRun = false → s.ref.torn = false → s.persona_ ≠ 2 ∨ s.gsr = true → gives (.lapRun e rd ra) (result 2) 8 2) ∧
      (s.lapsRun = false → s.ref.torn = false → s.persona_ = 2 → s.gsr = false → s.scheduleOk s.pos = false →
        gives (.lapRun e rd ra) (fun s => result 3 { s with ref := { s.ref with cause := 0x0B } }) 8 3) ∧
      (s.mayStart = true → s.chainMode = 0 →
        waits (.lapStep e rd) (fun u => started u ∧ u.fab.single = true) (.lapStep rd) ∧
        Completes (s.afterWait e) (.lapRun e rd ra) s fun u =>
          started u ∧ u.fab.single = false ∧ u.ref.cause = 0 ∧ u.fld F.LAP_STAT.RESULT = 0 ∧ u.fld F.LAP_STAT.RETRIES = 0 ∧
            (rd ≠ 0 → (u.eng e).get rd = 0) ∧
            u.reg .LAP_END [] = if en.get ra = 0 then 0 else s.lapCount + en.get ra)

/-- Contexts: CTXLOAD hands the image to a free loader on a channel that is not busy; CTXACT answers its code; CTXCHK answers −1
where every half of the frames is valid, and else the index of the first that is not. -/
def Obligations.ContextInstructions : Prop :=
  ∀ (s : State) (e : Eng) (rd ra rb : Gpr) (ch : Fin 8), s.canIssue e = true → (s.eng e).pc ≠ 0xFFF8 →
    let en := s.eng e
    let gives (c : Instr) (n v : W64) := RunsThen (s.afterWait e) c s e fun s => s.waited e n fun en => en.put rd v
    let op32 : BitVec 32 := BitVec.ofNat 32 ch.val
    let job : Job :=
      { engine := e, ch := ch, role := en.role, queue := en.cmdQueue, addr := (en.get ra).toNat, len := (en.get rb).toNat
        deadline := s.fld F.LOAD_CTRL.DEADLINE }
    let a := (en.get ra).toNat
    let n := (en.get rb).toNat
    let die := (a - 0x010000000000) / 0x100000000
    let checks (v : W64) := RunsThen (fun u => u.finish.settleEnd s e) (.ctxChk e rd ra rb) s e fun s =>
      s.onEng e fun en => (en.put rd v).done (8 + 520 * BitVec.ofNat 64 n)
    (s.fenced (pdNE 0) = false → s.towerHeld 0 = false →
      (s.persona.job.isSome = true →
        gives (.ctxLoad e rd ra rb op32) 8 1 ∧ gives (.ctxAct e rd) 8 2) ∧
      (s.persona.job = none → en.chans[ch].state ≠ .busy →
        Completes (s.afterWait e) (.ctxLoad e rd ra rb op32) s fun u =>
          u.persona.job = some job ∧ u.fld F.LOAD_STAT.LOADER = 1 ∧ u.fld F.LOAD_STAT.RESULT = 0 ∧ u.fld F.LOAD_STAT.ENGINE = e.val ∧
            (u.eng e).chans[ch] = { state := .busy, op := some .image, ctx := true } ∧
            (rd ≠ 0 → (u.eng e).get rd = 0) ∧ Keeps (s.fetchedWord e) u [.LOAD_STAT]) ∧
      (s.persona.job = none → s.persona_ ≠ 1 → s.flag F.LOAD_STAT.STAGED = false → gives (.ctxAct e rd) 8 1) ∧
      (s.persona.job = none → s.persona_ ≠ 1 → s.flag F.LOAD_STAT.STAGED = true → s.flag F.LOAD_STAT.ACT_PENDING = true →
        gives (.ctxAct e rd) 8 0) ∧
      (s.persona.job = none → s.persona_ ≠ 1 → s.flag F.LOAD_STAT.STAGED = true → s.flag F.LOAD_STAT.ACT_PENDING = false →
        s.lapsRun = true → Completes (s.afterWait e) (.ctxAct e rd) s fun u =>
          u.flag F.LOAD_STAT.ACT_PENDING = true ∧ (rd ≠ 0 → (u.eng e).get rd = 0) ∧ u.persona.actEngine = e ∧
            Keeps (s.fetchedWord e) u [.LOAD_STAT])) ∧
      (isSlotBase a = true → frameNumber a + n ≤ 149760 →
        s.layerHeld (die / 2) (if die % 2 = 0 then 2 else 5) = false → s.fenced (pdCfg die) = false →
        s.towerHeld (die / 2) = false →
        ((∀ k < n, s.invalidIn die (frameNumber a + k) = none) → checks (-1)) ∧
        ∀ k i, k < n → s.invalidIn die (frameNumber a + k) = some i →
          (∀ j < k, s.invalidIn die (frameNumber a + j) = none) → checks (BitVec.ofNat 64 (k * 1024 + i)))

/-- System instructions: FENCE goes on, with IFETCH fetching from the scratchpad as it stands, or waits for stores and channels; HALT waits
for them; SRR reads a special register; SRW writes those of its role; TELL waits for the Referee's answer. Microcode: SWAP by the
installer while laps run waits for the boundary, is REFUSED where the other bank is not valid, and else is carried out; REFUSED_CLR
clears the flag. Each such write of MC_CTRL is recorded. -/
def Obligations.SystemInstructions : Prop :=
  (∀ (s : State) (e : Eng) (rd ra : Gpr) (op32 : BitVec 32) (v : W64), s.canIssue e = true → (s.eng e).pc ≠ 0xFFF8 →
      let en := s.eng e
      let f := s.fetchedWord e
      let n := bitsOf op32 11 0
      let waits (c : Instr) (w : Waiting) := exec c s = .next (f.onEng e fun en => { en with state := .waiting, waiting := some w })
      let after (u : State) : State := u.settle.settleEnd s e
      let writes (g : Engine → Engine) := RunsThen after (.srw e ra op32) s e fun s => s.onEng e fun en => (g en).done 2
      let x := en.get ra
      (op32.toNat < 16 →
        (en.fenceOpen (op32.getLsbD 0) (op32.getLsbD 1) = false → Runs (.fence e op32) s e fun s => s.onEng e fun en =>
          (if op32.getLsbD 2 then { en with code := en.imem } else en).done 1) ∧
        (en.fenceOpen (op32.getLsbD 0) (op32.getLsbD 1) = true →
          waits (.fence e op32) (.fence (op32.getLsbD 0) (op32.getLsbD 1) (op32.getLsbD 2)))) ∧
        (en.fenceOpen true true = true → waits (.halt e ra) (.halt (x.setWidth 16))) ∧
        (f.special e n = some v → Runs (.srr e rd op32) s e fun s => s.onEng e fun en => (en.put rd v).done 2) ∧
        (n = 0x00C → writes fun en => { en with tsave0 := x }) ∧
        (n = 0x00D → writes fun en => { en with tsave1 := x }) ∧
        (n = 0x009 → writes fun en => if en.inTrap then { en with tpc := x } else en) ∧
        (n = 0x000 → writes fun en => { en with superseded := en.superseded && !x.getLsbD 11 }) ∧
        (n = 0x010 → Uncounted s e → exec (.srw e ra op32) s =
          .next (after (f.onEng e fun en => ({ en with evpend := en.evpend &&& ~~~x } : Engine).done 2))) ∧
        (n = 0x018 → en.role = .installer → RunsThen after (.srw e ra op32) s e fun s =>
          ((s.onEng e fun en => { en with wdog := x.setWidth 32 }).recordWrite (engRq e) (specialAddr e n)
            (en.wdog.setWidth 64) ((x.setWidth 32).setWidth 64)).onEng e fun en => en.done 2) ∧
        (n = 0x00B → en.role ≠ .operator → RunsThen after (.srw e ra op32) s e fun s =>
          ((s.onEng e fun en => { en with tvec := tvecWrite en.tvec x }).recordWrite (engRq e) (specialAddr e n) en.tvec
            (tvecWrite en.tvec x)).onEng e fun en => en.done 2) ∧
        (op32.toNat < 65536 → exec (.tell e rd ra op32) s =
          .next ((((f.onEng e fun en => { en with state := .waiting, waiting := some (.tell rd) }).takeOp (.tell e) op32.toNat 0 x
            []).finish).settleEnd s e))) ∧
    ∀ (s : State) (e : Eng), s.canIssue e = true → (s.eng e).pc ≠ 0xFFF8 → (s.eng e).role = .installer →
      let recorded (t : State) : State :=
        (t.recordWrite (engRq e) (specialAddr e 0x031) (BitVec.ofNat 64 (b2n s.mc.swapPending))
          (BitVec.ofNat 64 (b2n t.mc.swapPending))).onEng e fun en => en.done 2
      let gives (c : Instr) (t : State → State) := RunsThen (fun u => u.settle.settleEnd s e) c s e fun s => recorded (t s)
      let other := if s.mc.active then s.mc.aValid else s.mc.bValid
      (s.mc.swapPending = true → gives (.swap e) id) ∧
        (s.mc.swapPending = false → other = false → gives (.swap e) fun s => { s with mc := { s.mc with refused := true } }) ∧
        (s.mc.swapPending = false → other = true → s.lapsRun = true →
          gives (.swap e) fun s => { s with mc := { s.mc with swapPending := true } }) ∧
        (s.mc.swapPending = false → other = true → s.lapsRun = false → gives (.swap e) State.mcSwap) ∧
        gives (.refusedClr e) fun s => { s with mc := { s.mc with refused := false } }

/-- Queue instructions of a producer or consumer engine, with their codes: QPUSH 0 pushed, 1 no credit, 2 not the producer; QPOP 1
an item, 0 none, 2 not the consumer; QCRED the credits then held. QPOP of an item whose cell is uncorrectable traps. The queue manager
stands on T0, on and not in reset; the words that QPUSH reads have no error. -/
def Obligations.QueueInstructions : Prop :=
  ∀ (s : State) (e : Eng) (rd ra rb : Gpr) (op32 : BitVec 32), s.canIssue e = true → (s.eng e).pc ≠ 0xFFF8 →
    s.fenced (pdNE 0) = false → s.towerHeld 0 = false →
    let en := s.eng e
    let gives (c : Instr) (t : State → State) (n v : W64) :=
      RunsThen (s.afterWait e) c s e fun s => (t s).waited e n fun en => en.put rd v
    let buffer (a : W64) : Prop := a.toNat % 64 = 0 ∧ a.toNat < 0x10000
    let w := (en.get ra).toNat / 16
    let q := (en.get rb).toNat % 8192
    let p := (en.get ra).toNat % 8192
    let kept := if en.cqHeld = true ∧ en.cq.toNat = q then 1 else 0
    let x : Item := BitVec.ofNat 512 (joinQuads ((List.range 4).map fun i => Sparse.read en.dmem (w + i)))
    (buffer (en.get ra) → (∀ i < 4, w + i ∉ en.dmemBad ∧ w + i ∉ en.dmemSoft) →
      (s.producer q ≠ .engine e.val → gives (.qPush e rd ra rb) id 8 2) ∧
      (s.producer q = .engine e.val → (s.flag F.Q_BIND.CMD [q] = true → s.fld F.Q_BIND.ROLE [q] = roleCode en.role) →
        (s.credits q ≤ kept → gives (.qPush e rd ra rb) id 8 1) ∧
        (kept < s.credits q → gives (.qPush e rd ra rb) (fun s => s.pushCell q x) 8 0))) ∧
      (buffer (en.get rb) →
        (s.consumer p ≠ .engine e.val → gives (.qPop e rd ra rb) id 8 2) ∧
        (s.consumer p = .engine e.val → s.flag F.Q_STAT.FAULTED [p] = true ∨ s.headCell p = none →
          gives (.qPop e rd ra rb) id 8 0) ∧
        (∀ c, s.consumer p = .engine e.val → s.flag F.Q_STAT.FAULTED [p] = false → s.headCell p = some c →
          (c.poison = false → gives (.qPop e rd ra rb) (fun s =>
            ((s.readCell p 0).popCell p).spadWrites e false ((en.get rb).toNat / 16) (itemQuads c.item)) 8 1) ∧
          (c.poison = true → en.tvecEn = true → en.inTrap = false →
            RunsThen (fun u => u.finish.settleEnd s e) (.qPop e rd ra rb) s e fun s =>
              (s.readCell p 0).spend.onEng e fun en =>
                en.trapped .dataUncorrectable 0 false (Config.freeWord (s.readCell p 0).free) (en.pc.setWidth 64)))) ∧
      (s.producer p ≠ .engine e.val → gives (.qCred e rd ra op32) id 8 0) ∧
      (s.producer p = .engine e.val →
        let n := op32.toNat % 65536
        gives (.qCred e rd ra op32) (fun s => s.grant p n) 8 (BitVec.ofNat 64 (s.credits p + s.grantSize p n)))

/-- The cells of a queue: a push writes a cell of the pool and appends it at the tail, taking a credit, a pop removes the head, a grant is
the least of the request, the room below LIMIT and the free cells of the pool; other queues keep their items and credits. A link that
is uncorrectable faults the queue when a pop follows it. -/
def Obligations.QueueCells : Prop :=
  ∀ (s : State) (q : Qn) (x : Item) (n : Nat),
    let push := s.pushCell q x
    let pop := s.popCell q
    let grant := s.grant q n
    let size := if s.flag F.Q_STAT.FAULTED [q.val] then 0
      else min n (min (s.fld F.Q_LEVEL.LIMIT [q.val] - s.qCount q - s.credits q) s.poolFree)
    (s.CanStore → ∃ cell, push.items q = s.items q ++ [cell] ∧ cell.item = x ∧ cell.poison = false) ∧
      push.credits q = s.credits q - 1 ∧
      push.fld F.Q_SEQ.TAIL [q.val] = (s.fld F.Q_SEQ.TAIL [q.val] + 1) % 2 ^ 32 ∧
      pop.fld F.Q_SEQ.HEAD [q.val] = (s.fld F.Q_SEQ.HEAD [q.val] + 1) % 2 ^ 32 ∧
      (s.badLink q 0 = false → pop.items q = (s.items q).tail ∧ pop.credits q = s.credits q) ∧
      (s.badLink q 0 = true → pop.flag F.Q_STAT.FAULTED [q.val] = true) ∧
      grant.credits q = s.credits q + size ∧ grant.items q = s.items q ∧
      ∀ q' : Qn, q' ≠ q →
        (s.CanStore → push.items q' = s.items q') ∧ push.credits q' = s.credits q' ∧
          (s.badLink q 0 = false → pop.items q' = s.items q' ∧ pop.credits q' = s.credits q') ∧ grant.items q' = s.items q' ∧
          grant.credits q' = s.credits q'

/-- PWR: the query returns the domain status word; a request goes to the domain and returns the word after it; the cap is the
installer's, and rd is then a free value. SPLIT under the installer's or the maker's role: BUSY, REFUSED outside the test window, or
STARTED with the test of its block (for a sweep, with the sweeps of its towers), which is recorded. -/
def Obligations.PowerAndTestInstructions : Prop :=
  (∀ (s : State) (e : Eng) (rd ra : Gpr), s.canIssue e = true → (s.eng e).pc ≠ 0xFFF8 →
      let en := s.eng e
      let d := (en.get ra).toNat % 64
      let word (t : State) (refused : Nat) : W64 := BitVec.ofNat 64 (t.fld F.PD_STAT.WORD [d] + 128 * refused)
      let gives (c : Instr) (target : Nat) :=
        RunsThen (s.afterWait e) c s e fun s =>
          (s.pdRequest d target).waited e 8 fun en => en.put rd (word (s.pdRequest d target) (if d = 0 ∨ d = 7 then 1 else 0))
      RunsThen (fun u => ((u.deliver e).settle).settleEnd s e) (.pwrQuery e rd ra) s e
          (fun s => s.waited e 8 fun en => en.put rd (word s 0)) ∧
        gives (.pwrRun e rd ra) 1 ∧ gives (.pwrSleep e rd ra) 2 ∧ gives (.pwrDeep e rd ra) 3 ∧ gives (.pwrOff e rd ra) 0 ∧
        (en.role = .installer → RunsThen (s.afterWait e) (.pwrSetCap e rd ra) s e fun s =>
          (s.spend.setCap (engRq e) (en.get ra).toNat).waited e 8 fun en => en.put rd (Config.freeWord s.free))) ∧
  ∀ (s : State) (e : Eng) (rd ra : Gpr), s.canIssue e = true → (s.eng e).pc ≠ 0xFFF8 → (s.eng e).role ≠ .operator →
    let v := (s.eng e).get ra
    let splits : List Instr :=
      [.bankMarch e rd ra, .standinMarch e rd ra, .tileScan e rd ra, .laneLoop e rd ra, .loopCheck e rd ra, .sensorRef e rd ra,
        .vmonCheck e rd ra]
    let gives (c : Instr) (t : State → State) (n : W64) :=
      RunsThen (s.afterWait e) c s e fun s => (t s).waited e 8 fun en => en.put rd n
    let towers := (List.finRange 4).filter fun t => v.getLsbD t.val
    (∀ (k : Nat) (h : k < splits.length), testLegal k v = true → s.fenced (pdNE (testTower k v)) = false →
      s.towerHeld (testTower k v) = false →
      (s.testBusy k v false = true → gives splits[k] id 2) ∧
      (s.testBusy k v false = false → s.testWindow k (testTower k v) = false → gives splits[k] id 1) ∧
      (s.testBusy k v false = false → s.testWindow k (testTower k v) = true →
        gives splits[k] (fun s => (s.recordSplit e k v).startTest k v (some e)) 0)) ∧
      ((∀ t ∈ towers, s.fenced (pdNE t) = false ∧ s.towerHeld t = false) →
        ((∃ t ∈ towers, (s.sweepOf t).isSome) → gives (.sweep e rd ra) id 2) ∧
        ((∀ t ∈ towers, s.sweepOf t = none) → (∃ t ∈ towers, s.testWindow 7 t = false) → gives (.sweep e rd ra) id 1) ∧
        ((∀ t ∈ towers, s.sweepOf t = none ∧ s.testWindow 7 t = true) → towers ≠ [] →
          gives (.sweep e rd ra) (fun s => towers.foldl (fun s t => s.startSweep t (some e)) (s.recordSplit e 7 v)) 0))

/-- The command dispatcher of an idle engine takes the head descriptor of its next command queue, with the errors of its cell counted: a
descriptor with LEN 0 starts the program at ENTRY with its arguments in g1 to g5 under the queue's role, no event pending, and fetching
from the scratchpad as it stands; one that breaks a check ends as BAD_COMMAND. -/
def Obligations.CommandDispatch : Prop :=
  ∀ (s : State) (e : Eng) (q : Nat) (rest : List Nat) (c : QCell), s.mayDispatch e = true → (s.eng e).launch = none →
    s.readyQueues e = q :: rest → s.headCell q = some c →
    let x := c.item
    let p := (s.readCell q 0).popCell q
    let taken (en : Engine) : Engine :=
      { en with
        role := roleOfCode (p.fld F.Q_BIND.ROLE [q])
        cmdQueue := BitVec.ofNat 13 q
        cmdTag := BitVec.ofNat 32 (bitsOf x 159 128)
        cqen := bit x 127
        cqHeld := bit x 127
        cq := BitVec.ofNat 13 (bitsOf x 124 112)
        lastQueue := q + 1 }
    let started (en : Engine) : Engine :=
      { taken en with
        launch := none
        code := en.imem
        g := Vector.ofFn fun i => if 1 ≤ i.val ∧ i.val ≤ 5 then wordAt x (2 + i.val) else 0
        bindings := []
        runtime := 0
        wdogHits := 0
        superseded := false
        pc := BitVec.ofNat 16 (8 * bitsOf x 95 80)
        state := .running }
    ((bit x 127 = true → s.producer (bitsOf x 124 112) = .engine e.val ∧ s.credits (bitsOf x 124 112) ≠ 0) →
      (badCommand x = false → bitsOf x 79 64 = 0 →
        Completes State.finish (.commandDispatch e) s fun u => OnlyEvents (p.onEng e started) u ∧ (u.eng e).evpend = 0) ∧
      (badCommand x = true → exec (.commandDispatch e) s = .next
        (((p.onEng e taken).spend.onEng e fun en => { en with launch := none }).endProgram e 3 0 0 0
          (Config.freeWord p.free)).finish)) ∧
      (bit x 127 = true → s.producer (bitsOf x 124 112) ≠ .engine e.val → exec (.commandDispatch e) s = .next
        (((s.popCell q).onEng e fun en => { en with lastQueue := q + 1 }).errRecord (some e.val) 7 .ok e.val
          (bitsOf x 124 112) 0).finish)

/-- A trap for a role that may not make the access: SPLIT by the operator, the power cap by any but the installer, SRW of WDOG and
MC_CTRL by any but the installer, and of TVEC by the operator; nothing else changes but the count of denials. -/
def Obligations.RoleDenials : Prop :=
  ∀ (s : State) (e : Eng) (rd ra : Gpr) (op32 : BitVec 32), s.canIssue e = true → (s.eng e).tvecEn = true →
    (s.eng e).inTrap = false →
    let role := (s.eng e).role
    let n := bitsOf op32 11 0
    let denies (c : Instr) := Runs c s e fun s =>
      s.denied.spend.onEng e fun en => en.trapped .roleDenied 0 false (Config.freeWord s.denied.free) (en.pc.setWidth 64)
    (role = .operator → denies (.bankMarch e rd ra) ∧ denies (.standinMarch e rd ra) ∧ denies (.laneLoop e rd ra) ∧
        denies (.vmonCheck e rd ra) ∧ denies (.sweep e rd ra) ∧ (n = 0x00B → denies (.srw e ra op32))) ∧
      (role ≠ .installer → denies (.pwrSetCap e rd ra) ∧ (n = 0x018 ∨ n = 0x031 → denies (.srw e ra op32)) ∧
        denies (.swap e) ∧ denies (.refusedClr e)) ∧
      s.denied.fld F.SEC_STAT.DENIED = min (s.fld F.SEC_STAT.DENIED + 1) (2 ^ 32 - 1)

/-- CNTRD returns counter n of unit u, a free value where no command carries what it counts, to a role that may read it, from a unit that
is on and not in reset. COUNTER_SNAP.SNAP copies every counter of the units that are on into its shadow register, all at once. -/
def Obligations.Counters : Prop :=
  (∀ (s : State) (e : Eng) (rd ra : Gpr) (u : Fin 26) (n : Fin 9) (op32 : BitVec 32), s.canIssue e = true →
      (s.eng e).pc ≠ 0xFFF8 → ((s.eng e).get ra).toNat % 32 = u.val → op32.toNat % 16 = n.val →
      s.fenced (unitDomain u) = false → (∀ t, unitTower u = some t → s.towerHeld t = false ∧ s.fenced (pdNE t) = false) →
      let reads := RunsThen (s.afterWait e) (.cntrd e rd ra op32) s e fun s =>
        (if s.countsUnseen u n then s.spend else s).waited e 4 fun en => en.put rd (s.counter u n)
      ((s.eng e).role ≠ .operator → reads) ∧
        ((s.eng e).role = .operator → (s.fld F.COUNTER_ACCESS.READ).testBit u → reads) ∧
        ((s.eng e).role = .operator → (s.fld F.COUNTER_ACCESS.READ).testBit u = false → (s.eng e).tvecEn = true →
          (s.eng e).inTrap = false →
          Runs (.cntrd e rd ra op32) s e fun s =>
            s.denied.spend.onEng e fun en =>
              en.trapped .roleDenied 0 false (Config.freeWord s.denied.free) (en.pc.setWidth 64))) ∧
    ∀ (s : State) (rq : Rq) (role : Role), Reaches s rq role (RegName.COUNTER_SNAP.addr []) → role ≠ .operator →
      ∃ u, Writes (.snap rq) s rq .COUNTER_SNAP [] (fun _ => u) ∧
        (∀ (x : Fin 26) (n : Fin 9),
          u.reg (shadowReg x) ((unitIx x).2 ++ [n.val]) =
            if s.pd (unitDomain x) = 1 ∨ s.pd (unitDomain x) = 2 then s.counter x n
            else s.reg (shadowReg x) ((unitIx x).2 ++ [n.val])) ∧
        (∀ r ix, r.valid ix = true → r ≠ .SHADOW_T → r ≠ .SHADOW_P → u.reg r ix = s.reg r ix) ∧ u = { s.spend with regs := u.regs }

/-- Commands of the lap engine and the loader that are register writes: STOP asks for a halt, CLR_TORN clears TORN, and
LAP_COUNT, LAP_POS, LAP_KIND and LAP_SCHED take writes while laps are halted and are refused while they run; the next lap continues
from the count and schedule entry written, and an entry beyond the first with LAST is refused at LAPRUN. ACT_AT is refused while an
activation is pending, and DISCARD drops what is staged unless one is. Writes of the trigger units, BENCH, LOG_CTRL and TRACE_CTRL
wait for the next lap boundary while laps run, and reads then see the old value (the model's choice, notes/assumptions 79); while laps
are halted they take effect at once, but for TRACE_CTRL's. -/
def Obligations.LapRegisterCommands : Prop :=
  (∀ (s : State) (rq : Rq) (role : Role) (k : Fin 8) (i : Fin 64) (v : W64),
      let w (c : Instr) (r : RegName) (ix : List Nat) (f : State → State) := Reaches s rq role (r.addr ix) → Writes c s rq r ix f
      let busy (c : Instr) (r : RegName) (ix : List Nat) := Reaches s rq role (r.addr ix) → RefusesWrite c s rq r ix .bankNotOwned
      let pending := s.flag F.LOAD_STAT.ACT_PENDING
      (s.lapsRun = true →
        w (.stop rq) .LAP_CTRL [] (fun g => { g with fab := { g.fab with stopAsked := true } }) ∧
        w (.clrTorn rq) .LAP_CTRL [] id ∧
        busy (.lapCount rq v) .LAP_COUNT [] ∧ busy (.lapPos rq v) .LAP_POS [] ∧
        busy (.lapKind rq k v) .LAP_KIND [k.val] ∧ busy (.lapSched rq i v) .LAP_SCHED [i.val]) ∧
      (s.lapsRun = false →
        w (.stop rq) .LAP_CTRL [] id ∧
        w (.clrTorn rq) .LAP_CTRL [] (fun g => { g with ref := { g.ref with torn := false } }) ∧
        w (.lapCount rq v) .LAP_COUNT [] (fun g => (g.setReg .LAP_COUNT [] v).activationByCount) ∧
        w (.lapPos rq v) .LAP_POS [] (fun g => g.put F.SCHED_STAT.POS (bitsOf v F.LAP_POS.POS.hi F.LAP_POS.POS.lo)) ∧
        w (.lapKind rq k v) .LAP_KIND [k.val] (fun g => g.store .LAP_KIND [k.val] .full v) ∧
        w (.lapSched rq i v) .LAP_SCHED [i.val] (fun g => g.store .LAP_SCHED [i.val] .full v)) ∧
      s.activationByCount.lapCount = s.lapCount ∧ (pending = false → s.activationByCount = s) ∧
      ((∃ i : Fin 64, i.val < s.pos ∧ s.flag F.LAP_SCHED.LAST [i] = true) → s.mayStart = false) ∧
      (pending = false → w (.actAt rq v) .ACT_AT [] fun g => g.store .ACT_AT [] .full v) ∧
      (pending = true → busy (.actAt rq v) .ACT_AT []) ∧
      w (.loadCtrlDiscard rq) .LOAD_CTRL [] fun g =>
        let u := g.setReg .LOAD_CTRL [] (g.reg .LOAD_CTRL)
        if pending = true then u
        else { u with persona := { u.persona with staged := [], stagedSetup := none } }.put F.LOAD_STAT.STAGED 0) ∧
    ∀ (s : State) (rq : Rq) (role : Role) (i : Fin 16) (j : Fin 4) (b : Fin 8) (t : Tower) (v : W64),
      let w (c : Instr) (r : RegName) (ix : List Nat) :=
        Reaches s rq role (r.addr ix) →
          (s.lapsRun = true ∨ r = .TRACE_CTRL → Writes c s rq r ix fun g =>
            { g with fab := { g.fab with boundaryWrites := g.fab.boundaryWrites ++ [(r.addr ix, 0, v)] } }) ∧
          (s.lapsRun = false → r = .BENCH → Writes c s rq r ix fun g => (g.applyWrite r ix .full v).traceBench) ∧
          (s.lapsRun = false → r ≠ .BENCH → r ≠ .TRACE_CTRL → Writes c s rq r ix fun g => g.applyWrite r ix .full v)
      (∀ n r, (n, r) ∈ [(0, RegName.TRIG_CTRL), (1, .TRIG_ADDR), (2, .TRIG_MASK), (3, .TRIG_VALUE)] → j.val = n →
        w (.trigCtrl rq i j v) r [i.val]) ∧
      w (.logCtrl rq v) .LOG_CTRL [] ∧
      (s.flag F.LOAD_STAT.UNBENCH_HELD = false → w (.bench rq b v) .BENCH [b.val]) ∧
      (role ≠ .operator → w (.traceCtrl rq t v) .TRACE_CTRL [t.val])

/-- Bank owners and error logs: an accepted change of BANK_OWNER is pending until the last access of the old owner, CLEAR empties
the error log, HANDOVER_COMPLETE ends the handover, and the write-back of a corrected word mends it, in the bank or in the stand-in
that serves it, and leaves every word's data and every other word's errors as they are. -/
def Obligations.BankCommands : Prop :=
  ∀ (s : State) (rq : Rq) (role : Role) (t : Tower) (b : Fin 256) (word : Fin 262144) (v : W64),
    let ix := [t.val, b.val]
    let kind := bitsOf v F.BANK_OWNER.KIND.hi F.BANK_OWNER.KIND.lo
    let eng := if kind = 1 then bitsOf v F.BANK_OWNER.ENGINE.hi F.BANK_OWNER.ENGINE.lo else 0
    let was := s.fld F.BANK_OWNER.KIND ix
    let c := Instr.bankOwner rq t b v
    let pending := s.flag F.BANK_OWNER.PENDING ix
    let changes := kind ≠ was ∨ eng ≠ s.fld F.BANK_OWNER.ENGINE ix
    let inUse := (was = 0 ∧ s.bankBound t.val b.val = true) ∨ (was = 2 ∧ s.bankPooled t.val b.val = true)
    (Reaches s rq role (RegName.BANK_OWNER.addr ix) →
      (pending = true ∨ (changes ∧ inUse) → RefusesWrite c s rq .BANK_OWNER ix .bankNotOwned) ∧
      (pending = false → ¬changes → Writes c s rq .BANK_OWNER ix id) ∧
      (pending = false → changes → ¬inUse → Writes c s rq .BANK_OWNER ix fun g =>
        ((g.put F.BANK_OWNER.KIND kind ix).put F.BANK_OWNER.ENGINE eng ix).put F.BANK_OWNER.PENDING 1 ix)) ∧
    (Reaches s rq role (RegName.ECC_CTRL.addr [t.val]) → Writes (.eccClear rq t) s rq .ECC_CTRL [t.val] fun g =>
      (((g.setReg .ECC_CTRL [t.val] (g.reg .ECC_CTRL [t.val])).put F.ECC_STAT.COUNT 0 [t.val]).put
        F.ECC_STAT.OVERRUN 0 [t.val]).put F.ECC_STAT.FROZEN 0 [t.val]) ∧
    exec (.handoverComplete t b) s = .next (s.put F.BANK_OWNER.PENDING 0 ix) ∧
    Completes id (.eccWriteBack t b word) s fun u =>
      let a := bankBase t.val b.val + 16 * word.val
      u.memSoftAt a = false ∧ (∀ x, x / 16 ≠ a / 16 → u.memSoftAt x = s.memSoftAt x) ∧
        (∀ x, u.memWordAt x = s.memWordAt x ∧ u.memBadAt x = s.memBadAt x) ∧
        u = { s with memSoft := u.memSoft, standinSoft := u.standinSoft, syndromes := u.syndromes }

/-- The doorbell page: a push through the window of a queue that the host produces, credit grants, and the ring indices, which
move forward only; an index write out of range is reported and ignored. -/
def Obligations.DoorbellCommands : Prop :=
  ∀ (s : State) (rq : Rq) (role : Role) (q : Qn) (item : Item) (v : W64),
    let w (c : Instr) (r : RegName) (f : State → State) := Reaches s rq role (r.addr [q.val]) → Writes c s rq r [q.val] f
    let window := doorbellBase + q.val * 0x1000
    let allowed := s.flag F.Q_BIND.CMD [q] = true → s.fld F.Q_BIND.ROLE [q] = roleCode role
    let used (pi ci : Nat) := (pi + 2 ^ 32 - ci) % 2 ^ 32
    let n := v.toNat % 2 ^ 32
    let pi := s.fld F.Q_RING_IDX.PI [q]
    let ci := s.fld F.Q_RING_IDX.CI [q]
    (∀ (m : Module) (x : Fin 16), rq.agent = .host m x → Reaches s rq role window → s.producer q = .host → allowed →
      (s.credits q ≠ 0 → exec (.push rq q item) s = .next (s.pushCell q item).finish) ∧
      (s.credits q = 0 → exec (.push rq q item) s =
        .next (s.errRecord none 2 .ok 16 q (BitVec.ofNat 64 window)).finish)) ∧
    (s.producer q = .host → w (.credit rq q v) .DB_CREDIT fun g => g.grant q (bitsOf v F.DB_CREDIT.CREDITS.hi F.DB_CREDIT.CREDITS.lo)) ∧
    (s.producer q ≠ .host → Reaches s rq role (RegName.DB_CREDIT.addr [q.val]) →
      RefusesWrite (.credit rq q v) s rq .DB_CREDIT [q.val] .bankNotOwned) ∧
    (w (.ringPi rq q v) .DB_RING_PI fun g =>
      if used pi ci ≤ used n ci ∧ used n ci ≤ 2 ^ s.fld F.Q_RING.ORDER [q] then g.put F.Q_RING_IDX.PI n [q]
      else g.errRecord none 4 .ok 17 q 0) ∧
    w (.ringCi rq q v) .DB_RING_CI fun g =>
      if used n ci ≤ used pi ci then g.put F.Q_RING_IDX.CI n [q] else g.errRecord none 4 .ok 17 q 0

/-- Binding a queue: refused while a flow or bridge holds it or where the value names ends a write may not name; a command queue is
bound by the installer alone, and that is recorded; a new producer finds no credits. -/
def Obligations.QueueBinding : Prop :=
  ∀ (s : State) (rq : Rq) (role : Role) (q : Qn) (v : W64), Reaches s rq role (RegName.Q_BIND.addr [q.val]) →
    let c := Instr.qBind rq q v
    let old := s.reg .Q_BIND [q]
    let new := mergeWrite .Q_BIND .full old v
    let effect (g : State) : State :=
      if prodOf old = prodOf new then g.setReg .Q_BIND [q] new else (g.setReg .Q_BIND [q] new).setCredits q 0
    let command := isCmd old = true ∨ isCmd new = true
    (s.qHeld q = true → role = .installer → RefusesWrite c s rq .Q_BIND [q] .bankNotOwned) ∧
      (s.qHeld q = false → role = .installer → endsBad new = true ∨ s.ninth q new = true →
        RefusesWrite c s rq .Q_BIND [q] .decodeError) ∧
      (s.qHeld q = false → endsBad new = false → s.ninth q new = false →
        (command → role = .installer → WritesRecorded c s rq .Q_BIND [q] effect) ∧
        (¬command → Writes c s rq .Q_BIND [q] effect)) ∧
      (role ≠ .installer → isCmd new = true ∨ (isCmd old = true ∧ new ≠ old) →
        exec c s = .next ((s.denied.answer rq false .roleDenied 0 0).finish))

/-- Q_CTRL: SKIP removes an uncorrectable head item, and for a flow's inbound queue its position goes on with it; RESET takes the
credits and the fault away at once, and Q_RESET_DONE then empties the queue. The pool bank table: a new bank belongs to the queue
manager; a bank in use is not exchanged, its entry is cleared only while the empty cells of the others cover every reservation, and an
entry that is cleared shows DRAINED once its bank holds no item. -/
def Obligations.QueueControlAndPool : Prop :=
  (∀ (s : State) (rq : Rq) (role : Role) (q : Qn),
    let poisoned := ∃ c, s.headCell q = some c ∧ c.poison = true
    let same (g : State) : State := g.setReg .Q_CTRL [q] (g.reg .Q_CTRL [q])
    let skips (f : State → State) := Writes (.skip rq q) s rq .Q_CTRL [q] f
    (Reaches s rq role (RegName.Q_CTRL.addr [q.val]) →
      (¬poisoned → skips same) ∧
      (poisoned → (∀ f, s.flowOfQueue q = some f → s.flowIn f ≠ some q.val) → skips fun g => (same g).popCell q) ∧
      (∀ f, poisoned → s.flowOfQueue q = some f → s.flowIn f = some q.val → skips fun g =>
        let u := (same g).popCell q
        (u.put F.FLOW_POS.IN ((s.fld F.FLOW_POS.IN [f] + 1) % 2 ^ 32) [f]).setDelivered f (u.delivered f - 1)) ∧
      ((∃ f, s.flowOfQueue q = some f ∧ s.flowBusy f = true) →
        RefusesWrite (.qCtrlReset rq q) s rq .Q_CTRL [q] .bankNotOwned) ∧
      ((∀ f, s.flowOfQueue q = some f → s.flowBusy f = false) → Writes (.qCtrlReset rq q) s rq .Q_CTRL [q] fun g =>
        (((same g).setCredits q 0).put F.Q_STAT.FAULTED 0 [q]).put F.Q_CTRL.RESET 1 [q])) ∧
    (s.flag F.Q_CTRL.RESET [q] = true → s.pd (pdNE 0) = 1 → Completes State.settle (.qResetDone q) s fun u =>
      u.flag F.Q_CTRL.RESET [q] = false ∧ u.items q = [] ∧ u.credits q = 0 ∧ u.fld F.Q_SEQ.HEAD [q] = 0 ∧
        u.fld F.Q_SEQ.TAIL [q] = 0 ∧ u.fld F.Q_RING_IDX.PI [q] = 0 ∧ u.fld F.Q_RING_IDX.CI [q] = 0 ∧
        Keeps s u [.Q_CTRL, .Q_STAT, .Q_SEQ, .Q_RING_IDX] ∧
        ∀ q' : Qn, q' ≠ q → u.items q' = s.items q' ∧ u.credits q' = s.credits q' ∧
          u.reg .Q_SEQ [q'] = s.reg .Q_SEQ [q'] ∧ u.reg .Q_CTRL [q'] = s.reg .Q_CTRL [q']) ∧
    (s.flag F.Q_CTRL.RESET [q] = false → exec (.qResetDone q) s = .next s)) ∧
  ∀ (s : State) (rq : Rq) (role : Role) (i : Fin 64) (v : W64), Reaches s rq role (RegName.POOL_BANK.addr [i.val]) →
    let c := Instr.poolBank rq i v
    let ix := [i.val]
    let new := mergeWrite .POOL_BANK .full (s.reg .POOL_BANK ix) v
    let en := bitsOf v F.POOL_BANK.EN.hi F.POOL_BANK.EN.lo = 1
    let bank := bitsOf v F.POOL_BANK.BANK.hi F.POOL_BANK.BANK.lo
    let refused := RefusesWrite c s rq .POOL_BANK ix .bankNotOwned
    (s.poolEn i = true → bank ≠ s.poolBankNo i → refused) ∧
      (s.poolEn i = true → ¬en → s.emptyWithout i < s.poolReserved → refused) ∧
      (s.poolEn i = true → bank = s.poolBankNo i → en ∨ s.poolReserved ≤ s.emptyWithout i →
        Writes c s rq .POOL_BANK ix fun g => (g.setReg .POOL_BANK ix new).put F.POOL_BANK.DRAINED (if en then 0 else 1) ix) ∧
      (s.poolEn i = false → en → s.fld F.BANK_OWNER.KIND [bank / 256, bank % 256] ≠ 2 → refused) ∧
      (s.poolEn i = false → (en → s.fld F.BANK_OWNER.KIND [bank / 256, bank % 256] = 2) →
        Writes c s rq .POOL_BANK ix fun g => if s.reg .POOL_BANK ix = new then g
          else (g.setReg .POOL_BANK ix new).put F.POOL_BANK.DRAINED
            (if ¬en ∧ s.flag F.POOL_BANK.DRAINED ix = true ∧ bank = s.poolBankNo i then 1 else 0) ix) ∧
      s.poolDrained i = (s.flag F.POOL_BANK.DRAINED ix && (s.cellsUsed (s.poolBankNo i)).isEmpty)

/-- Flows: FLOW_QUEUES takes writes while the flow is not valid; FLOW_BIND makes a flow valid (both ends of its queues become
FABRIC), in a valid flow changes WDOG_EN alone, and is refused for tiles in use while laps run; FLOW_POS positions both queues. -/
def Obligations.FlowCommands : Prop :=
  ∀ (s : State) (rq : Rq) (role : Role) (f : Flow) (v : W64),
    let reaches (r : RegName) := Reaches s rq role (r.addr [f.val])
    let old := s.reg .FLOW_BIND [f]
    let new := mergeWrite .FLOW_BIND .full old v
    let valid := bitsOf v F.FLOW_BIND.VALID.hi F.FLOW_BIND.VALID.lo = 1
    let tile := tileNo (fieldIn F.FLOW_BIND.DIE new) (fieldIn F.FLOW_BIND.ROW new) (fieldIn F.FLOW_BIND.COL new)
    let binds (g : State → State) := Writes (.flowBind rq f v) s rq .FLOW_BIND [f] g
    let refused := RefusesWrite (.flowBind rq f v) s rq .FLOW_BIND [f] .bankNotOwned
    let moves := s.lapsRun = true ∧ s.tileInUse tile = true
    (reaches .FLOW_QUEUES →
      (s.flowValid f = true → RefusesWrite (.flowQueues rq f v) s rq .FLOW_QUEUES [f] .bankNotOwned) ∧
      (s.flowValid f = false → Writes (.flowQueues rq f v) s rq .FLOW_QUEUES [f] fun g => g.store .FLOW_QUEUES [f] .full v)) ∧
    (reaches .FLOW_BIND →
      (s.flowBusy f = true ∨ (valid ∧ moves) → refused) ∧
      (s.flowBusy f = false → ¬(valid ∧ moves) →
        (s.flowValid f = true → valid → setBits old 3 3 0 = setBits new 3 3 0 → binds fun g => g.setReg .FLOW_BIND [f] new) ∧
        (s.flowValid f = true → valid → setBits old 3 3 0 ≠ setBits new 3 3 0 → refused) ∧
        (s.flowValid f = true → ¬valid → binds fun g => g.unbindFlow f new) ∧
        (s.flowValid f = false → valid → s.mayBindFlow f new = true → binds fun g => g.bindFlow f new) ∧
        (s.flowValid f = false → valid → s.mayBindFlow f new = false → refused) ∧
        (s.flowValid f = false → ¬valid → binds fun g => g.setReg .FLOW_BIND [f] new))) ∧
    (reaches .FLOW_POS →
      (s.flowBusy f = true → RefusesWrite (.flowPos rq f v) s rq .FLOW_POS [f] .bankNotOwned) ∧
      (s.flowBusy f = false → Writes (.flowPos rq f v) s rq .FLOW_POS [f] fun g =>
        let u := g.store .FLOW_POS [f] .full v
        let input := match s.flowIn f with
          | some q => (u.setCredits q 0).emptyQueue q (bitsOf v F.FLOW_POS.IN.hi F.FLOW_POS.IN.lo)
          | none => u
        match s.flowOut f with
        | some q => input.emptyQueue q (bitsOf v F.FLOW_POS.OUT.hi F.FLOW_POS.OUT.lo)
        | none => input))

/-- The region table and the event ring: an enabled region can only be disabled, one that may not be enabled is refused, enabling a
vault region binds it, and the limit of an enabled region is not written; the event ring's CI moves forward as far as PI. -/
def Obligations.HostRegionCommands : Prop :=
  ∀ (s : State) (rq : Rq) (role : Role) (n : Fin 64) (v : W64),
    let ix := [n.val]
    let old := s.reg .HR_BASE ix
    let new := mergeWrite .HR_BASE .full old v
    let bit (f : Fld) := v.getLsbD f.lo
    let w (f : State → State) := WritesRecorded (.hrBase rq n v) s rq .HR_BASE ix f
    let no (x : Resp) := RefusesWrite (.hrBase rq n v) s rq .HR_BASE ix x
    let used (ci : Nat) := (s.fld F.HC_EVRING_IDX.PI + 2 ^ 32 - ci) % 2 ^ 32
    let ci := v.toNat % 2 ^ 32
    (Reaches s rq .installer (RegName.HR_BASE.addr ix) →
      (s.regionEn n = true →
        (new = old ∨ new = old &&& ~~~1 → w fun g => g.setReg .HR_BASE ix new) ∧
        (new ≠ old → new ≠ old &&& ~~~1 → no .bankNotOwned)) ∧
      (s.regionEn n = false →
        (bit F.HR_BASE.EN = false → w fun g => g.setReg .HR_BASE ix new) ∧
        (bit F.HR_BASE.EN = true → s.mayEnable n new = false → no .decodeError) ∧
        (bit F.HR_BASE.EN = true → s.mayEnable n new = true →
          (bit F.HR_BASE.VAULT = false → w fun g => g.setReg .HR_BASE ix new) ∧
          (bit F.HR_BASE.VAULT = true → w fun g => (g.setReg .HR_BASE ix new).bindVault n)))) ∧
    (Reaches s rq .installer (RegName.HR_LIMIT.addr ix) →
      (s.regionEn n = true → RefusesWrite (.hrLimit rq n v) s rq .HR_LIMIT ix .bankNotOwned) ∧
      (s.regionEn n = false → WritesRecorded (.hrLimit rq n v) s rq .HR_LIMIT ix fun g => g.store .HR_LIMIT ix .full v)) ∧
    (Reaches s rq role (RegName.HC_EVRING_IDX.addr []) → Writes (.evringCi rq v) s rq .HC_EVRING_IDX [] fun g =>
      if used ci ≤ used (s.fld F.HC_EVRING_IDX.CI) then g.put F.HC_EVRING_IDX.CI ci else g)

/-- Vault regions: VR_CFG takes a size of 2^20 to 2^38 bytes and, once the region is initialised, no change; INIT starts
initialisation where the region is not enabled; REINIT acts on the seals, and as INIT on a region sealed whole; the two completions. -/
def Obligations.VaultRegionCommands : Prop :=
  ∀ (s : State) (rq : Rq) (n : Fin 64) (v : W64),
    let ix := [n.val]
    let old := s.reg .VR_CFG ix
    let new := mergeWrite .VR_CFG .full old v
    let size (x : W64) := bitsOf x F.VR_CFG.SIZE.hi F.VR_CFG.SIZE.lo
    let fits (x : W64) : Prop := 20 ≤ size x ∧ size x ≤ 38
    let state := s.fld F.VR_STAT.STATE ix
    let c := Instr.vrCfg rq n v
    let same (g : State) : State := g.setReg .VR_CFG ix old
    let begins (g : State) : State :=
      if s.regionEn n = true ∨ state = 1 then g else (g.put F.VR_STAT.STATE 1 ix).put F.VR_CFG.INIT 1 ix
    let mark := s.fld F.VR_STAT.HWM ix + 1
    (Reaches s rq .installer (RegName.VR_CFG.addr ix) →
      (¬fits new → RefusesWrite c s rq .VR_CFG ix .decodeError) ∧
      (fits new → state ≠ 0 → new ≠ old → RefusesWrite c s rq .VR_CFG ix .bankNotOwned) ∧
      (fits new → state = 0 ∨ new = old → v.getLsbD F.VR_CFG.INIT.lo = false → v.getLsbD F.VR_CFG.REINIT.lo = false →
        WritesRecorded c s rq .VR_CFG ix fun g => g.setReg .VR_CFG ix new) ∧
      (fits old → WritesRecorded (.init rq n) s rq .VR_CFG ix fun g => begins (same g)) ∧
      (fits old →
        (state = 3 → WritesRecorded (.reinit rq n) s rq .VR_CFG ix fun g => begins (same g)) ∧
        (state = 2 → s.sealsOf n ≠ [] → WritesRecorded (.reinit rq n) s rq .VR_CFG ix fun g =>
          ((same g).put F.VR_STAT.STATE 4 ix).put F.VR_CFG.REINIT 1 ix) ∧
        (state ≠ 3 → ¬(state = 2 ∧ s.sealsOf n ≠ []) → WritesRecorded (.reinit rq n) s rq .VR_CFG ix same))) ∧
    (state ≠ 1 → exec (.vaultInitDone n) s = .next s) ∧
    (state = 1 → Completes id (.vaultInitDone n) s fun u =>
      u.fld F.VR_STAT.STATE ix = 2 ∧ u.fld F.VR_STAT.HWM ix = mark % 2 ^ 56 ∧ u.flag F.VR_CFG.INIT ix = false ∧
        u.flag F.VR_CFG.REINIT ix = false ∧ Sparse.read u.vault.baseCounter n = BitVec.ofNat 64 mark ∧ u.sealsOf n = [] ∧
        (∀ r ∈ u.vault.rebased, r.1 ≠ n.val) ∧ u.firstLine n = none ∧ (∀ x ∈ u.vault.cache, x.1 ≠ n.val) ∧
        Sparse.get (fun _ => 0) u.vault.draws n = s.free + 1 ∧ u.free = s.free + 8 ∧ u.hostmem = s.hostmem ∧
        Keeps s u [.VR_STAT, .VR_CFG, .SEAL]) ∧
    ∀ (j : Fin 32) (k : Fin 64), s.fld F.SEAL.REGION [j.val] = k →
      (s.flag F.SEAL.VALID [j.val] = false ∨ s.fld F.VR_STAT.STATE [k.val] ≠ 4 → exec (.reinitDone j) s = .next s) ∧
      (s.flag F.SEAL.VALID [j.val] = true → s.fld F.VR_STAT.STATE [k.val] = 4 →
        let level := s.fld F.SEAL.LEVEL [j.val]
        let node := s.fld F.SEAL.NODE [j.val]
        Completes id (.reinitDone j) s fun u =>
          u.flag F.SEAL.VALID [j.val] = false ∧ u.sealsOf k = (s.sealsOf k).filter (· != j.val) ∧
            (s.vault.cache.length + s.topLevel k ≤ cacheNodes → s.version k level node ≤ s.fld F.VR_STAT.HWM [k.val] →
              s.fld F.VR_STAT.HWM [k.val] + 1 < 2 ^ 56 →
              u.fld F.VR_STAT.HWM [k.val] = s.fld F.VR_STAT.HWM [k.val] + 1 ∧ u.version k level node = s.version k level node + 1 ∧
                ∀ i, i / 8 ^ level = node → 0 < level → u.initCounter k i = s.fld F.VR_STAT.HWM [k.val] + 1) ∧
            u.fld F.VR_STAT.STATE [k.val] = (if u.sealsOf k = [] then 2 else 4) ∧
            (∀ p ∈ u.vault.data, p ∈ s.vault.data ∧ s.nodeCovers k level node (p.1 / 4) = false) ∧
            (∀ p ∈ s.vault.data, s.nodeCovers k level node (p.1 / 4) = false → p ∈ u.vault.data) ∧
            Keeps s u [.VR_STAT, .VR_CFG, .SEAL])

/-- Relay port registers under the installer's role, recorded: EN starts acquisition or takes the port DOWN, FAR_LOOP takes it out
of service, but not with the XTALA reference, RETIRE and CLR_FAIL act on a lane, NEAR_LOOP is refused while the lane is in either map,
LANE_EQ while ADAPT holds it. -/
def Obligations.RelayPortRegisters : Prop :=
  ∀ (s : State) (rq : Rq) (p : Port) (i : Lane) (v : W64),
    let px := portIx p
    let lx := laneIx p i
    let port (c : Instr) (f : State → State) := Reaches s rq .installer (RegName.PORT_CTRL.addr px) →
      WritesRecorded c s rq .PORT_CTRL px f
    let lane (c : Instr) (f : State → State) := Reaches s rq .installer (RegName.LANE_CTRL.addr lx) →
      WritesRecorded c s rq .LANE_CTRL lx fun g => (f g).portMirror p
    let sets (f : Fld) (n : Nat) (g : State) : State := g.put f n px
    let same (g : State) : State := g.lanesChange p [i.val] fun g => g.setReg .LANE_CTRL lx (g.reg .LANE_CTRL lx)
    let far := s.flag F.PORT_CTRL.FAR_LOOP px
    let loop := far && !s.ref.straps.ref
    let near := s.flag F.LANE_CTRL.NEAR_LOOP lx
    (loop = true ∨ s.portEn p = true → port (.portEnable rq p) (sets F.PORT_CTRL.EN 1)) ∧
      (loop = false → s.portEn p = false → port (.portEnable rq p) fun g => (sets F.PORT_CTRL.EN 1 g).acquire p) ∧
      (loop = true ∨ s.portEn p = false → port (.portDisable rq p) (sets F.PORT_CTRL.EN 0)) ∧
      (loop = false → s.portEn p = true → port (.portDisable rq p) fun g => (sets F.PORT_CTRL.EN 0 g).portDown p) ∧
      (far = true ∨ s.ref.straps.ref = true → port (.farLoop rq p) (sets F.PORT_CTRL.FAR_LOOP 1)) ∧
      (far = false → s.ref.straps.ref = false → port (.farLoop rq p) fun g =>
        ((((sets F.PORT_CTRL.FAR_LOOP 1 g).leaveUp p).setPortState p 5).setLanes p 6).portMirror p) ∧
      lane (.retire rq p i) (fun g => (same g).failLane p i 2) ∧
      lane (.clrFail rq p i) (fun g => (same g).clearFail p i) ∧
      (s.fld F.LANE_CTRL.RETIRE lx = 0 → s.fld F.LANE_CTRL.CLR_FAIL lx = 0 →
        (near = true → lane (.nearLoop rq p i) same) ∧
        (near = false → i.val ∉ s.rxMap p → i.val ∉ s.txMap p → lane (.nearLoop rq p i) fun g =>
          (g.lanesChange p [i.val] fun g => g.put F.LANE_CTRL.NEAR_LOOP 1 lx).setLane p i 5) ∧
        (near = false → i.val ∈ s.rxMap p ∨ i.val ∈ s.txMap p → Reaches s rq .installer (RegName.LANE_CTRL.addr lx) →
          RefusesWrite (.nearLoop rq p i) s rq .LANE_CTRL lx .bankNotOwned)) ∧
      (Reaches s rq .installer (RegName.LANE_EQ.addr lx) →
        (s.flag F.LANE_CTRL.ADAPT lx = true → RefusesWrite (.laneEq rq p i v) s rq .LANE_EQ lx .bankNotOwned) ∧
        (s.flag F.LANE_CTRL.ADAPT lx = false →
          WritesRecorded (.laneEq rq p i v) s rq .LANE_EQ lx fun g => g.store .LANE_EQ lx .full v))

/-- Chain and security registers under the installer's role, recorded: CHAIN_CFG and the bridges take writes while laps are halted,
ANCHOR needs its strap, DISCARD scratches an undecided lap, GO and REMOVE set BUSY, and the Referee then reports as RESULT the first
check that fails (when no command waits: the model's choice, notes/assumptions 50), and lab mode needs its strap. -/
def Obligations.ChainAndSecurityRegisters : Prop :=
  ∀ (s : State) (rq : Rq) (role : Role) (b : Fin 64) (v : W64),
    let reaches (r : RegName) (ix : List Nat) := Reaches s rq .installer (r.addr ix)
    let cfg := mergeWrite .CHAIN_CFG .full (s.reg .CHAIN_CFG) v
    let mode := bitsOf v F.CHAIN_CFG.MODE.hi F.CHAIN_CFG.MODE.lo
    let bx := [b.val]
    let old := s.reg .BRIDGE_CFG bx
    let new := mergeWrite .BRIDGE_CFG .full old v
    let closed (g : State) : State := (if s.bridgeEn b then g.closeBridge b else g).put F.BRIDGE_CFG.EN 0 bx
    let en := v.getLsbD F.BRIDGE_CFG.EN.lo
    let free := (closed s).bridgeQualifies (bitsOf v 12 0) (v.getLsbD 14)
    let peer := bitsOf v F.BRIDGE_CFG.PEER_ID.hi F.BRIDGE_CFG.PEER_ID.lo
    let stranger := s.flag F.FWD.VALID [peer] && !s.enrolled (s.fld F.FWD.PORT [peer])
    let bridge (f : State → State) := WritesRecorded (.bridgeCfg rq b v) s rq .BRIDGE_CFG bx f
    let refused (x : Resp) := RefusesWrite (.bridgeCfg rq b v) s rq .BRIDGE_CFG bx x
    let kind := bitsOf v F.ENROL_CTRL.KIND.hi F.ENROL_CTRL.KIND.lo
    let i := bitsOf v F.ENROL_CTRL.INDEX.hi F.ENROL_CTRL.INDEX.lo
    let enrols (c : Instr) (f : State → State) := WritesRecorded c s rq .ENROL_CTRL [] f
    let job (remove : Bool) : EnrolJob :=
      ⟨remove, s.sessionOf rq, roleCode .installer, kind, i, bitsOf v F.ENROL_CTRL.PORTS.hi F.ENROL_CTRL.PORTS.lo⟩
    let starts (f : Fld) (remove : Bool) (g : State) : State :=
      let w := (v &&& ~~~3) ||| (if remove then 2 else 1)
      { ((g.store .ENROL_CTRL [] .full w).put f 1).put F.ENROL_CTRL.BUSY 1 with ref := { g.ref with enrolDue := some (job remove) } }
    let busy := s.flag F.ENROL_CTRL.BUSY
    let ends (j : EnrolJob) (n : Nat) (f : State → State) := s.pending = [] → s.ref.enrolDue = some j →
      step s = .next ((((((f { s with ref := { s.ref with enrolDue := none } }).put F.ENROL_CTRL.RESULT n).put F.ENROL_CTRL.BUSY 0).put
        F.ENROL_CTRL.GO 0).put F.ENROL_CTRL.REMOVE 0).settleV)
    (reaches .CHAIN_CFG [] →
      (s.lapsRun = true → RefusesWrite (.chainCfg rq v) s rq .CHAIN_CFG [] .bankNotOwned) ∧
      (s.lapsRun = false → mode = 1 → s.ref.straps.anchor = false →
        RefusesWrite (.chainCfg rq v) s rq .CHAIN_CFG [] .decodeError) ∧
      (s.lapsRun = false → mode ≠ 1 ∨ s.ref.straps.anchor = true →
        WritesRecorded (.chainCfg rq v) s rq .CHAIN_CFG [] fun g => g.setReg .CHAIN_CFG [] cfg)) ∧
    (reaches .BRIDGE_CFG bx →
      (s.lapsRun = true → refused .bankNotOwned) ∧
      (s.lapsRun = false → new = old → bridge id) ∧
      (s.lapsRun = false → new ≠ old →
        (en = false → bridge fun g => (closed g).setReg .BRIDGE_CFG bx new) ∧
        (en = true → free = false → refused .bankNotOwned) ∧
        (en = true → free = true → stranger = true → refused .unenrolled) ∧
        (en = true → free = true → stranger = false →
          bridge fun g => ((closed g).setReg .BRIDGE_CFG bx new).pumpBridges))) ∧
    (Reaches s rq role (RegName.CHAIN_CTRL.addr []) → WritesRecorded (.chainCtrlDiscard rq) s rq .CHAIN_CTRL [] fun g =>
      if s.fab.phase = .undecided then ((g.noteScratch 0 none).discardLap).haltLaps 6 else g) ∧
    (reaches .ENROL_CTRL [] →
      (busy = true → enrols (.enrolGo rq v) id ∧ enrols (.enrolRemove rq v) id) ∧
      (busy = false → kindSlots kind ≤ i →
        enrols (.enrolGo rq v) (fun g => g.put F.ENROL_CTRL.RESULT 7) ∧ enrols (.enrolRemove rq v) (fun g => g.put F.ENROL_CTRL.RESULT 7)) ∧
      (busy = false → i < kindSlots kind →
        enrols (.enrolGo rq v) (starts F.ENROL_CTRL.GO false) ∧ enrols (.enrolRemove rq v) (starts F.ENROL_CTRL.REMOVE true))) ∧
    (∀ j : EnrolJob,
      let check := s.enrolCheck j.kind j.index
      let last := s.lastInstaller j.kind j.index
      (j.remove = false → check ≠ 0 → ends j check id) ∧ (j.remove = false → check = 0 → ends j 0 fun g => g.enrol j) ∧
        (j.remove = true → last = true → ends j 6 id) ∧ (j.remove = true → last = false → ends j 0 fun g => g.unenrolSlot j)) ∧
    (reaches .SEC_CTRL [] →
      (s.ref.straps.lab = false → exec (.labEn rq) s = .next (s.denied.answer rq false .roleDenied 0 0).finish) ∧
      (s.ref.straps.lab = true → WritesRecorded (.labEn rq) s rq .SEC_CTRL [] fun g =>
        let u := g.put F.SEC_CTRL.LAB_EN 1
        if s.labMode = true then u else u.recordKey (s.sessionOf rq) (roleCode .installer) 0x300 0))

/-- Clock domains and gates: a write to a loop's register is refused while a switch runs or for the loop in use, a switch goes only to
a READY source, a failed loop in use goes to FIO or stops its domain with NMI_CLOCK to every engine, and gates close when idle. -/
def Obligations.ClockCommands : Prop :=
  ∀ (s : State) (rq : Rq) (d : ClkDom) (v : W64) (sel : BitVec 2) (t : Tower) (b : Fin 11) (n : Fin 6) (count : BitVec 16),
    let r := (clkCfgReg d).1
    let ix := (clkCfgReg d).2
    let was := s.clkFld d F.CLKDOM_CFG.SEL
    let run (c : Instr) (w : W64) : Prop :=
      let new := mergeWrite r .full (s.reg r ix) w
      let changed := loopChanged (s.reg r ix) new = true
      let goal := bitsOf new 29 28
      let unlock (u : State) : State :=
        if changed then (u.clkPut d F.CLKDOM_STAT.LOCKED 0).clkPut d F.CLKDOM_STAT.READY 0 else u
      let switch (u : State) : State :=
        if goal = was then u
        else if u.sourceReady d goal = true then (u.clkPut d F.CLKDOM_CFG.SEL goal).clkPut d F.CLKDOM_STAT.SWITCHING 1
        else u.clkPut d F.CLKDOM_STAT.REFUSED 1
      let busy := (goal ≠ was ∧ s.clkFlag d F.CLKDOM_STAT.SWITCHING = true) ∨ (changed ∧ was = 0)
      (busy → RefusesWrite c s rq r ix .bankNotOwned) ∧
        (¬busy → WritesRecorded c s rq r ix fun g => switch (unlock (g.setReg r ix (setBits new 29 28 was))))
    let gx := [t.val, b.val]
    let loop := ClkDom.dom t n
    let monitored := s.clkFlag loop F.CLKDOM_CFG.LOOP_EN = true ∧ s.loopOn loop = true
    let ok := windowOk (.domLoop t n) count.toNat
    let window := Completes State.settleV (.monitorWindow (.domLoop t n) count) s
    (Reaches s rq .installer (r.addr ix) →
      run (.loopProgram rq d v) v ∧ run (.clockSwitch rq d sel) (setBits (s.reg r ix) 29 28 sel.toNat)) ∧
    (Reaches s rq .installer (RegName.CLKGATE_MODE.addr []) →
      WritesRecorded (.clkgateMode rq v) s rq .CLKGATE_MODE [] fun g =>
        let u : State := { g with ref := { g.ref with clkAuto := v.getLsbD 0 } }
        if s.flag F.CLKGATE_MODE.FORCED = true then u else (u.put F.CLKGATE_MODE.AUTO (b2n (v.getLsbD 0))).followGates) ∧
    (s.clkFlag d F.CLKDOM_STAT.SWITCHING = true → Completes id (.clockSwitchComplete d) s fun u =>
      u.clkFlag d F.CLKDOM_STAT.SWITCHING = false ∧ u.clkFlag d F.CLKDOM_STAT.STOPPED = false ∧
        u.clkFld d F.CLKDOM_STAT.ON_FIO = (if was = 1 then s.clkFld d F.CLKDOM_STAT.ON_FIO else 0) ∧
        u.clkCfg d = s.clkCfg d ∧ Keeps s u [(clkStatReg d).1]) ∧
    (s.clkFlag d F.CLKDOM_STAT.SWITCHING = false → exec (.clockSwitchComplete d) s = .next s) ∧
    (s.clkFlag d F.CLKDOM_CFG.LOOP_EN = true → s.loopOn d = true → s.ref.xtalaFailed = false →
      exec (.loopLocked d) s = .next (s.clkPut d F.CLKDOM_STAT.LOCKED 1)) ∧
    (s.clkFlag d F.CLKDOM_STAT.LOCKED = true →
      let u := s.clkPut d F.CLKDOM_STAT.READY 1
      exec (.loopReady d) s = .next
        (if s.flag F.CLKGATE_MODE.FORCED = true ∧ was = 1 ∧ s.clkFlag d F.CLKDOM_STAT.ON_FIO = false then
          u.clkPut d F.CLKDOM_CFG.SEL 0 else u)) ∧
    (¬monitored → exec (.monitorWindow (.domLoop t n) count) s = .next s.settleV) ∧
    (monitored → ok = true → exec (.monitorWindow (.domLoop t n) count) s =
      .next (s.clkPut loop F.CLKDOM_STAT.COUNT count.toNat).settleV) ∧
    (monitored → ok = false → window fun u =>
      u.clkFld loop F.CLKDOM_STAT.COUNT = count.toNat ∧ u.clkFlag loop F.CLKDOM_STAT.FAILED = true ∧
        u.clkFlag loop F.CLKDOM_STAT.READY = false ∧ u.clkFlag loop F.CLKDOM_STAT.LOCKED = false ∧
        (s.clkFld loop F.CLKDOM_CFG.SEL = 0 → u.clkFld loop F.CLKDOM_CFG.SEL = 1 ∧
          u.clkFlag loop F.CLKDOM_STAT.SWITCHING = false ∧ (∀ e, (u.eng e).nmiClock = true) ∧
          (s.fioFailed t = true → u.clkFlag loop F.CLKDOM_STAT.STOPPED = true) ∧
          (s.fioFailed t = false → u.clkFlag loop F.CLKDOM_STAT.ON_FIO = true))) ∧
    (s.clkFlag d F.CLKDOM_STAT.STOPPED = true → s.inTowerReset (clkTower d) = false →
      exec (.domainStoppedTimeout d) s = .next
        (((s.clkPut d F.CLKDOM_STAT.STOPPED 0).recordReset 2 (clkTower d)).towerReset (Fin.ofNat 4 (clkTower d))).settleV) ∧
    (s.flag F.GATE.OPEN gx = true → s.gateAuto = true ∨ s.flag F.GATE.CLOSING gx = true →
      exec (.gateClose t b) s = .next ((s.put F.GATE.OPEN 0 gx).put F.GATE.CLOSING 0 gx)) ∧
    (s.flag F.GATE.CLOSING gx = true → GivesThen State.settle (.gateTimeout t b) s
      ((s.put F.GATE.CLOSING 0 gx).put F.GATE.GATE_TIMEOUT 1 gx))

/-- Requests to a domain under any role: a write of PD_CTRL with WAKE_ON_ACCESS as it is makes the request and is recorded; what a
request does (start a sequence, end at once, or wait latched), and the completion of a sequence. -/
def Obligations.PowerRequests : Prop :=
  ∀ (s : State) (rq : Rq) (role : Role) (d : Pd) (target : Nat),
    let ix := [d.val]
    let asks (c : Instr) (n : Nat) := Reaches s rq role (RegName.PD_CTRL.addr ix) → WritesRecorded c s rq .PD_CTRL ix fun g =>
      (g.put F.PD_CTRL.WAKE_ON_ACCESS (s.fld F.PD_CTRL.WAKE_ON_ACCESS ix) ix).pdRequest d n
    let t := fitTarget d target
    let u := s.pdRequest d target
    let takes := pdFixed d = false ∧ (s.bankvBad d = true ∨ s.layerOff d = true → t = 0) ∧ s.noStack d = false
    asks (.pdReqRun rq d) 1 ∧ asks (.pdReqSleep rq d) 2 ∧ asks (.pdReqDeep rq d) 3 ∧ asks (.pdReqOff rq d) 0 ∧
      (pdFixed d = true → u = s) ∧
      (target ≤ 3 → takes → s.pdBusy d = false → t ≠ s.pd d →
        u.pd d = s.pd d ∧ u.pdBusy d = true ∧ u.pdTarget d = t ∧ u.latchValid d = false ∧ Keeps s u [.PD_STAT]) ∧
      (target ≤ 3 → takes → s.pdBusy d = false → t = s.pd d → OnlyEvents s u) ∧
      (target ≤ 3 → takes → s.pdBusy d = true → t ≠ s.pdTarget d →
        u.pd d = s.pd d ∧ u.pdBusy d = true ∧ u.pdTarget d = s.pdTarget d ∧ u.latchValid d = true ∧ u.latched d = t) ∧
      (s.pdBusy d = true → s.sequenceWaits d = false →
        let now := s.pdTarget d
        let latch := if s.latchValid d = true then some (s.latched d) else none
        let settled := ((s.count F.PD_STAT.SEQUENCES ix).lowerFences d).setPd d now now false none
        let ends := match latch with
          | some l => settled.startSequence d l
          | none => settled
        exec (.sequenceComplete d) s =
          .next ((((ends.stateEffects d (s.pd d) now).pwrDone d).afterRun d).checkReady).finish) ∧
      (s.pdBusy d = false ∨ s.sequenceWaits d = true → exec (.sequenceComplete d) s = .next s)

/-- Power events: start-up in order, a rail's undervoltage, VIN out of range and restored, TSHUT, the caps and the levels. -/
def Obligations.PowerEvents : Prop :=
  ∀ (s : State) (d : Pd) (t : Tower) (pin vin iin : BitVec 16) (held ilim : Bool) (readings : List (BitVec 16)),
    let starts (k : Nat) (rest : List Nat) : State :=
      let a : State := { s with ref := { s.ref with bringUp := rest } }
      let b : State := if k < 8 then a else a.setStack ((k - 8) / 14) true
      let latch := if s.latchValid k = true ∧ s.latched k ≠ 1 then some (s.latched k) else none
      if s.pd k = 1 ∨ s.bankvBad k = true ∨ s.layerOff k = true then b else b.setPd k (s.pd k) 1 true latch
    let vinOut (code : Nat) : State :=
      let u := (s.recordPower 0 code).removeStacks
      { u with ref := { u.ref with vinRemoved := true } }
    let hotOut : State :=
      let u := (s.recordPower 0 6 true).removeStacks
      ({ u with ref := { u.ref with powerLock := true } } : State).losePersona.put F.PKG_THERM.SHUTDOWN 1
    let inRange : State := { s with ref := { s.ref with vinRemoved := false } }
    let cap := s.fld F.PKG_CAP.EFFECTIVE
    let p := pin.toNat
    let l := s.plevel
    let limit : Int := 16 * (s.fld F.PKG_THRESH.TTHROTTLE : Int)
    let hot := s.towerMax t
    let tl := s.tlevel t
    let level := if limit ≤ hot then min 14 (tl + 1) else if hot ≤ limit - 80 then tl - 1 else tl
    let fed : State := s.put F.PKG_INPUT.PIN p
    let eased : State := { fed with ref := { fed.ref with powerCapHalt := false } }
    let vcap := if vin.toNat < 10800 then vin.toNat * 245 * 92 / 100000 else 2600
    ((∀ k rest, s.ref.bringUp = k :: rest → s.mayBringUp k = false) → exec .domainStart s = .next s.checkReady.finish) ∧
      (∀ k rest, s.ref.bringUp = k :: rest → s.mayBringUp k = true →
        exec .domainStart s = .next (starts k rest).checkReady.finish) ∧
      (pdFixed d = false → s.pd d = 1 → exec (.railUndervoltage d) s =
        .next (((((s.recordPower d 1).lowerFences d).setPd d 0 0 false none).stateEffects d 1 0).settleV)) ∧
      (pdFixed d = true ∨ s.pd d ≠ 1 → exec (.railUndervoltage d) s = .next s) ∧
      exec .vinLow s = .next (vinOut 2).settleV ∧ exec .vinOvervoltage s = .next (vinOut 3).settleV ∧
      exec .tshut s = .next hotOut.settleV ∧ hotOut.persona_ = 0 ∧ s.removeStacks.ref.bringUp = [] ∧
      (s.removeStack t).ref.stackPower.getLsbD t = false ∧
      (s.ref.vinRemoved = true → s.ref.powerLock = false → exec .vinRestored s = .next inRange.startBringUp) ∧
      (s.ref.vinRemoved = true → s.ref.powerLock = true → exec .vinRestored s = .next inRange) ∧
      (s.ref.vinRemoved = false → exec .vinRestored s = .next s) ∧
      (readings.length = 384 → Completes State.settleV (.temperatureConversion readings) s fun u =>
        ∀ (x : Tower) (j : Fin 6) (i : Fin 16) w, readings[96 * x.val + 16 * j.val + i.val]? = some w →
          u.reg .TEMP [x.val, j.val, i.val] =
            BitVec.ofNat 64 (w.toNat + 65536 * b2n (s.sensorValid (96 * x.val + 16 * j.val + i.val) w))) ∧
      exec (.thermalLevelUpdate t) s = .next (s.setLevels t level l).throttleFlag ∧
      (cap < p → exec (.powerLevelUpdate pin held) s = .next (fed.setPlevel (min 14 (l + 1)))) ∧
      (p ≤ cap → held = true → 100 * p < 95 * cap → s.lapsRun = true →
        exec (.powerLevelUpdate pin held) s = .next (eased.setPlevel (l - 1))) ∧
      (p ≤ cap → held = false → exec (.powerLevelUpdate pin held) s = .next eased) ∧
      Completes id (.vinCapRecompute vin iin ilim) s (fun u =>
        u.fld F.PKG_INPUT.VIN = vin.toNat ∧ u.fld F.PKG_CAP.VIN_CAP = vcap ∧ u.flag F.PKG_CAP.ILIM = ilim ∧
          u.fld F.PKG_CAP.EFFECTIVE = (if s.fld F.PKG_CAP.CAP = 0 then vcap else min vcap (s.fld F.PKG_CAP.CAP)) ∧
          Keeps s u [.PKG_INPUT, .PKG_CAP]) ∧
      (l = 14 → cap < s.fld F.PKG_INPUT.PIN → exec .powerCapTimeout s =
        .next { s with ref := { s.ref with powerCapHalt := true } })

/-- Pins: owners change under the installer's role, a pin's own settings belong to its owner, GPIO writes reach the bits of pins that
the requester owns in GPIO function, DOUT is written while laps are halted, parks end, and pattern matches set armed units. -/
def Obligations.PinCommands : Prop :=
  ∀ (s : State) (rq : Rq) (role : Role) (p : Pin) (i : Fin 8) (k : Fin 16) (n : Fin 32) (pads : BitVec 512) (v : W64),
    let reaches (r : RegName) (ix : Nat) (role : Role) := Reaches s rq role (r.addr [ix])
    let px := [p.val]
    let own := mergeWrite .PIN_OWN .full (s.reg .PIN_OWN px) v
    let owns (f : State → State) := WritesRecorded (.pinOwn rq p v) s rq .PIN_OWN px f
    let toDesign := bitsOf own F.PIN_OWN.KIND.hi F.PIN_OWN.KIND.lo = 0
    let stuck := s.pinOwner p = 0 ∧ ¬toDesign ∧ s.mapHolds p = true
    let mapped : Nat := b2n (decide toDesign && s.persona_ != 1 && (pinEntry s.persona.pinActive p).getLsbD 63)
    let cfg := mergeWrite .PIN_CFG .full (s.reg .PIN_CFG px) v
    let c := Instr.pinCfg rq p v
    let design := s.pinOwner p = 0 ∧ role = .installer
    let m := v &&& s.gpioMask rq i
    let out (c : Instr) (r : RegName) (f : W64 → W64) := reaches r i role → Writes c s rq r [i.val] fun g =>
      g.setReg .GPIO_OUT [i.val] (f (s.reg .GPIO_OUT [i.val]))
    let now : State := { s with pads := pads }
    let live := s.bankLive (pmuBank n) = true
    let met := s.patternMatches n fun j => pads.getLsbD j
    let was := s.flag F.PMU_CTRL.MATCH [n.val]
    (reaches .PIN_OWN p .installer →
      (own = s.reg .PIN_OWN px → owns id) ∧ (stuck → RefusesWrite (.pinOwn rq p v) s rq .PIN_OWN px .bankNotOwned) ∧
      (own ≠ s.reg .PIN_OWN px → ¬stuck → owns fun g =>
        ((g.setReg .PIN_OWN px own).setPinFunc p mapped 0).checkConflicts)) ∧
    (reaches .PIN_CFG p role →
      (design → bitsOf v 10 9 = 3 → RefusesWrite c s rq .PIN_CFG px .decodeError) ∧
      (design → bitsOf v 10 9 ≠ 3 → WritesRecorded c s rq .PIN_CFG px fun g =>
        g.setReg .PIN_CFG px (setBits cfg 7 0 (s.pinSet p))) ∧
      (¬design → s.ownsPin rq p = true → pinCfgBad cfg = true → RefusesWrite c s rq .PIN_CFG px .decodeError) ∧
      (¬design → s.ownsPin rq p = true → pinCfgBad cfg = false → Writes c s rq .PIN_CFG px fun g =>
        let u := g.setReg .PIN_CFG px cfg
        if bitsOf cfg 7 0 = s.pinSet p then u else u.switchPin p) ∧
      (¬design → s.ownsPin rq p = false → RefusesWrite c s rq .PIN_CFG px .bankNotOwned)) ∧
    out (.gpioSet rq i v) .GPIO_SET (fun old => old ||| m) ∧ out (.gpioClr rq i v) .GPIO_CLR (fun old => old &&& ~~~m) ∧
    out (.gpioTgl rq i v) .GPIO_TGL (fun old => old ^^^ m) ∧
    (reaches .DOUT i role →
      (s.lapsRun = true → RefusesWrite (.dout rq i v) s rq .DOUT [i.val] .bankNotOwned) ∧
      (s.lapsRun = false → Writes (.dout rq i v) s rq .DOUT [i.val] fun g => (g.setReg .DOUT [i.val] v).rearmAll)) ∧
    (reaches .RU_CTRL k role → Writes (.forceRelease rq k) s rq .RU_CTRL [k.val] fun g =>
      (((g.setReg .RU_CTRL [k.val] (g.reg .RU_CTRL [k.val])).put F.RU_STAT.HELD 0 [k.val]).put F.RU_STAT.ARMED 0 [k.val]).rearm k) ∧
    (∀ x, s.parked.find? (fun y => y.1 == p.val) = some x → s.bankRuns (bankOfPin p) = true → Completes id (.parkEnd p) s fun u =>
      u.pinParked p = false ∧ Sparse.read u.pinNow p = x.2 ∧ u.flag F.PIN_CFG.PARKED px = false ∧ Keeps s u [.PIN_CFG] ∧
        ∀ q : Pin, q ≠ p → u.pinParked q = s.pinParked q ∧ u.reg .PIN_CFG [q.val] = s.reg .PIN_CFG [q.val]) ∧
    (live → met = true → was = false → Completes id (.patternMatch n pads) s fun u =>
      u.pads = pads ∧ u.flag F.PMU_CTRL.MATCH [n.val] = true ∧ u.flag F.PMU_STAT.HELD [n.val] = true ∧
        (∀ x : Fin 16, s.fld F.RU_CTRL.PMU [x.val] = n → s.flag F.RU_CTRL.EN [x.val] = true →
          s.flag F.RU_STAT.ARMED [x.val] = true → s.bankLive (ruBank x) = true → s.gsr = false →
          u.flag F.RU_STAT.HELD [x.val] = true) ∧ Keeps s u [.PMU_CTRL, .PMU_STAT, .RU_STAT]) ∧
    (¬live ∨ met = false ∨ was = true → exec (.patternMatch n pads) s = .next now) ∧
    (live → met = false → was = true → exec (.matchEnd n pads) s = .next (now.put F.PMU_CTRL.MATCH 0 [n.val]).rearmAll) ∧
    (¬live ∨ met = true ∨ was = false → exec (.matchEnd n pads) s = .next now) ∧
    exec .trigoutPulseEnd s = .next { s with trigPulse := false }

/-- In-service tests: words are copied to the stand-in and back in order, a copy-back's write at once or later, and never over a word
written since; a split begins where its block is ready, and its end gives the test's result or a repair, and replaces the wires that
have failed by then; sweeps begin and are tried again; a rotation whose pre-copy is complete waits for the boundary. -/
def Obligations.TestCommands : Prop :=
  ∀ (s : State) (t : Tower) (g : Fin 8) (w : Fin 262144) (slot : TestSlot) (r : TestRun) (n : Nat) (wires : List WireFault),
    let b := r.bank
    let serves := s.quadServes t b = true
    let a := bankBase t b + 16 * w.val
    let key := standinKey t b w
    let last := w.val = 262143
    let step : TestRun := { r with copied := w.val + 1 }
    let without (xs : List Nat) (x : Nat) := xs.filter (· ≠ x)
    let ends (c : SplitOutcome) (u : State) := exec (.splitEnd t slot c wires) s = .next (u.replaceWires t wires).settleV
    let copies (c : Instr) (x y : State) := exec c s = .next (if last then x else y).settle
    (s.groupTest t g = some r → r.tower = t → s.phaseOf r = 1 → r.copied = w → serves →
      (∀ q u, s.memRead a readerCopier = (some q, u) →
        let x : State := ({ u with
          standin := Sparse.write u.standin key q
          standinBad := without u.standinBad key
          standinSoft := without u.standinSoft key } : State).setTest step
        copies (.copyIn t g w) (x.setPhase r 2) x) ∧
      (∀ u, s.memRead a readerCopier = (none, u) →
        let x : State := ({ u with standinBad := listAdd u.standinBad key } : State).setTest step
        copies (.copyIn t g w) (x.setPhase r 2) x)) ∧
    (s.groupTest t g = some r → r.tower = t → s.phaseOf r = 3 → serves →
      (r.copied = w → s.copiesOf t b = [] → ∀ q u, s.memRead a readerCopier = (q, u) →
        let x := u.copierPut ⟨a, q, false⟩
        copies (.copyBack t g w .atOnce) ((x.setPhase r 0).finishTest step r.result) (x.setTest step) ∧
          ∀ cw, cw ≠ .atOnce → exec (.copyBack t g w cw) s =
            .next (({ u with copies := u.copies ++ [⟨a, q, cw == .meets⟩] } : State).setTest step).settle) ∧
      (r.copied = 262144 → last → ∀ writes, exec (.copyBack t g w writes) s =
        .next (((s.flushCopies t b).setPhase r 0).finishTest r r.result).settle)) ∧
    (∀ x q, (s.memStore x q).copies = s.copies.filter fun c => c.addr ≠ x) ∧
    (s.testIn t slot = some r → r.inSplit = false → s.testLive t = true → s.testWindow r.kind t = true → s.splitReady r = true →
      s.blockRuns r.kind (r.block.setWidth 64) = true →
      exec (.splitStart t slot true) s = .next (s.setTest { r with inSplit := true })) ∧
    (s.testIn t slot = some r → r.inSplit = true → s.testLive t = true →
      ends .budget (s.setTest { r with inSplit := false }) ∧ ends .window (s.abandonTest r 5) ∧
      (r.kind = 0 → ends (.last 0) (s.beginCopyBack r (if r.repairs = 0 then 1 else 2))) ∧
      (r.kind = 0 → n ≠ 0 → ends (.last n)
        (let u := s.repairColumns r.tower r.bank n
         let x : TestRun := { r with repairs := r.repairs + u.repairsSince r.tower (s.fld F.REPAIR_STAT.TOTAL [r.tower.val]), inSplit := false }
         if u.flag F.GROUP_CFG.PERM [r.tower.val, r.bank / 32] then u.finishTest x 2 else u.setTest x)) ∧
      (r.kind = 1 → ends (.last n) (s.finishTest r (if n = 0 then 1 else 3))) ∧
      (r.kind = 2 → ends (.last 0) (s.finishTest { r with repairs := 0 } 1)) ∧
      (r.kind = 5 → r.tower = t → ends (.last 0) ((s.markSensors r 0).finishTest { r with repairs := 0 } 1))) ∧
    (∀ e result, r.engine = some e → r.kind < 8 → result < 256 →
      let u := s.finishTest r result
      u.fld F.SPLIT_RESULT.RESULT [r.tower.val, r.kind] = result ∧ u.testIn r.tower r.slot = none ∧
        Keeps s u [.SPLIT_RESULT]) ∧
    (s.flag F.TEST_CTRL.SWEEP_EN [t.val] = true → s.sweepOf t = none → s.testLive t = true →
      exec (.sweepStart t) s = .next (s.startSweep t none).settle) ∧
    ((t.val, slot) ∈ s.retryTests → s.testLive t = true → exec (.testRetry t slot) s =
      .next ((({ s with retryTests := s.retryTests.filter (· ≠ (t.val, slot)) } : State).sweepTry t slot 4200).settle)) ∧
    ∀ x, s.rotations.find? (fun y => y.tower == t && !y.preCopied) = some x → s.loaderWrites t = false →
      s.rotationPowered x = true →
      (s.lapsRun = false → exec (.preCopyComplete t) s = .next ((s.preCopy x).rotate x)) ∧
      (s.lapsRun = true → exec (.preCopyComplete t) s = .next
        { s.preCopy x with rotations := s.rotations.map fun q => if q = x then { q with preCopied := true } else q })

/-- The scrubber's pass, restarts and votes; the fuse commit, which marks the uncommitted log entries one by one; and the mailbox:
GO sends a free slot's request, RELEASE frees the slot, and another session's slot is refused. -/
def Obligations.ScrubFuseMailboxCommands : Prop :=
  ∀ (s : State) (rq : Rq) (role : Role) (t : Tower) (l : CfgLayer) (n : Nat) (ok : Bool) (k : Fin 4),
    let ix := [t.val, cfgIx l]
    let frame := s.fld F.SCRUB_POS.FRAME ix
    let counted := s.count F.SCRUB_POS.CORRECTED ix n
    let marked := if ok = true then counted else counted.markBadKey ((2 * t.val + cfgIx l) * 149760 + frame)
    let live := s.scrubLive t l = true
    let restarted := (s.count F.SCRUB_STAT.RESTARTS ix).recordAuto 0x0E (BitVec.ofNat 64 (2 * t.val + cfgIx l)) 1
    let tx := [t.val]
    let free := s.fld F.FUSE_CTRL.FREE tx
    let es := (s.logOrder t).filter fun i => s.uncommitted t i
    let commits (f : State → State) := Reaches s rq .installer (RegName.FUSE_CTRL.addr tx) →
      WritesRecorded (.fuseCommit rq t) s rq .FUSE_CTRL tx f
    let box (c : Instr) (f : State → State) := Writes c s rq .MBX_CTRL [k.val] f
    (live → frame + 1 < 149760 → exec (.scrubFrame t l n ok) s = .next (marked.put F.SCRUB_POS.FRAME (frame + 1) ix).settle) ∧
      (live → 149760 ≤ frame + 1 → exec (.scrubFrame t l n ok) s =
        .next (((marked.put F.SCRUB_POS.FRAME 0 ix).put F.SCRUB_POS.CORRECTED 0 ix).put F.SCRUB_STAT.PASSES
          ((s.fld F.SCRUB_STAT.PASSES ix + 1) % 2 ^ 32) ix).settle) ∧
      exec (.scrubParameterReload t) s = .next s ∧
      (live → exec (.scrubWatchdog t l) s = .next restarted ∧ exec (.scrubberCopyDisagrees t l true) s = .next restarted ∧
        exec (.scrubberCopyDisagrees t l false) s = .next (s.count F.SCRUB_STAT.VOTES ix)) ∧
      (¬live → exec (.scrubFrame t l n ok) s = .next s ∧ exec (.scrubWatchdog t l) s = .next s ∧
        exec (.scrubberCopyDisagrees t l ok) s = .next s) ∧
      (s.fuseWindow = false → commits fun g => g.put F.FUSE_CTRL.RESULT 1 tx) ∧
      (s.fuseWindow = true → free = 0 → commits fun g => g.put F.FUSE_CTRL.RESULT 2 tx) ∧
      (s.fuseWindow = true → free ≠ 0 → commits fun g => g.fuseEntries t es) ∧
      (es.length ≤ free →
        let u := s.fuseEntries t es
        u.fld F.FUSE_CTRL.RESULT tx = 0 ∧ u.fld F.FUSE_CTRL.FREE tx = free - es.length ∧
          ∀ i : Fin 64, u.reg .REPAIR_LOG [t.val, i.val] =
            if s.uncommitted t i then setBits (s.reg .REPAIR_LOG [t.val, i.val]) 55 55 1 else s.reg .REPAIR_LOG [t.val, i.val]) ∧
      (Reaches s rq role (RegName.MBX_CTRL.addr [k.val]) →
        (s.slotOpen rq k = false →
          RefusesWrite (.mbxGo rq k) s rq .MBX_CTRL [k.val] .bankNotOwned ∧
          RefusesWrite (.mbxRelease rq k) s rq .MBX_CTRL [k.val] .bankNotOwned) ∧
        (s.slotOpen rq k = true →
          ((s.ref.slots[k]).owner = none ∨ (s.ref.slots[k]).state ≠ 0 → box (.mbxGo rq k) id) ∧
          ((s.ref.slots[k]).owner ≠ none → (s.ref.slots[k]).state = 0 → box (.mbxGo rq k) fun g =>
            g.takeMessage (.mailbox k) ((List.range 34).flatMap fun i => bytesOf 8 (s.reg .MBX_MSG [k.val, i]).toNat)) ∧
          box (.mbxRelease rq k) (fun g => g.freeSlot k)))

/-- Writes of the registers that have no effect beyond their fields, 64 bits or one half, with the installer's right where the
register needs it; refusals of forms, addresses, sessions and roles; and what a write makes of each field by its access code. -/
def Obligations.RegisterWrites : Prop :=
  ∀ (s : State) (rq : Rq) (role : Role) (addr : Addr) (len : Nat) (v : W64) (r : RegName) (ix : List Nat),
    let plain : List RegName :=
      [.TRIG_FIRED, .FABRIC_LIMITS, .LOG_STAT, .CNT_T, .OVF_STAT_T, .OVF_TARGET_T, .CNT_P, .OVF_STAT_P,
        .OVF_TARGET_P, .COUNTER_ACCESS, .BANK_STAT, .ECC_STAT, .Q_RING_WB, .ERRQ, .ERRQ_HOST, .FLOWCTL, .FLOW_STAT, .FLOW_WDOG,
        .ROUTER_STAT, .PACER, .NET_TIMEOUT, .HC_EVCTRL, .HC_EVSTAT, .PORT_EVENTS, .PORT_LIMITS, .CHAIN_STAT, .LINK_STAT,
        .SEC_ALARM, .PKGCLK_STAT, .SRC_STAT, .CLKDOM_STAT, .CROSS_MERGED, .PKG_THERM, .TEST_CTRL, .TEST_BUDGET, .SPLIT_RESULT,
        .GROUP_CFG, .SCRUB_CTRL, .REF_STAT, .REF_BOOTSRC, .BB_SEL, .PINS_STAT, .TRIGOUT_CFG]
    let c (n : Nat) := Instr.registerWrite rq addr n v
    let low := v &&& 0xFFFFFFFF
    let stores (n : Nat) (h : Half) (w : W64) : Prop :=
      if r.right = .installer then WritesRecorded (c n) s rq r ix fun g => g.store r ix h w
      else Writes (c n) s rq r ix fun g => g.store r ix h w
    let answers (x : Resp) := exec (c len) s = .next (s.answer rq false x 0 0).finish
    (r.valid ix = true → copyAssigned r ix = true → shadowed r ix = false →
      (r ∈ plain → Reaches s rq .installer (r.addr ix) →
        (addr.toNat = r.addr ix → stores 8 .full v ∧ stores 4 .low low) ∧
        (addr.toNat = r.addr ix + 4 → stores 4 .high (low <<< 32))) ∧
      (r.right = .installer → role ≠ .installer → Reaches s rq role (r.addr ix) → addr.toNat = r.addr ix →
        exec (c 8) s = .next ((s.touchGate (r.addr ix)).denied.answer rq false .roleDenied 0 0).finish)) ∧
    (s.roleOf rq = none → formRefusal rq (.write (v.setWidth 2048)) addr.toNat len = none →
      assigned rq (.write (v.setWidth 2048)) addr.toNat len = true → answers .roleDenied) ∧
    (spaceOf addr.toNat = .register →
      (len ≠ 4 ∧ len ≠ 8) ∨ addr.toNat % len ≠ 0 ∨ targetAt (addr.toNat / 8 * 8) = none → answers .decodeError) ∧
    ∀ (h : Half) (old : W64) (f : Fld) (k : Nat), f ∈ r.fields → f.lo ≤ k → k ≤ f.hi →
      let within := h = .full ∨ (h = .low ∧ k < 32) ∨ (h = .high ∧ 32 ≤ k)
      (mergeWrite r h old v).getLsbD k =
        (if within ∧ f.acc = .rw then v.getLsbD k else if within ∧ f.acc = .w1c then old.getLsbD k && !v.getLsbD k
          else old.getLsbD k)

/-- The register map: the address of every copy of every register is a multiple of 8 in register space or on a doorbell page and
leads back to that copy, and an address that leads to a copy is the copy's own. -/
def Obligations.RegisterMap : Prop :=
  (∀ (r : RegName) (ix : List Nat), r.valid ix = true → copyAssigned r ix = true → shadowed r ix = false →
    targetAt (r.addr ix) = some (.reg r ix) ∧ r.addr ix % 8 = 0 ∧
      (spaceOf (r.addr ix) = .register ∨ spaceOf (r.addr ix) = .doorbell)) ∧
  (∀ (a : Nat) (r : RegName) (ix : List Nat), targetAt a = some (.reg r ix) → r.valid ix = true ∧ r.addr ix = a) ∧
  ∀ (e : Eng) (off : Nat), off < 0x10000 →
    let a := 0x030001000000 + e.val / 4 * 0x01000000 + (e.val % 4 + 1) * 0x10000 + off
    targetAt a = if off % 8 = 0 ∧ (off = 0 ∨ (0x100 ≤ off ∧ off < 0x200) ∨ 0x8000 ≤ off) then some (.engine e off) else none

/-- The fabric within a step: context words go to pairs with a free credit, and one for the next lap not where an activation comes
between or where the one step of the lap has not begun; go opens a step whose cells' words carry its number, a cell fires once when its
six sources are valid and scratches the lap on an uncorrectable one, a complete step latches holds, next state and exports, port A
answers its reads in order, and a step over its limit scratches the lap. -/
def Obligations.FabricCommands : Prop :=
  ∀ (s : State) (x : Tile) (k : Fin 64) (c : Fin 16) (p : Fin 8) (t : Tower) (b : Fin 256) (ecc : Ecc) (pads : BitVec 512),
    let tile := tileKey x
    let tower := towerOfTile tile
    let queued := (s.queueOf (pairKey tile k p)).length
    let next := s.nextWord tower queued
    let slot := s.kindFirst next.1 + next.2
    let word := s.frameWord (s.phys tile) slot (8 * k.val + p.val)
    let malformed := invalidHalf k (2 * p.val) (halfOf word 0) = true ∨ invalidHalf k (2 * p.val + 1) (halfOf word 1) = true
    let sends (u : State) := exec (.contextDelivery x k p ecc) s = .next u.settle
    let deliver (u : State) : State :=
      { u with fab := { u.fab with creditQ := u.fab.creditQ ++ [⟨tower, pairKey tile k p, next.2, word⟩] } }
    let ck := cellKey tile k c
    let n := s.step_ t
    let fs := s.firedIn t
    let stepping := s.fab.phase = .steps
    let incomplete := fs.length ≠ 1024 * (s.inUseOf t).length
    let key := 256 * t.val + b.val
    (s.lapsRun = false ∨ s.tileInUse tile = false ∨ 2 ≤ queued ∨ s.acrossHeld tower queued = true → sends s) ∧
      (s.lapsRun = true → s.tileInUse tile = true → queued < 2 → s.layerHeld tower (if tileDie tile % 2 = 0 then 2 else 5) = false →
        s.acrossHeld tower queued = false →
        (s.serves (pdCfg (tileDie tile)) = false →
          sends (s.lapWants [pdCfg (tileDie tile)] (some (whereAt tile k next.2)))) ∧
        (s.serves (pdCfg (tileDie tile)) = true → s.frameBad (s.phys tile) slot = true →
          sends (s.scratch 4 (some (whereAt tile k next.2))))) ∧
      (s.acrossHeld tower queued = true ↔ s.lapFold ≤ s.firstOpenStep tower + queued ∧
        ((s.flag F.LOAD_STAT.ACT_PENDING = true ∧
            (s.reg .ACT_AT = 0 ∨ s.flag F.LOAD_STAT.LATE = true ∨ s.reg .ACT_AT = s.lapNext)) ∨
          (s.lapFold = 1 ∧ s.firstOpenStep tower = 0 ∧ s.stepIsOpen tower = false))) ∧
      (s.lapsRun = true → s.tileInUse tile = true → queued < 2 → s.layerHeld tower (if tileDie tile % 2 = 0 then 2 else 5) = false →
        s.acrossHeld tower queued = false → s.serves (pdCfg (tileDie tile)) = true → s.frameBad (s.phys tile) slot = false →
        (ecc = .uncorrectable → sends ((s.markBad (s.phys tile) slot).scratch 4 (some (whereAt tile k next.2)))) ∧
        (ecc = .good → malformed → sends (s.scratch 11 (some (whereAt tile k next.2)))) ∧
        (ecc = .good → ¬malformed → sends (deliver s)) ∧
        (ecc = .corrected → ¬malformed → sends (deliver (s.tally tower 0x00B)))) ∧
      (s.fab.phase = .steps → s.stepIsOpen t = false → s.towerDone t = false → s.fab.firstCause = 0 →
        (∀ d ∈ s.stepDomains t, s.serves d = true) → s.waitsContext t = false →
        (∀ y ∈ s.inUseOf t, ∀ q < 512, ∀ h, s.headOf (y * 512 + q) = some h → h.tag = n) →
        let ports := ((s.inUseOf t).flatMap fun y => [portKey y 0, portKey y 1]).filter fun q =>
          (s.presented (q / 2) (q % 2)).isSome
        let g : State :=
          ({ s with
            pads := pads
            fab := { s.fab with
              stepOpen := listAdd s.fab.stepOpen t
              present := s.fab.present.filter (fun q => towerOfTile (q / 2) != t.val) ++ ports } } : State).put
            F.TLC_STAT.PHASE 2 [t.val]
        exec (.stepGo t pads) s = .next (g.pinTokens (fun e =>
          entrySlot e == g.stepSlot n && towerOfTile (entryTile e) == t.val && g.asyncEntry e) fun q => pads.getLsbD q).settle) ∧
      (∀ h ins, s.context tile k c = some h → s.firedCell ck = none → s.tileInUse tile = true → stepping →
        s.inputs tile k c h = some ins →
        (∀ q < 2, 116 + q ∈ selects h → ∀ i, s.presented tile q = some i → i.poison = false) →
        Completes id (.cellFire x k c false) s fun u =>
          (∃ f, u.fab.fired = s.fab.fired ++ [f] ∧ f.cell = ck ∧ f.a = ins.headD false ∧
            f.out = (s.funcEntry tile k (funcOf h)).getLsbD (natOfBits ins)) ∧
          (∀ q < 2, 116 + q ∈ selects h → portKey tile q ∈ u.fab.consumed) ∧ u.regs = s.regs ∧ u.mem = s.mem) ∧
      (s.context tile k c = none ∨ s.firedCell ck ≠ none → exec (.cellFire x k c false) s = .next s) ∧
      (∀ h, s.context tile k c = some h → s.firedCell ck = none → s.tileInUse tile = true → stepping →
        exec (.cellFire x k c true) s = .next (s.scratch 4 (some (whereAt tile k (s.step_ tower)))).settle ∧
          (s.inputs tile k c h = none → exec (.cellFire x k c false) s = .next s)) ∧
      (∀ (f : Fired) (h : W64), ssWe h = true →
        let i := 16 * (f.cell % 1024) + wrIdx h
        let at_ := stateKey (s.phys (f.cell / 1024)) (i / 128)
        let u := s.latchState f h
        (Sparse.read u.fab.nextState at_).getLsbD (i % 128) = f.out ∧ (Sparse.read u.fab.wmask at_).getLsbD (i % 128) = true ∧
          ∀ j < 128, j ≠ i % 128 →
            (Sparse.read u.fab.nextState at_).getLsbD j = (Sparse.read s.fab.nextState at_).getLsbD j) ∧
      (s.stepIsOpen t = false ∨ ¬stepping ∨ incomplete → exec (.stepComplete t) s = .next s.settleV) ∧
      (s.stepIsOpen t = true → stepping → ¬incomplete →
        let held : State := { s with fab := { s.fab with hold := fs.foldl (fun old q => holdNext q.2 q.1 old) s.fab.hold } }
        let latched : State := fs.foldl (fun u q => (u.latchState q.1 q.2).latchExport q.1 q.2) held
        let shut : State :=
          { latched with fab := { latched.fab with
              fired := latched.fab.fired.filter fun f => towerOfTile (f.cell / 1024) != t.val
              creditQ := freeHeads (latched.inUseOf t) latched.fab.creditQ []
              stepOpen := latched.fab.stepOpen.filter (· ≠ t.val) } }
        let w := shut.tally t 0x002
        let u := ((w.traceWait t n).sendGroups fs t (w.stepSlot n)).portRequests fs t n
        ((∃ q ∈ latched.fab.collectors, towerOfTile q.flowTile = t.val ∧ 512 < q.bits.length) →
          exec (.stepComplete t) s = .next (w.scratch 11 (some { tower := t, step := n })).settleV) ∧
        ((∀ q ∈ latched.fab.collectors, towerOfTile q.flowTile = t.val → q.bits.length ≤ 512) → u.fab.phase = .steps →
          (n + 1 < u.lapFold → exec (.stepComplete t) s = .next (u.put F.TLC_STAT.STEP (n + 1) [t.val]).settleV) ∧
          (u.lapFold ≤ n + 1 → exec (.stepComplete t) s = .next
            ((({ u with fab := { u.fab with stepsDone := listAdd u.fab.stepsDone t } } : State).put
              F.TLC_STAT.PHASE 3 [t.val]).verify).settleV))) ∧
      (∀ r, s.fab.portReads.find? (fun r => r.bank == key && r.data.isNone) = some r →
        let a := bankBase t b + 16 * r.word
        s.serves (pdQuad t b) = true → s.layerHeld t 1 = false →
          (ecc = .good → s.memBadAt a = false → s.memSoftAt a = false →
            exec (.portAReadReturn t b ecc) s = .next ({ s with fab := { s.fab with
              portReads := answerRead key (s.memWordAt a) s.fab.portReads
              vaultLap := (s.bankLines key).foldl listAdd s.fab.vaultLap } } : State).settleV) ∧
          (ecc = .uncorrectable → exec (.portAReadReturn t b ecc) s =
            .next ((((s.upset a true).bankError t b a true (s.bankSource t b) (s.fabricPort t b)).scratch 4
              (some { tower := t, step := n })).settleV))) ∧
      (∀ (before after : List PortRead) (r : PortRead) (v : Quad), (∀ q ∈ before, q.bank = key → q.data ≠ none) → r.bank = key →
        r.data = none → answerRead key v (before ++ r :: after) = before ++ { r with data := some v } :: after) ∧
      ((∀ r ∈ s.fab.portReads, r.bank = key → r.data ≠ none) → exec (.portAReadReturn t b ecc) s = .next s.settleV) ∧
      (stepping → s.towerDone t = false → s.fld F.FABRIC_LIMITS.STEP_LIMIT ≠ 0 → (s.stepIsOpen t = true → incomplete) →
        s.waitsExternal t = false →
        exec (.stepLimitExpiry t) s = .next (s.scratch 11 (some { tower := t, step := n })).settle)

/-- Laps: gather, once the banks with design pins are awake, samples the pads and begins the lap, in which benched tiles keep their
holds and next state; a commit checks the held writes, swaps the buffers of the state stores, drains the held writes and counts the lap,
then the device halts or gathers again; a retry begins after its delay; a scratch discards the lap. -/
def Obligations.LapCommands : Prop :=
  ∀ (s : State) (pads : BitVec 512) (cause : Byte) (w : Option Where) (retry : Bool),
    let u := s.clearLap
    let m := s.commitActions
    let boundary := m.boundary s.consumedItems
    let own := boundary.2.ownCause boundary.1
    let after : State :=
      if own = 0x0C then { boundary.2 with ref := { boundary.2.ref with powerCapHalt := false } } else boundary.2
    let c := if own ≠ 0 then own else after.countCause
    let x := s.scratchNow cause w retry
    let commits := exec (.lapCommit none)
    let ready := s.fab.phase = .gatherDue ∧ s.fab.firstCause = 0 ∧ ∀ d ∈ s.pinDomains, s.serves d = true
    (s.fab.phase ≠ .gatherDue ∨ s.fab.firstCause ≠ 0 → exec (.gather pads) s = .next (s.proceedResets).settleV) ∧
      (s.fab.phase = .gatherDue → s.fab.firstCause = 0 → (∃ d ∈ s.pinDomains, s.serves d = false) → exec (.gather pads) s =
        .next (((({ s with fab := { s.fab with committing := false } } : State).lapWants s.pinDomains none).proceedResets).settleV)) ∧
      (ready → s.logMode ≠ 2 → exec (.gather pads) s =
        .next ((((({ s with pads := pads } : State).samplePads pads).beginLap).proceedResets).settleV)) ∧
      (ready → s.logMode = 2 → s.replayNext = none → exec (.gather pads) s = .next (s.proceedResets).settleV) ∧
      (∀ r, ready → s.logMode = 2 → s.replayNext = some r → exec (.gather pads) s =
        .next ((({ s with pads := pads } : State).replayGather r).proceedResets).settleV) ∧
      (u.fab.phase = .steps ∧ u.fab.wmask = [] ∧ u.fab.commitBuf = [] ∧ u.fab.collectors = [] ∧ u.fab.consumed = [] ∧
        (∀ c, c ∈ u.fab.hold ↔ c ∈ s.fab.hold ∧ c / 1024 ∈ s.fab.tilesUsed ∧ s.benched (c / 1024) = true) ∧
        (∀ p, p ∈ u.fab.nextState ↔ p ∈ s.fab.nextState ∧
          ∃ x ∈ s.fab.tilesUsed, s.benched x = true ∧ s.phys x = p.1 / 128) ∧ u.fab.committed = s.fab.committed ∧ u.mem = s.mem ∧
        Keeps s u [.TLC_STAT]) ∧
      (s.fab.phase ≠ .retryWait → exec .lapRetryStart s = .next s) ∧
      (s.fab.phase = .retryWait → s.chainMode = 0 → exec .lapRetryStart s = .next s.retryBegin.settleV) ∧
      (s.fab.phase = .retryWait → s.chainMode = 1 → exec .lapRetryStart s = .next ((s.batonDown 2 s.baton).retryBegin).settleV) ∧
      (s.fab.phase = .retryWait → s.chainMode ≠ 0 → s.chainMode ≠ 1 → exec .lapRetryStart s = .next s) ∧
      (s.verifyHolds = true → s.replayFlowsOk = true → s.chainMode = 1 → s.childrenDone = true → s.knownHalt.1 = 0 →
        commits s = .next s.anchorCommit.settleV) ∧
      (s.verifyHolds = true → s.replayFlowsOk = true → s.chainMode ≠ 0 →
        s.chainMode ≠ 1 ∨ s.childrenDone = false ∨ s.knownHalt.1 ≠ 0 → commits s = .next s.settleV) ∧
      (s.verifyHolds = false → commits s = .next s.settleV) ∧
      (s.verifyHolds = true → s.replayFlowsOk = false → commits s = .next ((s.diverge).scratch 1).settleV) ∧
      (s.verifyHolds = true → s.replayFlowsOk = true → s.chainMode = 0 →
        commits s = .next (if c ≠ 0 then after.haltLaps c else after.nextLap).settleV) ∧
      (∀ (i : Nat) (ecc : Ecc), ecc = .good ∨ s.fab.commitBuf[i]? = none → exec (.lapCommit (some (i, ecc))) s = commits s) ∧
      (∀ (i : Nat) (ecc : Ecc) (e : HeldWrite), ecc ≠ .good → s.fab.commitBuf[i]? = some e →
        let t := e.bank / 256
        let b := e.bank % 256
        let a := bankBase t b + 16 * e.word
        let k := EccSource.commitBuffer.key t a
        let found := ((s.dropSyndrome k).eccError t a (ecc == .uncorrectable) .commitBuffer (s.fabricPort t b)).dropSyndrome k
        exec (.lapCommit (some (i, ecc))) s =
          (if ecc = .uncorrectable then .next ((found.scratch 4 (some { tower := t, step := s.step_ t })).verifyEnds).settleV
            else .next found.verifyEnds.settleV)) ∧
      (m.lapCount = s.lapCount + 1 ∧ m.fab.commitBuf = [] ∧ m.fab.collectors = [] ∧ m.fab.consumed = [] ∧ m.fab.wmask = []) ∧
      (Memory.wf s.fab.wmask = true → ∀ k, (s.swapBuffers).committedWord k =
        (s.committedWord k &&& ~~~(Sparse.read s.fab.wmask k)) ||| (Sparse.read s.fab.nextState k &&& Sparse.read s.fab.wmask k)) ∧
      (Memory.wf s.fab.nextState = true → ∀ x ∈ s.inUse, ∀ n < 128,
        Sparse.read (s.swapBuffers).fab.nextState (stateKey (s.phys x) n) = s.committedWord (stateKey (s.phys x) n)) ∧
      x.fab.nextState = [] ∧ x.fab.commitBuf = [] ∧ x.fab.collectors = [] ∧ x.fab.consumed = [] ∧
      ((∀ t < 4, s.flag F.TRACE_CTRL.EN [t] = false) → s.logMode ≠ 1 → x.mem = s.mem) ∧
      x.fab.committed = s.fab.committed ∧ (retry = true → x.fab.phase = .retryWait) ∧
      (retry = false → x.fab.phase = .halted ∧ x.ref.cause = cause ∧ x.flag F.LAP_STAT.RETRY_HALT = true)

/-- The loader: the header's checks in their order with their results; for the record that a tower's command takes next, its checks in
their order, the wait for a domain that sleeps, and the digests of the segments that it completes, a fault in the tower sections of a FULL
image being kept until the abort takes effect; the deadline; and what the end of a load leaves. -/
def Obligations.LoaderCommands : Prop :=
  ∀ (s : State) (j : Job), s.persona.job = some j →
    let tower := j.engine.val / 4
    let ends (u : State) := exec .loadHeaderChecks s = .next (u.abandonForLoad).settle
    (j.accepted = true → exec .loadHeaderChecks s = .next s) ∧
      (∀ r h ls u, j.accepted = false → s.loaderFetch j.role tower j.addr 4096 = (r, h, ls, u) →
        let g := u.fetched j 4096 ls
        (r ≠ .ok → ends (u.failTransfer r)) ∧
        (r = .ok → headerOk h j.len = false → ends (g.failLoad 1)) ∧
        (r = .ok → headerOk h j.len = true → g.check2 h ≠ 0 → ends (g.failLoad (g.check2 h))) ∧
        (r = .ok → headerOk h j.len = true → g.check2 h = 0 → lockOk h = false → ends (g.failLoad 4)) ∧
        (r = .ok → headerOk h j.len = true → g.check2 h = 0 → lockOk h = true → g.check4 h ≠ 0 → ends (g.failLoad (g.check4 h))) ∧
        (r = .ok → headerOk h j.len = true → g.check2 h = 0 → lockOk h = true → g.check4 h = 0 →
          (∀ q tbl lines y, q ≠ .ok → g.loaderFetch j.role tower (j.addr + 4096) (tableLen h) = (q, tbl, lines, y) →
            ends (y.failTransfer q)) ∧
          ∀ tbl lines y, g.loaderFetch j.role tower (j.addr + 4096) (tableLen h) = (.ok, tbl, lines, y) →
            let z := y.fetched j (tableLen h) lines
            (tableOk h tbl = false → ends (z.failLoad 8)) ∧ (tableOk h tbl = true → ends (z.acceptImage j h tbl)))) ∧
      (∀ t, j.accepted = false ∨ s.fld F.LOAD_STAT.LOADER ≠ 2 → exec (.loadFrameRecord t) s = .next s) ∧
      (∀ t : Tower, j.accepted = true → s.fld F.LOAD_STAT.LOADER = 2 →
        let record (u : State) := exec (.loadFrameRecord t) s = .next u.settle
        let sec := j.nextSection t
        let q := j.sectionAt sec
        let c := j.cursor sec
        let apart := j.kind = 0 ∧ sec ≠ 0
        let bad (u : State) (result : Nat) :=
          (apart → record (u.putJob (j.setCursor sec { c with fault := some (result, some c.records) }))) ∧
          (¬apart → record (u.endLoad result (u.frameIndex j sec c.records)))
        (j.allOver = true → record (s.completeLoad j)) ∧
        (j.allOver = false → c.fault ≠ none → record (s.abortParallel j)) ∧
        (j.allOver = false → c.fault = none → j.over sec = true → record s) ∧
        (j.allOver = false → c.fault = none → j.over sec = false →
          let base := j.addr + q.1 + c.offset
          let tw := if apart then sec - 1 else tower
          (q.2 < c.offset + 64 → bad s 9) ∧
          ∀ r db ls u, c.offset + 64 ≤ q.2 → s.loaderFetch j.role tw base 64 = (r, db, ls, u) →
            let g := u.fetched j 64 ls
            let d := descOf db
            let padded := (d.len + 15) / 16 * 16
            let wrong := descOk j.kind sec db = false ∨ q.2 < c.offset + 64 + padded
            (r ≠ .ok → record (u.failTransfer r)) ∧
            (r = .ok → wrong → bad g 9) ∧
            (∀ dom, r = .ok → ¬wrong → u.frameDomain d = some dom → u.fenced dom = true →
              (u.flag F.PD_CTRL.WAKE_ON_ACCESS [dom] = true → record (u.pdRequest dom 1)) ∧
              (u.flag F.PD_CTRL.WAKE_ON_ACCESS [dom] = false → record (u.failTransfer .domainOff))) ∧
            ∀ pb lines y, r = .ok → ¬wrong → (∀ dom, u.frameDomain d = some dom → u.fenced dom = false) →
              g.loaderFetch j.role tw (base + 64) padded = (.ok, pb, lines, y) →
              let z := y.fetched j padded lines
              let pay := pb.take d.len
              let sum := crc32c pay = BitVec.ofNat 32 d.crc
              (¬sum → bad z 0xA) ∧
              (sum → framePermitted j d = false → bad z 0xB) ∧
              (sum → framePermitted j d = true → frameInRegions j d = false → bad z 0xC) ∧
              (sum → framePermitted j d = true → frameInRegions j d = true →
                (∀ f k v, z.applyFrame j d pay (base + 64) lines = (f, k, v) → f ≠ 0 → bad v f) ∧
                ∀ k v, z.applyFrame j d pay (base + 64) lines = (0, k, v) →
                  let n := (db ++ pb).length
                  let done := { k.cursor sec with
                    offset := (k.cursor sec).offset + n, records := (k.cursor sec).records + 1, bytes := (k.cursor sec).bytes ++ (db ++ pb) }
                  let checked := k.checkSegments sec done (n / 0x1000000 + 2)
                  (checked = none → k.kind ≠ 0 → record (v.endLoad 0xF 0xFFFFFFFF)) ∧
                  ∀ e, checked = some e →
                    let k := k.setCursor sec e
                    (k.allOver = false → record (v.putJob k)) ∧ (k.allOver = true → record ((v.putJob k).completeLoad k))))) ∧
      (j.deadline = 0 → exec .loadTimeout s = .next s) ∧
      (j.deadline ≠ 0 → exec .loadTimeout s = .next (s.failLoad 0x13).settle) ∧
      ∀ result < 256, result ≠ 0x12 →
        let u := s.failLoad result
        u.persona.job = none ∧ u.fld F.LOAD_STAT.RESULT = result ∧ u.fld F.LOAD_STAT.LOADER = 0 ∧
          u.fld F.LOAD_FAULT.FRAME = 0xFFFFFFFF ∧ (u.eng j.engine).chans[j.ch].state = .idle ∧ u.fab = s.fab ∧
          (j.accepted = true → result ≠ 0 → j.kind = 0 → u.persona_ = 0 ∧ u.flag F.LOAD_STAT.STAGED = false ∧ u.persona.staged = []) ∧
          Keeps s u [.LOAD_STAT, .LOAD_FAULT, .BB_STAT]

/-- Rings, stream ports, the fabric's credits and the flow watchdog: an entry is fetched and pushed and CI goes on, a head item is
written to entry PI and its cell freed, one item more is delivered to a port (two at most), a credit is granted to the fabric below
two, and a starved flow scratches the lap. What the queue manager finds in an item's cell or link on its way acts first: an uncorrectable
cell stops a ring, an uncorrectable link faults the queue. -/
def Obligations.RingAndStreamCommands : Prop :=
  ∀ (s₀ : State) (q : Qn) (f : Flow) (found : CellFound),
    let s := s₀.findCell q 0 found
    let run := s.pd (pdNE 0) = 1
    let sound (q : Nat) := s.flag F.Q_STAT.FAULTED [q] = false
    let pi := s.fld F.Q_RING_IDX.PI [q]
    let ci := s.fld F.Q_RING_IDX.CI [q]
    let size := 2 ^ s.fld F.Q_RING.ORDER [q]
    let entry (i : Nat) := s.fld F.Q_RING.BASE [q] * 4096 + i % size * 64
    let credited := if s.credits q = 0 then s.grant q 1 else s
    let head := s.headCell q
    let fetch := Instr.ringFetch q
    let writes (u : State) := exec (.ringWrite q found) s₀ = .next u
    let held := s.credits q + s.fabricTaken q
    (∀ c, (s₀.slots q)[0]? = some c →
      (found = .clean → s = s₀) ∧ (found = .corrected → s = s₀.upset c.addr false) ∧ (found = .uncorrectable → s = s₀.upset c.addr true) ∧
        (found = .link → s = { s₀ with linkBad := listAdd s₀.linkBad c.link })) ∧
    (s.producer q = .ring → sound q → run → pi ≠ ci →
      (credited.credits q = 0 → exec fetch s = .next credited.settleV) ∧
      (credited.credits q ≠ 0 →
        (∀ qs ls u, credited.qmRead (entry ci) = (.ok, qs, ls, u) → exec fetch s = .next
          (((u.pushCell q (BitVec.ofNat 512 (joinQuads qs)) ls).put F.Q_RING_IDX.CI ((ci + 1) % 2 ^ 32) [q]).writeBack
            q).settleV) ∧
        (∀ r qs ls u, r ≠ .ok → credited.qmRead (entry ci) = (r, qs, ls, u) → exec fetch s =
          .next (u.faultQueue q 3 r (BitVec.ofNat 64 (entry ci))).settleV))) ∧
    (s.producer q ≠ .ring ∨ pi = ci ∨ ¬run ∨ ¬sound q → exec fetch s = .next s) ∧
    (∀ c, head = some c → s.consumer q = .ring → sound q → run →
      let popped := ((s.readCell q 0).popCell q).put F.Q_RING_IDX.PI ((pi + 1) % 2 ^ 32) [q]
      (c.poison = true → c.told = true → writes s.settle) ∧
      (c.poison = true → c.told = false → ∀ first rest, s.slots q = first :: rest →
        writes (((s.readCell q 0).setSlots q ({ first with told := true } :: rest)).errRecord none 6 .ok 17 q 0).settle) ∧
      (c.poison = false → size ≤ (pi + 2 ^ 32 - ci) % 2 ^ 32 → writes s) ∧
      (c.poison = false → (pi + 2 ^ 32 - ci) % 2 ^ 32 < size →
        (∀ u, popped.qmWrite (entry pi) (itemQuads c.item) = (.ok, u) → writes (u.writeBack q).settleV) ∧
        (∀ r u, r ≠ .ok → popped.qmWrite (entry pi) (itemQuads c.item) = (r, u) →
          writes (u.faultQueue q 3 r (BitVec.ofNat 64 (entry pi))).settleV))) ∧
    (head = none → writes s) ∧
    (∀ k, s₀.flowIn f = some k →
      let i := s₀.ahead f k + s₀.delivered f
      let u := s₀.findCell k i found
      let delivers (v : State) := exec (.streamDelivery f found) s₀ = .next v.settle
      let open_ := u.qmRuns = true ∧ u.flag F.Q_STAT.FAULTED [k] = false ∧ u.flowIn f = some k ∧ u.ahead f k + u.delivered f = i
      (open_ → u.delivered f < 2 → i < u.qCount k → 0 < i → u.badLink k (i - 1) = true → delivers (u.faultQueue k 5 .ok)) ∧
      (open_ → u.delivered f < 2 → i < u.qCount k → i = 0 ∨ u.badLink k (i - 1) = false →
        delivers ((u.readCell k i).setDelivered f (u.delivered f + 1))) ∧
      (open_ → 2 ≤ u.delivered f ∨ u.qCount k ≤ i → delivers u)) ∧
    (s.producer q = .fabric → run →
      (held < 2 → s.qCount q + held < s.fld F.Q_LEVEL.LIMIT [q] → exec (.fabricCreditGrant q) s = .next (s.grant q 1).settleV) ∧
      (2 ≤ held ∨ s.fld F.Q_LEVEL.LIMIT [q] ≤ s.qCount q + held → exec (.fabricCreditGrant q) s = .next s)) ∧
    (s.flag F.FLOW_BIND.WDOG_EN [f] = true → s.fld F.FLOW_WDOG.LIMIT ≠ 0 →
      s.flowWaitsIn f = true ∨ s.flowWaitsOut f = true → exec (.flowWatchdogExpiry f) s =
        .next ((s.put F.FLOW_STAT.STARVED 1 [f]).scratch 0x0A (some (s.starvedAt f))).settleV) ∧
    (s.flag F.FLOW_BIND.WDOG_EN [f] = false ∨ s.fld F.FLOW_WDOG.LIMIT = 0 ∨
      (s.flowWaitsIn f = false ∧ s.flowWaitsOut f = false) → exec (.flowWatchdogExpiry f) s = .next s)

/-- Requests of the network: on design memory, reads of words without errors, writes, posted writes, which are answered by nothing, and
atomic adds, which answer the old low word; the order of the refusals (form and address, session, power, reset, owner), with a request
held for a domain that wakes; what routers find on the path; and responses, which their requesters take. -/
def Obligations.NetworkRequests : Prop :=
  ∀ (s : State) (rq : Rq) (role : Role) (addr : Addr) (len : Nat) (data : Payload) (v : W64),
    let a := addr.toNat
    let t := memTower a
    let b := memBank a
    let quiet : Prop := ∀ e, rq.agent = .engine e → (s.eng e).inTrap = false
    let may (write : Bool) := s.portBAllows t b (requesterOf rq) role write
    let reader := if isHost rq then readerPortB else readerEngine
    let stored := s.storeWords a (payloadQuads data len)
    let q := s.memWordAt a
    let read := Instr.read rq addr len .clean
    let write := Instr.write rq addr len data .clean
    let posted := Instr.writePosted rq addr len data .clean
    let commands : List ((Path → Instr) × ReqOp × Nat) :=
      [(.read rq addr len, .read, len), (.write rq addr len data, .write data, len), (.writePosted rq addr len data, .posted data, len),
        (.amoaddRequest rq addr v, .amoadd v, 16)]
    (Reaches s rq role a → a < 0x100000000 → quiet →
      (wideOk a len = true →
        (may false = .ok → (∀ i < len / 16, s.memBadAt (a + 16 * i) = false ∧ s.memSoftAt (a + 16 * i) = false) →
          exec read s = .next (s.answer rq true .ok len
            (quadsPayload ((List.range (len / 16)).map fun i => s.memWordAt (a + 16 * i)))).finish) ∧
        (may false = .ok → len = 16 → s.memBadAt a = true → exec read s = .next
          ((s.bankError t b a true (s.bankSource t b) reader).answer rq true .uncorrectable len 0).finish) ∧
        (may true = .ok →
          exec write s = .next (stored.answer rq false .ok 0 0).finish ∧ exec posted s = .next stored.finish) ∧
        (∀ r, may false = r → r ≠ .ok → r ≠ .roleDenied → exec read s = .next (s.answer rq true r len 0).finish) ∧
        (may false = .roleDenied → exec read s = .next (s.denied.answer rq true .roleDenied len 0).finish) ∧
        (∀ r, may true = r → r ≠ .ok → r ≠ .roleDenied →
          exec write s = .next (s.answer rq false r 0 0).finish ∧
            exec posted s = .next (s.postedFailed rq r 0xFFFF (BitVec.ofNat 64 a)).finish)) ∧
      (a % 16 = 0 → may true = .ok → s.memBadAt a = false → s.memSoftAt a = false →
        exec (.amoaddRequest rq addr v .clean) s = .next
          ((s.memStore a (wordAt q 1 ++ (wordAt q 0 + v))).answer rq true .ok 8
            (BitVec.ofNat 2048 (wordAt q 0).toNat)).finish)) ∧
    (∀ c ∈ commands,
      let op := c.2.1
      let n := c.2.2
      let sends (p : Path) (u : State) := exec (c.1 p) s = .next u.finish
      let refuses (u : State) (r : Resp) := sends .clean (u.respond rq op a n r 0)
      let formed := formRefusal rq op a n = none ∧ assigned rq op a n = true
      (spaceOf a = .none → formRefusal rq op a n = some .decodeError) ∧
      (a < 0x100000000 → op.isWrite = true → n < 16 → formRefusal rq op a n = some .narrowWrite) ∧
      (∀ r, formRefusal rq op a n = some r → refuses s r) ∧
      (formRefusal rq op a n = none → assigned rq op a n = false → refuses s .decodeError) ∧
      (formed → s.roleOf rq = none → refuses s .roleDenied) ∧
      (formed → s.roleOf rq = some role → s.targetOff rq a = true →
        (s.wakes rq a = true → sends .clean (s.holdRequest
          ⟨(portOf rq a).dom, rq, a, n, op, .bus, role, BitVec.ofNat 16 (s.sessionOf rq), false⟩)) ∧
        (s.wakes rq a = false → refuses (s.offRefusal rq a) .domainOff)) ∧
      (formed → s.roleOf rq = some role → s.targetOff rq a = false → s.targetHeld a = true → refuses s .layerReset) ∧
      (∀ t r, exec (c.1 (.corrected t r)) s =
        exec (c.1 .clean) ((s.count F.ROUTER_STAT.CORRECTED [t.val, r.val]).tally (20 + t) 0x20D)) ∧
      (∀ x, a < 0x100000000 → exec (c.1 (.arrayError x)) s = exec (c.1 .clean) (s.upset (a / 16 * 16) x)) ∧
      (∀ (t : Tower) (r : Fin 24) (input : Fin 12),
        let ix := [t.val, r.val]
        let gone (u : State) (vn : Nat) :=
          ((u.count F.ROUTER_ERR.DISCARDS ix).put F.ROUTER_ERR.INPUT input ix).put F.ROUTER_ERR.VN vn ix
        sends (.discarded t r input) (if op.isPosted = true then gone s 0 else { gone s 0 with lost := s.lost ++ [rq] }) ∧
        (∀ u, op.isPosted = false → s.request rq op a n = u → u.answers.length ≠ s.answers.length ∨ u.hostOut.length ≠ s.hostOut.length →
          sends (.answerDiscarded t r input) (gone { u with
            answers := s.answers, hostOut := u.hostOut.filter fun m => s.hostOut.contains m, lost := u.lost ++ [rq] } 1))) ∧
      (formed → Reaches s rq role a → sends .poisoned (s.respond rq op a n .uncorrectable 0)) ∧
      (∀ d u, op.isWrite = false → s.roleOf rq = some role → s.serve rq role .bus op a n = (.done .ok d, u) →
        sends .answerPoisoned (u.respond rq op a n .uncorrectable 0))) ∧
    (∀ r, r ≠ .ok →
      s.respond rq .read a len r data = s.answer rq true r len 0 ∧ s.respond rq (.write data) a len r 0 = s.answer rq false r 0 0 ∧
        s.respond rq (.amoadd v) a 16 r data = s.answer rq true r 8 0 ∧
        s.respond rq (.posted data) a len r 0 = s.postedFailed rq r (queueAt a) (BitVec.ofNat 64 a)) ∧
    (a < 0x100000000 → s.targetOff rq a = s.portFenced (groupEnd t (b / 32))) ∧
    (s.wakes rq a = true ↔ s.portOff (portOf rq a) = true ∧ s.flag F.PD_CTRL.WAKE_ON_ACCESS [(portOf rq a).dom] = true ∧
      (s.wakeHeld (portOf rq a).tower (portOf rq a).router).length < 64) ∧
    (∀ before x after, s.answers = before ++ x :: after → x.rq = rq →
      (x.read = true → (∀ y ∈ before, ¬(y.rq = rq ∧ y.read = true)) →
        exec (.readResp rq) s = .next { s with answers := before ++ after }) ∧
      (x.read = false → (∀ y ∈ before, ¬(y.rq = rq ∧ y.read = false)) →
        exec (.writeResp rq) s = .next { s with answers := before ++ after }))

/-- Events, queue operations, maintenance and relay packets, the request timeout, router holds, and holds for a domain that does not
wake. -/
def Obligations.NetworkEvents : Prop :=
  ∀ (s : State) (rq : Rq) (role : Role) (e : Eng) (b : Fin 64) (w v : W64) (type source : Byte) (index : BitVec 16) (q : Qn)
    (n : BitVec 16) (x : Item) (m : Maint) (t u : Tower) (r : Fin 24) (d : Pd) (src dst : BitVec 12) (f : Flow) (body : FrameBody),
    let at_ := m.addr.toNat
    let own : Rq := ⟨.engine 0, 0⟩
    let holds := s.routerHolds t r
    let ix := [t.val, r.val]
    let page := doorbellBase + q * 0x1000
    let event (m : EvMsg) (u : State) := exec (.event m) s = .next u.finish
    let op (o : QOp) (u : State) := exec (.queueOp rq q o) s = .next u.finish
    let code (u : State) (n : Nat) := u.answer rq true .ok 8 (BitVec.ofNat 2048 n)
    let kept := match rq.agent with
      | .engine e => if (s.eng e).cqHeld = true ∧ (s.eng e).cq.toNat = q then 1 else 0
      | .host _ _ => 0
    let producer := s.isProducer rq.agent q = true
    let consumer := s.isConsumer rq.agent q = true
    let may := s.flag F.Q_BIND.CMD [q] = true → s.fld F.Q_BIND.ROLE [q] = roleCode role
    let frame := spaceOf at_ = .frame ∧ at_ % 16 = 0 ∧ frameIndex at_ < 4160 ∧ frameOff at_ < 0x48000
    let times (u : State) := exec (.requestTimeout rq) s = .next u.finish
    let carrying (s : State) (h : Held) (g : State → State) : State :=
      { g { s with carried := some (h.role, h.session) } with carried := none }
    (s.fenced (pdNE (e.val / 4)) = false →
      event (.toEngine e b w) (s.onEng e fun en => { en with evpend := en.evpend ||| 1 <<< b.val, sigdata := w })) ∧
    (s.fenced (pdNE (e.val / 4)) = true → event (.toEngine e b w) s) ∧
    event (.toHost type source index w) (s.hostEvent type source index w) ∧
    (s.notifyDue = false → exec .notifyHoldoffEnd s = .next { s with holdoff := false }) ∧
    (s.notifyDue = true → exec .notifyHoldoffEnd s =
      .next ({ s with holdoff := false, notifyDue := false } : State).notify) ∧
    (s.roleOf rq = none → ∀ o, exec (.queueOp rq q o) s = .next (s.answer rq true .roleDenied 0 0)) ∧
    (s.roleOf rq = some role → s.targetOff rq page = true → ∀ o,
      (s.wakes rq page = true → op o (s.holdRequest
        ⟨(portOf rq page).dom, rq, page, 8, .queue q o, .bus, role, BitVec.ofNat 16 (s.sessionOf rq), false⟩)) ∧
      (s.wakes rq page = false → op o ((s.offRefusal rq page).refuse rq (.queue q o) page .domainOff))) ∧
    (s.roleOf rq = some role → s.targetOff rq page = false → s.targetHeld page = true → ∀ o,
      op o (s.refuse rq (.queue q o) page .layerReset)) ∧
    (Reaches s rq role page →
      (¬producer → op (.push x) (code s 2) ∧ op (.grant n) (code s 0)) ∧
      (producer → op (.grant n) (code (s.grant q n.toNat) (s.credits q + s.grantSize q n.toNat)) ∧
        (¬may → op (.push x) (s.denied.postedFailed rq .roleDenied q (BitVec.ofNat 64 page))) ∧
        (may → s.credits q ≤ kept → op (.push x) (code s 1)) ∧
        (may → kept < s.credits q → op (.push x) (code (s.pushCell q x) 0))) ∧
      (¬consumer → op .pop (code s 2)) ∧
      (consumer → s.flag F.Q_STAT.FAULTED [q] = true ∨ s.headCell q = none → op .pop (code s 0)) ∧
      (∀ c, consumer → s.flag F.Q_STAT.FAULTED [q] = false → s.headCell q = some c →
        (c.poison = true → op .pop ((s.readCell q 0).answer rq true .uncorrectable 0 0)) ∧
        (c.poison = false → op .pop (((s.readCell q 0).popCell q).answer rq true .ok 64 (c.item.setWidth 2048)))) ∧
      (s.flowIn f = some q.val → op (.delivery f) (s.deliverItem f)) ∧ (s.flowIn f ≠ some q.val → op (.delivery f) s)) ∧
    (frame → s.targetOff own at_ = false → s.targetHeld at_ = false →
      exec (.maint m) s = .next (s.storeFrame (frameTile at_) (frameSlot at_) (frameWordNo at_) m.data).finish) ∧
    (frame → s.targetOff own at_ = false → s.targetHeld at_ = true → exec (.maint m) s = .next s.finish) ∧
    (frame → s.targetOff own at_ = true → s.wakes own at_ = false → exec (.maint m) s = .next (s.offRefusal own at_).finish) ∧
    (frame → s.targetOff own at_ = true → s.wakes own at_ = true → exec (.maint m) s = .next (s.holdRequest
      ⟨(portOf own at_).dom, own, at_, 8, .maint m.data, .bus, .operator, BitVec.ofNat 16 (s.sessionOf own), false⟩).finish) ∧
    (spaceOf at_ ≠ .frame → exec (.maint m) s = .next s.finish) ∧
    (s.chainMode ≠ 0 → (∀ d l, body ≠ .boot d l) → (∀ h, body ≠ .hello h) →
      (dst.toNat = s.selfId → exec (.relay t u src dst body) s = .next (s.deliverFrame none src body).settleV) ∧
      (dst.toNat ≠ s.selfId → exec (.relay t u src dst body) s = .next (s.forwardFrom src.toNat dst.toNat body).settleV)) ∧
    (s.chainMode = 0 → (∀ d l, body ≠ .boot d l) → exec (.relay t u src dst body) s = .next s.settleV) ∧
    (∀ data last, exec (.relay t u src dst (.boot data last)) s = .next (s.bootFrame (16 + t.val) data last).settleV) ∧
    ((∀ h ∈ s.held, h.rq = rq → h.who = .discarded) → (∀ h ∈ s.holds, h.rq = rq → h.who = .discarded) → rq ∉ s.lost →
      ((∀ y ∈ s.answers, y.rq ≠ rq) → exec (.requestTimeout rq) s = .next s) ∧
      (∀ y, s.answers.find? (fun y => y.rq == rq) = some y →
        times (({ s with answers := s.answers.erase y } : State).answer y.rq y.read .timeout 0 0))) ∧
    ((∀ h ∈ s.held, h.rq = rq → h.who = .discarded) → (∀ h ∈ s.holds, h.rq = rq → h.who = .discarded) → rq ∈ s.lost →
      times (({ s with lost := s.lost.erase rq } : State).answer rq true .timeout 0 0)) ∧
    (∀ h, s.held.find? (fun h => h.rq == rq && h.who != .discarded) = some h → h.who = .bus → h.op = .read →
      times (carrying { s with held := s.held.map fun y => if y == h then { y with who := .discarded } else y } h
        fun s => s.answer rq true .timeout h.len 0)) ∧
    (Reaches s rq .installer (RegName.ROUTER_CFG.addr ix) →
      exec (.routerCfg rq t r v) s = .next
        ((s.touchGate (RegName.ROUTER_CFG.addr ix)).holdRouter rq .installer .bus t r .full v false).finish) ∧
    (Reaches s rq role (RegName.ROUTER_CFG.addr ix) → role ≠ .installer →
      exec (.routerCfg rq t r v) s = .next
        ((s.touchGate (RegName.ROUTER_CFG.addr ix)).denied.answer rq false .roleDenied 0 0).finish) ∧
    (holds = [] → exec (.routerHoldDrained t r) s = .next s ∧ exec (.routerHoldTimeout t r) s = .next s) ∧
    (∀ h rest, holds = h :: rest →
      let u := s.store .ROUTER_CFG ix (halfOfCode h.half) h.value
      let noted : State := { ({ u with carried := some (h.role, h.session) } : State).recordWrite h.rq (RegName.ROUTER_CFG.addr ix)
        (s.reg .ROUTER_CFG ix) (u.reg .ROUTER_CFG ix) with carried := none }
      exec (.routerHoldDrained t r) s = .next (noted.endHold h .ok).finish ∧
        exec (.routerHoldTimeout t r) s = .next
          (((s.put F.ROUTER_STAT.HOLD_TIMEOUT 1 ix).tally (20 + t) 0x20F).endHold h .routerHoldTimeout).finish) ∧
    (s.serves d = true → exec (.wakeHoldExpiry d) s = .next s) ∧
    (s.serves d = false → (∀ h ∈ s.held, h.dom ≠ d.val) → exec (.wakeHoldExpiry d) s = .next s.finish) ∧
    (∀ h, s.serves d = false → s.held = [h] → h.dom = d.val → h.who = .bus → h.op = .read → exec (.wakeHoldExpiry d) s =
      .next (carrying { s.offRefusal h.rq h.addr with held := [] } h fun s => s.answer h.rq true .domainOff 0 0).finish)

/-- The host channel: a request over a mainband that is up is refused by the channel (power, a malformed header, a tag in use) or goes on
as a network request; answers of the host die, mainbands and sidebands coming and going, the sideband's registers, and PERST_N. -/
def Obligations.HostChannelCommands : Prop :=
  ∀ (s : State) (m : Module) (h : Hdr) (data : Payload) (who : DevReq) (resp : Byte) (addr : Addr) (word : Quad) (x32 : Bool)
    (speed repaired : Byte) (v : W64) (bytes : List Byte),
    let rq := hdrRq h m
    let a := h.addr.toNat
    let n := hdrBytes h
    let up := s.flag F.HC_LINK.UP [m] = true
    let reads (u : State) := exec (.hRead m h) s = .next u.finish
    let writes (u : State) := exec (.hWrite m h data) s = .next u.finish
    let posts (u : State) := exec (.hWritePosted m h data) s = .next u.finish
    let goes (op : ReqOp) := up ∧ s.hostRefusal m h op = none
    let host := addr.toNat
    let plain := spaceOf host = .host ∧ host % 16 = 0
    let at_ := (host - hostBase) / 16
    let ix := [m.val]
    let trained (u : State) : State :=
      (((u.put F.HC_LINK.UP 1 ix).put F.HC_LINK.WIDTH (if x32 then 1 else 0) ix).put F.HC_LINK.SPEED speed.toNat ix).put
        F.HC_LINK.REPAIRED repaired.toNat ix
    let linked := s.ref.sbLinkUp.getLsbD m = true
    let told (u : State) (r : Resp) (v : W64) : State := { u with hostOut := u.hostOut ++ [.sideband m r.byte v] }
    let sb := exec (.sbHostmem m v) s
    let raised : State := { s with ref := { s.ref with sbLinkUp := s.ref.sbLinkUp ||| BitVec.ofNat 4 (2 ^ m.val) } }
    let sbRead (off : Byte) (u : State) := exec (.sidebandLinkUp m (some off)) s = .next u
    let failed (u : State) := exec (.completion who resp addr word) s = .next u.finish
    (¬up → reads s ∧ writes s ∧ posts s) ∧
    (up → (∀ r, s.hostRefusal m h .read = some r → reads (s.answer rq true r n 0)) ∧
      (∀ r, s.hostRefusal m h (.write data) = some r → writes (s.answer rq false r 0 0)) ∧
      (∀ r, s.hostRefusal m h (.posted data) = some r → posts (s.postedFailed rq r (queueAt a) (BitVec.ofNat 64 a)))) ∧
    (∀ op,
      (s.hostServed = false → s.hostRefusal m h op = some .domainOff) ∧
      (s.hostServed = true → hdrFormed h op = false ∨ hostBase ≤ a → s.hostRefusal m h op = some .decodeError) ∧
      (s.hostServed = true → hdrFormed h op = true → a < hostBase →
        (op.isPosted = false → s.tagOut m (h.tag.setWidth 10) = true → s.hostRefusal m h op = some .decodeError) ∧
        (op.isPosted = true ∨ s.tagOut m (h.tag.setWidth 10) = false → s.hostRefusal m h op = none))) ∧
    (goes .read → reads ((s.tally (24 + m.val / 2) 0x300).request rq .read a n)) ∧
    (goes (.write data) → writes ((s.tally (24 + m.val / 2) 0x301).request rq (.write data) a n)) ∧
    (goes (.posted data) → posts ((s.tally (24 + m.val / 2) 0x301).request rq (.posted data) a n)) ∧
    (plain → exec (.completion who 0 addr word) s = .next (s.hostPut at_ word) ∧ (s.hostPut at_ word).hostRaw at_ = word ∧
      ∀ w, w ≠ at_ → (s.hostPut at_ word).hostRaw w = s.hostRaw w) ∧
    (¬plain → exec (.completion who 0 addr word) s = .next s) ∧
    (resp ≠ 0 → ∀ q, who = .ring q ∨ who = .writeBack q → failed (s.faultQueue q 3 (respOfByte resp) (addr.setWidth 64))) ∧
    (resp ≠ 0 → who = .eventUnit → failed (((s.put F.HC_EVSTAT.FAULT 1).put F.HC_EVCTRL.EN 0).dropEvent)) ∧
    (resp ≠ 0 → ∀ e ch, who = .dma e ch → (s.eng e).chans[ch].state = .busy → s.isLoadChan e ch = false →
      failed (s.haltMove e ch (respOfByte resp))) ∧
    (resp ≠ 0 → who = .imageLoader → s.persona.job ≠ none → failed (s.failTransfer (respOfByte resp))) ∧
    (resp ≠ 0 → ∀ e, who = .engine e → (s.eng e).waiting = none →
      failed { s with hostFails := s.hostFails ++ [(e, host / 16, (respOfByte resp).byte)] }) ∧
    Completes State.finish (.mainbandDown m) s (fun u => u.flag F.HC_LINK.UP ix = false ∧
      (∀ k : Module, k ≠ m → u.reg .HC_LINK [k] = s.reg .HC_LINK [k]) ∧ (∀ i < 69, u.reg .SESS [i] = s.reg .SESS [i]) ∧
      (¬up → u = s)) ∧
    (s.pd 1 = 1 → speed ∈ [4, 8, 12, 16, 24, 32].map (BitVec.ofNat 8) → exec (.mainbandUp m x32 speed repaired) s =
      .next (trained (if s.fld F.HC_LINK.SPEED ix = 0 then s else s.count F.HC_LINK.RETRAINS ix)).finish) ∧
    (s.pd 1 ≠ 1 → speed ∈ [4, 8, 12, 16, 24, 32].map (BitVec.ofNat 8) →
      exec (.mainbandUp m x32 speed repaired) s = .next s) ∧
    exec (.sidebandLinkUp m none) s = .next raised ∧
    sbRead 0x00 (told raised .ok 0x4B4D9410000000A2) ∧ sbRead 0x08 (told raised .ok (BitVec.ofNat 64 s.ref.sbState)) ∧
    sbRead 0x10 (told raised .ok (s.ref.sbDeadline.setWidth 64)) ∧ sbRead 0x18 (told raised .ok (s.ref.sbHostmem.setWidth 64)) ∧
    (∀ off, off ∉ [0x00, 0x08, 0x10, 0x18].map (BitVec.ofNat 8) → sbRead off (told raised .decodeError 0)) ∧
    (¬linked → sb = .next s) ∧
    (linked → s.ref.sbHostmemLocked = true → sb = .next (told s .ok 0)) ∧
    (linked → s.ref.sbHostmemLocked = false → 256 < v.toNat → sb = .next (told s .decodeError 0)) ∧
    (linked → s.ref.sbHostmemLocked = false → v.toNat ≤ 256 → sb = .next (told
      (({ s with ref := { s.ref with sbHostmem := v.setWidth 9, sbHostmemLocked := true } } : State).put
        F.HC_HOSTMEM.GIB v.toNat) .ok 0)) ∧
    Completes State.finish .perstN s (fun u => (∀ k : Module, u.flag F.HC_LINK.UP [k] = false) ∧
      ∀ i < 68, u.reg .SESS [i] = if i < 64 ∧ i % 16 = 0 then 1 else 0) ∧
    exec (.vendorDefinedMessage m bytes) s = .next (s.takeMessage (.sideband m) bytes).settleV

/-- The line code: what the polynomial x^58 + x^39 + 1 scrambles it descrambles, whatever the history; blocks go to the lanes of the map
in turn; a control block of a reserved type is discarded and counted; a frame sealed under a key opens under it, with its tag checked; 64
valid headers in a row lock a hunting lane and fewer do not, and sixteen invalid ones among 64 lose the lock and fewer do not. -/
def Obligations.LineCoding : Prop :=
  (∀ (st : BitVec 58) (w : W64),
    let out := scrambled st w
    let line : BitVec 122 := (out.setWidth 122 <<< 58) ||| st.setWidth 122
    descrambled st out = w ∧ scrambled st (descrambled st w) = w ∧
      ∀ k < 64, out.getLsbD k = (w.getLsbD k ^^ (line.getLsbD (k + 19) ^^ line.getLsbD k)) ∧
        (6 ≤ k → (lastBits out).getLsbD (k - 6) = out.getLsbD k)) ∧
  (∀ (key : LinkKey) (nonce : W64) (header payload : List Byte),
    let sealed_ := sealBytes key nonce header payload
    openBytes key nonce header sealed_ = some payload ∧ sealed_.length = payload.length + 16 ∧
      ∀ ct tag, tag.length = 16 → tag ≠ gcmTag key.key (key.iv nonce) header ct →
        openBytes key nonce header (ct ++ tag) = none) ∧
  (∀ (s : State) (p : Port) (i : Lane) (u : BitVec 2 × W64) (f : TxFrame),
    let m := s.txMap p
    let n := (s.portH p).unitNo
    let x := scrambled ((s.portH p).lane i).scr u.2
    (m[n % m.length]? = some i.val → s.laneState p i ≠ 7 →
      (s.stripe p u).wire = s.wire ++ [⟨p.val, i.val, u.1, x⟩] ∧ ((s.stripe p u).portH p).unitNo = n + 1 ∧
        (((s.stripe p u).portH p).lane i).scr = lastBits x) ∧
    (m = [] → (s.stripe p u).wire = s.wire) ∧
    (frameUnits f).length = 2 + f.sealed_.length / 8) ∧
  ∀ (s : State) (p : Port) (b : LaneIn) (hs : List (BitVec 2)),
    let i := b.lane
    let l := (s.portH p).lane i
    let state (u : State) := u.laneState p i
    let seen := (s.onLane p i fun l => { l with descr := lastBits b.bits }).seeHeader p i b.hdr
    let w := descrambled l.descr b.bits
    let type := bitsOf w 7 0
    let valid (h : BitVec 2) : Bool := h == 1 || h == 2
    (b.hdr ≠ 2 → s.laneBlock p b = seen) ∧
      (b.hdr = 2 →
        (type < 0x80 → type ∉ [0x1E, 0x2D, 0x4B, 0x55, 0x66, 0x78] →
          (state seen = 3 → s.laneBlock p b = seen.count F.LANE_ERR.HDR_ERR (laneIx p i)) ∧
          (state seen ≠ 3 → s.laneBlock p b = seen)) ∧
        (0x80 ≤ type → type ∉ [0x80, 0x81, 0x82, 0x83] →
          (seen.portUp p = true → s.laneBlock p b = seen.count F.LINK_STAT.PROTO_ERR [p]) ∧
          (seen.portUp p = false → s.laneBlock p b = seen)) ∧
        (type = 0x80 → seen.portUp p = true → bitsOf w 11 8 = 0 ∨ 6 < bitsOf w 11 8 →
          s.laneBlock p b = seen.reservedFrame p (BitVec.ofNat 24 (bitsOf w 39 16))) ∧
        (type ∈ [0x1E, 0x2D, 0x4B, 0x55, 0x66, 0x78, 0x81, 0x82, 0x83] → s.laneBlock p b = seen)) ∧
      (state s = 1 ∨ state s = 2 → l.good = 0 → s.aloneRef = false → (∀ h ∈ hs, valid h = true) → hs.length ≤ 64 →
        (hs.length < 64 → state (s.seeHeaders p i hs) = state s) ∧ (hs.length = 64 → state (s.seeHeaders p i hs) = 3)) ∧
      (state s = 1 ∨ state s = 2 → s.aloneRef = true → state (s.seeHeaders p i hs) = state s) ∧
      (state s = 3 → l.window = 0 → hs.length ≤ 64 →
        ((hs.filter fun h => !valid h).length < 16 → state (s.seeHeaders p i hs) = 3) ∧
        ((hs.filter fun h => !valid h).length = 16 → hs.getLast?.all (fun h => !valid h) = true →
          state (s.seeHeaders p i hs) ≠ 3))

/-- Lanes: a header's effect on a lane that hunts, is locked or waits for a burst; the loss of lock (a lane whose losses within a second
reach LOSS_LIMIT is retired), a refused reference, and lanes not locked within ACQ_LIMIT, which become FAILED; with fewer than MIN_WIDTH
left the port acquires afresh. In far-end loopback what comes goes back, and while the group is not in RUN nothing is heard. How many
losses lie within the second is free (notes/assumptions 44): only the limits 1 and above the count are decided. -/
def Obligations.RelayLaneCommands : Prop :=
  ∀ (s : State) (p : Port) (i : Lane) (flag other outside ok : Bool) (hs : List (BitVec 2)) (bs : List LaneIn)
    (skew : Vector (BitVec 8) 8) (entries : BitVec 32) (bad spares : BitVec 8) (next credits : BitVec 24),
    let state (l : Nat) := s.laneState p l
    let lane := (s.portH p).lane i
    let set (f : LaneH → LaneH) : State := s.onLane p i f
    let hunting := state i = 1 ∨ state i = 2
    let see (h : BitVec 2) := s.seeHeader p i h
    let good (h : BitVec 2) := h = 1 ∨ h = 2
    let tried := set fun l => { l with good := min 64 (l.good + 1) }
    let missed : State := (set fun l => { l with window := (l.window <<< 1) ||| 1 }).count F.LANE_ERR.HDR_ERR (laneIx p i)
    let rested := set fun l => { l with good := min 16 (l.good + 1) }
    let lost := (((((s.setLane p i 2).count F.LANE_STAT.LOSSES (laneIx p i)).onLane p i fun l =>
      { l with losses := l.losses + 1, good := 0, window := 0 }).onPort p fun h =>
        { h with deskewed := h.deskewed &&& ~~~(BitVec.ofNat 8 (2 ^ i.val)) }).portMirror p).spend
    let limit := s.fld F.PORT_LIMITS.LOSS_LIMIT (portIx p)
    let late := lanes8.filter fun l => state l == 1 || state l == 2 || state l == 8
    let failed := late.foldl (fun s l => s.failLane p l 1) s
    let left := (lanes8.filter fun l => state l == 3).length
    let bit : BitVec 8 := BitVec.ofNat 8 (2 ^ i.val)
    let taken := s.seeHeader p i 2
    let old := (taken.portH p).partnerLocked
    let new := if flag then old ||| bit else old &&& ~~~bit
    let told := taken.onPort p fun h => { h with partnerLocked := new }
    let all (v : BitVec 8) := ∀ l < 8, told.laneState p l ≠ 7 → told.laneState p l ≠ 5 → v.getLsbD l = true
    let goes (c : Instr) (u : State) := exec c s = .next u
    let runs := s.portState p ≠ 5 ∧ s.groupRuns p = true
    let echo (c : Instr) : State := { s with sent := s.sent ++ [(p.val, Block.echo c)] }
    let deaf := s.portState p ≠ 5 ∧ s.groupRuns p = false
    (∀ c ∈ [Instr.laneLock p i hs, .lossOfLock p i hs, .train p i flag other outside, .align p skew, .mapReq p bad spares,
        .nak p next credits ok],
      (s.portState p = 5 → goes c (echo c).settle) ∧ (deaf → goes c s.settle)) ∧
    (∀ c ∈ [Instr.map p entries, .idleEnter p, .ack p next credits ok], (s.portState p = 5 → goes c (echo c)) ∧ (deaf → goes c s)) ∧
    (s.portState p = 5 → goes (.idle p bs) ({ echo (.idle p bs) with wire := s.wire ++ bs.map fun b =>
      { port := p.val, lane := b.lane.val, hdr := b.hdr, bits := b.bits } } : State).settle) ∧
    (deaf → goes (.idle p bs) s.settle) ∧
    (runs → goes (.laneLock p i hs) (s.seeHeaders p i hs).settle ∧ goes (.lossOfLock p i hs) (s.seeHeaders p i hs).settle ∧
      goes (.idle p bs) (bs.foldl (fun s b => s.laneBlock p b) s).settle ∧
      (told.portState p ≠ 1 ∨ ¬all new ∨ all old → goes (.train p i flag other outside) told.settle) ∧
      (told.portState p = 1 → all new → ¬all old → goes (.train p i flag other outside) (told.sendAlign p).settle)) ∧
    (s.seeHeaders p i [] = s ∧ ∀ h rest, s.seeHeaders p i (h :: rest) = (see h).seeHeaders p i rest) ∧
    (∀ h,
      (hunting → ¬good h → see h = set fun l => { l with good := 0, boundary := (l.boundary + 1) % 66 }) ∧
      (hunting → good h → lane.good < 63 ∨ s.aloneRef = true → see h = tried) ∧
      (hunting → good h → 63 ≤ lane.good → s.aloneRef = false → see h = tried.lockLane p i) ∧
      (state i = 3 → good h → see h = set fun l => { l with window := l.window <<< 1 }) ∧
      (state i = 3 → ¬good h →
        (popcount ((lane.window <<< 1) ||| 1) < 16 → see h = missed) ∧
        (16 ≤ popcount ((lane.window <<< 1) ||| 1) → see h = missed.lossOfLock p i)) ∧
      (state i = 4 → ¬good h ∨ (s.portH p).rxIdle = false → see h = s) ∧
      (state i = 4 → good h → (s.portH p).rxIdle = true →
        (lane.good < 15 → see h = rested) ∧
        (15 ≤ lane.good → see h = (rested.onLane p i fun l => { l with good := 0, window := 0 }).setLane p i 3)) ∧
      (state i ∉ [1, 2, 3, 4] → see h = s)) ∧
    (state i ≠ 3 → state i ≠ 4 → s.lossOfLock p i = s) ∧
    (state i = 3 ∨ state i = 4 →
      (limit = 1 → s.lossOfLock p i = lost.failLane p i 0) ∧
      (limit = 0 ∨ lane.losses + 1 < limit →
        (s.portUp p = true → i.val ∈ s.rxMap p → s.lossOfLock p i = lost.sendMapReq p) ∧
        (s.portUp p = false ∨ i.val ∉ s.rxMap p → s.lossOfLock p i = lost))) ∧
    (hunting → goes (.refFault p i) ((s.setLane p i 8).portMirror p)) ∧
    (¬hunting → goes (.refFault p i) s) ∧
    (s.portState p ≠ 1 ∨ s.aloneRef = true ∨ s.groupRuns p = false → goes (.acqLimitExpiry p) s) ∧
    (s.portState p = 1 → s.aloneRef = false → s.groupRuns p = true →
      (s.minWidth p ≤ left → goes (.acqLimitExpiry p) failed) ∧
      (left < s.minWidth p → goes (.acqLimitExpiry p) (failed.acquire p)) ∧
      ∀ l < 8, failed.laneState p l = if l ∈ late then 7 else state l)

/-- Ports whose group runs: ALIGN, which deskews, forms the receive map of an acquiring port, brings it UP once both maps are known and
usable, and applies a map; MAP and MAP_REQ; electrical idle of both directions, entered with five IDLE_ENTER blocks and left with a burst
of 31 or 1,023 TRAIN blocks and ALIGN; acknowledgements with their credits, and the replay of what was not acknowledged. -/
def Obligations.RelayPortCommands : Prop :=
  ∀ (s : State) (p : Port) (skew : Vector (BitVec 8) 8) (entries : BitVec 32) (bad spares : BitVec 8) (next credits : BitVec 24)
    (long : Bool), s.portState p ≠ 5 → s.groupRuns p = true →
    let sk (l : Nat) := (skew.toList.getD l 0).toNat
    let h := s.portH p
    let px := portIx p
    let goes (c : Instr) (u : State) := exec c s = .next u
    let good := lanes8.filter fun l => s.laneState p l == 3 && decide (sk l ≤ 31)
    let skewed := (lanes8.foldl (fun s l =>
      if s.laneState p l = 3 then s.put F.LANE_STAT.SKEW (sk l) (laneIx p l) else s) s).onPort p fun h =>
        { h with deskewed := BitVec.ofNat 8 (maskOf good) }
    let map := mapFrom good (s.flag F.PORT_CTRL.SPARE px)
    let word : BitVec 32 := BitVec.ofNat 32 (mapWord map)
    let formed : State := skewed.onPort p fun h => { h with rxMapNext := some word }
    let wide (w : BitVec 32) := s.minWidth p ≤ (mapLanes w.toNat).length
    let aligned := s.sendAlign p
    let switched := aligned.applyTxMap p
    let pending := switched.flag F.PORT_STAT.IDLE_PENDING px = true
    let entered (u : State) := (u.enterIdle p).portState p = 3 ∧
      (u.enterIdle p).sent = u.sent ++ List.replicate 5 (p.val, Block.idleEnter)
    let due := h.waitingTx ≠ [] ∨ h.waitBlocks ≠ [] ∨ h.exitLatched = true
    let left := (((s.burst p long).setPortState p 2).put F.PORT_STAT.IDLE_PENDING 0 px).onPort p fun h => { h with waitBlocks := [] }
    let sentOn := h.waitBlocks.foldl (fun s b => s.emit p b) left
    let old (f : TxFrame) : Bool := decide (0 < (next - f.seq).toNat) && decide ((next - f.seq).toNat < 2 ^ 23)
    let acked := s.onPort p fun h => { h with
      unacked := h.unacked.filter fun f => !old f
      credits := Vector.ofFn fun c => h.credits[c] + bitsOf credits (8 * c.val + 7) (8 * c.val) }
    let drained (u : State) := if u.portState p = 2 then u.drainAll p else u
    let limit := max 1 (s.fld F.CHAIN_LIMITS.REPLAY_LIMIT)
    (s.portState p = 1 →
      (skewed.mapsReady p = true → goes (.align p skew) (skewed.portReady p).settle) ∧
      (skewed.mapsReady p = false → map.length < s.minWidth p →
        goes (.align p skew) (skewed.onPort p fun h => { h with rxMapNext := none }).settle) ∧
      (skewed.mapsReady p = false → s.minWidth p ≤ map.length →
        goes (.align p skew) ((formed.emitTrain p).emit p (.map word)).settle)) ∧
    (skewed.mapsReady p = true ↔ ∃ r x, h.rxMapNext = some r ∧ h.txMapNext = some x ∧ wide r ∧ wide x ∧
      ∀ l ∈ mapLanes r.toNat, l ∈ good) ∧
    (s.portState p ≠ 1 → s.portUp p = false → goes (.align p skew) skewed.settle) ∧
    (s.portUp p = true → h.rxIdle = false → goes (.align p skew) ((skewed.applyRxMap p).mindMap p).settle) ∧
    (s.portUp p = true → h.rxIdle = true → (∀ l ∈ s.rxMap p, s.laneState p l = 3 ∧ sk l ≤ 31) →
      Completes State.settle (.align p skew) s fun u => (u.portH p).rxIdle = false ∧
        ∀ l < 8, u.laneState p l = if s.laneState p l = 4 then 2 else s.laneState p l) ∧
    (s.portState p = 1 → goes (.alignSend p) aligned.settle) ∧
    (s.portState p = 2 →
      (¬pending ∨ (switched.portH p).txMapNext ≠ none → goes (.alignSend p) switched.settle) ∧
      (pending → (switched.portH p).txMapNext = none → switched.portState p = 2 → (switched.portH p).waitingTx = [] →
        goes (.alignSend p) ((switched.put F.PORT_STAT.IDLE_PENDING 0 px).enterIdle p).settle)) ∧
    (s.portState p ≠ 1 → s.portState p ≠ 2 → goes (.alignSend p) s.settle) ∧
    (s.portState p = 1 → goes (.map p entries) (s.onPort p fun h => { h with txMapNext := some entries })) ∧
    (s.portUp p = true → goes (.map p entries) ((s.onPort p fun h => { h with rxMapNext := some entries }).mapPending p)) ∧
    (s.portUp p = false → goes (.mapReq p bad spares) s.settle) ∧
    (s.portUp p = true → h.txMapNext = none →
      goes (.mapReq p bad spares) (s.announceMap p (s.newTxMap p bad.toNat spares.toNat)).settle) ∧
    (s.portUp p = true → h.txMapNext ≠ none → goes (.mapReq p bad spares) ((s.onPort p fun h => { h with
      reqLatched := true
      badTx := if h.reqLatched then (h.badTx ||| bad) &&& ~~~spares else bad
      spareTx := spares }).put F.PORT_STAT.MAP_QUEUED 1 px).settle) ∧
    (s.portUp p = true → Completes id (.idleEnter p) s fun u => (u.portH p).rxIdle = true ∧
      ∀ l < 8, u.laneState p l = if s.laneState p l = 3 then 4 else s.laneState p l) ∧
    (s.portUp p = false → goes (.idleEnter p) s) ∧
    (s.portState p = 2 → s.fld F.PORT_CTRL.IDLE_AFTER px ≠ 0 → h.waitingTx = [] →
      (h.txMapNext ≠ none → goes (.idleAfterExpiry p) (s.put F.PORT_STAT.IDLE_PENDING 1 px)) ∧
      (h.txMapNext = none → goes (.idleAfterExpiry p) (s.enterIdle p))) ∧
    (s.portState p ≠ 2 ∨ s.fld F.PORT_CTRL.IDLE_AFTER px = 0 ∨ h.waitingTx ≠ [] → goes (.idleAfterExpiry p) s) ∧
    entered s ∧
    (∃ flags count places, (s.burst p long).sent =
      s.sent ++ List.replicate (if long then 1023 else 31) (p.val, Block.train flags) ++ [(p.val, Block.align count places)]) ∧
    (s.portState p = 3 → due →
      (h.exitLatched = true → goes (.idleExit p long) ((sentOn.sendAck p none).drainAll p)) ∧
      (h.exitLatched = false → goes (.idleExit p long) (sentOn.drainAll p))) ∧
    (s.portState p ≠ 3 ∨ ¬due → goes (.idleExit p long) s) ∧
    (s.portUp p = false →
      (∀ ok, goes (.ack p next credits ok) s ∧ goes (.nak p next credits ok) s.settle) ∧ goes (.replayTimeout p) s) ∧
    (s.portUp p = true →
      goes (.ack p next credits true) (drained acked) ∧ goes (.nak p next credits true) (drained (acked.resend p)).settle ∧
      goes (.ack p next credits false) s ∧ goes (.nak p next credits false) s.settle ∧
      (h.unacked = [] → goes (.replayTimeout p) s) ∧
      (h.unacked ≠ [] → goes (.replayTimeout p) (s.resend p).settle)) ∧
    ((∃ f ∈ h.unacked, s.mayCarry p f = true ∧ limit ≤ f.sends) →
      s.resend p = (s.put F.LINK_STAT.EXHAUSTED 1 [p]).portDown p) ∧
    ((∀ f ∈ h.unacked, s.mayCarry p f = true → f.sends < limit) → s.portState p = 2 →
      let again := (h.unacked.filter fun f => s.mayCarry p f).map fun f => { f with sends := f.sends + 1 }
      let u := s.resend p
      (u.portH p).unacked = h.unacked.map (fun f => if s.mayCarry p f then { f with sends := f.sends + 1 } else f) ∧
        u.sent = s.sent ++ again.map (fun f => (p.val, Block.frame f)) ∧
        u.fld F.LINK_STAT.REPLAYS [p] = satAdd (F.LINK_STAT.REPLAYS.hi + 1 - F.LINK_STAT.REPLAYS.lo)
          (s.fld F.LINK_STAT.REPLAYS [p]) again.length)

/-- Frames as they arrive at a port whose group runs: a port that is down takes none; a bad CRC, a tag that fails or lacks a key, or a SEQ
out of order is not accepted; a frame that is accepted is acknowledged and acted on where it is addressed, or forwarded. -/
def Obligations.FrameReception : Prop :=
  ∀ (s : State) (p : Port) (f : Sys2Proof.Frm) (g : TokenGroup) (b : Baton) (bridge : Fin 64) (pos : BitVec 32) (item : Item)
    (credits : BitVec 16) (highest : BitVec 32) (hello : Hello) (data : List Byte) (last : Bool),
    s.portState p ≠ 5 → s.groupRuns p = true →
    let up := s.portUp p = true
    let lap : List (Instr × Fin 3 × FrameBody) :=
      [(.token p f g, 0, .token g), (.ready p f b, 1, .baton 1 b), (.go p f b, 1, .baton 2 b), (.done p f b, 1, .baton 3 b),
        (.commit p f b, 1, .baton 4 b), (.scratch p f b, 1, .baton 5 b), (.query p f b, 1, .baton 6 b),
        (.flowItem p f bridge pos item, 2, .flowItem bridge pos item),
        (.flowCredit p f bridge credits highest, 2, .flowCredit bridge credits highest)]
    let every := lap.map (fun x => (x.1, x.2.1)) ++ [(.hello p f hello, 2), (.boot p f data last, 2)]
    let owed := (s.portH p).owed.toList
    let nak (u : State) : State := if (s.portH p).nakSent then u else
      (u.onPort p fun h => { h with nakSent := true, owed := Vector.replicate 3 0 }).offer p (.nak (s.portH p).rxSeq owed)
    let accepted (c : Fin 3) : State := (s.onPort p fun h => { h with rxSeq := h.rxSeq + 1, nakSent := false }).sendAck p (some c)
    let sealed_ := f.tagOk = true ∧ (s.portH p).rxKey ≠ none
    let ordered := f.crcOk = true ∧ sealed_ ∧ f.seq = (s.portH p).rxSeq
    let behind := ((s.portH p).rxSeq - f.seq).toNat
    let carries (body : FrameBody) := s.carriesLap p = true ∧ s.roleCarries p body = true
    (∀ c ∈ every,
      (¬up → exec c.1 s = .next s.settleV) ∧
      (up → f.crcOk = false → exec c.1 s = .next (nak (s.count F.LINK_STAT.CRC_ERR [p])).settleV) ∧
      (up → f.crcOk = true → ¬sealed_ → exec c.1 s = .next (s.tagFailure p).settleV) ∧
      (up → f.crcOk = true → sealed_ → f.seq ≠ (s.portH p).rxSeq →
        (behind < 2 ^ 23 → exec c.1 s = .next (s.sendAck p none).settleV) ∧
        (2 ^ 23 ≤ behind → exec c.1 s = .next (nak s).settleV))) ∧
    (∀ c ∈ lap, up → ordered →
      (¬carries c.2.2 → exec c.1 s = .next (accepted c.2.1).settleV) ∧
      (carries c.2.2 → f.dst.toNat ≠ s.selfId →
        exec c.1 s = .next ((accepted c.2.1).forwardFrom f.src.toNat f.dst.toNat c.2.2).settleV)) ∧
    (s.carriesLap p = true ↔ s.chainMode ≠ 0 ∧ s.lapReady p = true ∧ s.enrolled p = true) ∧
    (∀ k, s.roleCarries p (.baton k b) = true ↔ s.portRole p = 1 ∨ s.portRole p = 2) ∧
    (up → ordered → s.enrolled p = false →
      exec (.hello p f hello) s = .next (accepted 2).settleV ∧ exec (.boot p f data last) s = .next (accepted 2).settleV) ∧
    (¬up → exec (.alive p f) s = .next s) ∧
    (up → ordered → exec (.alive p f) s = .next (accepted 1))

/-- What frames accepted and addressed here do, on a port in use whose group runs: tokens are stored, batons move the barrier, the
decision reaches the members, bridged items and credits arrive; a frame of the device's own for itself is delivered when no command
waits; ALIVE is sent; and a baton limit that runs out takes the partner as lost. -/
def Obligations.ChainFrameCommands : Prop :=
  ∀ (s : State) (p : Port) (f : Sys2Proof.Frm) (g : TokenGroup) (b : Baton) (n : Fin 64) (pos : BitVec 32) (item : Item)
    (credits : BitVec 16) (highest : BitVec 32) (hello : Hello) (data : List Byte) (last : Bool), s.portUp p = true →
    s.groupRuns p = true → f.crcOk = true → f.tagOk = true → (s.portH p).rxKey ≠ none → f.seq = (s.portH p).rxSeq →
    let a (c : Fin 3) : State := (s.onPort p fun h => { h with rxSeq := h.rxSeq + 1, nakSent := false }).sendAck p (some c)
    let here := s.carriesLap p = true ∧ f.dst.toNat = s.selfId
    let goes (c : Instr) (u : State) := exec c s = .next u.settleV
    let child := here ∧ s.portRole p = 2
    let parent := here ∧ s.portRole p = 1
    let tree := here ∧ (s.portRole p = 1 ∨ s.portRole p = 2)
    let thisLap := b.lap = s.lapNext ∧ b.attempt = s.chain.attempt
    let attempt (u : State) : State := { u with chain := { u.chain with attempt := b.attempt } }
    let decided : State := (((a 1).batonDown 5 b).put F.CHAIN_STAT.UNDECIDED 0).put F.CHAIN_STAT.ORIGIN b.origin.toNat
    let awaited := s.fab.phase = .goWait ∨ (thisLap ∧ (s.fab.phase = .steps ∨ s.fab.phase = .gatherDue ∨ s.fab.phase = .undecided))
    let told : State := if b.halt then ((a 1).batonDown 4 b).put F.CHAIN_STAT.ORIGIN b.origin.toNat else (a 1).batonDown 4 b
    let br := s.bridge n
    let q := s.bridgeQ n
    let lost : State := s.put F.LINK_STAT.ALIVE_LOST 1 [p]
    let loses (u : State) := exec (.batonLimitExpiry p) s = .next u.settleV
    let mine (u : State) : State := u.put F.CHAIN_STAT.ORIGIN u.selfId
    let live := s.fab.phase ≠ .halted ∧ s.fab.phase ≠ .goWait
    let boots := s.enrolled p = true ∧ s.ref.straps.boot = 1 ∧ s.bootOpen = true
    (here → goes (.token p f g) ((a 0).acceptGroup g)) ∧
    (child → goes (.ready p f b) (({ a 1 with chain := { s.chain with
      readyFrom := s.chain.readyFrom.filter (fun r => r.1 != p.val) ++ [(p.val, b)] } } : State).barrierStart)) ∧
    (parent → s.fab.phase = .goWait → goes (.go p f b) (attempt ((a 1).batonDown 2 b)).lapsStart) ∧
    (parent → s.fab.phase = .retryWait → goes (.go p f b) (attempt ((a 1).batonDown 2 b)).retryBegin) ∧
    (parent → s.fab.phase ≠ .goWait → s.fab.phase ≠ .retryWait → goes (.go p f b) (a 1)) ∧
    (child → s.lapsRun = true → thisLap → goes (.done p f b) (({ a 1 with chain := { s.chain with
      doneFrom := s.chain.doneFrom.filter (fun r => r.1 != p.val) ++ [(p.val, b)] } } : State).earlyReports)) ∧
    (child → s.lapsRun = false ∨ ¬thisLap → goes (.done p f b) (a 1)) ∧
    (parent → thisLap → s.fab.phase = .undecided ∨ (s.fab.phase = .steps ∧ s.chain.doneSent = true) →
      goes (.commit p f b) (((told.put F.CHAIN_STAT.UNDECIDED 0).put F.CHAIN_STAT.STATE 2).commitLap
        (some (if b.halt then b.hcause else 0)))) ∧
    (parent → ¬thisLap ∨ (s.fab.phase ≠ .undecided ∧ (s.fab.phase ≠ .steps ∨ s.chain.doneSent = false)) →
      goes (.commit p f b) (a 1)) ∧
    (parent → awaited →
      (b.withdrawn = true → goes (.scratch p f b) (decided.withdrawLap b.hcause)) ∧
      (b.withdrawn = false → b.retry = true →
        goes (.scratch p f b) ((decided.scratchNow b.scause none true).put F.CHAIN_STAT.STATE 3)) ∧
      (b.withdrawn = false → b.retry = false →
        goes (.scratch p f b) ((decided.noteScratch b.scause none).discardLap.haltLaps b.hcause true))) ∧
    (parent → ¬awaited → goes (.scratch p f b) (a 1)) ∧
    (child → goes (.go p f b) (a 1) ∧ goes (.commit p f b) (a 1) ∧ goes (.scratch p f b) (a 1)) ∧
    (parent → goes (.ready p f b) (a 1) ∧ goes (.done p f b) (a 1)) ∧
    (tree → (∀ kind d, s.chain.lastDecision = some (kind, d) → s.chainMode = 1 → d.lap = b.lap → d.attempt = b.attempt →
        goes (.query p f b) ((a 1).forward f.src.toNat (.baton kind d))) ∧
      (s.chain.lastDecision = none ∨ s.chainMode ≠ 1 → goes (.query p f b) (a 1))) ∧
    (here → s.bridgeEn n = true → s.bridgeIn n = true → (br.started = true → br.nextPos = pos) → br.granted ≠ 0 →
      s.credits q ≠ 0 → goes (.flowItem p f n pos item)
        ((((a 2).pushCell q item).onBridge n fun br =>
          { br with started := true, nextPos := pos + 1, granted := br.granted - 1 }).pumpIn n true)) ∧
    (here → s.bridgeEn n = false ∨ s.bridgeIn n = false ∨ (br.started = true ∧ br.nextPos ≠ pos) ∨ br.granted = 0 ∨
      s.credits q = 0 → goes (.flowItem p f n pos item) (a 2)) ∧
    (here → s.bridgeEn n = true → s.bridgeIn n = false →
      let acked := (br.unacked.filter fun u => decide ((highest - u.1).toNat < 2 ^ 31)).length
      let u := ((a 2).onBridge n fun br =>
        { br with granted := br.granted + credits.toNat, unacked := br.unacked.drop acked }).popMany q acked
      goes (.flowCredit p f n credits highest) (u.pumpOut n (u.bridge n).granted)) ∧
    (here → s.bridgeEn n = false ∨ s.bridgeIn n = true → goes (.flowCredit p f n credits highest) (a 2)) ∧
    (∀ x rest, s.ownFrames = x :: rest →
      s.deliverOwn = (({ s with ownFrames := rest } : State).routeFrame none x.1 x.1 x.2).settleV) ∧
    (∀ d body, (d = s.selfId → s.forward d body = { s with ownFrames := s.ownFrames ++ [(BitVec.ofNat 12 d, body)] }) ∧
      (d ≠ s.selfId → s.routeTo d = none → s.forward d body = s.count F.CHAIN_STAT.FWD_DROP)) ∧
    (s.enrolled p = true → goes (.hello p f hello) (((a 2).applyHello p hello).serveBoot p hello)) ∧
    (boots → last = true → goes (.boot p f data last) (({ a 2 with ref := { s.ref with
      bootRelay := s.ref.bootRelay.filter fun x => x.1 != p.val } } : State).bootVerify (s.bootBytes p ++ data))) ∧
    (boots → last = false → goes (.boot p f data last) { a 2 with ref := { s.ref with
      bootRelay := (s.ref.bootRelay.filter fun x => x.1 != p.val) ++ [(p.val, s.bootBytes p ++ data)] } }) ∧
    (live → s.portRole p = 1 ∨ s.portRole p = 2 → s.carriesLap p = true →
      exec (.aliveSend p) s = .next (s.sendFrame p (s.fld F.CHAIN_PORT.PEER_ID [p]) (.baton 7 s.baton))) ∧
    (¬live ∨ s.carriesLap p = false → exec (.aliveSend p) s = .next s) ∧
    (s.chainMode = 0 ∨ s.portRole p = 0 ∨ ¬live → loses s) ∧
    (s.chainMode ≠ 0 → live →
      (s.portRole p = 1 → s.fab.phase = .steps →
        (s.chain.doneSent = true → loses lost.holdUndecided) ∧
        (s.chain.doneSent = false → s.fab.committing = false → loses ((mine lost).scratchNow 6 none false))) ∧
      (s.portRole p = 1 → s.fab.phase = .retryWait → loses ((mine lost).haltLaps 6 true)) ∧
      (s.portRole p ≠ 0 → s.fab.phase = .undecided → loses lost) ∧
      (s.portRole p ≠ 0 → s.portRole p ≠ 1 → s.fab.phase = .steps ∨ s.fab.phase = .gatherDue → loses (lost.scratch 6)))

/-- Enrolment of a port by its authentication HELLO, in time or not, with the link keys of both directions; vault verdicts, which free or
fail what waits for the line and seal below a bad node; zeroisation; and what a failed proof does to the counts of the lockout. How many
failures lie within the last minute is free (notes/assumptions 44): below eight in all, none locks out. -/
def Obligations.SecurityCommands : Prop :=
  ∀ (s : State) (p : Port) (nonce : W64) (hello : Hello) (k : Fin 64) (path : RPath) (n : Fin 64) (line : Nat),
    let auth (x : Option (Fin 64)) (u : State) := exec (.authenticationHello p nonce hello x) s = .next u.settleV
    let heard := s.portState p ≠ 5 ∧ s.groupRuns p = true
    let took : State := (s.onPort p fun h => { h with rxSeq := h.rxSeq + 1, nakSent := false }).sendAck p (some 2)
    let member (u : State) : State :=
      (((u.put F.SEC_PORTS.ENROLLED (u.fld F.SEC_PORTS.ENROLLED ||| 2 ^ p.val)).onPort p fun h =>
        { h with partner := some k }).deriveKeys p k nonce)
    let known := s.flag F.ROSTER.VALID [k] = true ∧ (s.fld F.ROSTER.PORTS [k]).testBit p = true
    let awaits := s.portUp p = true ∧ s.enrolled p = false ∧ s.unenrolled p = false
    let mine := (((s.portH p).helloNonces.find? fun x => x.1 == k.val).map fun x => x.2).getD 0
    let l := s.regionBase n / 64 + line
    let pending := l ∈ s.vault.pendingLines
    let scrubbed := (s.recordOp path 5 0x400 0 0 true).securityScratch.zeroiseVault.reauthenticate.closePrivileged
    let bare := s.zeroiseVault
    (heard → awaits → known → auth (some k) ((((member took).applyHello p hello).serveBoot p hello).drainUp p)) ∧
    (heard → awaits → ¬known → auth (some k) took) ∧
    (heard → s.portUp p = true → s.enrolled p = true → s.unenrolled p = false → auth (some k) took) ∧
    (heard → s.portUp p = true → s.unenrolled p = false → auth none took) ∧
    (heard → s.portUp p = false ∨ s.unenrolled p = true → auth (some k) s ∧ auth none s) ∧
    (s.portState p ≠ 5 → s.groupRuns p = false → auth (some k) s ∧ auth none s) ∧
    (∀ e, s.ref.roster.find? (fun x => x.1 == k.val) = some e →
      let h := (s.deriveKeys p k nonce).portH p
      let prk := linkPrk e.2.agrPub
      let low := bytesLess (digestBytes idDigest) (digestBytes (keyDigest (keyBytes e.2.idPub)))
      h.nonceTx = 1 ∧
        (low = true → h.txKey = some (linkKey prk mine nonce false) ∧ h.rxKey = some (linkKey prk mine nonce true)) ∧
        (low = false → h.txKey = some (linkKey prk nonce mine true) ∧ h.rxKey = some (linkKey prk nonce mine false))) ∧
    (awaits → exec (.enrolmentTimeout p) s = .next (s.unenroll p).settleV) ∧
    (¬awaits → exec (.enrolmentTimeout p) s = .next s) ∧
    (∀ tagOk badNode,
      let verdict (u : State) := exec (.vaultVerdict n line tagOk badNode) s = .next u.settleV
      let bad := badNode.orElse fun _ => s.badPath n line
      let seen := s.cachePath n line
      (¬pending → verdict s) ∧
      (pending → bad = none →
        (tagOk = true → s.lineTagOk n line l = true → verdict (((seen.loadsOf l .ok).chansOf l .ok).dropVerdict l)) ∧
        (tagOk = false ∨ s.lineTagOk n line l = false → verdict (seen.tagFailed l))) ∧
      (pending → ∀ level node, bad = some (level, node) →
        (level = 0 ∨ line / 8 ^ level ≠ node → verdict s) ∧
        (level ≠ 0 → line / 8 ^ level = node →
          verdict (((s.tally 24 0x305).seal n level node).lineFails l .regionSealed)))) ∧
    (let r := s.opZeroise path
     r.resp = .ok ∧ r.payload = [] ∧ r.st = (scrubbed.put F.SEC_STAT.ZEROISED 1).alarm 5) ∧
    bare.vault.data = [] ∧ bare.vault.counters = [] ∧ bare.vault.draws = [] ∧ bare.vault.versions = [] ∧ bare.vault.cache = [] ∧
    bare.hostmem = s.hostmem ∧ (∀ j : Fin 32, bare.reg .SEAL [j] = 0) ∧
    (∀ j : Fin 64, (s.fld F.VR_STAT.STATE [j] = 0 → bare.reg .VR_STAT [j] = s.reg .VR_STAT [j]) ∧
      (s.fld F.VR_STAT.STATE [j] ≠ 0 → bare.reg .VR_STAT [j] = 3)) ∧
    (let u := s.authFailed
     u.fld F.SEC_STAT.AUTH_FAIL = satAdd (F.SEC_STAT.AUTH_FAIL.hi + 1 - F.SEC_STAT.AUTH_FAIL.lo) (s.fld F.SEC_STAT.AUTH_FAIL) 1 ∧
       (s.flag F.SEC_STAT.LOCKOUT = true ∨ s.ref.authFails < 7 → u.flag F.SEC_STAT.LOCKOUT = s.flag F.SEC_STAT.LOCKOUT))

/-- The vault in host memory: it holds a line's plaintext under the keystream of the line's counter; what the engine has written
verifies; a write from outside stands in host memory as it came, and there alone. A device write that the tree or the tag does not stop
reads back, keeps the words beside it, raises each line's counter and the mark of the region, and leaves a tag that fits; a node that
fails, or a counter at its end, refuses it with REGION_SEALED, and a part of a line whose tag has failed with TAG_FAILED. Verified nodes are
cached, so that they need no second verification. -/
def Obligations.VaultMemory : Prop :=
  ∀ (s : State) (n : Fin 64) (tw h i line w v : Nat) (q : Quad) (qs : List Quad),
    let len := 16 * qs.length
    let lines := linesOf h len
    let own (w : Nat) := s.vault.foreign.contains w = false
    let put := s.hostPut w q
    let bumped := s.bumpLine n line
    let stored := s.vaultStore n h qs
    (own w → s.vaultPlace w = some (.line n) → s.hostRaw w ^^^ s.keystream n w = Sparse.read s.vault.data w) ∧
    (s.untouched (s.tagAddr n i / 16 :: wordsOfLine line) = true → s.lineTagOk n i line = true) ∧
    (∀ k j, s.untouched (wordsOfLine (s.nodeAddr n k j / 64)) = true → s.nodeTagOk n k j = true) ∧
    (put.hostRaw w = q ∧ (v ≠ w → put.hostRaw v = s.hostRaw v)) ∧
    (s.lineCounter n line + 1 < 2 ^ 56 → bumped.lineCounter n line = s.lineCounter n line + 1 ∧
      s.lineCounter n line + 1 ≤ bumped.fld F.VR_STAT.HWM [n]) ∧
    (h % 16 = 0 →
      (∀ j, (hj : j < qs.length) → stored.vaultWord n (h / 16 + j) = qs[j]) ∧
      (own v → v < h / 16 ∨ h / 16 + qs.length ≤ v → stored.vaultWord n v = s.vaultWord n v)) ∧
    (line ∈ lines → own (s.tagAddr n i / 16) → stored.lineTagOk n i line = true) ∧
    (s.devRefusal tw h len true = none → s.vaultOf h len true = some n.val →
      (∀ l ∈ lines, s.lineStop n l = none) →
        ((∀ l ∈ lines, s.partFails n h len l = false) → s.hostWrite tw h qs = (.ok, stored)) ∧
        ((∃ l ∈ lines, s.partFails n h len l = true) → s.hostWrite tw h qs =
          (.tagFailed, { s with vault := { s.vault with alarmDue := s.vault.alarmDue ++ [3] } }))) ∧
    (s.devRefusal tw h len true = none → s.vaultOf h len true = some n.val → (∃ l ∈ lines, s.lineStop n l ≠ none) →
      (s.hostWrite tw h qs).1 = .regionSealed ∧ (s.hostWrite tw h qs).2.vault.data = s.vault.data) ∧
    (s.devRefusal tw h len true = none → s.vaultOf h len true = none → s.hostWrite tw h qs = (.ok, s.hostPuts (h / 16) qs)) ∧
    (s.badPath n i = none → (s.cachePath n i).badPath n i = none) ∧
    ((s.badPath n (s.lineOf n (line * 64)) = none → s.lineCounter n line + 1 < 2 ^ 56 → s.lineStop n line = none) ∧
      (s.badPath n (s.lineOf n (line * 64)) = none → 2 ^ 56 ≤ s.lineCounter n line + 1 →
        s.lineStop n line = some (1, s.lineOf n (line * 64) / 8)))

/-- Sessions. An operation that sets reserved bits of ARG, or names no session, is DECODE_ERROR; only a sideband or the management port
acts on another session than its own, and a program on none. Where OPER_AUTH is 0 the operator's role is bound at once, without a
challenge; the others are given one, which a proof must answer. While no installer credential is held CLAIMED is 0, the installer's role
is refused, and SESSION_CLAIM over the management port, and over no other path, writes installer credential 0 and binds the SMBus session;
once it is 1, SESSION_CLAIM is refused. A challenge expires, and a lockout ends. -/
def Obligations.SessionOperations : Prop :=
  ∀ (s : State) (path : RPath) (a : W64) (payload : List Byte) (ix : Fin 69),
    let rec_ (u : State) := u.recordOp path 4 (sessionObject ix) 0 0
    let plain := argReserved a = false
    let may := s.mayTarget path (argTarget a) = true
    let target := plain ∧ may ∧ sessIx (argTarget a) = some ix.val
    let role := argRole a
    let valid := credOk role (argSlot a) = true
    let stripped : State := (s.dropChallenge ix).put F.SESS.PENDING 0 [ix]
    let answers (r : Reply) (x : Resp) (u : State) : Prop := r.resp = x ∧ r.payload = [] ∧ r.st = u
    let opens := s.opSessionOpen path a
    let proves := s.opSessionProve path a payload
    let closes := s.opSessionClose path a
    let claims := s.opSessionClaim path a payload
    let refused := role = 1 ∧ s.claimed = false ∨ role ≠ 0 ∧ s.flag F.SEC_STAT.LOCKOUT = true
    ((∃ c ∈ s.ref.challenges, c.sess = ix.val) → exec (.challengeExpiry ix) s = .next stripped) ∧
    ((∀ c ∈ s.ref.challenges, c.sess ≠ ix.val) → exec (.challengeExpiry ix) s = .next s) ∧
    exec .lockoutEnd s = .next (s.put F.SEC_STAT.LOCKOUT 0) ∧
    (argReserved a = true ∨ may ∧ sessIx (argTarget a) = none →
      answers opens .decodeError s ∧ answers proves .decodeError s ∧ answers closes .decodeError s) ∧
    (plain → ¬may → answers opens .roleDenied s.denied ∧ answers proves .roleDenied s.denied ∧ answers closes .roleDenied s.denied) ∧
    (∀ e, s.mayTarget (.tell e) (argTarget a) = false) ∧
    (target → answers closes .ok ((rec_ s).closeSession ix)) ∧
    (target →
      (¬valid → answers opens .decodeError s) ∧
      (valid → refused → answers opens .roleDenied s.denied) ∧
      (valid → role = 0 → s.flag F.SEC_CTRL.OPER_AUTH = false → answers opens .ok ((rec_ s).bindSession ix .operator)) ∧
      (valid → ¬refused → role ≠ 0 ∨ s.flag F.SEC_CTRL.OPER_AUTH = true →
        opens.resp = .ok ∧ opens.payload = bytesOf 48 s.random48.toNat ∧ opens.st.flag F.SESS.PENDING [ix] = true ∧
          ⟨ix.val, a, s.random48⟩ ∈ opens.st.ref.challenges) ∧
      (¬valid ∨ proofLength role payload.length = false → answers proves .decodeError s) ∧
      (valid → proofLength role payload.length = true →
        ((∀ c ∈ s.ref.challenges, c.sess ≠ ix.val) → answers proves .bankNotOwned s) ∧
        ∀ c, s.ref.challenges.find? (fun c => c.sess == ix.val) = some c →
          (s.proofOk c a payload = true → answers proves .ok ((rec_ stripped).bindSession ix (roleOfCode role))) ∧
          (s.proofOk c a payload = false → answers proves .roleDenied stripped.authFailed))) ∧
    ((s.regView .SEC_STAT []).getLsbD F.SEC_STAT.CLAIMED.lo = s.claimed) ∧
    (s.claimed = true ↔ ∃ c : Fin 4, s.flag F.CRED.VALID [c] = true) ∧
    (plain →
      (path ≠ .smbus ∨ s.claimed = true → answers claims .roleDenied s.denied) ∧
      (path = .smbus → s.claimed = false → payload.length ≠ 96 → answers claims .decodeError s) ∧
      (path = .smbus → s.claimed = false → payload.length = 96 → answers claims .ok
        (((s.storeKey 8 .CRED 0 payload).recordOp path 4 (sessionObject 68) 0 0 true).bindSession 68 .installer) ∧
          Sparse.read claims.st.ref.keys 8 = keyAt payload 0 ∧ claims.st.claimed = true ∧
          claims.st.reg .SESS [68] = 0x101))

/-- Messages to the Referee. With both copies failed none is answered. A second message on a sideband whose message is outstanding is
BANK_NOT_OWNED; a mailbox slot that no session holds sends none. A message whose form is not an operation's is DECODE_ERROR, and one
whose session is unbound, or whose role lacks the right, is ROLE_DENIED; the answer leaves on the message's path. -/
def Obligations.RefereeMessages : Prop :=
  ∀ (s : State) (path : RPath) (tag : BitVec 16) (arg : W64) (payload : List Byte) (t : Tower) (layer : Fin 8) (e : Eng),
    let reset (n : Nat) : W64 := BitVec.ofNat 64 n
    let messages : List (Instr × Nat × W64 × List Byte) :=
      [(.readId path tag arg, 0x01, arg, []), (.readBb path tag arg, 0x02, arg, []), (.readEnv path tag arg, 0x03, arg, []),
        (.forceOff path tag arg, 0x04, arg, []), (.resetPackage path tag, 0x05, reset 1, []),
        (.resetTower path tag t, 0x05, reset (2 + 16 * t), []),
        (.resetLayer path tag t layer, 0x05, reset (3 + 16 * t + 256 * layer), []),
        (.resetEngine path tag e, 0x05, reset (4 + 65536 * e), []), (.freeze path tag arg, 0x06, arg, []),
        (.dumpEngine path tag arg, 0x07, arg, []), (.thawEngine path tag arg, 0x08, arg, []),
        (.zeroise path tag arg, 0x09, arg, []), (.sessionOpen path tag arg, 0x10, arg, []),
        (.sessionProve path tag arg payload, 0x11, arg, payload), (.sessionClose path tag arg, 0x12, arg, []),
        (.sessionClaim path tag arg payload, 0x13, arg, payload), (.powerRestore path tag arg, 0x14, arg, []),
        (.mcLoad path tag arg, 0x15, arg, []), (.bootImage path tag arg, 0x16, arg, []), (.testUnlock path tag arg, 0x17, arg, []),
        (.fuseProgram path tag arg payload, 0x18, arg, payload), (.setTime path tag arg payload, 0x19, arg, payload),
        (.residentReload path tag arg, 0x1A, arg, [])]
    let marked : State := match path with
      | .sideband m => { s with ref := { s.ref with vdmOutstanding := setBits s.ref.vdmOutstanding m m 1 } }
      | .mailbox k => { s with ref := { s.ref with slots := s.ref.slots.set k { s.ref.slots[k] with state := 1 } } }
      | _ => s
    let served : Prop := s.ref.bothFailed = false ∧ (∀ m, path = .sideband m → s.ref.vdmOutstanding.getLsbD m = false) ∧
      ∀ k, path = .mailbox k → s.ref.slots[k].owner ≠ none
    ∀ x ∈ messages,
      let answered (r : Reply) (u : State) :=
        exec x.1 s = .next (u.sendAnswer (replyAnswer path x.2.1 tag x.2.2.1 { r with st := u })).settleV
      let form := opForm path x.2.1 x.2.2.1 x.2.2.2
      let session := 0x10 ≤ x.2.1 ∧ x.2.1 ≤ 0x13
      (s.ref.bothFailed = true → exec x.1 s = .next s.settleV) ∧
        (∀ m, path = .sideband m → s.ref.bothFailed = false → s.ref.vdmOutstanding.getLsbD m = true → exec x.1 s =
          .next ({ s with ref := { s.ref with
            answers := s.ref.answers ++ [replyAnswer path x.2.1 tag x.2.2.1 s.notNow] } } : State).settleV) ∧
        (∀ k, path = .mailbox k → s.ref.bothFailed = false → s.ref.slots[k].owner = none → exec x.1 s = .next s.settleV) ∧
        (served →
          (form = false → answered s.badArg marked) ∧
          (form = true → ¬session → s.pathRole path = none → answered s.deny marked.denied) ∧
          (∀ r, form = true → s.pathRole path = some r → opRight x.2.1 x.2.2.1 r = false → answered s.deny marked.denied))

/-- The Referee's operations under a session or program that may ask for them: readings, power, resets, freezing and dumping engines,
images, fuses and time, each with its answer. -/
def Obligations.RefereeOperations : Prop :=
  ∀ (s : State) (path : RPath) (tag : BitVec 16) (arg : W64) (payload : List Byte) (role : Role) (t : Tower) (layer : Fin 8)
    (e : Eng), s.ref.bothFailed = false → (∀ m, path = .sideband m → s.ref.vdmOutstanding.getLsbD m = false) →
    (∀ k, path = .mailbox k → s.ref.slots[k].owner ≠ none) →
    let m : State := match path with
      | .sideband m => { s with ref := { s.ref with vdmOutstanding := setBits s.ref.vdmOutstanding m m 1 } }
      | .mailbox k => { s with ref := { s.ref with slots := s.ref.slots.set k { s.ref.slots[k] with state := 1 } } }
      | _ => s
    let may (op : Nat) (a : W64) (pay : List Byte) :=
      opForm path op a pay = true ∧ s.pathRole path = some role ∧ opRight op a role = true
    let answers (c : Instr) (op : Nat) (a : W64) (r : Reply) :=
      exec c s = .next (r.st.sendAnswer (replyAnswer path op tag a r)).settleV
    let waits (c : Instr) (u : State) := exec c s = .next u.settleV
    let first := bitsOf arg 63 32
    let area := if first < ringRecords then ringRecords else ringRecords + pinnedRecords
    let d := bitsOf arg 5 0
    let now := dumpEng arg
    let asked (u : State) : Nat := ((u.pathRole path).map roleCode).getD 0
    let scope (n : Nat) : W64 := BitVec.ofNat 64 n
    let aTower := scope (2 + 16 * t)
    let aLayer := scope (3 + 16 * t + 256 * layer)
    let aEngine := scope (4 + 65536 * e)
    let recorded (a : W64) : State := m.recordOp path 7 a 0 0
    let inReset (t : Nat) : Bool := s.inTowerReset t
    let queued (a : W64) : State := { m with ref := { m.ref with resetWaits := m.ref.resetWaits ++ [(path, tag, a)] } }
    let towers := recorded aTower
    let restored : State := ({ m with ref := { m.ref with powerLock := false } } : State).recordOp path 8 0 8 0
    let unlocked : State := m.recordOp path 0x12 0 0 0 true
    let word := leField payload 0 4
    let value : BitVec 32 := BitVec.ofNat 32 (leField payload 4 4)
    let fused : State := m.recordOp path 0x12 (BitVec.ofNat 64 word) (value.setWidth 64) 0 true
    let layerOff := (layerDomains t layer).all fun d => s.pd d == 0
    let layerHeld := s.ref.resets.any fun r => r.tower.val == t && r.layer == some layer.val
    (may 1 arg [] → answers (.readId path tag arg) 1 arg (m.done (wordBytes [sbId, BitVec.ofNat 64 s.ref.sbState] ++
      bytesOf 48 idDigest.toNat ++
        wordBytes [m.regView .LAP_STAT [], m.regView .LAP_COUNT [], m.regView .SEC_STAT [], m.regView .REF_STAT []]))) ∧
    (may 2 arg [] → answers (.readBb path tag arg) 2 arg
      (m.done ((List.range (min 4 (area - first))).flatMap fun k => m.bbAt (first + k)))) ∧
    (may 3 arg [] → answers (.readEnv path tag arg) 3 arg (m.spend.done (wordBytes
      ([m.regView .PKG_INPUT [], m.regView .PKG_CAP [], m.regView .PKG_THERM []] ++
        (List.range 4).flatMap fun t => [m.regView .TPWR_STAT [t], m.regView .TWR_TMAX [t]])))) ∧
    (may 4 arg [] → answers (.forceOff path tag arg) 4 arg ((m.recordOp path 8 (BitVec.ofNat 64 d) 0 0).cutOff d).done) ∧
    (may 5 1 [] →
      (s.ref.packageBusy = true → waits (.resetPackage path tag) (queued 1)) ∧
      (s.ref.packageBusy = false → answers (.resetPackage path tag) 5 1 ((recorded 1).packageReset).done)) ∧
    (may 5 aTower [] →
      (inReset t = true → waits (.resetTower path tag t) (queued aTower)) ∧
      (inReset t = false → answers (.resetTower path tag t) 5 aTower (towers.towerReset t).done)) ∧
    (6 ≤ layer.val → answers (.resetLayer path tag t layer) 5 aLayer m.badArg) ∧
    (may 5 aLayer [] →
      (inReset t = true ∨ (layer.val ≠ 0 ∧ layerHeld = true) → waits (.resetLayer path tag t layer) (queued aLayer)) ∧
      (inReset t = false → layer.val = 0 →
        answers (.resetLayer path tag t layer) 5 aLayer ((recorded aLayer).towerReset t).done) ∧
      (inReset t = false → layer.val ≠ 0 → layerHeld = false →
        (layerOff = true → answers (.resetLayer path tag t layer) 5 aLayer { resp := .domainOff, st := m }) ∧
        (layerOff = false →
          answers (.resetLayer path tag t layer) 5 aLayer ((recorded aLayer).beginLayer t layer).done))) ∧
    (may 5 aEngine [] →
      (inReset (e.val / 4) = true → waits (.resetEngine path tag e) (queued aEngine)) ∧
      (inReset (e.val / 4) = false → answers (.resetEngine path tag e) 5 aEngine
        ((m.recordOp path 0x0F (BitVec.ofNat 64 e.val) 0 0).resetEngine e).done)) ∧
    (may 6 arg [] → answers (.freeze path tag arg) 6 arg
      (if s.lapsRun then { m with fab := { m.fab with stopAsked := true } } else m : State).done) ∧
    (may 7 arg [] →
      ((s.eng now).waiting = none → waits (.dumpEngine path tag arg) (m.dumpNow path tag arg false)) ∧
      ((s.eng now).waiting ≠ none → path = .tell now → waits (.dumpEngine path tag arg) (m.dumpNow path tag arg true)) ∧
      ((s.eng now).waiting ≠ none → path ≠ .tell now → (s.eng now).frozen = true →
        waits (.dumpEngine path tag arg) (m.dumpNow path tag arg false)) ∧
      ((s.eng now).waiting ≠ none → path ≠ .tell now → (s.eng now).frozen = false → waits (.dumpEngine path tag arg)
        { m with ref := { m.ref with dumps := m.ref.dumps ++ [(path, tag, arg)] } })) ∧
    ((path, tag, arg) ∈ s.ref.dumps → exec (.dumpFreezeTimeout path tag arg) s = .next
      ((({ s with ref := { s.ref with dumps := s.ref.dumps.erase (path, tag, arg) } } : State).dumpNow path tag arg
        true).settleV)) ∧
    ((path, tag, arg) ∉ s.ref.dumps → exec (.dumpFreezeTimeout path tag arg) s = .next s) ∧
    (may 8 arg [] → answers (.thawEngine path tag arg) 8 arg (m.thaw now).done) ∧
    (may 9 arg [] → answers (.zeroise path tag arg) 9 arg (m.opZeroise path)) ∧
    (opForm path 0x10 arg [] = true → answers (.sessionOpen path tag arg) 0x10 arg (m.opSessionOpen path arg)) ∧
    (opForm path 0x11 arg payload = true →
      answers (.sessionProve path tag arg payload) 0x11 arg (m.opSessionProve path arg payload)) ∧
    (opForm path 0x12 arg [] = true → answers (.sessionClose path tag arg) 0x12 arg (m.opSessionClose path arg)) ∧
    (opForm path 0x13 arg payload = true →
      answers (.sessionClaim path tag arg payload) 0x13 arg (m.opSessionClaim path arg payload)) ∧
    (may 0x14 arg [] →
      (s.ref.powerLock = false → answers (.powerRestore path tag arg) 0x14 arg m.notNow) ∧
      (s.ref.powerLock = true → answers (.powerRestore path tag arg) 0x14 arg
        (if s.ref.vinRemoved then restored else restored.startBringUp).done)) ∧
    (may 0x15 arg [] →
      (∀ r bs u, r ≠ .ok → m.fetchImage arg.toNat = (r, bs, u) →
        answers (.mcLoad path tag arg) 0x15 arg { resp := r, st := u }) ∧
      (∀ bs u, m.fetchImage arg.toNat = (.ok, bs, u) →
        (bootCheck bs ≠ 0 → answers (.mcLoad path tag arg) 0x15 arg
          (u.recordBoot (u.pathSession path) (asked u) (bootCheck bs) bs false).badArg) ∧
        (bootCheck bs = 0 →
          let v := Config.microcodeVersion bs
          let mc := if u.mc.active then { u.mc with verA := v, aValid := true } else { u.mc with verB := v, bValid := true }
          answers (.mcLoad path tag arg) 0x15 arg
            (({ u with mc := mc } : State).recordBoot (u.pathSession path) (asked u) 0 bs false).done))) ∧
    (may 0x16 arg [] →
      (s.bootOpen = true → s.ref.bootFetch = none → answers (.bootImage path tag arg) 0x16 arg
        ({ m with ref := { m.ref with bootFetch := some arg.toNat } } : State).done) ∧
      (s.bootOpen = false ∨ s.ref.bootFetch ≠ none → answers (.bootImage path tag arg) 0x16 arg m.notNow)) ∧
    (may 0x17 arg [] →
      (s.ref.sbState ≠ 4 → answers (.testUnlock path tag arg) 0x17 arg m.notNow) ∧
      (s.ref.sbState = 4 → answers (.testUnlock path tag arg) 0x17 arg
        ({ unlocked with ref := { unlocked.ref with testPort := true } } : State).done)) ∧
    (may 0x18 arg payload →
      (s.fuseWindow = false → answers (.fuseProgram path tag arg payload) 0x18 arg m.notNow) ∧
      (s.fuseWindow = true → answers (.fuseProgram path tag arg payload) 0x18 arg
        ({ fused with ref := { fused.ref with
          fuseWords := Sparse.write fused.ref.fuseWords word (Sparse.read s.ref.fuseWords word ||| value) } } : State).done)) ∧
    (may 0x19 arg payload → answers (.setTime path tag arg payload) 0x19 arg
      (m.recordOp path 0x11 0 (BitVec.ofNat 64 (leField payload 0 8)) 0).done) ∧
    (may 0x1A arg [] →
      ((s.eng now).state = .idle ∨ (s.eng now).frozen = true → answers (.residentReload path tag arg) 0x1A arg
        ((m.recordOp path 0x0F (BitVec.ofNat 64 now.val) 0 0).loadResident now).done) ∧
      ((s.eng now).state ≠ .idle → (s.eng now).frozen = false → answers (.residentReload path tag arg) 0x1A arg m.notNow))

/-- Resets from pins and their ends, the Referee's replica, the management port, and boot images fetched. -/
def Obligations.ResetsAndReplica : Prop :=
  ∀ (s : State) (t : Tower) (layer : Fin 6) (straps : Straps) (ok : Bool) (v : BitVec 16) (bytes : List Byte),
    let up := s.ref.bothFailed = false
    let port (u : List Byte) : State := { s with ref := { s.ref with smbusOut := u } }
    let goes (c : Instr) (u : State) := exec c s = .next u
    let first := s.ref.resets.find? fun r => r.tower == t
    let held := s.ref.resets.find? fun r => r.tower == t && !r.waitsCommit
    let fetching : State := { s with ref := { s.ref with bootFetch := none } }
    let restarted : State := { s with ref := { s.ref with restartDue := false } }
    let request := s.ref.smbusReq ++ bytes.take 255
    Completes State.settleV .resetN s (fun u => u.ref.packageBusy = true ∧ (∀ t : Tower, u.inTowerReset t = true) ∧
      ∀ e : Eng, (u.eng e).state = .idle ∧ (u.eng e).imem = []) ∧
    Completes id (.powerOnReset straps) s (fun u => u.lapsRun = false ∧ u.mem = [] ∧ u.ref.bootDone = false ∧
      u.ref.straps = straps ∧ u.hostmem = s.hostmem ∧ u.pending = s.pending ∧ u.ref.keys = s.ref.keys ∧
      u.ref.roster = s.ref.roster ∧ (∀ i : Fin 12, u.reg .CRED [i] = s.reg .CRED [i]) ∧
      (∀ i : Fin 64, u.reg .ROSTER [i] = s.reg .ROSTER [i]) ∧ (∀ e : Eng, (u.eng e).state = .idle) ∧
      ∃ r, u.ref.bb = s.ref.bb ++ [r] ∧ r.cls = 1 ∧ r.pinned = true) ∧
    (held = none → goes (.resetRelease t) s.settleV) ∧
    (∀ r n, held = some r → r.layer = some n → Completes State.settleV (.resetRelease t) s fun u =>
      u.ref.resetWaits = s.ref.resetWaits.filter (fun w => !waitEnds t (some n) w.2.2) ∧
        u.ref.resets.length + 1 = s.ref.resets.length) ∧
    (∀ r, held = some r → r.layer = none → Completes State.settleV (.resetRelease t) s fun u =>
      u.ref.resets = s.ref.resets.erase r ∧
        ((∀ x ∈ s.ref.resets.erase r, x.layer ≠ none) → u.ref.packageBusy = false)) ∧
    (∀ r, first = some r → r.waitsCommit = true → r.layer = some layer.val →
      goes (.layerResetProceed t layer) (s.proceedReset t).settleV) ∧
    (first = none ∨ (∀ r, first = some r → r.waitsCommit = false ∨ r.layer ≠ some layer.val) →
      goes (.layerResetProceed t layer) s) ∧
    (s.flag F.REF_STAT.REPLICA_OK = false → goes .heartbeatTimeout { s with ref := { s.ref with bothFailed := true } }) ∧
    (s.flag F.REF_STAT.REPLICA_OK = true → Completes id .heartbeatTimeout s fun u =>
      u.fld F.REF_STAT.ACTIVE = 1 - s.fld F.REF_STAT.ACTIVE ∧ u.flag F.REF_STAT.REPLICA_OK = false ∧
        (u.fld F.REF_STAT.ALERTS).testBit 0 = true ∧ u.ref.restartDue = true ∧ u.ref.bothFailed = s.ref.bothFailed ∧
        Keeps s u [.REF_STAT, .BB_STAT]) ∧
    (s.ref.restartDue = false → goes (.replicaRestart ok) s) ∧
    (s.ref.restartDue = true → goes (.replicaRestart ok)
      ((restarted.put F.REF_STAT.REPLICA_OK (if ok then 1 else 0)).recordAuto 0x10 1 0 true)) ∧
    (up →
      goes .state (port [BitVec.ofNat 8 s.ref.sbState]) ∧
      goes .alerts (port (bytesOf 2 (s.fld F.REF_STAT.ALERTS))) ∧
      (∀ i < 6, Completes id (.alertsClear v) s fun u =>
        (u.fld F.REF_STAT.ALERTS).testBit i = ((s.fld F.REF_STAT.ALERTS).testBit i && !v.getLsbD i)) ∧
      goes (.reqPart bytes) { s with ref := { s.ref with smbusReq := request } } ∧
      goes (.reqEnd bytes)
        ((({ s with ref := { s.ref with smbusReq := [], smbusAns := [] } } : State).takeMessage .smbus request).settleV) ∧
      goes .ansPart { s with ref := { s.ref with
        smbusOut := s.ref.smbusAns.take 255, smbusAns := s.ref.smbusAns.drop 255 } }) ∧
    (s.ref.bothFailed = true →
      goes .state s ∧ goes .alerts s ∧ goes (.alertsClear v) s ∧ goes (.reqPart bytes) s ∧ goes (.reqEnd bytes) s ∧
        goes .ansPart s) ∧
    (s.ref.bootFetch = none → goes .bootImageFetched s) ∧
    (∀ a, s.ref.bootFetch = some a →
      (∀ bs u, fetching.fetchImage a = (.ok, bs, u) → goes .bootImageFetched (u.bootVerify bs).settle) ∧
      (∀ r bs u, r ≠ .ok → fetching.fetchImage a = (r, bs, u) →
        goes .bootImageFetched (u.bootFails 0x12 []).settle))

/-- The machine right after reset: every register holds its reset value, every engine is idle with its registers zero and TVEC 1, no
lap runs, no personality, test, hold or session beyond the reset values is there, and the memories have their canonical form. That
design memory and the scratchpads then read as zero is the model's choice (notes/assumptions 8). -/
def Obligations.ResetValues : Prop :=
  let s := State.reset
  (∀ r ix, r.valid ix = true → s.reg r ix = BitVec.ofNat 64 (resetOf r ix)) ∧
    (∀ (e : Eng) (r : Gpr), (s.eng e).state = .idle ∧ (s.eng e).get r = 0 ∧ (s.eng e).tvec = 1 ∧ (s.eng e).inTrap = false ∧
      (s.eng e).evpend = 0 ∧ ∀ c : Fin 8, (s.eng e).chans[c].state = .idle) ∧
    s.lapsRun = false ∧ s.persona_ = 0 ∧ s.lapCount = 0 ∧ (∀ t, s.pd (pdNE t) = 0) ∧ s.pd 0 = 1 ∧ s.pd 7 = 1 ∧
    (∀ n : Fin 64, s.fld F.SESS.OPEN [n] = if n.val % 16 = 0 then 1 else 0) ∧
    (∀ q : Qn, s.items q = [] ∧ s.producer q = .none ∧ s.consumer q = .none) ∧ (∀ b : Fin 256, ∀ t : Tower,
      s.fld F.BANK_OWNER.KIND [t, b] = if 252 ≤ b.val then 2 else 0) ∧
    s.arraysWf = true ∧ s.pending = []

/-- Every step keeps design memory and the stand-in arrays in their canonical form, in which equal memories are equal data. -/
def Obligations.EveryStepKeepsMemories : Prop :=
  ∀ s t : State, s.arraysWf = true → step s = .next t → t.arraysWf = true
end

