-- ==== Sys2Proof/Laws/Address.lean ====
section
/-! SUPPORT. The register map is unambiguous: different copies have different addresses, and the address of each copy finds
exactly that copy. -/

namespace Sys2Proof.Machine

/-- The largest offset of a copy. -/
def ixExt : List (Nat × Nat) → Nat
  | [] => 0
  | (st, n) :: ds => st * (n - 1) + ixExt ds

/-- Every stride steps over all that lies inside it. -/
def ixNested : List (Nat × Nat) → Bool
  | [] => true
  | (st, _) :: ds => decide (ixExt ds < st) && ixNested ds

/-- Two places that share no address: one lies below the other, or they interleave within one stride and are apart there. -/
def placesApart : Nat → List (Nat × Nat) → Nat → List (Nat × Nat) → Bool
  | b, (st, n) :: ds, b', (st', n') :: ds' =>
    decide (b + ixExt ((st, n) :: ds) < b' ∨ b' + ixExt ((st', n') :: ds') < b) ||
      (decide (st = st' ∧ b % st + ixExt ds < st ∧ b' % st + ixExt ds' < st) && placesApart (b % st) ds (b' % st) ds')
  | b, ds, b', ds' => decide (b + ixExt ds < b' ∨ b' + ixExt ds' < b)

theorem ixOffset_le {ds : List (Nat × Nat)} {ix : List Nat} (h : ixValid ds ix = true) : ixOffset ds ix ≤ ixExt ds := by
  induction ds generalizing ix with
  | nil => cases ix <;> simp [ixOffset]
  | cons p ds ih =>
    cases ix with
    | nil => simp [ixOffset]
    | cons i is =>
      simp only [ixValid, Bool.and_eq_true, decide_eq_true_eq] at h
      simp only [ixOffset, ixExt]
      have := ih h.2
      have : p.1 * i ≤ p.1 * (p.2 - 1) := Nat.mul_le_mul_left _ (by omega)
      omega

theorem ixOf_ixOffset {ds : List (Nat × Nat)} {ix : List Nat} (hn : ixNested ds = true) (h : ixValid ds ix = true) :
    ixOf ds (ixOffset ds ix) = some ix := by
  induction ds generalizing ix with
  | nil => cases ix <;> simp_all [ixValid, ixOffset, ixOf]
  | cons p ds ih =>
    cases ix with
    | nil => simp [ixValid] at h
    | cons i is =>
      simp only [ixValid, Bool.and_eq_true, decide_eq_true_eq] at h
      simp only [ixNested, Bool.and_eq_true, decide_eq_true_eq] at hn
      have hl := ixOffset_le h.2
      have hp : 0 < p.1 := by omega
      have hd : (p.1 * i + ixOffset ds is) / p.1 = i := by
        rw [Nat.mul_add_div hp, Nat.div_eq_of_lt (by omega), Nat.add_zero]
      have hm : (p.1 * i + ixOffset ds is) % p.1 = ixOffset ds is := by
        rw [Nat.mul_add_mod, Nat.mod_eq_of_lt (by omega)]
      simp [ixOffset, ixOf, hd, hm, h.1, ih hn.2 h.2]

theorem ixOf_sound {ds : List (Nat × Nat)} {off : Nat} {ix : List Nat} (h : ixOf ds off = some ix) :
    ixValid ds ix = true ∧ ixOffset ds ix = off := by
  induction ds generalizing off ix with
  | nil =>
    simp only [ixOf] at h
    split at h <;> simp_all [ixValid, ixOffset]
  | cons p ds ih =>
    simp only [ixOf] at h
    split at h
    · rename_i hlt
      simp only [Option.map_eq_some_iff] at h
      obtain ⟨is, his, rfl⟩ := h
      have := ih his
      simp only [ixValid, ixOffset, this.1, this.2, hlt, decide_true, Bool.and_self, true_and]
      exact Nat.div_add_mod off p.1
    · simp at h

theorem placesApart_sound {ds ds' : List (Nat × Nat)} {b b' : Nat} {ix ix' : List Nat}
    (hs : placesApart b ds b' ds' = true) (h : ixValid ds ix = true) (h' : ixValid ds' ix' = true) :
    b + ixOffset ds ix ≠ b' + ixOffset ds' ix' := by
  induction ds generalizing ds' b b' ix ix' with
  | nil =>
    have := ixOffset_le h
    have := ixOffset_le h'
    simp only [placesApart, decide_eq_true_eq] at hs
    omega
  | cons p ds ih =>
    obtain ⟨st, n⟩ := p
    have hl := ixOffset_le h
    have hl' := ixOffset_le h'
    cases ds' with
    | nil =>
      simp only [placesApart, decide_eq_true_eq] at hs
      omega
    | cons p' ds' =>
      obtain ⟨st', n'⟩ := p'
      simp only [placesApart, Bool.or_eq_true, Bool.and_eq_true, decide_eq_true_eq] at hs
      obtain hs | ⟨⟨hst, hb, hb'⟩, hs⟩ := hs
      · omega
      · subst hst
        cases ix with
        | nil => simp [ixValid] at h
        | cons i is =>
          cases ix' with
          | nil => simp [ixValid] at h'
          | cons i' is' =>
            simp only [ixValid, Bool.and_eq_true, decide_eq_true_eq] at h h'
            intro he
            have hi := ixOffset_le h.2
            have hi' := ixOffset_le h'.2
            have hm : (b + ixOffset ds is) % st = (b' + ixOffset ds' is') % st := by
              have := congrArg (· % st) he
              simp only [ixOffset] at this
              rwa [show b + (st * i + ixOffset ds is) = (b + ixOffset ds is) + st * i by omega,
                show b' + (st * i' + ixOffset ds' is') = (b' + ixOffset ds' is') + st * i' by omega,
                Nat.add_mul_mod_self_left, Nat.add_mul_mod_self_left] at this
            rw [Nat.add_mod, Nat.add_mod b', Nat.mod_eq_of_lt (a := ixOffset ds is) (by omega),
              Nat.mod_eq_of_lt (a := ixOffset ds' is') (by omega), Nat.mod_eq_of_lt (a := b % st + _) (by omega),
              Nat.mod_eq_of_lt (a := b' % st + _) (by omega)] at hm
            exact ih hs h.2 h'.2 hm

/-- The blocks of the engines, as places: 32 Ki words in each of four engines of each tower. -/
def enginePlace : Nat × List (Nat × Nat) := (0x030001010000, [(0x1000000, 4), (8, 0x8000)])

/-- Every register's strides nest, its place keeps to words of 8 bytes and to register space or the doorbells, and shares nothing
with the engines' blocks. -/
def placeOk (r : RegName) : Bool :=
  ixNested r.place.2 && r.place.2.all (fun p => p.1 % 8 == 0) && r.place.1 % 8 == 0 &&
    placesApart r.place.1 r.place.2 enginePlace.1 enginePlace.2 &&
    (decide (0x030000000000 ≤ r.place.1 ∧ r.place.1 + ixExt r.place.2 < 0x030500000000) ||
      decide (0x040000000000 ≤ r.place.1 ∧ r.place.1 + ixExt r.place.2 < 0x040002000000))

/-- The registers that share addresses with the pool bank table. -/
def sharing (r : RegName) : Bool := r == .ERRQ || r == .ERRQ_HOST || r == .ERR_LOST

def pairApart (r r' : RegName) : Bool :=
  (r == .POOL_BANK && sharing r') || (sharing r && r' == .POOL_BANK) ||
    placesApart r.place.1 r.place.2 r'.place.1 r'.place.2

def allApart : List RegName → Bool
  | [] => true
  | r :: rs => rs.all (pairApart r) && allApart rs

/-- The key of the pool bank table keeps to itself. -/
def keyApart (r : RegName) : Bool :=
  r == .POOL_BANK || placesApart r.place.1 r.place.2 (RegName.POOL_BANK.place.1 + 0x1000) RegName.POOL_BANK.place.2

theorem all_placeOk : RegName.all.all placeOk = true := by decide +kernel
theorem all_apart : allApart RegName.all = true := by decide +kernel
theorem all_keyApart : RegName.all.all keyApart = true := by decide +kernel
theorem mem_all (r : RegName) : r ∈ RegName.all := by cases r <;> decide +kernel

theorem placeOk_of (r : RegName) : placeOk r = true := List.all_eq_true.mp all_placeOk r (mem_all r)

theorem nested (r : RegName) : ixNested r.place.2 = true := by
  have := placeOk_of r
  simp only [placeOk, Bool.and_eq_true] at this
  exact this.1.1.1.1

theorem pairApart_of {rs : List RegName} (hs : allApart rs = true) {r r' : RegName} (h : r ∈ rs) (h' : r' ∈ rs)
    (hne : r ≠ r') : pairApart r r' = true ∨ pairApart r' r = true := by
  induction rs with
  | nil => simp at h
  | cons x rs ih =>
    simp only [allApart, Bool.and_eq_true, List.all_eq_true] at hs
    simp only [List.mem_cons] at h h'
    obtain rfl | h := h
    · obtain rfl | h' := h'
      · exact absurd rfl hne
      · exact .inl (hs.1 r' h')
    · obtain rfl | h' := h'
      · exact .inr (hs.1 r h)
      · exact ih hs.2 h h'

/-- An entry of the pool bank table that no other register hides has an address that none of them has. -/
theorem pool_apart {r : RegName} (hr : sharing r = true) {ix ix' : List Nat} (hi : RegName.POOL_BANK.valid ix = true)
    (hn : shadowed .POOL_BANK ix = false) (hi' : r.valid ix' = true) : RegName.POOL_BANK.addr ix ≠ r.addr ix' := by
  match ix, hi with
  | [], hi => simp [RegName.valid, RegName.place, ixValid] at hi
  | _ :: _ :: _, hi => simp [RegName.valid, RegName.place, ixValid] at hi
  | [i], hi =>
    simp only [RegName.valid, RegName.place, ixValid, Bool.and_true, decide_eq_true_eq] at hi
    simp only [shadowed, beq_self_eq_true, List.any_cons, List.any_nil, Bool.or_false, Bool.true_and, Bool.or_eq_false_iff,
      decide_eq_false_iff_not, beq_eq_false_iff_ne] at hn
    simp only [sharing, Bool.or_eq_true, beq_iff_eq] at hr
    obtain (rfl | rfl) | rfl := hr
    · match ix', hi' with
      | [], hi' => simp [RegName.valid, RegName.place, ixValid] at hi'
      | _ :: _ :: _, hi' => simp [RegName.valid, RegName.place, ixValid] at hi'
      | [e], hi' =>
        simp only [RegName.valid, RegName.place, ixValid, Bool.and_true, decide_eq_true_eq] at hi'
        simp only [RegName.addr, RegName.place, ixOffset]
        omega
    · match ix', hi' with
      | _ :: _, hi' => simp [RegName.valid, RegName.place, ixValid] at hi'
      | [], _ => simp only [RegName.addr, RegName.place, ixOffset]; omega
    · match ix', hi' with
      | _ :: _, hi' => simp [RegName.valid, RegName.place, ixValid] at hi'
      | [], _ => simp only [RegName.addr, RegName.place, ixOffset]; omega

/-- Different registers have no address in common. -/
theorem RegName.addr_ne {r r' : RegName} (hne : r ≠ r') {ix ix' : List Nat} (hi : r.valid ix = true)
    (hi' : r'.valid ix' = true) (hs : shadowed r ix = false) (hs' : shadowed r' ix' = false) : r.addr ix ≠ r'.addr ix' := by
  have key : ∀ {a b : RegName} {ia ib : List Nat}, pairApart a b = true → a.valid ia = true → b.valid ib = true →
      shadowed a ia = false → shadowed b ib = false → a.addr ia ≠ b.addr ib := by
    intro a b ia ib hp ha hb hsa hsb
    simp only [pairApart, Bool.or_eq_true, Bool.and_eq_true, beq_iff_eq] at hp
    obtain (⟨rfl, hp⟩ | ⟨hp, rfl⟩) | hp := hp
    · exact pool_apart hp ha hsa hb
    · exact (pool_apart hp hb hsb ha).symm
    · exact placesApart_sound hp ha hb
  obtain h | h := pairApart_of all_apart (mem_all r) (mem_all r') hne
  · exact key h hi hi' hs hs'
  · exact (key h hi' hi hs' hs).symm

/-- Different registers are held under different keys. -/
theorem RegName.key_ne {r r' : RegName} (hne : r ≠ r') {ix ix' : List Nat} (hi : r.valid ix = true)
    (hi' : r'.valid ix' = true) : r.key ix ≠ r'.key ix' := by
  have shift : ∀ {a : RegName} {ia ib : List Nat}, a ≠ .POOL_BANK → a.valid ia = true → RegName.POOL_BANK.valid ib = true →
      a.addr ia ≠ RegName.POOL_BANK.addr ib + 0x1000 := by
    intro a ia ib ha hia hib
    have hk := List.all_eq_true.mp all_keyApart a (mem_all a)
    simp only [keyApart, Bool.or_eq_true, beq_iff_eq, ha, false_or] at hk
    have := placesApart_sound hk hia hib
    simp only [RegName.addr] at *
    omega
  by_cases h : r = .POOL_BANK
  · subst h
    simp only [RegName.key, if_neg (Ne.symm hne), if_true]
    exact (shift (Ne.symm hne) hi' hi).symm
  · by_cases h' : r' = .POOL_BANK
    · subst h'
      simp only [RegName.key, if_neg h, if_true]
      exact shift h hi hi'
    · simp only [RegName.key, if_neg h, if_neg h']
      refine RegName.addr_ne hne hi hi' ?_ ?_ <;> simp [shadowed, h, h']

/-- Different copies of one register have different addresses. -/
theorem RegName.addr_inj {r : RegName} {ix ix' : List Nat} (hi : r.valid ix = true) (hi' : r.valid ix' = true)
    (he : r.addr ix = r.addr ix') : ix = ix' := by
  have h := ixOf_ixOffset (nested r) hi
  rw [show ixOffset r.place.2 ix = ixOffset r.place.2 ix' by simp only [RegName.addr] at he; omega,
    ixOf_ixOffset (nested r) hi'] at h
  exact (Option.some.inj h).symm

theorem RegName.key_inj {r : RegName} {ix ix' : List Nat} (hi : r.valid ix = true) (hi' : r.valid ix' = true)
    (he : r.key ix = r.key ix') : ix = ix' := by
  refine RegName.addr_inj hi hi' ?_
  simp only [RegName.key] at he
  split at he <;> omega

theorem findSome_unique {α β : Type} {l : List α} {f : α → Option β} {x : α} {y : β} (hx : x ∈ l) (hy : f x = some y)
    (hn : ∀ z ∈ l, z ≠ x → f z = none) : l.findSome? f = some y := by
  induction l with
  | nil => simp at hx
  | cons z l ih =>
    rw [List.findSome?_cons]
    by_cases h : z = x
    · subst h
      rw [hy]
    · rw [hn z (by simp) h]
      refine ih ?_ fun w hw => hn w (by simp [hw])
      simpa [Ne.symm h] using hx

/-- The address of a copy finds that copy. -/
theorem regAt_addr {r : RegName} {ix : List Nat} (hi : r.valid ix = true) (hs : shadowed r ix = false) :
    regAt (r.addr ix) = some (r, ix) := by
  refine findSome_unique (mem_all r) ?_ fun z _ hz => ?_
  · rw [if_neg (by simp [RegName.addr]), show r.addr ix - r.place.1 = ixOffset r.place.2 ix by simp [RegName.addr],
      ixOf_ixOffset (nested r) hi]
    simp [Option.filter, hs]
  · split
    · rfl
    · rename_i hlt
      simp only [Option.map_eq_none_iff]
      cases hx : ixOf z.place.2 (r.addr ix - z.place.1) with
      | none => rfl
      | some ix' =>
        have hsound := ixOf_sound hx
        by_cases hsh : shadowed z ix' = true
        · simp [Option.filter, hsh]
        · refine absurd ?_ (RegName.addr_ne hz (ix := ix') (ix' := ix) hsound.1 hi (by simpa using hsh) hs)
          have := hsound.2
          simp only [RegName.addr] at *
          omega

/-- What the map finds at an address lies at that address. -/
theorem regAt_sound {a : Nat} {r : RegName} {ix : List Nat} (h : regAt a = some (r, ix)) :
    r.valid ix = true ∧ r.addr ix = a ∧ shadowed r ix = false := by
  obtain ⟨l, x, l', _, hx, _⟩ := List.findSome?_eq_some_iff.mp h
  split at hx
  · simp at hx
  · simp only [Option.map_eq_some_iff, Prod.mk.injEq, Option.filter_eq_some_iff] at hx
    obtain ⟨ix', ⟨h1, h2⟩, rfl, rfl⟩ := hx
    have hs := ixOf_sound h1
    refine ⟨hs.1, ?_, by simpa using h2⟩
    simp only [RegName.addr, hs.2]
    omega

theorem ixOffset_words {ds : List (Nat × Nat)} (h : (ds.all fun p => p.1 % 8 == 0) = true) (ix : List Nat) :
    ixOffset ds ix % 8 = 0 := by
  induction ds generalizing ix with
  | nil => cases ix <;> rfl
  | cons p ds ih =>
    cases ix with
    | nil => rfl
    | cons i is =>
      simp only [List.all_cons, Bool.and_eq_true, beq_iff_eq] at h
      simp only [ixOffset]
      have := ih h.2 is
      have : p.1 * i % 8 = 0 := by rw [Nat.mul_mod, h.1]; simp
      omega

/-- Registers stand at multiples of 8. -/
theorem addr_words (r : RegName) (ix : List Nat) : r.addr ix % 8 = 0 := by
  have := placeOk_of r
  simp only [placeOk, Bool.and_eq_true, beq_iff_eq] at this
  have := ixOffset_words this.1.1.1.2 ix
  simp only [RegName.addr]
  omega

theorem engineBlock_addr {r : RegName} {ix : List Nat} (hi : r.valid ix = true) : engineBlock (r.addr ix) = none := by
  have hp := placeOk_of r
  simp only [placeOk, Bool.and_eq_true] at hp
  have hw := addr_words r ix
  unfold engineBlock
  simp only [ite_eq_left_iff, reduceCtorEq, imp_false, not_not]
  by_contra hb
  simp only [not_or, Nat.not_lt, Nat.not_le] at hb
  refine placesApart_sound (ix := ix)
    (ix' := [(r.addr ix - 0x030001000000) / 0x1000000, ((r.addr ix - 0x030001000000) % 0x1000000 - 0x10000) / 8])
    hp.1.2 hi ?_ ?_
  · simp only [enginePlace, ixValid, Bool.and_eq_true, decide_eq_true_eq, and_true]
    omega
  · simp only [enginePlace, ixOffset]
    simp only [RegName.addr] at hb hw ⊢
    omega

/-- A register write at the address of a copy that is assigned reaches that copy. -/
theorem targetAt_addr {r : RegName} {ix : List Nat} (hi : r.valid ix = true) (hs : shadowed r ix = false)
    (ha : copyAssigned r ix = true) : targetAt (r.addr ix) = some (.reg r ix) := by
  simp [targetAt, engineBlock_addr hi, regAt_addr hi hs, ha]

/-- Registers lie in register space or on the doorbell pages. -/
theorem spaceOf_addr {r : RegName} {ix : List Nat} (hi : r.valid ix = true) :
    spaceOf (r.addr ix) = .register ∨ spaceOf (r.addr ix) = .doorbell := by
  have hp := placeOk_of r
  simp only [placeOk, Bool.and_eq_true, Bool.or_eq_true, decide_eq_true_eq] at hp
  have := ixOffset_le hi
  have ha : r.place.1 ≤ r.addr ix ∧ r.addr ix ≤ r.place.1 + ixExt r.place.2 := by simp only [RegName.addr]; omega
  generalize r.addr ix = a at ha
  unfold spaceOf
  obtain h | h := hp.2
  · left
    rw [if_neg (by omega), if_neg (by omega), if_neg (by omega), if_pos (by omega)]
  · right
    rw [if_neg (by omega), if_neg (by omega), if_neg (by omega), if_neg (by omega), if_pos (by omega)]

end Sys2Proof.Machine
end

