-- ==== Sys2Proof/Laws/Bits.lean ====
section
/-! SUPPORT. Laws of the bit-field helpers: what a field reads after it, or another one, has been written. -/

namespace Sys2Proof.Machine

theorem testBit_bitsOf {n : Nat} (v : BitVec n) (hi lo i : Nat) :
    (bitsOf v hi lo).testBit i = (decide (i < hi + 1 - lo) && v.getLsbD (lo + i)) := by
  simp [bitsOf, Nat.testBit_mod_two_pow, Nat.testBit_shiftRight, BitVec.getLsbD]

theorem bitsOf_lt {n : Nat} (v : BitVec n) (hi lo : Nat) : bitsOf v hi lo < 2 ^ (hi + 1 - lo) :=
  Nat.mod_lt _ (Nat.two_pow_pos _)

theorem testBit_mask (hi lo j : Nat) (h : lo ≤ hi) : (2 ^ (hi + 1) - 2 ^ lo).testBit j = decide (lo ≤ j ∧ j ≤ hi) := by
  have : 2 ^ (hi + 1) - 2 ^ lo = (2 ^ (hi + 1 - lo) - 1) * 2 ^ lo := by
    rw [Nat.sub_mul, ← Nat.pow_add, Nat.one_mul, Nat.sub_add_cancel (by omega)]
  rw [this, Nat.testBit_mul_two_pow]
  by_cases hj : lo ≤ j
  · simp [hj, Nat.testBit_two_pow_sub_one]
    omega
  · simp [hj]

theorem getLsbD_setBits {n : Nat} (v : BitVec n) (hi lo x j : Nat) (h : lo ≤ hi) (hj : j < n) :
    (setBits v hi lo x).getLsbD j = if lo ≤ j ∧ j ≤ hi then x.testBit (j - lo) else v.getLsbD j := by
  simp only [setBits, BitVec.getLsbD_or, BitVec.getLsbD_and, BitVec.getLsbD_not, BitVec.getLsbD_ofNat, hj, decide_true,
    Bool.true_and, testBit_mask hi lo j h, Nat.testBit_mul_two_pow, Nat.testBit_mod_two_pow]
  by_cases h1 : lo ≤ j
  · by_cases h2 : j ≤ hi
    · simp [h1, h2, show j - lo < hi + 1 - lo by omega]
    · simp [h1, h2, show ¬ j - lo < hi + 1 - lo by omega]
  · simp [h1]

/-- A field reads what was written to it. -/
theorem bitsOf_setBits {n : Nat} (v : BitVec n) (hi lo x : Nat) (h : lo ≤ hi) (hn : hi < n) :
    bitsOf (setBits v hi lo x) hi lo = x % 2 ^ (hi + 1 - lo) := by
  refine Nat.eq_of_testBit_eq fun i => ?_
  rw [testBit_bitsOf, Nat.testBit_mod_two_pow]
  by_cases hi' : i < hi + 1 - lo
  · rw [getLsbD_setBits v hi lo x (lo + i) h (by omega), if_pos (by omega)]
    simp [hi']
  · simp [hi']

/-- A field that has no bit in common with the one written keeps its value. -/
theorem bitsOf_setBits_ne {n : Nat} (v : BitVec n) (hi lo x hi' lo' : Nat) (h : lo ≤ hi) (hn : hi' < n)
    (hd : hi' < lo ∨ hi < lo') : bitsOf (setBits v hi lo x) hi' lo' = bitsOf v hi' lo' := by
  refine Nat.eq_of_testBit_eq fun i => ?_
  rw [testBit_bitsOf, testBit_bitsOf]
  by_cases hi'' : i < hi' + 1 - lo'
  · rw [getLsbD_setBits v hi lo x (lo' + i) h (by omega), if_neg (by omega)]
  · simp [hi'']

theorem bit_eq {n : Nat} (v : BitVec n) (i : Nat) : bit v i = v.getLsbD i := rfl

theorem b2n_le (b : Bool) : b2n b ≤ 1 := by cases b <;> decide

@[simp] theorem b2n_true : b2n true = 1 := rfl
@[simp] theorem b2n_false : b2n false = 0 := rfl

end Sys2Proof.Machine
end

