-- ==== Sys2Proof/Laws/Sparse.lean ====
section
/-! SUPPORT. Laws of the sparse maps: read after write, and the canonical form that every write and every removal keeps. -/

namespace Sys2Proof.Machine

variable {α : Type} (d : Nat → α)

@[simp] theorem Sparse.get_nil (k : Nat) : Sparse.get d [] k = d k := rfl

@[simp] theorem Sparse.get_cons (p : Nat × α) (m : Sparse α) (k : Nat) :
    Sparse.get d (p :: m) k = if p.1 = k then p.2 else Sparse.get d m k := rfl

theorem Sparse.wf_cons [DecidableEq α] {p : Nat × α} {m : Sparse α} :
    Sparse.wf d (p :: m) = true ↔ p.2 ≠ d p.1 ∧ Sparse.above p.1 m = true ∧ Sparse.wf d m = true := by
  simp [Sparse.wf, and_assoc]

theorem Sparse.above_cons {b : Nat} {p : Nat × α} {m : Sparse α} :
    Sparse.above b (p :: m) = true ↔ b < p.1 ∧ Sparse.above b m = true := by
  simp [Sparse.above]

theorem Sparse.above_of_le {a b : Nat} {m : Sparse α} (h : a ≤ b) (hm : Sparse.above b m = true) :
    Sparse.above a m = true := by
  simp only [Sparse.above, List.all_eq_true, decide_eq_true_eq] at *
  exact fun p hp => lt_of_le_of_lt h (hm p hp)

/-- A key that lies below every listed key reads as the default. -/
theorem Sparse.get_of_above {b k : Nat} {m : Sparse α} (hm : Sparse.above b m = true) (h : k ≤ b) :
    Sparse.get d m k = d k := by
  induction m with
  | nil => rfl
  | cons p m ih =>
    rw [Sparse.above_cons] at hm
    rw [Sparse.get_cons, if_neg (by omega), ih hm.2]

theorem Sparse.above_drop {b k : Nat} {m : Sparse α} (hm : Sparse.above b m = true) :
    Sparse.above b (Sparse.drop m k) = true := by
  induction m with
  | nil => rfl
  | cons p m ih =>
    rw [Sparse.above_cons] at hm
    simp only [Sparse.drop]
    split
    · exact ih hm.2
    · exact Sparse.above_cons.mpr ⟨hm.1, ih hm.2⟩

theorem Sparse.above_insert {b k : Nat} {v : α} {m : Sparse α} (hk : b < k) (hm : Sparse.above b m = true) :
    Sparse.above b (Sparse.insert m k v) = true := by
  induction m with
  | nil => simp [Sparse.insert, Sparse.above, hk]
  | cons p m ih =>
    have hp := hm
    rw [Sparse.above_cons] at hp
    simp only [Sparse.insert]
    split
    · exact Sparse.above_cons.mpr ⟨hk, hm⟩
    · split
      · exact Sparse.above_cons.mpr ⟨hk, hp.2⟩
      · exact Sparse.above_cons.mpr ⟨hp.1, ih hp.2⟩

theorem Sparse.wf_drop [DecidableEq α] {k : Nat} {m : Sparse α} (hm : Sparse.wf d m = true) : Sparse.wf d (Sparse.drop m k) = true := by
  induction m with
  | nil => rfl
  | cons p m ih =>
    rw [Sparse.wf_cons] at hm
    simp only [Sparse.drop]
    split
    · exact ih hm.2.2
    · exact (Sparse.wf_cons d).mpr ⟨hm.1, Sparse.above_drop hm.2.1, ih hm.2.2⟩

theorem Sparse.wf_insert [DecidableEq α] {k : Nat} {v : α} {m : Sparse α} (hv : v ≠ d k) (hm : Sparse.wf d m = true) :
    Sparse.wf d (Sparse.insert m k v) = true := by
  induction m with
  | nil => simpa [Sparse.insert, Sparse.wf, Sparse.above] using hv
  | cons p m ih =>
    have hp := hm
    rw [Sparse.wf_cons] at hp
    simp only [Sparse.insert]
    split
    · rename_i hlt
      exact (Sparse.wf_cons d).mpr ⟨hv, Sparse.above_cons.mpr ⟨hlt, Sparse.above_of_le (Nat.le_of_lt hlt) hp.2.1⟩, hm⟩
    · split
      · rename_i he
        subst he
        exact (Sparse.wf_cons d).mpr ⟨hv, hp.2.1, hp.2.2⟩
      · exact (Sparse.wf_cons d).mpr ⟨hp.1, Sparse.above_insert (by omega) hp.2.1, ih hp.2.2⟩

/-- A write keeps the canonical form. -/
theorem Sparse.wf_set [DecidableEq α] {k : Nat} {v : α} {m : Sparse α} (hm : Sparse.wf d m = true) :
    Sparse.wf d (Sparse.set d m k v) = true := by
  unfold Sparse.set
  split
  · exact Sparse.wf_drop d hm
  · exact Sparse.wf_insert d ‹_› hm

theorem Sparse.above_filter {b : Nat} {m : Sparse α} (f : Nat × α → Bool) (hm : Sparse.above b m = true) :
    Sparse.above b (m.filter f) = true := by
  simp only [Sparse.above, List.all_eq_true, List.mem_filter] at *
  exact fun p hp => hm p hp.1

/-- Taking entries out keeps the canonical form. -/
theorem Sparse.wf_filter [DecidableEq α] {m : Sparse α} (f : Nat × α → Bool) (hm : Sparse.wf d m = true) :
    Sparse.wf d (m.filter f) = true := by
  induction m with
  | nil => rfl
  | cons p m ih =>
    rw [Sparse.wf_cons] at hm
    simp only [List.filter_cons]
    split
    · exact (Sparse.wf_cons d).mpr ⟨hm.1, Sparse.above_filter f hm.2.1, ih hm.2.2⟩
    · exact ih hm.2.2

theorem Sparse.get_insert {k j : Nat} {v : α} {m : Sparse α} :
    Sparse.get d (Sparse.insert m k v) j = if k = j then v else Sparse.get d m j := by
  induction m with
  | nil => rfl
  | cons p m ih =>
    simp only [Sparse.insert]
    split
    · rfl
    · split
      · rename_i he
        subst he
        by_cases h : p.1 = j <;> simp [h]
      · by_cases h : p.1 = j
        · have : k ≠ j := by omega
          simp [h, this]
        · simp [h, ih]

theorem Sparse.get_drop {k j : Nat} {m : Sparse α} :
    Sparse.get d (Sparse.drop m k) j = if k = j then d k else Sparse.get d m j := by
  induction m with
  | nil => by_cases h : k = j <;> simp [Sparse.drop, h]
  | cons p m ih =>
    simp only [Sparse.drop]
    split
    · rename_i he
      subst he
      by_cases h : p.1 = j
      · subst h
        simp [ih]
      · simp [ih, h]
    · by_cases h : p.1 = j
      · have : k ≠ j := by omega
        simp [h, this]
      · simp [h, ih]

/-- Read after write, in canonical form or not. -/
theorem Sparse.get_set [DecidableEq α] {k j : Nat} {v : α} {m : Sparse α} :
    Sparse.get d (Sparse.set d m k v) j = if k = j then v else Sparse.get d m j := by
  unfold Sparse.set
  split
  · rename_i hv
    rw [Sparse.get_drop, hv]
  · exact Sparse.get_insert d

/-! Maps whose unlisted keys read as zero. -/

section
variable {n : Nat} {m : Sparse (BitVec n)} {k j : Nat} {v : BitVec n}

theorem Sparse.wf_write (hm : Sparse.wf (fun _ => 0) m = true) : Sparse.wf (fun _ => 0) (Sparse.write m k v) = true :=
  Sparse.wf_set _ hm

@[simp] theorem Sparse.read_write : Sparse.read (Sparse.write m k v) j = if k = j then v else Sparse.read m j :=
  Sparse.get_set _

theorem Sparse.read_write_self : Sparse.read (Sparse.write m k v) k = v := by simp

theorem Sparse.read_write_ne (h : k ≠ j) : Sparse.read (Sparse.write m k v) j = Sparse.read m j := by simp [h]

end

end Sys2Proof.Machine
end

