-- ==== Sys2Proof/Laws/State.lean ====
section
/-! SUPPORT. One lemma for each field of State under each of the basic updates, and for each field of an engine under the engine
updates, all true by rfl: no later proof unfolds a record update. -/

namespace Sys2Proof.Machine

section
variable (s : State) (r : RegName) (ix : List Nat) (v : W64) (f : Fld) (n k : Nat) (e : Eng) (en : Engine) (h : Half)
  (g : Engine → Engine)

@[simp] theorem State.setReg_engines : (s.setReg r ix v).engines = s.engines := rfl
@[simp] theorem State.setReg_mem : (s.setReg r ix v).mem = s.mem := rfl
@[simp] theorem State.setReg_memBad : (s.setReg r ix v).memBad = s.memBad := rfl
@[simp] theorem State.setReg_memSoft : (s.setReg r ix v).memSoft = s.memSoft := rfl
@[simp] theorem State.setReg_standin : (s.setReg r ix v).standin = s.standin := rfl
@[simp] theorem State.setReg_standinBad : (s.setReg r ix v).standinBad = s.standinBad := rfl
@[simp] theorem State.setReg_standinSoft : (s.setReg r ix v).standinSoft = s.standinSoft := rfl
@[simp] theorem State.setReg_syndromes : (s.setReg r ix v).syndromes = s.syndromes := rfl
@[simp] theorem State.setReg_copies : (s.setReg r ix v).copies = s.copies := rfl
@[simp] theorem State.setReg_hostmem : (s.setReg r ix v).hostmem = s.hostmem := rfl
@[simp] theorem State.setReg_fab : (s.setReg r ix v).fab = s.fab := rfl
@[simp] theorem State.setReg_persona : (s.setReg r ix v).persona = s.persona := rfl
@[simp] theorem State.setReg_log : (s.setReg r ix v).log = s.log := rfl
@[simp] theorem State.setReg_qitems : (s.setReg r ix v).qitems = s.qitems := rfl
@[simp] theorem State.setReg_linkBad : (s.setReg r ix v).linkBad = s.linkBad := rfl
@[simp] theorem State.setReg_poolReserved : (s.setReg r ix v).poolReserved = s.poolReserved := rfl
@[simp] theorem State.setReg_bridges : (s.setReg r ix v).bridges = s.bridges := rfl
@[simp] theorem State.setReg_ports : (s.setReg r ix v).ports = s.ports := rfl
@[simp] theorem State.setReg_sent : (s.setReg r ix v).sent = s.sent := rfl
@[simp] theorem State.setReg_wire : (s.setReg r ix v).wire = s.wire := rfl
@[simp] theorem State.setReg_ownFrames : (s.setReg r ix v).ownFrames = s.ownFrames := rfl
@[simp] theorem State.setReg_chain : (s.setReg r ix v).chain = s.chain := rfl
@[simp] theorem State.setReg_vault : (s.setReg r ix v).vault = s.vault := rfl
@[simp] theorem State.setReg_ref : (s.setReg r ix v).ref = s.ref := rfl
@[simp] theorem State.setReg_mc : (s.setReg r ix v).mc = s.mc := rfl
@[simp] theorem State.setReg_tests : (s.setReg r ix v).tests = s.tests := rfl
@[simp] theorem State.setReg_rotations : (s.setReg r ix v).rotations = s.rotations := rfl
@[simp] theorem State.setReg_sweeps : (s.setReg r ix v).sweeps = s.sweeps := rfl
@[simp] theorem State.setReg_retryTests : (s.setReg r ix v).retryTests = s.retryTests := rfl
@[simp] theorem State.setReg_answers : (s.setReg r ix v).answers = s.answers := rfl
@[simp] theorem State.setReg_hostOut : (s.setReg r ix v).hostOut = s.hostOut := rfl
@[simp] theorem State.setReg_hostFails : (s.setReg r ix v).hostFails = s.hostFails := rfl
@[simp] theorem State.setReg_held : (s.setReg r ix v).held = s.held := rfl
@[simp] theorem State.setReg_holds : (s.setReg r ix v).holds = s.holds := rfl
@[simp] theorem State.setReg_lost : (s.setReg r ix v).lost = s.lost := rfl
@[simp] theorem State.setReg_fenceWait : (s.setReg r ix v).fenceWait = s.fenceWait := rfl
@[simp] theorem State.setReg_carried : (s.setReg r ix v).carried = s.carried := rfl
@[simp] theorem State.setReg_holdoff : (s.setReg r ix v).holdoff = s.holdoff := rfl
@[simp] theorem State.setReg_notifyDue : (s.setReg r ix v).notifyDue = s.notifyDue := rfl
@[simp] theorem State.setReg_pads : (s.setReg r ix v).pads = s.pads := rfl
@[simp] theorem State.setReg_parked : (s.setReg r ix v).parked = s.parked := rfl
@[simp] theorem State.setReg_pinNow : (s.setReg r ix v).pinNow = s.pinNow := rfl
@[simp] theorem State.setReg_trigPulse : (s.setReg r ix v).trigPulse = s.trigPulse := rfl
@[simp] theorem State.setReg_free : (s.setReg r ix v).free = s.free := rfl
@[simp] theorem State.setReg_pending : (s.setReg r ix v).pending = s.pending := rfl

@[simp] theorem State.put_engines : (s.put f n ix).engines = s.engines := rfl
@[simp] theorem State.put_mem : (s.put f n ix).mem = s.mem := rfl
@[simp] theorem State.put_memBad : (s.put f n ix).memBad = s.memBad := rfl
@[simp] theorem State.put_memSoft : (s.put f n ix).memSoft = s.memSoft := rfl
@[simp] theorem State.put_standin : (s.put f n ix).standin = s.standin := rfl
@[simp] theorem State.put_standinBad : (s.put f n ix).standinBad = s.standinBad := rfl
@[simp] theorem State.put_standinSoft : (s.put f n ix).standinSoft = s.standinSoft := rfl
@[simp] theorem State.put_syndromes : (s.put f n ix).syndromes = s.syndromes := rfl
@[simp] theorem State.put_copies : (s.put f n ix).copies = s.copies := rfl
@[simp] theorem State.put_hostmem : (s.put f n ix).hostmem = s.hostmem := rfl
@[simp] theorem State.put_fab : (s.put f n ix).fab = s.fab := rfl
@[simp] theorem State.put_persona : (s.put f n ix).persona = s.persona := rfl
@[simp] theorem State.put_log : (s.put f n ix).log = s.log := rfl
@[simp] theorem State.put_qitems : (s.put f n ix).qitems = s.qitems := rfl
@[simp] theorem State.put_linkBad : (s.put f n ix).linkBad = s.linkBad := rfl
@[simp] theorem State.put_poolReserved : (s.put f n ix).poolReserved = s.poolReserved := rfl
@[simp] theorem State.put_bridges : (s.put f n ix).bridges = s.bridges := rfl
@[simp] theorem State.put_ports : (s.put f n ix).ports = s.ports := rfl
@[simp] theorem State.put_sent : (s.put f n ix).sent = s.sent := rfl
@[simp] theorem State.put_wire : (s.put f n ix).wire = s.wire := rfl
@[simp] theorem State.put_ownFrames : (s.put f n ix).ownFrames = s.ownFrames := rfl
@[simp] theorem State.put_chain : (s.put f n ix).chain = s.chain := rfl
@[simp] theorem State.put_vault : (s.put f n ix).vault = s.vault := rfl
@[simp] theorem State.put_ref : (s.put f n ix).ref = s.ref := rfl
@[simp] theorem State.put_mc : (s.put f n ix).mc = s.mc := rfl
@[simp] theorem State.put_tests : (s.put f n ix).tests = s.tests := rfl
@[simp] theorem State.put_rotations : (s.put f n ix).rotations = s.rotations := rfl
@[simp] theorem State.put_sweeps : (s.put f n ix).sweeps = s.sweeps := rfl
@[simp] theorem State.put_retryTests : (s.put f n ix).retryTests = s.retryTests := rfl
@[simp] theorem State.put_answers : (s.put f n ix).answers = s.answers := rfl
@[simp] theorem State.put_hostOut : (s.put f n ix).hostOut = s.hostOut := rfl
@[simp] theorem State.put_hostFails : (s.put f n ix).hostFails = s.hostFails := rfl
@[simp] theorem State.put_held : (s.put f n ix).held = s.held := rfl
@[simp] theorem State.put_holds : (s.put f n ix).holds = s.holds := rfl
@[simp] theorem State.put_lost : (s.put f n ix).lost = s.lost := rfl
@[simp] theorem State.put_fenceWait : (s.put f n ix).fenceWait = s.fenceWait := rfl
@[simp] theorem State.put_carried : (s.put f n ix).carried = s.carried := rfl
@[simp] theorem State.put_holdoff : (s.put f n ix).holdoff = s.holdoff := rfl
@[simp] theorem State.put_notifyDue : (s.put f n ix).notifyDue = s.notifyDue := rfl
@[simp] theorem State.put_pads : (s.put f n ix).pads = s.pads := rfl
@[simp] theorem State.put_parked : (s.put f n ix).parked = s.parked := rfl
@[simp] theorem State.put_pinNow : (s.put f n ix).pinNow = s.pinNow := rfl
@[simp] theorem State.put_trigPulse : (s.put f n ix).trigPulse = s.trigPulse := rfl
@[simp] theorem State.put_free : (s.put f n ix).free = s.free := rfl
@[simp] theorem State.put_pending : (s.put f n ix).pending = s.pending := rfl

@[simp] theorem State.count_engines : (s.count f ix k).engines = s.engines := rfl
@[simp] theorem State.count_mem : (s.count f ix k).mem = s.mem := rfl
@[simp] theorem State.count_memBad : (s.count f ix k).memBad = s.memBad := rfl
@[simp] theorem State.count_memSoft : (s.count f ix k).memSoft = s.memSoft := rfl
@[simp] theorem State.count_standin : (s.count f ix k).standin = s.standin := rfl
@[simp] theorem State.count_standinBad : (s.count f ix k).standinBad = s.standinBad := rfl
@[simp] theorem State.count_standinSoft : (s.count f ix k).standinSoft = s.standinSoft := rfl
@[simp] theorem State.count_syndromes : (s.count f ix k).syndromes = s.syndromes := rfl
@[simp] theorem State.count_copies : (s.count f ix k).copies = s.copies := rfl
@[simp] theorem State.count_hostmem : (s.count f ix k).hostmem = s.hostmem := rfl
@[simp] theorem State.count_fab : (s.count f ix k).fab = s.fab := rfl
@[simp] theorem State.count_persona : (s.count f ix k).persona = s.persona := rfl
@[simp] theorem State.count_log : (s.count f ix k).log = s.log := rfl
@[simp] theorem State.count_qitems : (s.count f ix k).qitems = s.qitems := rfl
@[simp] theorem State.count_linkBad : (s.count f ix k).linkBad = s.linkBad := rfl
@[simp] theorem State.count_poolReserved : (s.count f ix k).poolReserved = s.poolReserved := rfl
@[simp] theorem State.count_bridges : (s.count f ix k).bridges = s.bridges := rfl
@[simp] theorem State.count_ports : (s.count f ix k).ports = s.ports := rfl
@[simp] theorem State.count_sent : (s.count f ix k).sent = s.sent := rfl
@[simp] theorem State.count_wire : (s.count f ix k).wire = s.wire := rfl
@[simp] theorem State.count_ownFrames : (s.count f ix k).ownFrames = s.ownFrames := rfl
@[simp] theorem State.count_chain : (s.count f ix k).chain = s.chain := rfl
@[simp] theorem State.count_vault : (s.count f ix k).vault = s.vault := rfl
@[simp] theorem State.count_ref : (s.count f ix k).ref = s.ref := rfl
@[simp] theorem State.count_mc : (s.count f ix k).mc = s.mc := rfl
@[simp] theorem State.count_tests : (s.count f ix k).tests = s.tests := rfl
@[simp] theorem State.count_rotations : (s.count f ix k).rotations = s.rotations := rfl
@[simp] theorem State.count_sweeps : (s.count f ix k).sweeps = s.sweeps := rfl
@[simp] theorem State.count_retryTests : (s.count f ix k).retryTests = s.retryTests := rfl
@[simp] theorem State.count_answers : (s.count f ix k).answers = s.answers := rfl
@[simp] theorem State.count_hostOut : (s.count f ix k).hostOut = s.hostOut := rfl
@[simp] theorem State.count_hostFails : (s.count f ix k).hostFails = s.hostFails := rfl
@[simp] theorem State.count_held : (s.count f ix k).held = s.held := rfl
@[simp] theorem State.count_holds : (s.count f ix k).holds = s.holds := rfl
@[simp] theorem State.count_lost : (s.count f ix k).lost = s.lost := rfl
@[simp] theorem State.count_fenceWait : (s.count f ix k).fenceWait = s.fenceWait := rfl
@[simp] theorem State.count_carried : (s.count f ix k).carried = s.carried := rfl
@[simp] theorem State.count_holdoff : (s.count f ix k).holdoff = s.holdoff := rfl
@[simp] theorem State.count_notifyDue : (s.count f ix k).notifyDue = s.notifyDue := rfl
@[simp] theorem State.count_pads : (s.count f ix k).pads = s.pads := rfl
@[simp] theorem State.count_parked : (s.count f ix k).parked = s.parked := rfl
@[simp] theorem State.count_pinNow : (s.count f ix k).pinNow = s.pinNow := rfl
@[simp] theorem State.count_trigPulse : (s.count f ix k).trigPulse = s.trigPulse := rfl
@[simp] theorem State.count_free : (s.count f ix k).free = s.free := rfl
@[simp] theorem State.count_pending : (s.count f ix k).pending = s.pending := rfl

@[simp] theorem State.orBits_engines : (s.orBits f n ix).engines = s.engines := rfl
@[simp] theorem State.orBits_mem : (s.orBits f n ix).mem = s.mem := rfl
@[simp] theorem State.orBits_memBad : (s.orBits f n ix).memBad = s.memBad := rfl
@[simp] theorem State.orBits_memSoft : (s.orBits f n ix).memSoft = s.memSoft := rfl
@[simp] theorem State.orBits_standin : (s.orBits f n ix).standin = s.standin := rfl
@[simp] theorem State.orBits_standinBad : (s.orBits f n ix).standinBad = s.standinBad := rfl
@[simp] theorem State.orBits_standinSoft : (s.orBits f n ix).standinSoft = s.standinSoft := rfl
@[simp] theorem State.orBits_syndromes : (s.orBits f n ix).syndromes = s.syndromes := rfl
@[simp] theorem State.orBits_copies : (s.orBits f n ix).copies = s.copies := rfl
@[simp] theorem State.orBits_hostmem : (s.orBits f n ix).hostmem = s.hostmem := rfl
@[simp] theorem State.orBits_fab : (s.orBits f n ix).fab = s.fab := rfl
@[simp] theorem State.orBits_persona : (s.orBits f n ix).persona = s.persona := rfl
@[simp] theorem State.orBits_log : (s.orBits f n ix).log = s.log := rfl
@[simp] theorem State.orBits_qitems : (s.orBits f n ix).qitems = s.qitems := rfl
@[simp] theorem State.orBits_linkBad : (s.orBits f n ix).linkBad = s.linkBad := rfl
@[simp] theorem State.orBits_poolReserved : (s.orBits f n ix).poolReserved = s.poolReserved := rfl
@[simp] theorem State.orBits_bridges : (s.orBits f n ix).bridges = s.bridges := rfl
@[simp] theorem State.orBits_ports : (s.orBits f n ix).ports = s.ports := rfl
@[simp] theorem State.orBits_sent : (s.orBits f n ix).sent = s.sent := rfl
@[simp] theorem State.orBits_wire : (s.orBits f n ix).wire = s.wire := rfl
@[simp] theorem State.orBits_ownFrames : (s.orBits f n ix).ownFrames = s.ownFrames := rfl
@[simp] theorem State.orBits_chain : (s.orBits f n ix).chain = s.chain := rfl
@[simp] theorem State.orBits_vault : (s.orBits f n ix).vault = s.vault := rfl
@[simp] theorem State.orBits_ref : (s.orBits f n ix).ref = s.ref := rfl
@[simp] theorem State.orBits_mc : (s.orBits f n ix).mc = s.mc := rfl
@[simp] theorem State.orBits_tests : (s.orBits f n ix).tests = s.tests := rfl
@[simp] theorem State.orBits_rotations : (s.orBits f n ix).rotations = s.rotations := rfl
@[simp] theorem State.orBits_sweeps : (s.orBits f n ix).sweeps = s.sweeps := rfl
@[simp] theorem State.orBits_retryTests : (s.orBits f n ix).retryTests = s.retryTests := rfl
@[simp] theorem State.orBits_answers : (s.orBits f n ix).answers = s.answers := rfl
@[simp] theorem State.orBits_hostOut : (s.orBits f n ix).hostOut = s.hostOut := rfl
@[simp] theorem State.orBits_hostFails : (s.orBits f n ix).hostFails = s.hostFails := rfl
@[simp] theorem State.orBits_held : (s.orBits f n ix).held = s.held := rfl
@[simp] theorem State.orBits_holds : (s.orBits f n ix).holds = s.holds := rfl
@[simp] theorem State.orBits_lost : (s.orBits f n ix).lost = s.lost := rfl
@[simp] theorem State.orBits_fenceWait : (s.orBits f n ix).fenceWait = s.fenceWait := rfl
@[simp] theorem State.orBits_carried : (s.orBits f n ix).carried = s.carried := rfl
@[simp] theorem State.orBits_holdoff : (s.orBits f n ix).holdoff = s.holdoff := rfl
@[simp] theorem State.orBits_notifyDue : (s.orBits f n ix).notifyDue = s.notifyDue := rfl
@[simp] theorem State.orBits_pads : (s.orBits f n ix).pads = s.pads := rfl
@[simp] theorem State.orBits_parked : (s.orBits f n ix).parked = s.parked := rfl
@[simp] theorem State.orBits_pinNow : (s.orBits f n ix).pinNow = s.pinNow := rfl
@[simp] theorem State.orBits_trigPulse : (s.orBits f n ix).trigPulse = s.trigPulse := rfl
@[simp] theorem State.orBits_free : (s.orBits f n ix).free = s.free := rfl
@[simp] theorem State.orBits_pending : (s.orBits f n ix).pending = s.pending := rfl

@[simp] theorem State.clearReg_engines : (s.clearReg r ix).engines = s.engines := rfl
@[simp] theorem State.clearReg_mem : (s.clearReg r ix).mem = s.mem := rfl
@[simp] theorem State.clearReg_memBad : (s.clearReg r ix).memBad = s.memBad := rfl
@[simp] theorem State.clearReg_memSoft : (s.clearReg r ix).memSoft = s.memSoft := rfl
@[simp] theorem State.clearReg_standin : (s.clearReg r ix).standin = s.standin := rfl
@[simp] theorem State.clearReg_standinBad : (s.clearReg r ix).standinBad = s.standinBad := rfl
@[simp] theorem State.clearReg_standinSoft : (s.clearReg r ix).standinSoft = s.standinSoft := rfl
@[simp] theorem State.clearReg_syndromes : (s.clearReg r ix).syndromes = s.syndromes := rfl
@[simp] theorem State.clearReg_copies : (s.clearReg r ix).copies = s.copies := rfl
@[simp] theorem State.clearReg_hostmem : (s.clearReg r ix).hostmem = s.hostmem := rfl
@[simp] theorem State.clearReg_fab : (s.clearReg r ix).fab = s.fab := rfl
@[simp] theorem State.clearReg_persona : (s.clearReg r ix).persona = s.persona := rfl
@[simp] theorem State.clearReg_log : (s.clearReg r ix).log = s.log := rfl
@[simp] theorem State.clearReg_qitems : (s.clearReg r ix).qitems = s.qitems := rfl
@[simp] theorem State.clearReg_linkBad : (s.clearReg r ix).linkBad = s.linkBad := rfl
@[simp] theorem State.clearReg_poolReserved : (s.clearReg r ix).poolReserved = s.poolReserved := rfl
@[simp] theorem State.clearReg_bridges : (s.clearReg r ix).bridges = s.bridges := rfl
@[simp] theorem State.clearReg_ports : (s.clearReg r ix).ports = s.ports := rfl
@[simp] theorem State.clearReg_sent : (s.clearReg r ix).sent = s.sent := rfl
@[simp] theorem State.clearReg_wire : (s.clearReg r ix).wire = s.wire := rfl
@[simp] theorem State.clearReg_ownFrames : (s.clearReg r ix).ownFrames = s.ownFrames := rfl
@[simp] theorem State.clearReg_chain : (s.clearReg r ix).chain = s.chain := rfl
@[simp] theorem State.clearReg_vault : (s.clearReg r ix).vault = s.vault := rfl
@[simp] theorem State.clearReg_ref : (s.clearReg r ix).ref = s.ref := rfl
@[simp] theorem State.clearReg_mc : (s.clearReg r ix).mc = s.mc := rfl
@[simp] theorem State.clearReg_tests : (s.clearReg r ix).tests = s.tests := rfl
@[simp] theorem State.clearReg_rotations : (s.clearReg r ix).rotations = s.rotations := rfl
@[simp] theorem State.clearReg_sweeps : (s.clearReg r ix).sweeps = s.sweeps := rfl
@[simp] theorem State.clearReg_retryTests : (s.clearReg r ix).retryTests = s.retryTests := rfl
@[simp] theorem State.clearReg_answers : (s.clearReg r ix).answers = s.answers := rfl
@[simp] theorem State.clearReg_hostOut : (s.clearReg r ix).hostOut = s.hostOut := rfl
@[simp] theorem State.clearReg_hostFails : (s.clearReg r ix).hostFails = s.hostFails := rfl
@[simp] theorem State.clearReg_held : (s.clearReg r ix).held = s.held := rfl
@[simp] theorem State.clearReg_holds : (s.clearReg r ix).holds = s.holds := rfl
@[simp] theorem State.clearReg_lost : (s.clearReg r ix).lost = s.lost := rfl
@[simp] theorem State.clearReg_fenceWait : (s.clearReg r ix).fenceWait = s.fenceWait := rfl
@[simp] theorem State.clearReg_carried : (s.clearReg r ix).carried = s.carried := rfl
@[simp] theorem State.clearReg_holdoff : (s.clearReg r ix).holdoff = s.holdoff := rfl
@[simp] theorem State.clearReg_notifyDue : (s.clearReg r ix).notifyDue = s.notifyDue := rfl
@[simp] theorem State.clearReg_pads : (s.clearReg r ix).pads = s.pads := rfl
@[simp] theorem State.clearReg_parked : (s.clearReg r ix).parked = s.parked := rfl
@[simp] theorem State.clearReg_pinNow : (s.clearReg r ix).pinNow = s.pinNow := rfl
@[simp] theorem State.clearReg_trigPulse : (s.clearReg r ix).trigPulse = s.trigPulse := rfl
@[simp] theorem State.clearReg_free : (s.clearReg r ix).free = s.free := rfl
@[simp] theorem State.clearReg_pending : (s.clearReg r ix).pending = s.pending := rfl

@[simp] theorem State.store_engines : (s.store r ix h v).engines = s.engines := rfl
@[simp] theorem State.store_mem : (s.store r ix h v).mem = s.mem := rfl
@[simp] theorem State.store_memBad : (s.store r ix h v).memBad = s.memBad := rfl
@[simp] theorem State.store_memSoft : (s.store r ix h v).memSoft = s.memSoft := rfl
@[simp] theorem State.store_standin : (s.store r ix h v).standin = s.standin := rfl
@[simp] theorem State.store_standinBad : (s.store r ix h v).standinBad = s.standinBad := rfl
@[simp] theorem State.store_standinSoft : (s.store r ix h v).standinSoft = s.standinSoft := rfl
@[simp] theorem State.store_syndromes : (s.store r ix h v).syndromes = s.syndromes := rfl
@[simp] theorem State.store_copies : (s.store r ix h v).copies = s.copies := rfl
@[simp] theorem State.store_hostmem : (s.store r ix h v).hostmem = s.hostmem := rfl
@[simp] theorem State.store_fab : (s.store r ix h v).fab = s.fab := rfl
@[simp] theorem State.store_persona : (s.store r ix h v).persona = s.persona := rfl
@[simp] theorem State.store_log : (s.store r ix h v).log = s.log := rfl
@[simp] theorem State.store_qitems : (s.store r ix h v).qitems = s.qitems := rfl
@[simp] theorem State.store_linkBad : (s.store r ix h v).linkBad = s.linkBad := rfl
@[simp] theorem State.store_poolReserved : (s.store r ix h v).poolReserved = s.poolReserved := rfl
@[simp] theorem State.store_bridges : (s.store r ix h v).bridges = s.bridges := rfl
@[simp] theorem State.store_ports : (s.store r ix h v).ports = s.ports := rfl
@[simp] theorem State.store_sent : (s.store r ix h v).sent = s.sent := rfl
@[simp] theorem State.store_wire : (s.store r ix h v).wire = s.wire := rfl
@[simp] theorem State.store_ownFrames : (s.store r ix h v).ownFrames = s.ownFrames := rfl
@[simp] theorem State.store_chain : (s.store r ix h v).chain = s.chain := rfl
@[simp] theorem State.store_vault : (s.store r ix h v).vault = s.vault := rfl
@[simp] theorem State.store_ref : (s.store r ix h v).ref = s.ref := rfl
@[simp] theorem State.store_mc : (s.store r ix h v).mc = s.mc := rfl
@[simp] theorem State.store_tests : (s.store r ix h v).tests = s.tests := rfl
@[simp] theorem State.store_rotations : (s.store r ix h v).rotations = s.rotations := rfl
@[simp] theorem State.store_sweeps : (s.store r ix h v).sweeps = s.sweeps := rfl
@[simp] theorem State.store_retryTests : (s.store r ix h v).retryTests = s.retryTests := rfl
@[simp] theorem State.store_answers : (s.store r ix h v).answers = s.answers := rfl
@[simp] theorem State.store_hostOut : (s.store r ix h v).hostOut = s.hostOut := rfl
@[simp] theorem State.store_hostFails : (s.store r ix h v).hostFails = s.hostFails := rfl
@[simp] theorem State.store_held : (s.store r ix h v).held = s.held := rfl
@[simp] theorem State.store_holds : (s.store r ix h v).holds = s.holds := rfl
@[simp] theorem State.store_lost : (s.store r ix h v).lost = s.lost := rfl
@[simp] theorem State.store_fenceWait : (s.store r ix h v).fenceWait = s.fenceWait := rfl
@[simp] theorem State.store_carried : (s.store r ix h v).carried = s.carried := rfl
@[simp] theorem State.store_holdoff : (s.store r ix h v).holdoff = s.holdoff := rfl
@[simp] theorem State.store_notifyDue : (s.store r ix h v).notifyDue = s.notifyDue := rfl
@[simp] theorem State.store_pads : (s.store r ix h v).pads = s.pads := rfl
@[simp] theorem State.store_parked : (s.store r ix h v).parked = s.parked := rfl
@[simp] theorem State.store_pinNow : (s.store r ix h v).pinNow = s.pinNow := rfl
@[simp] theorem State.store_trigPulse : (s.store r ix h v).trigPulse = s.trigPulse := rfl
@[simp] theorem State.store_free : (s.store r ix h v).free = s.free := rfl
@[simp] theorem State.store_pending : (s.store r ix h v).pending = s.pending := rfl

@[simp] theorem State.clearBlock_engines : (s.clearBlock n k).engines = s.engines := rfl
@[simp] theorem State.clearBlock_mem : (s.clearBlock n k).mem = s.mem := rfl
@[simp] theorem State.clearBlock_memBad : (s.clearBlock n k).memBad = s.memBad := rfl
@[simp] theorem State.clearBlock_memSoft : (s.clearBlock n k).memSoft = s.memSoft := rfl
@[simp] theorem State.clearBlock_standin : (s.clearBlock n k).standin = s.standin := rfl
@[simp] theorem State.clearBlock_standinBad : (s.clearBlock n k).standinBad = s.standinBad := rfl
@[simp] theorem State.clearBlock_standinSoft : (s.clearBlock n k).standinSoft = s.standinSoft := rfl
@[simp] theorem State.clearBlock_syndromes : (s.clearBlock n k).syndromes = s.syndromes := rfl
@[simp] theorem State.clearBlock_copies : (s.clearBlock n k).copies = s.copies := rfl
@[simp] theorem State.clearBlock_hostmem : (s.clearBlock n k).hostmem = s.hostmem := rfl
@[simp] theorem State.clearBlock_fab : (s.clearBlock n k).fab = s.fab := rfl
@[simp] theorem State.clearBlock_persona : (s.clearBlock n k).persona = s.persona := rfl
@[simp] theorem State.clearBlock_log : (s.clearBlock n k).log = s.log := rfl
@[simp] theorem State.clearBlock_qitems : (s.clearBlock n k).qitems = s.qitems := rfl
@[simp] theorem State.clearBlock_linkBad : (s.clearBlock n k).linkBad = s.linkBad := rfl
@[simp] theorem State.clearBlock_poolReserved : (s.clearBlock n k).poolReserved = s.poolReserved := rfl
@[simp] theorem State.clearBlock_bridges : (s.clearBlock n k).bridges = s.bridges := rfl
@[simp] theorem State.clearBlock_ports : (s.clearBlock n k).ports = s.ports := rfl
@[simp] theorem State.clearBlock_sent : (s.clearBlock n k).sent = s.sent := rfl
@[simp] theorem State.clearBlock_wire : (s.clearBlock n k).wire = s.wire := rfl
@[simp] theorem State.clearBlock_ownFrames : (s.clearBlock n k).ownFrames = s.ownFrames := rfl
@[simp] theorem State.clearBlock_chain : (s.clearBlock n k).chain = s.chain := rfl
@[simp] theorem State.clearBlock_vault : (s.clearBlock n k).vault = s.vault := rfl
@[simp] theorem State.clearBlock_ref : (s.clearBlock n k).ref = s.ref := rfl
@[simp] theorem State.clearBlock_mc : (s.clearBlock n k).mc = s.mc := rfl
@[simp] theorem State.clearBlock_tests : (s.clearBlock n k).tests = s.tests := rfl
@[simp] theorem State.clearBlock_rotations : (s.clearBlock n k).rotations = s.rotations := rfl
@[simp] theorem State.clearBlock_sweeps : (s.clearBlock n k).sweeps = s.sweeps := rfl
@[simp] theorem State.clearBlock_retryTests : (s.clearBlock n k).retryTests = s.retryTests := rfl
@[simp] theorem State.clearBlock_answers : (s.clearBlock n k).answers = s.answers := rfl
@[simp] theorem State.clearBlock_hostOut : (s.clearBlock n k).hostOut = s.hostOut := rfl
@[simp] theorem State.clearBlock_hostFails : (s.clearBlock n k).hostFails = s.hostFails := rfl
@[simp] theorem State.clearBlock_held : (s.clearBlock n k).held = s.held := rfl
@[simp] theorem State.clearBlock_holds : (s.clearBlock n k).holds = s.holds := rfl
@[simp] theorem State.clearBlock_lost : (s.clearBlock n k).lost = s.lost := rfl
@[simp] theorem State.clearBlock_fenceWait : (s.clearBlock n k).fenceWait = s.fenceWait := rfl
@[simp] theorem State.clearBlock_carried : (s.clearBlock n k).carried = s.carried := rfl
@[simp] theorem State.clearBlock_holdoff : (s.clearBlock n k).holdoff = s.holdoff := rfl
@[simp] theorem State.clearBlock_notifyDue : (s.clearBlock n k).notifyDue = s.notifyDue := rfl
@[simp] theorem State.clearBlock_pads : (s.clearBlock n k).pads = s.pads := rfl
@[simp] theorem State.clearBlock_parked : (s.clearBlock n k).parked = s.parked := rfl
@[simp] theorem State.clearBlock_pinNow : (s.clearBlock n k).pinNow = s.pinNow := rfl
@[simp] theorem State.clearBlock_trigPulse : (s.clearBlock n k).trigPulse = s.trigPulse := rfl
@[simp] theorem State.clearBlock_free : (s.clearBlock n k).free = s.free := rfl
@[simp] theorem State.clearBlock_pending : (s.clearBlock n k).pending = s.pending := rfl

@[simp] theorem State.setEng_regs : (s.setEng e en).regs = s.regs := rfl
@[simp] theorem State.setEng_mem : (s.setEng e en).mem = s.mem := rfl
@[simp] theorem State.setEng_memBad : (s.setEng e en).memBad = s.memBad := rfl
@[simp] theorem State.setEng_memSoft : (s.setEng e en).memSoft = s.memSoft := rfl
@[simp] theorem State.setEng_standin : (s.setEng e en).standin = s.standin := rfl
@[simp] theorem State.setEng_standinBad : (s.setEng e en).standinBad = s.standinBad := rfl
@[simp] theorem State.setEng_standinSoft : (s.setEng e en).standinSoft = s.standinSoft := rfl
@[simp] theorem State.setEng_syndromes : (s.setEng e en).syndromes = s.syndromes := rfl
@[simp] theorem State.setEng_copies : (s.setEng e en).copies = s.copies := rfl
@[simp] theorem State.setEng_hostmem : (s.setEng e en).hostmem = s.hostmem := rfl
@[simp] theorem State.setEng_fab : (s.setEng e en).fab = s.fab := rfl
@[simp] theorem State.setEng_persona : (s.setEng e en).persona = s.persona := rfl
@[simp] theorem State.setEng_log : (s.setEng e en).log = s.log := rfl
@[simp] theorem State.setEng_qitems : (s.setEng e en).qitems = s.qitems := rfl
@[simp] theorem State.setEng_linkBad : (s.setEng e en).linkBad = s.linkBad := rfl
@[simp] theorem State.setEng_poolReserved : (s.setEng e en).poolReserved = s.poolReserved := rfl
@[simp] theorem State.setEng_bridges : (s.setEng e en).bridges = s.bridges := rfl
@[simp] theorem State.setEng_ports : (s.setEng e en).ports = s.ports := rfl
@[simp] theorem State.setEng_sent : (s.setEng e en).sent = s.sent := rfl
@[simp] theorem State.setEng_wire : (s.setEng e en).wire = s.wire := rfl
@[simp] theorem State.setEng_ownFrames : (s.setEng e en).ownFrames = s.ownFrames := rfl
@[simp] theorem State.setEng_chain : (s.setEng e en).chain = s.chain := rfl
@[simp] theorem State.setEng_vault : (s.setEng e en).vault = s.vault := rfl
@[simp] theorem State.setEng_ref : (s.setEng e en).ref = s.ref := rfl
@[simp] theorem State.setEng_mc : (s.setEng e en).mc = s.mc := rfl
@[simp] theorem State.setEng_tests : (s.setEng e en).tests = s.tests := rfl
@[simp] theorem State.setEng_rotations : (s.setEng e en).rotations = s.rotations := rfl
@[simp] theorem State.setEng_sweeps : (s.setEng e en).sweeps = s.sweeps := rfl
@[simp] theorem State.setEng_retryTests : (s.setEng e en).retryTests = s.retryTests := rfl
@[simp] theorem State.setEng_answers : (s.setEng e en).answers = s.answers := rfl
@[simp] theorem State.setEng_hostOut : (s.setEng e en).hostOut = s.hostOut := rfl
@[simp] theorem State.setEng_hostFails : (s.setEng e en).hostFails = s.hostFails := rfl
@[simp] theorem State.setEng_held : (s.setEng e en).held = s.held := rfl
@[simp] theorem State.setEng_holds : (s.setEng e en).holds = s.holds := rfl
@[simp] theorem State.setEng_lost : (s.setEng e en).lost = s.lost := rfl
@[simp] theorem State.setEng_fenceWait : (s.setEng e en).fenceWait = s.fenceWait := rfl
@[simp] theorem State.setEng_carried : (s.setEng e en).carried = s.carried := rfl
@[simp] theorem State.setEng_holdoff : (s.setEng e en).holdoff = s.holdoff := rfl
@[simp] theorem State.setEng_notifyDue : (s.setEng e en).notifyDue = s.notifyDue := rfl
@[simp] theorem State.setEng_pads : (s.setEng e en).pads = s.pads := rfl
@[simp] theorem State.setEng_parked : (s.setEng e en).parked = s.parked := rfl
@[simp] theorem State.setEng_pinNow : (s.setEng e en).pinNow = s.pinNow := rfl
@[simp] theorem State.setEng_trigPulse : (s.setEng e en).trigPulse = s.trigPulse := rfl
@[simp] theorem State.setEng_free : (s.setEng e en).free = s.free := rfl
@[simp] theorem State.setEng_pending : (s.setEng e en).pending = s.pending := rfl

@[simp] theorem State.onEng_regs : (s.onEng e g).regs = s.regs := rfl
@[simp] theorem State.onEng_mem : (s.onEng e g).mem = s.mem := rfl
@[simp] theorem State.onEng_memBad : (s.onEng e g).memBad = s.memBad := rfl
@[simp] theorem State.onEng_memSoft : (s.onEng e g).memSoft = s.memSoft := rfl
@[simp] theorem State.onEng_standin : (s.onEng e g).standin = s.standin := rfl
@[simp] theorem State.onEng_standinBad : (s.onEng e g).standinBad = s.standinBad := rfl
@[simp] theorem State.onEng_standinSoft : (s.onEng e g).standinSoft = s.standinSoft := rfl
@[simp] theorem State.onEng_syndromes : (s.onEng e g).syndromes = s.syndromes := rfl
@[simp] theorem State.onEng_copies : (s.onEng e g).copies = s.copies := rfl
@[simp] theorem State.onEng_hostmem : (s.onEng e g).hostmem = s.hostmem := rfl
@[simp] theorem State.onEng_fab : (s.onEng e g).fab = s.fab := rfl
@[simp] theorem State.onEng_persona : (s.onEng e g).persona = s.persona := rfl
@[simp] theorem State.onEng_log : (s.onEng e g).log = s.log := rfl
@[simp] theorem State.onEng_qitems : (s.onEng e g).qitems = s.qitems := rfl
@[simp] theorem State.onEng_linkBad : (s.onEng e g).linkBad = s.linkBad := rfl
@[simp] theorem State.onEng_poolReserved : (s.onEng e g).poolReserved = s.poolReserved := rfl
@[simp] theorem State.onEng_bridges : (s.onEng e g).bridges = s.bridges := rfl
@[simp] theorem State.onEng_ports : (s.onEng e g).ports = s.ports := rfl
@[simp] theorem State.onEng_sent : (s.onEng e g).sent = s.sent := rfl
@[simp] theorem State.onEng_wire : (s.onEng e g).wire = s.wire := rfl
@[simp] theorem State.onEng_ownFrames : (s.onEng e g).ownFrames = s.ownFrames := rfl
@[simp] theorem State.onEng_chain : (s.onEng e g).chain = s.chain := rfl
@[simp] theorem State.onEng_vault : (s.onEng e g).vault = s.vault := rfl
@[simp] theorem State.onEng_ref : (s.onEng e g).ref = s.ref := rfl
@[simp] theorem State.onEng_mc : (s.onEng e g).mc = s.mc := rfl
@[simp] theorem State.onEng_tests : (s.onEng e g).tests = s.tests := rfl
@[simp] theorem State.onEng_rotations : (s.onEng e g).rotations = s.rotations := rfl
@[simp] theorem State.onEng_sweeps : (s.onEng e g).sweeps = s.sweeps := rfl
@[simp] theorem State.onEng_retryTests : (s.onEng e g).retryTests = s.retryTests := rfl
@[simp] theorem State.onEng_answers : (s.onEng e g).answers = s.answers := rfl
@[simp] theorem State.onEng_hostOut : (s.onEng e g).hostOut = s.hostOut := rfl
@[simp] theorem State.onEng_hostFails : (s.onEng e g).hostFails = s.hostFails := rfl
@[simp] theorem State.onEng_held : (s.onEng e g).held = s.held := rfl
@[simp] theorem State.onEng_holds : (s.onEng e g).holds = s.holds := rfl
@[simp] theorem State.onEng_lost : (s.onEng e g).lost = s.lost := rfl
@[simp] theorem State.onEng_fenceWait : (s.onEng e g).fenceWait = s.fenceWait := rfl
@[simp] theorem State.onEng_carried : (s.onEng e g).carried = s.carried := rfl
@[simp] theorem State.onEng_holdoff : (s.onEng e g).holdoff = s.holdoff := rfl
@[simp] theorem State.onEng_notifyDue : (s.onEng e g).notifyDue = s.notifyDue := rfl
@[simp] theorem State.onEng_pads : (s.onEng e g).pads = s.pads := rfl
@[simp] theorem State.onEng_parked : (s.onEng e g).parked = s.parked := rfl
@[simp] theorem State.onEng_pinNow : (s.onEng e g).pinNow = s.pinNow := rfl
@[simp] theorem State.onEng_trigPulse : (s.onEng e g).trigPulse = s.trigPulse := rfl
@[simp] theorem State.onEng_free : (s.onEng e g).free = s.free := rfl
@[simp] theorem State.onEng_pending : (s.onEng e g).pending = s.pending := rfl

@[simp] theorem State.spend_regs : (s.spend).regs = s.regs := rfl
@[simp] theorem State.spend_engines : (s.spend).engines = s.engines := rfl
@[simp] theorem State.spend_mem : (s.spend).mem = s.mem := rfl
@[simp] theorem State.spend_memBad : (s.spend).memBad = s.memBad := rfl
@[simp] theorem State.spend_memSoft : (s.spend).memSoft = s.memSoft := rfl
@[simp] theorem State.spend_standin : (s.spend).standin = s.standin := rfl
@[simp] theorem State.spend_standinBad : (s.spend).standinBad = s.standinBad := rfl
@[simp] theorem State.spend_standinSoft : (s.spend).standinSoft = s.standinSoft := rfl
@[simp] theorem State.spend_syndromes : (s.spend).syndromes = s.syndromes := rfl
@[simp] theorem State.spend_copies : (s.spend).copies = s.copies := rfl
@[simp] theorem State.spend_hostmem : (s.spend).hostmem = s.hostmem := rfl
@[simp] theorem State.spend_fab : (s.spend).fab = s.fab := rfl
@[simp] theorem State.spend_persona : (s.spend).persona = s.persona := rfl
@[simp] theorem State.spend_log : (s.spend).log = s.log := rfl
@[simp] theorem State.spend_qitems : (s.spend).qitems = s.qitems := rfl
@[simp] theorem State.spend_linkBad : (s.spend).linkBad = s.linkBad := rfl
@[simp] theorem State.spend_poolReserved : (s.spend).poolReserved = s.poolReserved := rfl
@[simp] theorem State.spend_bridges : (s.spend).bridges = s.bridges := rfl
@[simp] theorem State.spend_ports : (s.spend).ports = s.ports := rfl
@[simp] theorem State.spend_sent : (s.spend).sent = s.sent := rfl
@[simp] theorem State.spend_wire : (s.spend).wire = s.wire := rfl
@[simp] theorem State.spend_ownFrames : (s.spend).ownFrames = s.ownFrames := rfl
@[simp] theorem State.spend_chain : (s.spend).chain = s.chain := rfl
@[simp] theorem State.spend_vault : (s.spend).vault = s.vault := rfl
@[simp] theorem State.spend_ref : (s.spend).ref = s.ref := rfl
@[simp] theorem State.spend_mc : (s.spend).mc = s.mc := rfl
@[simp] theorem State.spend_tests : (s.spend).tests = s.tests := rfl
@[simp] theorem State.spend_rotations : (s.spend).rotations = s.rotations := rfl
@[simp] theorem State.spend_sweeps : (s.spend).sweeps = s.sweeps := rfl
@[simp] theorem State.spend_retryTests : (s.spend).retryTests = s.retryTests := rfl
@[simp] theorem State.spend_answers : (s.spend).answers = s.answers := rfl
@[simp] theorem State.spend_hostOut : (s.spend).hostOut = s.hostOut := rfl
@[simp] theorem State.spend_hostFails : (s.spend).hostFails = s.hostFails := rfl
@[simp] theorem State.spend_held : (s.spend).held = s.held := rfl
@[simp] theorem State.spend_holds : (s.spend).holds = s.holds := rfl
@[simp] theorem State.spend_lost : (s.spend).lost = s.lost := rfl
@[simp] theorem State.spend_fenceWait : (s.spend).fenceWait = s.fenceWait := rfl
@[simp] theorem State.spend_carried : (s.spend).carried = s.carried := rfl
@[simp] theorem State.spend_holdoff : (s.spend).holdoff = s.holdoff := rfl
@[simp] theorem State.spend_notifyDue : (s.spend).notifyDue = s.notifyDue := rfl
@[simp] theorem State.spend_pads : (s.spend).pads = s.pads := rfl
@[simp] theorem State.spend_parked : (s.spend).parked = s.parked := rfl
@[simp] theorem State.spend_pinNow : (s.spend).pinNow = s.pinNow := rfl
@[simp] theorem State.spend_trigPulse : (s.spend).trigPulse = s.trigPulse := rfl
@[simp] theorem State.spend_pending : (s.spend).pending = s.pending := rfl

@[simp] theorem State.spend_free : s.spend.free = s.free + 1 := rfl
@[simp] theorem State.onEng_engines : (s.onEng e g).engines = s.engines.set e (g s.engines[e]) := rfl
@[simp] theorem State.setEng_engines : (s.setEng e en).engines = s.engines.set e en := rfl
end

section
variable (en : Engine) (c : Trap) (resp : Byte) (imp : Bool) (tval tpc n : W64) (b : Fin 64)

@[simp] theorem Engine.tick_g : (en.tick n).g = en.g := rfl
@[simp] theorem Engine.tick_pc : (en.tick n).pc = en.pc := rfl
@[simp] theorem Engine.tick_state : (en.tick n).state = en.state := rfl
@[simp] theorem Engine.tick_frozen : (en.tick n).frozen = en.frozen := rfl
@[simp] theorem Engine.tick_frozenPartial : (en.tick n).frozenPartial = en.frozenPartial := rfl
@[simp] theorem Engine.tick_waiting : (en.tick n).waiting = en.waiting := rfl
@[simp] theorem Engine.tick_role : (en.tick n).role = en.role := rfl
@[simp] theorem Engine.tick_superseded : (en.tick n).superseded = en.superseded := rfl
@[simp] theorem Engine.tick_nmiThermal : (en.tick n).nmiThermal = en.nmiThermal := rfl
@[simp] theorem Engine.tick_nmiClock : (en.tick n).nmiClock = en.nmiClock := rfl
@[simp] theorem Engine.tick_inTrap : (en.tick n).inTrap = en.inTrap := rfl
@[simp] theorem Engine.tick_cmdQueue : (en.tick n).cmdQueue = en.cmdQueue := rfl
@[simp] theorem Engine.tick_cmdTag : (en.tick n).cmdTag = en.cmdTag := rfl
@[simp] theorem Engine.tick_cqen : (en.tick n).cqen = en.cqen := rfl
@[simp] theorem Engine.tick_cqHeld : (en.tick n).cqHeld = en.cqHeld := rfl
@[simp] theorem Engine.tick_cq : (en.tick n).cq = en.cq := rfl
@[simp] theorem Engine.tick_tcause : (en.tick n).tcause = en.tcause := rfl
@[simp] theorem Engine.tick_tpc : (en.tick n).tpc = en.tpc := rfl
@[simp] theorem Engine.tick_tval : (en.tick n).tval = en.tval := rfl
@[simp] theorem Engine.tick_tvec : (en.tick n).tvec = en.tvec := rfl
@[simp] theorem Engine.tick_tsave0 : (en.tick n).tsave0 = en.tsave0 := rfl
@[simp] theorem Engine.tick_tsave1 : (en.tick n).tsave1 = en.tsave1 := rfl
@[simp] theorem Engine.tick_evpend : (en.tick n).evpend = en.evpend := rfl
@[simp] theorem Engine.tick_sigdata : (en.tick n).sigdata = en.sigdata := rfl
@[simp] theorem Engine.tick_wdog : (en.tick n).wdog = en.wdog := rfl
@[simp] theorem Engine.tick_wdogHits : (en.tick n).wdogHits = en.wdogHits := rfl
@[simp] theorem Engine.tick_bindings : (en.tick n).bindings = en.bindings := rfl
@[simp] theorem Engine.tick_chans : (en.tick n).chans = en.chans := rfl
@[simp] theorem Engine.tick_stores : (en.tick n).stores = en.stores := rfl
@[simp] theorem Engine.tick_impreciseHeld : (en.tick n).impreciseHeld = en.impreciseHeld := rfl
@[simp] theorem Engine.tick_ovfHeld : (en.tick n).ovfHeld = en.ovfHeld := rfl
@[simp] theorem Engine.tick_launch : (en.tick n).launch = en.launch := rfl
@[simp] theorem Engine.tick_lastQueue : (en.tick n).lastQueue = en.lastQueue := rfl
@[simp] theorem Engine.tick_imem : (en.tick n).imem = en.imem := rfl
@[simp] theorem Engine.tick_dmem : (en.tick n).dmem = en.dmem := rfl
@[simp] theorem Engine.tick_imemBad : (en.tick n).imemBad = en.imemBad := rfl
@[simp] theorem Engine.tick_dmemBad : (en.tick n).dmemBad = en.dmemBad := rfl
@[simp] theorem Engine.tick_imemSoft : (en.tick n).imemSoft = en.imemSoft := rfl
@[simp] theorem Engine.tick_dmemSoft : (en.tick n).dmemSoft = en.dmemSoft := rfl
@[simp] theorem Engine.tick_code : (en.tick n).code = en.code := rfl

@[simp] theorem Engine.setBit_g : (en.setBit b).g = en.g := by simp [Engine.setBit]
@[simp] theorem Engine.setBit_pc : (en.setBit b).pc = en.pc := by simp [Engine.setBit]
@[simp] theorem Engine.setBit_state : (en.setBit b).state = en.state := by simp [Engine.setBit]
@[simp] theorem Engine.setBit_frozen : (en.setBit b).frozen = en.frozen := by simp [Engine.setBit]
@[simp] theorem Engine.setBit_frozenPartial : (en.setBit b).frozenPartial = en.frozenPartial := by simp [Engine.setBit]
@[simp] theorem Engine.setBit_waiting : (en.setBit b).waiting = en.waiting := by simp [Engine.setBit]
@[simp] theorem Engine.setBit_role : (en.setBit b).role = en.role := by simp [Engine.setBit]
@[simp] theorem Engine.setBit_superseded : (en.setBit b).superseded = en.superseded := by simp [Engine.setBit]
@[simp] theorem Engine.setBit_nmiThermal : (en.setBit b).nmiThermal = en.nmiThermal := by simp [Engine.setBit]
@[simp] theorem Engine.setBit_nmiClock : (en.setBit b).nmiClock = en.nmiClock := by simp [Engine.setBit]
@[simp] theorem Engine.setBit_inTrap : (en.setBit b).inTrap = en.inTrap := by simp [Engine.setBit]
@[simp] theorem Engine.setBit_cycle : (en.setBit b).cycle = en.cycle := by simp [Engine.setBit]
@[simp] theorem Engine.setBit_runtime : (en.setBit b).runtime = en.runtime := by simp [Engine.setBit]
@[simp] theorem Engine.setBit_cmdQueue : (en.setBit b).cmdQueue = en.cmdQueue := by simp [Engine.setBit]
@[simp] theorem Engine.setBit_cmdTag : (en.setBit b).cmdTag = en.cmdTag := by simp [Engine.setBit]
@[simp] theorem Engine.setBit_cqen : (en.setBit b).cqen = en.cqen := by simp [Engine.setBit]
@[simp] theorem Engine.setBit_cqHeld : (en.setBit b).cqHeld = en.cqHeld := by simp [Engine.setBit]
@[simp] theorem Engine.setBit_cq : (en.setBit b).cq = en.cq := by simp [Engine.setBit]
@[simp] theorem Engine.setBit_tcause : (en.setBit b).tcause = en.tcause := by simp [Engine.setBit]
@[simp] theorem Engine.setBit_tpc : (en.setBit b).tpc = en.tpc := by simp [Engine.setBit]
@[simp] theorem Engine.setBit_tval : (en.setBit b).tval = en.tval := by simp [Engine.setBit]
@[simp] theorem Engine.setBit_tvec : (en.setBit b).tvec = en.tvec := by simp [Engine.setBit]
@[simp] theorem Engine.setBit_tsave0 : (en.setBit b).tsave0 = en.tsave0 := by simp [Engine.setBit]
@[simp] theorem Engine.setBit_tsave1 : (en.setBit b).tsave1 = en.tsave1 := by simp [Engine.setBit]
@[simp] theorem Engine.setBit_sigdata : (en.setBit b).sigdata = en.sigdata := by simp [Engine.setBit]
@[simp] theorem Engine.setBit_wdog : (en.setBit b).wdog = en.wdog := by simp [Engine.setBit]
@[simp] theorem Engine.setBit_wdogHits : (en.setBit b).wdogHits = en.wdogHits := by simp [Engine.setBit]
@[simp] theorem Engine.setBit_bindings : (en.setBit b).bindings = en.bindings := by simp [Engine.setBit]
@[simp] theorem Engine.setBit_chans : (en.setBit b).chans = en.chans := by simp [Engine.setBit]
@[simp] theorem Engine.setBit_stores : (en.setBit b).stores = en.stores := by simp [Engine.setBit]
@[simp] theorem Engine.setBit_impreciseHeld : (en.setBit b).impreciseHeld = en.impreciseHeld := by simp [Engine.setBit]
@[simp] theorem Engine.setBit_ovfHeld : (en.setBit b).ovfHeld = en.ovfHeld := by simp [Engine.setBit]
@[simp] theorem Engine.setBit_launch : (en.setBit b).launch = en.launch := by simp [Engine.setBit]
@[simp] theorem Engine.setBit_lastQueue : (en.setBit b).lastQueue = en.lastQueue := by simp [Engine.setBit]
@[simp] theorem Engine.setBit_imem : (en.setBit b).imem = en.imem := by simp [Engine.setBit]
@[simp] theorem Engine.setBit_dmem : (en.setBit b).dmem = en.dmem := by simp [Engine.setBit]
@[simp] theorem Engine.setBit_imemBad : (en.setBit b).imemBad = en.imemBad := by simp [Engine.setBit]
@[simp] theorem Engine.setBit_dmemBad : (en.setBit b).dmemBad = en.dmemBad := by simp [Engine.setBit]
@[simp] theorem Engine.setBit_imemSoft : (en.setBit b).imemSoft = en.imemSoft := by simp [Engine.setBit]
@[simp] theorem Engine.setBit_dmemSoft : (en.setBit b).dmemSoft = en.dmemSoft := by simp [Engine.setBit]
@[simp] theorem Engine.setBit_code : (en.setBit b).code = en.code := by simp [Engine.setBit]

@[simp] theorem Engine.trapRegs_g : (en.trapRegs c resp imp tval tpc).g = en.g := by simp [Engine.trapRegs]
@[simp] theorem Engine.trapRegs_pc : (en.trapRegs c resp imp tval tpc).pc = en.pc := by simp [Engine.trapRegs]
@[simp] theorem Engine.trapRegs_state : (en.trapRegs c resp imp tval tpc).state = en.state := by simp [Engine.trapRegs]
@[simp] theorem Engine.trapRegs_frozen : (en.trapRegs c resp imp tval tpc).frozen = en.frozen := by simp [Engine.trapRegs]
@[simp] theorem Engine.trapRegs_frozenPartial : (en.trapRegs c resp imp tval tpc).frozenPartial = en.frozenPartial := by simp [Engine.trapRegs]
@[simp] theorem Engine.trapRegs_waiting : (en.trapRegs c resp imp tval tpc).waiting = en.waiting := by simp [Engine.trapRegs]
@[simp] theorem Engine.trapRegs_role : (en.trapRegs c resp imp tval tpc).role = en.role := by simp [Engine.trapRegs]
@[simp] theorem Engine.trapRegs_superseded : (en.trapRegs c resp imp tval tpc).superseded = en.superseded := by simp [Engine.trapRegs]
@[simp] theorem Engine.trapRegs_nmiThermal : (en.trapRegs c resp imp tval tpc).nmiThermal = en.nmiThermal := by simp [Engine.trapRegs]
@[simp] theorem Engine.trapRegs_nmiClock : (en.trapRegs c resp imp tval tpc).nmiClock = en.nmiClock := by simp [Engine.trapRegs]
@[simp] theorem Engine.trapRegs_inTrap : (en.trapRegs c resp imp tval tpc).inTrap = en.inTrap := by simp [Engine.trapRegs]
@[simp] theorem Engine.trapRegs_cycle : (en.trapRegs c resp imp tval tpc).cycle = en.cycle := by simp [Engine.trapRegs]
@[simp] theorem Engine.trapRegs_runtime : (en.trapRegs c resp imp tval tpc).runtime = en.runtime := by simp [Engine.trapRegs]
@[simp] theorem Engine.trapRegs_cmdQueue : (en.trapRegs c resp imp tval tpc).cmdQueue = en.cmdQueue := by simp [Engine.trapRegs]
@[simp] theorem Engine.trapRegs_cmdTag : (en.trapRegs c resp imp tval tpc).cmdTag = en.cmdTag := by simp [Engine.trapRegs]
@[simp] theorem Engine.trapRegs_cqen : (en.trapRegs c resp imp tval tpc).cqen = en.cqen := by simp [Engine.trapRegs]
@[simp] theorem Engine.trapRegs_cqHeld : (en.trapRegs c resp imp tval tpc).cqHeld = en.cqHeld := by simp [Engine.trapRegs]
@[simp] theorem Engine.trapRegs_cq : (en.trapRegs c resp imp tval tpc).cq = en.cq := by simp [Engine.trapRegs]
@[simp] theorem Engine.trapRegs_tvec : (en.trapRegs c resp imp tval tpc).tvec = en.tvec := by simp [Engine.trapRegs]
@[simp] theorem Engine.trapRegs_tsave0 : (en.trapRegs c resp imp tval tpc).tsave0 = en.tsave0 := by simp [Engine.trapRegs]
@[simp] theorem Engine.trapRegs_tsave1 : (en.trapRegs c resp imp tval tpc).tsave1 = en.tsave1 := by simp [Engine.trapRegs]
@[simp] theorem Engine.trapRegs_evpend : (en.trapRegs c resp imp tval tpc).evpend = en.evpend := by simp [Engine.trapRegs]
@[simp] theorem Engine.trapRegs_sigdata : (en.trapRegs c resp imp tval tpc).sigdata = en.sigdata := by simp [Engine.trapRegs]
@[simp] theorem Engine.trapRegs_wdog : (en.trapRegs c resp imp tval tpc).wdog = en.wdog := by simp [Engine.trapRegs]
@[simp] theorem Engine.trapRegs_wdogHits : (en.trapRegs c resp imp tval tpc).wdogHits = en.wdogHits := by simp [Engine.trapRegs]
@[simp] theorem Engine.trapRegs_bindings : (en.trapRegs c resp imp tval tpc).bindings = en.bindings := by simp [Engine.trapRegs]
@[simp] theorem Engine.trapRegs_chans : (en.trapRegs c resp imp tval tpc).chans = en.chans := by simp [Engine.trapRegs]
@[simp] theorem Engine.trapRegs_stores : (en.trapRegs c resp imp tval tpc).stores = en.stores := by simp [Engine.trapRegs]
@[simp] theorem Engine.trapRegs_impreciseHeld : (en.trapRegs c resp imp tval tpc).impreciseHeld = en.impreciseHeld := by simp [Engine.trapRegs]
@[simp] theorem Engine.trapRegs_ovfHeld : (en.trapRegs c resp imp tval tpc).ovfHeld = en.ovfHeld := by simp [Engine.trapRegs]
@[simp] theorem Engine.trapRegs_launch : (en.trapRegs c resp imp tval tpc).launch = en.launch := by simp [Engine.trapRegs]
@[simp] theorem Engine.trapRegs_lastQueue : (en.trapRegs c resp imp tval tpc).lastQueue = en.lastQueue := by simp [Engine.trapRegs]
@[simp] theorem Engine.trapRegs_imem : (en.trapRegs c resp imp tval tpc).imem = en.imem := by simp [Engine.trapRegs]
@[simp] theorem Engine.trapRegs_dmem : (en.trapRegs c resp imp tval tpc).dmem = en.dmem := by simp [Engine.trapRegs]
@[simp] theorem Engine.trapRegs_imemBad : (en.trapRegs c resp imp tval tpc).imemBad = en.imemBad := by simp [Engine.trapRegs]
@[simp] theorem Engine.trapRegs_dmemBad : (en.trapRegs c resp imp tval tpc).dmemBad = en.dmemBad := by simp [Engine.trapRegs]
@[simp] theorem Engine.trapRegs_imemSoft : (en.trapRegs c resp imp tval tpc).imemSoft = en.imemSoft := by simp [Engine.trapRegs]
@[simp] theorem Engine.trapRegs_dmemSoft : (en.trapRegs c resp imp tval tpc).dmemSoft = en.dmemSoft := by simp [Engine.trapRegs]
@[simp] theorem Engine.trapRegs_code : (en.trapRegs c resp imp tval tpc).code = en.code := by simp [Engine.trapRegs]

@[simp] theorem Engine.enterHandler_g : (en.enterHandler c).g = en.g := by simp [Engine.enterHandler]
@[simp] theorem Engine.enterHandler_frozen : (en.enterHandler c).frozen = en.frozen := by simp [Engine.enterHandler]
@[simp] theorem Engine.enterHandler_frozenPartial : (en.enterHandler c).frozenPartial = en.frozenPartial := by simp [Engine.enterHandler]
@[simp] theorem Engine.enterHandler_role : (en.enterHandler c).role = en.role := by simp [Engine.enterHandler]
@[simp] theorem Engine.enterHandler_superseded : (en.enterHandler c).superseded = en.superseded := by simp [Engine.enterHandler]
@[simp] theorem Engine.enterHandler_nmiThermal : (en.enterHandler c).nmiThermal = en.nmiThermal := by simp [Engine.enterHandler]
@[simp] theorem Engine.enterHandler_nmiClock : (en.enterHandler c).nmiClock = en.nmiClock := by simp [Engine.enterHandler]
@[simp] theorem Engine.enterHandler_cmdQueue : (en.enterHandler c).cmdQueue = en.cmdQueue := by simp [Engine.enterHandler]
@[simp] theorem Engine.enterHandler_cmdTag : (en.enterHandler c).cmdTag = en.cmdTag := by simp [Engine.enterHandler]
@[simp] theorem Engine.enterHandler_cqen : (en.enterHandler c).cqen = en.cqen := by simp [Engine.enterHandler]
@[simp] theorem Engine.enterHandler_cqHeld : (en.enterHandler c).cqHeld = en.cqHeld := by simp [Engine.enterHandler]
@[simp] theorem Engine.enterHandler_cq : (en.enterHandler c).cq = en.cq := by simp [Engine.enterHandler]
@[simp] theorem Engine.enterHandler_tcause : (en.enterHandler c).tcause = en.tcause := by simp [Engine.enterHandler]
@[simp] theorem Engine.enterHandler_tpc : (en.enterHandler c).tpc = en.tpc := by simp [Engine.enterHandler]
@[simp] theorem Engine.enterHandler_tval : (en.enterHandler c).tval = en.tval := by simp [Engine.enterHandler]
@[simp] theorem Engine.enterHandler_tvec : (en.enterHandler c).tvec = en.tvec := by simp [Engine.enterHandler]
@[simp] theorem Engine.enterHandler_tsave0 : (en.enterHandler c).tsave0 = en.tsave0 := by simp [Engine.enterHandler]
@[simp] theorem Engine.enterHandler_tsave1 : (en.enterHandler c).tsave1 = en.tsave1 := by simp [Engine.enterHandler]
@[simp] theorem Engine.enterHandler_evpend : (en.enterHandler c).evpend = en.evpend := by simp [Engine.enterHandler]
@[simp] theorem Engine.enterHandler_sigdata : (en.enterHandler c).sigdata = en.sigdata := by simp [Engine.enterHandler]
@[simp] theorem Engine.enterHandler_wdog : (en.enterHandler c).wdog = en.wdog := by simp [Engine.enterHandler]
@[simp] theorem Engine.enterHandler_wdogHits : (en.enterHandler c).wdogHits = en.wdogHits := by simp [Engine.enterHandler]
@[simp] theorem Engine.enterHandler_bindings : (en.enterHandler c).bindings = en.bindings := by simp [Engine.enterHandler]
@[simp] theorem Engine.enterHandler_chans : (en.enterHandler c).chans = en.chans := by simp [Engine.enterHandler]
@[simp] theorem Engine.enterHandler_stores : (en.enterHandler c).stores = en.stores := by simp [Engine.enterHandler]
@[simp] theorem Engine.enterHandler_impreciseHeld : (en.enterHandler c).impreciseHeld = en.impreciseHeld := by simp [Engine.enterHandler]
@[simp] theorem Engine.enterHandler_ovfHeld : (en.enterHandler c).ovfHeld = en.ovfHeld := by simp [Engine.enterHandler]
@[simp] theorem Engine.enterHandler_launch : (en.enterHandler c).launch = en.launch := by simp [Engine.enterHandler]
@[simp] theorem Engine.enterHandler_lastQueue : (en.enterHandler c).lastQueue = en.lastQueue := by simp [Engine.enterHandler]
@[simp] theorem Engine.enterHandler_imem : (en.enterHandler c).imem = en.imem := by simp [Engine.enterHandler]
@[simp] theorem Engine.enterHandler_dmem : (en.enterHandler c).dmem = en.dmem := by simp [Engine.enterHandler]
@[simp] theorem Engine.enterHandler_imemBad : (en.enterHandler c).imemBad = en.imemBad := by simp [Engine.enterHandler]
@[simp] theorem Engine.enterHandler_dmemBad : (en.enterHandler c).dmemBad = en.dmemBad := by simp [Engine.enterHandler]
@[simp] theorem Engine.enterHandler_imemSoft : (en.enterHandler c).imemSoft = en.imemSoft := by simp [Engine.enterHandler]
@[simp] theorem Engine.enterHandler_dmemSoft : (en.enterHandler c).dmemSoft = en.dmemSoft := by simp [Engine.enterHandler]
@[simp] theorem Engine.enterHandler_code : (en.enterHandler c).code = en.code := by simp [Engine.enterHandler]

@[simp] theorem Engine.leaveHandler_g : (en.leaveHandler).g = en.g := by simp [Engine.leaveHandler]
@[simp] theorem Engine.leaveHandler_state : (en.leaveHandler).state = en.state := by simp [Engine.leaveHandler]
@[simp] theorem Engine.leaveHandler_frozen : (en.leaveHandler).frozen = en.frozen := by simp [Engine.leaveHandler]
@[simp] theorem Engine.leaveHandler_frozenPartial : (en.leaveHandler).frozenPartial = en.frozenPartial := by simp [Engine.leaveHandler]
@[simp] theorem Engine.leaveHandler_waiting : (en.leaveHandler).waiting = en.waiting := by simp [Engine.leaveHandler]
@[simp] theorem Engine.leaveHandler_role : (en.leaveHandler).role = en.role := by simp [Engine.leaveHandler]
@[simp] theorem Engine.leaveHandler_superseded : (en.leaveHandler).superseded = en.superseded := by simp [Engine.leaveHandler]
@[simp] theorem Engine.leaveHandler_nmiThermal : (en.leaveHandler).nmiThermal = en.nmiThermal := by simp [Engine.leaveHandler]
@[simp] theorem Engine.leaveHandler_nmiClock : (en.leaveHandler).nmiClock = en.nmiClock := by simp [Engine.leaveHandler]
@[simp] theorem Engine.leaveHandler_cycle : (en.leaveHandler).cycle = en.cycle := by simp [Engine.leaveHandler]
@[simp] theorem Engine.leaveHandler_runtime : (en.leaveHandler).runtime = en.runtime := by simp [Engine.leaveHandler]
@[simp] theorem Engine.leaveHandler_cmdQueue : (en.leaveHandler).cmdQueue = en.cmdQueue := by simp [Engine.leaveHandler]
@[simp] theorem Engine.leaveHandler_cmdTag : (en.leaveHandler).cmdTag = en.cmdTag := by simp [Engine.leaveHandler]
@[simp] theorem Engine.leaveHandler_cqen : (en.leaveHandler).cqen = en.cqen := by simp [Engine.leaveHandler]
@[simp] theorem Engine.leaveHandler_cqHeld : (en.leaveHandler).cqHeld = en.cqHeld := by simp [Engine.leaveHandler]
@[simp] theorem Engine.leaveHandler_cq : (en.leaveHandler).cq = en.cq := by simp [Engine.leaveHandler]
@[simp] theorem Engine.leaveHandler_tcause : (en.leaveHandler).tcause = en.tcause := by simp [Engine.leaveHandler]
@[simp] theorem Engine.leaveHandler_tpc : (en.leaveHandler).tpc = en.tpc := by simp [Engine.leaveHandler]
@[simp] theorem Engine.leaveHandler_tval : (en.leaveHandler).tval = en.tval := by simp [Engine.leaveHandler]
@[simp] theorem Engine.leaveHandler_tvec : (en.leaveHandler).tvec = en.tvec := by simp [Engine.leaveHandler]
@[simp] theorem Engine.leaveHandler_tsave0 : (en.leaveHandler).tsave0 = en.tsave0 := by simp [Engine.leaveHandler]
@[simp] theorem Engine.leaveHandler_tsave1 : (en.leaveHandler).tsave1 = en.tsave1 := by simp [Engine.leaveHandler]
@[simp] theorem Engine.leaveHandler_evpend : (en.leaveHandler).evpend = en.evpend := by simp [Engine.leaveHandler]
@[simp] theorem Engine.leaveHandler_sigdata : (en.leaveHandler).sigdata = en.sigdata := by simp [Engine.leaveHandler]
@[simp] theorem Engine.leaveHandler_wdog : (en.leaveHandler).wdog = en.wdog := by simp [Engine.leaveHandler]
@[simp] theorem Engine.leaveHandler_wdogHits : (en.leaveHandler).wdogHits = en.wdogHits := by simp [Engine.leaveHandler]
@[simp] theorem Engine.leaveHandler_bindings : (en.leaveHandler).bindings = en.bindings := by simp [Engine.leaveHandler]
@[simp] theorem Engine.leaveHandler_chans : (en.leaveHandler).chans = en.chans := by simp [Engine.leaveHandler]
@[simp] theorem Engine.leaveHandler_stores : (en.leaveHandler).stores = en.stores := by simp [Engine.leaveHandler]
@[simp] theorem Engine.leaveHandler_impreciseHeld : (en.leaveHandler).impreciseHeld = en.impreciseHeld := by simp [Engine.leaveHandler]
@[simp] theorem Engine.leaveHandler_ovfHeld : (en.leaveHandler).ovfHeld = en.ovfHeld := by simp [Engine.leaveHandler]
@[simp] theorem Engine.leaveHandler_launch : (en.leaveHandler).launch = en.launch := by simp [Engine.leaveHandler]
@[simp] theorem Engine.leaveHandler_lastQueue : (en.leaveHandler).lastQueue = en.lastQueue := by simp [Engine.leaveHandler]
@[simp] theorem Engine.leaveHandler_imem : (en.leaveHandler).imem = en.imem := by simp [Engine.leaveHandler]
@[simp] theorem Engine.leaveHandler_dmem : (en.leaveHandler).dmem = en.dmem := by simp [Engine.leaveHandler]
@[simp] theorem Engine.leaveHandler_imemBad : (en.leaveHandler).imemBad = en.imemBad := by simp [Engine.leaveHandler]
@[simp] theorem Engine.leaveHandler_dmemBad : (en.leaveHandler).dmemBad = en.dmemBad := by simp [Engine.leaveHandler]
@[simp] theorem Engine.leaveHandler_imemSoft : (en.leaveHandler).imemSoft = en.imemSoft := by simp [Engine.leaveHandler]
@[simp] theorem Engine.leaveHandler_dmemSoft : (en.leaveHandler).dmemSoft = en.dmemSoft := by simp [Engine.leaveHandler]
@[simp] theorem Engine.leaveHandler_code : (en.leaveHandler).code = en.code := by simp [Engine.leaveHandler]

@[simp] theorem Engine.tick_cycle : (en.tick n).cycle = en.cycle + n := rfl
@[simp] theorem Engine.tick_runtime : (en.tick n).runtime = en.runtime + n := rfl
end

end Sys2Proof.Machine
end

