-- ==== Sys2Proof/Laws/Reg.lean ====
section
/-! SUPPORT. Laws of register and engine access: read after write, and what a write of one register leaves alone. -/

namespace Sys2Proof.Machine

variable {s : State} {r r' : RegName} {ix ix' : List Nat} {v : W64} {f f' : Fld} {n : Nat}

@[simp] theorem State.reg_setReg : (s.setReg r ix v).reg r ix = v := by
  simp [State.reg, State.setReg]

theorem State.reg_setReg_of_key (h : r.key ix ≠ r'.key ix') : (s.setReg r ix v).reg r' ix' = s.reg r' ix' := by
  simp [State.reg, State.setReg, h]

/-- A write of one register leaves every other one alone. -/
theorem State.reg_setReg_ne (h : r ≠ r') (hi : r.valid ix = true) (hi' : r'.valid ix' = true) :
    (s.setReg r ix v).reg r' ix' = s.reg r' ix' := State.reg_setReg_of_key (RegName.key_ne h hi hi')

/-- A write of one copy leaves the other copies alone. -/
theorem State.reg_setReg_ix (h : ix ≠ ix') (hi : r.valid ix = true) (hi' : r.valid ix' = true) :
    (s.setReg r ix v).reg r ix' = s.reg r ix' := State.reg_setReg_of_key fun he => h (RegName.key_inj hi hi' he)

theorem State.reg_put : (s.put f n ix).reg f.reg ix = setBits (s.reg f.reg ix) f.hi f.lo n := by
  simp [State.put]

theorem State.reg_put_ne (h : f.reg ≠ r') (hi : f.reg.valid ix = true) (hi' : r'.valid ix' = true) :
    (s.put f n ix).reg r' ix' = s.reg r' ix' := State.reg_setReg_ne h hi hi'

theorem State.reg_put_ix (h : ix ≠ ix') (hi : f.reg.valid ix = true) (hi' : f.reg.valid ix' = true) :
    (s.put f n ix).reg f.reg ix' = s.reg f.reg ix' := State.reg_setReg_ix h hi hi'

/-- A field reads what was put into it. -/
theorem State.fld_put (h : f.lo ≤ f.hi) (hn : f.hi < 64) : (s.put f n ix).fld f ix = n % 2 ^ (f.hi + 1 - f.lo) := by
  simp only [State.fld, State.reg_put]
  exact bitsOf_setBits _ _ _ _ h hn

/-- The other fields of the register keep their values. -/
theorem State.fld_put_field (hr : f'.reg = f.reg) (h : f.lo ≤ f.hi) (hn : f'.hi < 64) (hd : f'.hi < f.lo ∨ f.hi < f'.lo) :
    (s.put f n ix).fld f' ix = s.fld f' ix := by
  simp only [State.fld, hr, State.reg_put]
  exact bitsOf_setBits_ne _ _ _ _ _ _ h hn hd

theorem State.fld_put_ne (h : f.reg ≠ f'.reg) (hi : f.reg.valid ix = true) (hi' : f'.reg.valid ix' = true) :
    (s.put f n ix).fld f' ix' = s.fld f' ix' := by
  simp only [State.fld, State.reg_put_ne h hi hi']

theorem State.fld_put_ix (hr : f'.reg = f.reg) (h : ix ≠ ix') (hi : f.reg.valid ix = true) (hi' : f.reg.valid ix' = true) :
    (s.put f n ix).fld f' ix' = s.fld f' ix' := by
  simp only [State.fld, hr, State.reg_put_ix h hi hi']

/-! Updates of other parts of the state leave the registers alone. -/

@[simp] theorem State.reg_setEng {e : Eng} {en : Engine} : (s.setEng e en).reg r ix = s.reg r ix := rfl
@[simp] theorem State.reg_onEng {e : Eng} {g : Engine → Engine} : (s.onEng e g).reg r ix = s.reg r ix := rfl
@[simp] theorem State.fld_onEng {e : Eng} {g : Engine → Engine} : (s.onEng e g).fld f ix = s.fld f ix := rfl
@[simp] theorem State.flag_onEng {e : Eng} {g : Engine → Engine} : (s.onEng e g).flag f ix = s.flag f ix := rfl
@[simp] theorem State.reg_spend : s.spend.reg r ix = s.reg r ix := rfl
@[simp] theorem State.fld_spend : s.spend.fld f ix = s.fld f ix := rfl
@[simp] theorem State.flag_spend : s.spend.flag f ix = s.flag f ix := rfl

/-! Engines. -/

section
variable {e e' : Eng} {en : Engine} {g : Engine → Engine} {a b : Gpr}

@[simp] theorem State.eng_setEng : (s.setEng e en).eng e = en := by
  simp [State.eng, State.setEng]

theorem State.eng_setEng_ne (h : e ≠ e') : (s.setEng e en).eng e' = s.eng e' := by
  have : e.val ≠ e'.val := fun h' => h (Fin.ext h')
  simp [State.eng, State.setEng, this]

@[simp] theorem State.eng_onEng : (s.onEng e g).eng e = g (s.eng e) := State.eng_setEng

theorem State.eng_onEng_ne (h : e ≠ e') : (s.onEng e g).eng e' = s.eng e' := State.eng_setEng_ne h

@[simp] theorem State.eng_setReg : (s.setReg r ix v).eng e = s.eng e := rfl
@[simp] theorem State.eng_put : (s.put f n ix).eng e = s.eng e := rfl
@[simp] theorem State.eng_count : (s.count f ix n).eng e = s.eng e := rfl
@[simp] theorem State.eng_spend : s.spend.eng e = s.eng e := rfl

/-- g0 reads as zero (R69). -/
@[simp] theorem Engine.get_zero : en.get 0 = 0 := rfl

/-- A write to g0 is discarded (R69). -/
@[simp] theorem Engine.put_zero : en.put 0 v = en := rfl

theorem Engine.get_put : (en.put a v).get b = if b = a ∧ a ≠ 0 then v else en.get b := by
  by_cases ha : a = 0
  · subst ha
    simp
  · by_cases hb : b = 0
    · subst hb
      simp [Ne.symm ha]
    · by_cases hab : b = a
      · subst hab
        simp [Engine.get, Engine.put, hb]
      · have : a.val ≠ b.val := fun h => hab (Fin.ext h.symm)
        simp [Engine.get, Engine.put, ha, hb, hab, this]

@[simp] theorem Engine.get_tick {k : W64} : (en.tick k).get a = en.get a := rfl

/-- A register write changes nothing of the engine but its registers. -/
theorem Engine.put_eq : ∃ gs, en.put a v = { en with g := gs } := by
  unfold Engine.put
  split
  · exact ⟨en.g, rfl⟩
  · exact ⟨_, rfl⟩

end

end Sys2Proof.Machine
end

