-- ==== Sys2Proof/Laws/Events.lean ====
section
/-! SUPPORT. Counting, overflow events and the event unit change nothing but what OnlyEvents names. -/

namespace Sys2Proof.Machine

variable {s t u : State} {e : Eng}

theorem OnlyEvents.refl (s : State) : OnlyEvents s s := ⟨fun _ _ _ _ => rfl, fun _ => rfl, rfl⟩

theorem OnlyEvents.trans (h : OnlyEvents s t) (k : OnlyEvents t u) : OnlyEvents s u := by
  refine ⟨fun r ix hi hr => (k.reg r ix hi hr).trans (h.reg r ix hi hr), fun e => (k.eng e).trans (h.eng e), ?_⟩
  rw [k.rest, h.rest]

/-- A write of one of the event registers. -/
theorem OnlyEvents.setReg {r : RegName} {ix : List Nat} {v : W64} (hr : r ∈ eventRegs) (hi : r.valid ix = true) :
    OnlyEvents s (s.setReg r ix v) :=
  ⟨fun _ _ hi' hr' => State.reg_setReg_ne (fun h => hr' (h ▸ hr)) hi hi', fun _ => rfl, rfl⟩

theorem OnlyEvents.put {f : Fld} {ix : List Nat} {n : Nat} (hr : f.reg ∈ eventRegs) (hi : f.reg.valid ix = true) :
    OnlyEvents s (s.put f n ix) := OnlyEvents.setReg hr hi

theorem OnlyEvents.count {f : Fld} {ix : List Nat} {n : Nat} (hr : f.reg ∈ eventRegs) (hi : f.reg.valid ix = true) :
    OnlyEvents s (s.count f ix n) := OnlyEvents.put hr hi

/-- An engine update that leaves the engine its own. -/
theorem OnlyEvents.onEng {g : Engine → Engine} (hg : ∀ en, (g en).own = en.own) : OnlyEvents s (s.onEng e g) := by
  refine ⟨fun _ _ _ _ => rfl, fun e' => ?_, rfl⟩
  by_cases h : e = e'
  · subst h
    simp [hg]
  · rw [State.eng_onEng_ne h]

/-- Updates of the parts that events may change. -/
theorem OnlyEvents.hostSide (hm : Sparse Quad) (va : Vault) (ho : List HostMsg) (hd nd : Bool) :
    OnlyEvents s { s with hostmem := hm, vault := va, hostOut := ho, holdoff := hd, notifyDue := nd } :=
  ⟨fun _ _ _ _ => rfl, fun _ => rfl, rfl⟩

/-! ### Folds -/

theorem OnlyEvents.foldl {α : Type} {f : State → α → State} (h : ∀ s a, OnlyEvents s (f s a)) (l : List α) :
    OnlyEvents s (l.foldl f s) := by
  induction l generalizing s with
  | nil => exact .refl s
  | cons a l ih => exact (h s a).trans ih

theorem OnlyEvents.foldl_mem {α : Type} {f : State → α → State} (l : List α) (h : ∀ s, ∀ a ∈ l, OnlyEvents s (f s a)) :
    OnlyEvents s (l.foldl f s) := by
  induction l generalizing s with
  | nil => exact .refl s
  | cons a l ih => exact (h s a (by simp)).trans (ih fun s b hb => h s b (by simp [hb]))

/-! ### Vault lines and host memory -/

theorem OnlyEvents.setVault (va : Vault) : OnlyEvents s { s with vault := va } := .hostSide s.hostmem va s.hostOut s.holdoff s.notifyDue

theorem OnlyEvents.raiseMark {n c : Nat} : OnlyEvents s (s.raiseMark n c) := by
  unfold State.raiseMark
  split
  · rename_i h
    exact .put (by decide) (by simp [RegName.valid, RegName.place, ixValid, F.VR_STAT.HWM, h.1])
  · exact .refl s

theorem OnlyEvents.dirtyNode {n k j : Nat} : OnlyEvents s (s.dirtyNode n k j) := by
  unfold State.dirtyNode
  split
  · exact .refl s
  · exact .setVault _

theorem OnlyEvents.storeNode {n k j : Nat} : OnlyEvents s (s.storeNode n k j) :=
  OnlyEvents.dirtyNode.trans ((OnlyEvents.setVault _).trans .raiseMark)

theorem OnlyEvents.evict : OnlyEvents s s.evict := by
  unfold State.evict
  split
  · exact .refl s
  · simp only
    split
    · exact (OnlyEvents.setVault _).trans .storeNode
    · exact .setVault _

theorem OnlyEvents.cachePath {n i : Nat} : OnlyEvents s (s.cachePath n i) :=
  (OnlyEvents.setVault _).trans (.foldl (fun _ _ => .evict) _)

theorem OnlyEvents.adoptLine {n l : Nat} : OnlyEvents s (s.adoptLine n l) := by
  unfold State.adoptLine
  split
  · exact .refl s
  · exact .setVault _

theorem OnlyEvents.putTag {n i : Nat} : OnlyEvents s (s.putTag n i) := by
  unfold State.putTag
  simp only
  split
  · exact .hostSide _ s.vault s.hostOut s.holdoff s.notifyDue
  · exact .refl s

theorem OnlyEvents.bumpLine {n line : Nat} : OnlyEvents s (s.bumpLine n line) :=
  OnlyEvents.adoptLine.trans (OnlyEvents.cachePath.trans (OnlyEvents.dirtyNode.trans ((OnlyEvents.setVault _).trans .raiseMark)))

theorem OnlyEvents.vaultStore {n h : Nat} {qs : List Quad} : OnlyEvents s (s.vaultStore n h qs) :=
  (OnlyEvents.foldl (fun _ _ => .bumpLine) _).trans ((OnlyEvents.setVault _).trans (.foldl (fun _ _ => .putTag) _))

theorem OnlyEvents.hostPut {w : Nat} {q : Quad} : OnlyEvents s (s.hostPut w q) := .hostSide _ _ s.hostOut s.holdoff s.notifyDue

theorem OnlyEvents.hostPuts {w : Nat} {qs : List Quad} : OnlyEvents s (s.hostPuts w qs) := by
  induction qs generalizing s w with
  | nil => exact .refl s
  | cons q qs ih => exact OnlyEvents.hostPut.trans ih

theorem OnlyEvents.hostWrite {tw h : Nat} {qs : List Quad} : OnlyEvents s (s.hostWrite tw h qs).2 := by
  unfold State.hostWrite
  simp only
  split
  · exact .refl s
  · split
    · exact .hostPuts
    · split
      · exact .setVault _
      · split
        · exact .setVault _
        · exact .vaultStore

/-! ### Counters -/

/-- The units of the package. -/
theorem unit_valid {u : Nat} (hu : u < 26) :
    (RegName.valid (cntReg u) ((unitIx u).2 ++ [0])) = true ∧
      ((unitFields (unitIx u).1).ovf.reg.valid (unitIx u).2 = true) := by
  revert u
  decide +kernel

theorem cnt_valid {u i : Nat} (hu : u < 26) (hi : i < 9) :
    (unitFields (unitIx u).1).cnt.reg.valid ((unitIx u).2 ++ [i]) = true := by
  have : ∀ u < 26, ∀ i < 9, (unitFields (unitIx u).1).cnt.reg.valid ((unitIx u).2 ++ [i]) = true := by decide +kernel
  exact this u hu i hi

theorem cnt_event (b : Bool) : (unitFields b).cnt.reg ∈ eventRegs := by cases b <;> decide
theorem ovf_event (b : Bool) : (unitFields b).ovf.reg ∈ eventRegs := by cases b <;> decide

theorem OnlyEvents.orBits {f : Fld} {ix : List Nat} {n : Nat} (hr : f.reg ∈ eventRegs) (hi : f.reg.valid ix = true) :
    OnlyEvents s (s.orBits f n ix) := OnlyEvents.put hr hi

theorem OnlyEvents.addCounter {w i k : Nat} (hu : w < 26) (hi : i < 8) : OnlyEvents s (s.addCounter w i k).1 := by
  have hc := cnt_valid (u := w) (i := i + 1) hu (by omega)
  have ho := (unit_valid hu).2
  unfold State.addCounter
  generalize unitIx w = p at *
  obtain ⟨q, ix⟩ := p
  simp only
  have h1 {n : Nat} : OnlyEvents s (s.put (unitFields q).cnt n (ix ++ [i + 1])) := .put (cnt_event q) hc
  have h2 {s : State} {n : Nat} : OnlyEvents s (s.orBits (unitFields q).ovf n ix) := .orBits (ovf_event q) ho
  split
  · exact h1
  · split
    · split
      · refine OnlyEvents.trans (t := (s.put (unitFields q).cnt ((s.fld (unitFields q).cnt (ix ++ [i + 1]) + k) % 2 ^ 64)
          (ix ++ [i + 1])).orBits (unitFields q).ovf (2 ^ i) ix) (h1.trans h2) ?_
        exact .onEng (g := fun en => { en with ovfHeld := en.ovfHeld ||| BitVec.ofNat 8 (2 ^ i) }) fun _ => rfl
      · exact h1.trans h2
    · exact h1.trans h2

theorem countersOf_lt {w ev i : Nat} (h : i ∈ s.countersOf w ev) : i < 8 := by
  unfold State.countersOf at h
  simp only at h
  repeat' split at h
  all_goals first
    | (simp at h; done)
    | exact List.mem_range.mp (List.mem_filter.mp h).1

theorem OnlyEvents.notify : OnlyEvents s s.notify := by
  unfold State.notify
  split
  · exact .hostSide _ _ _ _ _
  · exact .hostSide _ _ _ _ _

theorem OnlyEvents.dropEvent : OnlyEvents s s.dropEvent :=
  OnlyEvents.trans (.count (by decide) (by decide)) (.put (by decide) (by decide))

theorem OnlyEvents.signalEngine {b : Fin 64} {d : W64} : OnlyEvents s (s.signalEngine e b d) := by
  unfold State.signalEngine
  split
  · exact .refl s
  · exact .onEng fun en => rfl

section
variable {send : Byte → Byte → BitVec 16 → W64 → State → State}

theorem OnlyEvents.overflowVia (hs : ∀ a b c d s, OnlyEvents s (send a b c d s)) {u i : Nat} :
    OnlyEvents s (s.overflowVia send u i) := by
  unfold State.overflowVia
  simp only
  split
  · exact .refl s
  · split
    · exact .signalEngine
    · split
      · exact hs _ _ _ _ _
      · exact .refl s

theorem OnlyEvents.tallyVia (hs : ∀ a b c d s, OnlyEvents s (send a b c d s)) {w ev k : Nat} (hu : w < 26) :
    OnlyEvents s (s.tallyVia send w ev k) := by
  refine .foldl_mem _ fun s i hi => ?_
  have h := OnlyEvents.addCounter (s := s) (k := k) hu (countersOf_lt hi)
  split
  · rename_i heq
    rw [heq] at h
    exact h.trans (.overflowVia hs)
  · rename_i heq
    rw [heq] at h
    exact h
end

/-- A message of the event unit to the host. -/
theorem OnlyEvents.sendEvent (n : Nat) (ty src : Byte) (ix : BitVec 16) (d : W64) (s : State) :
    OnlyEvents s (State.sendEvent n ty src ix d s) := by
  induction n generalizing ty src ix d s with
  | zero => exact .refl s
  | succ n ih =>
    unfold State.sendEvent
    refine (OnlyEvents.tallyVia ih (w := 24) (ev := 0x307) (k := 1) (by omega)).trans ?_
    generalize s.tallyVia (State.sendEvent n) 24 0x307 1 = s
    simp only
    split
    · exact .dropEvent
    · split
      · exact .dropEvent
      · have h1 {c : Prop} [Decidable c] {h : Nat} {qs : List Quad} :
            OnlyEvents s (if c then (Resp.decodeError, s) else s.hostWrite 0 h qs).2 := by
          split
          · exact .refl s
          · exact .hostWrite
        split
        · rename_i heq
          have e := congrArg Prod.snd heq
          refine OnlyEvents.trans (e ▸ h1 : OnlyEvents s _) ?_
          have h2 {t : State} {v : Nat} :
              OnlyEvents t (((t.put F.HC_EVRING_IDX.PI v).notify).tallyVia (State.sendEvent n) 24 0x303 1) :=
            (OnlyEvents.put (by decide) (by decide)).trans (OnlyEvents.notify.trans (.tallyVia ih (by omega)))
          split
          · exact h2.trans (.tallyVia ih (by omega))
          · exact h2
        · rename_i heq
          have e := congrArg Prod.snd heq
          refine OnlyEvents.trans (e ▸ h1 : OnlyEvents s _) ?_
          exact OnlyEvents.trans (.put (by decide) (by decide)) (OnlyEvents.trans (.put (by decide) (by decide)) .dropEvent)

/-- An event message to the host. -/
theorem OnlyEvents.hostEvent {ty src : Byte} {ix : BitVec 16} {d : W64} : OnlyEvents s (s.hostEvent ty src ix d) := .sendEvent ..

theorem OnlyEvents.blockEvent {n b : Nat} : OnlyEvents s (s.blockEvent n b) := .hostEvent

theorem OnlyEvents.overflowEvent {w i : Nat} : OnlyEvents s (s.overflowEvent w i) := .overflowVia (OnlyEvents.sendEvent 9)

/-- Counted occurrences. -/
theorem OnlyEvents.tally {w ev k : Nat} (hu : w < 26) : OnlyEvents s (s.tally w ev k) := by
  unfold State.tally
  split
  · exact .refl s
  · exact .tallyVia (OnlyEvents.sendEvent 9) hu

theorem unitOfEngine_lt (e : Eng) : unitOfEngine e < 26 := by
  have := e.isLt
  simp only [unitOfEngine]
  omega

theorem unitOfModule_lt {m : Nat} (h : m < 4) : unitOfModule m < 26 := by
  simp only [unitOfModule]
  omega

theorem OnlyEvents.tallyEng {ev k : Nat} : OnlyEvents s (s.tally (unitOfEngine e) ev k) := .tally (unitOfEngine_lt e)

theorem OnlyEvents.tallyLap {ev k : Nat} : OnlyEvents s (s.tallyLap ev k) :=
  .foldl_mem _ fun _ t ht => .tally (by have := List.mem_range.mp ht; omega)

theorem Engine.own_foldl {α : Type} {g : Engine → α → Engine} (h : ∀ en a, (g en a).own = en.own) (l : List α) (en : Engine) :
    (l.foldl g en).own = en.own := by
  induction l generalizing en with
  | nil => rfl
  | cons a l ih => rw [List.foldl_cons, ih, h]

theorem Engine.own_edge (en : Engine) (c : Nat) (m : W64 → Bool) : (en.edge c m).own = en.own := by
  refine Engine.own_foldl (fun en a => ?_) _ _
  split <;> rfl

/-- An occurrence at an edge source. -/
theorem OnlyEvents.edge {c : Nat} {m : W64 → Bool} : OnlyEvents s (s.edge c m) := by
  refine ⟨fun _ _ _ _ => rfl, fun e => ?_, rfl⟩
  simp [State.edge, State.eng, Engine.own_edge]

/-! ### What an engine keeps of its own -/

theorem OnlyEvents.pc (h : OnlyEvents s t) (e : Eng) : (t.eng e).pc = (s.eng e).pc := by
  have := congrArg Engine.pc (h.eng e)
  exact this
theorem OnlyEvents.g (h : OnlyEvents s t) (e : Eng) : (t.eng e).g = (s.eng e).g := by
  have := congrArg Engine.g (h.eng e)
  exact this
theorem OnlyEvents.state (h : OnlyEvents s t) (e : Eng) : (t.eng e).state = (s.eng e).state := by
  have := congrArg Engine.state (h.eng e)
  exact this
theorem OnlyEvents.mem (h : OnlyEvents s t) : t.mem = s.mem := by rw [h.rest]
theorem OnlyEvents.fab (h : OnlyEvents s t) : t.fab = s.fab := by rw [h.rest]

/-- An engine update that looks only at the engine's own and keeps the three places commutes with events. -/
theorem OnlyEvents.after (h : OnlyEvents s t) {g : Engine → Engine}
    (hg : ∀ a b : Engine, a.own = b.own → (g a).own = (g b).own) : OnlyEvents (s.onEng e g) (t.onEng e g) := by
  refine ⟨fun r ix hi hr => h.reg r ix hi hr, fun e' => ?_, ?_⟩
  · by_cases he : e = e'
    · subst he
      simpa using hg _ _ (h.eng e)
    · rw [State.eng_onEng_ne he, State.eng_onEng_ne he]
      exact h.eng e'
  · have := h.rest
    generalize hgen : t.eng e = en
    simp only [State.onEng, hgen, State.setEng]
    rw [this]

end Sys2Proof.Machine
end

