-- ==== Sys2Proof/Laws/Engine.lean ====
section
/-! SUPPORT. What retiring an instruction, a jump and a trap do, but for counted occurrences and events. -/

namespace Sys2Proof.Machine

variable {s t u : State} {e : Eng} {n v : W64} {rd : Gpr} {f : Engine → Engine}

/-- An engine update that looks only at the engine's own, and keeps the three places that events may write. -/
def OwnOnly (f : Engine → Engine) : Prop := ∀ a b : Engine, a.own = b.own → (f a).own = (f b).own

theorem OwnOnly.of_own (h : ∀ a, (f a).own = (f a.own).own) : OwnOnly f := fun a b hab => by rw [h a, h b, hab]

theorem Engine.own_get {a b : Engine} (h : a.own = b.own) (r : Gpr) : a.get r = b.get r := by
  have := congrArg (fun x => Engine.get x r) h
  exact this

theorem State.onEng_onEng {g : Engine → Engine} : (s.onEng e f).onEng e g = s.onEng e fun en => g (f en) := by
  simp only [State.onEng, State.setEng, State.eng, Fin.getElem_fin, Vector.getElem_set_self, Vector.set_set]

theorem ownOnly_done (n : W64) : OwnOnly fun en => en.done n := .of_own fun _ => rfl

/-- An instruction completes. -/
theorem State.retire_events (hp : (s.eng e).pc ≠ 0xFFF8) : OnlyEvents (s.onEng e fun en => en.done n) (s.retire e n) := by
  have h : OnlyEvents s (s.tally (unitOfEngine e) 0x100) := .tallyEng
  have hp' : ((s.tally (unitOfEngine e) 0x100).eng e).pc ≠ 0xFFF8 := by rw [h.pc]; exact hp
  unfold State.retire State.advance
  rw [State.eng_onEng, if_neg (by simpa [Engine.tick] using hp'), State.onEng_onEng]
  exact h.after (ownOnly_done n)

theorem State.retireWith_events (hp : (s.eng e).pc ≠ 0xFFF8) :
    OnlyEvents (s.onEng e fun en => (en.put rd v).done n) (s.retireWith e rd v n) := by
  unfold State.retireWith
  obtain ⟨gs, hg⟩ := Engine.put_eq (en := s.eng e) (a := rd) (v := v)
  have := State.retire_events (s := s.onEng e fun en => en.put rd v) (e := e) (n := n) (by rw [State.eng_onEng, hg]; exact hp)
  rwa [State.onEng_onEng] at this

/-! ### The fetch (R70, R179) -/

@[simp] theorem State.eccShift_engines {t : Nat} : (s.eccShift t).engines = s.engines := by
  unfold State.eccShift
  generalize List.range 31 = l
  induction l generalizing s with
  | nil => rfl
  | cons i l ih => rw [List.foldl_cons, ih, State.setReg_engines, State.setReg_engines]

@[simp] theorem State.drawSyndrome_engines {k : Nat} : (s.drawSyndrome k).engines = s.engines := by
  unfold State.drawSyndrome
  split <;> rfl

@[simp] theorem State.eccAdd_engines {t a n : Nat} {x : EccSource} {v : W64} : (s.eccAdd t a x n v).engines = s.engines := by
  simp only [State.eccAdd, State.eccPut, State.eccFrozen, apply_ite State.engines, State.put_engines, State.setReg_engines,
    State.eccShift_engines, ite_self]

/-- Finding an error in a word changes no engine. -/
@[simp] theorem State.eccEnter_engines {t a r : Nat} {b : Bool} {x : EccSource} : (s.eccEnter t a b x r).engines = s.engines :=
  State.eccAdd_engines.trans State.drawSyndrome_engines

@[simp] theorem State.eccError_engines {t a r : Nat} {b : Bool} {x : EccSource} : (s.eccError t a b x r).engines = s.engines := by
  unfold State.eccError
  simp only [State.eccEnter_engines]
  split
  · rw [State.count_engines]
  · rw [State.count_engines]

theorem Engine.own_clean {a b : Engine} {w : Nat} (h : a.own = b.own) :
    (a.spadClean true w).own = ({ b with imemSoft := listDrop b.imemSoft w } : Engine).own := by
  cases a
  cases b
  simp only [Engine.own, Engine.mk.injEq] at h
  simp [Engine.spadClean, Engine.own, h]

theorem State.eng_dropSyndrome {k : Nat} : (s.dropSyndrome k).eng e = s.eng e := rfl

/-- The fetch leaves the engine as it is, but for the mark of a single-bit error in its instruction scratchpad and what events write. -/
theorem State.fetchedWord_own (s : State) (e : Eng) :
    ∃ l, ((s.fetchedWord e).eng e).own = ({ s.eng e with imemSoft := l } : Engine).own := by
  unfold State.fetchedWord State.spadCorrect
  split
  · generalize hs : s.spadError e true ((s.eng e).pc.toNat / 16) false readerEngine = s1
    have he : s1.eng e = s.eng e := by
      rw [← hs, State.spadError, State.eng, State.eccError_engines, State.eng]
    have h : OnlyEvents s1 (s1.tally (unitOfEngine e) 0x10A) := .tallyEng
    have h := h.eng e
    rw [he] at h
    rw [State.eng_dropSyndrome, State.eng_onEng]
    exact ⟨_, Engine.own_clean h⟩
  · exact ⟨_, rfl⟩

theorem State.fetchedWord_eng (s : State) (e : Eng) {β : Type} (p : Engine → β) (hp : ∀ a l, p a = p ({ a with imemSoft := l } : Engine).own) :
    p ((s.fetchedWord e).eng e) = p (s.eng e) := by
  obtain ⟨l, h⟩ := s.fetchedWord_own e
  rw [hp _ ((s.fetchedWord e).eng e).imemSoft, hp (s.eng e) l]
  exact congrArg p h

@[simp] theorem State.fetchedWord_pc : ((s.fetchedWord e).eng e).pc = (s.eng e).pc := s.fetchedWord_eng e _ fun _ _ => rfl
@[simp] theorem State.fetchedWord_state : ((s.fetchedWord e).eng e).state = (s.eng e).state := s.fetchedWord_eng e _ fun _ _ => rfl
@[simp] theorem State.fetchedWord_get {r : Gpr} : ((s.fetchedWord e).eng e).get r = (s.eng e).get r :=
  s.fetchedWord_eng e (fun en => en.get r) fun _ _ => rfl
@[simp] theorem State.fetchedWord_trapEnds {c : Trap} : ((s.fetchedWord e).eng e).trapEnds c = (s.eng e).trapEnds c :=
  s.fetchedWord_eng e (fun en => en.trapEnds c) fun _ _ => rfl
@[simp] theorem State.fetchedWord_pc64 : ((s.fetchedWord e).eng e).pc64 = (s.eng e).pc64 := s.fetchedWord_eng e _ fun _ _ => rfl

/-- A word with no single-bit error is fetched without a trace. -/
theorem State.fetchedWord_clean (h : spadSoft true (s.eng e) ((s.eng e).pc.toNat / 16) = false) : s.fetchedWord e = s := by
  simp [State.fetchedWord, State.spadCorrect, h]

/-- An engine that can issue is running. -/
theorem State.canIssue_running (h : s.canIssue e = true) : (s.eng e).state = .running := by
  simp only [State.canIssue, Bool.and_eq_true, beq_iff_eq] at h
  exact h.1.1.1.1.1.1

/-- An instruction that leaves its engine running. -/
theorem issue_gives {body : State → State} (hc : s.canIssue e = true) (h : OnlyEvents t (body (s.fetchedWord e)))
    (ht : (t.eng e).state ≠ .idle) : ∃ u, issue e s body = .next u ∧ OnlyEvents t u := by
  refine ⟨_, by rw [issue, if_pos hc], ?_⟩
  rw [State.settleEnd, if_neg]
  · exact h
  · intro hi
    exact ht (by rw [← h.state]; exact hi.1)

@[simp] theorem Engine.done_state {en : Engine} : (en.done n).state = .running := rfl

theorem issue_done {body : State → State} {g : Engine → Engine} (hc : s.canIssue e = true)
    (h : OnlyEvents ((s.fetchedWord e).onEng e fun en => (g en).done n) (body (s.fetchedWord e))) :
    ∃ u, issue e s body = .next u ∧ OnlyEvents ((s.fetchedWord e).onEng e fun en => (g en).done n) u :=
  issue_gives hc h (by rw [State.eng_onEng]; simp)

theorem ownOnly_jumped : OwnOnly fun en => en.jumped v := .of_own fun _ => rfl

/-- A branch, call or return to a target inside the instruction scratchpad. -/
theorem State.jump_events (ht : v.toNat ≤ 0xFFF8) : OnlyEvents (s.onEng e fun en => en.jumped v) (s.jump e v) := by
  rw [State.jump, if_neg (by omega)]
  exact OnlyEvents.tallyEng.after ownOnly_jumped

theorem Engine.trapEnds_own {a b : Engine} (h : a.own = b.own) (c : Trap) : a.trapEnds c = b.trapEnds c := by
  have ht := congrArg Engine.tvec h
  have hi := congrArg Engine.inTrap h
  replace ht : a.tvec = b.tvec := ht
  replace hi : a.inTrap = b.inTrap := hi
  unfold Engine.trapEnds Engine.tvecEn
  rw [ht, hi]

theorem ownOnly_trapped {c : Trap} {resp : Byte} {i : Bool} {tval tpc : W64} :
    OwnOnly fun en => en.trapped c resp i tval tpc := fun a b h => by
  cases a
  cases b
  simp only [Engine.own, Engine.mk.injEq] at h
  simp [Engine.trapped, Engine.own, Engine.trapRegs, Engine.enterHandler, Engine.tick, h]

/-- A trap whose handler takes it. -/
theorem State.takeTrap_enters {c : Trap} {resp : Byte} {i : Bool} {tval tpc : W64} (h : (s.eng e).trapEnds c = false) :
    OnlyEvents (s.onEng e fun en => en.trapped c resp i tval tpc) (s.takeTrap e c resp i tval tpc) := by
  have ht : OnlyEvents s (s.tally (unitOfEngine e) 0x105) := .tallyEng
  have he : ((s.tally (unitOfEngine e) 0x105).eng e).trapEnds c = false := by rw [Engine.trapEnds_own (ht.eng e), h]
  simp only [State.takeTrap, he, Bool.false_eq_true, if_false, State.onEng_onEng]
  exact ht.after ownOnly_trapped

@[simp] theorem Engine.trapped_state {en : Engine} {c : Trap} {resp : Byte} {i : Bool} {tval tpc : W64} :
    (en.trapped c resp i tval tpc).state = .running := rfl

/-! ### Instructions by what they end in -/

/-- An instruction that jumps. -/
theorem issue_jump {body : State → State} (hc : s.canIssue e = true) (hb : body (s.fetchedWord e) = (s.fetchedWord e).jump e v)
    (hv : v.toNat ≤ 0xFFF8) :
    ∃ u, issue e s body = .next u ∧ OnlyEvents ((s.fetchedWord e).onEng e fun en => en.jumped v) u := by
  refine issue_gives hc (by rw [hb]; exact State.jump_events hv) ?_
  rw [State.eng_onEng]
  show ((s.fetchedWord e).eng e).state ≠ _
  rw [State.fetchedWord_state, State.canIssue_running hc]
  decide

/-- An instruction that retires. -/
theorem issue_retire {body : State → State} (hc : s.canIssue e = true) (hb : body (s.fetchedWord e) = (s.fetchedWord e).retire e n)
    (hp : (s.eng e).pc ≠ 0xFFF8) :
    ∃ u, issue e s body = .next u ∧ OnlyEvents ((s.fetchedWord e).onEng e fun en => en.done n) u :=
  issue_done (g := fun en => en) hc (by rw [hb]; exact State.retire_events (by simpa using hp))

theorem issue_retireWith {body : State → State} (hc : s.canIssue e = true)
    (hb : body (s.fetchedWord e) = (s.fetchedWord e).retireWith e rd v n) (hp : (s.eng e).pc ≠ 0xFFF8) :
    ∃ u, issue e s body = .next u ∧ OnlyEvents ((s.fetchedWord e).onEng e fun en => (en.put rd v).done n) u :=
  issue_done hc (by rw [hb]; exact State.retireWith_events (by simpa using hp))

/-- An instruction that takes a trap into its handler. -/
theorem issue_trap {body : State → State} {c : Trap} {r : Resp} (hc : s.canIssue e = true)
    (hb : body (s.fetchedWord e) = (s.fetchedWord e).trap e c v r) (ht : (s.eng e).trapEnds c = false) :
    ∃ u, issue e s body = .next u ∧
      OnlyEvents ((s.fetchedWord e).onEng e fun en => en.trapped c r.byte false v (s.eng e).pc64) u := by
  have h := State.takeTrap_enters (s := s.fetchedWord e) (e := e) (c := c) (resp := r.byte) (i := false) (tval := v)
    (tpc := (s.eng e).pc64) (by simpa using ht)
  refine issue_gives hc (by rw [hb, State.trap, State.fetchedWord_pc64]; exact h) ?_
  rw [State.eng_onEng, Engine.trapped_state]
  decide

end Sys2Proof.Machine
end

