-- ==== Sys2Proof/Laws/Memory.lean ====
section
/-! SUPPORT. Design memory and the stand-in arrays: what a word reads after a store, and that every operation on these memories
keeps their canonical form. -/

namespace Sys2Proof.Machine

variable {s t : State} {a b : Nat} {q : Quad}

theorem State.arraysWf_iff : s.arraysWf = true ↔ Memory.wf s.mem = true ∧ Memory.wf s.standin = true := by
  simp [State.arraysWf]

/-- Equal arrays are equally canonical. -/
theorem State.arraysWf_of_eq (hm : t.mem = s.mem) (hs : t.standin = s.standin) (h : s.arraysWf = true) : t.arraysWf = true := by
  simpa [State.arraysWf, hm, hs] using h

theorem Keeps.arraysWf {rs : List RegName} (k : Keeps s t rs) (h : s.arraysWf = true) : t.arraysWf = true :=
  State.arraysWf_of_eq k.mem k.standin h

theorem State.reset_arraysWf : State.reset.arraysWf = true := rfl

/-- A write of one word. -/
theorem State.memStore_arraysWf (h : s.arraysWf = true) : (s.memStore a q).arraysWf = true := by
  rw [State.arraysWf_iff] at h ⊢
  obtain ⟨hm, hs⟩ := h
  unfold State.memStore
  dsimp only
  split <;> split
  · exact ⟨Sparse.wf_write hm, Sparse.wf_write hs⟩
  · exact ⟨hm, Sparse.wf_write hs⟩
  · exact ⟨Sparse.wf_write hm, hs⟩
  · exact ⟨hm, hs⟩

/-- A word that the stand-in copier writes back. -/
theorem State.copierPut_arraysWf {c : CopyBack} (h : s.arraysWf = true) : (s.copierPut c).arraysWf = true := by
  rw [State.arraysWf_iff] at h ⊢
  unfold State.copierPut
  dsimp only
  split
  · exact ⟨Sparse.wf_write h.1, h.2⟩
  · exact h

/-- A write of several words. -/
theorem State.storeWords_arraysWf {qs : List Quad} (h : s.arraysWf = true) : (s.storeWords a qs).arraysWf = true := by
  induction qs generalizing s a with
  | nil => exact h
  | cons q qs ih => exact ih (State.memStore_arraysWf h)

/-- A quadrant that loses its content. -/
theorem State.dropQuad_arraysWf (h : s.arraysWf = true) : (s.dropQuad a b).arraysWf = true := by
  rw [State.arraysWf_iff] at h ⊢
  exact ⟨Sparse.wf_filter _ _ h.1, Sparse.wf_filter _ _ h.2⟩

/-- A bank that takes back what its stand-in holds. -/
theorem State.restoreBank_arraysWf (h : s.arraysWf = true) : (s.restoreBank a b).arraysWf = true := by
  rw [State.arraysWf_iff] at h ⊢
  have writes : ∀ (l : Sparse Quad) (m : Sparse Quad) (f : Nat → Nat), Memory.wf m = true →
      Memory.wf (l.foldl (fun m p => Sparse.write m (f p.1) p.2) m) = true := by
    intro l
    induction l with
    | nil => exact fun _ _ hm => hm
    | cons p l ih => exact fun _ f hm => ih _ f (Sparse.wf_write hm)
  exact ⟨writes _ _ (fun k => k - standinKey a b 0 + bankBase a b / 16) (Sparse.wf_filter _ _ h.1), h.2⟩

/-- The same word, where a stand-in is not concerned with its bank, reads what was stored. -/
theorem State.memWordAt_memStore (h : s.standinPhase (memTower a) (memBank a / 32) = 0) :
    (s.memStore a q).memWordAt a = q := by
  have h1 : s.standinFor (memTower a) (memBank a) = false := by simp [State.standinFor, h]
  have h2 : s.bankWritten (memTower a) (memBank a) = true := by simp [State.bankWritten, h1]
  have e : (s.memStore a q).regs = s.regs ∧ (s.memStore a q).mem = Sparse.write s.mem (a / 16) q := by
    unfold State.memStore
    have f1 : ({ s.newWord a with copies := s.copies.filter fun c => c.addr != a } : State).standinFor (memTower a) (memBank a) =
        false := h1
    have f2 : ({ s.newWord a with copies := s.copies.filter fun c => c.addr != a } : State).bankWritten (memTower a) (memBank a) =
        true := h2
    simp only [f1, Bool.false_eq_true, if_false, f2, if_true]
    exact ⟨rfl, rfl⟩
  have h4 : (s.memStore a q).standinServes (memTower a) (memBank a) = false := by
    simp only [State.standinPhase, State.fld, State.reg] at h
    simp [State.standinServes, State.standinFor, State.standinPhase, State.fld, State.reg, e.1, h]
  rw [State.memWordAt, h4, e.2]
  simp

end Sys2Proof.Machine
end

