-- ==== Sys2Proof/Tests/Slice0.lean ====
section
/-! SUPPORT. Small checks of the model on fixed values, and for every statement with hypotheses a state and operands that meet
them. Expected values come from the rule each test names. -/

namespace Sys2Proof.Tests

set_option Elab.async false

open Sys2Proof Sys2Proof.Machine

/-! ### States to start from -/

/-- The domains of `ds` are in RUN. -/
def on (ds : List Nat) (s : State) : State := ds.foldl (fun s d => s.put F.PD_STAT.NOW 1 [d]) s

/-- Engine 0 runs a program at address 0 of its scratchpad under the installer's role, with `f` applied to it. -/
def runs (f : Engine → Engine := id) (s : State := on [10] {}) : State :=
  s.onEng 0 fun en => f { en with state := .running, role := .installer }

/-- The engine holds `v` in register `r`. -/
def holding (r : Gpr) (v : W64) (en : Engine) : Engine := en.put r v

def engine0 : Rq := ⟨.engine 0, 0⟩
/-- Session 0 of module 0, which is bound to the operator's role after reset. -/
def host0 : Rq := ⟨.host 0 0, 0⟩

/-- The premises of `Reaches`. -/
def reach (s : State) (rq : Rq) (role : Role) (a : Nat) : Bool :=
  s.roleOf rq == some role && !s.targetOff rq a && !s.targetHeld a

theorem reaches_of_reach {s : State} {rq : Rq} {role : Role} {a : Nat} (h : reach s rq role a = true) :
    Reaches s rq role a := by
  simp only [reach, Bool.and_eq_true, beq_iff_eq, Bool.not_eq_true'] at h
  exact ⟨h.1.1, h.1.2, h.2⟩

/-- Engine 0 in the state that a command leaves. -/
def eng0 (o : Out) : Option Engine := match o with | .next s => some (s.eng 0) | _ => none

/-- Whether the command leaves a state with `p`. -/
def leaves (o : Out) (p : State → Bool) : Bool := match o with | .next s => p s | _ => false

/-- A handler table at 0x400 is enabled. -/
def handler (en : Engine) : Engine := { en with tvec := 0x401 }

/-- Queue `q` has a producer, or consumer, of the given kind (engine `e` where the kind is 1). -/
def producerOf (q kind e : Nat) (s : State) : State :=
  ((s.put F.Q_BIND.VALID 1 [q]).put F.Q_BIND.PROD_KIND kind [q]).put F.Q_BIND.PROD_ENG e [q]
def consumerOf (q kind e : Nat) (s : State) : State :=
  ((s.put F.Q_BIND.VALID 1 [q]).put F.Q_BIND.CONS_KIND kind [q]).put F.Q_BIND.CONS_ENG e [q]

/-- Queue `q` holds the items, in the first cells of bank 0. -/
def queued (q : Nat) (xs : List Item) (s : State) : State :=
  let words := xs.flatMap fun x => [quadAt x 0, quadAt x 1, quadAt x 2, quadAt x 3]
  { s with
    qitems := if xs.isEmpty then [] else [(q, (List.range xs.length).map fun i => { bank := 0, cell := i })]
    mem := ((List.range words.length).zip words).filter fun p => p.2 != 0 }
/-- A cell of that kind, as its consumer finds it. -/
def cell (x : Item) : QCell := { item := x, poison := false, lines := [], told := false }
/-- The cell of the head of that queue is uncorrectable. -/
def spoiled (s : State) : State := { s with memBad := [0] }

/-- Laps run in the given phase. -/
def inPhase (p : LapPhase) (s : State) : State := { s with fab := { s.fab with phase := p } }

/-- A personality is active, and its schedule runs kind 0 alone, of one context. -/
def active (s : State) : State :=
  ((((s.put F.LOAD_STAT.PERSONA 2).put F.LAP_KIND.VALID 1 [0]).put F.LAP_KIND.COUNT 1 [0]).put F.LAP_SCHED.LAST 1 [0]).put
    F.LOAD_STAT.GSR 0

/-- The domains that serve the package, tower 0, its first quadrant and its ports, and engine 0 with the installer's role. -/
def lit : State := on [1, 2, 6, 8, 10, 11, 21] (runs (s := {}))

/-- P2 runs at its loop. -/
def clocked (s : State) : State := (s.clkPut (.pkg 2) F.CLKDOM_CFG.SEL 0).clkPut (.pkg 2) F.CLKDOM_STAT.READY 1

/-! ### Well-formed commands -/

theorem test_conversion_needs_every_sensor : WellFormed (.temperatureConversion []) = false := by decide
theorem test_conversion_of_every_sensor : WellFormed (.temperatureConversion (List.replicate 384 0)) = true := by
  rw [WellFormed, List.length_replicate]
  rfl
theorem test_mainband_rate_refused : WellFormed (.mainbandUp 0 true 5 0) = false := by decide
theorem test_mainband_rate : WellFormed (.mainbandUp 0 true 32 0) = true := by decide
theorem witness_WellFormedCommandsComplete :
    exec (.mainbandUp 0 true 5 0) {} = .fault .malformedCommand ∧ WellFormed (.nop 0) = true := ⟨rfl, by decide⟩

/-! ### Steps -/

theorem test_step_idles : step {} = .next {} := rfl
theorem test_decode_none : decodeTableWord 64 0 = none := rfl
theorem test_fetchWord_same : (State.reset.withFetchWord 64 0).pending = [] := rfl

/-! ### Engine instructions -/

/-- ADDI extends its immediate's sign (R70). -/
theorem test_addi_negative :
    ((eng0 (exec (.addi 0 1 2 (-1)) (runs (holding 2 7)))).map fun en => (en.get 1, en.pc)) = some (6, 8) := by decide
/-- A shift takes its distance modulo 64. -/
theorem test_shl_modulo :
    ((eng0 (exec (.shl 0 1 2 3) (runs (holding 2 3 ∘ holding 3 65)))).map fun en => en.get 1) = some 6 := by decide
theorem test_sha_sign :
    ((eng0 (exec (.sha 0 1 2 3) (runs (holding 2 (-8) ∘ holding 3 1)))).map fun en => en.get 1) = some (-4) := by decide
/-- CMP compares signed numbers. -/
theorem test_cmp_signed :
    ((eng0 (exec (.cmp 0 1 2 3) (runs (holding 2 (-1) ∘ holding 3 1)))).map fun en => en.get 1) = some (-1) := by decide
/-- g0 reads as zero and discards writes. -/
theorem test_g0 :
    ((eng0 (exec (.addi 0 0 0 5) (runs))).map fun en => (en.get 0, en.pc)) = some (0, 8) := by decide

theorem witness_ComputeInstructions : (runs).canIssue 0 = true ∧ ((runs).eng 0).pc ≠ 0xFFF8 ∧ (1 : Gpr) ≠ 0 := by decide

/-- FlowOfControl: a branch that holds and goes to the last word, one that fails, and RET to the last word; and a target just past the
scratchpad, one before its start, RET to a misaligned and to a far address, and the last word. -/
theorem witness_FlowOfControl :
    let s := runs (fun en => { en with g := en.g.set 31 0xFFF8, pc := 8 })
    s.canIssue 0 = true ∧ (0 : Int) ≤ 8 + 8 * (8190 : BitVec 41).toInt ∧ 8 + 8 * (8190 : BitVec 41).toInt ≤ 0xFFF8 ∧
      8 + 8 * (-1 : BitVec 56).toInt = 0 ∧ (s.eng 0).g[31].toNat ≤ 0xFFF8 ∧ (s.eng 0).g[31].toNat % 8 = 0 ∧
      (s.eng 0).get 1 = (s.eng 0).get 2 ∧ (s.eng 0).get 1 ≠ (s.eng 0).get 31 ∧
      ((s.eng 0).get 1).toInt < ((s.eng 0).get 31).toInt := by decide
theorem witness_FlowOfControl_traps :
    let s (r : W64) (pc : BitVec 16) := runs fun en => { handler en with g := en.g.set 31 r, pc := pc }
    let t := s 4 0
    t.canIssue 0 = true ∧ (t.eng 0).tvecEn = true ∧ (t.eng 0).inTrap = false ∧
      0xFFF8 < (0 + 8 * (8192 : BitVec 56).signExtend 64 : W64).toNat ∧
      0xFFF8 < (0 + 8 * (-1 : BitVec 41).signExtend 64 : W64).toNat ∧ (t.eng 0).g[31].toNat % 8 ≠ 0 ∧
      ((s 0x10000 0).eng 0).g[31].toNat % 8 = 0 ∧ 0xFFF8 < ((s 0x10000 0).eng 0).g[31].toNat ∧
      (s 0 0xFFF8).canIssue 0 = true ∧ ((s 0 0xFFF8).eng 0).pc = 0xFFF8 := by decide

/-- InstructionFetch: a word with a single-bit error and one without; and one engine that runs, whose word spells an instruction, or
none. -/
theorem witness_InstructionFetch :
    let s (w : W64) := runs fun en => { handler en with imemSoft := [0], code := [(0, quadOf w 0)] }
    let good := s 0x1068000000000002
    0 ∈ ((s 0).eng 0).imemSoft ∧ 1 ∉ ((s 0).eng 0).imemSoft ∧ good.pending = [] ∧ good.ref.enrolDue = none ∧ good.ownFrames = [] ∧
      good.runners = [0] ∧ decodeOctuk 0 (good.eng 0).fetched = some (.addi 0 13 0 2) ∧
      decodeOctuk 0 ((s 0xFF00000000000000).eng 0).fetched = none ∧ (s 0xFF00000000000000).spend.canIssue 0 = true ∧
      ((s 0).eng 0).tvecEn = true ∧ ((s 0).eng 0).inTrap = false ∧ ({} : State).runners = [] := by decide
/-- Words written out field by field from the instruction formats: a type I, a type B and a type R (R79, R80). -/
theorem test_fetched_words :
    decodeOctuk 3 0x1068000000000002 = some (.addi 3 13 0 2) ∧ decodeOctuk 3 0x2201800000000010 = some (.bne 3 6 0 16) ∧
      decodeOctuk 3 0x5030440000000000 = some (.ctxLoad 3 6 1 2 0) := by decide

theorem test_call :
    ((eng0 (exec (.call 0 2) (runs))).map fun en => (en.get 31, en.pc)) = some (8, 16) := by decide
theorem test_bne_falls_through :
    ((eng0 (exec (.bne 0 1 2 5) (runs))).map fun en => en.pc) = some 8 := by decide

theorem test_branch_out_traps :
    ((eng0 (exec (.b 0 8192) (runs handler))).map fun en => (en.inTrap, en.tval, en.tpc, en.pc)) =
      some (true, 0x10000, 0, 0x440) := by decide

/-- TrapEntryAndReturn: TRAP, the two NMIs, an overflow, the first overrun, and ERET from a handler. -/
theorem witness_TrapEntryAndReturn :
    let s := runs handler
    let clock := runs fun en => { handler en with nmiClock := true }
    let hot := runs fun en => { handler en with nmiThermal := true }
    let ov := runs fun en => { handler en with ovfHeld := 0x80 }
    let dog := runs fun en => { handler en with wdog := 1, runtime := 1025 }
    let back := runs fun en => { handler en with inTrap := true, tpc := 0xFFF8 }
    s.canIssue 0 = true ∧ (s.eng 0).tvecEn = true ∧ (s.eng 0).inTrap = false ∧ (s.eng 0).frozen = false ∧
      s.engClocked 0 = true ∧ (clock.eng 0).nmiClock = true ∧ (hot.eng 0).nmiClock = false ∧ (hot.eng 0).nmiThermal = true ∧
      (ov.eng 0).ovfHeld.getLsbD (7 : Fin 8) = true ∧ (dog.eng 0).wdog ≠ 0 ∧ (dog.eng 0).state = .running ∧
      (dog.eng 0).wdog.toNat * 1024 < (dog.eng 0).runtime.toNat ∧ (dog.eng 0).wdogHits = 0 ∧ back.canIssue 0 = true ∧
      (back.eng 0).inTrap = true ∧ (back.eng 0).tpc.toNat % 8 = 0 ∧ (back.eng 0).tpc.toNat ≤ 0xFFF8 := by decide
theorem test_eret :
    ((eng0 (exec (.eret 0) (runs fun en => { handler en with inTrap := true, tpc := 16 }))).map fun en =>
      (en.inTrap, en.pc)) = some (false, 16) := by decide

/-- EndOfProgram: nothing outstanding, no handler, the second overrun, a completion queue with a credit. -/
theorem witness_EndOfProgram :
    let s := runs fun en => { en with tvec := 0, cqen := true, cq := 5, wdog := 1, runtime := 1025, wdogHits := 1 }
    let s := (((s.put F.Q_BIND.VALID 1 [5]).put F.Q_BIND.PROD_KIND 1 [5]).put F.Q_BIND.PROD_ENG 0 [5]).setCredits 5 1
    s.canIssue 0 = true ∧ (s.eng 0).fenceOpen true true = false ∧ (s.eng 0).tvecEn = false ∧ (s.eng 0).frozen = false ∧
      s.engClocked 0 = true ∧ (s.eng 0).wdog ≠ 0 ∧ (s.eng 0).wdogHits ≠ 0 ∧
      (s.eng 0).wdog.toNat * 1024 < (s.eng 0).runtime.toNat ∧ (s.eng 0).cqen = true ∧ s.producer 5 = .engine 0 ∧
      0 < s.credits 5 ∧ (1 : Eng) ≠ 0 := by decide
/-- The pool of the reset state can store an item. -/
theorem witness_CanStore : ({} : State).CanStore := by
  refine ⟨by decide, by decide, ?_⟩
  intro p hp
  cases hp
theorem test_halt_idles :
    ((eng0 (exec (.halt 0 1) (runs))).map fun en => en.state) = some .idle := by decide

/-! ### Memory instructions -/

/-- ScratchpadMemory: the last place of each width below 64 KiB, every width aligned, an even rd. -/
theorem witness_ScratchpadMemory :
    let s := runs (holding 2 0xFFF0)
    let a (d : BitVec 41) := ((s.eng 0).get 2 + d.signExtend 64).toNat
    s.canIssue 0 = true ∧ (s.eng 0).pc ≠ 0xFFF8 ∧ a 8 = 0xFFF8 ∧ a 8 % 8 = 0 ∧ a 12 = 0xFFFC ∧ a 12 % 4 = 0 ∧ a 0 % 16 = 0 ∧
      a 12 < 0x10000 ∧ a 12 / 16 ∉ (s.eng 0).dmemBad ∧ a 12 / 16 ∉ (s.eng 0).dmemSoft ∧ (30 : Gpr).val % 2 = 0 ∧
      ((s.eng 0).get 2 + (0 : BitVec 40).signExtend 64).toNat = 0xFFF0 := by decide

/-- ST and LD of one half of a scratchpad word. -/
theorem test_st_word :
    ((eng0 (exec (.st 0 3 2 true false 8) (runs (holding 2 0x40 ∘ holding 3 5)))).map fun en => Sparse.read en.dmem 4) =
      some (0x50000000000000000) := by decide
theorem test_amoadd :
    ((eng0 (exec (.amoadd 0 1 2 3 true 0) (runs fun en =>
      { (holding 3 2 en) with dmem := [(0, 0x700000000000000FF)] }))).map fun en => (en.get 1, Sparse.read en.dmem 0)) =
      some (0xFF, 0x70000000000000101) := by decide

/-- MemoryTraps: the first addresses outside each space, misaligned ones, and each region that a width does not reach. -/
theorem witness_MemoryTraps :
    let s (v : W64) := runs (handler ∘ holding 2 v)
    let a (v : W64) := ((s v).eng 0).get 2 + (0 : BitVec 41).signExtend 64
    ([(0x10000 : W64), 0x1000000000000, 2, 12, 24, 0, 0x800000000000, 0x030000000000].all fun v =>
        (s v).canIssue 0 && ((s v).eng 0).tvecEn && !((s v).eng 0).inTrap && a v == v) = true ∧
      0x10000 ≤ (a 0x10000).toNat ∧ 2 ^ 48 ≤ (a 0x1000000000000).toNat ∧ (a 2).toNat % 4 ≠ 0 ∧ (a 12).toNat % 8 ≠ 0 ∧
      (a 24).toNat % 16 ≠ 0 ∧ spaceOf (a 0).toNat = .memory ∧ spaceOf (a 0x800000000000).toNat = .host ∧
      spaceOf (a 0x030000000000).toNat = .register ∧ (a 0x030000000000).toNat % 16 = 0 := by decide +kernel
theorem test_narrow_load :
    ((eng0 (exec (.ld 0 1 2 false false 0) (runs handler))).map fun en => (en.tcause, en.inTrap)) =
      some (6 + 2 ^ 24 * 1, true) := by decide

/-- A bank of design memory that engine 0 owns, in a domain that is on. -/
def bank : State := (((runs (s := on [10, 11] {})).put F.BANK_OWNER.KIND 1 [0, 0]).put F.BANK_OWNER.ENGINE 0 [0, 0])

/-- DesignMemoryAccess: the last word of a bank. -/
theorem witness_DesignMemoryAccess :
    let s := bank.onEng 0 (holding 2 0x3FFFF0)
    let a := ((s.eng 0).get 2 + (0 : BitVec 41).signExtend 64).toNat
    s.canIssue 0 = true ∧ (s.eng 0).inTrap = false ∧ a < 0x100000000 ∧ a % 16 = 0 ∧
      (s.eng 0).storesTo (BitVec.ofNat 64 a) = false ∧ s.targetOff (engRq 0) a = false ∧ s.targetHeld a = false ∧
      s.portBAllows (memTower a) (memBank a) (.engine 0) (s.eng 0).role false = .ok ∧
      s.portBAllows (memTower a) (memBank a) (.engine 0) (s.eng 0).role true = .ok ∧ s.memBadAt a = false ∧ s.memSoftAt a = false ∧
      (s.eng 0).stores.length < 16 := by decide
theorem test_stq_bank :
    leaves (exec (.stq 0 2 4 false 0) (bank.onEng 0 (holding 2 7 ∘ holding 3 9 ∘ holding 4 0x20))) (fun s =>
      s.memWordAt 0x20 == 0x90000000000000007 && (s.eng 0).stores.length == 1) = true := by decide

/-- RegisterAccess: LAP_COUNT at its address, which a store writes while laps are halted; an OK and a failed store's answer. -/
theorem witness_RegisterAccess :
    let s := (runs (handler ∘ holding 2 (BitVec.ofNat 64 (RegName.LAP_COUNT.addr [])))).onEng 0 fun en =>
      { en with stores := [{ addr := 0, resp := some 0 }, { addr := 16, resp := some 1 }] }
    let a := RegName.LAP_COUNT.addr []
    RegName.LAP_COUNT.valid [] = true ∧ shadowed .LAP_COUNT [] = false ∧ copyAssigned .LAP_COUNT [] = true ∧
      spaceOf a = .register ∧ s.canIssue 0 = true ∧
      (s.eng 0).get 2 + (0 : BitVec 41).signExtend 64 = BitVec.ofNat 64 a ∧ s.targetOff (engRq 0) a = false ∧
      s.targetHeld a = false ∧ (s.eng 0).storesTo (BitVec.ofNat 64 a) = false ∧
      (s.touchGate a).readRight (s.eng 0).role .LAP_COUNT [] = true ∧
      (s.touchGate a).slotDenies (engRq 0) .LAP_COUNT [] = false ∧
      ((s.touchGate a).writeReg (engRq 0) (s.eng 0).role .LAP_COUNT [] .full 5).1 = .ok ∧
      (((s.touchGate a).writeReg (engRq 0) (s.eng 0).role .LAP_COUNT [] .full 5).2.eng 0).state = .running ∧
      (s.eng 0).stores[0]? = some { addr := 0, resp := some 0 } ∧ (s.eng 0).stores[1]? = some { addr := 16, resp := some 1 } ∧
      (s.eng 0).impreciseHeld = [] ∧ (s.eng 0).tvecEn = true ∧ (s.eng 0).inTrap = false := by decide
theorem test_st_lapCount :
    leaves (exec (.st 0 3 2 false false 0) (runs (holding 2 (BitVec.ofNat 64 (RegName.LAP_COUNT.addr [])) ∘ holding 3 9)))
      (fun s => s.lapCount == 9) = true := by decide
theorem test_storeResponse_failed :
    ((eng0 (exec (.storeResponse 0 0) (runs fun en => { handler en with stores := [{ addr := 16, resp := some 1 }] }))).map
      fun en => (en.tcause, en.tval)) = some (6 + 0x10000 + 0x1000000, 16) := by decide

/-- BlockMoves: MOVE of nothing and of one word, a channel in each state, and DMA_DONE up to the last word of the scratchpad. -/
theorem witness_BlockMoves :
    let s := runs (handler ∘ holding 3 16 ∘ holding 4 0x100)
    let op : BitVec 32 := 0x50
    let done := (on [10] {}).onEng 0 fun en =>
      { en with chans := en.chans.set 0 { state := .busy, op := some (.move 1 1 (16 * 0) (16 * 4095) (16 * 1)) } }
    let halted := runs fun en => { handler en with chans := en.chans.set 0 { state := .halted } }
    let busy := runs fun en => { en with chans := en.chans.set 7 { state := .busy } }
    s.canIssue 0 = true ∧ op.toNat % 8 = (0 : Fin 8).val ∧ bitsOf op 31 8 = 0 ∧ op.getLsbD 3 = false ∧ bitsOf op 5 4 = 1 ∧
      bitsOf op 7 6 = 1 ∧ ((s.eng 0).get 1).toNat = 0 ∧ ((s.eng 0).get 3).toNat = 16 ∧ moveFits 1 0x100 16 = true ∧
      moveFits 1 0 16 = true ∧ (s.eng 0).chans[(0 : Fin 8)].state = .idle ∧ (halted.eng 0).chans[(0 : Fin 8)].state = .halted ∧
      (halted.eng 0).tvecEn = true ∧ (halted.eng 0).inTrap = false ∧ (busy.eng 0).chans[(7 : Fin 8)].state = .busy ∧
      (done.eng 0).chans[(0 : Fin 8)].state = .busy ∧ (done.eng 0).chans[(0 : Fin 8)].bytes = 0 ∧
      (done.eng 0).chans[(0 : Fin 8)].op = some (.move 1 1 (16 * 0) (16 * 4095) (16 * 1)) ∧
      (done.eng 0).chans[(0 : Fin 8)].lines = [] ∧ (done.eng 0).chans[(0 : Fin 8)].verdictWait = false ∧
      (done.eng 0).dmemBad = [] ∧ (done.eng 0).dmemSoft = [] ∧ done.chanHeld 0 0 = false ∧
      done.pd (engDomain 0) = 1 := by decide
theorem test_dmaDone :
    ((eng0 (exec (.dmaDone 0 0) ((on [10] {}).onEng 0 fun en =>
      { en with dmem := [(0, 5)], chans := en.chans.set 0 { state := .busy, op := some (.move 1 1 0 0xFFF0 16) } }))).map
      fun en => (Sparse.read en.dmem 4095, en.chans[(0 : Fin 8)].state, en.chans[(0 : Fin 8)].bytes)) =
      some (5, .idle, 16) := by decide

/-! ### Events, laps and contexts as engines command them -/

/-- EventsOfEngines: bit 63, class 9 and class 6 with a time, a mask that meets a pending bit and one that does not, the
timeout, and a timer bound to bit 63. -/
theorem witness_EventsOfEngines :
    let s := runs (holding 2 1)
    let p := s.onEng 0 fun en => { en with evpend := 1 }
    let w := (on [10] {}).onEng 0 fun en => { en with state := .waiting, waiting := some (.wait 1 2 true) }
    let t := s.onEng 0 fun en => { en with bindings := [⟨63, 6, 5⟩] }
    s.canIssue 0 = true ∧ (s.eng 0).pc ≠ 0xFFF8 ∧
      s.fld (unitFields (unitIx (unitOfEngine 0)).1).en (unitIx (unitOfEngine 0)).2 = 0 ∧
      (65599 : BitVec 32) = BitVec.ofNat 32 (65536 + (63 : Fin 64).val) ∧
      (9 : Fin 16).val ≤ 9 ∧ (s.eng 0).get 2 ≠ 0 ∧ ((p.eng 0).evpend &&& (p.eng 0).get 2) ≠ 0 ∧
      ((s.eng 0).evpend &&& (s.eng 0).get 2) = 0 ∧ s.fenced (engDomain 3) = false ∧ s.fenced (engDomain 4) = true ∧ (s.eng 0).hostStoreHeld = false ∧
      ({ s.eng 0 with stores := [{ addr := 0x800000000000, resp := none }] } : Engine).hostStoreHeld = true ∧
      (w.eng 0).waiting = some (.wait 1 2 true) ∧ (w.eng 0).state = .waiting ∧ (w.eng 0).nmiDue = false ∧
      (w.eng 0).evpend &&& 2 = 0 ∧ (w.eng 0).pc ≠ 0xFFF8 ∧ (∃ x ∈ (t.eng 0).bindings, x.bit = 63 ∧ x.cls.val = 6 ∧ x.arg ≠ 0) := by
  decide
theorem test_signal :
    leaves (exec (.signal 0 2 0x0501) (runs (holding 2 9))) (fun s =>
      (s.eng 1).evpend == 0x20 && (s.eng 1).sigdata == 9) = true := by decide

/-- LapInstructions: halted without a personality, active and ready, TORN, running, and a schedule that is not valid. -/
theorem witness_LapInstructions :
    let s := runs
    let a := active s
    let run := inPhase .steps a
    let torn : State := { a with ref := { a.ref with torn := true } }
    s.canIssue 0 = true ∧ s.fenced (pdNE 0) = false ∧ s.towerHeld 0 = false ∧ s.lapsRun = false ∧ s.ref.torn = false ∧
      s.persona_ ≠ 2 ∧ a.mayStart = true ∧ a.chainMode = 0 ∧ run.lapsRun = true ∧ run.canIssue 0 = true ∧
      (0 : BitVec 32).getLsbD 0 = false ∧ (1 : BitVec 32).getLsbD 0 = true ∧ torn.lapsRun = false ∧ torn.ref.torn = true ∧
      (a.put F.LAP_KIND.VALID 0 [0]).scheduleOk 0 = false ∧ (a.put F.LAP_KIND.VALID 0 [0]).persona_ = 2 ∧ a.gsr = false := by decide
theorem test_lapRun_torn :
    ((eng0 (exec (.lapRun 0 1 0) (let a := active runs; { a with ref := { a.ref with torn := true } }))).map fun en =>
      en.get 1) = some 4 := by decide

/-- ContextInstructions: the loader busy and free, a staged image with and without an activation pending, and one
frame of zeros, whose cell 0 selects its own LOCAL source (R35). -/
theorem witness_ContextInstructions :
    let s := runs (holding 2 0x010000000000 ∘ holding 3 1) (on [10, 15] {})
    let job : Job := { engine := 0, ch := 0, role := .operator, queue := 0, addr := 0, len := 0, deadline := 0 }
    let busy : State := { s with persona := { s.persona with job := some job } }
    let staged := (s.put F.LOAD_STAT.STAGED 1).put F.LOAD_STAT.PERSONA 2
    s.canIssue 0 = true ∧ s.fenced (pdNE 0) = false ∧ s.towerHeld 0 = false ∧ busy.persona.job.isSome = true ∧
      busy.canIssue 0 = true ∧ s.persona.job = none ∧ (s.eng 0).chans[(0 : Fin 8)].state ≠ .busy ∧ s.persona_ ≠ 1 ∧
      s.flag F.LOAD_STAT.STAGED = false ∧ staged.flag F.LOAD_STAT.STAGED = true ∧ staged.persona_ ≠ 1 ∧
      staged.flag F.LOAD_STAT.ACT_PENDING = false ∧ (staged.put F.LOAD_STAT.ACT_PENDING 1).flag F.LOAD_STAT.ACT_PENDING = true ∧
      (inPhase .steps staged).lapsRun = true ∧
      isSlotBase 0x010000000000 = true ∧ frameNumber 0x010000000000 + 1 ≤ 149760 ∧ s.layerHeld 0 2 = false ∧
      s.fenced (pdCfg 0) = false ∧ s.invalidIn 0 0 = some 0 := by decide +kernel
/-- A frame of idle contexts (R35): each half is 0x0000_F1E3_C78F_1E00. -/
theorem witness_ContextInstructions_idle :
    let word : Quad := 0x0000F1E3C78F1E000000F1E3C78F1E00
    let s : State := { fab := { frames := (List.range 512).map fun i => (frameKey 0 0 i, word) } }
    s.invalidIn 0 0 = none := by decide +kernel
/-! ### System, queue, power and test instructions -/

/-- SystemInstructions: nothing outstanding and a store outstanding, special registers by number, a handler entered, the counters
of the engine's unit at rest; the microcode with and without a swap pending, another bank valid, and laps. -/
theorem witness_SystemInstructions :
    let s := runs (holding 2 5)
    let w := runs fun en => { en with stores := [{ addr := 0, resp := none }] }
    let swaps (p a b : Bool) : State := { s with mc := { s.mc with swapPending := p, aValid := a, bValid := b } }
    s.canIssue 0 = true ∧ (s.eng 0).pc ≠ 0xFFF8 ∧ (15 : BitVec 32).toNat < 16 ∧ (s.eng 0).fenceOpen true true = false ∧
      (w.eng 0).fenceOpen true true = true ∧ (s.special 0 0x001).isSome = true ∧ bitsOf (0x00C : BitVec 32) 11 0 = 0x00C ∧
      bitsOf (0x009 : BitVec 32) 11 0 = 0x009 ∧ bitsOf (0x000 : BitVec 32) 11 0 = 0x000 ∧
      bitsOf (0x010 : BitVec 32) 11 0 = 0x010 ∧ bitsOf (0x018 : BitVec 32) 11 0 = 0x018 ∧
      s.fld (unitFields (unitIx (unitOfEngine 0)).1).en (unitIx (unitOfEngine 0)).2 = 0 ∧ (s.eng 0).role = .installer ∧
      (0xFFFF : BitVec 32).toNat < 65536 ∧ s.mc.active = false ∧ (swaps true true true).mc.swapPending = true ∧
      (swaps false true true).mc.bValid = true ∧ (swaps false true false).mc.bValid = false ∧
      (inPhase .steps (swaps false true true)).lapsRun = true ∧ (swaps false true true).lapsRun = false := by decide
theorem test_srr_engine :
    ((eng0 (exec (.srr 0 1 0x001) (runs))).map fun en => en.get 1) = some 0 := by decide
theorem test_swap :
    leaves (exec (.swap 0) { runs with mc := { bValid := true } }) (fun s => s.mc.active) = true := by decide

/-- QueueInstructions: a buffer at the last 64 bytes, a producer with and without a credit beyond the one kept back, no producer;
a consumer with an item, with none, and faulted; no consumer. -/
theorem witness_QueueInstructions :
    let s := runs (holding 2 0xFFC0 ∘ holding 3 5)
    let p := (producerOf 5 1 0 s).setCredits 5 1
    let kept := p.onEng 0 fun en => { en with cqHeld := true, cq := 5 }
    let c := queued 5 [7] (consumerOf 5 1 0 (s.onEng 0 (holding 4 5)))
    s.canIssue 0 = true ∧ s.fenced (pdNE 0) = false ∧ s.towerHeld 0 = false ∧ ((s.eng 0).get 2).toNat % 64 = 0 ∧
      ((s.eng 0).get 2).toNat < 0x10000 ∧ (s.eng 0).dmemBad = [] ∧ (s.eng 0).dmemSoft = [] ∧
      ((s.eng 0).get 3).toNat % 8192 = 5 ∧ s.producer 5 ≠ .engine 0 ∧ p.producer 5 = .engine 0 ∧
      p.flag F.Q_BIND.CMD [5] = false ∧ (0 : Nat) < p.credits 5 ∧ kept.credits 5 ≤ 1 ∧ s.consumer 5 ≠ .engine 0 ∧
      c.consumer 5 = .engine 0 ∧ c.flag F.Q_STAT.FAULTED [5] = false ∧ c.headCell 5 = some (cell 7) ∧
      (cell 7).poison = false ∧ ((spoiled c).headCell 5).map (fun x => x.poison) = some true ∧ (queued 5 [] c).headCell 5 = none ∧
      (c.put F.Q_STAT.FAULTED 1 [5]).flag F.Q_STAT.FAULTED [5] = true := by decide +kernel
theorem test_qPop :
    leaves (exec (.qPop 0 1 2 3) (queued 5 [7] (consumerOf 5 1 0 (runs (holding 2 5 ∘ holding 3 0x40))))) (fun s =>
      (s.eng 0).get 1 == 1 && Sparse.read (s.eng 0).dmem 4 == 7 && s.items 5 == []) = true := by decide +kernel
theorem test_qPush_no_credit :
    ((eng0 (exec (.qPush 0 1 2 3) (producerOf 5 1 0 (runs (holding 3 5))))).map fun en => en.get 1) = some 1 := by decide

/-- QueueCells: the last queue; a link that is bad, and one that is not read because the queue ends with its item. -/
theorem witness_QueueCells :
    (8191 : Qn) ≠ 0 ∧ (8191 : Qn).val = 8191 ∧ (queued 5 [7, 8] { linkBad := [0] }).badLink 5 0 = true ∧
      (queued 5 [7] { linkBad := [0] }).badLink 5 0 = false := by decide

theorem test_pwrQuery :
    ((eng0 (exec (.pwrQuery 0 1 2) (runs (holding 2 10)))).map fun en => en.get 1) = some 0 := by decide

/-- PowerAndTestInstructions: a March of bank 0 with and without the window, and while a test of its group runs; sweeps likewise. -/
theorem witness_PowerAndTestInstructions :
    let s := runs (s := on [10, 11] {})
    let run : TestRun := ⟨0, .group 0, 0, 0, none, false, 0, 0, 0⟩
    s.canIssue 0 = true ∧ (s.eng 0).role = .installer ∧ (s.eng 0).role ≠ .operator ∧ testLegal 0 0 = true ∧ s.fenced (pdNE (testTower 0 0)) = false ∧
      s.towerHeld (testTower 0 0) = false ∧ s.testBusy 0 0 false = false ∧ s.testWindow 0 0 = false ∧
      (clocked s).testWindow 0 0 = true ∧ (clocked s).testBusy 0 0 false = false ∧
      ({ s with tests := [run] } : State).testBusy 0 0 false = true ∧ s.sweepOf 0 = none ∧ s.testWindow 7 0 = false ∧
      (clocked s).testWindow 7 0 = true ∧
      ({ s with sweeps := [⟨0, none, Vector.replicate 8 0, 0, 0, 0, 1, false⟩] } : State).sweepOf 0 ≠ none ∧
      ((List.finRange 4).filter fun t => (1 : W64).getLsbD t.val) = [0] := by decide
theorem test_bankMarch_refused :
    ((eng0 (exec (.bankMarch 0 1 2) (runs (s := on [10, 11] {})))).map fun en => en.get 1) = some 1 := by decide
theorem test_bankMarch_started :
    ((eng0 (exec (.bankMarch 0 1 2) (clocked (runs (s := on [10, 11] {}))))).map fun en => en.get 1) = some 0 := by decide

/-! ### Dispatch and denials -/

/-- CommandDispatch: a descriptor of LEN 0 with and without a completion queue, one whose ENTRY is the last instruction, one that
sets a bit called zero, and one whose completion queue another engine produces. -/
theorem witness_CommandDispatch :
    let s (x : Item) := queued 9 [x] (((consumerOf 9 1 0 (on [10] {})).put F.Q_BIND.CMD 1 [9]).put F.Q_BIND.ROLE 1 [9])
    let plain : Item := 8191 * 2 ^ 80
    let posts : Item := 2 ^ 127 + 5 * 2 ^ 112
    let good := ((producerOf 5 1 0 (s posts)).setCredits 5 1)
    (s plain).mayDispatch 0 = true ∧ ((s plain).eng 0).launch = none ∧ (s plain).readyQueues 0 = [9] ∧
      (s plain).headCell 9 = some (cell plain) ∧ bit plain 127 = false ∧ badCommand plain = false ∧ bitsOf plain 79 64 = 0 ∧
      badCommand (2 ^ 125) = true ∧ (s (2 ^ 125)).readyQueues 0 = [9] ∧ bit posts 127 = true ∧
      (s posts).producer 5 ≠ .engine 0 ∧ (s posts).readyQueues 0 = [9] ∧ good.producer 5 = .engine 0 ∧ good.credits 5 ≠ 0 ∧
      good.readyQueues 0 = [9] ∧ badCommand posts = false := by decide +kernel
theorem test_commandDispatch :
    ((eng0 (exec (.commandDispatch 0) (queued 9 [4 * 2 ^ 80 + 77 * 2 ^ 192]
      (((consumerOf 9 1 0 (on [10] {})).put F.Q_BIND.CMD 1 [9]).put F.Q_BIND.ROLE 1 [9])))).map fun en => (en.state, en.pc, en.get 1)) = some (.running, 32, 77) := by decide +kernel

/-- RoleDenials: the operator's program, and the maker's. -/
theorem witness_RoleDenials :
    let s (r : Role) := runs fun en => { handler en with role := r }
    (s .operator).canIssue 0 = true ∧ ((s .operator).eng 0).tvecEn = true ∧ ((s .operator).eng 0).inTrap = false ∧
      ((s .operator).eng 0).role = .operator ∧ (s .maker).canIssue 0 = true ∧ ((s .maker).eng 0).role ≠ .installer ∧
      bitsOf (0x00B : BitVec 32) 11 0 = 0x00B ∧ bitsOf (0x018 : BitVec 32) 11 0 = 0x018 ∧
      bitsOf (0x031 : BitVec 32) 11 0 = 0x031 := by decide
theorem test_setCap_denied :
    ((eng0 (exec (.pwrSetCap 0 1 2) (runs fun en => { handler en with role := .operator }))).map fun en =>
      (en.tcause, en.pc)) = some (2, 0x480) := by decide

/-- Counters: unit 25 and unit 4, counter 8, read by the installer, and by the operator with and without the right; SNAP. -/
theorem witness_Counters :
    let s := runs (handler ∘ holding 2 4) (on [1, 10, 21] {})
    let may := (s.onEng 0 fun en => { en with role := .operator }).put F.COUNTER_ACCESS.READ (2 ^ 4)
    s.canIssue 0 = true ∧ ((s.eng 0).get 2).toNat % 32 = (4 : Fin 26).val ∧ (8 : BitVec 32).toNat % 16 = (8 : Fin 9).val ∧
      s.fenced (unitDomain 4) = false ∧ unitTower 4 = some 0 ∧ s.towerHeld 0 = false ∧ (s.eng 0).role ≠ .operator ∧
      (may.eng 0).role = .operator ∧ (may.fld F.COUNTER_ACCESS.READ).testBit 4 = true ∧
      (s.fld F.COUNTER_ACCESS.READ).testBit 4 = false ∧ (s.eng 0).tvecEn = true ∧ (s.eng 0).inTrap = false ∧
      unitTower 25 = none ∧ (on [1] {}).fenced (unitDomain 25) = false ∧
      reach s engine0 .installer (RegName.COUNTER_SNAP.addr []) = true := by decide
/-! ### Register commands -/

/-- LapRegisterCommands: reached by the installer, with laps running and halted, an activation pending and not, an entry beyond
the first with LAST. -/
theorem witness_LapRegisterCommands :
    let s := lit
    ([RegName.LAP_CTRL.addr [], RegName.LAP_COUNT.addr [], RegName.LAP_POS.addr [], RegName.LAP_KIND.addr [7],
      RegName.LAP_SCHED.addr [63], RegName.ACT_AT.addr [], RegName.LOAD_CTRL.addr [], RegName.TRIG_CTRL.addr [15],
      RegName.LOG_CTRL.addr [], RegName.BENCH.addr [7], RegName.TRACE_CTRL.addr [0]].all fun a =>
        reach s engine0 .installer a) = true ∧
      s.lapsRun = false ∧ (inPhase .steps s).lapsRun = true ∧ s.flag F.LOAD_STAT.ACT_PENDING = false ∧
      (s.put F.LOAD_STAT.ACT_PENDING 1).flag F.LOAD_STAT.ACT_PENDING = true ∧
      (let t := (s.put F.LAP_SCHED.LAST 1 [0]).put F.SCHED_STAT.POS 1
       (0 : Fin 64).val < t.pos ∧ t.flag F.LAP_SCHED.LAST [0] = true) ∧ s.flag F.LOAD_STAT.UNBENCH_HELD = false ∧
      Role.installer ≠ .operator := by decide +kernel
theorem test_lapCount_refused :
    leaves (exec (.lapCount engine0 5) (inPhase .steps lit)) (fun s =>
      s.lapCount == 0 && s.answers == [⟨engine0, .installer, Resp.bankNotOwned.byte, false, 0⟩]) = true := by decide +kernel
theorem test_trigCtrl_at_once :
    leaves (exec (.trigCtrl engine0 0 1 0x55) lit) (fun s => s.reg .TRIG_ADDR [0] == 0x55) = true := by decide +kernel

/-- BankCommands: a change asked, the same owner again, a handover pending, a bank bound to a port, one in the pool. -/
theorem witness_BankCommands :
    let s := lit
    let bound : State := ({ s with fab := { s.fab with portBind := [(0, 1)] } } : State).put F.LOAD_STAT.PERSONA 2
    let pool := ((s.put F.BANK_OWNER.KIND 2 [0, 0]).put F.POOL_BANK.EN 1 [0]).put F.POOL_BANK.BANK 0 [0]
    reach s engine0 .installer (RegName.BANK_OWNER.addr [0, 255]) = true ∧
      reach s engine0 .installer (RegName.ECC_CTRL.addr [0]) = true ∧
      s.flag F.BANK_OWNER.PENDING [0, 255] = false ∧ s.fld F.BANK_OWNER.KIND [0, 255] = 2 ∧
      bitsOf (3 : W64) F.BANK_OWNER.KIND.hi F.BANK_OWNER.KIND.lo = 3 ∧
      (s.put F.BANK_OWNER.PENDING 1 [0, 255]).flag F.BANK_OWNER.PENDING [0, 255] = true ∧
      bound.fld F.BANK_OWNER.KIND [0, 0] = 0 ∧ bound.bankBound 0 0 = true ∧ pool.bankPooled 0 0 = true ∧
      pool.fld F.BANK_OWNER.KIND [0, 0] = 2 ∧ s.bankBound 0 0 = false ∧ s.bankPooled 0 0 = false := by decide +kernel
theorem test_bankOwner_pending :
    leaves (exec (.bankOwner engine0 0 0 3) lit) (fun s =>
      s.fld F.BANK_OWNER.KIND [0, 0] == 3 && s.flag F.BANK_OWNER.PENDING [0, 0]) = true := by decide +kernel

/-- DoorbellCommands: queue 8191, which the host produces or does not, with and without a credit. -/
theorem witness_DoorbellCommands :
    let s := lit
    let h := producerOf 8191 2 0 s
    let w := doorbellBase + 8191 * 0x1000
    host0.agent = .host 0 0 ∧ reach h host0 .operator w = true ∧ h.producer 8191 = .host ∧
      h.flag F.Q_BIND.CMD [8191] = false ∧ h.credits 8191 = 0 ∧ (h.setCredits 8191 1).credits 8191 ≠ 0 ∧
      reach (h.setCredits 8191 1) host0 .operator w = true ∧ s.producer 8191 ≠ .host ∧
      ([RegName.DB_CREDIT.addr [8191], RegName.DB_RING_PI.addr [8191], RegName.DB_RING_CI.addr [8191]].all fun a =>
        reach s host0 .operator a) = true := by decide +kernel
theorem test_ringPi :
    leaves (exec (.ringPi host0 3 1) (lit.put F.Q_RING.ORDER 6 [3])) (fun s => s.fld F.Q_RING_IDX.PI [3] == 1) = true := by
  decide +kernel

/-- QueueBinding: a command queue of engine 15, a queue that a flow holds, ends that a write may not name, a ninth command queue,
and another role. -/
theorem witness_QueueBinding :
    let s := lit
    let flow := ((s.put F.FLOW_BIND.VALID 1 [0]).put F.FLOW_BIND.IN_EN 1 [0]).put F.FLOW_QUEUES.IN_Q 7 [0]
    let cmd (q : Nat) (s : State) := (consumerOf q 1 0 s).put F.Q_BIND.CMD 1 [q]
    let value (c : Nat) : W64 := mergeWrite .Q_BIND .full 0 (BitVec.ofNat 64 c)
    reach s engine0 .installer (RegName.Q_BIND.addr [7]) = true ∧ s.qHeld 7 = false ∧ flow.qHeld 7 = true ∧
      reach flow engine0 .installer (RegName.Q_BIND.addr [7]) = true ∧ endsBad (setBits 0 F.Q_BIND.PROD_KIND.hi F.Q_BIND.PROD_KIND.lo 4) = true ∧
      endsBad (value 0) = false ∧ s.ninth 7 (value 0) = false ∧
      ([0, 1, 2, 3, 4, 5, 6, 8].foldl (fun s q => cmd q s) s).ninth 7 ((cmd 7 s).reg .Q_BIND [7]) = true ∧
      isCmd ((cmd 7 s).reg .Q_BIND [7]) = true ∧ endsBad ((cmd 7 s).reg .Q_BIND [7]) = false ∧
      isCmd (value 0) = false ∧ reach s host0 .operator (RegName.Q_BIND.addr [7]) = true := by decide +kernel

/-- QueueControlAndPool: a sound head, an uncorrectable one, one of a flow's inbound queue, and RESET with laps running. -/
theorem witness_QueueControlAndPool :
    let s := lit
    let flow := ((s.put F.FLOW_BIND.VALID 1 [0]).put F.FLOW_BIND.IN_EN 1 [0]).put F.FLOW_QUEUES.IN_Q 7 [0]
    let bad := spoiled (queued 7 [3] s)
    let runs : State := inPhase .steps { flow with fab := { flow.fab with tilesUsed := [flow.flowTile 0] } }
    reach s engine0 .installer (RegName.Q_CTRL.addr [7]) = true ∧ s.headCell 7 = none ∧ (bad.headCell 7).map (fun x => x.poison) = some true ∧
      bad.flowOfQueue 7 = none ∧ (spoiled (queued 7 [3] flow)).flowOfQueue 7 = some 0 ∧
      flow.flowIn 0 = some 7 ∧ runs.flowOfQueue 7 = some 0 ∧ runs.flowBusy 0 = true ∧
      reach runs engine0 .installer (RegName.Q_CTRL.addr [7]) = true ∧ flow.flowBusy 0 = false ∧
      (s.put F.Q_CTRL.RESET 1 [7]).flag F.Q_CTRL.RESET [7] = true ∧ s.pd (pdNE 0) = 1 ∧
      s.flag F.Q_CTRL.RESET [7] = false := by decide +kernel
theorem test_skip :
    leaves (exec (.skip engine0 7) (spoiled (queued 7 [5, 3] lit))) (fun s => s.items 7 == [cell 3]) = true := by
  decide +kernel
theorem test_qReset :
    leaves (exec (.qResetDone 7) ((queued 7 [3] lit).put F.Q_CTRL.RESET 1 [7])) (fun s =>
      s.items 7 == [] && !s.flag F.Q_CTRL.RESET [7]) = true := by decide +kernel

/-- QueueControlAndPool: an entry in use and kept, exchanged or cleared, with and without room, and a new bank that the queue manager owns
or not. -/
theorem witness_QueueControlAndPool_entries :
    let s := lit
    let v (bank : Nat) : W64 := setBits (setBits 0 F.POOL_BANK.EN.hi F.POOL_BANK.EN.lo 1) F.POOL_BANK.BANK.hi F.POOL_BANK.BANK.lo bank
    let used := s.setReg .POOL_BANK [63] (v 255)
    let bankOf (x : W64) := bitsOf x F.POOL_BANK.BANK.hi F.POOL_BANK.BANK.lo
    reach s engine0 .installer (RegName.POOL_BANK.addr [63]) = true ∧ used.poolEn 63 = true ∧ used.poolBankNo 63 = 255 ∧
      bankOf (v 254) ≠ 255 ∧ bankOf (v 255) = 255 ∧ bitsOf (v 255) F.POOL_BANK.EN.hi F.POOL_BANK.EN.lo = 1 ∧
      ({ used with poolReserved := 1048577 } : State).emptyWithout 63 < 1048577 ∧ used.poolReserved ≤ used.emptyWithout 63 ∧
      s.poolEn 63 = false ∧ s.fld F.BANK_OWNER.KIND [0, 0] ≠ 2 ∧ s.fld F.BANK_OWNER.KIND [0, 255] = 2 := by decide +kernel

/-- FlowCommands: a flow not valid and valid, with WDOG_EN alone changed, another field changed, made not valid, ends that may and
may not be bound, and a tile in use while laps run. -/
theorem witness_FlowCommands :
    let s := lit
    let bind (valid inEn wdog : Nat) : W64 :=
      setBits (setBits (setBits 0 F.FLOW_BIND.VALID.hi F.FLOW_BIND.VALID.lo valid) F.FLOW_BIND.IN_EN.hi F.FLOW_BIND.IN_EN.lo inEn)
        F.FLOW_BIND.WDOG_EN.hi F.FLOW_BIND.WDOG_EN.lo wdog
    let flow := s.setReg .FLOW_BIND [5] (bind 1 0 0)
    let runs : State := inPhase .steps { flow with fab := { flow.fab with tilesUsed := [0] } }
    ([RegName.FLOW_QUEUES.addr [16383], RegName.FLOW_BIND.addr [5], RegName.FLOW_POS.addr [5]].all fun a =>
        reach s engine0 .installer a && reach flow engine0 .installer a && reach runs engine0 .installer a) = true ∧
      s.flowValid 5 = false ∧ flow.flowValid 5 = true ∧ runs.flowBusy 5 = true ∧ flow.flowBusy 5 = false ∧
      setBits (bind 1 0 0) 3 3 0 = setBits (bind 1 0 1) 3 3 0 ∧ setBits (bind 1 0 0) 3 3 0 ≠ setBits (bind 1 1 0) 3 3 0 ∧
      s.mayBindFlow 5 (bind 1 0 0) = true ∧ s.mayBindFlow 5 (bind 1 1 0) = false ∧
      bitsOf (bind 0 0 0) F.FLOW_BIND.VALID.hi F.FLOW_BIND.VALID.lo ≠ 1 ∧
      bitsOf (bind 1 0 1) F.FLOW_BIND.VALID.hi F.FLOW_BIND.VALID.lo = 1 ∧ runs.tileInUse (tileNo 0 0 0) = true := by decide +kernel
theorem test_flowPos :
    leaves (exec (.flowPos engine0 5 (9 <<< 32)) (let s := (lit.put F.FLOW_BIND.VALID 1 [5]).put F.FLOW_BIND.IN_EN 1 [5]
      queued 7 [3] (s.put F.FLOW_QUEUES.IN_Q 7 [5]))) (fun s =>
        s.items 7 == [] && s.fld F.Q_SEQ.HEAD [7] == 9) = true := by decide +kernel
/-- HostRegionCommands: an entry enabled, disabled with EN set by a value that may and may not be enabled, and for a vault. -/
theorem witness_HostRegionCommands :
    let s := lit.put F.HR_BASE.EN 0 [0]
    let ix := [63]
    let v (en vault base : Nat) : W64 := setBits (setBits (setBits 0 F.HR_BASE.EN.hi F.HR_BASE.EN.lo en) F.HR_BASE.VAULT.hi
      F.HR_BASE.VAULT.lo vault) F.HR_BASE.BASE.hi F.HR_BASE.BASE.lo base
    let on := s.setReg .HR_BASE ix (v 1 0 0)
    let ready := (s.put F.VR_STAT.STATE 2 ix).put F.HR_LIMIT.LIMIT 255 ix
    let ready := (ready.put F.VR_CFG.SIZE 20 ix).put F.VR_CFG.META 0x1000 ix
    ([RegName.HR_BASE.addr ix, RegName.HR_LIMIT.addr ix, RegName.HC_EVRING_IDX.addr []].all fun a =>
        reach s engine0 .installer a && reach on engine0 .installer a && reach ready engine0 .installer a) = true ∧
      on.regionEn 63 = true ∧ v 0 0 0 = v 1 0 0 &&& ~~~1 ∧ v 1 0 5 ≠ v 1 0 0 ∧ v 1 0 5 ≠ v 1 0 0 &&& ~~~1 ∧
      s.regionEn 63 = false ∧ (v 1 0 0).getLsbD F.HR_BASE.EN.lo = true ∧ (v 0 0 0).getLsbD F.HR_BASE.EN.lo = false ∧
      s.mayEnable 63 (v 1 0 5) = false ∧ s.mayEnable 63 (v 1 0 0) = true ∧ (v 1 0 0).getLsbD F.HR_BASE.VAULT.lo = false ∧
      (v 1 1 0).getLsbD F.HR_BASE.VAULT.lo = true ∧ ready.mayEnable 63 (v 1 1 0) = true := by decide +kernel

/-- VaultRegionCommands: sizes that fit and do not, a region in each state, one seal of it, and the two completions. -/
theorem witness_VaultRegionCommands :
    let s := lit
    let ix := [5]
    let size (n : Nat) : W64 := setBits 0 F.VR_CFG.SIZE.hi F.VR_CFG.SIZE.lo n
    let cfg := s.setReg .VR_CFG ix (size 38)
    let sealed := ((cfg.put F.VR_STAT.STATE 2 ix).put F.SEAL.VALID 1 [31]).put F.SEAL.REGION 5 [31]
    reach s engine0 .installer (RegName.VR_CFG.addr ix) = true ∧ bitsOf (size 38) F.VR_CFG.SIZE.hi F.VR_CFG.SIZE.lo = 38 ∧
      bitsOf (size 39) F.VR_CFG.SIZE.hi F.VR_CFG.SIZE.lo = 39 ∧ bitsOf (size 20) F.VR_CFG.SIZE.hi F.VR_CFG.SIZE.lo = 20 ∧
      s.fld F.VR_STAT.STATE ix = 0 ∧ (size 38).getLsbD F.VR_CFG.INIT.lo = false ∧ (size 38).getLsbD F.VR_CFG.REINIT.lo = false ∧
      sealed.fld F.VR_STAT.STATE ix = 2 ∧ sealed.sealsOf 5 = [31] ∧ (cfg.put F.VR_STAT.STATE 3 ix).fld F.VR_STAT.STATE ix = 3 ∧
      (cfg.put F.VR_STAT.STATE 1 ix).fld F.VR_STAT.STATE ix = 1 ∧ cfg.reg .VR_CFG ix = size 38 ∧ size 20 ≠ size 38 ∧
      (sealed.put F.VR_STAT.STATE 4 ix).fld F.VR_STAT.STATE [sealed.fld F.SEAL.REGION [31]] = 4 ∧
      sealed.flag F.SEAL.VALID [31] = true ∧ sealed.vault.cache.length + sealed.topLevel 5 ≤ cacheNodes ∧
      sealed.version 5 1 0 ≤ sealed.fld F.VR_STAT.HWM [5] ∧ sealed.fld F.VR_STAT.HWM [5] + 1 < 2 ^ 56 := by decide +kernel
theorem test_vaultInitDone :
    leaves (exec (.vaultInitDone 5) (lit.put F.VR_STAT.STATE 1 [5])) (fun s =>
      s.fld F.VR_STAT.STATE [5] == 2 && s.fld F.VR_STAT.HWM [5] == 1) = true := by decide +kernel

/-- RelayPortRegisters: a port enabled, disabled and in loopback, a lane in near loopback or not and free for it or not, and
adapting or not. -/
theorem witness_RelayPortRegisters :
    let s := lit
    let px := portIx 0
    let lx := laneIx 0 7
    let en := s.put F.PORT_CTRL.EN 1 px
    ([RegName.PORT_CTRL.addr px, RegName.LANE_CTRL.addr lx, RegName.LANE_EQ.addr lx].all fun a =>
        reach s engine0 .installer a && reach en engine0 .installer a) = true ∧
      s.portEn 0 = false ∧ en.portEn 0 = true ∧ s.flag F.PORT_CTRL.FAR_LOOP px = false ∧
      (s.put F.PORT_CTRL.FAR_LOOP 1 px).flag F.PORT_CTRL.FAR_LOOP px = true ∧ s.fld F.LANE_CTRL.RETIRE lx = 0 ∧
      s.fld F.LANE_CTRL.CLR_FAIL lx = 0 ∧ s.flag F.LANE_CTRL.NEAR_LOOP lx = false ∧
      (s.put F.LANE_CTRL.NEAR_LOOP 1 lx).flag F.LANE_CTRL.NEAR_LOOP lx = true ∧ s.ref.straps.ref = false ∧
      7 ∉ s.rxMap 0 ∧ 7 ∉ s.txMap 0 ∧ 7 ∈ (s.put F.PORT_MAP.RX 0x76543210 px).rxMap 0 ∧
      (s.put F.LANE_CTRL.ADAPT 1 lx).flag F.LANE_CTRL.ADAPT lx = true ∧
      (s.put F.LANE_CTRL.ADAPT 0 lx).flag F.LANE_CTRL.ADAPT lx = false := by decide +kernel
theorem test_portEnable :
    leaves (exec (.portEnable engine0 0) lit) (fun s => s.fld F.PORT_STAT.STATE (portIx 0) == 1) = true := by decide +kernel

/-- ChainAndSecurityRegisters: laps running and halted, the straps, a bridge's queue free or not and its peer a stranger or not, a
slot number beyond its kind, a slot held and free, the last credential or not. Whether a key is a point of the curve is
uninterpreted (notes/assumptions 4), so `check` is 0 or 1 where the slot is free. -/
theorem witness_ChainAndSecurityRegisters :
    let s := lit
    let strapped : State := { s with ref := { s.ref with straps := ⟨0, false, false, false, true, true, 0⟩ } }
    let queue := s.put F.Q_BIND.VALID 1 [7]
    let stranger := queue.put F.FWD.VALID 1 [9]
    let held := s.put F.CRED.VALID 1 [3]
    ([RegName.CHAIN_CFG.addr [], RegName.BRIDGE_CFG.addr [63], RegName.CHAIN_CTRL.addr [], RegName.ENROL_CTRL.addr [],
        RegName.SEC_CTRL.addr []].all fun a => reach s engine0 .installer a) = true ∧
      (inPhase .steps s).lapsRun = true ∧ s.lapsRun = false ∧ s.ref.straps.anchor = false ∧
      strapped.ref.straps.anchor = true ∧ strapped.ref.straps.lab = true ∧ s.ref.straps.lab = false ∧
      s.bridgeQualifies 7 false = false ∧ queue.bridgeQualifies 7 false = true ∧
      (stranger.flag F.FWD.VALID [9] && !stranger.enrolled (stranger.fld F.FWD.PORT [9])) = true ∧
      (queue.flag F.FWD.VALID [9] && !queue.enrolled (queue.fld F.FWD.PORT [9])) = false ∧ kindSlots 2 ≤ 4 ∧ 3 < kindSlots 2 ∧
      s.flag F.ENROL_CTRL.BUSY = false ∧ (s.put F.ENROL_CTRL.BUSY 1).flag F.ENROL_CTRL.BUSY = true ∧ s.pending = [] ∧
      ({ s with ref := { s.ref with enrolDue := some ⟨true, 0, 1, 2, 3, 0⟩ } } : State).ref.enrolDue = some ⟨true, 0, 1, 2, 3, 0⟩ ∧
      held.enrolCheck 2 3 = 4 ∧ held.lastInstaller 2 3 = true ∧ (held.put F.CRED.VALID 1 [0]).lastInstaller 2 3 = false := by
  decide +kernel

/-- ClockCommands: a loop's register while a switch runs, for the loop in use and otherwise; the ends of switches, locks and
windows; a failed loop on a die whose oscillator works or not; a stopped domain; and gates. -/
theorem witness_ClockCommands :
    let s := lit
    let d : ClkDom := .dom 0 0
    let gx := [0, 0]
    let switching := s.clkPut d F.CLKDOM_STAT.SWITCHING 1
    let loop := (s.clkPut d F.CLKDOM_CFG.LOOP_EN 1)
    let inUse := loop.clkPut d F.CLKDOM_CFG.SEL 0
    reach s engine0 .installer ((clkCfgReg d).1.addr (clkCfgReg d).2) = true ∧
      reach s engine0 .installer (RegName.CLKGATE_MODE.addr []) = true ∧ switching.clkFlag d F.CLKDOM_STAT.SWITCHING = true ∧
      s.clkFlag d F.CLKDOM_STAT.SWITCHING = false ∧ loop.clkFlag d F.CLKDOM_CFG.LOOP_EN = true ∧ loop.loopOn d = true ∧
      s.ref.xtalaFailed = false ∧ (s.clkPut d F.CLKDOM_STAT.LOCKED 1).clkFlag d F.CLKDOM_STAT.LOCKED = true ∧
      (s.clkPut d F.CLKDOM_CFG.LOOP_EN 0).clkFlag d F.CLKDOM_CFG.LOOP_EN = false ∧ windowOk (.domLoop 0 0) 2303 = false ∧ windowOk (.domLoop 0 0) 2304 = true ∧
      inUse.clkFld d F.CLKDOM_CFG.SEL = 0 ∧ s.fioFailed 0 = false ∧
      ({ s with ref := { s.ref with fioFailed := 1 } } : State).fioFailed 0 = true ∧
      (s.clkPut d F.CLKDOM_STAT.STOPPED 1).clkFlag d F.CLKDOM_STAT.STOPPED = true ∧ s.inTowerReset 0 = false ∧
      (s.put F.GATE.OPEN 1 gx).flag F.GATE.OPEN gx = true ∧ s.gateAuto = true ∧
      (s.put F.GATE.CLOSING 1 gx).flag F.GATE.CLOSING gx = true := by decide +kernel
theorem test_switch_refused :
    leaves (exec (.clockSwitch engine0 (.dom 0 0) 0) lit) (fun s => s.clkFlag (.dom 0 0) F.CLKDOM_STAT.REFUSED) = true := by
  decide +kernel

/-- PowerRequests: PD00 fixed; a domain with stack power at rest, busy, asked for its own state; waiting for a copy-back. -/
theorem witness_PowerRequests :
    let s : State := { lit with ref := { lit.ref with stackPower := 15 } }
    let busy := s.setPd 10 1 2 true none
    reach s host0 .operator (RegName.PD_CTRL.addr [63]) = true ∧ pdFixed 0 = true ∧ pdFixed 10 = false ∧
      s.bankvBad 10 = false ∧ s.noStack 10 = false ∧ s.pdBusy 10 = false ∧ fitTarget 10 2 ≠ s.pd 10 ∧ fitTarget 10 1 = s.pd 10 ∧
      busy.pdBusy 10 = true ∧ fitTarget 10 0 ≠ busy.pdTarget 10 ∧ busy.sequenceWaits 10 = false ∧
      (({ s with tests := [⟨0, .group 0, 0, 0, none, false, 0, 0, 0⟩] } : State).setPd 11 1 0 true none).pdBusy 11 = true := by
  decide +kernel
theorem test_sequenceComplete :
    leaves (exec (.sequenceComplete 10) (({ lit with ref := { lit.ref with stackPower := 15 } } : State).setPd 10 1 2 true none))
      (fun s => s.pd 10 == 2 && !s.pdBusy 10) = true := by decide +kernel

/-- PowerEvents: start-up with a domain next and none, a rail of a domain in RUN, VIN out and restored with and without the lock,
the caps above and below, and the hottest level. -/
theorem witness_PowerEvents :
    let s := lit
    let vin : State := { s with ref := { s.ref with vinRemoved := true } }
    let lock : State := { vin with ref := { vin.ref with powerLock := true } }
    let top := ((s.put F.TPWR_STAT.PLEVEL 14 [0]).put F.PKG_INPUT.PIN 3000).put F.PKG_CAP.EFFECTIVE 2600
    State.reset.ref.bringUp = 1 :: [6, 2, 3, 4, 5] ∧ State.reset.mayBringUp 1 = true ∧
      ({ s with ref := { s.ref with bringUp := [24], bootDone := true, stackPower := 1 } } : State).mayBringUp 24 = false ∧
      pdFixed 10 = false ∧ s.pd 10 = 1 ∧ s.pd 12 ≠ 1 ∧ vin.ref.vinRemoved = true ∧ vin.ref.powerLock = false ∧
      lock.ref.powerLock = true ∧ s.ref.vinRemoved = false ∧ (List.replicate 384 (0 : BitVec 16)).length = 384 ∧
      top.plevel = 14 ∧ top.fld F.PKG_CAP.EFFECTIVE < top.fld F.PKG_INPUT.PIN ∧ 100 * 0 < 95 * top.fld F.PKG_CAP.EFFECTIVE ∧
      (inPhase .steps s).lapsRun = true ∧ top.fld F.PKG_CAP.EFFECTIVE < (0xFFFF : BitVec 16).toNat := by decide +kernel
theorem test_domainStart :
    leaves (exec .domainStart {}) (fun s => s.pdBusy 1 && s.ref.bringUp == [6, 2, 3, 4, 5]) = true := by decide +kernel
/-! ### Pins and tests -/

/-- PinCommands: owners of each kind, a pin that the map holds, a pull that is reserved, an output written while laps run and
halted, a park that ends, and patterns that match and do not. -/
theorem witness_PinCommands :
    let s := lit
    let p := 127
    let engine := (s.put F.PIN_OWN.KIND 1 [p]).put F.PIN_OWN.ENG 0 [p]
    let map : PinMap := { pins := [(p, 2 ^ 63)] }
    let mapped : State := ({ s with persona := { s.persona with pinActive := map } } : State).put F.LOAD_STAT.PERSONA 2
    let parked : State := { s with parked := [(p, 2)] }
    let unit := ((s.put F.PMU_CTRL.EN 1 [7]).put F.PMU_CTRL.MASK 0 [7]).put F.GATE.OPEN 1 [0, 10]
    ([RegName.PIN_OWN.addr [p], RegName.PIN_CFG.addr [p], RegName.GPIO_SET.addr [1], RegName.GPIO_CLR.addr [1],
        RegName.GPIO_TGL.addr [1], RegName.DOUT.addr [1], RegName.RU_CTRL.addr [3]].all fun a =>
          reach s engine0 .installer a) = true ∧
      s.pinOwner p = 0 ∧ (mergeWrite .PIN_OWN .full (s.reg .PIN_OWN [p]) 0) = s.reg .PIN_OWN [p] ∧
      mapped.mapHolds p = true ∧ s.mapHolds p = false ∧ engine.pinOwner p = 1 ∧ engine.ownsPin engine0 p = true ∧
      engine.ownsPin host0 p = false ∧ bitsOf (0x600 : W64) 10 9 = 3 ∧ pinCfgBad 0x600 = true ∧ pinCfgBad 2 = false ∧
      s.lapsRun = false ∧ (inPhase .steps s).lapsRun = true ∧ parked.parked.find? (fun y => y.1 == p) = some (p, 2) ∧
      s.bankRuns (bankOfPin p) = true ∧ unit.bankLive (pmuBank 7) = true ∧
      unit.patternMatches 7 (fun _ => false) = true ∧ unit.flag F.PMU_CTRL.MATCH [7] = false ∧
      (unit.put F.PMU_CTRL.EN 0 [7]).patternMatches 7 (fun _ => false) = false ∧
      (unit.put F.PMU_CTRL.MATCH 1 [7]).flag F.PMU_CTRL.MATCH [7] = true := by decide +kernel
theorem test_gpioSet_owned :
    leaves (exec (.gpioSet engine0 0 3) (((lit.put F.PIN_OWN.KIND 1 [0]).put F.PIN_OWN.ENG 0 [0]).put F.PIN_CFG.FUNC 2 [0]))
      (fun s => s.reg .GPIO_OUT [0] == 1) = true := by decide +kernel

/-- A March of bank 31 of tower 0 in phase `n` of its stand-in. -/
def march (n copied : Nat) (split : Bool) : State :=
  ({ clocked lit with tests := [⟨0, .group 0, 0, 31, some 0, split, 0, 0, copied⟩] } : State).put F.STANDIN_STAT.PHASE n [0, 0]
    |>.put F.STANDIN_STAT.BANK 31 [0, 0]

/-- TestCommands: the first and the last word of a copy, one uncorrectable, a split ready and one in progress, a sensor's split, a
sweep enabled, a try again, and a rotation with laps running and halted. -/
theorem witness_TestCommands :
    let run (split : Bool) (copied : Nat) : TestRun := ⟨0, .group 0, 0, 31, some 0, split, 0, 0, copied⟩
    let into := march 1 262143 false
    let bad : State := { march 1 0 false with memBad := [bankBase 0 31 / 16] }
    let analog : State := { clocked lit with tests := [⟨0, .analog, 5, 0, none, true, 0, 0, 0⟩] }
    let turn : Rotation := ⟨0, 63, 64, false⟩
    let rotates : State := { on [17, 18, 19, 20] lit with rotations := [turn] }
    into.groupTest 0 0 = some (run false 262143) ∧ into.phaseOf (run false 262143) = 1 ∧ into.quadServes 0 31 = true ∧
      (into.memRead (bankBase 0 31 + 16 * 262143) readerCopier).1.isSome = true ∧
      (bad.memRead (bankBase 0 31) readerCopier).1 = none ∧ bad.groupTest 0 0 = some (run false 0) ∧
      (march 3 0 false).groupTest 0 0 = some (run false 0) ∧ (march 3 0 false).phaseOf (run false 0) = 3 ∧
      ((march 3 0 false).memRead (bankBase 0 31) readerCopier).1.isSome = true ∧
      (march 2 0 false).testIn 0 (.group 0) = some (run false 0) ∧ (march 2 0 false).testLive 0 = true ∧
      (march 2 0 false).testWindow 0 0 = true ∧ (march 2 0 false).splitReady (run false 0) = true ∧
      (march 2 0 false).blockRuns 0 31 = true ∧ (march 2 0 true).testIn 0 (.group 0) = some (run true 0) ∧
      analog.testIn 0 .analog = some ⟨0, .analog, 5, 0, none, true, 0, 0, 0⟩ ∧ analog.testLive 0 = true ∧
      (lit.put F.TEST_CTRL.SWEEP_EN 1 [0]).flag F.TEST_CTRL.SWEEP_EN [0] = true ∧ lit.sweepOf 0 = none ∧
      lit.testLive 0 = true ∧ (0, TestSlot.tile) ∈ ({ lit with retryTests := [(0, .tile)] } : State).retryTests ∧
      rotates.rotations.find? (fun y => y.tower == 0 && !y.preCopied) = some turn ∧ rotates.loaderWrites 0 = false ∧
      rotates.rotationPowered turn = true ∧ rotates.lapsRun = false ∧ (inPhase .steps rotates).lapsRun = true := by
  decide +kernel
theorem test_copyIn :
    leaves (exec (.copyIn 0 0 0) { march 1 0 false with mem := [(bankBase 0 31 / 16, 77)] }) (fun s =>
      Sparse.read s.standin (standinKey 0 31 0) == 77) = true := by decide +kernel

/-- ScrubFuseMailboxCommands: the last frame but one and the last, a layer that is on and off, the temperature inside and outside
the window, no free fuse, an entry uncommitted, and slots free, the session's own and another's. -/
theorem witness_ScrubFuseMailboxCommands :
    let s := on [15] lit
    let ix := [0, 0]
    let warm := s.put F.PKG_THERM.TMAX (86 * 16)
    let entry : W64 := setBits 0 63 56 1
    let owned (o : BitVec 16) : State := { s with ref := { s.ref with slots := s.ref.slots.set 3 { owner := some o } } }
    s.scrubLive 0 .l2 = true ∧ lit.scrubLive 0 .l2 = false ∧ (s.put F.SCRUB_POS.FRAME 149758 ix).fld F.SCRUB_POS.FRAME ix = 149758 ∧
      (s.put F.SCRUB_POS.FRAME 149759 ix).fld F.SCRUB_POS.FRAME ix = 149759 ∧ s.fuseWindow = true ∧ warm.fuseWindow = false ∧
      (s.put F.FUSE_CTRL.FREE 0 [0]).fld F.FUSE_CTRL.FREE [0] = 0 ∧ (s.put F.FUSE_CTRL.FREE 1 [0]).fld F.FUSE_CTRL.FREE [0] ≠ 0 ∧
      (s.setReg .REPAIR_LOG [0, 63] entry).uncommitted 0 63 = true ∧
      reach s engine0 .installer (RegName.FUSE_CTRL.addr [0]) = true ∧
      reach s host0 .operator (RegName.MBX_CTRL.addr [3]) = true ∧ s.slotOpen host0 3 = true ∧
      (s.ref.slots[(3 : Fin 4)]).owner = none ∧ (owned (BitVec.ofNat 16 (s.sessionOf host0))).slotOpen host0 3 = true ∧
      (owned 0xFFFF).slotOpen host0 3 = false ∧ ((owned 0).ref.slots[(3 : Fin 4)]).state = 0 := by decide +kernel
theorem test_scrub_pass_ends :
    leaves (exec (.scrubFrame 0 .l2 0 true) ((on [15] lit).put F.SCRUB_POS.FRAME 149759 [0, 0])) (fun s =>
      s.fld F.SCRUB_POS.FRAME [0, 0] == 0 && s.fld F.SCRUB_STAT.PASSES [0, 0] == 1) = true := by decide +kernel

/-- RegisterWrites: a plain register of the installer's and one of any role, whole and by halves; a session that is not bound; forms
and addresses refused. -/
theorem witness_RegisterWrites :
    let a := RegName.FABRIC_LIMITS.addr []
    let stranger : Rq := ⟨.host 3 15, 0⟩
    RegName.FABRIC_LIMITS.valid [] = true ∧ copyAssigned .FABRIC_LIMITS [] = true ∧ shadowed .FABRIC_LIMITS [] = false ∧
      reach lit engine0 .installer a = true ∧ (BitVec.ofNat 48 (a + 4)).toNat = a + 4 ∧
      ([RegName.GROUP_CFG, .TEST_CTRL].any fun r => r.right = .installer) = true ∧
      reach lit host0 .operator (RegName.TEST_CTRL.addr [0]) = true ∧ lit.roleOf stranger = none ∧ spaceOf a = .register ∧
      spaceOf 0x0304FFFFFFF8 = .register ∧ (targetAt 0x0304FFFFFFF8).isNone = true ∧ (a + 1) % 4 ≠ 0 := by decide +kernel
theorem test_write_low_half :
    leaves (exec (.registerWrite engine0 (BitVec.ofNat 48 (RegName.OVF_TARGET_P.addr [0, 0])) 4 0xFFFFFFFFFFFFFFFF) lit) (fun s =>
      s.reg .OVF_TARGET_P [0, 0] == mergeWrite .OVF_TARGET_P .full (BitVec.ofNat 64 (resetOf .OVF_TARGET_P [0, 0])) 0xFFFFFFFF) = true := by
  decide +kernel

/-- RegisterMap: copies at both ends of a register's range, the last word of a window of an engine, and one that is none. -/
theorem witness_RegisterMap :
    RegName.Q_BIND.valid [8191] = true ∧ copyAssigned .Q_BIND [8191] = true ∧ shadowed .Q_BIND [8191] = false ∧
      targetAt (RegName.Q_BIND.addr [8191]) = some (.reg .Q_BIND [8191]) ∧
      targetAt (0x030001010000 + 0xFFF8) = some (.engine 0 0xFFF8) ∧ targetAt (0x030001010000 + 0x200) = none := by
  decide +kernel
/-! ### The fabric -/

/-- What a list made of one entry a number finds. -/
theorem find_map_range {α : Type} (f : Nat → α) (key : α → Nat) (hk : ∀ i, key (f i) = i) {n k : Nat} (h : k < n) :
    ((List.range n).map f).find? (fun a => key a == k) = some (f k) := by
  induction n with
  | zero => omega
  | succ n ih =>
    rw [List.range_succ, List.map_append, List.find?_append]
    by_cases hn : k < n
    · simp [ih hn]
    · have hk' : k = n := by omega
      subst hk'
      have : ((List.range k).map f).find? (fun a => key a == k) = none := by
        simp only [List.find?_eq_none, List.mem_map, List.mem_range, beq_iff_eq, forall_exists_index, and_imp]
        rintro a i hi rfl h2
        rw [hk] at h2
        omega
      rw [this]
      simp [hk]

/-- A word of two idle contexts (R35). -/
def idleWord : Quad := 0x0000F1E3C78F1E000000F1E3C78F1E00

/-- Tile 0 is in use with these words of context, laps are in their steps, and cells of tower 0, its step open or not, have
fired. -/
def tileOn (b : State) (ws : List CtxEntry) (fs : List Fired) (t : List Nat) : State :=
  inPhase .steps { b with fab := { tilesUsed := [0], creditQ := ws, fired := fs, stepOpen := t } }
def base : State := on [10, 11, 15, 17] (active {})
def tile (ws : List CtxEntry) (fs : List Fired) (t : List Nat) : State := tileOn base ws fs t

/-- A word of idle contexts for step 0 for every pair of the tile, and a firing for every cell. -/
def words : List CtxEntry := (List.range 512).map fun p => ⟨0, p, 0, idleWord⟩
def firings : List Fired := (List.range 1024).map fun i => ⟨i, false, false⟩

theorem tileOn_uses (b : State) (ws : List CtxEntry) (fs : List Fired) (t : List Nat) :
    (tileOn b ws fs t).inUseOf 0 = (tileOn b [] [] []).inUseOf 0 := rfl
theorem tile_uses (ws : List CtxEntry) (fs : List Fired) (t : List Nat) : (tile ws fs t).inUseOf 0 = [0] :=
  (tileOn_uses base ws fs t).trans (by decide +kernel)

theorem tileOn_head (b : State) (ws : List CtxEntry) (fs : List Fired) (t : List Nat) (p : Nat) :
    (tileOn b ws fs t).headOf p = ws.find? fun e => e.pair == p := rfl
theorem tile_head (fs : List Fired) (t : List Nat) (p : Nat) (h : p < 512) :
    (tile words fs t).headOf p = some ⟨0, p, 0, idleWord⟩ :=
  (tileOn_head base words fs t p).trans
    (find_map_range (fun p => (⟨0, p, 0, idleWord⟩ : CtxEntry)) CtxEntry.pair (fun _ => rfl) h)

theorem tileOn_fired (b : State) (ws : List CtxEntry) (fs : List Fired) (t : List Nat) (k : Nat) :
    (tileOn b ws fs t).firedCell k = fs.find? fun f => f.cell == k := rfl

/-- FabricCommands, a step that goes: its conditions, every pair's word being of the step. -/
theorem witness_FabricCommands_go :
    let s := tile words [] []
    s.fab.phase = .steps ∧ s.stepIsOpen 0 = false ∧ s.towerDone 0 = false ∧ s.fab.firstCause = 0 ∧
      (∀ d ∈ s.stepDomains 0, s.serves d = true) ∧ s.waitsContext 0 = false ∧
      ∀ y ∈ s.inUseOf 0, ∀ q < 512, ∀ h, s.headOf (y * 512 + q) = some h → h.tag = s.step_ 0 := by
  refine ⟨rfl, rfl, by decide +kernel, rfl, by decide +kernel, ?_, fun y hy q hq h hh => ?_⟩
  · simp only [State.waitsContext, tile_uses, List.any_cons, List.any_nil, Bool.or_false, Bool.and_eq_false_iff]
    refine .inr (List.any_eq_false.2 fun p hp => ?_)
    rw [Nat.zero_mul, Nat.zero_add, tile_head _ _ p (List.mem_range.1 hp)]
    simp
  · rw [tile_uses, List.mem_singleton] at hy
    subst hy
    rw [Nat.zero_mul, Nat.zero_add, tile_head _ _ q hq] at hh
    cases hh
    exact (by decide +kernel : (0 : Nat) = (tile words [] []).step_ 0)

/-- FabricCommands, a step that is complete. -/
theorem witness_FabricCommands_complete :
    let s := tile words firings [0]
    s.stepIsOpen 0 = true ∧ s.fab.phase = .steps ∧ (s.firedIn 0).length = 1024 * (s.inUseOf 0).length := by
  refine ⟨rfl, rfl, ?_⟩
  have hf (k c : Nat) (hk : k < 64) (hc : c < 16) :
      (tile words firings [0]).firedCell (cellKey 0 k c) = some ⟨cellKey 0 k c, false, false⟩ :=
    (tileOn_fired base words firings [0] (cellKey 0 k c)).trans
      (find_map_range (fun i => (⟨i, false, false⟩ : Fired)) Fired.cell (fun _ => rfl)
        (show cellKey 0 k c < 1024 by unfold cellKey; omega))
  have hx (k c : Nat) (hk : k < 64) (hc : c < 16) :
      (tile words firings [0]).context 0 k c = some (halfOf idleWord c) := by
    unfold State.context
    rw [if_pos (show (tile words firings [0]).stepIsOpen (towerOfTile 0) = true from rfl),
      tile_head _ _ _ (show pairKey 0 k (c / 2) < 512 by unfold pairKey; omega)]
    rfl
  rw [State.firedIn, tile_uses, List.flatMap_cons, List.flatMap_nil, List.append_nil, List.length_filterMap_eq_countP,
    List.countP_eq_length.2]
  · decide +kernel
  · intro kc hkc
    simp only [cells, List.mem_flatMap, List.mem_map, List.mem_range] at hkc
    obtain ⟨k, hk, c, hc, rfl⟩ := hkc
    simp [hf k c hk hc, hx k c hk hc]

/-- FabricCommands, the rest: a word for a pair with a free credit, one whose half 0 is not valid, a cell with its six sources, an
outstanding read of port A, and a step over its limit. -/
theorem witness_FabricCommands :
    let idle := idleWord
    let s : State := inPhase .steps { on [10, 11, 15, 17] (active {}) with fab := { tilesUsed := [0], frames := [(0, idle)] } }
    let reading : State := { s with fab := { s.fab with portReads := [⟨3, 7, none⟩], stepOpen := [0] } }
    let fires : State := { s with fab := { s.fab with stepOpen := [0], creditQ := [⟨0, 0, 0, idle⟩] } }
    let half := halfOf idle 0
    s.lapsRun = true ∧ s.tileInUse 0 = true ∧ (s.queueOf 0).length < 2 ∧ s.layerHeld 0 2 = false ∧
      s.serves (pdCfg 0) = true ∧ s.frameBad (s.phys 0) 0 = false ∧
      s.nextWord 0 0 = (0, 0) ∧ s.frameWord (s.phys 0) 0 0 = idle ∧ invalidHalf 0 0 (halfOf idle 0) = false ∧
      invalidHalf 0 1 (halfOf idle 1) = false ∧ invalidHalf 0 0 0 = true ∧ fires.context 0 0 0 = some half ∧
      fires.firedCell 0 = none ∧ fires.inputs 0 0 0 half = some [false, false, false, false, false, false] ∧
      116 ∉ selects half ∧ 117 ∉ selects half ∧ s.context 0 0 0 = none ∧
      reading.fab.portReads.find? (fun r => r.bank == 3 && r.data.isNone) = some ⟨3, 7, none⟩ ∧
      reading.serves (pdQuad 0 3) = true ∧ reading.layerHeld 0 1 = false ∧ reading.memBadAt (bankBase 0 3 + 16 * 7) = false ∧
      reading.bankSource 0 3 = .bank ∧ ssWe (setBits 0 49 49 1) = true ∧
      (fires.put F.FABRIC_LIMITS.STEP_LIMIT 1).fld F.FABRIC_LIMITS.STEP_LIMIT ≠ 0 ∧
      (fires.firedIn 0).length ≠ 1024 * (fires.inUseOf 0).length ∧
      fires.waitsExternal 0 = false ∧ s.acrossHeld 0 0 = false ∧ (s.put F.LAP_KIND.COUNT 0 [0]).acrossHeld 0 1 = true ∧ reading.memSoftAt (bankBase 0 3 + 16 * 7) = false ∧
      (fires.firedIn 0).length ≠ 1024 * (fires.inUseOf 0).length := by decide +kernel
/-- A cell's output is the bit of its function-table entry that its inputs number (R29). -/
theorem test_cellFire :
    leaves (exec (.cellFire ⟨0, 0, 0⟩ 0 1 false) (let s := active {}
      inPhase .steps { s with fab := { tilesUsed := [0], stepOpen := [0], ftable := [(0, 1)]
                                       creditQ := [⟨0, 0, 0, idleWord⟩] } })) (fun s =>
      s.fab.fired == [⟨1, true, false⟩]) = true := by decide +kernel

/-! ### Laps -/

/-- LapCommands: a gather due in each log mode, with and without a record to replay; a retry waiting alone, at the anchor and at a
member; verify holding and not. -/
theorem witness_LapCommands :
    let s := active {}
    let due := inPhase .gatherDue s
    let retry := inPhase .retryWait s
    let logs := (consumerOf 7 5 0 (due.put F.LOG_CTRL.MODE 2)).put F.LOG_CTRL.QUEUE 7
    let done : State := inPhase .steps { s with fab := { s.fab with stepsDone := [0, 1, 2, 3] } }
    due.fab.phase = .gatherDue ∧ due.fab.firstCause = 0 ∧ (∀ d ∈ due.pinDomains, due.serves d = true) ∧ s.fab.phase ≠ .gatherDue ∧ due.logMode ≠ 2 ∧ logs.logMode = 2 ∧ logs.replayNext = none ∧
      (queued 7 [lapRecord 0 0 0 0 0 0 1 0] logs).replayNext.isSome = true ∧ retry.fab.phase = .retryWait ∧
      retry.chainMode = 0 ∧ (retry.put F.CHAIN_CFG.MODE 1).chainMode = 1 ∧ (retry.put F.CHAIN_CFG.MODE 2).chainMode = 2 ∧
      done.verifyHolds = true ∧ done.replayFlowsOk = true ∧ (done.put F.CHAIN_CFG.MODE 1).verifyHolds = true ∧
      (done.put F.CHAIN_CFG.MODE 1).childrenDone = true ∧ (done.put F.CHAIN_CFG.MODE 1).knownHalt.1 = 0 ∧
      ({ done with fab := { done.fab with commitBuf := [⟨0, 0, 5⟩] } } : State).fab.commitBuf[0]? = some ⟨0, 0, 5⟩ ∧
      due.verifyHolds = false ∧
      (({ done with log := { done.log with replayFlows := [0] } } : State).put F.LOG_CTRL.MODE 2).replayFlowsOk = false := by
  decide +kernel
/-- LapCommands: a gather that finds a bank with a design pin asleep. -/
theorem witness_LapCommands_asleep :
    let map : PinMap := { pins := [(0, 2 ^ 63)] }
    let s : State := inPhase .gatherDue ((({ persona := { pinActive := map } } : State).put F.LOAD_STAT.PERSONA 2).put F.PIN_CFG.FUNC 1 [0])
    s.fab.phase = .gatherDue ∧ s.fab.firstCause = 0 ∧ ∃ d ∈ s.pinDomains, s.serves d = false := by decide +kernel
theorem test_lapCommit :
    leaves (exec (.lapCommit none) (inPhase .steps { active {} with fab := { stepsDone := [0, 1, 2, 3] } })) (fun s =>
      s.lapCount == 1 && s.fab.phase == .gatherDue) = true := by decide +kernel
/-! ### The loader -/

/-- The check value of CRC-32C: its value on the bytes of "123456789". -/
theorem test_crc32c : crc32c [0x31, 0x32, 0x33, 0x34, 0x35, 0x36, 0x37, 0x38, 0x39] = 0xE3069283 := by decide +kernel

def job : Job := { engine := 0, ch := 0, role := .installer, queue := 0, addr := 0, len := 4096, deadline := 5 }

/-- Design memory holds the header of an unsigned full image of empty sections (R101, R102) at address 0, and lab mode is on. -/
def headed (kind : Nat) : State :=
  let words (i : Nat) : Quad :=
    match i with
    | 0 => BitVec.ofNat 128 (0x4B4D4946 + 1 * 2 ^ 32 + kind * 2 ^ 48 + 1 * 2 ^ 56 + 4096 * 2 ^ 64)
    | 1 => 0xA2
    | _ => 0x1000
  ({ lit with mem := [0, 1, 4, 5, 6, 7, 8].map fun i => (i, words i), persona := { lit.persona with job := some job } } : State).put
    F.SEC_CTRL.LAB_EN 1

/-- LoaderCommands, the header: a fetch that fails, a header that is not one, one refused by check 2 while laps run and by check 4
without lab mode, and one that passes both. Whether its table's digest is ROOT is uninterpreted (notes/assumptions 4). -/
theorem witness_LoaderCommands_header :
    let s := headed 0
    let x := s.loaderFetch .installer 0 0 4096
    let h := x.2.1
    s.persona.job = some job ∧ job.accepted = false ∧ (s.loaderFetch .installer 0 0x010000000000 4096).1 ≠ .ok ∧
      x.1 = .ok ∧ headerOk h 4096 = true ∧ headerOk (lit.loaderFetch .installer 0 0 4096).2.1 4096 = false ∧ s.check2 h = 0 ∧
      (inPhase .steps s).check2 h = 2 ∧ lockOk h = true ∧ s.check4 h = 0 ∧ (s.put F.SEC_CTRL.LAB_EN 0).check4 h = 7 ∧
      (s.loaderFetch .installer 0 4096 (tableLen h)).1 = .ok ∧ job.deadline ≠ 0 ∧ ({ job with deadline := 0 } : Job).deadline = 0 := by
  decide +kernel

/-- A MEMORY frame of one word for address 0x100, whose payload is zeros, with the given CRC (CRC-32C of 16 zeros: 0x42709AEA). -/
def framed (kind crc : Nat) : State :=
  let mem : Sparse Quad := [(0, BitVec.ofNat 128 (kind + 16 * 2 ^ 64)), (1, BitVec.ofNat 128 (0x100 + crc * 2 ^ 64))]
  ({ lit with mem := mem } : State).put F.LOAD_STAT.LOADER 2
def loading : Job := { job with accepted := true, sections := [(0, 0), (0, 160), (160, 0), (160, 0), (160, 0)] }

/-- LoaderCommands, a record: one that runs past its section, a malformed descriptor, a CRC that does not fit and one that does, a
kind that the image may not hold, a tile outside its regions, a quadrant that is fenced with and without waking, and a frame that is
applied within its segment; sections over, all and one, and a fault kept. -/
theorem witness_LoaderCommands_record :
    let s := framed 4 0x42709AEA
    let d := (s.loaderFetch .installer 0 0 64).2.1
    let z := (framed 0 0)
    let pay := ((s.loaderFetch .installer 0 64 16).2.1).take 16
    let far : Job := loading.setCursor 1 { offset := 112 }
    let off := s.put F.PD_STAT.NOW 0 [11]
    s.fld F.LOAD_STAT.LOADER = 2 ∧ loading.accepted = true ∧ loading.nextSection 0 = 1 ∧ loading.over 1 = false ∧
      loading.allOver = false ∧ ((loading.nextSection 0 ≠ 0)) ∧ loading.nextSection 1 = 2 ∧ loading.over 2 = true ∧
      (loading.setCursor 1 { offset := 160 }).allOver = true ∧ (loading.cursor 1).fault = none ∧
      ((loading.setCursor 1 { fault := some (9, none) }).cursor 1).fault ≠ none ∧
      (s.loaderFetch .installer 0 0 64).1 = .ok ∧ descOk 0 1 d = true ∧ (descOf d).len = 16 ∧
      descOk 0 1 (z.loaderFetch .installer 0 0 64).2.1 = false ∧ 160 < (far.cursor 1).offset + 64 ∧
      s.frameDomain (descOf d) = some 11 ∧ s.fenced 11 = false ∧ off.fenced 11 = true ∧
      off.flag F.PD_CTRL.WAKE_ON_ACCESS [11] = true ∧
      (off.put F.PD_CTRL.WAKE_ON_ACCESS 0 [11]).flag F.PD_CTRL.WAKE_ON_ACCESS [11] = false ∧
      crc32c pay = BitVec.ofNat 32 (descOf d).crc ∧ crc32c pay ≠ 0 ∧ framePermitted loading (descOf d) = true ∧
      framePermitted { loading with kind := 1 } (descOf d) = false ∧ frameInRegions loading (descOf d) = true ∧
      frameInRegions { loading with kind := 2 } { descOf d with kind := 2 } = false ∧
      framePermitted { loading with kind := 2 } { descOf d with kind := 2 } = true ∧
      (s.applyFrame loading (descOf d) pay 64 []).1 = 0 ∧
      ((s.put F.BANK_OWNER.KIND 3 [0, 0]).applyFrame loading (descOf d) pay 64 []).1 = 0xE ∧
      (loading.checkSegments 1 { offset := 80, records := 1, bytes := [0] } 2).isSome = true := by decide +kernel

/-! ### Rings, streams and the fabric's credits -/

/-- RingAndStreamCommands: a ring to fetch from with and without a credit, one to write to with room and without, an uncorrectable
head, a flow with an item to deliver, the fabric with one credit, and a watchdog whose flow waits. -/
theorem witness_RingAndStreamCommands :
    let s := lit
    let full := s.put F.Q_LEVEL.LIMIT 5 [7]
    let fetch := ((producerOf 7 3 0 full).put F.Q_RING_IDX.PI 1 [7]).put F.Q_RING.ORDER 6 [7]
    let host := (fetch.put F.HC_HOSTMEM.GIB 1).put F.HC_LINK.UP 1 [0]
    let write := queued 7 [3] (consumerOf 7 3 0 s)
    let flow := ((s.put F.FLOW_BIND.VALID 1 [5]).put F.FLOW_BIND.IN_EN 1 [5]).put F.FLOW_QUEUES.IN_Q 7 [5]
    let out := ((s.put F.FLOW_BIND.VALID 1 [5]).put F.FLOW_BIND.OUT_EN 1 [5]).put F.FLOW_BIND.WDOG_EN 1 [5]
    let waits : State := inPhase .steps { out.put F.FLOW_WDOG.LIMIT 1 with fab := { out.fab with
      stepsDone := [0, 1, 2, 3], collectors := [⟨0, 0, [true]⟩] } }
    fetch.producer 7 = .ring ∧ fetch.flag F.Q_STAT.FAULTED [7] = false ∧ s.pd (pdNE 0) = 1 ∧
      fetch.fld F.Q_RING_IDX.PI [7] ≠ fetch.fld F.Q_RING_IDX.CI [7] ∧ (fetch.grant 7 1).credits 7 ≠ 0 ∧
      ((fetch.put F.Q_LEVEL.LIMIT 0 [7]).grant 7 1).credits 7 = 0 ∧ ((host.grant 7 1).qmRead 0x800000000000).1 = .ok ∧
      ((fetch.grant 7 1).qmRead 0).1 ≠ .ok ∧ write.headCell 7 = some (cell 3) ∧ write.consumer 7 = .ring ∧
      (0 + 2 ^ 32 - 0) % 2 ^ 32 < 2 ^ 6 ∧ ((spoiled write).headCell 7).map (fun c => (c.poison, c.told)) = some (true, false) ∧ (((write.put F.HC_HOSTMEM.GIB 1).put F.HC_LINK.UP 1 [0]).qmWrite 0x800000000000 (itemQuads 3)).1 = .ok ∧ (write.qmWrite 0 (itemQuads 3)).1 ≠ .ok ∧
      flow.flowIn 5 = some 7 ∧ flow.qmRuns = true ∧ (queued 7 [1, 2] flow).ahead 5 7 + (queued 7 [1, 2] flow).delivered 5 < (queued 7 [1, 2] flow).qCount 7 ∧
      (queued 7 [1, 2] ((flow.setDelivered 5 1))).badLink 7 0 = false ∧ (queued 7 [1, 2] { flow.setDelivered 5 1 with linkBad := [0] }).badLink 7 0 = true ∧
      (write.slots 7)[0]? = some { bank := 0, cell := 0 } ∧ write.slots 7 = [{ bank := 0, cell := 0 }] ∧
      flow.qCount 7 ≤ flow.ahead 5 7 + flow.delivered 5 ∧ (producerOf 7 4 0 full).producer 7 = .fabric ∧
      (full.qCount 7) + (full.credits 7 + full.fabricTaken 7) < full.fld F.Q_LEVEL.LIMIT [7] ∧
      2 ≤ (full.setCredits 7 2).credits 7 ∧ waits.flag F.FLOW_BIND.WDOG_EN [5] = true ∧ waits.flowWaitsOut 5 = true ∧
      s.flag F.FLOW_BIND.WDOG_EN [5] = false := by decide +kernel
theorem test_fabricCredit :
    leaves (exec (.fabricCreditGrant 7) (producerOf 7 4 0 (lit.put F.Q_LEVEL.LIMIT 5 [7]))) (fun s => s.credits 7 == 1) = true := by
  decide +kernel

/-! ### The network and the host channel -/

/-- NetworkRequests: a bank of the host's, of another owner, and the fabric's with laps running; the last 256 bytes of a bank; a word
that is uncorrectable; no space at an address; a domain off with and without waking; L1 in reset; a session unbound; answers. -/
theorem witness_NetworkRequests :
    let s := lit.put F.BANK_OWNER.KIND 3 [0, 0]
    let a := 0x3FFF00
    let off := s.put F.PD_STAT.NOW 0 [11]
    let wakes := off
    let off := off.put F.PD_CTRL.WAKE_ON_ACCESS 0 [11]
    let held : State := { s with ref := { s.ref with resets := [⟨0, some 1, false⟩] } }
    let answered : State := { s with answers := [⟨engine0, .installer, 0, true, 0⟩, ⟨host0, .operator, 0, false, 0⟩, ⟨host0, .operator, 0, true, 5⟩] }
    reach s host0 .operator a = true ∧ wideOk a 256 = true ∧
      s.portBAllows (memTower a) (memBank a) (requesterOf host0) .operator false = .ok ∧
      s.portBAllows (memTower a) (memBank a) (requesterOf host0) .operator true = .ok ∧
      ((List.range 16).all fun i => !s.memBadAt (a + 16 * i) && !s.memSoftAt (a + 16 * i)) = true ∧
      ({ s with memBad := [a / 16] } : State).memBadAt a = true ∧ wideOk a 16 = true ∧
      s.portBAllows 0 1 (requesterOf host0) .operator false = .ok ∧ reach s host0 .operator 0x400000 = true ∧
      (s.put F.BANK_OWNER.KIND 2 [0, 1]).portBAllows 0 1 (requesterOf host0) .operator false = .bankNotOwned ∧
      (inPhase .steps s).portBAllows 0 1 (requesterOf engine0) .installer false = .roleDenied ∧
      spaceOf 0x050000000000 = .none ∧ off.targetOff host0 a = true ∧ off.wakes host0 a = false ∧ wakes.wakes host0 a = true ∧
      assigned host0 .read a 256 = true ∧ formRefusal host0 .read a 256 = none ∧ off.roleOf host0 = some .operator ∧
      off.flag F.PD_CTRL.WAKE_ON_ACCESS [11] = false ∧ wakes.flag F.PD_CTRL.WAKE_ON_ACCESS [11] = true ∧
      (assigned host0 .read 0x0304FFFFFFF8 8) = false ∧ held.targetHeld a = true ∧ held.targetOff host0 a = false ∧
      s.roleOf ⟨.host 3 15, 0⟩ = none ∧
      answered.answers = [⟨engine0, .installer, 0, true, 0⟩, ⟨host0, .operator, 0, false, 0⟩] ++ ⟨host0, .operator, 0, true, 5⟩ :: [] := by decide +kernel
theorem test_network_write :
    leaves (exec (.write host0 0x20 16 9 .clean) (lit.put F.BANK_OWNER.KIND 3 [0, 0])) (fun s =>
      s.memWordAt 0x20 == 9 && s.hostOut == [.completion 0 0 0 0 0]) = true := by decide +kernel
theorem test_narrow_write :
    leaves (exec (.write host0 0x20 8 9 .clean) (lit.put F.BANK_OWNER.KIND 3 [0, 0])) (fun s =>
      s.memWordAt 0x20 == 0 && s.hostOut == [.completion 0 0 Resp.narrowWrite.byte 0 0]) = true := by decide +kernel

/-- NetworkRequests: what routers find: a response that is there to be discarded, and a read that is served. -/
theorem witness_NetworkRequests_path :
    let s := lit.put F.BANK_OWNER.KIND 3 [0, 0]
    (s.request engine0 .read (RegName.LAP_COUNT.addr []) 8).answers.length ≠ s.answers.length ∧
      (s.request host0 .read 0 16).hostOut.length ≠ s.hostOut.length ∧
      (match (s.serve host0 .operator .bus .read 0 16).1 with | .done .ok _ => true | _ => false) = true := by decide +kernel
/-- A router that discards a response takes it from the requester (R212). -/
theorem test_answer_discarded :
    leaves (exec (.read host0 0 16 (.answerDiscarded 0 3 5)) (lit.put F.BANK_OWNER.KIND 3 [0, 0])) (fun s =>
      s.hostOut == [] && s.lost == [host0] && s.fld F.ROUTER_ERR.VN [0, 3] == 1 && s.fld F.ROUTER_ERR.DISCARDS [0, 3] == 1) = true := by
  decide +kernel

/-- NetworkEvents: an engine whose domain is on and off, a queue that the host produces and consumes, its items, a frame word, a
request held and timed out, router holds, and holds at a fence. -/
theorem witness_NetworkEvents :
    let s := on [15] lit
    let host := (producerOf 7 2 0 s)
    let mine := (consumerOf 7 1 0 s)
    let at_ := frameBase + 8 * 16
    let request : Held := ⟨11, host0, 0, 16, .read, .bus, .operator, 0, false⟩
    let held : State := { s.put F.PD_STAT.NOW 0 [11] with held := [request] }
    let hold : RouterHold := ⟨0, 0, engine0, 0, 5, .bus, .installer, 0, false⟩
    let holding : State := { s with holds := [hold] }
    s.fenced (pdNE 0) = false ∧ s.fenced (pdNE 3) = true ∧ s.notifyDue = false ∧
      ({ s with notifyDue := true } : State).notifyDue = true ∧ s.roleOf host0 = some .operator ∧ s.towerHeld 0 = false ∧
      s.isProducer host0.agent 7 = false ∧ host.isProducer host0.agent 7 = true ∧ host.flag F.Q_BIND.CMD [7] = false ∧
      (host.put F.Q_BIND.CMD 1 [7]).fld F.Q_BIND.ROLE [7] = 0 ∧ host.credits 7 ≤ 0 ∧ 0 < (host.setCredits 7 1).credits 7 ∧
      mine.isConsumer engine0.agent 7 = true ∧ mine.headCell 7 = none ∧ (queued 7 [3] mine).headCell 7 = some (cell 3) ∧
      ((spoiled (queued 7 [3] mine)).headCell 7).map (fun c => c.poison) = some true ∧ s.isConsumer engine0.agent 7 = false ∧
      spaceOf at_ = .frame ∧ at_ % 16 = 0 ∧ frameIndex at_ < 4160 ∧ frameOff at_ < 0x48000 ∧
      s.targetOff engine0 at_ = false ∧ s.targetHeld at_ = false ∧ lit.targetOff engine0 at_ = true ∧ (lit.put F.PD_CTRL.WAKE_ON_ACCESS 1 [15]).wakes engine0 at_ = true ∧
      lit.wakes engine0 at_ = false ∧ spaceOf 0 ≠ .frame ∧
      (s.put F.CHAIN_CFG.MODE 2).chainMode ≠ 0 ∧ s.chainMode = 0 ∧ s.lost = [] ∧
      held.held.find? (fun h => h.rq == host0 && h.who != .discarded) = some request ∧ request.op = .read ∧
      reach s engine0 .installer (RegName.ROUTER_CFG.addr [0, 23]) = true ∧
      reach s host0 .operator (RegName.ROUTER_CFG.addr [0, 23]) = true ∧ s.routerHolds 0 0 = [] ∧
      holding.routerHolds 0 0 = [hold] ∧ s.pd 10 = 1 ∧ s.pdBusy 10 = false ∧ held.serves 11 = false ∧ held.held = [request] := by
  decide +kernel
theorem test_event_to_engine :
    leaves (exec (.event (.toEngine 2 63 9)) lit) (fun s => (s.eng 2).evpend == 1 <<< 63 && (s.eng 2).sigdata == 9) = true := by
  decide +kernel

/-- HostChannelCommands: a link up and down, headers formed and not, the channel served and not, a tag in use, plain host memory and
not, failures of each requester, rates, and the size of host memory given once. -/
theorem witness_HostChannelCommands :
    let s := lit
    let up := ({ s with ref := { s.ref with sbState := 2 } } : State).put F.HC_LINK.UP 1 [0]
    let h : Hdr := { kind := BitVec.ofNat 8 (hdrKind .read), tag := 5, session := 0, resp := 0, size := 0, length := 0, addr := 0, zero7 := 0 }
    let busy : State := { up with held := [⟨11, hdrRq h 0, 0, 16, .read, .bus, .operator, 0, false⟩] }
    let moves : State := s.onEng 0 fun en => { en with chans := en.chans.set 7 { state := .busy, op := some (.move 0 1 0 0 16) } }
    let load : Engine := {}
    let linked : State := { s with ref := { s.ref with sbLinkUp := 1 } }
    up.flag F.HC_LINK.UP [0] = true ∧ s.flag F.HC_LINK.UP [0] = false ∧ hdrFormed h .read = true ∧
      hdrFormed { h with zero7 := 1 } .read = false ∧ hdrFormed h (.write 0) = false ∧ formRefusal (hdrRq h 0) .read 0 (hdrBytes h) = none ∧ up.hostServed = true ∧
      s.hostServed = false ∧ up.roleOf (hdrRq { h with session := 15 } 0) = none ∧
      busy.tagOut 0 5 = true ∧ up.tagOut 0 5 = false ∧ busy.tagOut 1 5 = false ∧ up.hostRefusal 0 h .read = none ∧
      up.hostRefusal 0 { h with session := 16 } .read = some .decodeError ∧ spaceOf 0x800000000000 = .host ∧
      spaceOf 0 ≠ .host ∧ (moves.eng 0).chans[(7 : Fin 8)].state = .busy ∧
      moves.isLoadChan 0 7 = false ∧ load.waiting = none ∧ (32 : BitVec 8) ∈ [4, 8, 12, 16, 24, 32].map (BitVec.ofNat 8) ∧ s.pd 1 = 1 ∧
      (s.put F.PD_STAT.NOW 2 [1]).pd 1 ≠ 1 ∧ linked.ref.sbLinkUp.getLsbD (0 : Module) = true ∧
      s.ref.sbLinkUp.getLsbD (0 : Module) = false ∧ linked.ref.sbHostmemLocked = false ∧ 256 < (257 : W64).toNat ∧
      (256 : W64).toNat ≤ 256 := by decide +kernel
theorem test_sbHostmem :
    leaves (exec (.sbHostmem 0 256) { lit with ref := { lit.ref with sbLinkUp := 1 } }) (fun s =>
      s.fld F.HC_HOSTMEM.GIB == 256 && s.ref.sbHostmemLocked) = true := by decide +kernel

/-- Port 0 in state `n`, on lanes 0 and 1, which are locked; its lanes do not adapt. -/
def portIn (n : Nat) (s : State := lit) : State :=
  let still := lanes8.foldl (fun s l => s.put F.LANE_CTRL.ADAPT 0 [0, 0, l]) s
  (((still.put F.PORT_STAT.STATE n [0, 0]).put F.PORT_MAP.RX 0xFFFFFF10 [0, 0]).setLane 0 0 3).setLane 0 1 3
def onPort0 (f : PortH → PortH) (s : State) : State := s.onPort 0 f
/-- The port carries laps: it is LAP_READY and enrolled, and its role and the device's mode are as given. -/
def carrying (role mode : Nat) (s : State := portIn 2) : State :=
  (((s.put F.CHAIN_PORT.LAP_READY 1 [0]).put F.SEC_PORTS.ENROLLED 1).put F.CHAIN_PORT.ROLE role [0]).put F.CHAIN_CFG.MODE mode
def frame0 : Sys2Proof.Frm := ⟨0, true, true, 0, 0⟩
def baton0 : Baton := ⟨false, false, false, false, false, false, 0, 0, 0, 0, 1, 0⟩
def frameOf (n : BitVec 24) : TxFrame := { seq := n, src := 0, dst := 0, body := .flowCredit 0 0 0, sends := 1 }

/-- A key for both directions of port 0's link. -/
def keyed (s : State) : State := onPort0 (fun h => { h with txKey := some ⟨0, 0⟩, rxKey := some ⟨0, 0⟩ }) s
def inLane0 (f : LaneH → LaneH) (s : State) : State := s.onLane 0 0 f

/-- LineCoding: a lane of the transmit map in use, a map of none, data and control blocks of used and reserved types at a port that is up
and one that is not, and lanes that hunt, with a refused reference and without, and that are locked, with headers for each limit. -/
theorem witness_LineCoding :
    let s := (portIn 2).put F.PORT_MAP.TX 0xFFFFFF10 [0, 0]
    let none_ := s.put F.PORT_MAP.TX 0xFFFFFFFF [0, 0]
    let hunts := portIn 1 (s.setLane 0 0 1) |>.setLane 0 0 1
    let alone : State := { hunts with ref := { s.ref with straps := { s.ref.straps with ref := true } } }
    let typed (w : W64) := bitsOf (descrambled ((s.portH 0).lane 0).descr w) 7 0
    let seen := (s.onLane 0 0 fun l => { l with descr := 0 }).seeHeader 0 0 2
    let down := ((hunts.setLane 0 0 2).onLane 0 0 fun l => { l with descr := 0 }).seeHeader 0 0 2
    let valid (h : BitVec 2) : Bool := h == 1 || h == 2
    let bad (n : Nat) : List (BitVec 2) := List.replicate (64 - n) 1 ++ List.replicate n 0
    (s.txMap 0)[(s.portH 0).unitNo % (s.txMap 0).length]? = some (0 : Lane).val ∧ s.laneState 0 0 ≠ 7 ∧ none_.txMap 0 = [] ∧
      (1 : BitVec 2) ≠ 2 ∧ typed 0x7F = 0x7F ∧ typed 0x84 = 0x84 ∧ typed 0x1E = 0x1E ∧ typed 0x780 = 0x80 ∧
      bitsOf (descrambled ((s.portH 0).lane 0).descr 0x780) 11 8 = 7 ∧ seen.laneState 0 0 = 3 ∧ down.laneState 0 0 ≠ 3 ∧
      seen.portUp 0 = true ∧ down.portUp 0 = false ∧ hunts.laneState 0 0 = 1 ∧ ((hunts.portH 0).lane 0).good = 0 ∧
      hunts.aloneRef = false ∧ alone.aloneRef = true ∧ alone.laneState 0 0 = 1 ∧ ((bad 0).all valid) = true ∧ (bad 0).length ≤ 64 ∧
      ((bad 0).drop 1).length < 64 ∧ s.laneState 0 0 = 3 ∧ ((s.portH 0).lane 0).window = 0 ∧
      ((bad 15).filter fun h => !valid h).length < 16 ∧ ((bad 16).filter fun h => !valid h).length = 16 ∧
      ((bad 16).getLast?.all fun h => !valid h) = true := by decide +kernel
/-- R245: fifteen invalid headers keep the lock of a lane, sixteen lose it. -/
theorem test_sixteen_headers_lose_lock :
    let s := ((portIn 2).setLane 0 2 3).put F.PORT_LIMITS.LOSS_LIMIT 0 [0, 0]
    leaves (exec (.lossOfLock 0 2 (List.replicate 15 0)) s) (fun s => s.laneState 0 2 == 3) = true ∧
      leaves (exec (.lossOfLock 0 2 (List.replicate 16 0)) s) (fun s => s.laneState 0 2 == 2) = true := by
  decide +kernel

/-- RelayLaneCommands: lanes in each state and at each count, the alone reference, a group asleep, far-end loopback, loss limits 1, 0
and above the count, ports up and in ACQUIRE with lanes enough and too few, and all lanes locked at the partner or not. -/
theorem witness_RelayLaneCommands :
    let s := portIn 2
    let alone : State := { s with ref := { s.ref with straps := { s.ref.straps with ref := true } } }
    let acq := portIn 1
    let good (n : Nat) (u : State) := inLane0 (fun l => { l with good := n }) u
    let rest := onPort0 (fun h => { h with rxIdle := true }) (s.setLane 0 0 4)
    (s.laneState 0 0 = 3 ∧ (s.setLane 0 0 1).laneState 0 0 = 1 ∧ (s.setLane 0 0 2).laneState 0 0 = 2 ∧ rest.laneState 0 0 = 4 ∧
      (s.setLane 0 0 7).laneState 0 0 ∉ [1, 2, 3, 4] ∧ s.aloneRef = false ∧ alone.aloneRef = true ∧ s.portState 0 = 2 ∧
      acq.portState 0 = 1 ∧ acq.aloneRef = false ∧ (portIn 5).portState 0 = 5 ∧ s.groupRuns 0 = true ∧
      (s.put F.PD_STAT.NOW 2 [8]).groupRuns 0 = false ∧ (((good 62 acq).portH 0).lane 0).good < 63) ∧
      63 ≤ (((good 63 acq).portH 0).lane 0).good := by decide +kernel
/-- RelayLaneCommands: the counts of headers on either side of each limit. -/
theorem witness_RelayLaneCommands_counts :
    let s := portIn 2
    let acq := portIn 1
    let wide (n : Nat) := acq.put F.PORT_CTRL.MIN_WIDTH n [0, 0]
    let limited (n : Nat) := s.put F.PORT_LIMITS.LOSS_LIMIT n [0, 0]
    let parked := lanes8.foldl (fun u l => if l = 0 then u else u.setLane 0 l 7) acq
    let told := (parked.seeHeader 0 0 2)
    let good (n : Nat) (u : State) := inLane0 (fun l => { l with good := n }) u
    let rest := onPort0 (fun h => { h with rxIdle := true }) (s.setLane 0 0 4)
    popcount ((((s.portH 0).lane 0).window <<< 1) ||| 1) < 16 ∧
      16 ≤ popcount (((((inLane0 (fun l => { l with window := 0x7FFF }) s).portH 0).lane 0).window <<< 1) ||| 1) ∧
      (rest.portH 0).rxIdle = true ∧ (s.portH 0).rxIdle = false ∧ ((rest.portH 0).lane 0).good < 15 ∧
      15 ≤ (((good 15 rest).portH 0).lane 0).good ∧ (limited 1).fld F.PORT_LIMITS.LOSS_LIMIT (portIx 0) = 1 ∧
      (limited 0).fld F.PORT_LIMITS.LOSS_LIMIT (portIx 0) = 0 ∧
      (((limited 3).portH 0).lane 0).losses + 1 < (limited 3).fld F.PORT_LIMITS.LOSS_LIMIT (portIx 0) ∧ s.portUp 0 = true ∧
      0 ∈ s.rxMap 0 ∧ acq.portUp 0 = false ∧ 2 ∉ s.rxMap 0 ∧
      (wide 1).minWidth 0 ≤ (lanes8.filter fun l => (wide 1).laneState 0 l == 3).length ∧
      (lanes8.filter fun l => (wide 8).laneState 0 l == 3).length < (wide 8).minWidth 0 ∧ told.portState 0 = 1 ∧
      (∀ l < 8, told.laneState 0 l ≠ 7 → told.laneState 0 l ≠ 5 → (1 : BitVec 8).getLsbD l = true) ∧
      ¬(∀ l < 8, told.laneState 0 l ≠ 7 → told.laneState 0 l ≠ 5 → (0 : BitVec 8).getLsbD l = true) := by decide +kernel
theorem test_acquisition_limit :
    leaves (exec (.acqLimitExpiry 0) (((portIn 1).setLane 0 2 1).put F.PORT_CTRL.MIN_WIDTH 1 [0, 0])) (fun s => s.laneState 0 2 == 7) = true := by decide +kernel

/-- RelayPortCommands: ports in each state with their group in RUN, maps announced and not, lanes enough and too few, skews in range,
blocks, acknowledgements and frames that wait for the transmitter, frames to replay within the limit and at it, and no frame. -/
theorem witness_RelayPortCommands :
    let s := carrying 1 1 (keyed (portIn 2))
    let acq := portIn 1
    let map (rx tx : Option (BitVec 32)) (s : State) := onPort0 (fun h => { h with rxMapNext := rx, txMapNext := tx }) s
    let good (s : State) := lanes8.filter fun l => s.laneState 0 l == 3 && decide (0 ≤ 31)
    let skewed (s : State) := (lanes8.foldl (fun s l =>
      if s.laneState 0 l = 3 then s.put F.LANE_STAT.SKEW 0 (laneIx 0 l) else s) s).onPort 0 fun h =>
        { h with deskewed := BitVec.ofNat 8 (maskOf (good s)) }
    let both := map (some 0xFFFFFF10) (some 0xFFFFFF10) (acq.put F.PORT_CTRL.MIN_WIDTH 1 [0, 0])
    let len (s : State) := (mapFrom (good s) (s.flag F.PORT_CTRL.SPARE (portIx 0))).length
    let narrow := acq.put F.PORT_CTRL.MIN_WIDTH 1 [0, 0]
    let wide := acq.put F.PORT_CTRL.MIN_WIDTH 8 [0, 0]
    let idle := onPort0 (fun h => { h with rxIdle := true }) s
    let sends := (s.sendAlign 0).applyTxMap 0
    let pends := ((s.put F.PORT_STAT.IDLE_PENDING 1 [0, 0]).sendAlign 0).applyTxMap 0
    let waits := onPort0 (fun h => { h with waitingTx := [frameOf 0] }) (portIn 3)
    let blocks := onPort0 (fun h => { h with waitBlocks := [.idleEnter] }) (portIn 3)
    let latched := onPort0 (fun h => { h with exitLatched := true }) (portIn 3)
    let sent (k : Nat) := onPort0 (fun h => { h with unacked := [{ frameOf 0 with sends := k }] }) s
    let limited := (sent 1).put F.CHAIN_LIMITS.REPLAY_LIMIT 2
    s.portState 0 ≠ 5 ∧ s.groupRuns 0 = true ∧ acq.groupRuns 0 = true ∧ acq.portState 0 = 1 ∧ both.portState 0 = 1 ∧
      (skewed both).mapsReady 0 = true ∧ (skewed wide).mapsReady 0 = false ∧ len wide < wide.minWidth 0 ∧
      (skewed narrow).mapsReady 0 = false ∧ narrow.minWidth 0 ≤ len narrow ∧ (portIn 0).portState 0 ≠ 1 ∧
      (portIn 0).portUp 0 = false ∧ s.portUp 0 = true ∧ (s.portH 0).rxIdle = false ∧ (idle.portH 0).rxIdle = true ∧
      idle.portUp 0 = true ∧ (∀ l ∈ idle.rxMap 0, idle.laneState 0 l = 3) ∧ s.portState 0 = 2 ∧
      sends.flag F.PORT_STAT.IDLE_PENDING (portIx 0) = false ∧ pends.flag F.PORT_STAT.IDLE_PENDING (portIx 0) = true ∧
      (pends.portH 0).txMapNext = none ∧ pends.portState 0 = 2 ∧ (pends.portH 0).waitingTx = [] ∧ (portIn 0).portState 0 ≠ 2 ∧
      (s.portH 0).txMapNext = none ∧ (s.portH 0).waitingTx = [] ∧ ((map none (some 0) s).portH 0).txMapNext ≠ none ∧
      (s.put F.PORT_CTRL.IDLE_AFTER 5 [0, 0]).fld F.PORT_CTRL.IDLE_AFTER (portIx 0) ≠ 0 ∧
      (s.put F.PORT_CTRL.IDLE_AFTER 0 [0, 0]).fld F.PORT_CTRL.IDLE_AFTER (portIx 0) = 0 ∧
      (waits.portH 0).waitingTx ≠ [] ∧ (waits.portH 0).exitLatched = false ∧ waits.portState 0 = 3 ∧
      (blocks.portH 0).waitBlocks ≠ [] ∧ (latched.portH 0).exitLatched = true ∧ waits.groupRuns 0 = true ∧
      (s.portH 0).unacked = [] ∧ ((sent 1).portH 0).unacked ≠ [] ∧
      (∃ f ∈ ((sent 1).portH 0).unacked, (sent 1).mayCarry 0 f = true ∧
        max 1 (((sent 1).put F.CHAIN_LIMITS.REPLAY_LIMIT 1).fld F.CHAIN_LIMITS.REPLAY_LIMIT) ≤ f.sends) ∧
      ((sent 1).put F.CHAIN_LIMITS.REPLAY_LIMIT 1).mayCarry 0 { frameOf 0 with sends := 1 } = true ∧
      (∀ f ∈ (limited.portH 0).unacked, f.sends < max 1 (limited.fld F.CHAIN_LIMITS.REPLAY_LIMIT)) ∧
      limited.portState 0 = 2 := by decide +kernel
theorem test_ack_removes_older_frames :
    leaves (exec (.ack 0 2 0 true) (onPort0 (fun h => { h with unacked := [frameOf 1, frameOf 2] }) (portIn 2))) (fun s =>
      (s.portH 0).unacked.map (·.seq) == [2]) = true := by decide +kernel

/-- FrameReception: a frame in order, one behind and one ahead, with its checks good and bad and a key or none, at ports up and down,
with laps and without, enrolled and not, for this device and for another, and a decision baton over a port of no role. -/
theorem witness_FrameReception :
    let s := carrying 1 1 (keyed (portIn 2))
    let plain := keyed (portIn 2)
    s.portState 0 ≠ 5 ∧ s.groupRuns 0 = true ∧ s.portUp 0 = true ∧ (portIn 1).portUp 0 = false ∧ (portIn 1).groupRuns 0 = true ∧
      s.carriesLap 0 = true ∧ plain.carriesLap 0 = false ∧ plain.enrolled 0 = false ∧ frame0.crcOk = true ∧ frame0.tagOk = true ∧
      (s.portH 0).rxKey ≠ none ∧ ((portIn 2).portH 0).rxKey = none ∧ frame0.seq = (s.portH 0).rxSeq ∧
      ({ frame0 with dst := 7 } : Sys2Proof.Frm).dst.toNat ≠ s.selfId ∧ ({ frame0 with seq := 1 } : Sys2Proof.Frm).seq ≠ (s.portH 0).rxSeq ∧
      2 ^ 23 ≤ ((s.portH 0).rxSeq - (1 : BitVec 24)).toNat ∧ ((s.portH 0).rxSeq - (0xFFFFFF : BitVec 24)).toNat < 2 ^ 23 ∧
      s.roleCarries 0 (.baton 1 baton0) = true ∧ (carrying 0 1).roleCarries 0 (.baton 1 baton0) = false := by
  decide +kernel
theorem test_bad_crc :
    leaves (exec (.alive 0 { frame0 with crcOk := false }) (portIn 2)) (fun s =>
      s.fld F.LINK_STAT.CRC_ERR [0] == 1 && s.sent == [(0, Block.nak 0 [0, 0, 0])] && (s.portH 0).rxSeq == 0) = true := by decide +kernel

/-- ChainFrameCommands: a child and a parent port with a key, laps in each phase, a baton of this lap and attempt and one of another, a
decision kept and none, bridges in both directions, open and out of place, boot images, frames for the device itself and for one without
a route, and ports of each role. -/
theorem witness_ChainFrameCommands :
    let s := carrying 1 1 (keyed (portIn 2))
    let child := carrying 2 1 (keyed (portIn 2))
    let open_ (dir : Nat) := ((s.put F.BRIDGE_CFG.EN 1 [3]).put F.BRIDGE_CFG.DIR dir [3]).onBridge 3 fun b => { b with granted := 4 }
    let into := (open_ 1).setCredits ((open_ 1).bridgeQ 3) 2
    let begun := into.onBridge 3 fun b => { b with started := true, nextPos := 9 }
    let decided : State := { s with chain := { s.chain with lastDecision := some (4, baton0) } }
    let strapped : State := { s with ref := { s.ref with straps := { s.ref.straps with boot := 1 }, sbState := 1 } }
    let done_ : State := { s with chain := { s.chain with doneSent := true } }
    let own : State := { s with ownFrames := [(0, .flowCredit 0 0 0)] }
    s.portUp 0 = true ∧ s.groupRuns 0 = true ∧ (s.portH 0).rxKey ≠ none ∧ s.carriesLap 0 = true ∧ frame0.dst.toNat = s.selfId ∧
      frame0.seq = (s.portH 0).rxSeq ∧ frame0.crcOk = true ∧ frame0.tagOk = true ∧
      s.portRole 0 = 1 ∧ s.chainMode = 1 ∧ child.portRole 0 = 2 ∧ child.chainMode ≠ 0 ∧ child.carriesLap 0 = true ∧
      frame0.dst.toNat = child.selfId ∧ baton0.lap = s.lapNext ∧ baton0.attempt = s.chain.attempt ∧
      ({ baton0 with attempt := 1 } : Baton).attempt ≠ s.chain.attempt ∧ s.fab.phase = .halted ∧
      (inPhase .goWait s).fab.phase = .goWait ∧ (inPhase .retryWait s).fab.phase = .retryWait ∧
      (inPhase .steps child).lapsRun = true ∧ child.lapsRun = false ∧
      (inPhase .steps done_).chain.doneSent = true ∧ (inPhase .steps s).chain.doneSent = false ∧ s.fab.committing = false ∧
      decided.chain.lastDecision = some (4, baton0) ∧ decided.chainMode = 1 ∧ s.chain.lastDecision = none ∧
      into.bridgeEn 3 = true ∧ into.bridgeIn 3 = true ∧ (into.bridge 3).started = false ∧ (into.bridge 3).granted ≠ 0 ∧
      into.credits (into.bridgeQ 3) ≠ 0 ∧ (begun.bridge 3).started = true ∧ (begun.bridge 3).nextPos ≠ 8 ∧
      (open_ 0).bridgeIn 3 = false ∧ (open_ 0).bridgeEn 3 = true ∧ (open_ 0).carriesLap 0 = true ∧ into.carriesLap 0 = true ∧
      s.bridgeEn 3 = false ∧ own.ownFrames ≠ [] ∧ s.routeTo 7 = none ∧ 7 ≠ s.selfId ∧ s.enrolled 0 = true ∧
      strapped.enrolled 0 = true ∧ strapped.ref.straps.boot = 1 ∧ strapped.bootOpen = true ∧ (portIn 2).carriesLap 0 = false ∧
      (portIn 2).chainMode = 0 ∧ (carrying 0 1).portRole 0 = 0 ∧ (carrying 3 1).portRole 0 = 3 := by decide +kernel
theorem test_baton_limit_of_the_anchor_of_a_lap :
    leaves (exec (.batonLimitExpiry 0) (inPhase .retryWait (carrying 1 1))) (fun s => s.flag F.LINK_STAT.ALIVE_LOST [0]) = true := by
  decide +kernel

def boundTo (ix code : Nat) (s : State) : State := (s.put F.SESS.OPEN 1 [ix]).put F.SESS.ROLE code [ix]
def refWith (f : Referee → Referee) (s : State := lit) : State := { s with ref := f s.ref }

/-- The host serves the host memory's first GiB over module 0. -/
def served (s : State) : State := ((refWith (fun r => { r with sbState := 2 }) s).put F.HC_LINK.UP 1 [0]).put F.HC_HOSTMEM.GIB 1

/-- Region 0 is a vault of 4 KiB at 0x10000 that has its keys and its place, and its metadata lies at 0x20000. -/
def vaulted (s : State) : State :=
  let s := ((((served s).put F.HR_BASE.BASE 16 [0]).put F.HR_BASE.EN 1 [0]).put F.HR_BASE.DEV_WR 1 [0]).put F.HR_BASE.VAULT 1 [0]
  let s := ((s.put F.HR_LIMIT.LIMIT 16 [0]).put F.VR_CFG.SIZE 12 [0]).put F.VR_CFG.META 32 [0]
  { s with vault := { s.vault with draws := [(0, 1)], boundAt := [(0, 17)], baseCounter := [(0, 1)] } }

/-- SecurityCommands: a port that awaits enrolment, an entry of the roster that is valid for it, a key held for the entry, a line whose
verdict is outstanding and whose tree and tag hold, a node above the line and one that is not, regions with no state and with one, and a
lockout or few failures. -/
theorem witness_SecurityCommands :
    let s := ((lit.put F.PORT_STAT.STATE 2 [0, 0]).put F.ROSTER.VALID 1 [5]).put F.ROSTER.PORTS 1 [5]
    let v := vaulted lit
    let due : State := { v with vault := { v.vault with pendingLines := [v.regionBase 0 / 64 + 9] } }
    let keyed := refWith (fun r => { r with roster := [(5, ⟨1, 2⟩)] })
    s.portState 0 ≠ 5 ∧ s.groupRuns 0 = true ∧ (s.put F.PD_STAT.NOW 2 [8]).groupRuns 0 = false ∧ s.portUp 0 = true ∧ s.enrolled 0 = false ∧ s.unenrolled 0 = false ∧ s.flag F.ROSTER.VALID [5] = true ∧
      (s.fld F.ROSTER.PORTS [5]).testBit 0 = true ∧ ¬((s.fld F.ROSTER.PORTS [5]).testBit 1 = true) ∧
      (s.put F.SEC_PORTS.UNENROLLED 1).unenrolled 0 = true ∧ lit.portUp 0 = false ∧
      due.regionBase 0 / 64 + 9 ∈ due.vault.pendingLines ∧ v.regionBase 0 / 64 + 9 ∉ v.vault.pendingLines ∧
      due.badPath 0 9 = none ∧ due.lineTagOk 0 9 (v.regionBase 0 / 64 + 9) = true ∧
      (keyed.ref.roster.find? fun x => x.1 == 5).isSome = true ∧
      9 / 8 ^ 1 = 1 ∧ 9 / 8 ^ 1 ≠ 2 ∧ s.fld F.VR_STAT.STATE [0] = 0 ∧
      (s.put F.VR_STAT.STATE 1 [0]).fld F.VR_STAT.STATE [0] ≠ 0 ∧ s.ref.authFails < 7 ∧
      (s.put F.SEC_STAT.LOCKOUT 1).flag F.SEC_STAT.LOCKOUT = true := by decide +kernel
theorem test_enrolment_timeout :
    leaves (exec (.enrolmentTimeout 0) (lit.put F.PORT_STAT.STATE 2 [0, 0])) (fun s => s.unenrolled 0) = true := by decide +kernel

/-- VaultMemory: a word of a line and one outside, a line, a tag and a node that nothing else has written, a counter below its end and
at it, a line whose tag has failed, a write in a vault and one in no vault, and a path whose nodes hold. -/
theorem witness_VaultMemory :
    let s := vaulted lit
    let l := 0x10000 / 64
    let qs : List Quad := [1, 2]
    let full : State := { s with vault := { s.vault with counters := [(l, 0xFFFFFFFFFFFFFF)] } }
    let bad : State := { s with vault := { s.vault with badLines := [l] } }
    let plain := s.put F.HR_BASE.VAULT 0 [0]
    s.vaultPlace (4 * l) = some (.line 0) ∧ s.vault.foreign.contains (4 * l) = false ∧
      s.untouched (s.tagAddr 0 0 / 16 :: wordsOfLine l) = true ∧ s.untouched (wordsOfLine (s.nodeAddr 0 1 0 / 64)) = true ∧
      s.lineCounter 0 l + 1 < 2 ^ 56 ∧ 2 ^ 56 ≤ full.lineCounter 0 l + 1 ∧ 0x10000 % 16 = 0 ∧ l ∈ linesOf 0x10000 32 ∧
      s.vault.foreign.contains (s.tagAddr 0 0 / 16) = false ∧ s.devRefusal 0 0x10000 32 true = none ∧
      s.vaultOf 0x10000 32 true = some 0 ∧ (∀ l ∈ linesOf 0x10000 32, s.lineStop 0 l = none) ∧
      (∀ l ∈ linesOf 0x10000 32, s.partFails 0 0x10000 32 l = false) ∧ bad.devRefusal 0 0x10000 32 true = none ∧
      bad.vaultOf 0x10000 32 true = some 0 ∧ (∀ l ∈ linesOf 0x10000 32, bad.lineStop 0 l = none) ∧
      (∃ l ∈ linesOf 0x10000 32, bad.partFails 0 0x10000 32 l = true) ∧ full.devRefusal 0 0x10000 32 true = none ∧
      full.vaultOf 0x10000 32 true = some 0 ∧ (∃ l ∈ linesOf 0x10000 32, full.lineStop 0 l ≠ none) ∧
      plain.devRefusal 0 0x10000 32 true = none ∧ plain.vaultOf 0x10000 32 true = none ∧ s.badPath 0 0 = none ∧
      full.badPath 0 (full.lineOf 0 (l * 64)) = none ∧ 16 * qs.length = 32 := by decide +kernel
/-- R302: a write takes the line's next counter, and the mark follows it. -/
theorem test_vault_write_raises_the_counter :
    let s := (vaulted lit).vaultStore 0 0x10000 [5]
    s.lineCounter 0 (0x10000 / 64) = 2 ∧ s.fld F.VR_STAT.HWM [0] = 2 ∧ s.vaultWord 0 0x1000 = 5 := by decide +kernel

/-- SessionOperations: a challenge outstanding and none, a target of the path and another, reserved bits, sessions there are not,
credentials valid and not, the device unclaimed and claimed, locked out and not, and proofs of either length. A proof that is right
cannot be shown: the signature check has no value here (notes/assumptions 4). -/
theorem witness_SessionOperations :
    let s := lit
    let c : Challenge := ⟨64, 0x0001002000, 7⟩
    let held := refWith (fun r => { r with challenges := [c] })
    let claimed := s.put F.CRED.VALID 1 [0]
    let oper : W64 := 0x2000
    let inst : W64 := 0x12000
    (∃ c ∈ held.ref.challenges, c.sess = 64) ∧ (∀ c ∈ s.ref.challenges, c.sess ≠ 64) ∧ argReserved 0x10000000 = true ∧
      argReserved oper = false ∧ sessIx (argTarget oper) = some 64 ∧ sessIx (argTarget 0x3FFF) = none ∧
      s.mayTarget (.sideband 1) (argTarget oper) = true ∧ s.mayTarget (.mailbox 0) (argTarget oper) = false ∧
      argRole oper = 0 ∧ argRole inst = 1 ∧ credOk (argRole oper) (argSlot oper) = true ∧
      credOk (argRole 0xF000000) (argSlot 0xF000000) = false ∧ s.claimed = false ∧ claimed.claimed = true ∧
      s.flag F.SEC_STAT.LOCKOUT = false ∧ s.flag F.SEC_CTRL.OPER_AUTH = false ∧
      (s.put F.SEC_CTRL.OPER_AUTH 1).flag F.SEC_CTRL.OPER_AUTH = true ∧ proofLength 0 96 = true ∧ proofLength 2 192 = true ∧
      proofLength 1 95 = false ∧ (held.ref.challenges.find? fun c => c.sess == 64) = some c ∧
      held.proofOk c oper (List.replicate 96 0) = false ∧ (0 : W64) = argTarget 0 ∧ argReserved 0 = false := by decide +kernel
theorem test_session_claim_needs_the_management_port :
    (lit.opSessionClaim (.sideband 0) 0 []).resp = .roleDenied ∧ (lit.opSessionClaim .smbus 0 []).resp = .decodeError := by
  decide +kernel

/-- RefereeMessages: both copies failed, a sideband whose message is outstanding, a slot held and one that no session holds, forms of
an operation and others, a session unbound, and a role without the right. -/
theorem witness_RefereeMessages :
    let s := lit
    let slot := refWith (fun r => { r with slots := r.slots.set 2 { owner := some 0 } })
    s.ref.bothFailed = false ∧ (refWith (fun r => { r with bothFailed := true })).ref.bothFailed = true ∧
      (∀ m : Module, s.ref.vdmOutstanding.getLsbD m = false) ∧
      (refWith (fun r => { r with vdmOutstanding := 1 })).ref.vdmOutstanding.getLsbD (0 : Module) = true ∧
      s.ref.slots[(2 : Fin 4)].owner = none ∧ slot.ref.slots[(2 : Fin 4)].owner ≠ none ∧
      opForm .smbus 1 0 [] = true ∧ opForm .smbus 1 1 [] = false ∧ (s.put F.SESS.OPEN 0 [68]).pathRole .smbus = none ∧
      (boundTo 68 1 s).pathRole .smbus = some .installer ∧ (boundTo 68 0 s).pathRole .smbus = some .operator ∧
      opForm .smbus 9 0 [] = true ∧ opRight 9 0 .operator = false ∧ opForm .smbus 9 1 [] = false := by decide +kernel
theorem test_operator_may_not_zeroise :
    leaves (exec (.zeroise (.sideband 1) 3 0) lit) (fun s =>
      s.ref.answers == [⟨.sideband 1, 9, Resp.roleDenied.byte, 0, 3, 0, []⟩] && s.fld F.SEC_STAT.DENIED == 1) = true := by
  decide +kernel

/-- RefereeOperations: the role that may ask for each operation, resets in progress and none, layers on, off and held in reset,
engines that wait and that run, a DUMP kept, power locked, an image fetched at an address that no module serves and one whose header
has no length, boot open and not, the lab strap's state, and temperatures within the window and not. -/
theorem witness_RefereeOperations :
    let s := boundTo 68 1 lit
    let maker := boundTo 68 2 lit
    let in_ (r : ResetRun) := refWith (fun x => { x with resets := [r] }) s
    let waits := s.onEng 0 fun en => { en with state := .waiting, waiting := some (.mwait 3 0) }
    let dumps := refWith (fun r => { r with dumps := [(.smbus, 1, 0)] }) s
    let reach_ := served s
    s.ref.bothFailed = false ∧ s.pathRole .smbus = some .installer ∧ maker.pathRole .smbus = some .maker ∧
      (∀ m : Module, s.ref.vdmOutstanding.getLsbD m = false) ∧
      ([(1, 0), (2, 5 <<< 32), (3, 0), (4, 12), (5, 1), (5, 2), (5, 0x103), (5, 4), (6, 0), (7, 0), (8, 0), (9, 0), (0x14, 0),
          (0x15, 0x1000), (0x16, 0x1000), (0x1A, 0)].all fun x =>
        opForm .smbus x.1 (BitVec.ofNat 64 x.2) [] && opRight x.1 (BitVec.ofNat 64 x.2) .installer) = true ∧
      opForm .smbus 0x17 0 [] = true ∧ opRight 0x17 0 .maker = true ∧
      opForm .smbus 0x18 0 (List.replicate 8 0) = true ∧ opRight 0x18 0 .maker = true ∧
      opForm .smbus 0x19 0 (List.replicate 8 0) = true ∧ opRight 0x19 0 .installer = true ∧
      opForm .smbus 0x10 0x2000 [] = true ∧ opForm .smbus 0x11 0 [] = true ∧ opForm .smbus 0x12 0x2000 [] = true ∧
      opForm .smbus 0x13 0 [] = true ∧ argReserved 0x2000 = false ∧ sessIx (argTarget 0x2000) = some 64 ∧
      s.mayTarget .smbus (argTarget 0x2000) = true ∧ s.ref.packageBusy = false ∧ s.inTowerReset 0 = false ∧
      (in_ ⟨0, none, false⟩).inTowerReset 0 = true ∧
      ((in_ ⟨0, some 1, false⟩).ref.resets.any fun r => r.tower.val == 0 && r.layer == some 1) = true ∧
      ((layerDomains 0 1).all fun d => s.pd d == 0) = false ∧ ((layerDomains 3 1).all fun d => s.pd d == 0) = true ∧
      s.lapsRun = false ∧ (waits.eng 0).waiting ≠ none ∧ (waits.eng 0).frozen = false ∧
      ((waits.onEng 0 fun en => { en with frozen := true }).eng 0).frozen = true ∧ dumpEng 0 = 0 ∧ (s.eng 0).waiting = none ∧
      (.smbus, 1, 0) ∈ dumps.ref.dumps ∧ (RPath.smbus, (1 : BitVec 16), (0 : W64)) ∉ s.ref.dumps ∧ s.ref.powerLock = false ∧
      (refWith (fun r => { r with powerLock := true }) s).ref.powerLock = true ∧
      (s.fetchImage 0x1000).1 ≠ .ok ∧ (reach_.fetchImage 0x1000).1 = .ok ∧ bootCheck (reach_.fetchImage 0x1000).2.1 ≠ 0 ∧
      (refWith (fun r => { r with sbState := 1 }) s).bootOpen = true ∧ s.ref.bootFetch = none ∧
      (refWith (fun r => { r with bootDone := true }) s).bootOpen = false ∧ s.ref.sbState ≠ 4 ∧
      (s.put F.PKG_THERM.TMAX 0x7FFF).fuseWindow = false ∧ s.fuseWindow = true ∧ (s.eng 0).state ≠ .idle ∧
      (s.eng 1).state = .idle := by decide +kernel
theorem test_power_restore_without_lock :
    leaves (exec (.powerRestore (.sideband 1) 2 0) (boundTo 65 1 lit)) (fun s =>
      s.ref.answers == [⟨.sideband 1, 0x14, Resp.bankNotOwned.byte, 0, 2, 0, []⟩]) = true := by decide +kernel

/-- ResetsAndReplica: resets of a tower and a layer held, waiting and none, the replica sound and failed, a restart due, both copies
failed, and an image to fetch that comes and that does not. -/
theorem witness_ResetsAndReplica :
    let s := lit
    let in_ (r : ResetRun) := refWith (fun x => { x with resets := [r] })
    let due := refWith (fun r => { r with bootFetch := some 0x1000 })
    let fetching := served due
    let find (s : State) := s.ref.resets.find? fun r => r.tower == 0 && !r.waitsCommit
    find s = none ∧ find (in_ ⟨0, some 1, false⟩) = some ⟨0, some 1, false⟩ ∧ find (in_ ⟨0, none, false⟩) = some ⟨0, none, false⟩ ∧
      (∀ x ∈ (in_ ⟨0, none, false⟩).ref.resets.erase ⟨0, none, false⟩, x.layer ≠ none) ∧ find (in_ ⟨0, some 1, true⟩) = none ∧
      ((in_ ⟨0, some 1, true⟩).ref.resets.find? fun r => r.tower == 0) = some ⟨0, some 1, true⟩ ∧
      (s.put F.REF_STAT.REPLICA_OK 0).flag F.REF_STAT.REPLICA_OK = false ∧
      (s.put F.REF_STAT.REPLICA_OK 1).flag F.REF_STAT.REPLICA_OK = true ∧ s.ref.restartDue = false ∧
      (refWith (fun r => { r with restartDue := true })).ref.restartDue = true ∧ s.ref.bothFailed = false ∧
      (refWith (fun r => { r with bothFailed := true })).ref.bothFailed = true ∧ s.ref.bootFetch = none ∧
      due.ref.bootFetch = some 0x1000 ∧
      (({ fetching with ref := { fetching.ref with bootFetch := none } } : State).fetchImage 0x1000).1 = .ok ∧
      (({ due with ref := { due.ref with bootFetch := none } } : State).fetchImage 0x1000).1 ≠ .ok := by decide +kernel
theorem test_replica_takes_over :
    leaves (exec .heartbeatTimeout (lit.put F.REF_STAT.REPLICA_OK 1)) (fun s =>
      s.fld F.REF_STAT.ACTIVE == 1 && !s.flag F.REF_STAT.REPLICA_OK && s.ref.restartDue) = true := by decide +kernel

/-- EveryStepKeepsMemories. -/
theorem witness_EveryStepKeepsMemories : State.reset.arraysWf = true ∧ step State.reset = .next State.reset :=
  ⟨State.reset_arraysWf, rfl⟩
/-- StepRunsTheFrontCommand, on a queue of two commands. -/
theorem test_step_takes_the_front :
    (match step { lit with pending := [.lockoutEnd, .perstN] } with | .next s => s.pending | _ => []) = [.perstN] := by
  decide +kernel

end Sys2Proof.Tests
end

section
/-! SUPPORT. What a command leaves alone besides the registers it names: the laws of Keeps, and what the fetch of an instruction
keeps. -/

namespace Sys2Proof.Machine

variable {s t u : State} {e : Eng} {r : RegName} {rs rs' : List RegName} {ix : List Nat} {f : Fld} {v : W64} {n : Nat}

/-! ### Laws of Keeps -/

theorem Keeps.of_regs (hr : t.regs = s.regs) (hm : t.mem = s.mem) (hs : t.standin = s.standin) : Keeps s t rs :=
  ⟨fun _ _ _ _ _ => by rw [State.reg, hr, State.reg], hm, hs⟩

theorem Keeps.refl : Keeps s s rs := .of_regs rfl rfl rfl

theorem Keeps.trans (h : Keeps s t rs) (k : Keeps t u rs) : Keeps s u rs :=
  ⟨fun r ix hi hr he => (k.reg r ix hi hr he).trans (h.reg r ix hi hr he), k.mem.trans h.mem, k.standin.trans h.standin⟩

theorem Keeps.mono (h : Keeps s t rs) (hs : rs ⊆ rs') : Keeps s t rs' :=
  ⟨fun r ix hi hr he => h.reg r ix hi (fun hm => hr (hs hm)) he, h.mem, h.standin⟩

theorem Keeps.setReg (hr : r ∈ rs) (hi : r.valid ix = true) : Keeps s (s.setReg r ix v) rs :=
  ⟨fun _ _ hi' hr' _ => State.reg_setReg_ne (fun h => hr' (h ▸ hr)) hi hi', rfl, rfl⟩

theorem Keeps.put (hr : f.reg ∈ rs) (hi : f.reg.valid ix = true) : Keeps s (s.put f n ix) rs := Keeps.setReg hr hi

theorem Keeps.of_onlyEvents (h : OnlyEvents s t) : Keeps s t rs :=
  ⟨fun r ix hi _ he => h.reg r ix hi he, h.mem, by rw [h.rest]⟩

theorem OnlyEvents.ref (h : OnlyEvents s t) : t.ref = s.ref := by rw [h.rest]

theorem OnlyEvents.fld (h : OnlyEvents s t) (hi : f.reg.valid ix = true) (hr : f.reg ∉ eventRegs) : t.fld f ix = s.fld f ix := by
  simp only [State.fld, h.reg _ _ hi hr]

/-! ### The fetch keeps all but the error log (R171, R179) -/

/-- Keeps, and the lap engine's and the Referee's own state besides. -/
structure KeepsLaps (s u : State) (rs : List RegName) : Prop extends Keeps s u rs where
  fab : u.fab = s.fab
  ref : u.ref = s.ref

theorem KeepsLaps.refl : KeepsLaps s s rs := ⟨.refl, rfl, rfl⟩

theorem KeepsLaps.trans (h : KeepsLaps s t rs) (k : KeepsLaps t u rs) : KeepsLaps s u rs :=
  ⟨h.toKeeps.trans k.toKeeps, k.fab.trans h.fab, k.ref.trans h.ref⟩

theorem KeepsLaps.setReg (hr : r ∈ rs) (hi : r.valid ix = true) : KeepsLaps s (s.setReg r ix v) rs := ⟨.setReg hr hi, rfl, rfl⟩

theorem KeepsLaps.put (hr : f.reg ∈ rs) (hi : f.reg.valid ix = true) : KeepsLaps s (s.put f n ix) rs := KeepsLaps.setReg hr hi

theorem KeepsLaps.foldl_mem {α : Type} {g : State → α → State} (l : List α) (h : ∀ s, ∀ a ∈ l, KeepsLaps s (g s a) rs) :
    KeepsLaps s (l.foldl g s) rs := by
  induction l generalizing s with
  | nil => exact .refl
  | cons a l ih => exact (h s a (by simp)).trans (ih fun s b hb => h s b (by simp [hb]))

theorem KeepsLaps.of_onlyEvents (h : OnlyEvents s t) : KeepsLaps s t rs := ⟨.of_onlyEvents h, h.fab, h.ref⟩

/-- The registers of a tower's error log. -/
def eccRegs : List RegName := [.ECC_STAT, .ECC_ADDR, .ECC_INFO]

theorem State.drawSyndrome_keepsLaps {k : Nat} : KeepsLaps s (s.drawSyndrome k) rs := by
  unfold State.drawSyndrome
  split
  · exact ⟨.of_regs rfl rfl rfl, rfl, rfl⟩
  · exact .refl

section
variable {tw i a reader : Nat} {src : EccSource} {w : W64} (ht : tw < 4)
include ht

theorem ecc_valid (hi : i < 32) : RegName.ECC_ADDR.valid [tw, i] = true ∧ RegName.ECC_INFO.valid [tw, i] = true := by
  simp [RegName.valid, RegName.place, ixValid, ht, hi]

theorem eccStat_valid : RegName.ECC_STAT.valid [tw] = true := by simp [RegName.valid, RegName.place, ixValid, ht]

theorem State.eccPut_keepsLaps (hi : i < 32) : KeepsLaps s (s.eccPut tw i a w) eccRegs :=
  (KeepsLaps.setReg (by decide) (ecc_valid ht hi).1).trans (.setReg (by decide) (ecc_valid ht hi).2)

theorem State.eccShift_keepsLaps : KeepsLaps s (s.eccShift tw) eccRegs :=
  .foldl_mem _ fun _ i hi =>
    have hv := ecc_valid ht (i := i) (by have := List.mem_range.mp hi; omega)
    (KeepsLaps.setReg (by decide) hv.1).trans (.setReg (by decide) hv.2)

theorem State.eccAdd_keepsLaps : KeepsLaps s (s.eccAdd tw a src n w) eccRegs := by
  have hput {s : State} {f : Fld} {n : Nat} (hf : f.reg = .ECC_STAT) : KeepsLaps s (s.put f n [tw]) eccRegs :=
    .put (by rw [hf]; decide) (by rw [hf]; exact eccStat_valid ht)
  unfold State.eccAdd
  dsimp only
  split
  · exact .refl
  · split
    · exact (State.eccPut_keepsLaps ht ‹_›).trans ((hput rfl).trans (hput rfl))
    · split
      · exact (State.eccShift_keepsLaps ht).trans ((State.eccPut_keepsLaps ht (by decide)).trans (hput rfl))
      · exact hput rfl

theorem State.eccError_keepsLaps {b : Bool} : KeepsLaps s (s.eccError tw a b src reader) eccRegs := by
  have henter {s : State} : KeepsLaps s (s.eccEnter tw a b src reader) eccRegs :=
    State.drawSyndrome_keepsLaps.trans (State.eccAdd_keepsLaps ht)
  unfold State.eccError
  dsimp only
  split
  · exact KeepsLaps.trans (.put (by decide) (eccStat_valid ht)) henter
  · exact KeepsLaps.trans (.put (by decide) (eccStat_valid ht)) henter
end

theorem State.fetchedWord_keepsLaps (s : State) (e : Eng) : KeepsLaps s (s.fetchedWord e) eccRegs := by
  unfold State.fetchedWord State.spadCorrect
  split
  · have herr : KeepsLaps s (s.spadError e true ((s.eng e).pc.toNat / 16) false readerEngine) eccRegs :=
      State.eccError_keepsLaps (by omega)
    exact (herr.trans (.of_onlyEvents .tallyEng)).trans ⟨.of_regs rfl rfl rfl, rfl, rfl⟩
  · exact .refl

@[simp] theorem State.fetchedWord_fab : (s.fetchedWord e).fab = s.fab := (s.fetchedWord_keepsLaps e).fab
@[simp] theorem State.fetchedWord_ref : (s.fetchedWord e).ref = s.ref := (s.fetchedWord_keepsLaps e).ref

theorem State.fetchedWord_reg (hi : r.valid ix = true) (hr : r ∉ eccRegs ++ eventRegs) :
    (s.fetchedWord e).reg r ix = s.reg r ix := by
  rw [List.mem_append, not_or] at hr
  exact (s.fetchedWord_keepsLaps e).reg r ix hi hr.1 hr.2

theorem State.fetchedWord_fld (hi : f.reg.valid ix = true) (hr : f.reg ∉ eccRegs ++ eventRegs) :
    (s.fetchedWord e).fld f ix = s.fld f ix := by
  simp only [State.fld, State.fetchedWord_reg hi hr]

/-! ### What the lap engine looks at, after a fetch -/

@[simp] theorem State.fetchedWord_lapsRun : (s.fetchedWord e).lapsRun = s.lapsRun := by simp [State.lapsRun]
@[simp] theorem State.fetchedWord_lapCount : (s.fetchedWord e).lapCount = s.lapCount := State.fetchedWord_reg (by decide) (by decide)
@[simp] theorem State.fetchedWord_persona : (s.fetchedWord e).persona_ = s.persona_ := State.fetchedWord_fld (by decide) (by decide)
@[simp] theorem State.fetchedWord_pos : (s.fetchedWord e).pos = s.pos := State.fetchedWord_fld (by decide) (by decide)
@[simp] theorem State.fetchedWord_towerHeld : (s.fetchedWord e).towerHeld n = s.towerHeld n := by simp [State.towerHeld]

@[simp] theorem State.fetchedWord_gsr : (s.fetchedWord e).gsr = s.gsr := by
  simp only [State.gsr, State.flag, State.fetchedWord_fld (f := F.LOAD_STAT.GSR) (ix := []) (by decide) (by decide)]

@[simp] theorem State.fetchedWord_chainMode : (s.fetchedWord e).chainMode = s.chainMode := by
  simp only [State.chainMode, State.fetchedWord_fld (f := F.CHAIN_CFG.MODE) (ix := []) (by decide) (by decide)]

@[simp] theorem State.fetchedWord_lapStatus : (s.fetchedWord e).lapStatus = s.lapStatus := by
  have hg : (s.fetchedWord e).flag F.LOAD_STAT.GSR = s.flag F.LOAD_STAT.GSR := State.fetchedWord_gsr
  simp [State.lapStatus, hg]

theorem State.fetchedWord_fenced (hd : n < 64) : (s.fetchedWord e).fenced n = s.fenced n := by
  have hr : (s.fetchedWord e).reg .PD_STAT [n] = s.reg .PD_STAT [n] :=
    State.fetchedWord_reg (by simp [RegName.valid, RegName.place, ixValid, hd]) (by decide)
  have hf {f : Fld} (h : f.reg = .PD_STAT) : (s.fetchedWord e).fld f [n] = s.fld f [n] := by simp only [State.fld, h, hr]
  simp only [State.fenced, State.pd, State.pdBusy, State.pdTarget, hr, hf (f := F.PD_STAT.NOW) rfl, hf (f := F.PD_STAT.WORD) rfl]

/-! ### The schedule (R65) -/

theorem State.schedKind_lt : s.schedKind n < 8 := bitsOf_lt _ _ _

theorem State.lastEntry_lt : s.lastEntry < 64 := by
  unfold State.lastEntry
  cases h : (List.range 64).find? fun i => s.flag F.LAP_SCHED.LAST [i] with
  | none => decide
  | some i => exact List.mem_range.mp (List.mem_of_find?_eq_some h)

/-- The check of the schedule looks at the lap kinds and at the schedule's entries alone. -/
theorem State.scheduleOk_congr (hk : ∀ k < 8, t.reg .LAP_KIND [k] = s.reg .LAP_KIND [k])
    (hs : ∀ i < 64, t.reg .LAP_SCHED [i] = s.reg .LAP_SCHED [i]) (p : Nat) : t.scheduleOk p = s.scheduleOk p := by
  have hkind {f : Fld} (hf : f.reg = .LAP_KIND) {k : Nat} (h : k < 8) : t.fld f [k] = s.fld f [k] := by
    simp only [State.fld, hf, hk k h]
  have hsched {f : Fld} (hf : f.reg = .LAP_SCHED) {i : Nat} (h : i < 64) : t.fld f [i] = s.fld f [i] := by
    simp only [State.fld, hf, hs i h]
  have hlast : t.lastEntry = s.lastEntry := by
    have hflag : ∀ i ∈ List.range 64, t.flag F.LAP_SCHED.LAST [i] = s.flag F.LAP_SCHED.LAST [i] := fun i hi =>
      congrArg (· != 0) (hsched rfl (List.mem_range.mp hi))
    rw [State.lastEntry, State.lastEntry, List.find?_congr hflag]
  rw [Bool.eq_iff_iff]
  simp only [State.scheduleOk, hlast, Bool.and_eq_true, List.all_eq_true, List.mem_range]
  refine and_congr (and_congr (forall₂_congr fun k h => ?_) (forall₂_congr fun i h => ?_)) Iff.rfl
  · rw [State.flag, State.flag, State.kindFirst, State.kindFirst, State.kindCount, State.kindCount,
      hkind (f := F.LAP_KIND.VALID) rfl h, hkind (f := F.LAP_KIND.FIRST) rfl h, hkind (f := F.LAP_KIND.COUNT) rfl h]
  · have hi : i < 64 := by have := s.lastEntry_lt; omega
    have hks : t.schedKind i = s.schedKind i := hsched rfl hi
    simp only [State.flag, hks, hkind (f := F.LAP_KIND.VALID) rfl State.schedKind_lt]

@[simp] theorem State.fetchedWord_scheduleOk : (s.fetchedWord e).scheduleOk n = s.scheduleOk n :=
  State.scheduleOk_congr
    (fun k h => State.fetchedWord_reg (by simp [RegName.valid, RegName.place, ixValid, h]) (by decide))
    (fun i h => State.fetchedWord_reg (by simp [RegName.valid, RegName.place, ixValid, h]) (by decide)) n

end Sys2Proof.Machine
end

section
/-! SUPPORT. Starting laps, case by case (R85, R128, R424): what LAPRUN and LAPSTEP do where each result applies, and what the
start of a standalone device changes. -/

namespace Sys2Proof.Machine

variable {s : State} {e : Eng} {n : W64} {b : Bool}

/-! ### The result of LAPRUN, in the order of R424 -/

theorem State.lapRun_running (hr : s.lapsRun = true) : s.lapRun n = (1, s.put F.LAP_STAT.RESULT 1) := by
  simp [State.lapRun, State.runCode, State.mayStart, State.refuseStart, hr]

theorem State.lapRun_torn (hr : s.lapsRun = false) (ht : s.ref.torn = true) : s.lapRun n = (4, s.put F.LAP_STAT.RESULT 4) := by
  simp [State.lapRun, State.runCode, State.mayStart, State.refuseStart, hr, ht]

theorem State.lapRun_notActive (hr : s.lapsRun = false) (ht : s.ref.torn = false) (ha : s.persona_ ≠ 2 ∨ s.gsr = true) :
    s.lapRun n = (2, s.put F.LAP_STAT.RESULT 2) := by
  have hm : s.mayStart = false := by
    obtain hp | hg := ha
    · simp [State.mayStart, hp]
    · simp [State.mayStart, hg]
  have hf : s.refuseStart = s := by
    obtain hp | hg := ha
    · simp [State.refuseStart, hp]
    · simp [State.refuseStart, hg]
  simp [State.lapRun, State.runCode, hr, ht, ha, hm, hf]

theorem State.lapRun_invalid (hr : s.lapsRun = false) (ht : s.ref.torn = false) (hp : s.persona_ = 2) (hg : s.gsr = false)
    (hs : s.scheduleOk s.pos = false) :
    s.lapRun n = (3, { s with ref := { s.ref with cause := 0x0B } }.put F.LAP_STAT.RESULT 3) := by
  simp [State.lapRun, State.runCode, State.mayStart, State.refuseStart, hr, ht, hp, hg, hs]

/-- A standalone device may start laps where no result of R424 applies. -/
theorem State.mayStart_standalone (h0 : s.chainMode = 0) : s.mayStart = true ↔
    s.lapsRun = false ∧ s.ref.torn = false ∧ s.persona_ = 2 ∧ s.gsr = false ∧ s.scheduleOk s.pos = true := by
  simp [State.mayStart, h0, and_assoc]

theorem State.fetchedWord_mayStart (hm : s.mayStart = true) (h0 : s.chainMode = 0) : (s.fetchedWord e).mayStart = true := by
  have h0' : (s.fetchedWord e).chainMode = 0 := by rw [State.fetchedWord_chainMode, h0]
  rw [State.mayStart_standalone h0']
  simpa using (State.mayStart_standalone h0).mp hm

/-- What LAPRUN with the count `n` writes on a standalone device before laps start. -/
def State.armed (s : State) (n : W64) : State :=
  let s := (s.setReg .LAP_END [] (if n = 0 then 0 else s.lapCount + n)).put F.LAP_STAT.RETRIES 0
  { s with ref := { s.ref with cause := 0 } }

theorem State.lapRun_starts (hm : s.mayStart = true) (h0 : s.chainMode = 0) :
    s.lapRun n = (0, ((s.armed n).beginRun false).put F.LAP_STAT.RESULT 0) := by
  obtain ⟨hr, ht, hp, hg, hs⟩ := (State.mayStart_standalone h0).mp hm
  have hc : s.runCode = 0 := by simp [State.runCode, hr, ht, hp, hg, hs, h0]
  simp [State.lapRun, hc, hm, h0, State.armed]

theorem State.lapStep_running (hr : s.lapsRun = true) : s.lapStep = (false, s) := by simp [State.lapStep, hr]

theorem State.lapStep_starts (hm : s.mayStart = true) (h0 : s.chainMode = 0) : s.lapStep = (true, s.beginRun true) := by
  obtain ⟨hr, -⟩ := (State.mayStart_standalone h0).mp hm
  simp [State.lapStep, hr, hm, h0]

/-- A halt is asked for. -/
def State.stopping (s : State) : State := { s with fab := { s.fab with stopAsked := true } }

theorem State.requestStop_running (hr : s.lapsRun = true) : s.requestStop = s.stopping := by
  simp [State.requestStop, hr, State.stopping]

/-! ### What starting laps changes -/

theorem State.lapsStart_keeps : Keeps s s.lapsStart [.CHAIN_STAT, .TLC_STAT] := by
  have hfab {g : Fabric} : Keeps s { s with fab := g } [.CHAIN_STAT, .TLC_STAT] := .of_regs rfl rfl rfl
  have hphase {s : State} {x : Nat} : Keeps s ((List.range 4).foldl (fun s t => s.put F.TLC_STAT.PHASE x [t]) s)
      [.CHAIN_STAT, .TLC_STAT] := KeepsLaps.toKeeps <| .foldl_mem _ fun _ t ht =>
    .put (by decide) (by simpa [RegName.valid, RegName.place, ixValid, F.TLC_STAT.PHASE] using ht)
  unfold State.lapsStart
  dsimp only
  exact (hfab.trans (.put (f := F.CHAIN_STAT.STATE) (by decide) (by decide))).trans hphase

theorem State.lapsStart_fab :
    s.lapsStart.fab = { s.fab with phase := .gatherDue, firstCause := 0, laterCauses := 0, retries := 0, raised := [] } := by
  simp [State.lapsStart, List.range_succ]
theorem State.lapsStart_ref : s.lapsStart.ref = s.ref := by simp [State.lapsStart, List.range_succ]
theorem State.lapsStart_engines : s.lapsStart.engines = s.engines := by simp [State.lapsStart, List.range_succ]

section
variable (h0 : s.chainMode = 0)
include h0

/-- A standalone device joins no barrier. -/
theorem State.beginRun_standalone : ∃ s', s.beginRun b = s'.lapsStart ∧ s'.fab.single = b ∧ s'.ref = s.ref ∧
    s'.engines = s.engines ∧ Keeps s s' [] := by
  unfold State.beginRun
  dsimp only
  rw [if_pos (by exact h0)]
  exact ⟨_, rfl, rfl, rfl, rfl, .of_regs rfl rfl rfl⟩

theorem State.beginRun_keeps : Keeps s (s.beginRun b) [.CHAIN_STAT, .TLC_STAT] := by
  obtain ⟨s', he, -, -, -, hk⟩ := State.beginRun_standalone (b := b) h0
  rw [he]
  exact (hk.mono (by simp)).trans State.lapsStart_keeps

theorem State.beginRun_phase : (s.beginRun b).fab.phase = .gatherDue := by
  obtain ⟨s', he, -⟩ := State.beginRun_standalone (b := b) h0
  rw [he, State.lapsStart_fab]

theorem State.beginRun_single : (s.beginRun b).fab.single = b := by
  obtain ⟨s', he, hb, -⟩ := State.beginRun_standalone (b := b) h0
  rw [he, State.lapsStart_fab, hb]

theorem State.beginRun_ref : (s.beginRun b).ref = s.ref := by
  obtain ⟨s', he, -, hr, -⟩ := State.beginRun_standalone (b := b) h0
  rw [he, State.lapsStart_ref, hr]

theorem State.beginRun_eng : (s.beginRun b).eng e = s.eng e := by
  obtain ⟨s', he, -, -, hg, -⟩ := State.beginRun_standalone (b := b) h0
  rw [he, State.eng, State.lapsStart_engines, hg, State.eng]

end

theorem State.armed_keeps : Keeps s (s.armed n) [.LAP_END, .LAP_STAT] :=
  (Keeps.setReg (by decide) (by decide)).trans
    (Keeps.trans (.put (f := F.LAP_STAT.RETRIES) (by decide) (by decide)) (.of_regs rfl rfl rfl))

theorem State.armed_chainMode : (s.armed n).chainMode = s.chainMode := by
  have h : (s.armed n).reg .CHAIN_CFG = s.reg .CHAIN_CFG := State.armed_keeps.reg _ _ (by decide) (by decide) (by decide)
  have hf : (s.armed n).fld F.CHAIN_CFG.MODE = s.fld F.CHAIN_CFG.MODE := congrArg (bitsOf · _ _) h
  simp only [State.chainMode, hf]

theorem State.armed_lapEnd : (s.armed n).reg .LAP_END = if n = 0 then 0 else s.lapCount + n :=
  (State.reg_put_ne (s := s.setReg .LAP_END [] _) (f := F.LAP_STAT.RETRIES) (r' := .LAP_END) (by decide) (by decide)
    (by decide)).trans State.reg_setReg

theorem State.armed_retries : (s.armed n).fld F.LAP_STAT.RETRIES = 0 :=
  State.fld_put (s := s.setReg .LAP_END [] _) (f := F.LAP_STAT.RETRIES) (by decide) (by decide)

/-- A standalone device that LAPRUN starts: gather of the first lap is due, and the count, the result and the cause are those of a
new run. -/
theorem State.lapRun_started {u : State} (h0 : s.chainMode = 0) (hu : u = ((s.armed n).beginRun false).put F.LAP_STAT.RESULT 0) :
    Keeps s u [.LAP_END, .LAP_STAT, .TLC_STAT, .CHAIN_STAT] ∧ u.fab.phase = .gatherDue ∧ u.fab.single = false ∧ u.ref.cause = 0 ∧
      u.eng e = s.eng e ∧ u.fld F.LAP_STAT.RESULT = 0 ∧ u.fld F.LAP_STAT.RETRIES = 0 ∧
      u.reg .LAP_END = if n = 0 then 0 else s.lapCount + n := by
  have ha : (s.armed n).chainMode = 0 := State.armed_chainMode.trans h0
  have hk : Keeps (s.armed n) ((s.armed n).beginRun false) [.CHAIN_STAT, .TLC_STAT] := State.beginRun_keeps ha
  subst hu
  refine ⟨?_, ?_, ?_, ?_, ?_, ?_, ?_, ?_⟩
  · exact (State.armed_keeps.mono (by simp)).trans ((hk.mono (by simp)).trans (.put (by decide) (by decide)))
  · rw [State.put_fab, State.beginRun_phase ha]
  · rw [State.put_fab, State.beginRun_single ha]
  · rw [State.put_ref, State.beginRun_ref ha]
    rfl
  · rw [State.eng_put, State.beginRun_eng ha]
    rfl
  · exact State.fld_put (by decide) (by decide)
  · rw [State.fld_put_field (f := F.LAP_STAT.RESULT) (f' := F.LAP_STAT.RETRIES) rfl (by decide) (by decide) (by decide), State.fld,
      hk.reg _ _ (by decide) (by decide) (by decide)]
    exact State.armed_retries
  · rw [State.reg_put_ne (by decide) (by decide) (by decide), hk.reg _ _ (by decide) (by decide) (by decide)]
    exact State.armed_lapEnd

end Sys2Proof.Machine
end

section
/-! Instructions on the lap engine's block (R85, R128, R424): how each of them ends where the block answers. -/

namespace Sys2Proof.Machine

variable {s : State} {e : Eng} {rd ra : Gpr} {c : Instr} {body : State → State} {n v : W64} {u : State} {w : Waiting}
  {P : State → Prop} {op32 : BitVec 32}

/-- The block on T0 answers where it is on and not in reset. -/
theorem State.atT0_served (hf : s.fenced (pdNE 0) = false) (hh : s.towerHeld 0 = false) : s.atT0 e body = (body s).finish := by
  have hspace : spaceOf (RegName.LAP_CTRL.addr []) = .register := by decide
  have hdom : regDomain (RegName.LAP_CTRL.addr []) = pdNE 0 := by decide
  have hep : portOf (engRq e) (RegName.LAP_CTRL.addr []) = ⟨0, routerNo 0 0, 0, pdNE 0⟩ := by
    rw [portOf, endpointOf, hspace]
    simp [RegName.addr, RegName.place, ixOffset]
  have hport : s.portOff ⟨0, routerNo 0 0, 0, pdNE 0⟩ = false := by
    show s.portFenced _ = false
    simp [State.portFenced, hf]
  have hoff : s.targetOff (engRq e) (RegName.LAP_CTRL.addr []) = false := by
    simp [State.targetOff, hep, addrDomain, hspace, hdom, hport]
  have htower : regTower (RegName.LAP_CTRL.addr []) = 0 := by decide
  have hlayer : isMemLayer (RegName.LAP_CTRL.addr []) = false := by decide
  have hheld : s.targetHeld (RegName.LAP_CTRL.addr []) = false := by
    simp [State.targetHeld, hspace, htower, hlayer, hh]
  simp [State.atT0, State.atBlock, hoff, hheld]

/-- An instruction that waited for an answer completes. -/
theorem State.waited_events (hp : (s.eng e).pc ≠ 0xFFF8) :
    OnlyEvents (s.waited e n fun en => en.put rd v) (s.spend.retireWith e rd v (s.cyclesWith n)) :=
  State.retireWith_events (s := s.spend) hp

/-- What every clause about the lap engine's block supposes: the engine issues, not at the last place of its scratchpad, and the
block is on and not in reset. -/
structure LapReach (s : State) (e : Eng) : Prop where
  issues : s.canIssue e = true
  notLast : (s.eng e).pc ≠ 0xFFF8
  on : s.fenced (pdNE 0) = false
  held : s.towerHeld 0 = false

section
variable (h : LapReach s e) (hx : exec c s = issue e s fun s => s.atT0 e body)
include h hx

theorem exec_atT0 : exec c s = .next ((body (s.fetchedWord e)).finish.settleEnd s e) := by
  rw [hx, issue, if_pos h.issues,
    State.atT0_served (by rw [State.fetchedWord_fenced (by decide), h.on]) (by rw [State.fetchedWord_towerHeld, h.held])]

/-- The instruction answers `v`, and completes after `n` cycles of its own. -/
theorem exec_answers (hb : body (s.fetchedWord e) = u.endWait e rd v n) (hu : (u.eng e).pc = ((s.fetchedWord e).eng e).pc) :
    ∃ x, exec c s = .next (s.afterWait e x) ∧ OnlyEvents (u.waited e n fun en => en.put rd v) x := by
  refine ⟨u.spend.retireWith e rd v (u.cyclesWith n), ?_, State.waited_events ?_⟩
  · rw [exec_atT0 h hx, hb, State.endWait, State.afterWait]
  · rw [hu, State.fetchedWord_pc]
    exact h.notLast

/-- The instruction waits. -/
theorem completes_waitIn (hb : body (s.fetchedWord e) = u.waitIn e w) (hP : P (u.waitIn e w)) :
    Completes (fun u => u.finish.settleEnd s e) c s fun u =>
      P u ∧ (u.eng e).state = .waiting ∧ (u.eng e).waiting = some w := by
  refine ⟨_, by rw [exec_atT0 h hx, hb], hP, ?_, ?_⟩
  · rw [State.waitIn, State.eng_onEng]
  · rw [State.waitIn, State.eng_onEng]
end

/-! ### LAPSTOP, LAPSTAT and LAPSTEP -/

section
variable (h : LapReach s e)
include h

theorem exec_lapStop_idle (hr : s.lapsRun = false) :
    RunsThen (s.afterWait e) (.lapStop e rd op32) s e fun s => s.waited e 8 fun en => en.put rd 1 :=
  exec_answers h rfl (by simp [hr]) rfl

theorem exec_lapStop_running (hr : s.lapsRun = true) (hw : op32.getLsbD 0 = false) :
    RunsThen (s.afterWait e) (.lapStop e rd op32) s e fun s =>
      s.stopping.waited e 8 fun en => en.put rd 0 :=
  exec_answers h rfl (by simp [hr, show bit op32 0 = _ from hw, State.requestStop_running]) rfl

theorem exec_lapStop_waits (hr : s.lapsRun = true) (hw : op32.getLsbD 0 = true) :
    Completes (fun u => u.finish.settleEnd s e) (.lapStop e rd op32) s fun u =>
      u.fab.stopAsked = true ∧ (u.eng e).state = .waiting ∧ (u.eng e).waiting = some (.lapStop rd 0) :=
  completes_waitIn (u := (s.fetchedWord e).stopping) h rfl
    (by simp [hr, show bit op32 0 = _ from hw, State.requestStop_running]) rfl

theorem exec_lapStatOf (hw : op32 = 0 ∨ op32 = 1) :
    RunsThen (s.afterWait e) (.lapStat e rd op32) s e fun u =>
      u.waited e 4 fun en => en.put rd (if op32 = 0 then s.lapStatus else s.lapCount) := by
  have hle : ¬ 1 < op32.toNat := by obtain rfl | rfl := hw <;> decide
  have hx : exec (.lapStat e rd op32) s = issue e s fun s => s.atT0 e fun s =>
      s.endWait e rd (if op32 = 0 then s.lapStatus else s.lapCount) 4 := by
    show issue e s (fun s => s.lapStat e rd op32) = _
    simp only [State.lapStat, hle, if_false]
  exact exec_answers h hx (by rw [State.fetchedWord_lapStatus, State.fetchedWord_lapCount]) rfl

theorem exec_lapStat_status :
    RunsThen (s.afterWait e) (.lapStat e rd 0) s e fun u => u.waited e 4 fun en => en.put rd s.lapStatus :=
  exec_lapStatOf h (op32 := 0) (.inl rfl)

theorem exec_lapStat_count :
    RunsThen (s.afterWait e) (.lapStat e rd 1) s e fun u => u.waited e 4 fun en => en.put rd s.lapCount :=
  exec_lapStatOf h (op32 := 1) (.inr rfl)

theorem exec_lapStatCount :
    RunsThen (s.afterWait e) (.lapStatCount e rd) s e fun u => u.waited e 4 fun en => en.put rd s.lapCount :=
  exec_lapStat_count h

theorem exec_lapStep_running (hr : s.lapsRun = true) :
    RunsThen (s.afterWait e) (.lapStep e rd) s e fun u => u.waited e 8 fun en => en.put rd s.lapStatus :=
  exec_answers h rfl (by simp [hr, State.lapStep_running]) rfl

/-- LAPSTEP of a standalone device starts one lap and waits for it. -/
theorem exec_lapStep_starts (hm : s.mayStart = true) (h0 : s.chainMode = 0) :
    Completes (fun u => u.finish.settleEnd s e) (.lapStep e rd) s fun u =>
      ((u.fab.phase = .gatherDue ∧ Keeps (s.fetchedWord e) u [.LAP_END, .LAP_STAT, .TLC_STAT, .CHAIN_STAT]) ∧
        u.fab.single = true) ∧ (u.eng e).state = .waiting ∧ (u.eng e).waiting = some (.lapStep rd) := by
  have h0' : (s.fetchedWord e).chainMode = 0 := by simpa using h0
  have hkeeps : Keeps ((s.fetchedWord e).beginRun true) (((s.fetchedWord e).beginRun true).waitIn e (.lapStep rd)) [] :=
    .of_regs rfl rfl rfl
  refine completes_waitIn (u := (s.fetchedWord e).beginRun true) h rfl ?_ ⟨⟨?_, ?_⟩, ?_⟩
  · simp only [State.lapStep_starts (State.fetchedWord_mayStart hm h0) h0']
  · exact State.beginRun_phase h0'
  · exact ((State.beginRun_keeps h0').mono (by simp)).trans (hkeeps.mono (by simp))
  · exact State.beginRun_single h0'

/-! ### LAPRUN -/

/-- LAPRUN with result `k`, whose effect is `g`. -/
theorem exec_lapRun {k : Nat} (g : State → State)
    (hl : (s.fetchedWord e).lapRun ((s.eng e).get ra) = (k, g (s.fetchedWord e)))
    (hg : ((g (s.fetchedWord e)).eng e).pc = ((s.fetchedWord e).eng e).pc) :
    RunsThen (s.afterWait e) (.lapRun e rd ra) s e fun u => (g u).waited e 8 fun en => en.put rd (codeOf k) :=
  exec_answers h rfl (by simp only [State.fetchedWord_get, hl]) hg

theorem exec_lapRun_running (hr : s.lapsRun = true) :
    RunsThen (s.afterWait e) (.lapRun e rd ra) s e fun u =>
      (u.put F.LAP_STAT.RESULT 1).waited e 8 fun en => en.put rd 1 :=
  exec_lapRun h (State.put · F.LAP_STAT.RESULT 1) (State.lapRun_running (by simpa using hr)) rfl

theorem exec_lapRun_torn (hr : s.lapsRun = false) (ht : s.ref.torn = true) :
    RunsThen (s.afterWait e) (.lapRun e rd ra) s e fun u =>
      (u.put F.LAP_STAT.RESULT 4).waited e 8 fun en => en.put rd 4 :=
  exec_lapRun h (State.put · F.LAP_STAT.RESULT 4) (State.lapRun_torn (by simpa using hr) (by simpa using ht)) rfl

theorem exec_lapRun_notActive (hr : s.lapsRun = false) (ht : s.ref.torn = false) (ha : s.persona_ ≠ 2 ∨ s.gsr = true) :
    RunsThen (s.afterWait e) (.lapRun e rd ra) s e fun u =>
      (u.put F.LAP_STAT.RESULT 2).waited e 8 fun en => en.put rd 2 :=
  exec_lapRun h (State.put · F.LAP_STAT.RESULT 2)
    (State.lapRun_notActive (by simpa using hr) (by simpa using ht) (by simpa using ha)) rfl

theorem exec_lapRun_invalid (hr : s.lapsRun = false) (ht : s.ref.torn = false) (hp : s.persona_ = 2) (hg : s.gsr = false)
    (hs : s.scheduleOk s.pos = false) :
    RunsThen (s.afterWait e) (.lapRun e rd ra) s e fun u =>
      (({ u with ref := { u.ref with cause := 0x0B } } : State).put F.LAP_STAT.RESULT 3).waited e 8 fun en => en.put rd 3 :=
  exec_lapRun h (fun u => ({ u with ref := { u.ref with cause := 0x0B } } : State).put F.LAP_STAT.RESULT 3)
    (State.lapRun_invalid (by simpa using hr) (by simpa using ht) (by simpa using hp) (by simpa using hg) (by simpa using hs)) rfl

/-- LAPRUN of a standalone device. -/
theorem exec_lapRun_starts (hm : s.mayStart = true) (h0 : s.chainMode = 0) :
    Completes (s.afterWait e) (.lapRun e rd ra) s fun u =>
      (u.fab.phase = .gatherDue ∧ Keeps (s.fetchedWord e) u [.LAP_END, .LAP_STAT, .TLC_STAT, .CHAIN_STAT]) ∧
        u.fab.single = false ∧ u.ref.cause = 0 ∧ u.fld F.LAP_STAT.RESULT = 0 ∧ u.fld F.LAP_STAT.RETRIES = 0 ∧
        (rd ≠ 0 → (u.eng e).get rd = 0) ∧
        u.reg .LAP_END [] = if (s.eng e).get ra = 0 then 0 else s.lapCount + (s.eng e).get ra := by
  have h0' : (s.fetchedWord e).chainMode = 0 := by simpa using h0
  obtain ⟨v, hv⟩ : ∃ v, v = (((s.fetchedWord e).armed ((s.eng e).get ra)).beginRun false).put F.LAP_STAT.RESULT 0 := ⟨_, rfl⟩
  obtain ⟨hk, hphase, hsingle, hcause, heng, hresult, hretries, hend⟩ := State.lapRun_started (e := e) h0' hv
  obtain ⟨u, hu, hev⟩ := exec_lapRun (rd := rd) h (fun _ => v)
    (hv ▸ State.lapRun_starts (State.fetchedWord_mayStart hm h0) h0') (congrArg Engine.pc heng)
  have hwaited : Keeps v (v.waited e 8 fun en => en.put rd (codeOf 0)) [] := .of_regs rfl rfl rfl
  refine ⟨u, hu, ⟨?_, ?_⟩, ?_, ?_, ?_, ?_, ?_, ?_⟩
  · rw [hev.fab]
    exact hphase
  · exact hk.trans ((hwaited.mono (by simp)).trans (.of_onlyEvents hev))
  · rw [hev.fab]
    exact hsingle
  · rw [hev.ref]
    exact hcause
  · rw [hev.fld (by decide) (by decide)]
    exact hresult
  · rw [hev.fld (by decide) (by decide)]
    exact hretries
  · intro hrd
    have hget : ((v.waited e 8 fun en => en.put rd (codeOf 0)).eng e).get rd = (((v.eng e).put rd (codeOf 0)).get rd) := by
      rw [State.waited, State.eng_onEng]
      rfl
    rw [Engine.own_get (hev.eng e), hget, Engine.get_put, if_pos ⟨rfl, hrd⟩]
    rfl
  · rw [hev.reg _ _ (by decide) (by decide)]
    exact hend.trans (by rw [State.fetchedWord_lapCount])

end

/-- Settles O14: the laws above, one for each instruction and result. -/
theorem lapInstructions : Obligations.LapInstructions := by
  unfold Obligations.LapInstructions
  intro s e rd ra op32 hc hp hf hh
  have h : LapReach s e := ⟨hc, hp, hf, hh⟩
  exact ⟨exec_lapStop_idle h, exec_lapStop_running h, exec_lapStop_waits h, exec_lapStat_status h, exec_lapStat_count h,
    exec_lapStatCount h, exec_lapStep_running h, exec_lapRun_running h, exec_lapRun_torn h, exec_lapRun_notActive h,
    exec_lapRun_invalid h, fun hm h0 => ⟨exec_lapStep_starts h hm h0, exec_lapRun_starts h hm h0⟩⟩

end Sys2Proof.Machine
end

section
/-! SUPPORT. What an operation may write of the registers, whatever else it changes: pushes by the device's own producers, trace
records, and the activation of a staged image (R117, R154, R187). -/

namespace Sys2Proof.Machine

variable {s t u : State} {r : RegName} {rs rs' : List RegName} {ix : List Nat} {f : Fld} {v : W64} {n : Nat}

/-- Every register but those of `rs` keeps its value; of design memory, where a push leaves its item, nothing is said. -/
def KeepsRegs (s t : State) (rs : List RegName) : Prop :=
  ∀ r ix, r.valid ix = true → r ∉ rs → t.reg r ix = s.reg r ix

theorem KeepsRegs.of_regs (h : t.regs = s.regs) : KeepsRegs s t rs := fun _ _ _ _ => by rw [State.reg, h, State.reg]

theorem KeepsRegs.refl : KeepsRegs s s rs := .of_regs rfl

theorem KeepsRegs.trans (h : KeepsRegs s t rs) (k : KeepsRegs t u rs) : KeepsRegs s u rs :=
  fun r ix hi hr => (k r ix hi hr).trans (h r ix hi hr)

theorem KeepsRegs.mono (h : KeepsRegs s t rs) (hs : rs ⊆ rs') : KeepsRegs s t rs' :=
  fun r ix hi hr => h r ix hi fun hm => hr (hs hm)

theorem KeepsRegs.setReg (hr : r ∈ rs) (hi : r.valid ix = true) : KeepsRegs s (s.setReg r ix v) rs :=
  fun _ _ hi' hr' => State.reg_setReg_ne (fun h => hr' (h ▸ hr)) hi hi'

theorem KeepsRegs.put (hr : f.reg ∈ rs) (hi : f.reg.valid ix = true) : KeepsRegs s (s.put f n ix) rs := .setReg hr hi

theorem KeepsRegs.count (hr : f.reg ∈ rs) (hi : f.reg.valid ix = true) : KeepsRegs s (s.count f ix n) rs := .put hr hi

theorem KeepsRegs.of_onlyEvents (h : OnlyEvents s t) (hs : eventRegs ⊆ rs) : KeepsRegs s t rs :=
  fun r ix hi hr => h.reg r ix hi fun hm => hr (hs hm)

theorem KeepsRegs.foldl_mem {α : Type} {g : State → α → State} (l : List α)
    (h : ∀ s, ∀ a ∈ l, KeepsRegs s (g s a) rs) : KeepsRegs s (l.foldl g s) rs := by
  induction l generalizing s with
  | nil => exact .refl
  | cons a l ih => exact (h s a (by simp)).trans (ih fun s b hb => h s b (by simp [hb]))

/-! ### Pushes (R187, R188, R191) -/

/-- The registers that a push may write: those of the queue, and what its events bring with them. -/
def pushRegs : List RegName := [.Q_STAT, .Q_SEQ] ++ eventRegs

section
variable {q : Nat} {x : Item} {lines : List Nat} (hq : q < 8192)

theorem State.memStore_regs {a : Nat} {w : Quad} : (s.memStore a w).regs = s.regs := by
  unfold State.memStore
  dsimp only
  split <;> split <;> rfl

theorem State.storeItem_keepsRegs : KeepsRegs s (s.storeItem q x lines) rs := by
  unfold State.storeItem
  dsimp only
  exact (KeepsRegs.foldl_mem _ fun _ _ _ => .of_regs State.memStore_regs).trans (.of_regs rfl)

include hq

theorem queue_valid : RegName.Q_STAT.valid [q] = true ∧ RegName.Q_SEQ.valid [q] = true := by
  simp [RegName.valid, RegName.place, ixValid, hq]

theorem State.setCredits_keepsRegs : KeepsRegs s (s.setCredits q n) pushRegs :=
  (KeepsRegs.put (f := F.Q_STAT.CREDITS) (by decide) (queue_valid hq).1).trans (.of_regs rfl)

theorem State.grant_keepsRegs : KeepsRegs s (s.grant q n) pushRegs := State.setCredits_keepsRegs hq

theorem State.watermark_keepsRegs : KeepsRegs s (s.watermark q) pushRegs := by
  have hput {b : Bool} : KeepsRegs s (s.put F.Q_STAT.HIGH (b2n b) [q]) pushRegs := .put (by decide) (queue_valid hq).1
  have hevents {s t : State} (h : OnlyEvents s t) : KeepsRegs s t pushRegs := .of_onlyEvents h (by simp [pushRegs])
  unfold State.watermark
  dsimp only
  split
  · split
    · exact hput.trans (hevents (OnlyEvents.edge.trans .hostEvent))
    · exact hput.trans (hevents .edge)
  · split
    · split
      · exact hput.trans (hevents (OnlyEvents.edge.trans .hostEvent))
      · exact hput.trans (hevents .edge)
    · exact hput

theorem State.appendItem_keepsRegs : KeepsRegs s (s.appendItem q x lines) pushRegs :=
  State.storeItem_keepsRegs.trans
    (KeepsRegs.trans (.put (f := F.Q_SEQ.TAIL) (by decide) (queue_valid hq).2) (State.watermark_keepsRegs hq))

theorem State.pushCell_keepsRegs : KeepsRegs s (s.pushCell q x lines) pushRegs :=
  (State.setCredits_keepsRegs hq).trans (State.appendItem_keepsRegs hq)

theorem State.autoPush_keepsRegs (h : s.autoPush q x = some t) : KeepsRegs s t pushRegs := by
  unfold State.autoPush at h
  have hgrant : KeepsRegs s (if s.credits q = 0 then s.grant q 1 else s) pushRegs := by
    split
    · exact State.grant_keepsRegs hq
    · exact .refl
  dsimp only at h
  generalize (if s.credits q = 0 then s.grant q 1 else s) = g at h hgrant
  split at h
  · simp at h
  · cases h
    exact hgrant.trans (State.pushCell_keepsRegs hq)
end

/-! ### Trace records (R154) -/

/-- The registers that a trace record may write. -/
def traceRegs : List RegName := .TRACE_STAT :: pushRegs

theorem State.trace_keepsRegs {tw ev kind entry : Nat} {lap data : W64} (ht : tw < 4) :
    KeepsRegs s (s.trace tw ev kind entry lap data) traceRegs := by
  have hcount {s : State} {f : Fld} (hf : f.reg = .TRACE_STAT) : KeepsRegs s (s.count f [tw]) traceRegs :=
    .count (by simp [hf, traceRegs]) (by simp [hf, RegName.valid, RegName.place, ixValid, ht])
  unfold State.trace
  dsimp only
  split
  · exact .refl
  · split
    · split
      · have hpush := State.autoPush_keepsRegs (bitsOf_lt _ _ _) ‹_›
        exact ((KeepsRegs.of_regs rfl).trans (hpush.mono (by simp [traceRegs]))).trans (hcount rfl)
      · exact (KeepsRegs.of_regs rfl).trans (hcount rfl)
    · exact hcount rfl

theorem State.traceLast_keepsRegs {ev : Nat} {data : Nat → W64} : KeepsRegs s (s.traceLast ev data) traceRegs :=
  .foldl_mem _ fun _ _ ht => State.trace_keepsRegs (List.mem_range.mp ht)

/-! ### The activation of a staged image (R112, R116, R117) -/

theorem State.store_keepsRegs (hr : r ∈ rs) (hi : r.valid ix = true) : KeepsRegs s (s.store r ix .full v) rs := .setReg hr hi

theorem State.installSetup_keepsRegs {x : LapSetup} : KeepsRegs s (s.installSetup x) [.LAP_KIND, .LAP_SCHED] := by
  have hstore {r : RegName} {n : Nat} {w : Nat → W64} (hr : r ∈ [RegName.LAP_KIND, .LAP_SCHED])
      (hi : ∀ k < n, r.valid [k] = true) {s : State} :
      KeepsRegs s ((List.range n).foldl (fun s k => s.store r [k] .full (w k)) s) [.LAP_KIND, .LAP_SCHED] :=
    .foldl_mem _ fun _ k hk => State.store_keepsRegs hr (hi k (List.mem_range.mp hk))
  unfold State.installSetup
  dsimp only
  refine (hstore (by decide) fun k hk => ?_).trans ((hstore (by decide) fun k hk => ?_).trans (.of_regs rfl))
  · simp [RegName.valid, RegName.place, ixValid, hk]
  · simp [RegName.valid, RegName.place, ixValid, hk]

theorem State.setPersonaId_keepsRegs {root : BitVec 384} : KeepsRegs s (s.setPersonaId root) [.PERSONA_ID] :=
  .foldl_mem _ fun _ i hi => .setReg (by decide) (by simpa [RegName.valid, RegName.place, ixValid] using hi)

theorem State.recordActivation_regs {root : BitVec 384} {b : Bool} : (s.recordActivation root n b).regs = s.regs := rfl

/-- The registers that the activation of a staged image may write. -/
def stagedRegs : List RegName :=
  [.LAP_KIND, .LAP_SCHED, .SCHED_STAT, .LOAD_STAT, .ACT_LAP, .PERSONA_ID] ++ traceRegs

theorem State.activateStaged_keepsRegs : KeepsRegs s s.activateStaged stagedRegs := by
  unfold State.activateStaged
  extract_lets swapped installed root unstaged log cleared flushed traced
  have hswap : KeepsRegs s swapped stagedRegs := .foldl_mem _ fun _ _ _ => .of_regs rfl
  have hinstall : KeepsRegs swapped installed stagedRegs := by
    dsimp only [installed]
    split
    · exact (State.installSetup_keepsRegs.mono (by decide)).trans (.put (by decide) (by decide))
    · exact .refl
  have hclear : KeepsRegs installed cleared stagedRegs := .of_regs rfl
  have hflush : KeepsRegs cleared flushed stagedRegs :=
    KeepsRegs.trans (.put (f := F.LOAD_STAT.STAGED) (by decide) (by decide))
      (KeepsRegs.trans (.put (f := F.LOAD_STAT.ACT_PENDING) (by decide) (by decide)) (.of_regs rfl))
  have htrace : KeepsRegs flushed traced stagedRegs := State.traceLast_keepsRegs.mono (by decide)
  have hid : KeepsRegs traced ((traced.setReg .ACT_LAP [] traced.lapCount).setPersonaId root) stagedRegs :=
    KeepsRegs.trans (.setReg (by decide) (by decide)) (State.setPersonaId_keepsRegs.mono (by decide))
  exact hswap.trans (hinstall.trans (hclear.trans (hflush.trans
    (htrace.trans (hid.trans (.of_regs State.recordActivation_regs))))))

theorem State.activationByCount_keepsRegs : KeepsRegs s s.activationByCount stagedRegs := by
  have hlate {n : Nat} : KeepsRegs s (s.put F.LOAD_STAT.LATE n) stagedRegs := .put (by decide) (by decide)
  unfold State.activationByCount
  dsimp only
  split
  · exact .refl
  · split
    · exact hlate.trans State.activateStaged_keepsRegs
    · exact hlate

/-- The test of a pending activation leaves the lap count as written. -/
theorem State.activationByCount_lapCount : s.activationByCount.lapCount = s.lapCount :=
  State.activationByCount_keepsRegs _ _ (by decide) (by decide)

theorem State.activationByCount_of_not_pending (h : s.flag F.LOAD_STAT.ACT_PENDING = false) : s.activationByCount = s := by
  simp [State.activationByCount, h]

/-! ### The schedule (R65) -/

theorem State.lastEntry_le {i : Nat} (hi : i < 64) (h : s.flag F.LAP_SCHED.LAST [i] = true) : s.lastEntry ≤ i := by
  unfold State.lastEntry
  cases hf : (List.range 64).find? fun i => s.flag F.LAP_SCHED.LAST [i] with
  | none => exact absurd h (List.find?_eq_none.mp hf i (List.mem_range.mpr hi))
  | some k =>
    by_contra hk
    exact absurd h (by simpa using (List.find?_range_eq_some.mp hf).2.2 i (by simpa using hk))

/-- Laps do not start at an entry beyond the first with LAST. -/
theorem State.mayStart_beyond_last {i : Nat} (hi : i < 64) (hp : i < s.pos) (h : s.flag F.LAP_SCHED.LAST [i] = true) :
    s.mayStart = false := by
  have hlast : ¬ s.pos ≤ s.lastEntry := by have := State.lastEntry_le hi h; omega
  simp [State.mayStart, State.scheduleOk, hlast]

end Sys2Proof.Machine
end

section
/-! SUPPORT. A command that is a write of one register of register space, where its block answers: the way from the sender to
`State.writeReg` and back (R8, R9, R210, R216), and what of it the registers of the lap engine and the loader need. -/

namespace Sys2Proof.Machine

variable {s u : State} {rq : Rq} {role : Role} {r : RegName} {ix : List Nat} {v : W64} {c : Instr} {x : Resp}
  {f : State → State}

/-! ### From the sender to the block and back -/

theorem placed_full : placed .full (v.setWidth 2048 : Payload) = v := by
  rw [placed, BitVec.toNat_setWidth_of_le (by decide), BitVec.ofNat_toNat, BitVec.setWidth_eq]

theorem State.countDenied_of_ne {d : Payload} (hx : x ≠ .roleDenied) : State.countDenied (.done x d, s) = (.done x d, s) := by
  unfold State.countDenied
  split
  · simp_all
  · rfl

/-- A copy that exists, in register space, at its own address, outside the routers (whose writes wait). -/
structure Addressed (r : RegName) (ix : List Nat) : Prop where
  valid : r.valid ix = true
  shown : shadowed r ix = false
  assigned : copyAssigned r ix = true
  space : spaceOf (r.addr ix) = .register
  atOnce : r ≠ .ROUTER_CFG

section
variable (ha : Addressed r ix)
include ha

theorem Addressed.target : targetAt (r.addr ix / 8 * 8) = some (.reg r ix) := by
  rw [Nat.div_mul_cancel (Nat.dvd_of_mod_eq_zero (addr_words r ix)), targetAt_addr ha.valid ha.shown ha.assigned]

theorem Addressed.arrives (h : Reaches s rq role (r.addr ix)) {d : Payload} :
    s.arrive rq role .bus (.write d) (r.addr ix) 8 = none := by
  have hform : formRefusal rq (.write d) (r.addr ix) 8 = none := by
    simp [formRefusal, ha.space, isAdd, narrowOk, addr_words]
  have hassigned : Machine.assigned rq (.write d) (r.addr ix) 8 = true := by
    simp [Machine.assigned, ha.space, ha.target]
  simp [State.arrive, hform, hassigned, h.on]

theorem Addressed.serveReg_write : s.serveReg rq role .bus (.write (v.setWidth 2048)) (r.addr ix) 8 =
    (.done (s.writeReg rq role r ix .full v).1 0, (s.writeReg rq role r ix .full v).2) := by
  simp only [State.serveReg, ha.target, halfOfAccess, ReqOp.isWrite, ReqOp.data, placed_full, if_true]
  split
  · exact absurd rfl ha.atOnce
  · rfl

theorem Addressed.serve_write (h : Reaches s rq role (r.addr ix))
    (hw : (s.touchGate (r.addr ix)).writeReg rq role r ix .full v = (x, u)) (hx : x ≠ .roleDenied) :
    s.serve rq role .bus (.write (v.setWidth 2048)) (r.addr ix) 8 = (.done x 0, u) := by
  have hnow : s.serveNow rq role .bus (.write (v.setWidth 2048)) (r.addr ix) 8 = (.done x 0, u) := by
    simp [State.serveNow, ha.space, isPush, ha.serveReg_write, hw]
  simp [State.serve, ha.arrives h, State.serveOn, h.held, hnow, State.countDenied_of_ne hx]

theorem Addressed.busReg_accepted (h : Reaches s rq role (r.addr ix))
    (hw : (s.touchGate (r.addr ix)).writeReg rq role r ix .full v = (.ok, u)) :
    s.busReg rq r ix v = (u.answer rq false .ok 0 0).finish := by
  simp [State.busReg, State.request, h.role, ha.serve_write h hw, State.respond]

theorem Addressed.busReg_notOwned (h : Reaches s rq role (r.addr ix))
    (hw : (s.touchGate (r.addr ix)).writeReg rq role r ix .full v = (.bankNotOwned, u)) :
    s.busReg rq r ix v = (u.answer rq false .bankNotOwned 0 0).finish := by
  simp [State.busReg, State.request, h.role, ha.serve_write h hw, State.respond, State.refuse]
end

/-! ### The registers of the lap engine and the loader -/

/-- The registers of the lap engine and the loader, on tower 0, that the commands of this part write. -/
def lapRegs : List RegName :=
  [.LAP_CTRL, .LAP_COUNT, .LAP_POS, .LAP_KIND, .LAP_SCHED, .ACT_AT, .LOAD_CTRL, .TRIG_CTRL, .TRIG_ADDR, .TRIG_MASK, .TRIG_VALUE,
    .LOG_CTRL, .BENCH]

/-- The same, with the trace control of each tower. -/
def lapAndTraceRegs : List RegName := .TRACE_CTRL :: lapRegs

theorem RegName.addr_bounds (hv : r.valid ix = true) : r.place.1 ≤ r.addr ix ∧ r.addr ix ≤ r.place.1 + ixExt r.place.2 := by
  have := ixOffset_le hv
  simp only [RegName.addr]
  omega

theorem addressed_of_mem (hr : r ∈ lapAndTraceRegs) (hv : r.valid ix = true) : Addressed r ix := by
  have hplace : ∀ r ∈ lapAndTraceRegs, (r ≠ .POOL_BANK ∧ r ≠ .PACER ∧ r ≠ .ROUTER_CFG) ∧
      0x030000000000 ≤ r.place.1 ∧ r.place.1 + ixExt r.place.2 < 0x030500000000 := by decide
  obtain ⟨⟨hpool, hpacer, hrouter⟩, hlow, hhigh⟩ := hplace r hr
  have hbounds := RegName.addr_bounds hv
  refine ⟨hv, by simp [shadowed, hpool], ?_, ?_, hrouter⟩
  · unfold copyAssigned
    split
    · exact absurd rfl hpacer
    · rfl
  · unfold spaceOf
    rw [if_neg (by omega), if_neg (by omega), if_neg (by omega), if_pos (by omega)]

/-- The lap engine and the loader have no clock gate (R319). -/
theorem touchGate_lapReg (hr : r ∈ lapRegs) (hv : r.valid ix = true) : s.touchGate (r.addr ix) = s := by
  have hplace : ∀ r ∈ lapRegs, 0x030000900000 ≤ r.place.1 ∧ r.place.1 + ixExt r.place.2 < 0x030000A00000 := by decide
  have hbounds := RegName.addr_bounds hv
  obtain ⟨hlow, hhigh⟩ := hplace r hr
  have hgate : gateOfAddr (r.addr ix) = none := by
    have ho : r.addr ix - 0x030000000000 < 0x1000000 := by omega
    have hb : (r.addr ix - 0x030000000000) / 0x100000 ≠ 4 := by omega
    simp [gateOfAddr, (addressed_of_mem (.tail _ hr) hv).space, ho, hb]
  simp [State.touchGate, hgate]

/-- Every role may write these registers, but for TRACE_CTRL under the operator (R155). -/
theorem writeRight_of_mem (hr : r ∈ lapAndTraceRegs) (hrole : r = .TRACE_CTRL → role ≠ .operator) :
    s.writeRight role r ix .full v = true := by
  obtain rfl | hlap := List.mem_cons.mp hr
  · simp [State.writeRight, counterUnit, State.unitWritable, hrole rfl]
  · fin_cases hlap <;> rfl

/-- A write that the role allows has the block's own answer, and the black box records none of them (R287). -/
theorem writeReg_of_mem (hr : r ∈ lapAndTraceRegs) (hrole : r = .TRACE_CTRL → role ≠ .operator) :
    s.writeReg rq role r ix .full v = s.writeLapReg r ix .full v := by
  have hslot : s.slotDenies rq r ix = false := by fin_cases hr <;> rfl
  have hrecord : s.writeRecorded r ix .full v = false := by fin_cases hr <;> rfl
  have heffect : s.writeEffect rq role r ix .full v = s.writeLapReg r ix .full v := by fin_cases hr <;> rfl
  simp only [State.writeReg, writeRight_of_mem hr hrole, hslot, hrecord, heffect, Bool.not_true, Bool.false_eq_true, if_false]
  obtain ⟨x, t⟩ := s.writeLapReg r ix .full v
  cases x <;> rfl

theorem ne_traceCtrl_of_mem (hr : r ∈ lapRegs) : r ≠ .TRACE_CTRL := by
  rintro rfl
  exact absurd hr (by decide)

section
variable (hv : r.valid ix = true) (h : Reaches s rq role (r.addr ix)) (hx : exec c s = .next (s.busReg rq r ix v))
include hv h hx

theorem writes_of_mem (hr : r ∈ lapAndTraceRegs) (hrole : r = .TRACE_CTRL → role ≠ .operator)
    (hw : (s.touchGate (r.addr ix)).writeLapReg r ix .full v = (.ok, f (s.touchGate (r.addr ix)))) : Writes c s rq r ix f := by
  rw [Writes, hx, (addressed_of_mem hr hv).busReg_accepted h ((writeReg_of_mem hr hrole).trans hw)]

theorem writes_lapReg (hr : r ∈ lapRegs) (hw : s.writeLapReg r ix .full v = (.ok, f s)) : Writes c s rq r ix f :=
  writes_of_mem hv h hx (.tail _ hr) (absurd · (ne_traceCtrl_of_mem hr)) (by rwa [touchGate_lapReg hr hv])

theorem refuses_lapReg (hr : r ∈ lapRegs) (hw : s.writeLapReg r ix .full v = (.bankNotOwned, s)) :
    RefusesWrite c s rq r ix .bankNotOwned := by
  have hg := touchGate_lapReg (s := s) hr hv
  have hreg : (s.touchGate (r.addr ix)).writeReg rq role r ix .full v = (.bankNotOwned, s) := by
    rw [hg, writeReg_of_mem (.tail _ hr) (absurd · (ne_traceCtrl_of_mem hr)), hw]
  rw [RefusesWrite, hx, (addressed_of_mem (.tail _ hr) hv).busReg_notOwned h hreg, hg]
end

end Sys2Proof.Machine
end

section
/-! Commands that write a register of the lap engine or the loader (R67, R117, R123, R129, R137, R138, R148, R154): what the block
does with each write. -/

namespace Sys2Proof.Machine

variable {s : State} {rq : Rq} {role : Role} {r : RegName} {ix : List Nat} {v : W64} {c : Instr} {h : Half}

/-! ### What the block does with each write -/

theorem State.requestStop_halted (hr : s.lapsRun = false) : s.requestStop = s := by simp [State.requestStop, hr]

theorem State.writeStop : s.writeLapReg .LAP_CTRL [] .full 2 = (.ok, s.requestStop) := by
  have hclr : wrote F.LAP_CTRL.CLR_TORN .full 2 = false := by decide
  have hstop : wrote F.LAP_CTRL.STOP .full 2 = true := by decide
  simp only [State.writeLapReg, State.writeLapCtrl, hclr, hstop, Bool.false_and, Bool.false_eq_true, if_false, if_true]

theorem State.writeClrTorn : s.writeLapReg .LAP_CTRL [] .full 1 =
    (.ok, if s.lapsRun = true then s else { s with ref := { s.ref with torn := false } }) := by
  have hclr : wrote F.LAP_CTRL.CLR_TORN .full 1 = true := by decide
  have hstop : wrote F.LAP_CTRL.STOP .full 1 = false := by decide
  cases hr : s.lapsRun <;>
    simp only [State.writeLapReg, State.writeLapCtrl, hclr, hstop, hr, Bool.not_true, Bool.not_false, Bool.and_self, Bool.and_false,
      Bool.false_eq_true, if_false, if_true]

/-- The registers that take writes while laps are halted alone (R67, R129). -/
def haltedRegs : List RegName := [.LAP_COUNT, .LAP_POS, .LAP_KIND, .LAP_SCHED]

theorem State.writeLapReg_running (hm : r ∈ haltedRegs) (hr : s.lapsRun = true) :
    s.writeLapReg r ix h v = (.bankNotOwned, s) := by
  fin_cases hm <;> simp [State.writeLapReg, State.writeLapCount, State.writeLapPos, State.writeHalted, hr]

theorem full_mask (m : Nat) : BitVec.ofNat 64 (m &&& Half.full.mask) = BitVec.ofNat 64 m := by
  rw [Half.mask, Nat.and_two_pow_sub_one_eq_mod]
  exact BitVec.eq_of_toNat_eq (by simp)

theorem mergeWrite_lapCount {old : W64} : mergeWrite .LAP_COUNT .full old v = v := by
  have hrw : BitVec.ofNat 64 (RegName.LAP_COUNT.mask [.rw]) = BitVec.allOnes 64 := by decide
  have hw1c : BitVec.ofNat 64 (RegName.LAP_COUNT.mask [.w1c]) = 0#64 := by decide
  simp only [mergeWrite, full_mask, hrw, hw1c, BitVec.not_allOnes, BitVec.and_zero, BitVec.zero_or, BitVec.and_allOnes, BitVec.not_zero]

theorem State.writeLapCount_halted (hr : s.lapsRun = false) :
    s.writeLapReg .LAP_COUNT [] .full v = (.ok, (s.setReg .LAP_COUNT [] v).activationByCount) := by
  simp [State.writeLapReg, State.writeLapCount, hr, State.store, State.merged, mergeWrite_lapCount]

theorem State.writeLapPos_halted (hr : s.lapsRun = false) :
    s.writeLapReg .LAP_POS [] .full v = (.ok, s.put F.SCHED_STAT.POS (bitsOf v F.LAP_POS.POS.hi F.LAP_POS.POS.lo)) := by
  simp [State.writeLapReg, State.writeLapPos, hr, fieldIn]

theorem State.writeSchedule_halted (hm : r ∈ [RegName.LAP_KIND, .LAP_SCHED]) (hr : s.lapsRun = false) :
    s.writeLapReg r ix h v = (.ok, s.store r ix h v) := by
  fin_cases hm <;> simp [State.writeLapReg, State.writeHalted, hr]

theorem State.writeActAt_free (hp : s.flag F.LOAD_STAT.ACT_PENDING = false) :
    s.writeLapReg .ACT_AT [] h v = (.ok, s.store .ACT_AT [] h v) := by
  simp [State.writeLapReg, State.writeActAt, hp]

theorem State.writeActAt_pending (hp : s.flag F.LOAD_STAT.ACT_PENDING = true) :
    s.writeLapReg .ACT_AT [] h v = (.bankNotOwned, s) := by
  simp [State.writeLapReg, State.writeActAt, hp]

/-! ### DISCARD (R123) -/

/-- The value that sets a W1S field leaves a register without W1C fields as it is. -/
theorem State.merged_withSet {f : Fld} (hf : BitVec.ofNat 64 (2 ^ f.lo) &&& BitVec.ofNat 64 (f.reg.mask [.rw]) = 0#64)
    (hc : BitVec.ofNat 64 (f.reg.mask [.w1c]) = 0#64) : s.merged f.reg ix .full (s.withSet f ix) = s.reg f.reg ix := by
  have hv : s.withSet f ix &&& BitVec.ofNat 64 (f.reg.mask [.rw]) = s.reg f.reg ix &&& BitVec.ofNat 64 (f.reg.mask [.rw]) := by
    rw [State.withSet, BitVec.and_or_distrib_right, hf, BitVec.and_assoc, BitVec.and_self, BitVec.or_zero]
  simp only [State.merged, mergeWrite, full_mask, hc, hv, BitVec.and_zero, BitVec.not_zero, BitVec.and_allOnes]
  generalize BitVec.ofNat 64 (f.reg.mask [.rw]) = m
  ext i hi
  simp only [BitVec.getElem_or, BitVec.getElem_and, BitVec.getElem_not]
  cases m[i] <;> simp

/-- The value that sets a W1S field carries a 1 for it. -/
theorem State.wrote_withSet {f : Fld} (h : f.lo ≤ f.hi) (hn : f.hi < 64) : wrote f .full (s.withSet f ix) = true := by
  have hmask : BitVec.ofNat 64 Half.full.mask = BitVec.allOnes 64 := by decide
  have hbit : (fieldIn f (Half.part .full (s.withSet f ix))).testBit 0 = true := by
    rw [fieldIn, Half.part, hmask, BitVec.and_allOnes, testBit_bitsOf, State.withSet, BitVec.getLsbD_or, BitVec.getLsbD_ofNat]
    simp [Nat.testBit_two_pow_self, show f.lo < 64 by omega, show 0 < f.hi + 1 - f.lo by omega]
  rw [wrote, bne_iff_ne]
  intro hzero
  simp [hzero] at hbit

theorem State.writeDiscard : s.writeLapReg .LOAD_CTRL [] .full (s.withSet F.LOAD_CTRL.DISCARD []) =
    (.ok, (s.setReg .LOAD_CTRL [] (s.reg .LOAD_CTRL)).discardStaged) := by
  have hmerged : s.merged .LOAD_CTRL [] .full (s.withSet F.LOAD_CTRL.DISCARD []) = s.reg .LOAD_CTRL :=
    State.merged_withSet (f := F.LOAD_CTRL.DISCARD) (by decide) (by decide)
  simp only [State.writeLapReg, State.writeLoadCtrl, State.store, hmerged, State.wrote_withSet (f := F.LOAD_CTRL.DISCARD) (ix := [])
    (by decide) (by decide), if_true]

/-! ### Writes that wait for a boundary -/

/-- The registers whose writes wait for a boundary. -/
def boundaryRegs : List RegName := [.TRACE_CTRL, .TRIG_CTRL, .TRIG_ADDR, .TRIG_MASK, .TRIG_VALUE, .LOG_CTRL, .BENCH]

theorem mem_boundaryRegs (hw : waitsBoundary r = true) : r ∈ boundaryRegs := by
  revert hw
  cases r <;> decide

theorem State.writeLapReg_waits (hw : waitsBoundary r = true) (hb : r = .BENCH → s.flag F.LOAD_STAT.UNBENCH_HELD = false) :
    s.writeLapReg r ix h v = (.ok, s.writeBoundary r ix h v) := by
  have hdelayed : s.writeLapReg r ix h v = s.writeDelayed r ix h v := by
    have hm := mem_boundaryRegs hw
    fin_cases hm <;> rfl
  have hfree : ¬ (r = .BENCH ∧ s.unbenches (fun k => s.pendingValue .BENCH k) (ix.headD 0)
      (mergeWrite r h (s.pendingValue r ix) v) = true) := by
    rintro ⟨hbench, hun⟩
    simp [State.unbenches, hb hbench] at hun
  rw [hdelayed, State.writeDelayed, if_neg hfree]

theorem State.writeBoundary_later (hl : s.lapsRun = true ∨ r = .TRACE_CTRL) : s.writeBoundary r ix h v =
    { s with fab := { s.fab with boundaryWrites := s.fab.boundaryWrites ++ [(r.addr ix, h.code, v)] } } := by
  simp [State.writeBoundary, hl]

theorem State.writeBoundary_bench (hr : s.lapsRun = false) :
    s.writeBoundary .BENCH ix h v = (s.applyWrite .BENCH ix h v).traceBench := by
  simp [State.writeBoundary, hr]

theorem State.writeBoundary_now (hr : s.lapsRun = false) (hb : r ≠ .BENCH) (ht : r ≠ .TRACE_CTRL) :
    s.writeBoundary r ix h v = s.applyWrite r ix h v := by
  simp [State.writeBoundary, hr, hb, ht]

/-! ### The commands -/

theorem exec_stop_running (hr : s.lapsRun = true) (h : Reaches s rq role (RegName.LAP_CTRL.addr [])) :
    Writes (.stop rq) s rq .LAP_CTRL [] fun g => { g with fab := { g.fab with stopAsked := true } } :=
  writes_lapReg (by decide) h rfl (by decide) (by rw [State.writeStop, State.requestStop_running hr]; rfl)

theorem exec_stop_halted (hr : s.lapsRun = false) (h : Reaches s rq role (RegName.LAP_CTRL.addr [])) :
    Writes (.stop rq) s rq .LAP_CTRL [] id :=
  writes_lapReg (by decide) h rfl (by decide) (by rw [State.writeStop, State.requestStop_halted hr, id])

theorem exec_clrTorn_running (hr : s.lapsRun = true) (h : Reaches s rq role (RegName.LAP_CTRL.addr [])) :
    Writes (.clrTorn rq) s rq .LAP_CTRL [] id :=
  writes_lapReg (by decide) h rfl (by decide) (by rw [State.writeClrTorn, if_pos hr, id])

theorem exec_clrTorn_halted (hr : s.lapsRun = false) (h : Reaches s rq role (RegName.LAP_CTRL.addr [])) :
    Writes (.clrTorn rq) s rq .LAP_CTRL [] fun g => { g with ref := { g.ref with torn := false } } :=
  writes_lapReg (by decide) h rfl (by decide) (by rw [State.writeClrTorn, if_neg (by simp [hr])])

/-- A command that writes one of the registers of R67 and R129 is refused while laps run. -/
theorem exec_refused_running (hm : r ∈ haltedRegs) (hv : r.valid ix = true) (hr : s.lapsRun = true)
    (hx : exec c s = .next (s.busReg rq r ix v)) (h : Reaches s rq role (r.addr ix)) : RefusesWrite c s rq r ix .bankNotOwned :=
  have hlap : haltedRegs ⊆ lapRegs := by decide
  refuses_lapReg hv h hx (hlap hm) (State.writeLapReg_running hm hr)

theorem lapKind_valid (k : Fin 8) : RegName.LAP_KIND.valid [k.val] = true := by
  simp [RegName.valid, RegName.place, ixValid]

theorem lapSched_valid (i : Fin 64) : RegName.LAP_SCHED.valid [i.val] = true := by
  simp [RegName.valid, RegName.place, ixValid]

theorem exec_lapCount_halted (hr : s.lapsRun = false) (h : Reaches s rq role (RegName.LAP_COUNT.addr [])) :
    Writes (.lapCount rq v) s rq .LAP_COUNT [] fun g => (g.setReg .LAP_COUNT [] v).activationByCount :=
  writes_lapReg (by decide) h rfl (by decide) (State.writeLapCount_halted hr)

theorem exec_lapPos_halted (hr : s.lapsRun = false) (h : Reaches s rq role (RegName.LAP_POS.addr [])) :
    Writes (.lapPos rq v) s rq .LAP_POS [] fun g =>
      g.put F.SCHED_STAT.POS (bitsOf v F.LAP_POS.POS.hi F.LAP_POS.POS.lo) :=
  writes_lapReg (by decide) h rfl (by decide) (State.writeLapPos_halted hr)

theorem exec_lapKind_halted {k : Fin 8} (hr : s.lapsRun = false) (h : Reaches s rq role (RegName.LAP_KIND.addr [k.val])) :
    Writes (.lapKind rq k v) s rq .LAP_KIND [k.val] fun g => g.store .LAP_KIND [k.val] .full v :=
  writes_lapReg (lapKind_valid k) h rfl (by decide) (State.writeSchedule_halted (by decide) hr)

theorem exec_lapSched_halted {i : Fin 64} (hr : s.lapsRun = false) (h : Reaches s rq role (RegName.LAP_SCHED.addr [i.val])) :
    Writes (.lapSched rq i v) s rq .LAP_SCHED [i.val] fun g => g.store .LAP_SCHED [i.val] .full v :=
  writes_lapReg (lapSched_valid i) h rfl (by decide) (State.writeSchedule_halted (by decide) hr)

theorem exec_actAt_free (hp : s.flag F.LOAD_STAT.ACT_PENDING = false) (h : Reaches s rq role (RegName.ACT_AT.addr [])) :
    Writes (.actAt rq v) s rq .ACT_AT [] fun g => g.store .ACT_AT [] .full v :=
  writes_lapReg (by decide) h rfl (by decide) (State.writeActAt_free hp)

theorem exec_actAt_pending (hp : s.flag F.LOAD_STAT.ACT_PENDING = true) (h : Reaches s rq role (RegName.ACT_AT.addr [])) :
    RefusesWrite (.actAt rq v) s rq .ACT_AT [] .bankNotOwned :=
  refuses_lapReg (v := v) (by decide) h rfl (by decide) (State.writeActAt_pending hp)

theorem exec_discard (h : Reaches s rq role (RegName.LOAD_CTRL.addr [])) :
    Writes (.loadCtrlDiscard rq) s rq .LOAD_CTRL [] fun g =>
      let u := g.setReg .LOAD_CTRL [] (g.reg .LOAD_CTRL)
      if s.flag F.LOAD_STAT.ACT_PENDING = true then u
      else { u with persona := { u.persona with staged := [], stagedSetup := none } }.put F.LOAD_STAT.STAGED 0 := by
  refine writes_lapReg (by decide) h rfl (by decide) ?_
  have hpending : (s.setReg .LOAD_CTRL [] (s.reg .LOAD_CTRL)).flag F.LOAD_STAT.ACT_PENDING = s.flag F.LOAD_STAT.ACT_PENDING :=
    congrArg (bitsOf · _ _ != 0) (State.reg_setReg_ne (by decide) (by decide) (by decide))
  rw [State.writeDiscard, State.discardStaged, hpending]

/-- A write of a register that waits for the next lap boundary: kept for it while laps run, as that of TRACE_CTRL is in any case,
and else made at once, with the trace's record of a change of BENCH (R137, R138, R148, R154; notes/assumptions 79). -/
theorem exec_boundary (hw : waitsBoundary r = true) (hv : r.valid ix = true)
    (hb : r = .BENCH → s.flag F.LOAD_STAT.UNBENCH_HELD = false) (hrole : r = .TRACE_CTRL → role ≠ .operator)
    (hx : exec c s = .next (s.busReg rq r ix v)) (h : Reaches s rq role (r.addr ix)) :
    (s.lapsRun = true ∨ r = .TRACE_CTRL → Writes c s rq r ix fun g =>
      { g with fab := { g.fab with boundaryWrites := g.fab.boundaryWrites ++ [(r.addr ix, 0, v)] } }) ∧
    (s.lapsRun = false → r = .BENCH → Writes c s rq r ix fun g => (g.applyWrite r ix .full v).traceBench) ∧
    (s.lapsRun = false → r ≠ .BENCH → r ≠ .TRACE_CTRL → Writes c s rq r ix fun g => g.applyWrite r ix .full v) := by
  have hm : r ∈ lapAndTraceRegs := (by decide : boundaryRegs ⊆ lapAndTraceRegs) (mem_boundaryRegs hw)
  have hlap (ht : r ≠ .TRACE_CTRL) : r ∈ lapRegs := (List.mem_cons.mp hm).resolve_left ht
  refine ⟨fun hl => ?_, fun hl hbench => ?_, fun hl hbench ht => ?_⟩
  · by_cases ht : r = .TRACE_CTRL
    · refine writes_of_mem hv h hx hm hrole ?_
      rw [State.writeLapReg_waits hw (by simp [ht]), State.writeBoundary_later (.inr ht)]
      rfl
    · refine writes_lapReg hv h hx (hlap ht) ?_
      rw [State.writeLapReg_waits hw hb, State.writeBoundary_later hl]
      rfl
  · subst hbench
    exact writes_lapReg hv h hx (by decide) (by rw [State.writeLapReg_waits hw hb, State.writeBoundary_bench hl])
  · exact writes_lapReg hv h hx (hlap ht) (by rw [State.writeLapReg_waits hw hb, State.writeBoundary_now hl hbench ht])

theorem trigReg_waits (j : Fin 4) (i : Fin 16) : waitsBoundary (trigReg j) = true ∧ (trigReg j).valid [i.val] = true ∧
    trigReg j ≠ .BENCH ∧ trigReg j ≠ .TRACE_CTRL := by
  revert i j
  decide

theorem trigReg_of_mem {j : Fin 4} {n : Nat} (hj : j.val = n)
    (hm : (n, r) ∈ [(0, RegName.TRIG_CTRL), (1, .TRIG_ADDR), (2, .TRIG_MASK), (3, .TRIG_VALUE)]) : r = trigReg j := by
  simp only [List.mem_cons, Prod.mk.injEq, List.not_mem_nil, or_false] at hm
  obtain ⟨rfl, rfl⟩ | ⟨rfl, rfl⟩ | ⟨rfl, rfl⟩ | ⟨rfl, rfl⟩ := hm <;> simp [trigReg, hj]

/-- Settles O23: the laws above, one for each command, with laps running and halted. -/
theorem lapRegisterCommands : Obligations.LapRegisterCommands := by
  unfold Obligations.LapRegisterCommands
  refine ⟨fun s rq role k i v => ⟨fun hr => ?_, fun hr => ?_, State.activationByCount_lapCount,
    State.activationByCount_of_not_pending, ?_, exec_actAt_free, exec_actAt_pending, exec_discard⟩,
    fun s rq role i j b t v => ?_⟩
  · exact ⟨exec_stop_running hr, exec_clrTorn_running hr, exec_refused_running (by decide) (by decide) hr rfl,
      exec_refused_running (by decide) (by decide) hr rfl, exec_refused_running (by decide) (lapKind_valid k) hr rfl,
      exec_refused_running (by decide) (lapSched_valid i) hr rfl⟩
  · exact ⟨exec_stop_halted hr, exec_clrTorn_halted hr, exec_lapCount_halted hr, exec_lapPos_halted hr, exec_lapKind_halted hr,
      exec_lapSched_halted hr⟩
  · rintro ⟨i, hpos, hlast⟩
    exact State.mayStart_beyond_last i.isLt hpos hlast
  · refine ⟨fun n r hm hj => ?_, ?_, fun hheld => ?_, fun hrole => ?_⟩
    · obtain rfl := trigReg_of_mem hj hm
      obtain ⟨hw, hv, hbench, htrace⟩ := trigReg_waits j i
      exact exec_boundary hw hv (absurd · hbench) (absurd · htrace) rfl
    · exact exec_boundary rfl (by decide) (absurd · (by decide)) (absurd · (by decide)) rfl
    · exact exec_boundary rfl (by simp [RegName.valid, RegName.place, ixValid]) (fun _ => hheld) (absurd · (by decide)) rfl
    · exact exec_boundary rfl (by simp [RegName.valid, RegName.place, ixValid]) (absurd · (by decide)) (fun _ => hrole) rfl

end Sys2Proof.Machine
end

section
/-! SUPPORT. What sessions are made of (R281 to R285): the Referee's short answers, the credential that claims a device, and what
records, bound sessions and stored keys change. -/

namespace Sys2Proof.Machine

variable {s u : State} {r : Reply} {x : Resp} {p : RPath} {a : W64} {ix n : Nat} {role : Role} {bs : List Byte} {f : Fld}
  {is : List Nat} {name : RegName}

/-- A reply with no payload, told by its response and its state. -/
theorem Reply.answers_of_eq (h : r = { resp := x, st := u }) : r.resp = x ∧ r.payload = [] ∧ r.st = u := by
  subst h
  exact ⟨rfl, rfl, rfl⟩

/-! ### An installer credential is held -/

theorem State.claimed_iff : s.claimed = true ↔ ∃ c : Fin 4, s.flag F.CRED.VALID [c] = true := by
  simp only [State.claimed, List.any_eq_true, List.mem_range, Fin.exists_iff, exists_prop]

theorem getLsbD_low_bits (v : W64) (b c d : Bool) :
    (v &&& ~~~(7 : W64) ||| BitVec.ofNat 64 (b2n b * 4 + b2n c * 2 + b2n d)).getLsbD 2 = b := by
  have hlow : (BitVec.ofNat 64 (b2n b * 4 + b2n c * 2 + b2n d)).getLsbD 2 = b := by
    revert b c d
    decide
  have hmask : (~~~(7 : W64)).getLsbD 2 = false := by decide
  rw [BitVec.getLsbD_or, BitVec.getLsbD_and, hlow, hmask, Bool.and_false, Bool.false_or]

/-- SEC_STAT.CLAIMED reads whether an installer credential is held. -/
theorem State.regView_claimed : (s.regView .SEC_STAT []).getLsbD F.SEC_STAT.CLAIMED.lo = s.claimed :=
  getLsbD_low_bits (s.reg .SEC_STAT) s.claimed s.ref.straps.lab s.labMode

/-! ### Records, challenges, bound sessions and stored keys -/

@[simp] theorem State.recordOp_keys {k : Nat} {o d e : W64} {b : Bool} : (s.recordOp p k o d e b).ref.keys = s.ref.keys := rfl
@[simp] theorem State.recordOp_reg {k : Nat} {o d e : W64} {b : Bool} : (s.recordOp p k o d e b).reg name is = s.reg name is := rfl

theorem State.flag_put_one (h : f.lo ≤ f.hi) (hn : f.hi < 64) : (s.put f 1 is).flag f is = true := by
  have hw : 1 < 2 ^ (f.hi + 1 - f.lo) := Nat.one_lt_two_pow (by omega)
  rw [State.flag, State.fld_put h hn, Nat.mod_eq_of_lt hw]
  rfl

@[simp] theorem State.bindSession_keys : (s.bindSession ix role).ref.keys = s.ref.keys := rfl

theorem State.bindSession_sess : (s.bindSession ix role).reg .SESS [ix] = BitVec.ofNat 64 (256 * roleCode role + 1) :=
  State.reg_setReg

theorem State.bindSession_reg (hr : name ≠ .SESS) (hi : RegName.SESS.valid [ix] = true) (hn : name.valid is = true) :
    (s.bindSession ix role).reg name is = s.reg name is :=
  State.reg_setReg_ne (s := s.dropChallenge ix) (Ne.symm hr) hi hn

theorem State.storeKey_keys : (s.storeKey n name ix bs).ref.keys = Sparse.write s.ref.keys n (keyAt bs 0) := rfl

theorem State.storeKey_cred_valid : (s.storeKey n .CRED ix bs).flag F.CRED.VALID [ix] = true := by
  have hreg : (s.storeKey n .CRED ix bs).reg .CRED [ix] =
      BitVec.ofNat 64 (bitsOf (Config.sha384 (bs.take 96)) 31 0 * 2 ^ 32 + 1) := State.reg_setReg
  have hd := bitsOf_lt (Config.sha384 (bs.take 96)) 31 0
  simp only [State.flag, State.fld, F.CRED.VALID, hreg, bitsOf, BitVec.toNat_ofNat] at hd ⊢
  simp only [Nat.shiftRight_zero, bne_iff_ne] at hd ⊢
  omega

end Sys2Proof.Machine
end

section
/-! The operations on sessions, case by case (R282 to R285): what OPEN, PROVE, CLOSE and CLAIM answer, and that a challenge and a
lockout end. -/

namespace Sys2Proof.Machine

variable {s : State} {p : RPath} {a : W64} {payload : List Byte} {ix : Nat} {c : Challenge}

/-! ### What OPEN, PROVE and CLOSE check first -/

section
variable {body : Nat → Reply}

theorem State.sessionChecked_reserved (h : argReserved a = true) : s.sessionChecked p a body = s.badArg := by
  rw [State.sessionChecked, if_pos h]

theorem State.sessionChecked_denied (h : argReserved a = false) (hm : s.mayTarget p (argTarget a) = false) :
    s.sessionChecked p a body = s.deny := by
  simp [State.sessionChecked, h, hm]

theorem State.sessionChecked_unknown (hm : s.mayTarget p (argTarget a) = true) (hn : sessIx (argTarget a) = none) :
    s.sessionChecked p a body = s.badArg := by
  simp [State.sessionChecked, hm, hn]

end

/-- ARG is well formed, and names session `ix` over a path that may act on it. -/
structure SessionTarget (s : State) (p : RPath) (a : W64) (ix : Nat) : Prop where
  plain : argReserved a = false
  may : s.mayTarget p (argTarget a) = true
  names : sessIx (argTarget a) = some ix

theorem SessionTarget.checked {body : Nat → Reply} (h : SessionTarget s p a ix) : s.sessionChecked p a body = body ix := by
  simp [State.sessionChecked, h.plain, h.may, h.names]

/-- An operation that sets reserved bits of ARG, or whose target is no session. -/
theorem State.sessionOps_decodeError
    (h : argReserved a = true ∨ s.mayTarget p (argTarget a) = true ∧ sessIx (argTarget a) = none) :
    s.opSessionOpen p a = s.badArg ∧ s.opSessionProve p a payload = s.badArg ∧ s.opSessionClose p a = s.badArg := by
  have hbad (body : Nat → Reply) : s.sessionChecked p a body = s.badArg := by
    obtain hr | ⟨hm, hn⟩ := h
    · exact State.sessionChecked_reserved hr
    · exact State.sessionChecked_unknown hm hn
  exact ⟨hbad _, hbad _, hbad _⟩

/-- An operation on a session that its path may not act on. -/
theorem State.sessionOps_denied (h : argReserved a = false) (hm : s.mayTarget p (argTarget a) = false) :
    s.opSessionOpen p a = s.deny ∧ s.opSessionProve p a payload = s.deny ∧ s.opSessionClose p a = s.deny :=
  ⟨State.sessionChecked_denied h hm, State.sessionChecked_denied h hm, State.sessionChecked_denied h hm⟩

theorem State.opSessionClose_target (ht : SessionTarget s p a ix) :
    s.opSessionClose p a = ((s.recordOp p 4 (sessionObject ix) 0 0).closeSession ix).done :=
  ht.checked

/-! ### OPEN -/

/-- OPEN refuses the role: the installer's on an unclaimed device, and every role but the operator's in a lockout. -/
def State.roleRefused (s : State) (a : W64) : Prop :=
  argRole a = 1 ∧ s.claimed = false ∨ argRole a ≠ 0 ∧ s.flag F.SEC_STAT.LOCKOUT = true

/-- Challenge `c` is given to session `ix`: it takes the place of one outstanding, and the six words it is made of are used up. -/
def State.challenged (s : State) (ix : Nat) (c : Challenge) : State :=
  let s := { s.dropChallenge ix with free := s.free + 6 }
  let s : State := { s with ref := { s.ref with challenges := s.ref.challenges ++ [c] } }
  s.put F.SESS.PENDING 1 [ix]

theorem State.challenged_pending : (s.challenged ix c).flag F.SESS.PENDING [ix] = true := State.flag_put_one (by decide) (by decide)

theorem State.mem_challenged : c ∈ (s.challenged ix c).ref.challenges := by
  simp [State.challenged]

theorem State.opSessionOpen_noCredential (ht : SessionTarget s p a ix) (hv : credOk (argRole a) (argSlot a) = false) :
    s.opSessionOpen p a = s.badArg := by
  rw [State.opSessionOpen, ht.checked]
  simp [hv]

section
variable (ht : SessionTarget s p a ix) (hv : credOk (argRole a) (argSlot a) = true)
include ht hv

theorem State.opSessionOpen_refused (hr : s.roleRefused a) : s.opSessionOpen p a = s.deny := by
  rw [State.opSessionOpen, ht.checked]
  simp only [State.roleRefused] at hr
  simp [hv, hr]

/-- The operator's role is bound at once where OPER_AUTH is 0, in a lockout too (R283). -/
theorem State.opSessionOpen_binds (h0 : argRole a = 0) (hauth : s.flag F.SEC_CTRL.OPER_AUTH = false) :
    s.opSessionOpen p a = ((s.recordOp p 4 (sessionObject ix) 0 0).bindSession ix .operator).done := by
  rw [State.opSessionOpen, ht.checked]
  rw [h0] at hv
  simp [hv, h0, hauth]

theorem State.opSessionOpen_challenges (hr : ¬ s.roleRefused a) (hc : argRole a ≠ 0 ∨ s.flag F.SEC_CTRL.OPER_AUTH = true) :
    s.opSessionOpen p a = ((s.challenged ix ⟨ix, a, s.random48⟩).recordOp p 4 (sessionObject ix) 0 0).done
      (bytesOf 48 s.random48.toNat) := by
  have hbind : ¬ (argRole a = 0 ∧ (!s.flag F.SEC_CTRL.OPER_AUTH) = true) := by
    rintro ⟨h0, hauth⟩
    simp [h0] at hc
    simp [hc] at hauth
  simp only [State.roleRefused] at hr
  rw [State.opSessionOpen, ht.checked]
  dsimp only
  rw [if_neg (by simp [hv]), if_neg (by simpa using hr), if_neg hbind]
  rfl

end

/-! ### PROVE -/

/-- The challenge of session `ix` is spent. -/
def State.unchallenged (s : State) (ix : Nat) : State := (s.dropChallenge ix).put F.SESS.PENDING 0 [ix]

theorem State.opSessionProve_malformed (ht : SessionTarget s p a ix)
    (h : credOk (argRole a) (argSlot a) = false ∨ proofLength (argRole a) payload.length = false) :
    s.opSessionProve p a payload = s.badArg := by
  rw [State.opSessionProve, ht.checked, if_pos (by simpa using h)]

section
variable (ht : SessionTarget s p a ix) (hv : credOk (argRole a) (argSlot a) = true)
  (hl : proofLength (argRole a) payload.length = true)
include ht hv hl

theorem State.opSessionProve_unchallenged (hn : ∀ c ∈ s.ref.challenges, c.sess ≠ ix) :
    s.opSessionProve p a payload = s.notNow := by
  have hfind : s.ref.challenges.find? (fun c => c.sess == ix) = none := by simpa using hn
  rw [State.opSessionProve, ht.checked, if_neg (by simp [hv, hl]), hfind]

section
variable (hc : s.ref.challenges.find? (fun c => c.sess == ix) = some c)
include hc

theorem State.opSessionProve_accepted (hok : s.proofOk c a payload = true) : s.opSessionProve p a payload =
    (((s.unchallenged ix).recordOp p 4 (sessionObject ix) 0 0).bindSession ix (roleOfCode (argRole a))).done := by
  rw [State.opSessionProve, ht.checked, if_neg (by simp [hv, hl]), hc]
  exact if_pos hok

theorem State.opSessionProve_failed (hok : s.proofOk c a payload = false) : s.opSessionProve p a payload =
    { resp := .roleDenied, st := (s.unchallenged ix).authFailed } := by
  rw [State.opSessionProve, ht.checked, if_neg (by simp [hv, hl]), hc]
  exact if_neg (by simp [hok])

end
end

/-! ### CLAIM -/

/-- The device claimed with the key of `payload`: it is installer credential 0, and the SMBus session is the installer's. -/
def State.claimedBy (s : State) (payload : List Byte) : State :=
  ((s.storeKey 8 .CRED 0 payload).recordOp .smbus 4 (sessionObject 68) 0 0 true).bindSession 68 .installer

section
variable (hp : argReserved a = false)
include hp

theorem State.opSessionClaim_denied (h : p ≠ .smbus ∨ s.claimed = true) : s.opSessionClaim p a payload = s.deny := by
  rw [State.opSessionClaim, if_neg (by simp [hp]), if_pos h]

theorem State.opSessionClaim_length (hc : s.claimed = false) (hl : payload.length ≠ 96) :
    s.opSessionClaim .smbus a payload = s.badArg := by
  rw [State.opSessionClaim, if_neg (by simp [hp]), if_neg (by simp [hc]), if_pos hl]

theorem State.opSessionClaim_ok (hc : s.claimed = false) (hl : payload.length = 96) :
    s.opSessionClaim .smbus a payload = (s.claimedBy payload).done := by
  rw [State.opSessionClaim, if_neg (by simp [hp]), if_neg (by simp [hc]), if_neg (by simp [hl])]
  rfl

end

theorem State.claimedBy_key : Sparse.read (s.claimedBy payload).ref.keys 8 = keyAt payload 0 := by
  rw [State.claimedBy, State.bindSession_keys, State.recordOp_keys, State.storeKey_keys, Sparse.read_write_self]

theorem State.claimedBy_claimed : (s.claimedBy payload).claimed = true := by
  have hreg : (s.claimedBy payload).reg .CRED [0] = (s.storeKey 8 .CRED 0 payload).reg .CRED [0] := by
    rw [State.claimedBy, State.bindSession_reg (by decide) (by decide) (by decide), State.recordOp_reg]
  have hflag : (s.claimedBy payload).flag F.CRED.VALID [0] = (s.storeKey 8 .CRED 0 payload).flag F.CRED.VALID [0] :=
    congrArg (bitsOf · _ _ != 0) hreg
  exact State.claimed_iff.mpr ⟨0, hflag.trans State.storeKey_cred_valid⟩

theorem State.claimedBy_sess : (s.claimedBy payload).reg .SESS [68] = 0x101 := State.bindSession_sess

/-! ### Expiry -/

theorem exec_challengeExpiry_outstanding {i : Fin 69} (h : ∃ c ∈ s.ref.challenges, c.sess = i.val) :
    exec (.challengeExpiry i) s = .next (s.unchallenged i) :=
  if_pos (by simpa using h)

theorem exec_challengeExpiry_none {i : Fin 69} (h : ∀ c ∈ s.ref.challenges, c.sess ≠ i.val) :
    exec (.challengeExpiry i) s = .next s :=
  if_neg (by simpa using h)

/-- Settles O55: the laws above, one for each operation and what it is answered. -/
theorem sessionOperations : Obligations.SessionOperations := by
  unfold Obligations.SessionOperations
  refine fun s path a payload ix => ⟨exec_challengeExpiry_outstanding, exec_challengeExpiry_none, rfl, fun h => ?_,
    fun hp hm => ?_, fun _ => rfl, fun ⟨hp, hm, hs⟩ => ?_, fun ⟨hp, hm, hs⟩ => ?_, State.regView_claimed, State.claimed_iff,
    fun hp => ⟨?_, ?_, ?_⟩⟩
  · obtain ⟨ho, hv, hc⟩ := State.sessionOps_decodeError (payload := payload) h
    exact ⟨Reply.answers_of_eq ho, Reply.answers_of_eq hv, Reply.answers_of_eq hc⟩
  · obtain ⟨ho, hv, hc⟩ := State.sessionOps_denied (payload := payload) hp (Bool.eq_false_iff.mpr hm)
    exact ⟨Reply.answers_of_eq ho, Reply.answers_of_eq hv, Reply.answers_of_eq hc⟩
  · exact Reply.answers_of_eq (State.opSessionClose_target ⟨hp, hm, hs⟩)
  · have ht : SessionTarget s path a ix := ⟨hp, hm, hs⟩
    refine ⟨fun hv => ?_, fun hv hr => ?_, fun hv h0 hauth => ?_, fun hv hr hc => ?_, fun h => ?_,
      fun hv hl => ⟨fun hn => ?_, fun c hc => ⟨fun hok => ?_, fun hok => ?_⟩⟩⟩
    · exact Reply.answers_of_eq (State.opSessionOpen_noCredential ht (Bool.eq_false_iff.mpr hv))
    · exact Reply.answers_of_eq (State.opSessionOpen_refused ht hv hr)
    · exact Reply.answers_of_eq (State.opSessionOpen_binds ht hv h0 hauth)
    · rw [State.opSessionOpen_challenges ht hv hr hc]
      exact ⟨rfl, rfl, State.challenged_pending, State.mem_challenged⟩
    · exact Reply.answers_of_eq (State.opSessionProve_malformed ht (h.imp_left Bool.eq_false_iff.mpr))
    · exact Reply.answers_of_eq (State.opSessionProve_unchallenged ht hv hl hn)
    · exact Reply.answers_of_eq (State.opSessionProve_accepted ht hv hl hc hok)
    · exact Reply.answers_of_eq (State.opSessionProve_failed ht hv hl hc hok)
  · exact fun h => Reply.answers_of_eq (State.opSessionClaim_denied hp h)
  · rintro rfl hc hl
    exact Reply.answers_of_eq (State.opSessionClaim_length hp hc hl)
  · rintro rfl hc hl
    rw [State.opSessionClaim_ok hp hc hl]
    exact ⟨⟨rfl, rfl, rfl⟩, State.claimedBy_key, State.claimedBy_claimed, State.claimedBy_sess⟩

end Sys2Proof.Machine
end

section
/-! Boot images fetched (R394): what the end of the fetch does. -/

namespace Sys2Proof.Machine

variable {s u : State} {a : Nat} {bs : List Byte} {r : Resp}
/-- The fetch of a boot image has begun. -/
def State.fetchingImage (s : State) : State := { s with ref := { s.ref with bootFetch := none } }

theorem execBootImageFetched_none (ha : s.ref.bootFetch = none) : execBootImageFetched s = .next s := by
  rw [execBootImageFetched, ha]

theorem execBootImageFetched_ok (ha : s.ref.bootFetch = some a) (hf : s.fetchingImage.fetchImage a = (.ok, bs, u)) :
    execBootImageFetched s = .next (u.bootVerify bs).settle := by
  unfold execBootImageFetched
  unfold State.fetchingImage at hf
  rw [ha]
  show (match State.fetchImage _ _ with
    | (.ok, bs, u) => Host.Outcome.next (u.bootVerify bs).settle
    | (_, _, u) => .next (u.bootFails 0x12 []).settle) = _
  rw [hf]

theorem execBootImageFetched_fails (ha : s.ref.bootFetch = some a) (hf : s.fetchingImage.fetchImage a = (r, bs, u))
    (hr : r ≠ .ok) : execBootImageFetched s = .next (u.bootFails 0x12 []).settle := by
  unfold execBootImageFetched
  unfold State.fetchingImage at hf
  rw [ha]
  show (match State.fetchImage _ _ with
    | (.ok, bs, u) => Host.Outcome.next (u.bootVerify bs).settle
    | (_, _, u) => .next (u.bootFails 0x12 []).settle) = _
  rw [hf]
  cases r <;> first | contradiction | rfl

theorem execBootImageFetched_continues : ∃ t, execBootImageFetched s = .next t := by
  cases ha : s.ref.bootFetch with
  | none => exact ⟨_, execBootImageFetched_none ha⟩
  | some a =>
    obtain ⟨⟨r, bs, u⟩, hf⟩ : ∃ x, s.fetchingImage.fetchImage a = x := ⟨_, rfl⟩
    by_cases hr : r = .ok
    · exact ⟨_, execBootImageFetched_ok ha (hr ▸ hf)⟩
    · exact ⟨_, execBootImageFetched_fails ha hf hr⟩

end Sys2Proof.Machine
end

section
/-! Steps and their outcomes: a step runs the front command, and a command with the operands of its row answers a next state. -/

namespace Sys2Proof.Machine

variable {s : State} {e : Eng} {rd ra rb : Gpr} {n : W64}

/-- Settles O1: by the definition of a step. -/
theorem stepRunsTheFrontCommand : Obligations.StepRunsTheFrontCommand := by
  unfold Obligations.StepRunsTheFrontCommand
  exact fun _ _ _ => rfl

theorem issue_continues {body : State → State} : ∃ t, issue e s body = .next t := by
  unfold issue
  split
  · exact ⟨_, rfl⟩
  · exact ⟨_, rfl⟩

theorem aluOp_continues {f : W64 → W64 → W64} : ∃ t, aluOp f n e rd ra rb s = .next t := issue_continues

theorem immOp_continues {f : W64 → W64} : ∃ t, immOp f e rd ra s = .next t := issue_continues

theorem branchOp_continues {c : W64 → W64 → Bool} {disp : BitVec 41} : ∃ t, branchOp c e ra rb disp s = .next t :=
  issue_continues

theorem exec_nop : exec (.nop e) s = execNop e s := by simp only [exec]

/-- What an engine instruction, a command that answers at once, and one that looks at a condition first have in common. -/
theorem exec_continues {c : Instr} (h : WellFormed c = true) : ∃ t, exec c s = .next t := by
  cases c
  all_goals dsimp only [exec]
  case mainbandUp =>
    have hs : ∀ v : Byte, speedOk v = linkRates.contains v.toNat := fun _ => rfl
    rw [WellFormed, ← hs] at h
    rw [execMainbandUp, if_neg (by simp [h])]
    split
    all_goals exact ⟨_, rfl⟩
  case temperatureConversion =>
    rw [WellFormed, sensorCount, beq_iff_eq] at h
    rw [execTemperatureConversion, if_pos h]
    exact ⟨_, rfl⟩
  case bootImageFetched => exact execBootImageFetched_continues
  case nop | b | call | ret | ld | st | ldq | stq | amoadd | move | mwait | arm | wait | signal | lapRun | lapStop |
      lapStep | lapStat | lapStatCount | ctxLoad | ctxAct | ctxChk | qPush | qPop | qCred | pwrQuery | pwrRun |
      pwrSleep | pwrDeep | pwrOff | pwrSetCap | bankMarch | standinMarch | tileScan | laneLoop | loopCheck | sensorRef
      | vmonCheck | sweep | cntrd | tell | fence | trap | eret | srr | srw | halt | dmaClr | swap | refusedClr => exact issue_continues
  case add | sub | and | or | xor | shl | shr | sha | mul | min | max | cmp => exact aluOp_continues
  case mov | addi | andi | ori | xori | lui => exact immOp_continues
  case beq | bne | blt | bge => exact branchOp_continues
  case timer | contextDelivery | stepGo | cellFire | stepComplete | portAReadReturn | gather | lapCommit | stop |
      clrTorn | lapCount | lapPos | lapKind | lapSched | actAt | loadCtrlDiscard | trigCtrl | bench | logCtrl |
      traceCtrl | snap | bankOwner | handoverComplete | eccWriteBack | eccClear | push | credit | ringPi | ringCi |
      qBind | skip | qCtrlReset | flowQueues | flowBind | flowPos | read | write | writePosted | amoaddRequest |
      readResp | writeResp | maint | relay | routerCfg | hRead | hWrite | hWritePosted | mainbandDown | hrBase |
      hrLimit | evringCi | portEnable | portDisable | farLoop | nearLoop | retire | clrFail | laneEq | laneLock |
      lossOfLock | train | align | map | mapReq | idleEnter | idleExit | token | ready | go | done | commit | scratch
      | query | alive | batonLimitExpiry | flowItem | flowCredit | hello | authenticationHello | boot | ack | nak |
      chainCfg | bridgeCfg | chainCtrlDiscard | enrolGo | enrolRemove | labEn | vrCfg | init | reinit | vaultVerdict |
      lockoutEnd | clockSwitch | loopProgram | clkgateMode | pdReqRun | pdReqSleep | pdReqDeep | pdReqOff |
      domainStart | vinLow | vinOvervoltage | powerLevelUpdate | scrubParameterReload | fuseCommit | resetRelease |
      resetN | state | alerts | mbxGo | mbxRelease | heartbeatTimeout | pinOwn | pinCfg | gpioSet | gpioClr | gpioTgl
      | dout | forceRelease | trigoutPulseEnd | registerWrite | vendorDefinedMessage | readId | readBb | readEnv |
      forceOff | resetPackage | resetTower | resetLayer | resetEngine | freeze | dumpEngine | thawEngine | zeroise |
      sessionOpen | sessionProve | sessionClose | sessionClaim | powerRestore | mcLoad | bootImage | testUnlock |
      fuseProgram | setTime | residentReload => exact ⟨_, rfl⟩
  case dmaDone | counterOverflow | commandDispatch | stepLimitExpiry | lapRetryStart | ringFetch | flowWatchdogExpiry
      | qResetDone | poolBank | requestTimeout | wakeHoldExpiry | sbHostmem | refFault | acqLimitExpiry | alignSend |
      idleAfterExpiry | aliveSend | enrolmentTimeout | replayTimeout | challengeExpiry | loopLocked | loopReady |
      domainStoppedTimeout | sequenceComplete | railUndervoltage | vinRestored | powerCapTimeout | sweepStart |
      testRetry | scrubWatchdog | dumpFreezeTimeout | alertsClear | reqPart | reqEnd | ansPart | replicaRestart |
      clockSwitchComplete | scrubberCopyDisagrees | waitTimeout | nmiTaken | watchdog | ringWrite | streamDelivery |
      fabricCreditGrant | notifyHoldoffEnd | completion | sidebandLinkUp | perstN | idle | vaultInitDone | reinitDone
      | monitorWindow | gateClose | gateTimeout | tshut | thermalLevelUpdate | vinCapRecompute | scrubFrame |
      powerOnReset | patternMatch | matchEnd | storeResponse | loadHeaderChecks | loadFrameRecord | loadTimeout |
      copyIn | copyBack | event | queueOp | routerHoldDrained | routerHoldTimeout | splitEnd | preCopyComplete |
      layerResetProceed | parkEnd | splitStart =>
    simp only [execDmaDone, execCounterOverflow, execCommandDispatch, execStepLimitExpiry, execLapRetryStart,
      execRingFetch, execFlowWatchdogExpiry, execQResetDone, execPoolBank, execRequestTimeout, execWakeHoldExpiry,
      execSbHostmem, execRefFault, execAcqLimitExpiry, execAlignSend, execIdleAfterExpiry, execAliveSend,
      execEnrolmentTimeout, execReplayTimeout, execChallengeExpiry, execLoopLocked, execLoopReady,
      execDomainStoppedTimeout, execSequenceComplete, execRailUndervoltage, execVinRestored, execPowerCapTimeout,
      execSweepStart, execTestRetry, execScrubWatchdog, execDumpFreezeTimeout, execAlertsClear, execReqPart,
      execReqEnd, execAnsPart, execReplicaRestart, execClockSwitchComplete, execScrubberCopyDisagrees,
      execWaitTimeout, execNmiTaken, execWatchdog, execRingWrite, execStreamDelivery, execFabricCreditGrant,
      execNotifyHoldoffEnd, execCompletion, execSidebandLinkUp, execPerstN, execIdle, execVaultInitDone,
      execReinitDone, execMonitorWindow, execGateClose, execGateTimeout, execTshut, execThermalLevelUpdate,
      execVinCapRecompute, execScrubFrame, execPowerOnReset, execPatternMatch, execMatchEnd, execStoreResponse,
      execLoadHeaderChecks, execLoadFrameRecord, execLoadTimeout, execCopyIn, execCopyBack, execEvent, execQueueOp,
      execRouterHoldDrained, execRouterHoldTimeout, execSplitEnd, execPreCopyComplete, execLayerResetProceed,
      execParkEnd, execSplitStart]
    repeat' split
    all_goals exact ⟨_, rfl⟩

/-- The two rows whose operands no type bounds refuse the others. -/
theorem exec_malformed {c : Instr} (h : WellFormed c = false) : exec c s = .fault .malformedCommand := by
  cases c with
  | mainbandUp m x32 speed repaired =>
    have hs : speedOk speed = false := h
    simp only [exec]
    rw [execMainbandUp, hs]
    rfl
  | temperatureConversion readings =>
    have hl : readings.length ≠ 384 := by simpa [WellFormed, sensorCount] using h
    simp only [exec]
    rw [execTemperatureConversion, if_neg hl]
  | _ => exact absurd h (by simp [WellFormed])

/-- Settles O2: the two laws above. -/
theorem wellFormedCommandsComplete : Obligations.WellFormedCommandsComplete := by
  unfold Obligations.WellFormedCommandsComplete
  exact fun s c => ⟨exec_continues, exec_malformed⟩

end Sys2Proof.Machine
end

section
/-! The register map: its addresses and the blocks of the engines. -/

namespace Sys2Proof.Machine

/-- An engine's block, by the engine's tower and its number there. -/
theorem engineBlock_engine {e : Eng} {off : Nat} (h : off < 0x10000) :
    engineBlock (0x030001000000 + e.val / 4 * 0x01000000 + (e.val % 4 + 1) * 0x10000 + off) = some (e, off) := by
  have he := e.isLt
  have ht : (0x030001000000 + e.val / 4 * 0x01000000 + (e.val % 4 + 1) * 0x10000 + off - 0x030001000000) / 0x1000000 =
      e.val / 4 := by omega
  have hb : (0x030001000000 + e.val / 4 * 0x01000000 + (e.val % 4 + 1) * 0x10000 + off - 0x030001000000) % 0x1000000 =
      (e.val % 4 + 1) * 0x10000 + off := by omega
  have hn : 4 * (e.val / 4) + ((e.val % 4 + 1) * 0x10000 + off - 0x10000) / 0x10000 = e.val := by omega
  unfold engineBlock
  dsimp only
  rw [ht, hb, hn, if_neg (by omega)]
  have ho : ((e.val % 4 + 1) * 0x10000 + off) % 0x10000 = off := by omega
  have hf : Fin.ofNat 16 e.val = e := Fin.ext (Nat.mod_eq_of_lt he)
  rw [ho, hf]

theorem targetAt_engine {e : Eng} {off : Nat} (h : off < 0x10000) :
    targetAt (0x030001000000 + e.val / 4 * 0x01000000 + (e.val % 4 + 1) * 0x10000 + off) =
      if off % 8 = 0 ∧ (off = 0 ∨ (0x100 ≤ off ∧ off < 0x200) ∨ 0x8000 ≤ off) then some (.engine e off) else none := by
  rw [targetAt, engineBlock_engine h]

/-- An address that leads to a copy is the copy's own. -/
theorem targetAt_sound {a : Nat} {r : RegName} {ix : List Nat} (h : targetAt a = some (.reg r ix)) :
    r.valid ix = true ∧ r.addr ix = a := by
  have hr : regAt a = some (r, ix) := by
    unfold targetAt at h
    split at h
    · split at h <;> simp at h
    · split at h
      · split at h
        · next r' ix' hr _ =>
          obtain ⟨rfl, rfl⟩ : r' = r ∧ ix' = ix := by simpa using h
          exact hr
        · simp at h
      · simp at h
  obtain ⟨hv, ha, -⟩ := regAt_sound hr
  exact ⟨hv, ha⟩

/-- Settles O40: the laws of the register map, and the engines' blocks. -/
theorem registerMap : Obligations.RegisterMap := by
  unfold Obligations.RegisterMap
  exact ⟨fun r ix hi ha hs => ⟨targetAt_addr hi hs ha, addr_words r ix, spaceOf_addr hi⟩, fun _ _ _ h => targetAt_sound h,
    fun _ _ h => targetAt_engine h⟩

end Sys2Proof.Machine
end

section
/-! Instructions on registers alone (R69, R70, R80): arithmetic, logic and moves. -/

namespace Sys2Proof.Machine

variable {s : State} {e : Eng} {rd ra rb : Gpr} {c : Instr} {n v : W64}

/-! ### Operands -/

theorem shiftCount_eq (v : W64) : shiftCount v = (v &&& 63).toNat := by
  have hmask : (63 : W64).toNat = 2 ^ 6 - 1 := by decide
  rw [shiftCount, bitsOf, BitVec.toNat_and, hmask, Nat.and_two_pow_sub_one_eq_mod]
  simp

theorem sext_eq {k : Nat} (v : BitVec k) : sext v = BitVec.ofInt 64 v.toInt := rfl

theorem zext_eq {k : Nat} (v : BitVec k) : zext v = BitVec.ofNat 64 v.toNat := (BitVec.ofNat_toNat 64 v).symm

theorem add_sext {k : Nat} (a : W64) (v : BitVec k) : a + sext v = BitVec.ofInt 64 (a.toInt + v.toInt) := by
  rw [sext_eq, BitVec.ofInt_add, BitVec.ofInt_toInt]

theorem lui_eq (high : BitVec 51) : zext high <<< 13 = BitVec.ofNat 64 (high.toNat * 2 ^ 13) := by
  rw [zext_eq]
  apply BitVec.eq_of_toNat_eq
  simp [Nat.shiftLeft_eq]

theorem minWord_eq (a b : W64) : minWord a b = if a.toInt < b.toInt then a else b := by
  simp [minWord, BitVec.slt_iff_toInt_lt]

theorem maxWord_eq (a b : W64) : maxWord a b = if a.toInt < b.toInt then b else a := by
  simp [maxWord, BitVec.slt_iff_toInt_lt]

theorem cmpWord_eq (a b : W64) :
    cmpWord a b = if a.toInt < b.toInt then -1 else if a.toInt = b.toInt then 0 else 1 := by
  simp [cmpWord, BitVec.slt_iff_toInt_lt, BitVec.toInt_inj]

/-! ### The operations -/

section
variable (hc : s.canIssue e = true) (hp : (s.eng e).pc ≠ 0xFFF8)
include hc hp

theorem aluOp_gives {f : W64 → W64 → W64} : ∃ u, aluOp f n e rd ra rb s = .next u ∧
    OnlyEvents ((s.fetchedWord e).onEng e fun en => (en.put rd (f ((s.eng e).get ra) ((s.eng e).get rb))).done n) u :=
  issue_retireWith hc (by simp only [State.fetchedWord_get]) hp

theorem immOp_gives {f : W64 → W64} : ∃ u, immOp f e rd ra s = .next u ∧
    OnlyEvents ((s.fetchedWord e).onEng e fun en => (en.put rd (f ((s.eng e).get ra))).done 1) u :=
  issue_retireWith hc (by simp only [State.fetchedWord_get]) hp

theorem execNop_gives : ∃ u, execNop e s = .next u ∧ OnlyEvents ((s.fetchedWord e).onEng e fun en => en.done 1) u :=
  issue_retire hc rfl hp
end

/-- Settles O3: the two forms of operations, and the laws of the register that reads as zero. -/
theorem computeInstructions : Obligations.ComputeInstructions := by
  unfold Obligations.ComputeInstructions
  refine ⟨fun s e rd ra rb hc hp => ?_, fun s e rd ra imm high hc hp => ?_, fun en a b v => ?_⟩
  · have alu {f n} := aluOp_gives (rd := rd) (ra := ra) (rb := rb) (f := f) (n := n) hc hp
    dsimp only
    simp only [← minWord_eq, ← maxWord_eq, ← cmpWord_eq, ← shiftCount_eq, Runs, Gives, exec]
    exact ⟨alu, alu, alu, alu, alu, alu, alu, alu, alu, alu, alu, alu, immOp_gives hc hp⟩
  · have imm {f} := immOp_gives (rd := rd) (ra := ra) (f := f) hc hp
    dsimp only
    simp only [← add_sext, ← zext_eq, ← lui_eq, Runs, Gives, exec]
    exact ⟨imm, imm, imm, imm, immOp_gives (ra := 0) hc hp, execNop_gives hc hp⟩
  · refine ⟨Engine.get_zero, Engine.put_zero, fun ha => ?_, fun hab => ?_⟩
    · rw [Engine.get_put, if_pos ⟨rfl, ha⟩]
    · rw [Engine.get_put, if_neg fun h => hab h.1.symm]

end Sys2Proof.Machine
end

section
/-! Flow of control (R70, R80, R89): branches, calls and returns, and the traps of targets outside the scratchpad. -/

namespace Sys2Proof.Machine

variable {s : State} {e : Eng} {rd ra rb : Gpr} {n v : W64} {t : Int} {f : Engine → Engine} {x : Trap}
  {holds : W64 → W64 → Bool} {far : BitVec 56} {near : BitVec 41}

/-! ### Targets -/

theorem target_eq {k : Nat} (en : Engine) (disp : BitVec k) :
    en.target disp = BitVec.ofInt 64 (en.pc.toNat + 8 * disp.toInt) := by
  have h8 : (8 : W64) = BitVec.ofInt 64 8 := by decide
  have hpc : en.pc64 = BitVec.ofInt 64 en.pc.toNat := by
    rw [Engine.pc64, BitVec.ofInt_natCast, BitVec.ofNat_toNat]
  rw [Engine.target, hpc, sext_eq, BitVec.ofInt_add, BitVec.ofInt_mul, h8]

theorem nextPc_eq (en : Engine) : en.pc64 + 8 = BitVec.ofInt 64 (en.pc.toNat + 8) := by
  have h8 : (8 : W64) = BitVec.ofInt 64 8 := by decide
  rw [Engine.pc64, BitVec.ofInt_add, BitVec.ofInt_natCast, BitVec.ofNat_toNat, h8]

/-- A target inside the instruction scratchpad. -/
theorem ofInt_inside (h0 : 0 ≤ t) (h : t ≤ 0xFFF8) : (BitVec.ofInt 64 t).toNat ≤ 0xFFF8 := by
  rw [BitVec.toNat_ofInt]
  omega

theorem bitsOf_low (v : W64) : bitsOf v 2 0 = v.toNat % 8 := by simp [bitsOf]

theorem State.fetchedWord_target {k : Nat} {disp : BitVec k} :
    ((s.fetchedWord e).eng e).target disp = (s.eng e).target disp := by
  rw [Engine.target, Engine.target, State.fetchedWord_pc64]

theorem trapEnds_enters {en : Engine} (hv : en.tvecEn = true) (hi : en.inTrap = false) : en.trapEnds x = false := by
  simp [Engine.trapEnds, hv, hi]

/-- An engine update matters by what it makes of the engine as it stands. -/
theorem State.onEng_congr {g : Engine → Engine} (h : f (s.eng e) = g (s.eng e)) : s.onEng e f = s.onEng e g := by
  rw [State.onEng, h, State.onEng]

/-! ### To a target inside -/

section
variable (hc : s.canIssue e = true)
include hc

theorem execB_goes (h0 : 0 ≤ (s.eng e).pc.toNat + 8 * far.toInt) (h : (s.eng e).pc.toNat + 8 * far.toInt ≤ 0xFFF8) :
    ∃ u, execB e far s = .next u ∧ OnlyEvents ((s.fetchedWord e).onEng e fun en =>
      en.jumped (BitVec.ofInt 64 ((s.eng e).pc.toNat + 8 * far.toInt))) u :=
  issue_jump hc (by rw [State.fetchedWord_target, target_eq]) (ofInt_inside h0 h)

theorem branchOp_goes (hb : holds ((s.eng e).get ra) ((s.eng e).get rb) = true)
    (h0 : 0 ≤ (s.eng e).pc.toNat + 8 * near.toInt) (h : (s.eng e).pc.toNat + 8 * near.toInt ≤ 0xFFF8) :
    ∃ u, branchOp holds e ra rb near s = .next u ∧ OnlyEvents ((s.fetchedWord e).onEng e fun en =>
      en.jumped (BitVec.ofInt 64 ((s.eng e).pc.toNat + 8 * near.toInt))) u := by
  refine issue_jump hc ?_ (ofInt_inside h0 h)
  rw [State.fetchedWord_get, State.fetchedWord_get, if_pos hb, State.fetchedWord_target, target_eq]

theorem branchOp_on (hb : holds ((s.eng e).get ra) ((s.eng e).get rb) = false) (hp : (s.eng e).pc ≠ 0xFFF8) :
    ∃ u, branchOp holds e ra rb near s = .next u ∧ OnlyEvents ((s.fetchedWord e).onEng e fun en => en.done 1) u := by
  refine issue_retire hc ?_ hp
  rw [State.fetchedWord_get, State.fetchedWord_get, hb]
  exact if_neg Bool.false_ne_true

theorem execCall_goes (h0 : 0 ≤ (s.eng e).pc.toNat + 8 * far.toInt) (h : (s.eng e).pc.toNat + 8 * far.toInt ≤ 0xFFF8) :
    ∃ u, execCall e far s = .next u ∧ OnlyEvents ((s.fetchedWord e).onEng e fun en =>
      (en.put 31 (BitVec.ofInt 64 ((s.eng e).pc.toNat + 8))).jumped
        (BitVec.ofInt 64 ((s.eng e).pc.toNat + 8 * far.toInt))) u := by
  have ht := ofInt_inside h0 h
  have hlink : (s.fetchedWord e).onEng e (fun en => en.put 31 (en.pc64 + 8)) =
      (s.fetchedWord e).onEng e fun en => en.put 31 (BitVec.ofInt 64 ((s.eng e).pc.toNat + 8)) := by
    simp only [State.onEng, State.fetchedWord_pc64, nextPc_eq]
  have hjump := State.jump_events (s := (s.fetchedWord e).onEng e fun en =>
    en.put 31 (BitVec.ofInt 64 ((s.eng e).pc.toNat + 8))) (e := e) ht
  rw [State.onEng_onEng] at hjump
  refine issue_gives hc ?_ ?_
  · rw [State.fetchedWord_target, target_eq, if_neg (by omega), hlink]
    exact hjump
  · obtain ⟨g, hg⟩ := Engine.put_eq (en := (s.fetchedWord e).eng e) (a := 31)
      (v := BitVec.ofInt 64 ((s.eng e).pc.toNat + 8))
    rw [State.eng_onEng, hg]
    show ((s.fetchedWord e).eng e).state ≠ _
    rw [State.fetchedWord_state, State.canIssue_running hc]
    decide

theorem execRet_goes (h8 : (s.eng e).g[31].toNat % 8 = 0) (h : (s.eng e).g[31].toNat ≤ 0xFFF8) :
    ∃ u, execRet e s = .next u ∧ OnlyEvents ((s.fetchedWord e).onEng e fun en => en.jumped en.g[31]) u := by
  have hg : ((s.fetchedWord e).eng e).get 31 = (s.eng e).get 31 := State.fetchedWord_get
  rw [State.onEng_congr (g := fun en => en.jumped (s.eng e).g[31]) (congrArg ((s.fetchedWord e).eng e).jumped hg)]
  refine issue_jump hc ?_ h
  rw [State.fetchedWord_get]
  exact if_neg (by rw [bitsOf_low]; exact not_not.mpr h8)
end

/-! ### To a target outside -/

section
variable (hc : s.canIssue e = true) (hv : (s.eng e).tvecEn = true) (hi : (s.eng e).inTrap = false)
include hc hv hi

/-- An instruction whose target lies outside the instruction scratchpad. -/
theorem issue_outside {body : State → State} (hb : body (s.fetchedWord e) = (s.fetchedWord e).jump e v)
    (h : 0xFFF8 < v.toNat) : ∃ u, issue e s body = .next u ∧
      OnlyEvents ((s.fetchedWord e).onEng e fun en => en.trapped .illegal 0 false v (s.eng e).pc64) u :=
  issue_trap (r := .ok) hc (by rw [hb, State.jump, if_pos h]) (trapEnds_enters hv hi)

theorem execB_traps (h : 0xFFF8 < ((s.eng e).target far).toNat) : ∃ u, execB e far s = .next u ∧ OnlyEvents
    ((s.fetchedWord e).onEng e fun en => en.trapped .illegal 0 false ((s.eng e).target far) (s.eng e).pc64) u :=
  issue_outside hc hv hi (by rw [State.fetchedWord_target]) h

theorem branchOp_traps (h : 0xFFF8 < ((s.eng e).target near).toNat)
    (hb : holds ((s.eng e).get ra) ((s.eng e).get rb) = true) : ∃ u, branchOp holds e ra rb near s = .next u ∧ OnlyEvents
      ((s.fetchedWord e).onEng e fun en => en.trapped .illegal 0 false ((s.eng e).target near) (s.eng e).pc64) u := by
  refine issue_outside hc hv hi ?_ h
  rw [State.fetchedWord_get, State.fetchedWord_get, if_pos hb, State.fetchedWord_target]

theorem execCall_traps (h : 0xFFF8 < ((s.eng e).target far).toNat) : ∃ u, execCall e far s = .next u ∧ OnlyEvents
    ((s.fetchedWord e).onEng e fun en => en.trapped .illegal 0 false ((s.eng e).target far) (s.eng e).pc64) u :=
  issue_trap (r := .ok) hc (by rw [State.fetchedWord_target, if_pos h]) (trapEnds_enters hv hi)

theorem execRet_misaligned (h8 : (s.eng e).g[31].toNat % 8 ≠ 0) : ∃ u, execRet e s = .next u ∧ OnlyEvents
    ((s.fetchedWord e).onEng e fun en => en.trapped .misaligned 0 false (s.eng e).g[31] (s.eng e).pc64) u := by
  refine issue_trap (r := .ok) hc ?_ (trapEnds_enters hv hi)
  rw [State.fetchedWord_get]
  exact if_pos (by rw [bitsOf_low]; exact h8)

theorem execRet_outside (h8 : (s.eng e).g[31].toNat % 8 = 0) (h : 0xFFF8 < (s.eng e).g[31].toNat) :
    ∃ u, execRet e s = .next u ∧ OnlyEvents
      ((s.fetchedWord e).onEng e fun en => en.trapped .illegal 0 false (s.eng e).g[31] (s.eng e).pc64) u := by
  refine issue_outside hc hv hi ?_ h
  rw [State.fetchedWord_get]
  exact if_neg (by rw [bitsOf_low]; exact not_not.mpr h8)

end

/-! ### Past the last place -/

/-- The instruction at 0xFFF8 completes, and its engine takes the trap of what would follow (notes/assumptions 68). -/
theorem State.retireWith_last (ht : (s.eng e).trapEnds .illegal = false) (hp : (s.eng e).pc = 0xFFF8) : OnlyEvents
    (s.onEng e fun en => ((en.put rd v).tick n).trapped .illegal 0 false 0x10000 0x10000) (s.retireWith e rd v n) := by
  obtain ⟨g, hg⟩ := Engine.put_eq (en := s.eng e) (a := rd) (v := v)
  obtain ⟨r, hr⟩ : ∃ r, r = s.onEng e fun en => (en.put rd v).tick n := ⟨_, rfl⟩
  have heng : r.eng e = ({ s.eng e with g := g } : Engine).tick n := by rw [hr, State.eng_onEng, hg]
  have hown : OwnOnly fun en : Engine => en.tick n := .of_own fun _ => rfl
  obtain ⟨u, hu⟩ : ∃ u, u = ((s.onEng e fun en => en.put rd v).tally (unitOfEngine e) 0x100).onEng e fun en => en.tick n :=
    ⟨_, rfl⟩
  have hcount : OnlyEvents r u := by
    have h := (OnlyEvents.tallyEng (s := s.onEng e fun en => en.put rd v) (e := e) (ev := 0x100) (k := 1)).after
      (e := e) hown
    rwa [State.onEng_onEng, ← hr, ← hu] at h
  have hpc : (u.eng e).pc = 0xFFF8 := by rw [hcount.pc, heng]; exact hp
  have hends : (u.eng e).trapEnds .illegal = false := by rw [Engine.trapEnds_own (hcount.eng e), heng]; exact ht
  have htrap := (hcount.after (e := e) (ownOnly_trapped (c := .illegal) (resp := 0) (i := false) (tval := 0x10000)
    (tpc := 0x10000))).trans (State.takeTrap_enters hends)
  rw [hr, State.onEng_onEng] at htrap
  rw [State.retireWith, State.retire, ← hu, State.advance, if_pos hpc]
  exact htrap

theorem execAddi_last {imm : BitVec 46} (hc : s.canIssue e = true) (ht : (s.eng e).trapEnds .illegal = false)
    (hp : (s.eng e).pc = 0xFFF8) : ∃ u, execAddi e rd ra imm s = .next u ∧ OnlyEvents
    ((s.fetchedWord e).onEng e fun en =>
      ((en.put rd ((s.eng e).get ra + sext imm)).tick 1).trapped .illegal 0 false 0x10000 0x10000) u := by
  rw [execAddi, immOp]
  refine issue_gives hc ?_ (by rw [State.eng_onEng, Engine.trapped_state]; decide)
  rw [State.fetchedWord_get]
  exact State.retireWith_last (by rw [State.fetchedWord_trapEnds, ht]) (by rw [State.fetchedWord_pc, hp])

/-- Settles O5: the laws above, for targets inside and outside the scratchpad. -/
theorem flowOfControl : Obligations.FlowOfControl := by
  unfold Obligations.FlowOfControl
  refine ⟨fun s e ra rb far near hc => ?_, fun s e rd ra rb far near imm hc => ?_⟩
  · have branch {holds : W64 → W64 → Bool} {p : Prop} (hp : holds ((s.eng e).get ra) ((s.eng e).get rb) = true ↔ p) :
      (p → 0 ≤ (s.eng e).pc.toNat + 8 * near.toInt ∧ (s.eng e).pc.toNat + 8 * near.toInt ≤ 0xFFF8 →
        ∃ u, branchOp holds e ra rb near s = .next u ∧ OnlyEvents ((s.fetchedWord e).onEng e fun en =>
          en.jumped (BitVec.ofInt 64 ((s.eng e).pc.toNat + 8 * near.toInt))) u) ∧
      (¬p → (s.eng e).pc ≠ 0xFFF8 →
        ∃ u, branchOp holds e ra rb near s = .next u ∧ OnlyEvents ((s.fetchedWord e).onEng e fun en => en.done 1) u) :=
      ⟨fun h ht => branchOp_goes hc (hp.mpr h) ht.1 ht.2,
        fun h hn => branchOp_on hc (Bool.eq_false_iff.mpr fun ht => h (hp.mp ht)) hn⟩
    simp only [Runs, Gives, exec]
    refine ⟨branch beq_iff_eq, branch bne_iff_ne, branch BitVec.slt_iff_toInt_lt, branch ?_,
      fun h => execB_goes hc h.1 h.2, fun h => execCall_goes hc h.1 h.2, fun h h8 => execRet_goes hc h8 h⟩
    rw [Bool.not_eq_true', ← Bool.not_eq_true, BitVec.slt_iff_toInt_lt, not_lt]
  · intro en a b pc bf bn traps hv hi
    have ht : (s.eng e).trapEnds .illegal = false := trapEnds_enters hv hi
    simp only [traps, Runs, Gives, exec]
    refine ⟨fun h => ⟨execB_traps hc hv hi h, execCall_traps hc hv hi h⟩, fun h => ⟨fun hb => ?_, fun hb => ?_, fun hb => ?_,
      fun hb => ?_⟩, execRet_misaligned hc hv hi, execRet_outside hc hv hi, execAddi_last hc ht⟩
    · exact branchOp_traps hc hv hi h (beq_iff_eq.mpr hb)
    · exact branchOp_traps hc hv hi h (bne_iff_ne.mpr hb)
    · exact branchOp_traps hc hv hi h (BitVec.slt_iff_toInt_lt.mpr hb)
    · exact branchOp_traps hc hv hi h (by rw [Bool.not_eq_true', ← Bool.not_eq_true, BitVec.slt_iff_toInt_lt, not_lt]; exact hb)

end Sys2Proof.Machine
end

section
/-! Taking a trap and returning from one (R89 to R92, R151). -/

namespace Sys2Proof.Machine

variable {s u : State} {e : Eng} {n : Fin 8} {f : Engine → Engine} {c : Trap} {tval tpc : W64} {op32 : BitVec 32}

/-! ### What is due, by what the engine holds -/

theorem counted_trap {ev : Nat} (h : (s.eng e).trapEnds c = false) :
    OnlyEvents (s.onEng e fun en => en.trapped c 0 false tval tpc)
      ((s.tally (unitOfEngine e) ev).takeTrap e c 0 false tval tpc) := by
  have ht : OnlyEvents s (s.tally (unitOfEngine e) ev) := .tallyEng
  refine (ht.after ownOnly_trapped).trans (State.takeTrap_enters ?_)
  rw [Engine.trapEnds_own (ht.eng e), h]

/-- A trap that follows an update of its engine. -/
theorem updated_trap (h : (f (s.eng e)).trapEnds c = false) :
    OnlyEvents (s.onEng e fun en => (f en).trapped c 0 false tval tpc) ((s.onEng e f).takeTrap e c 0 false tval tpc) := by
  have ht := State.takeTrap_enters (s := s.onEng e f) (e := e) (c := c) (resp := 0) (i := false) (tval := tval) (tpc := tpc)
    (by rw [State.eng_onEng, h])
  rwa [State.onEng_onEng] at ht

/-- The operand of TRAP, as TVAL shows it. -/
theorem softwareTval_eq : BitVec.ofNat 64 (bitsOf op32 15 0) = (op32.setWidth 16).setWidth 64 := by
  apply BitVec.eq_of_toNat_eq
  simp [bitsOf]

/-! ### Into the handler -/

theorem execNmiTaken_takes (hi : (s.eng e).inTrap = false) (hf : (s.eng e).frozen = false) (hk : s.engClocked e = true)
    (hr : (s.eng e).state = .running ∨ (s.eng e).inWait = true)
    (hn : (s.eng e).nmiClock = true ∨ (s.eng e).nmiThermal = true) :
    execNmiTaken e s = .next (s.takeNmi e).settle := by
  have hdue : (s.eng e).nmiDue = true := by simpa [Engine.nmiDue, hi] using hn
  rw [execNmiTaken]
  exact if_pos (by simpa [hdue, hf, hk] using hr)

theorem execWatchdog_overruns (hf : (s.eng e).frozen = false) (hk : s.engClocked e = true) (hw : (s.eng e).wdog ≠ 0)
    (hr : ((s.eng e).state = .running ∧ (s.eng e).wdog.toNat * 1024 < (s.eng e).runtime.toNat) ∨ (s.eng e).inWait = true) :
    execWatchdog e s = .next (s.overrun e).settle := by
  have hover : (s.eng e).overran = true := by
    simpa [Engine.overran] using ⟨hw, hr.symm⟩
  rw [execWatchdog]
  exact if_pos (by simp [hover, hf, hk])

section
variable (hv : (s.eng e).tvecEn = true) (hi : (s.eng e).inTrap = false)
include hv hi

theorem execTrap_gives (hc : s.canIssue e = true) : ∃ u, execTrap e op32 s = .next u ∧
    OnlyEvents ((s.fetchedWord e).onEng e fun en =>
      en.trapped .software 0 false ((op32.setWidth 16).setWidth 64) ((s.eng e).pc64 + 8)) u := by
  refine issue_gives hc ?_ (by rw [State.eng_onEng, Engine.trapped_state]; decide)
  rw [State.fetchedWord_pc64, softwareTval_eq]
  exact counted_trap (by rw [State.fetchedWord_trapEnds, trapEnds_enters hv hi])

section
variable (hf : (s.eng e).frozen = false) (hk : s.engClocked e = true)
include hf hk

theorem execNmiTaken_clock (hr : (s.eng e).state = .running ∨ (s.eng e).inWait = true) (hn : (s.eng e).nmiClock = true) :
    ∃ u, execNmiTaken e s = .next u.settle ∧ OnlyEvents (s.spend.onEng e fun en =>
      ({ en with nmiClock := false } : Engine).trapped .nmiClock 0 false (Config.freeWord s.free) (s.eng e).pc64) u := by
  refine ⟨_, execNmiTaken_takes hi hf hk hr (.inl hn), ?_⟩
  rw [State.takeNmi, if_pos hn]
  exact updated_trap (trapEnds_enters hv hi)

theorem execNmiTaken_thermal (hr : (s.eng e).state = .running ∨ (s.eng e).inWait = true) (hc : (s.eng e).nmiClock = false)
    (hn : (s.eng e).nmiThermal = true) :
    ∃ u, execNmiTaken e s = .next u.settle ∧ OnlyEvents (s.spend.onEng e fun en =>
      ({ en with nmiThermal := false } : Engine).trapped .nmiThermal 0 false (Config.freeWord s.free) (s.eng e).pc64) u := by
  refine ⟨_, execNmiTaken_takes hi hf hk hr (.inr hn), ?_⟩
  rw [State.takeNmi, if_neg (by simp [hc])]
  exact updated_trap (trapEnds_enters hv hi)

/-- An overflow that is held is taken: its counter does not wrap unseen. -/
theorem execCounterOverflow_gives (hr : (s.eng e).state = .running) (ho : (s.eng e).ovfHeld.getLsbD n = true) :
    ∃ u, execCounterOverflow e n s = .next u.settle ∧ OnlyEvents
      (s.onEng e fun en => en.trapped .counterOverflow 0 false (BitVec.ofNat 64 (n + 1)) (s.eng e).pc64) u := by
  have hseen : s.wrapsUnseen e n = false := by simp only [State.wrapsUnseen, ho, Bool.not_true, Bool.false_and]
  refine ⟨s.takeOverflow e n.val, ?_, ?_⟩
  · rw [execCounterOverflow, hseen]
    simp [ho, hi, hf, hk, hr]
  · have hclear : OnlyEvents s (s.onEng e fun en =>
      { en with ovfHeld := en.ovfHeld &&& ~~~(BitVec.ofNat 8 (2 ^ n.val)) }) := .onEng fun _ => rfl
    refine (hclear.after ownOnly_trapped).trans (State.takeTrap_enters ?_)
    rw [State.eng_onEng]
    exact trapEnds_enters (en := { s.eng e with ovfHeld := _ }) hv hi

theorem execWatchdog_first (hw : (s.eng e).wdog ≠ 0)
    (hr : ((s.eng e).state = .running ∧ (s.eng e).wdog.toNat * 1024 < (s.eng e).runtime.toNat) ∨ (s.eng e).inWait = true)
    (h0 : (s.eng e).wdogHits = 0) :
    ∃ u, execWatchdog e s = .next u.settle ∧ OnlyEvents (s.spend.onEng e fun en =>
      ({ en with runtime := 0, wdogHits := 1 } : Engine).trapped .watchdog 0 false (Config.freeWord s.free) (s.eng e).pc64) u := by
  refine ⟨_, execWatchdog_overruns hf hk hw hr, ?_⟩
  rw [State.overrun, if_pos h0]
  exact updated_trap (trapEnds_enters hv hi)
end
end

/-! ### Back -/

theorem execEret_gives (hc : s.canIssue e = true) (hi : (s.eng e).inTrap = true) (h8 : (s.eng e).tpc.toNat % 8 = 0)
    (ht : (s.eng e).tpc.toNat ≤ 0xFFF8) : ∃ u, execEret e s = .next ((u.deliver e).settleEnd s e) ∧
      OnlyEvents ((s.fetchedWord e).onEng e fun en => en.leaveHandler.tick 4) u := by
  have hin : ((s.fetchedWord e).eng e).inTrap = (s.eng e).inTrap := s.fetchedWord_eng e _ fun _ _ => rfl
  have htpc : ((s.fetchedWord e).eng e).tpc = (s.eng e).tpc := s.fetchedWord_eng e _ fun _ _ => rfl
  have hleave : OwnOnly fun en : Engine => en.leaveHandler.tick 4 := .of_own fun _ => rfl
  refine ⟨((s.fetchedWord e).tally (unitOfEngine e) 0x100).onEng e fun en => en.leaveHandler.tick 4, ?_,
    OnlyEvents.tallyEng.after hleave⟩
  rw [execEret, issue, if_pos hc]
  dsimp only
  rw [hin, hi, htpc, if_neg (by simp), if_neg (by omega), if_neg (by omega)]

/-- Settles O6: the laws above. -/
theorem trapEntryAndReturn : Obligations.TrapEntryAndReturn := by
  unfold Obligations.TrapEntryAndReturn
  intro s e op32 n
  simp only [Runs, RunsThen, Gives, GivesThen, exec]
  exact ⟨fun hc hv hi => execTrap_gives hv hi hc,
    fun ⟨hf, hk⟩ hv hi hr => ⟨execNmiTaken_clock hv hi hf hk hr, execNmiTaken_thermal hv hi hf hk hr⟩,
    fun ⟨hf, hk⟩ hv hi => execCounterOverflow_gives hv hi hf hk, fun ⟨hf, hk⟩ hv hi => execWatchdog_first hv hi hf hk,
    execEret_gives⟩

end Sys2Proof.Machine
end

section
/-! SUPPORT. The keys of the register space that counting and events write: OnlyEvents for copies that no index names, which a cell
of a bank that does not exist would read. -/

namespace Sys2Proof.Machine

variable {s t u : State} {e : Eng} {r : RegName} {ix : List Nat} {f : Fld} {n k : Nat} {v : W64}

/-- The key of a copy of an event register. -/
def EventKey (k : Nat) : Prop := ∃ r ∈ eventRegs, ∃ ix, r.valid ix = true ∧ r.key ix = k

/-- `t` is `s` after writes of the registers of `rs` and changes of other parts of the state. -/
inductive RegSteps (rs : List RegName) : State → State → Prop where
  | of_regs {s t : State} : t.regs = s.regs → RegSteps rs s t
  | setReg {s : State} {r : RegName} {ix : List Nat} {v : W64} : r ∈ rs → r.valid ix = true → RegSteps rs s (s.setReg r ix v)
  | trans {s t u : State} : RegSteps rs s t → RegSteps rs t u → RegSteps rs s u

/-- The registers are written at the keys of the event registers alone. -/
def KeepsKeys (s t : State) : Prop := RegSteps eventRegs s t

/-- Every other key reads as before. -/
theorem KeepsKeys.keys (h : KeepsKeys s t) (k : Nat) (hk : ¬EventKey k) : Sparse.read t.regs k = Sparse.read s.regs k := by
  induction h with
  | of_regs h => rw [h]
  | setReg hr hi => exact Sparse.read_write_ne fun h => hk ⟨_, hr, _, hi, h⟩
  | trans _ _ ih ih' => exact ih'.trans ih

theorem KeepsKeys.of_regs (h : t.regs = s.regs) : KeepsKeys s t := RegSteps.of_regs h

theorem KeepsKeys.refl : KeepsKeys s s := .of_regs rfl

theorem KeepsKeys.trans (h : KeepsKeys s t) (k : KeepsKeys t u) : KeepsKeys s u := RegSteps.trans h k

theorem KeepsKeys.setReg (hr : r ∈ eventRegs) (hi : r.valid ix = true) : KeepsKeys s (s.setReg r ix v) := RegSteps.setReg hr hi

theorem KeepsKeys.put (hr : f.reg ∈ eventRegs) (hi : f.reg.valid ix = true) : KeepsKeys s (s.put f n ix) := .setReg hr hi

theorem KeepsKeys.count (hr : f.reg ∈ eventRegs) (hi : f.reg.valid ix = true) : KeepsKeys s (s.count f ix n) := .put hr hi

theorem KeepsKeys.foldl_mem {α : Type} {g : State → α → State} (l : List α) (h : ∀ s, ∀ a ∈ l, KeepsKeys s (g s a)) :
    KeepsKeys s (l.foldl g s) := by
  induction l generalizing s with
  | nil => exact .refl
  | cons a l ih => exact (h s a (by simp)).trans (ih fun s b hb => h s b (by simp [hb]))

theorem KeepsKeys.foldl {α : Type} {g : State → α → State} (l : List α) (h : ∀ s a, KeepsKeys s (g s a)) :
    KeepsKeys s (l.foldl g s) := .foldl_mem l fun s a _ => h s a

theorem KeepsKeys.setVault (va : Vault) : KeepsKeys s { s with vault := va } := .of_regs rfl

/-! ### Vault lines and host memory -/

theorem KeepsKeys.raiseMark {c : Nat} : KeepsKeys s (s.raiseMark n c) := by
  unfold State.raiseMark
  split
  · next h => exact .put (by decide) (by simp [RegName.valid, RegName.place, ixValid, F.VR_STAT.HWM, h.1])
  · exact .refl

theorem KeepsKeys.dirtyNode {j : Nat} : KeepsKeys s (s.dirtyNode n k j) := by
  unfold State.dirtyNode
  split
  · exact .refl
  · exact .of_regs rfl

theorem KeepsKeys.storeNode {j : Nat} : KeepsKeys s (s.storeNode n k j) :=
  KeepsKeys.dirtyNode.trans ((KeepsKeys.setVault _).trans .raiseMark)

theorem KeepsKeys.evict : KeepsKeys s s.evict := by
  unfold State.evict
  split
  · exact .refl
  · dsimp only
    split
    · exact (KeepsKeys.setVault _).trans .storeNode
    · exact .of_regs rfl

theorem KeepsKeys.cachePath : KeepsKeys s (s.cachePath n k) :=
  (KeepsKeys.setVault _).trans (.foldl _ fun _ _ => .evict)

theorem KeepsKeys.adoptLine : KeepsKeys s (s.adoptLine n k) := by
  unfold State.adoptLine
  split
  · exact .refl
  · exact .of_regs rfl

theorem KeepsKeys.putTag : KeepsKeys s (s.putTag n k) := by
  unfold State.putTag
  dsimp only
  split
  · exact .of_regs rfl
  · exact .refl

theorem KeepsKeys.bumpLine : KeepsKeys s (s.bumpLine n k) :=
  KeepsKeys.adoptLine.trans (KeepsKeys.cachePath.trans (KeepsKeys.dirtyNode.trans ((KeepsKeys.setVault _).trans .raiseMark)))

theorem KeepsKeys.vaultStore {qs : List Quad} : KeepsKeys s (s.vaultStore n k qs) :=
  (KeepsKeys.foldl _ fun _ _ => .bumpLine).trans ((KeepsKeys.setVault _).trans (.foldl _ fun _ _ => .putTag))

theorem KeepsKeys.hostPuts {qs : List Quad} : KeepsKeys s (s.hostPuts k qs) := by
  induction qs generalizing s k with
  | nil => exact .refl
  | cons q qs ih => exact KeepsKeys.trans (t := s.hostPut k q) (.of_regs rfl) ih

theorem KeepsKeys.hostWrite {qs : List Quad} : KeepsKeys s (s.hostWrite n k qs).2 := by
  unfold State.hostWrite
  dsimp only
  split
  · exact .refl
  · split
    · exact .hostPuts
    · split
      · exact .of_regs rfl
      · split
        · exact .of_regs rfl
        · exact .vaultStore

/-! ### Counters and messages -/

theorem KeepsKeys.addCounter {i : Nat} (hu : n < 26) (hi : i < 8) : KeepsKeys s (s.addCounter n i k).1 := by
  have hc := cnt_valid (u := n) (i := i + 1) hu (by omega)
  have ho := (unit_valid hu).2
  unfold State.addCounter
  generalize unitIx n = p at *
  obtain ⟨q, ix⟩ := p
  dsimp only
  have hcnt {m : Nat} : KeepsKeys s (s.put (unitFields q).cnt m (ix ++ [i + 1])) := .put (cnt_event q) hc
  have hovf {s : State} {m : Nat} : KeepsKeys s (s.orBits (unitFields q).ovf m ix) := .put (ovf_event q) ho
  split
  · exact hcnt
  · split
    · split
      · exact (hcnt.trans hovf).trans (.of_regs rfl)
      · exact hcnt.trans hovf
    · exact hcnt.trans hovf

theorem KeepsKeys.notify : KeepsKeys s s.notify := by
  unfold State.notify
  split <;> exact .of_regs rfl

theorem KeepsKeys.dropEvent : KeepsKeys s s.dropEvent :=
  KeepsKeys.trans (.count (by decide) (by decide)) (.put (by decide) (by decide))

theorem KeepsKeys.signalEngine {b : Fin 64} {d : W64} : KeepsKeys s (s.signalEngine e b d) := by
  unfold State.signalEngine
  split
  · exact .refl
  · exact .of_regs rfl

section
variable {send : Byte → Byte → BitVec 16 → W64 → State → State}

theorem KeepsKeys.overflowVia (hs : ∀ a b c d s, KeepsKeys s (send a b c d s)) : KeepsKeys s (s.overflowVia send n k) := by
  unfold State.overflowVia
  dsimp only
  split
  · exact .refl
  · split
    · exact .signalEngine
    · split
      · exact hs _ _ _ _ _
      · exact .refl

theorem KeepsKeys.tallyVia (hs : ∀ a b c d s, KeepsKeys s (send a b c d s)) {ev : Nat} (hu : n < 26) :
    KeepsKeys s (s.tallyVia send n ev k) := by
  refine .foldl_mem _ fun s i hi => ?_
  have h := KeepsKeys.addCounter (s := s) (k := k) hu (countersOf_lt hi)
  split
  · next heq =>
    rw [heq] at h
    exact h.trans (.overflowVia hs)
  · next heq =>
    rw [heq] at h
    exact h
end

theorem KeepsKeys.sendEvent (n : Nat) (ty src : Byte) (ix : BitVec 16) (d : W64) (s : State) :
    KeepsKeys s (State.sendEvent n ty src ix d s) := by
  induction n generalizing ty src ix d s with
  | zero => exact .refl
  | succ n ih =>
    unfold State.sendEvent
    refine (KeepsKeys.tallyVia ih (n := 24) (ev := 0x307) (k := 1) (by omega)).trans ?_
    generalize s.tallyVia (State.sendEvent n) 24 0x307 1 = s
    dsimp only
    split
    · exact .dropEvent
    · split
      · exact .dropEvent
      · have hput {c : Prop} [Decidable c] {h : Nat} {qs : List Quad} :
            KeepsKeys s (if c then (Resp.decodeError, s) else s.hostWrite 0 h qs).2 := by
          split
          · exact .refl
          · exact .hostWrite
        split
        · next heq =>
          have hsent {t : State} {v : Nat} :
              KeepsKeys t (((t.put F.HC_EVRING_IDX.PI v).notify).tallyVia (State.sendEvent n) 24 0x303 1) :=
            (KeepsKeys.put (by decide) (by decide)).trans (KeepsKeys.notify.trans (.tallyVia ih (by omega)))
          refine KeepsKeys.trans (congrArg Prod.snd heq ▸ hput : KeepsKeys s _) ?_
          split
          · exact hsent.trans (.tallyVia ih (by omega))
          · exact hsent
        · next heq =>
          refine KeepsKeys.trans (congrArg Prod.snd heq ▸ hput : KeepsKeys s _) ?_
          exact KeepsKeys.trans (.put (by decide) (by decide)) (KeepsKeys.trans (.put (by decide) (by decide)) .dropEvent)

theorem KeepsKeys.hostEvent {ty src : Byte} {ix : BitVec 16} {d : W64} : KeepsKeys s (s.hostEvent ty src ix d) := .sendEvent ..

end Sys2Proof.Machine
end

section
/-! SUPPORT. Words of design memory (R156, R164, R169, R170): what a store makes of them, and which words read alike in two states. -/

namespace Sys2Proof.Machine

variable {s t u : State} {a b : Nat} {q : Quad} {r : RegName} {ix : List Nat} {v : W64} {f : Fld} {n : Nat}

/-! ### What a store writes -/

theorem State.memStore_standinPhase {tw k : Nat} : (s.memStore a q).standinPhase tw k = s.standinPhase tw k := by
  simp only [State.standinPhase, State.fld, State.reg, State.memStore_regs]

theorem State.memStore_standinFor {tw k : Nat} : (s.memStore a q).standinFor tw k = s.standinFor tw k := by
  simp only [State.standinFor, State.memStore_standinPhase, State.fld, State.reg, State.memStore_regs]

theorem State.memStore_standinServes {tw k : Nat} : (s.memStore a q).standinServes tw k = s.standinServes tw k := by
  rw [State.standinServes, State.memStore_standinFor, State.memStore_standinPhase, State.standinServes]

theorem State.memStore_bankFailed {tw k : Nat} : (s.memStore a q).bankFailed tw k = s.bankFailed tw k := by
  simp only [State.bankFailed, State.reg, State.memStore_regs]

/-- The stand-in's part of a store. -/
theorem State.memStore_standin : (s.memStore a q).standin =
      (if s.standinFor (memTower a) (memBank a) then
        Sparse.write s.standin (standinKey (memTower a) (memBank a) (memWord a)) q else s.standin) ∧
    (s.memStore a q).standinBad =
      if s.standinFor (memTower a) (memBank a) then
        listDrop s.standinBad (standinKey (memTower a) (memBank a) (memWord a)) else s.standinBad := by
  have hfor : ({ s.newWord a with copies := s.copies.filter fun c => c.addr != a } : State).standinFor (memTower a) (memBank a) =
      s.standinFor (memTower a) (memBank a) := rfl
  unfold State.memStore
  dsimp only
  rw [hfor]
  cases s.standinFor (memTower a) (memBank a)
  · simp only [Bool.false_eq_true, if_false]
    split <;> exact ⟨rfl, rfl⟩
  · simp only [if_true]
    split <;> exact ⟨rfl, rfl⟩

/-- The bank's part of a store. -/
theorem State.memStore_bank : (s.memStore a q).mem =
      (if s.bankWritten (memTower a) (memBank a) then Sparse.write s.mem (a / 16) q else s.mem) ∧
    (s.memStore a q).memBad =
      if s.bankWritten (memTower a) (memBank a) then listDrop s.memBad (a / 16) else s.memBad := by
  have hw {t : State} (h : t.regs = s.regs) :
      t.bankWritten (memTower a) (memBank a) = s.bankWritten (memTower a) (memBank a) := by
    simp only [State.bankWritten, State.standinFor, State.standinPhase, State.fld, State.reg, h]
  unfold State.memStore
  dsimp only
  split
  · rw [hw (by rfl)]
    cases s.bankWritten (memTower a) (memBank a) <;> exact ⟨rfl, rfl⟩
  · rw [hw (by rfl)]
    cases s.bankWritten (memTower a) (memBank a) <;> exact ⟨rfl, rfl⟩

/-- A bank that no stand-in serves takes the writes itself. -/
theorem State.bankWritten_of_not_serves {tw k : Nat} (h : s.standinServes tw k = false) : s.bankWritten tw k = true := by
  simp only [State.standinServes, Bool.and_eq_false_iff, decide_eq_false_iff_not] at h
  simp only [State.bankWritten, Bool.not_eq_true', Bool.and_eq_false_iff, beq_eq_false_iff_ne]
  exact h.imp_right fun h he => h (by omega)

theorem State.standinFor_of_serves {tw k : Nat} (h : s.standinServes tw k = true) : s.standinFor tw k = true := by
  simp only [State.standinServes, Bool.and_eq_true] at h
  exact h.1

theorem not_mem_listDrop {l : List Nat} {k : Nat} : (listDrop l k).contains k = false := by simp [listDrop]

theorem mem_listDrop_ne {l : List Nat} {j k : Nat} (h : j ≠ k) : (listDrop l k).contains j = l.contains j := by
  rw [Bool.eq_iff_iff]
  simp [listDrop, h]

/-- The word at the address reads what was stored. -/
theorem State.memWordAt_memStore_self : (s.memStore a q).memWordAt a = q := by
  rw [State.memWordAt, State.memStore_standinServes]
  split
  · next h => rw [State.memStore_standin.1, if_pos (State.standinFor_of_serves h), Sparse.read_write_self]
  · next h =>
    rw [State.memStore_bank.1, if_pos (State.bankWritten_of_not_serves (Bool.eq_false_iff.mpr h)), Sparse.read_write_self]

/-- It is uncorrectable in a failed bank alone. -/
theorem State.memBadAt_memStore_self :
    (s.memStore a q).memBadAt a = s.bankFailed (memTower a) (memBank a) := by
  rw [State.memBadAt, State.memStore_bankFailed, State.memStore_standinServes]
  split
  · next h => rw [State.memStore_standin.2, if_pos (State.standinFor_of_serves h), not_mem_listDrop, Bool.or_false]
  · next h =>
    rw [State.memStore_bank.2, if_pos (State.bankWritten_of_not_serves (Bool.eq_false_iff.mpr h)), not_mem_listDrop,
      Bool.or_false]

/-- The stand-ins of two words of different addresses, where both are concerned, are different words. -/
theorem standinKey_ne (h : a / 16 ≠ b / 16) (ha : s.standinFor (memTower a) (memBank a) = true)
    (hb : s.standinFor (memTower b) (memBank b) = true) :
    standinKey (memTower a) (memBank a) (memWord a) ≠ standinKey (memTower b) (memBank b) (memWord b) := by
  intro he
  simp only [State.standinFor, Bool.and_eq_true, beq_iff_eq] at ha hb
  have hgroup : memTower a = memTower b ∧ memBank a / 32 = memBank b / 32 ∧ memWord a = memWord b := by
    simp only [standinKey, memTower, memBank, memWord] at he ⊢
    omega
  obtain ⟨htower, hg, hword⟩ := hgroup
  have hbank : memBank a = memBank b := by rw [← ha.2, ← hb.2, htower, hg]
  simp only [memTower, memBank, memWord] at htower hbank hword
  omega

/-- The words at other addresses keep their data. -/
theorem State.memWordAt_memStore_ne (h : a / 16 ≠ b / 16) : (s.memStore a q).memWordAt b = s.memWordAt b := by
  rw [State.memWordAt, State.memWordAt, State.memStore_standinServes]
  split
  · next hs =>
    rw [State.memStore_standin.1]
    split
    · next ha => exact Sparse.read_write_ne (standinKey_ne h ha (State.standinFor_of_serves hs))
    · rfl
  · rw [State.memStore_bank.1]
    split
    · exact Sparse.read_write_ne h
    · rfl

/-- And their errors. -/
theorem State.memBadAt_memStore_ne (h : a / 16 ≠ b / 16) : (s.memStore a q).memBadAt b = s.memBadAt b := by
  rw [State.memBadAt, State.memBadAt, State.memStore_bankFailed, State.memStore_standinServes]
  congr 1
  split
  · next hs =>
    rw [State.memStore_standin.2]
    split
    · next ha => exact mem_listDrop_ne (standinKey_ne h ha (State.standinFor_of_serves hs)).symm
    · rfl
  · rw [State.memStore_bank.2]
    split
    · exact mem_listDrop_ne (Ne.symm h)
    · rfl

theorem memBank_lt : memBank a < 256 := by
  unfold memBank
  omega

/-! ### States in which every word reads alike -/

/-- Design memory, the stand-in arrays and what says which of them a word is read from are the same, for every bank number. -/
structure SameBanks (s t : State) : Prop where
  mem : t.mem = s.mem
  memBad : t.memBad = s.memBad
  standin : t.standin = s.standin
  standinBad : t.standinBad = s.standinBad
  failed : ∀ tw, ∀ k < 4, t.reg .BANK_FAILED [tw, k] = s.reg .BANK_FAILED [tw, k]
  phases : ∀ tw, ∀ k < 8, t.reg .STANDIN_STAT [tw, k] = s.reg .STANDIN_STAT [tw, k]

theorem SameBanks.of_regs (hr : t.regs = s.regs) (hm : t.mem = s.mem) (hb : t.memBad = s.memBad) (hs : t.standin = s.standin)
    (hsb : t.standinBad = s.standinBad) : SameBanks s t :=
  ⟨hm, hb, hs, hsb, fun _ _ _ => by rw [State.reg, hr, State.reg], fun _ _ _ => by rw [State.reg, hr, State.reg]⟩

theorem SameBanks.refl : SameBanks s s := .of_regs rfl rfl rfl rfl rfl

theorem SameBanks.trans (h : SameBanks s t) (k : SameBanks t u) : SameBanks s u :=
  ⟨k.mem.trans h.mem, k.memBad.trans h.memBad, k.standin.trans h.standin, k.standinBad.trans h.standinBad,
    fun tw i hi => (k.failed tw i hi).trans (h.failed tw i hi), fun tw i hi => (k.phases tw i hi).trans (h.phases tw i hi)⟩

section
variable (h : SameBanks s t)
include h

theorem SameBanks.standinPhase {tw k : Nat} (hk : k < 8) : t.standinPhase tw k = s.standinPhase tw k := by
  simp only [State.standinPhase, State.fld, F.STANDIN_STAT.PHASE, h.phases tw k hk]

theorem SameBanks.standinFor {tw k : Nat} (hk : k < 256) : t.standinFor tw k = s.standinFor tw k := by
  simp only [State.standinFor, h.standinPhase (show k / 32 < 8 by omega), State.fld, F.STANDIN_STAT.BANK,
    h.phases tw (k / 32) (by omega)]

theorem SameBanks.standinServes {tw k : Nat} (hk : k < 256) : t.standinServes tw k = s.standinServes tw k := by
  rw [State.standinServes, h.standinFor hk, h.standinPhase (by omega), State.standinServes]

theorem SameBanks.bankFailed {tw k : Nat} (hk : k < 256) : t.bankFailed tw k = s.bankFailed tw k := by
  rw [State.bankFailed, h.failed tw (k / 64) (by omega), State.bankFailed]

theorem SameBanks.memWordAt : t.memWordAt a = s.memWordAt a := by
  rw [State.memWordAt, h.standinServes memBank_lt, h.standin, h.mem, State.memWordAt]

theorem SameBanks.memBadAt : t.memBadAt a = s.memBadAt a := by
  rw [State.memBadAt, h.bankFailed memBank_lt, h.standinServes memBank_lt, h.standinBad, h.memBad, State.memBadAt]

end

/-- The keys of the registers that say how a bank is read, for every tower number, are no keys of other registers of the package. -/
theorem bankKey_ne {r' : RegName} (hr' : r' = .BANK_FAILED ∨ r' = .STANDIN_STAT) {tw k : Nat} (hk : k < 8)
    (hk' : r' = .BANK_FAILED → k < 4) (hr : r ≠ r') (hi : r.valid ix = true)
    (hlow : r.place.1 + ixExt r.place.2 < 0x030005000000 := by decide) : r.key ix ≠ r'.key [tw, k] := by
  by_cases ht : tw < 4
  · refine RegName.key_ne hr hi ?_
    obtain rfl | rfl := hr'
    · simp [RegName.valid, RegName.place, ixValid, ht, hk' rfl]
    · simp [RegName.valid, RegName.place, ixValid, ht, hk]
  · have hkey : 0x030005200000 ≤ r'.key [tw, k] := by
      obtain rfl | rfl := hr'
      · simp only [RegName.key, RegName.addr, RegName.place, ixOffset, reduceCtorEq, if_false]
        omega
      · simp only [RegName.key, RegName.addr, RegName.place, ixOffset, reduceCtorEq, if_false]
        omega
    have hle := (RegName.addr_bounds hi).2
    have hr : r.key ix ≤ r.addr ix + 0x1000 := by
      unfold RegName.key
      split <;> omega
    omega

/-- A write of another register of the package. -/
theorem SameBanks.setReg (hf : r ≠ .BANK_FAILED) (hs : r ≠ .STANDIN_STAT) (hi : r.valid ix = true)
    (hlow : r.place.1 + ixExt r.place.2 < 0x030005000000 := by decide) : SameBanks s (s.setReg r ix v) :=
  ⟨rfl, rfl, rfl, rfl, fun _ _ hk => State.reg_setReg_of_key (bankKey_ne (.inl rfl) (by omega) (fun _ => hk) hf hi hlow),
    fun _ _ hk => State.reg_setReg_of_key (bankKey_ne (.inr rfl) hk nofun hs hi hlow)⟩

theorem SameBanks.put (hf : f.reg ≠ .BANK_FAILED) (hs : f.reg ≠ .STANDIN_STAT) (hi : f.reg.valid ix = true)
    (hlow : f.reg.place.1 + ixExt f.reg.place.2 < 0x030005000000 := by decide) : SameBanks s (s.put f n ix) :=
  .setReg hf hs hi hlow

/-- Events. -/
theorem SameBanks.of_events (h : OnlyEvents s t) (k : KeepsKeys s t) : SameBanks s t := by
  have hbounds : ∀ r ∈ eventRegs, (r ≠ .BANK_FAILED ∧ r ≠ .STANDIN_STAT) ∧ r.place.1 + ixExt r.place.2 < 0x030005000000 := by
    decide
  refine ⟨h.mem, by rw [h.rest], by rw [h.rest], by rw [h.rest], fun tw i hi => ?_, fun tw i hi => ?_⟩
  · rw [State.reg, k.keys _ fun ⟨r, hr, ix, hv, hkey⟩ =>
      bankKey_ne (.inl rfl) (by omega) (fun _ => hi) (hbounds r hr).1.1 hv (hbounds r hr).2 hkey, State.reg]
  · rw [State.reg, k.keys _ fun ⟨r, hr, ix, hv, hkey⟩ =>
      bankKey_ne (.inr rfl) hi nofun (hbounds r hr).1.2 hv (hbounds r hr).2 hkey, State.reg]

theorem SameBanks.hostEvent {ty src : Byte} {ix : BitVec 16} {d : W64} : SameBanks s (s.hostEvent ty src ix d) :=
  .of_events .hostEvent .hostEvent

theorem SameBanks.edge {c : Nat} {m : W64 → Bool} : SameBanks s (s.edge c m) := .of_events .edge (.of_regs rfl)

end Sys2Proof.Machine
end

section
/-! SUPPORT. Items in the cells of the pool (R181, R182, R187, R188, R191): the cell that a push takes, what it holds, and the items
that keep theirs. -/

namespace Sys2Proof.Machine

variable {s t u : State} {q q' n : Nat} {x : Item} {c : QSlot} {lines : List Nat}

/-! ### Numbers -/

theorem four_digits {m n : Nat} (h : n < m * m * m * m) :
    n % m + (n / m % m + (n / m / m % m + n / m / m / m % m * m) * m) * m = n := by
  have hlast : n / m / m / m < m := by
    rw [Nat.div_div_eq_div_mul, Nat.div_div_eq_div_mul]
    exact Nat.div_lt_of_lt_mul (by rwa [← Nat.mul_assoc] at *)
  rw [Nat.mod_eq_of_lt hlast, Nat.mul_comm (n / m / m / m) m, Nat.mod_add_div (n / m / m) m, Nat.mul_comm (n / m / m) m,
    Nat.mod_add_div (n / m) m, Nat.mul_comm (n / m) m, Nat.mod_add_div n m]

theorem joinQuads_cons {w : Quad} {ws : List Quad} : joinQuads (w :: ws) = w.toNat + joinQuads ws * 2 ^ 128 := by
  rw [joinQuads, List.foldr_cons, joinQuads]

theorem joinQuads_one {w : Quad} : joinQuads [w] = w.toNat := by
  rw [joinQuads_cons, joinQuads, List.foldr_nil, Nat.zero_mul, Nat.add_zero]

theorem joinQuads_four {a b c d : Quad} : joinQuads [a, b, c, d] =
    a.toNat + (b.toNat + (c.toNat + d.toNat * 2 ^ 128) * 2 ^ 128) * 2 ^ 128 := by
  rw [joinQuads_cons, joinQuads_cons, joinQuads_cons, joinQuads_one]

theorem quadAt_toNat (i : Nat) : (quadAt x i).toNat = (x.toNat >>> (128 * i)) % 2 ^ 128 := by rw [quadAt, BitVec.toNat_ofNat]

theorem item_lt : x.toNat < 2 ^ 128 * 2 ^ 128 * 2 ^ 128 * 2 ^ 128 :=
  lt_of_lt_of_eq x.isLt (by rw [← Nat.pow_add, ← Nat.pow_add, ← Nat.pow_add])

/-- An item is made of its four words. -/
theorem joinQuads_quadAt (x : Item) : BitVec.ofNat 512 (joinQuads ((List.range 4).map (quadAt x))) = x := by
  have hjoin : joinQuads ((List.range 4).map (quadAt x)) = x.toNat := by
    have hdigits := four_digits (item_lt (x := x))
    simp only [Nat.div_div_eq_div_mul, ← Nat.pow_add] at hdigits
    refine joinQuads_four.trans (Eq.trans ?_ hdigits)
    rw [quadAt_toNat, quadAt_toNat, quadAt_toNat, quadAt_toNat, Nat.shiftRight_eq_div_pow, Nat.shiftRight_eq_div_pow,
      Nat.shiftRight_eq_div_pow, Nat.shiftRight_eq_div_pow, Nat.pow_zero, Nat.div_one]
  rw [hjoin, BitVec.ofNat_toNat, BitVec.setWidth_eq]
/-- Some number is not listed, within the length of the list. -/
theorem exists_not_mem (l : List Nat) : ∃ n ∈ List.range (l.length + 1), n ∉ l := by
  by_contra h
  simp only [not_exists, not_and, not_not] at h
  have hle := (List.subperm_of_subset List.nodup_range h).length_le
  simp at hle

theorem cellAddr_tower (hc : c.cell < 65536) {i : Nat} (hi : i < 4) : memTower (c.addr + 16 * i) = c.bank / 256 := by
  simp only [memTower, QSlot.addr]
  omega

theorem cellAddr_bank (hc : c.cell < 65536) {i : Nat} (hi : i < 4) : memBank (c.addr + 16 * i) = c.bank % 256 := by
  simp only [memBank, QSlot.addr]
  omega

/-- The words of different cells are different words. -/
theorem cellAddr_ne {d : QSlot} (hc : c.cell < 65536) (hd : d.cell < 65536) (hne : ¬(c.bank = d.bank ∧ c.cell = d.cell))
    {i j : Nat} (hi : i < 4) (hj : j < 4) : (c.addr + 16 * i) / 16 ≠ (d.addr + 16 * j) / 16 := by
  simp only [QSlot.addr]
  omega

/-! ### Cells and slots -/

theorem State.seen_congr (hw : ∀ i < 4, t.memWordAt (c.addr + 16 * i) = s.memWordAt (c.addr + 16 * i))
    (hb : ∀ i < 4, t.memBadAt (c.addr + 16 * i) = s.memBadAt (c.addr + 16 * i)) : t.seen c = s.seen c := by
  have hwords : (cellWords c.addr).map t.memWordAt = (cellWords c.addr).map s.memWordAt := by
    simp only [cellWords, List.map_map, List.map_inj_left, List.mem_range, Function.comp]
    exact hw
  have hbad : (cellWords c.addr).any t.memBadAt = (cellWords c.addr).any s.memBadAt := by
    rw [Bool.eq_iff_iff]
    simp only [cellWords, List.any_eq_true, List.mem_map, List.mem_range, exists_exists_and_eq_and]
    exact exists_congr fun i => and_congr_right fun hi => by rw [hb i hi]
  rw [State.seen, hwords, hbad, State.seen]

theorem SameBanks.seen (h : SameBanks s t) : t.seen c = s.seen c :=
  State.seen_congr (fun _ _ => h.memWordAt) fun _ _ => h.memBadAt

theorem State.items_congr (h : SameBanks s t) (hq : t.slots q = s.slots q) : t.items q = s.items q := by
  rw [State.items, hq, State.items]
  exact List.map_congr_left fun _ _ => h.seen

theorem State.slots_setSlots {xs : List QSlot} : (s.setSlots q xs).slots q' = if q = q' then xs else s.slots q' :=
  Sparse.get_set _

/-- The cells of a queue are cells of the pool's table. -/
theorem State.mem_slots (h : c ∈ s.slots q) : ∃ p ∈ s.qitems, c ∈ p.2 := by
  unfold State.slots at h
  revert h
  induction s.qitems with
  | nil => intro h; exact absurd h (by simp)
  | cons p l ih =>
    rw [Sparse.get_cons]
    split
    · exact fun h => ⟨p, by simp, h⟩
    · exact fun h => (ih h).imp fun _ h => ⟨by simp [h.1], h.2⟩

theorem State.mem_cellsUsed (h : c ∈ s.slots q) : c.cell ∈ s.cellsUsed c.bank := by
  obtain ⟨p, hp, hc⟩ := State.mem_slots h
  simp only [State.cellsUsed, List.mem_flatMap, List.mem_map, List.mem_filter, beq_iff_eq]
  exact ⟨p, hp, c, ⟨hc, rfl⟩, rfl⟩

/-! ### The cell that the next item takes -/

theorem State.cellPick_free {b : Nat} : s.cellPick b ∉ s.cellsUsed b ∧ s.cellPick b ≤ s.poolUsed b := by
  have hfree := exists_not_mem (s.cellsUsed b)
  unfold State.cellPick
  dsimp only
  cases hf : (List.range ((s.cellsUsed b).length + 1)).find? fun n => !(s.cellsUsed b).contains n with
  | none =>
    obtain ⟨n, hn, hnot⟩ := hfree
    have := List.find?_eq_none.mp hf n hn
    simp [hnot] at this
  | some n =>
    have hn := List.find?_some hf
    have hr := List.mem_range.mp (List.mem_of_find?_eq_some hf)
    refine ⟨by simpa using hn, ?_⟩
    rw [Option.getD_some, State.poolUsed]
    omega

theorem emptyCells_eq_zero {l : List Nat} (h : ∀ b ∈ l, 65536 ≤ s.poolUsed b) : s.emptyCells l = 0 := by
  unfold State.emptyCells
  induction l with
  | nil => rfl
  | cons b l ih =>
    have hb := h b (by simp)
    rw [List.foldl_cons, show 0 + (65536 - s.poolUsed b) = 0 by omega]
    exact ih fun b hb => h b (by simp [hb])

/-- Where the pool has an empty cell, the next cell lies in a bank with room. -/
theorem State.poolPick_room (h : 0 < s.poolEmpty) : s.poolUsed s.poolPick < 65536 := by
  unfold State.poolPick
  cases hf : s.poolBanks.find? fun b => decide (s.poolUsed b < 65536) with
  | none =>
    have hfull := List.find?_eq_none.mp hf
    have hzero : s.poolEmpty = 0 := emptyCells_eq_zero fun b hb => by simpa using hfull b hb
    omega
  | some b => simpa using List.find?_some hf

/-- The cell that the next item takes. -/
def State.nextCell (s : State) (lines : List Nat) : QSlot :=
  { bank := s.poolPick, cell := s.cellPick s.poolPick, lines := lines }

theorem State.CanStore.cell_lt (h : s.CanStore) : (s.nextCell lines).cell < 65536 := by
  have := State.cellPick_free (s := s) (b := s.poolPick)
  have := State.poolPick_room h.1
  simp only [State.nextCell]
  omega

/-- It is the cell of no item. -/
theorem State.nextCell_fresh (h : c ∈ s.slots q) :
    ¬((s.nextCell lines).bank = c.bank ∧ (s.nextCell lines).cell = c.cell) := by
  rintro ⟨hb, hc⟩
  have hused := State.mem_cellsUsed h
  rw [← hb, ← hc] at hused
  exact State.cellPick_free.1 hused

/-! ### Storing an item -/

/-- The four words of an item written at `a`. -/
def State.storeQuads (s : State) (a : Nat) (x : Item) : State :=
  (List.range 4).foldl (fun s i => s.memStore (a + 16 * i) (quadAt x i)) s

theorem State.storeQuads_eq {a : Nat} : s.storeQuads a x =
    (((s.memStore (a + 16 * 0) (quadAt x 0)).memStore (a + 16 * 1) (quadAt x 1)).memStore (a + 16 * 2) (quadAt x 2)).memStore
      (a + 16 * 3) (quadAt x 3) := rfl

theorem State.storeQuads_word {a i : Nat} (hi : i < 4) : (s.storeQuads a x).memWordAt (a + 16 * i) = quadAt x i := by
  rw [State.storeQuads_eq]
  obtain rfl | rfl | rfl | rfl : i = 0 ∨ i = 1 ∨ i = 2 ∨ i = 3 := by omega
  · rw [State.memWordAt_memStore_ne (by omega), State.memWordAt_memStore_ne (by omega), State.memWordAt_memStore_ne (by omega),
      State.memWordAt_memStore_self]
  · rw [State.memWordAt_memStore_ne (by omega), State.memWordAt_memStore_ne (by omega), State.memWordAt_memStore_self]
  · rw [State.memWordAt_memStore_ne (by omega), State.memWordAt_memStore_self]
  · exact State.memWordAt_memStore_self

theorem State.storeQuads_bad {a i : Nat} (hi : i < 4) :
    (s.storeQuads a x).memBadAt (a + 16 * i) = s.bankFailed (memTower (a + 16 * i)) (memBank (a + 16 * i)) := by
  rw [State.storeQuads_eq]
  obtain rfl | rfl | rfl | rfl : i = 0 ∨ i = 1 ∨ i = 2 ∨ i = 3 := by omega
  · rw [State.memBadAt_memStore_ne (by omega), State.memBadAt_memStore_ne (by omega), State.memBadAt_memStore_ne (by omega),
      State.memBadAt_memStore_self]
  · rw [State.memBadAt_memStore_ne (by omega), State.memBadAt_memStore_ne (by omega), State.memBadAt_memStore_self,
      State.memStore_bankFailed]
  · rw [State.memBadAt_memStore_ne (by omega), State.memBadAt_memStore_self, State.memStore_bankFailed,
      State.memStore_bankFailed]
  · rw [State.memBadAt_memStore_self, State.memStore_bankFailed, State.memStore_bankFailed, State.memStore_bankFailed]

theorem State.storeQuads_word_ne {a b : Nat} (h : ∀ i < 4, (a + 16 * i) / 16 ≠ b / 16) :
    (s.storeQuads a x).memWordAt b = s.memWordAt b := by
  rw [State.storeQuads_eq, State.memWordAt_memStore_ne (h 3 (by decide)), State.memWordAt_memStore_ne (h 2 (by decide)),
    State.memWordAt_memStore_ne (h 1 (by decide)), State.memWordAt_memStore_ne (h 0 (by decide))]

theorem State.storeQuads_bad_ne {a b : Nat} (h : ∀ i < 4, (a + 16 * i) / 16 ≠ b / 16) :
    (s.storeQuads a x).memBadAt b = s.memBadAt b := by
  rw [State.storeQuads_eq, State.memBadAt_memStore_ne (h 3 (by decide)), State.memBadAt_memStore_ne (h 2 (by decide)),
    State.memBadAt_memStore_ne (h 1 (by decide)), State.memBadAt_memStore_ne (h 0 (by decide))]

/-- A cell of a bank that is not FAILED holds the item stored in it. -/
theorem State.storeQuads_seen (hc : c.cell < 65536) (hf : s.bankFailed (c.bank / 256) (c.bank % 256) = false) :
    ((s.storeQuads c.addr x).seen c).item = x ∧ ((s.storeQuads c.addr x).seen c).poison = false := by
  constructor
  · have hwords : (cellWords c.addr).map (s.storeQuads c.addr x).memWordAt = (List.range 4).map (quadAt x) := by
      simp only [cellWords, List.map_map, List.map_inj_left, List.mem_range, Function.comp]
      exact fun i hi => State.storeQuads_word hi
    simp only [State.seen, hwords, joinQuads_quadAt]
  · have hbad {i : Nat} (hi : i < 4) : (s.storeQuads c.addr x).memBadAt (c.addr + 16 * i) = false := by
      rw [State.storeQuads_bad hi, cellAddr_tower hc hi, cellAddr_bank hc hi, hf]
    simp only [State.seen, cellWords, List.any_eq_false, List.mem_map, List.mem_range, forall_exists_index, and_imp]
    rintro _ i hi rfl
    rw [hbad hi]
    decide

/-- The other cells hold what they held. -/
theorem State.storeQuads_seen_ne {d : QSlot} (hc : c.cell < 65536) (hd : d.cell < 65536)
    (hne : ¬(c.bank = d.bank ∧ c.cell = d.cell)) : (s.storeQuads c.addr x).seen d = s.seen d :=
  State.seen_congr (fun _ hj => State.storeQuads_word_ne fun _ hi => cellAddr_ne hc hd hne hi hj)
    fun _ hj => State.storeQuads_bad_ne fun _ hi => cellAddr_ne hc hd hne hi hj

theorem State.storeQuads_slots {a : Nat} : (s.storeQuads a x).slots q = s.slots q := by
  have hstore {s : State} {a : Nat} {w : Quad} : (s.memStore a w).qitems = s.qitems := by
    unfold State.memStore
    dsimp only
    split <;> split <;> rfl
  simp only [State.slots, State.storeQuads_eq, hstore]

/-- The queue `q` of `t` with cell `c` at its tail. -/
theorem State.storeItem_eq : ∃ l, s.storeItem q x lines =
    { (s.storeQuads (s.nextCell lines).addr x).setSlots q
        ((s.storeQuads (s.nextCell lines).addr x).slots q ++ [s.nextCell lines]) with linkBad := l } := ⟨_, rfl⟩

theorem State.storeItem_seen : (s.storeItem q x lines).seen c = (s.storeQuads (s.nextCell lines).addr x).seen c := by
  obtain ⟨l, h⟩ := State.storeItem_eq (s := s) (q := q) (x := x) (lines := lines)
  rw [h]
  exact SameBanks.seen (.of_regs rfl rfl rfl rfl rfl)

theorem State.storeItem_slots :
    (s.storeItem q x lines).slots q' = if q = q' then s.slots q ++ [s.nextCell lines] else s.slots q' := by
  obtain ⟨l, h⟩ := State.storeItem_eq (s := s) (q := q) (x := x) (lines := lines)
  have hset := State.slots_setSlots (s := s.storeQuads (s.nextCell lines).addr x) (q := q) (q' := q')
    (xs := (s.storeQuads (s.nextCell lines).addr x).slots q ++ [s.nextCell lines])
  rw [State.storeQuads_slots, State.storeQuads_slots] at hset
  rw [h, State.storeQuads_slots]
  exact hset

/-- The items in the cells of a queue keep them while another is stored. -/
theorem State.storeItem_seen_old (h : s.CanStore) (hc : c ∈ s.slots q') :
    (s.storeItem q x lines).seen c = s.seen c := by
  obtain ⟨p, hp, hcp⟩ := State.mem_slots hc
  rw [State.storeItem_seen, State.storeQuads_seen_ne h.cell_lt (h.2.2 p hp c hcp).2 (State.nextCell_fresh hc)]

/-- The item is stored in the next cell, at the tail of its queue. -/
theorem State.storeItem_items (h : s.CanStore) : ∃ cell, (s.storeItem q x lines).items q = s.items q ++ [cell] ∧ cell.item = x ∧
    cell.poison = false := by
  obtain ⟨hitem, hpoison⟩ := State.storeQuads_seen (x := x) (h.cell_lt (lines := lines)) h.2.1
  refine ⟨(s.storeItem q x lines).seen (s.nextCell lines), ?_, ?_, ?_⟩
  · rw [State.items, State.storeItem_slots, if_pos rfl, List.map_append,
      List.map_congr_left fun _ hd => State.storeItem_seen_old h hd]
    rfl
  · rw [State.storeItem_seen, hitem]
  · rw [State.storeItem_seen, hpoison]

theorem State.storeItem_items_ne (h : s.CanStore) (hq : q' ≠ q) : (s.storeItem q x lines).items q' = s.items q' := by
  rw [State.items, State.storeItem_slots, if_neg (Ne.symm hq), List.map_congr_left fun _ hd => State.storeItem_seen_old h hd,
    State.items]

end Sys2Proof.Machine
end

section
/-! SUPPORT. What a push, a pop and a grant do to the registers and the items of the queues (R187, R188, R191, R206), and O18. -/

namespace Sys2Proof.Machine

variable {s t u : State} {q q' n : Nat} {x : Item} {f w : Fld} {ix ix' lines : List Nat} {r : RegName}

/-! ### Fields apart from the ones written -/

/-- A field keeps its value where a field of another register, or of another part of the same one, is written. -/
theorem State.fld_put_apart (hw : w.lo ≤ w.hi) (hf : f.hi < 64) (hd : f.reg = w.reg → f.hi < w.lo ∨ w.hi < f.lo)
    (hi : w.reg.valid ix = true) (hi' : f.reg.valid ix' = true) : (s.put w n ix).fld f ix' = s.fld f ix' := by
  by_cases hr : f.reg = w.reg
  · by_cases hx : ix = ix'
    · subst hx
      exact State.fld_put_field hr hw hf (hd hr)
    · exact State.fld_put_ix hr hx hi (hr ▸ hi')
  · exact State.fld_put_ne (Ne.symm hr) hi hi'

/-- The field lies in no register of events and apart from what a push writes (CREDITS, HIGH and TAIL). -/
structure Fld.Apart (f : Fld) : Prop where
  events : f.reg ∉ eventRegs
  high : f.hi < 64
  stat : f.reg = .Q_STAT → 41 < f.lo ∧ f.hi < 63 ∨ f.hi < 21
  seq : f.reg = .Q_SEQ → 31 < f.lo

theorem apart_faulted : F.Q_STAT.FAULTED.Apart := ⟨by decide, by decide, by decide, by decide⟩
theorem apart_head : F.Q_SEQ.HEAD.Apart := ⟨by decide, by decide, by decide, by decide⟩

/-! ### The watermark -/

theorem KeepsKeys.edge {c : Nat} {m : W64 → Bool} : KeepsKeys s (s.edge c m) := .of_regs rfl

/-- The watermark writes HIGH; the rest is events. -/
theorem State.watermark_puts : ∃ b, OnlyEvents (s.put F.Q_STAT.HIGH b [q]) (s.watermark q) ∧
    KeepsKeys (s.put F.Q_STAT.HIGH b [q]) (s.watermark q) := by
  refine ⟨b2n (highFlag (s.fld F.Q_LEVEL.LOW [q]) (s.fld F.Q_LEVEL.HIGH [q]) (s.qCount q) (s.flag F.Q_STAT.HIGH [q])), ?_⟩
  unfold State.watermark
  dsimp only
  split
  · split
    · exact ⟨OnlyEvents.edge.trans .hostEvent, KeepsKeys.edge.trans .hostEvent⟩
    · exact ⟨.edge, .edge⟩
  · split
    · split
      · exact ⟨OnlyEvents.edge.trans .hostEvent, KeepsKeys.edge.trans .hostEvent⟩
      · exact ⟨.edge, .edge⟩
    · exact ⟨.refl _, .refl⟩

theorem OnlyEvents.qitems (h : OnlyEvents s t) : t.qitems = s.qitems := by rw [h.rest]

theorem State.slots_of_qitems (h : t.qitems = s.qitems) : t.slots q = s.slots q := by rw [State.slots, h, State.slots]

theorem State.watermark_qitems : (s.watermark q).qitems = s.qitems := by
  obtain ⟨b, he, -⟩ := State.watermark_puts (s := s) (q := q)
  exact he.qitems

/-- A field apart from HIGH. -/
theorem State.watermark_fld (hq : q < 8192) (he : f.reg ∉ eventRegs) (hf : f.hi < 64)
    (hd : f.reg = .Q_STAT → f.hi < 63) (hi : f.reg.valid ix = true) : (s.watermark q).fld f ix = s.fld f ix := by
  obtain ⟨b, hevents, -⟩ := State.watermark_puts (s := s) (q := q)
  rw [hevents.fld hi he]
  exact State.fld_put_apart (by decide) hf (fun hr => .inl (hd hr)) (queue_valid hq).1 hi

theorem SameBanks.put_stat (hq : q < 8192) (hf : f.reg = .Q_STAT) : SameBanks s (s.put f n [q]) :=
  .put (by rw [hf]; decide) (by rw [hf]; decide) (by rw [hf]; exact (queue_valid hq).1) (by rw [hf]; decide)

theorem SameBanks.put_seq (hq : q < 8192) (hf : f.reg = .Q_SEQ) : SameBanks s (s.put f n [q]) :=
  .put (by rw [hf]; decide) (by rw [hf]; decide) (by rw [hf]; exact (queue_valid hq).2) (by rw [hf]; decide)

theorem SameBanks.watermark (hq : q < 8192) : SameBanks s (s.watermark q) := by
  obtain ⟨b, he, hk⟩ := State.watermark_puts (s := s) (q := q)
  exact (SameBanks.put_stat hq rfl).trans (.of_events he hk)

/-! ### Credits -/

theorem credits_valid (hq : q < 8192) : F.Q_STAT.CREDITS.reg.valid [q] = true := (queue_valid hq).1

theorem SameBanks.setCredits (hq : q < 8192) : SameBanks s (s.setCredits q n) :=
  (SameBanks.put_stat (f := F.Q_STAT.CREDITS) (n := n) hq rfl).trans (.of_regs rfl rfl rfl rfl rfl)

theorem State.setCredits_qitems : (s.setCredits q n).qitems = s.qitems := rfl

theorem State.setCredits_credits : (s.setCredits q n).credits q = n % 2 ^ 21 := State.fld_put (by decide) (by decide)

theorem State.credits_lt : s.credits q < 2 ^ 21 := bitsOf_lt _ _ _

theorem State.setCredits_credits_ne (h : q' ≠ q) (hq : q < 8192) (hq' : q' < 8192) : (s.setCredits q n).credits q' = s.credits q' :=
  State.fld_put_ix rfl (by simpa using Ne.symm h) (credits_valid hq) (credits_valid hq')

theorem State.setCredits_fld (hf : f.hi < 64) (hd : f.reg = .Q_STAT → 41 < f.lo ∨ f.hi < 21) (hq : q < 8192)
    (hi : f.reg.valid ix = true) : (s.setCredits q n).fld f ix = s.fld f ix :=
  State.fld_put_apart (w := F.Q_STAT.CREDITS) (by decide) hf (fun hr => (hd hr).symm) (credits_valid hq) hi

/-- Whether the pool can take an item lies with its banks and with the items in them. -/
theorem State.CanStore.congr (h : s.CanStore) (hb : SameBanks s t) (hq : t.qitems = s.qitems)
    (hp : ∀ i < 64, t.reg .POOL_BANK [i] = s.reg .POOL_BANK [i]) : t.CanStore := by
  have hused : t.cellsUsed = s.cellsUsed := by
    funext b
    rw [State.cellsUsed, hq, State.cellsUsed]
  have hbanks : t.poolBanks = s.poolBanks := by
    have hen : (List.range 64).filter t.poolEn = (List.range 64).filter s.poolEn :=
      List.filter_congr fun i hi => by
        simp only [State.poolEn, State.flag, State.fld, F.POOL_BANK.EN, hp i (List.mem_range.mp hi)]
    rw [State.poolBanks, State.banksOf, hen, State.poolBanks, State.banksOf]
    congr 1
    refine List.map_congr_left fun i hi => ?_
    simp only [State.poolBankNo, State.fld, F.POOL_BANK.BANK, hp i (List.mem_range.mp (List.mem_of_mem_filter hi))]
  have hn : t.poolUsed = s.poolUsed := by
    funext b
    rw [State.poolUsed, hused, State.poolUsed]
  obtain ⟨hempty, hfailed, hcells⟩ := h
  refine ⟨?_, ?_, by rw [hq]; exact hcells⟩
  · rw [State.poolEmpty, State.emptyCells, hbanks, hn]
    exact hempty
  · rw [State.poolPick, hbanks, hn, hb.bankFailed (Nat.mod_lt _ (by decide))]
    exact hfailed

theorem State.CanStore.setCredits (h : s.CanStore) (hq : q < 8192) : (s.setCredits q n).CanStore :=
  h.congr (.setCredits hq) rfl fun i hi => by
    refine State.reg_put_ne (f := F.Q_STAT.CREDITS) (by decide) (credits_valid hq) ?_
    simp [RegName.valid, RegName.place, ixValid, hi]

/-! ### Pushes -/

theorem State.storeItem_regs : (s.storeItem q x lines).regs = s.regs := by
  obtain ⟨l, h⟩ := State.storeItem_eq (s := s) (q := q) (x := x) (lines := lines)
  rw [h]
  show (s.storeQuads _ x).regs = s.regs
  rw [State.storeQuads_eq]
  simp only [State.memStore_regs]

theorem State.storeItem_fld : (s.storeItem q x lines).fld f ix = s.fld f ix := by
  rw [State.fld, State.reg, State.storeItem_regs, State.fld, State.reg]

/-- What follows the storing of an item: TAIL and the watermark. -/
theorem SameBanks.appendItem (hq : q < 8192) : SameBanks (s.storeItem q x lines) (s.appendItem q x lines) :=
  (SameBanks.put_seq (f := F.Q_SEQ.TAIL) hq rfl).trans (.watermark hq)

theorem State.appendItem_slots : (s.appendItem q x lines).slots q' = (s.storeItem q x lines).slots q' :=
  State.slots_of_qitems State.watermark_qitems

theorem State.appendItem_items (hq : q < 8192) : (s.appendItem q x lines).items q' = (s.storeItem q x lines).items q' :=
  State.items_congr (.appendItem hq) State.appendItem_slots

theorem State.setCredits_items (hq : q < 8192) : (s.setCredits q n).items q' = s.items q' :=
  State.items_congr (.setCredits hq) rfl

theorem State.pushCell_items (h : s.CanStore) (hq : q < 8192) :
    ∃ cell, (s.pushCell q x lines).items q = s.items q ++ [cell] ∧ cell.item = x ∧ cell.poison = false := by
  obtain ⟨cell, hitems, hx, hp⟩ := State.storeItem_items (q := q) (x := x) (lines := lines)
    (h.setCredits (n := s.credits q - 1) hq)
  refine ⟨cell, ?_, hx, hp⟩
  rw [State.pushCell, State.appendItem_items hq, hitems, State.setCredits_items hq]

theorem State.pushCell_items_ne (h : s.CanStore) (hq : q < 8192) (hne : q' ≠ q) :
    (s.pushCell q x lines).items q' = s.items q' := by
  rw [State.pushCell, State.appendItem_items hq, State.storeItem_items_ne (h.setCredits hq) hne, State.setCredits_items hq]

theorem State.appendItem_fld (hq : q < 8192) (he : f.reg ∉ eventRegs) (hf : f.hi < 64) (hstat : f.reg = .Q_STAT → f.hi < 63)
    (hseq : f.reg = .Q_SEQ → 31 < f.lo) (hi : f.reg.valid ix = true) :
    (s.appendItem q x lines).fld f ix = s.fld f ix := by
  rw [State.appendItem, State.watermark_fld hq he hf hstat hi,
    State.fld_put_apart (w := F.Q_SEQ.TAIL) (by decide) hf (fun hr => .inr (hseq hr)) (queue_valid hq).2 hi, State.storeItem_fld]

theorem State.appendItem_credits (hq : q < 8192) (hq' : q' < 8192) :
    (s.appendItem q x lines).credits q' = s.credits q' :=
  State.appendItem_fld hq (by decide) (by decide) (by decide) (by decide) (credits_valid hq')

theorem State.pushCell_credits (hq : q < 8192) : (s.pushCell q x lines).credits q = s.credits q - 1 := by
  rw [State.pushCell, State.appendItem_credits hq hq, State.setCredits_credits,
    Nat.mod_eq_of_lt (Nat.lt_of_le_of_lt (Nat.sub_le _ _) State.credits_lt)]

theorem State.pushCell_credits_ne (hq : q < 8192) (hq' : q' < 8192) (hne : q' ≠ q) :
    (s.pushCell q x lines).credits q' = s.credits q' := by
  rw [State.pushCell, State.appendItem_credits hq hq', State.setCredits_credits_ne hne hq hq']

theorem State.pushCell_tail (hq : q < 8192) :
    (s.pushCell q x lines).fld F.Q_SEQ.TAIL [q] = (s.fld F.Q_SEQ.TAIL [q] + 1) % 2 ^ 32 := by
  have hseq : F.Q_SEQ.TAIL.reg.valid [q] = true := (queue_valid hq).2
  rw [State.pushCell, State.appendItem, State.watermark_fld hq (by decide) (by decide) (by decide) hseq,
    State.fld_put (by decide) (by decide), State.storeItem_fld,
    State.setCredits_fld (by decide) (by decide) hq hseq]
  exact Nat.mod_mod _ _

/-- A push leaves alone what lies apart from what it writes. -/
theorem State.pushCell_apart (hf : f.Apart) (hq : q < 8192) (hi : f.reg.valid ix = true) :
    (s.pushCell q x lines).fld f ix = s.fld f ix := by
  rw [State.pushCell, State.appendItem_fld hq hf.events hf.high (fun hr => by have := hf.stat hr; omega) hf.seq hi,
    State.setCredits_fld hf.high (fun hr => by have := hf.stat hr; omega) hq hi]

/-! ### Grants -/

theorem State.credits_grantSize_lt : s.credits q + s.grantSize q n < 2 ^ 21 := by
  have hc : s.credits q < 2 ^ 21 := State.credits_lt
  have hl : s.fld F.Q_LEVEL.LIMIT [q] < 2 ^ 21 := bitsOf_lt _ _ _
  unfold State.grantSize
  split <;> omega

theorem State.grant_credits : (s.grant q n).credits q = s.credits q + s.grantSize q n := by
  rw [State.grant, State.setCredits_credits, Nat.mod_eq_of_lt State.credits_grantSize_lt]

theorem State.autoPush_apart (h : s.autoPush q x = some t) (hf : f.Apart) (hq : q < 8192) (hi : f.reg.valid ix = true) :
    t.fld f ix = s.fld f ix := by
  unfold State.autoPush at h
  dsimp only at h
  have hgrant : (if s.credits q = 0 then s.grant q 1 else s).fld f ix = s.fld f ix := by
    split
    · exact State.setCredits_fld hf.high (fun hr => by have := hf.stat hr; omega) hq hi
    · rfl
  generalize (if s.credits q = 0 then s.grant q 1 else s) = g at h hgrant
  split at h
  · simp at h
  · cases h
    rw [State.pushCell_apart hf hq hi, hgrant]

/-! ### Error records and faults -/

theorem State.errQueue_lt {target : Option Nat} (h : s.errQueue target = some q) : q < 8192 := by
  unfold State.errQueue at h
  have hlt {f : Fld} {ix : List Nat} (hf : f.hi + 1 - f.lo = 13) : s.fld f ix < 8192 := by
    have := bitsOf_lt (s.reg f.reg ix) f.hi f.lo
    rwa [hf] at this
  split at h <;> split at h <;> simp only [Option.some.injEq, reduceCtorEq] at h <;> subst h
  · exact hlt rfl
  · exact hlt rfl

/-- An error record leaves alone what a push leaves alone, outside ERR_LOST. -/
theorem State.errRecord_apart {target : Option Nat} {type source queue : Nat} {resp : Resp} {addr : W64} (hf : f.Apart)
    (hl : f.reg ≠ .ERR_LOST) (hi : f.reg.valid ix = true) :
    (s.errRecord target type resp source queue addr).fld f ix = s.fld f ix := by
  have hlost : (s.count F.ERR_LOST.COUNT).fld f ix = s.fld f ix :=
    State.fld_put_ne (f := F.ERR_LOST.COUNT) (Ne.symm hl) (by decide) hi
  unfold State.errRecord
  cases hq : s.errQueue target with
  | none => exact hlost
  | some q =>
    dsimp only
    split
    · split
      · next hp => exact State.autoPush_apart hp hf (State.errQueue_lt hq) hi
      · exact hlost
    · exact hlost

theorem State.faultQueue_faulted {type : Nat} {resp : Resp} {addr : W64} (hq : q < 8192) :
    (s.faultQueue q type resp addr).fld F.Q_STAT.FAULTED [q] = 1 := by
  unfold State.faultQueue
  split
  · next h =>
    have hlt : s.fld F.Q_STAT.FAULTED [q] < 2 := bitsOf_lt _ _ _
    have hne : s.fld F.Q_STAT.FAULTED [q] ≠ 0 := by simpa [State.flag] using h
    omega
  · rw [State.errRecord_apart apart_faulted (by decide) (queue_valid hq).1, State.fld_put (by decide) (by decide)]
    rfl

theorem State.faultQueue_head {type : Nat} {resp : Resp} {addr : W64} (hq : q < 8192) :
    (s.faultQueue q type resp addr).fld F.Q_SEQ.HEAD [q] = s.fld F.Q_SEQ.HEAD [q] := by
  have hi : F.Q_SEQ.HEAD.reg.valid [q] = true := (queue_valid hq).2
  unfold State.faultQueue
  split
  · rfl
  · rw [State.errRecord_apart apart_head (by decide) hi, State.fld_put_ne (by decide) (queue_valid hq).1 hi,
      State.setCredits_fld (by decide) (by decide) hq hi]

/-! ### Pops -/

theorem State.freeCell_slots {d : Nat} : (s.freeCell q d).slots q' = if q = q' then (s.slots q).eraseIdx d else s.slots q' :=
  (State.slots_of_qitems State.watermark_qitems).trans State.slots_setSlots

theorem SameBanks.freeCell {d : Nat} (hq : q < 8192) : SameBanks s (s.freeCell q d) := by
  unfold State.freeCell
  exact (SameBanks.of_regs (s := s) (t := s.setSlots q ((s.slots q).eraseIdx d)) rfl rfl rfl rfl rfl).trans
    ((SameBanks.put_seq (f := F.Q_SEQ.HEAD) hq rfl).trans (.watermark hq))

theorem State.freeCell_items_ne {d : Nat} (hq : q < 8192) (hne : q' ≠ q) : (s.freeCell q d).items q' = s.items q' :=
  State.items_congr (.freeCell hq) (by rw [State.freeCell_slots, if_neg (Ne.symm hne)])

theorem State.freeCell_items (hq : q < 8192) : (s.freeCell q 0).items q = (s.items q).tail := by
  have hseen (c : QSlot) : (s.freeCell q 0).seen c = s.seen c := (SameBanks.freeCell hq).seen
  rw [State.items, State.freeCell_slots, if_pos rfl, List.eraseIdx_zero, List.map_congr_left fun c _ => hseen c, List.map_tail,
    State.items]

theorem State.freeCell_credits {d : Nat} (hq : q < 8192) (hq' : q' < 8192) : (s.freeCell q d).credits q' = s.credits q' := by
  have hi := credits_valid hq'
  rw [State.credits, State.freeCell, State.watermark_fld hq (by decide) (by decide) (by decide) hi,
    State.fld_put_ne (f := F.Q_SEQ.HEAD) (by decide) (queue_valid hq).2 hi]
  rfl

theorem State.freeCell_head {d : Nat} (hq : q < 8192) :
    (s.freeCell q d).fld F.Q_SEQ.HEAD [q] = (s.fld F.Q_SEQ.HEAD [q] + 1) % 2 ^ 32 := by
  rw [State.freeCell, State.watermark_fld hq (by decide) (by decide) (by decide) (queue_valid hq).2,
    State.fld_put (by decide) (by decide)]
  exact Nat.mod_mod _ _

theorem State.popCell_good (h : s.badLink q 0 = false) : s.popCell q = s.freeCell q 0 := by
  simp [State.popCell, State.takeCell, h]

theorem State.popCell_bad (h : s.badLink q 0 = true) : s.popCell q = (s.freeCell q 0).faultQueue q 5 .ok := by
  simp [State.popCell, State.takeCell, h]

theorem State.popCell_head (hq : q < 8192) : (s.popCell q).fld F.Q_SEQ.HEAD [q] = (s.fld F.Q_SEQ.HEAD [q] + 1) % 2 ^ 32 := by
  cases h : s.badLink q 0 with
  | false => rw [State.popCell_good h, State.freeCell_head hq]
  | true => rw [State.popCell_bad h, State.faultQueue_head hq, State.freeCell_head hq]

theorem State.flag_of_fld (h : s.fld f ix = 1) : s.flag f ix = true := by simp [State.flag, h]

/-- Settles O18: an item is stored in the next free cell of the pool, whose words no other item's cell shares; credits and positions
are fields of the queue's own registers, which events and error records leave alone. -/
theorem queueCells : Obligations.QueueCells := by
  unfold Obligations.QueueCells
  intro s q x n
  have hq := q.isLt
  refine ⟨fun h => State.pushCell_items h hq, State.pushCell_credits hq, State.pushCell_tail hq, State.popCell_head hq,
    fun h => ?_, fun h => ?_, State.grant_credits, State.setCredits_items hq, fun q' hne => ?_⟩
  · rw [State.popCell_good h]
    exact ⟨State.freeCell_items hq, State.freeCell_credits hq hq⟩
  · rw [State.popCell_bad h]
    exact State.flag_of_fld (State.faultQueue_faulted hq)
  · have hq' := q'.isLt
    have hval : (q' : Nat) ≠ q := fun h => hne (Fin.ext h)
    refine ⟨fun h => State.pushCell_items_ne h hq hval, State.pushCell_credits_ne hq hq' hval, fun h => ?_,
      State.setCredits_items hq, State.setCredits_credits_ne hval hq hq'⟩
    rw [State.popCell_good h]
    exact ⟨State.freeCell_items_ne hq hval, State.freeCell_credits hq hq'⟩

end Sys2Proof.Machine
end

section
/-! SUPPORT. The correction of a fetched word (R171, R179), the step of an engine that runs alone, and O4. -/

namespace Sys2Proof.Machine

variable {s t u : State} {e : Eng} {f : Fld} {tw a n reader : Nat} {src : EccSource} {w : W64}

/-! ### The counts of the error log -/

/-- A count of ECC_STAT: a field above the log's own. -/
structure Fld.EccCount (f : Fld) : Prop where
  reg : f.reg = .ECC_STAT
  high : f.hi < 64
  low : 16 ≤ f.lo

theorem corrected_eccCount : F.ECC_STAT.CORRECTED.EccCount := ⟨rfl, by decide, by decide⟩
theorem uncorrectable_eccCount : F.ECC_STAT.UNCORRECTABLE.EccCount := ⟨rfl, by decide, by decide⟩

section
variable (hf : f.EccCount) (ht : tw < 4)
include hf

theorem State.eccLog_put {g : Fld} (hr : g.reg = .ECC_STAT) (hlow : g.lo ≤ g.hi) (hg : g.hi < 16) :
    (s.put g n [tw]).fld f [tw] = s.fld f [tw] :=
  State.fld_put_field (by rw [hf.reg, hr]) hlow hf.high (.inr (by have := hf.low; omega))

include ht

theorem State.eccPut_fld {i : Nat} (hi : i < 32) : (s.eccPut tw i a w).fld f [tw] = s.fld f [tw] := by
  have hstat : f.reg.valid [tw] = true := by rw [hf.reg]; exact eccStat_valid ht
  have hlog := ecc_valid ht hi
  rw [State.fld, State.eccPut, State.reg_setReg_ne (by rw [hf.reg]; decide) hlog.2 hstat,
    State.reg_setReg_ne (by rw [hf.reg]; decide) hlog.1 hstat, State.fld]

theorem State.eccShift_fld : (s.eccShift tw).fld f [tw] = s.fld f [tw] := by
  have hshift (l : List Nat) (hl : ∀ i ∈ l, i < 31) (s : State) : (l.foldl (fun s i =>
      (s.setReg .ECC_ADDR [tw, i] (s.reg .ECC_ADDR [tw, i + 1])).setReg .ECC_INFO [tw, i] (s.reg .ECC_INFO [tw, i + 1])) s).fld
        f [tw] = s.fld f [tw] := by
    have hstat : f.reg.valid [tw] = true := by rw [hf.reg]; exact eccStat_valid ht
    induction l generalizing s with
    | nil => rfl
    | cons i l ih =>
      have hlog := ecc_valid ht (i := i) (by have := hl i (by simp); omega)
      rw [List.foldl_cons, ih (fun i hi => hl i (by simp [hi])), State.fld,
        State.reg_setReg_ne (by rw [hf.reg]; decide) hlog.2 hstat, State.reg_setReg_ne (by rw [hf.reg]; decide) hlog.1 hstat,
        State.fld]
  exact hshift _ (fun i hi => List.mem_range.mp hi) s

theorem State.eccAdd_fld : (s.eccAdd tw a src n w).fld f [tw] = s.fld f [tw] := by
  unfold State.eccAdd
  dsimp only
  split
  · rfl
  · split
    · rw [State.eccFrozen, State.eccLog_put hf rfl (by decide) (by decide), State.eccLog_put hf rfl (by decide) (by decide),
        State.eccPut_fld hf ht ‹_›]
    · split
      · rw [State.eccLog_put hf rfl (by decide) (by decide), State.eccPut_fld hf ht (by decide), State.eccShift_fld hf ht]
      · rw [State.eccLog_put hf rfl (by decide) (by decide)]

theorem State.eccEnter_fld {b : Bool} : (s.eccEnter tw a b src reader).fld f [tw] = s.fld f [tw] := by
  rw [State.eccEnter, State.eccAdd_fld hf ht, State.drawSyndrome]
  split <;> rfl

end

/-- A corrected error is counted, up to the field's end. -/
theorem State.eccError_corrected (ht : tw < 4) : (s.eccError tw a false src reader).fld F.ECC_STAT.CORRECTED [tw] =
    min (s.fld F.ECC_STAT.CORRECTED [tw] + 1) (2 ^ 32 - 1) := by
  have hput : (s.count F.ECC_STAT.CORRECTED [tw]).fld F.ECC_STAT.CORRECTED [tw] =
      satAdd 32 (s.fld F.ECC_STAT.CORRECTED [tw]) 1 % 2 ^ 32 := State.fld_put (by decide) (by decide)
  simp only [State.eccError, Bool.false_eq_true, if_false]
  rw [State.eccEnter_fld corrected_eccCount ht, hput, satAdd]
  split <;> omega

theorem State.eccError_uncorrectable (ht : tw < 4) : (s.eccError tw a false src reader).fld F.ECC_STAT.UNCORRECTABLE [tw] =
    s.fld F.ECC_STAT.UNCORRECTABLE [tw] := by
  simp only [State.eccError, Bool.false_eq_true, if_false]
  rw [State.eccEnter_fld uncorrectable_eccCount ht]
  exact State.fld_put_field rfl (by decide) (by decide) (by decide)

/-! ### The correction -/

theorem ownOnly_spadClean : OwnOnly fun en => en.spadClean true n := fun _ _ h => by
  rw [Engine.own_clean h, Engine.own_clean rfl]

theorem OnlyEvents.dropSyndrome (h : OnlyEvents s t) : OnlyEvents (s.dropSyndrome n) (t.dropSyndrome n) := by
  refine ⟨h.reg, h.eng, ?_⟩
  have hsyn : t.syndromes = s.syndromes := by rw [h.rest]
  have hrest := h.rest
  simp only [State.dropSyndrome, hsyn]
  rw [hrest]

/-- The state when a single-bit error of the fetched word has been corrected, before it is counted for the engine. -/
def State.corrected (s : State) (e : Eng) (w : Nat) : State :=
  ((s.spadError e true w false readerEngine).onEng e fun en => en.spadClean true w).dropSyndrome
    ((spadSource e true).key (e.val / 4) (16 * w))

theorem State.corrected_reg {r : RegName} {ix : List Nat} : (s.corrected e n).reg r ix =
    (s.spadError e true n false readerEngine).reg r ix := rfl

theorem State.corrected_fld {ix : List Nat} : (s.corrected e n).fld f ix = (s.spadError e true n false readerEngine).fld f ix := rfl

theorem State.spadError_eng {b : Bool} {e' : Eng} : (s.spadError e true n b reader).eng e' = s.eng e' := by
  rw [State.spadError, State.eng, State.eccError_engines, State.eng]

theorem State.corrected_eng : (s.corrected e n).eng e = { s.eng e with imemSoft := listDrop (s.eng e).imemSoft n } := by
  rw [State.corrected, State.eng_dropSyndrome, State.eng_onEng, State.spadError_eng]
  rfl

theorem State.corrected_eng_ne {e' : Eng} (h : e' ≠ e) : (s.corrected e n).eng e' = s.eng e' := by
  rw [State.corrected, State.eng_dropSyndrome, State.eng_onEng_ne (Ne.symm h), State.spadError_eng]

theorem eng_tower_lt (e : Eng) : e.val / 4 < 4 := by omega

theorem State.corrected_mem : (s.corrected e n).mem = s.mem :=
  (State.eccError_keepsLaps (s := s) (a := 16 * n) (src := spadSource e true) (reader := readerEngine) (b := false)
    (eng_tower_lt e)).mem

theorem State.fetchedWord_soft (h : (s.eng e).pc.toNat / 16 ∈ (s.eng e).imemSoft) :
    OnlyEvents (s.corrected e ((s.eng e).pc.toNat / 16)) (s.fetchedWord e) := by
  have hsoft : spadSoft true (s.eng e) ((s.eng e).pc.toNat / 16) = true := by simpa [spadSoft] using h
  rw [State.fetchedWord, State.spadCorrect, if_pos hsoft]
  exact (OnlyEvents.tallyEng.after ownOnly_spadClean).dropSyndrome

/-! ### The step of an engine -/

/-- Where nothing else is due, a step goes on with the engines. -/
theorem step_engines (hp : s.pending = []) (hr : s.ref.enrolDue = none) (ho : s.ownFrames = []) : step s = s.runEngine := by
  simp only [step, hp, State.goOn, hr, ho]

/-- The only engine that runs goes on. -/
theorem State.runEngine_alone (h : s.runners = [e]) : s.runEngine = execFetched e s.spend := by
  simp only [State.runEngine, h, List.length_nil, Nat.zero_add, Nat.mod_one, List.getD_cons_zero]

theorem execFetched_decodes {i : Instr} (h : decodeOctuk e (s.eng e).fetched = some i) : execFetched e s = exec i s := by
  simp only [execFetched, h]

theorem execFetched_illegal (h : decodeOctuk e (s.eng e).fetched = none) :
    execFetched e s = issue e s fun u => u.trap e .illegal (s.eng e).fetched := by
  simp only [execFetched, h]

theorem trapEnds_handled {en : Engine} {c : Trap} (hv : en.tvecEn = true) (hi : en.inTrap = false) : en.trapEnds c = false := by
  simp [Engine.trapEnds, hv, hi]

/-- Settles O4: the correction and its counts come before the tally of the engine's own counter, which is an event; a step with nothing
due runs the word at the program counter of the one engine that runs. -/
theorem instructionFetch : Obligations.InstructionFetch := by
  unfold Obligations.InstructionFetch
  refine ⟨fun s e => ⟨fun h => ?_, fun h => ?_⟩, fun s e hp hr ho => ⟨fun hn => ?_, fun hone => ⟨fun i hi => ?_, ?_⟩⟩⟩
  · exact State.fetchedWord_clean (by simpa [spadSoft] using h)
  · refine ⟨s.corrected e ((s.eng e).pc.toNat / 16), State.fetchedWord_soft h, by rw [State.corrected_eng],
      fun e' => State.corrected_eng_ne, State.corrected_mem, ?_, ?_⟩
    · exact State.corrected_fld.trans (State.eccError_corrected (eng_tower_lt e))
    · exact State.corrected_fld.trans (State.eccError_uncorrectable (eng_tower_lt e))
  · rw [step_engines hp hr ho, State.runEngine, hn]
  · rw [step_engines hp hr ho, State.runEngine_alone hone]
    exact execFetched_decodes (s := s.spend) hi
  · intro hd hc hv hi
    rw [step_engines hp hr ho, State.runEngine_alone hone, execFetched_illegal (s := s.spend) hd]
    have hpc : ((s.spend.fetchedWord e).eng e).pc = (s.eng e).pc := State.fetchedWord_pc
    rw [State.onEng_congr (g := fun en => en.trapped .illegal 0 false (s.eng e).fetched (s.spend.eng e).pc64)
      (by rw [hpc]; rfl)]
    exact issue_trap (s := s.spend) (e := e) (body := fun u => u.trap e .illegal (s.spend.eng e).fetched) (r := .ok)
      hc rfl (trapEnds_handled (en := s.eng e) hv hi)

end Sys2Proof.Machine
end

section
/-! SUPPORT. The end of a program and its completion item (R89, R92, R97), and O7. -/

namespace Sys2Proof.Machine

variable {s t u : State} {e e' : Eng} {q n kind cause resp value : Nat} {x item : Item} {f : Fld} {ix lines : List Nat} {w : W64}

/-! ### What a push leaves of the engines -/

theorem State.storeItem_eng : (s.storeItem q x lines).eng e = s.eng e := by
  have hstore {s : State} {a : Nat} {w : Quad} : (s.memStore a w).engines = s.engines := by
    unfold State.memStore
    dsimp only
    split <;> split <;> rfl
  obtain ⟨l, h⟩ := State.storeItem_eq (s := s) (q := q) (x := x) (lines := lines)
  rw [h]
  show (s.storeQuads _ x).eng e = s.eng e
  rw [State.storeQuads_eq]
  simp only [State.eng, hstore]

theorem State.watermark_own : ((s.watermark q).eng e).own = (s.eng e).own := by
  obtain ⟨b, he, -⟩ := State.watermark_puts (s := s) (q := q)
  exact he.eng e

theorem State.pushCell_own : ((s.pushCell q x lines).eng e).own = (s.eng e).own := by
  rw [State.pushCell, State.appendItem, State.watermark_own]
  show (((s.setCredits q (s.credits q - 1)).storeItem q x lines).eng e).own = _
  rw [State.storeItem_eng]
  rfl

theorem State.autoPush_own (h : s.autoPush q x = some t) : (t.eng e).own = (s.eng e).own := by
  unfold State.autoPush at h
  dsimp only at h
  have hgrant : (if s.credits q = 0 then s.grant q 1 else s).eng e = s.eng e := by split <;> rfl
  generalize (if s.credits q = 0 then s.grant q 1 else s) = g at h hgrant
  split at h
  · simp at h
  · cases h
    rw [State.pushCell_own, hgrant]

theorem State.errRecord_own {target : Option Nat} {type source : Nat} {r : Resp} :
    ((s.errRecord target type r source q w).eng e).own = (s.eng e).own := by
  unfold State.errRecord
  split
  · rfl
  · split
    · split
      · next hp => exact State.autoPush_own hp
      · rfl
    · rfl

theorem State.postCompletion_own : ((s.postCompletion e' item).eng e).own = (s.eng e).own := by
  unfold State.postCompletion
  dsimp only
  split
  · rfl
  · split
    · exact State.pushCell_own
    · exact State.errRecord_own

/-! ### The end of a program -/

/-- The engine when its program has ended. -/
def Engine.ended (en : Engine) : Engine :=
  { en with
    state := .idle, waiting := none, inTrap := false, cqen := false, cqHeld := false, impreciseHeld := []
    stores := en.stores.map fun st => { st with old := true } }

theorem State.endProgram_eq : s.endProgram e kind cause resp value w =
    (s.postCompletion e (completionItem (s.eng e) e kind cause resp value w)).onEng e Engine.ended := rfl

theorem State.endProgram_state : ((s.endProgram e kind cause resp value w).eng e).state = .idle := by
  rw [State.endProgram_eq, State.eng_onEng]
  rfl

theorem State.endProgram_own_ne (h : e' ≠ e) : ((s.endProgram e kind cause resp value w).eng e').own = (s.eng e').own := by
  rw [State.endProgram_eq, State.eng_onEng_ne (Ne.symm h), State.postCompletion_own]

theorem State.endProgram_get {r : Gpr} : ((s.endProgram e kind cause resp value w).eng e).get r = (s.eng e).get r := by
  rw [State.endProgram_eq, State.eng_onEng]
  exact Engine.own_get State.postCompletion_own r

theorem State.endProgram_qitems : (s.endProgram e kind cause resp value w).qitems =
    (s.postCompletion e (completionItem (s.eng e) e kind cause resp value w)).qitems := rfl

theorem State.endProgram_items : (s.endProgram e kind cause resp value w).items q =
    (s.postCompletion e (completionItem (s.eng e) e kind cause resp value w)).items q :=
  State.items_congr (.of_regs rfl rfl rfl rfl rfl) rfl

theorem State.postCompletion_none (h : (s.eng e).cqen = false) : s.postCompletion e item = s := by
  simp [State.postCompletion, h]

theorem State.postCompletion_posts (h : (s.eng e).cqen = true) (hp : s.producer (s.eng e).cq.toNat = .engine e.val)
    (hc : 0 < s.credits (s.eng e).cq.toNat) : s.postCompletion e item = s.pushCell (s.eng e).cq.toNat item := by
  simp [State.postCompletion, h, hp, hc]

/-- What follows the end of the program of an engine that was running. -/
theorem State.settleEnd_ended (ht : (t.eng e).state = .idle) (hs : (s.eng e).state ≠ .idle) : t.settleEnd s e = t.settle := by
  rw [State.settleEnd, if_pos ⟨ht, hs⟩]

/-! ### What ends one -/

theorem fenceOpen_fetched {a b : Bool} : ((s.fetchedWord e).eng e).fenceOpen a b = (s.eng e).fenceOpen a b :=
  s.fetchedWord_eng e (fun en => en.fenceOpen a b) fun _ _ => rfl

theorem execHalt_ends {ra : Gpr} (hc : s.canIssue e = true) (ho : (s.eng e).fenceOpen true true = false) :
    ∃ u, execHalt e ra s = .next
        (u.endProgram e 0 0 0 (((s.eng e).get ra).setWidth 16 : BitVec 16).toNat (s.eng e).pc64).settle ∧
      OnlyEvents ((s.fetchedWord e).onEng e fun en => en.tick 4) u := by
  refine ⟨((s.fetchedWord e).tally (unitOfEngine e) 0x100).onEng e fun en => en.tick 4, ?_,
    OnlyEvents.tallyEng.after (OwnOnly.of_own fun _ => rfl)⟩
  rw [execHalt, issue, if_pos hc]
  dsimp only
  rw [fenceOpen_fetched, ho, State.fetchedWord_get, State.fetchedWord_pc64]
  simp only [Bool.false_eq_true, if_false]
  rw [State.settleEnd_ended State.endProgram_state (by rw [State.canIssue_running hc]; decide)]

theorem trapEnds_unhandled {en : Engine} (h : en.tvecEn = false ∨ en.inTrap = true) : en.trapEnds .software = true := by
  obtain h | h := h <;> simp [Engine.trapEnds, h, Trap.nonMaskable]

theorem ownOnly_trapRegs {c : Trap} {resp : Byte} {i : Bool} {tval tpc : W64} :
    OwnOnly fun en => en.trapRegs c resp i tval tpc := fun a b h => by
  cases a
  cases b
  simp only [Engine.own, Engine.mk.injEq] at h
  simp [Engine.own, Engine.trapRegs, h]

/-- A trap that no handler takes. -/
theorem State.takeTrap_ends {c : Trap} {tval tpc : W64} (h : (s.eng e).trapEnds c = true) (hc : c ≠ .busError) :
    ∃ u, s.takeTrap e c 0 false tval tpc = u.endProgram e 1 c.code 0 0 tpc ∧
      OnlyEvents (s.onEng e fun en => en.trapRegs c 0 false tval tpc) u := by
  have ht : OnlyEvents s (s.tally (unitOfEngine e) 0x105) := .tallyEng
  have he : ((s.tally (unitOfEngine e) 0x105).eng e).trapEnds c = true := by rw [Engine.trapEnds_own (ht.eng e), h]
  refine ⟨(s.tally (unitOfEngine e) 0x105).onEng e fun en => en.trapRegs c 0 false tval tpc, ?_, ht.after ownOnly_trapRegs⟩
  simp only [State.takeTrap, he, if_true, hc, if_false]

theorem execTrap_ends {op32 : BitVec 32} (hc : s.canIssue e = true) (h : (s.eng e).tvecEn = false ∨ (s.eng e).inTrap = true) :
    ∃ u, execTrap e op32 s = .next (u.endProgram e 1 0 0 0 ((s.eng e).pc64 + 8)).settle ∧
      OnlyEvents ((s.fetchedWord e).onEng e fun en =>
        en.trapRegs .software 0 false ((op32.setWidth 16).setWidth 64) ((s.eng e).pc64 + 8)) u := by
  have ht : OnlyEvents (s.fetchedWord e) ((s.fetchedWord e).tally (unitOfEngine e) 0x100) := .tallyEng
  obtain ⟨u, hu, hev⟩ := State.takeTrap_ends (s := (s.fetchedWord e).tally (unitOfEngine e) 0x100) (e := e) (c := .software)
    (tval := (op32.setWidth 16).setWidth 64) (tpc := (s.eng e).pc64 + 8)
    (by rw [Engine.trapEnds_own (ht.eng e), State.fetchedWord_trapEnds, trapEnds_unhandled h]) (by decide)
  refine ⟨u, ?_, (ht.after ownOnly_trapRegs).trans hev⟩
  rw [execTrap, issue, if_pos hc, softwareTval_eq, State.fetchedWord_pc64, hu, State.settleEnd_ended State.endProgram_state (by rw [State.canIssue_running hc]; decide)]
  rfl

theorem execWatchdog_ends (hf : (s.eng e).frozen = false) (hk : s.engClocked e = true) (hw : (s.eng e).wdog ≠ 0)
    (hr : ((s.eng e).state = .running ∧ (s.eng e).wdog.toNat * 1024 < (s.eng e).runtime.toNat) ∨ (s.eng e).inWait = true)
    (h0 : (s.eng e).wdogHits ≠ 0) :
    ∃ u, execWatchdog e s = .next (u.endProgram e 2 0 0 0 (s.eng e).pc64).settle ∧
      OnlyEvents (s.onEng e fun en => { en with tpc := (s.eng e).pc64 }) u := by
  refine ⟨_, ?_, .refl _⟩
  rw [execWatchdog_overruns hf hk hw hr, State.overrun, if_neg h0]

/-- Settles O7: what comes before the end of the program but for its counted occurrences, and then the engine that the end leaves and
the cell that it pushes. -/
theorem endOfProgram : Obligations.EndOfProgram := by
  unfold Obligations.EndOfProgram
  intro s e ra op32
  simp only [RunsThen, GivesThen, exec]
  refine ⟨execHalt_ends, execTrap_ends, execWatchdog_ends, fun kind cause value w => ⟨State.endProgram_state, ?_, ?_,
    fun r => State.endProgram_get, fun e' => State.endProgram_own_ne, fun h => ?_, fun h hp hc hs => ?_⟩⟩
  · rw [State.endProgram_eq, State.eng_onEng]
    rfl
  · rw [State.endProgram_eq, State.eng_onEng]
    rfl
  · rw [State.endProgram_qitems, State.postCompletion_none h]
  · simp only [State.endProgram_items, State.postCompletion_posts h hp hc]
    exact State.pushCell_items hs (s.eng e).cq.isLt

end Sys2Proof.Machine
end

section
/-! SUPPORT. What the checks of a memory instruction refuse, and in which order (R10, R74, R75), and O9. -/

namespace Sys2Proof.Machine

variable {s t u : State} {e : Eng} {c : Trap} {r : Resp} {v a : W64} {sp w : Bool} {len : Nat} {reach : Nat → Option Resp}
  {spad dev : State → State} {rd ra rb : Gpr} {form : LoadForm} {body : State → State}

/-! ### Traps and addresses of a fetched instruction -/

/-- A precise trap whose handler takes it, with the program counter that the engine has by then. -/
theorem issue_traps (hc : s.canIssue e = true) (hb : body (s.fetchedWord e) = (s.fetchedWord e).trap e c v r)
    (ht : (s.eng e).trapEnds c = false) : ∃ u, issue e s body = .next u ∧
      OnlyEvents ((s.fetchedWord e).onEng e fun en => en.trapped c r.byte false v (en.pc.setWidth 64)) u := by
  rw [State.onEng_congr (g := fun en => en.trapped c r.byte false v (s.eng e).pc64) (by rw [State.fetchedWord_pc]; rfl)]
  exact issue_trap hc hb ht

@[simp] theorem State.fetchedWord_ea {n : Nat} {disp : BitVec n} : ((s.fetchedWord e).eng e).ea ra disp = (s.eng e).ea ra disp := by
  rw [Engine.ea, State.fetchedWord_get, Engine.ea]

/-! ### The checks in their order -/

/-- The address lies outside its space. -/
def Outside (sp : Bool) (a : W64) : Prop := (sp = true ∧ 0x10000 ≤ a.toNat) ∨ (sp = false ∧ 2 ^ 48 ≤ a.toNat)

/-- The address is one of a memory-type region. -/
def WideOnly (sp : Bool) (a : W64) : Prop := sp = false ∧ spaceOf a.toNat ∈ [.memory, .frame, .stateStore]

theorem eaOk_iff : eaOk sp a = true ↔ ¬Outside sp a := by
  cases sp <;> simp [eaOk, Outside]

theorem checked_outside (h : Outside sp a) : s.checked e sp a len reach spad dev = s.trap e .busError a .decodeError := by
  have : eaOk sp a = false := by simpa using mt eaOk_iff.mp (not_not.mpr h)
  simp [State.checked, this]

theorem tooNarrow_iff : (!sp && tooNarrow a.toNat len) = true ↔ len < 16 ∧ WideOnly sp a := by
  simp [tooNarrow, WideOnly]
  tauto

theorem checked_narrow (h : ¬Outside sp a) (hw : WideOnly sp a) (hl : len < 16) :
    s.checked e sp a len reach spad dev = s.trap e .busError a ((reach a.toNat).getD .decodeError) := by
  rw [State.checked, eaOk_iff.mpr h, if_neg (by simp), if_pos (tooNarrow_iff.mpr ⟨hl, hw⟩)]

section
variable (h : ¬Outside sp a) (hw : len < 16 → ¬WideOnly sp a)
include h hw

theorem checked_misaligned (hm : a.toNat % len ≠ 0) : s.checked e sp a len reach spad dev = s.trap e .misaligned a := by
  rw [State.checked, eaOk_iff.mpr h, if_neg (by simp), if_neg fun ht => by
    obtain ⟨hl, hwide⟩ := tooNarrow_iff.mp ht
    exact hw hl hwide, if_pos hm]

variable (hm : a.toNat % len = 0)
include hm

theorem checked_spad (hs : sp = true) : s.checked e sp a len reach spad dev = spad s := by
  rw [State.checked, eaOk_iff.mpr h, if_neg (by simp), if_neg fun ht => by
    obtain ⟨hl, hwide⟩ := tooNarrow_iff.mp ht
    exact hw hl hwide, if_neg (not_not.mpr hm), if_pos hs]

theorem checked_refused (hs : sp = false) (hr : reach a.toNat = some r) :
    s.checked e sp a len reach spad dev = s.trap e .busError a r := by
  rw [State.checked, eaOk_iff.mpr h, if_neg (by simp), if_neg fun ht => by
    obtain ⟨hl, hwide⟩ := tooNarrow_iff.mp ht
    exact hw hl hwide, if_neg (not_not.mpr hm), if_neg (by simp [hs]), hr]

theorem checked_dev (hs : sp = false) (hr : reach a.toNat = none) : s.checked e sp a len reach spad dev = dev s := by
  rw [State.checked, eaOk_iff.mpr h, if_neg (by simp), if_neg fun ht => by
    obtain ⟨hl, hwide⟩ := tooNarrow_iff.mp ht
    exact hw hl hwide, if_neg (not_not.mpr hm), if_neg (by simp [hs]), hr]
end

/-! ### What the regions refuse -/

theorem narrowReach_wide {n : Nat} {write : Bool} (h : spaceOf n ∈ [Space.memory, .frame, .stateStore]) :
    narrowReach write n = some (if write then .narrowWrite else .decodeError) := by
  simp only [List.mem_cons, List.not_mem_nil, or_false] at h
  obtain h | h | h := h <;> simp only [narrowReach, h]

theorem narrowReach_none {n : Nat} {write : Bool} (h : spaceOf n ∈ [Space.host, .none]) :
    narrowReach write n = some .decodeError := by
  simp only [List.mem_cons, List.not_mem_nil, or_false] at h
  obtain h | h := h <;> simp only [narrowReach, h]

theorem quadReach_refuses {n : Nat} (h : spaceOf n ∈ [Space.register, .doorbell, .none]) : quadReach n = some .decodeError := by
  simp only [List.mem_cons, List.not_mem_nil, or_false] at h
  obtain h | h | h := h <;> simp only [quadReach, h]

theorem addReach_refuses {n : Nat} (h : spaceOf n ∈ [Space.register, .doorbell, .frame, .stateStore, .none]) :
    addReach n = some .decodeError := by
  simp only [List.mem_cons, List.not_mem_nil, or_false] at h
  obtain h | h | h | h | h := h <;> simp only [addReach, h]

theorem not_wide_of_far (h : spaceOf a.toNat ∈ [Space.host, .none]) : ¬WideOnly sp a := by
  rintro ⟨-, hw⟩
  revert h hw
  generalize spaceOf a.toNat = x
  revert x
  decide

/-! ### The instructions -/

section
variable {disp : BitVec 41} {short : BitVec 40} (hc : s.canIssue e = true) (ht : ∀ c, (s.eng e).trapEnds c = false)
  {tval : W64}
include hc ht

/-- What an instruction does that its checks refuse. -/
def Refuses (s : State) (e : Eng) (o : Out) (c : Trap) (tval : W64) (r : Resp) : Prop :=
  ∃ u, o = .next u ∧ OnlyEvents ((s.fetchedWord e).onEng e fun en => en.trapped c r.byte false tval (en.pc.setWidth 64)) u

theorem execLd_refuses (h : ∀ spad dev, (s.fetchedWord e).checked e sp ((s.eng e).ea ra disp) (if w then 4 else 8)
    (narrowReach false) spad dev = (s.fetchedWord e).trap e c tval r) :
    Refuses s e (execLd e rd ra sp w disp s) c tval r := by
  refine issue_traps hc ?_ (ht c)
  have hlen : (if w then LoadForm.half else .word).len = if w then 4 else 8 := by cases w <;> rfl
  dsimp only
  rw [State.fetchedWord_ea, hlen, h]

theorem execSt_refuses (h : ∀ spad dev, (s.fetchedWord e).checked e sp ((s.eng e).ea ra disp) (if w then 4 else 8)
    (narrowReach true) spad dev = (s.fetchedWord e).trap e c tval r) :
    Refuses s e (execSt e rd ra sp w disp s) c tval r := by
  refine issue_traps hc ?_ (ht c)
  dsimp only
  rw [State.fetchedWord_ea, h]

section
variable (hrd : rd.val % 2 = 0)
include hrd

theorem execLdq_refuses (h : ∀ spad dev, (s.fetchedWord e).checked e sp ((s.eng e).ea ra disp) 16 quadReach spad dev =
    (s.fetchedWord e).trap e c tval r) : Refuses s e (execLdq e rd ra sp disp s) c tval r := by
  refine issue_traps hc ?_ (ht c)
  dsimp only
  rw [State.fetchedWord_ea, if_neg (by omega), h]

theorem execStq_refuses (h : ∀ spad dev, (s.fetchedWord e).checked e sp ((s.eng e).ea ra disp) 16 quadReach spad dev =
    (s.fetchedWord e).trap e c tval r) : Refuses s e (execStq e rd ra sp disp s) c tval r := by
  refine issue_traps hc ?_ (ht c)
  dsimp only
  rw [State.fetchedWord_ea, if_neg (by omega), h]
end

theorem execAmoadd_refuses (h : ∀ spad dev, (s.fetchedWord e).checked e sp ((s.eng e).ea ra short) 16 addReach spad dev =
    (s.fetchedWord e).trap e c tval r) : Refuses s e (execAmoadd e rd ra rb sp short s) c tval r := by
  refine issue_traps hc ?_ (ht c)
  dsimp only
  rw [State.fetchedWord_ea, h]

theorem execLdq_odd (hrd : rd.val % 2 = 1) :
    Refuses s e (execLdq e rd ra sp disp s) .illegal (wordM 0x32 rd ra sp false disp) .ok := by
  refine issue_traps hc ?_ (ht _)
  dsimp only
  rw [if_pos hrd]

theorem execStq_odd (hrd : rd.val % 2 = 1) :
    Refuses s e (execStq e rd ra sp disp s) .illegal (wordM 0x33 rd ra sp false disp) .ok := by
  refine issue_traps hc ?_ (ht _)
  dsimp only
  rw [if_pos hrd]
end

theorem mod_of_aligned {n : Nat} (h : n % 16 = 0) (w : Bool) : n % (if w then 4 else 8) = 0 := by
  cases w
  · simp only [Bool.false_eq_true, if_false]
    omega
  · simp only [if_true]
    omega

theorem narrow_lt (w : Bool) : (if w then 4 else 8) < 16 := by cases w <;> decide

/-- Settles O9: the checks come one after another, and each instruction makes them with its own width and regions. -/
theorem memoryTraps : Obligations.MemoryTraps := by
  unfold Obligations.MemoryTraps
  intro s e rd ra rb sp w disp short hc hv hi
  have ht (c : Trap) : (s.eng e).trapEnds c = false := trapEnds_handled hv hi
  simp only [Runs, Gives, exec]
  refine ⟨fun ho => ⟨execLd_refuses hc ht fun _ _ => checked_outside ho, execSt_refuses hc ht fun _ _ => checked_outside ho,
      fun hrd => ⟨execLdq_refuses hc ht hrd fun _ _ => checked_outside ho,
        execStq_refuses hc ht hrd fun _ _ => checked_outside ho⟩⟩,
    fun ho => execAmoadd_refuses hc ht fun _ _ => checked_outside ho, fun ho hw => ⟨?_, ?_⟩, fun ho hw hm => ⟨?_, ?_⟩,
    fun ho hm hrd => ⟨?_, ?_⟩, fun ho hm => ?_, fun hs ho hm hr => ⟨?_, ?_⟩, fun hs ho hm hr hrd => ⟨?_, ?_⟩,
    fun hs ho hm hr => ?_, fun hrd => ⟨execLdq_odd hc ht hrd, execStq_odd hc ht hrd⟩⟩
  · refine execLd_refuses hc ht fun _ _ => (checked_narrow ho hw (narrow_lt w)).trans ?_
    rw [show narrowReach false _ = _ from narrowReach_wide hw.2]
    rfl
  · refine execSt_refuses hc ht fun _ _ => (checked_narrow ho hw (narrow_lt w)).trans ?_
    rw [show narrowReach true _ = _ from narrowReach_wide hw.2]
    rfl
  · exact execLd_refuses hc ht fun _ _ => checked_misaligned ho (fun _ => hw) hm
  · exact execSt_refuses hc ht fun _ _ => checked_misaligned ho (fun _ => hw) hm
  · exact execLdq_refuses hc ht hrd fun _ _ => checked_misaligned ho (by omega) hm
  · exact execStq_refuses hc ht hrd fun _ _ => checked_misaligned ho (by omega) hm
  · exact execAmoadd_refuses hc ht fun _ _ => checked_misaligned ho (by omega) hm
  · exact execLd_refuses hc ht fun _ _ =>
      checked_refused ho (fun _ => not_wide_of_far hr) (mod_of_aligned hm w) hs (narrowReach_none hr)
  · exact execSt_refuses hc ht fun _ _ =>
      checked_refused ho (fun _ => not_wide_of_far hr) (mod_of_aligned hm w) hs (narrowReach_none hr)
  · exact execLdq_refuses hc ht hrd fun _ _ => checked_refused ho (by omega) hm hs (quadReach_refuses hr)
  · exact execStq_refuses hc ht hrd fun _ _ => checked_refused ho (by omega) hm hs (quadReach_refuses hr)
  · exact execAmoadd_refuses hc ht fun _ _ => checked_refused ho (by omega) hm hs (addReach_refuses hr)

end Sys2Proof.Machine
end

section
/-! SUPPORT. The data scratchpad: checked reads of good words, the parts of a word, writes (R74, R75, R178), and O8. -/

namespace Sys2Proof.Machine

variable {s t u : State} {e : Eng} {v a : W64} {rd ra rb : Gpr} {q : Quad} {n w reader : Nat} {cycles : W64} {form : LoadForm}
  {body : State → State} {f : Engine → Engine}

/-! ### Parts of words -/

theorem wordAt_setWidth_word (v : W64) : wordAt (v.setWidth 2048) 0 = v := by
  rw [wordAt, BitVec.toNat_setWidth_of_le (by decide), Nat.mul_zero, Nat.shiftRight_zero, BitVec.ofNat_toNat, BitVec.setWidth_eq]

theorem quad_toNat_setWidth : (q.setWidth 2048).toNat = q.toNat := BitVec.toNat_setWidth_of_le (by decide)

theorem wordAt_low : wordAt q 0 = q.setWidth 64 := by
  apply BitVec.eq_of_toNat_eq
  simp [wordAt]

theorem wordAt_high : wordAt q 1 = BitVec.ofNat 64 (q.toNat / 2 ^ 64) := by rw [wordAt, Nat.shiftRight_eq_div_pow]

theorem wordAt_payload {i : Nat} : wordAt (q.setWidth 2048) i = wordAt q i := by
  rw [wordAt, quad_toNat_setWidth, wordAt]

theorem loadPart_word (h : a.toNat % 8 = 0) :
    wordAt (loadPart .word a q) 0 = BitVec.ofNat 64 (q.toNat / 2 ^ (8 * (a.toNat % 16))) := by
  rw [loadPart, wordAt_setWidth_word, wordAt, Nat.shiftRight_eq_div_pow,
    show 64 * (a.toNat % 16 / 8) = 8 * (a.toNat % 16) by omega]

theorem loadPart_half :
    wordAt (loadPart .half a q) 0 = BitVec.ofNat 64 (q.toNat / 2 ^ (8 * (a.toNat % 16)) % 2 ^ 32) := by
  have hhalf (x : BitVec 32) : x.setWidth 2048 = (x.setWidth 64).setWidth 2048 :=
    (BitVec.setWidth_setWidth (by decide)).symm
  apply BitVec.eq_of_toNat_eq
  rw [loadPart, hhalf, wordAt_setWidth_word, Nat.shiftRight_eq_div_pow, BitVec.toNat_setWidth, BitVec.toNat_ofNat,
    BitVec.toNat_ofNat]

theorem setBits_mod {hi lo x : Nat} : setBits q hi lo (x % 2 ^ (hi + 1 - lo)) = setBits q hi lo x := by
  simp only [setBits, Nat.mod_mod]

theorem mergeBytes_eq {off len : Nat} (hl : 0 < len) :
    mergeBytes q off len v = setBits q (8 * off + (8 * len - 1)) (8 * off) v.toNat := by
  rw [mergeBytes, ← setBits_mod (x := v.toNat), bitsOf, Nat.shiftRight_zero,
    show 8 * (off + len) - 1 = 8 * off + (8 * len - 1) by omega,
    show 8 * off + (8 * len - 1) + 1 - 8 * off = 8 * len - 1 + 1 - 0 by omega]

theorem Engine.loaded_word {en : Engine} {d : Payload} : en.loaded rd .word d = en.put rd (wordAt d 0) := rfl
theorem Engine.loaded_half {en : Engine} {d : Payload} : en.loaded rd .half d = en.put rd (wordAt d 0) := rfl

theorem Engine.loaded_quad {en : Engine} : en.loaded rd .quad (loadPart .quad a q) = (en.put rd (wordAt q 0)).put (rd + 1) (wordAt q 1) := by
  rw [Engine.loaded, loadPart, wordAt_payload, wordAt_payload, pairHi]

/-! ### Good words -/

/-- The word of the data scratchpad has no error. -/
def Engine.Sound (en : Engine) (w : Nat) : Prop := w ∉ en.dmemBad ∧ w ∉ en.dmemSoft

theorem State.spadRead_sound (h : (s.eng e).Sound w) :
    s.spadRead e false w reader = (some (Sparse.read (s.eng e).dmem w), s) := by
  obtain ⟨hb, hs⟩ := h
  simp [State.spadRead, State.spadCorrect, spadBad, spadSoft, spadWord, hb, hs]

theorem fetched_sound (h : (s.eng e).Sound w) : ((s.fetchedWord e).eng e).Sound w :=
  ⟨(congrArg (w ∉ ·) (s.fetchedWord_eng e Engine.dmemBad fun _ _ => rfl)).mpr h.1,
    (congrArg (w ∉ ·) (s.fetchedWord_eng e Engine.dmemSoft fun _ _ => rfl)).mpr h.2⟩

@[simp] theorem State.fetchedWord_dmem : ((s.fetchedWord e).eng e).dmem = (s.eng e).dmem :=
  s.fetchedWord_eng e _ fun _ _ => rfl

theorem State.spadWrite_eng {b : Bool} : (s.spadWrite e b w q).eng e = (s.eng e).spadStore b w q := by
  rw [State.spadWrite, State.eng_dropSyndrome, State.eng_onEng]

theorem Engine.spadStore_pc {en : Engine} {b : Bool} : (en.spadStore b w q).pc = en.pc := by cases b <;> rfl
theorem Engine.spadStore_g {en : Engine} {b : Bool} : (en.spadStore b w q).g = en.g := by cases b <;> rfl

theorem mem_listDrop_self {l : List Nat} : w ∉ listDrop l w := by simp [listDrop]

theorem spadWord_spadStore {en : Engine} {b : Bool} : spadWord b (en.spadStore b w q) w = q := by
  cases b <;> exact Sparse.read_write_self

theorem spadWord_spadStore_ne {en : Engine} {b : Bool} {i : Nat} (h : i ≠ w) :
    spadWord b (en.spadStore b w q) i = spadWord b en i := by
  cases b <;> exact Sparse.read_write_ne (Ne.symm h)

theorem spadBad_spadStore {en : Engine} {b : Bool} : spadBad b (en.spadStore b w q) w = false := by
  cases b <;> simpa [spadBad, Engine.spadStore] using mem_listDrop_self

theorem spadSoft_spadStore {en : Engine} {b : Bool} : spadSoft b (en.spadStore b w q) w = false := by
  cases b <;> simpa [spadSoft, Engine.spadStore, Engine.spadClean] using mem_listDrop_self

/-! ### What follows the checks -/

/-- An instruction that completes after an update of its engine. -/
theorem State.retire_after (hp : (f (t.eng e)).pc ≠ 0xFFF8) :
    OnlyEvents (t.onEng e fun en => (f en).done cycles) ((t.onEng e f).retire e cycles) := by
  have h := State.retire_events (s := t.onEng e f) (n := cycles) (by rwa [State.eng_onEng])
  rwa [State.onEng_onEng] at h

/-- An instruction that writes its engine and the data scratchpad. -/
theorem issue_completes {g : State → State} (hc : s.canIssue e = true)
    (hb : body (s.fetchedWord e) = ((g (s.fetchedWord e)).onEng e f).retire e cycles)
    (hp : (f ((g (s.fetchedWord e)).eng e)).pc ≠ 0xFFF8) :
    ∃ u, issue e s body = .next u ∧ OnlyEvents ((g (s.fetchedWord e)).onEng e fun en => (f en).done cycles) u := by
  refine issue_gives hc (by rw [hb]; exact State.retire_after hp) ?_
  rw [State.eng_onEng, Engine.done_state]
  decide

theorem Engine.put_pc {en : Engine} {r : Gpr} : (en.put r v).pc = en.pc := by
  obtain ⟨gs, h⟩ := Engine.put_eq (en := en) (a := r) (v := v)
  rw [h]

theorem inside_spad (ha : a.toNat < 0x10000) : ¬Outside true a := by
  simp only [Outside, Bool.true_eq_false, false_and, or_false, true_and]
  omega

theorem spad_not_wide {len : Nat} : len < 16 → ¬WideOnly true a := fun _ h => absurd h.1 (by decide)

section
variable (hc : s.canIssue e = true) (hp : (s.eng e).pc ≠ 0xFFF8)
include hc hp

theorem loads_spad (hs : (s.eng e).Sound (spadAt a)) (hform : ∀ x, form ≠ .add x)
    (hb : body (s.fetchedWord e) = (s.fetchedWord e).spadLoad e rd form a cycles) :
    ∃ u, issue e s body = .next u ∧ OnlyEvents ((s.fetchedWord e).onEng e fun en =>
      (en.loaded rd form (loadPart form a (Sparse.read (s.eng e).dmem (spadAt a)))).done cycles) u := by
  refine issue_completes (g := id) hc (hb.trans ?_) ?_
  · rw [State.spadLoad, State.spadRead_sound (fetched_sound hs), State.fetchedWord_dmem]
    cases form with
    | add x => exact absurd rfl (hform x)
    | _ => rfl
  · cases form with
    | add x => exact absurd rfl (hform x)
    | quad => simpa only [id, Engine.loaded, Engine.put_pc, State.fetchedWord_pc] using hp
    | _ => simpa only [id, Engine.loaded, Engine.put_pc, State.fetchedWord_pc] using hp

theorem adds_spad (hs : (s.eng e).Sound (spadAt a))
    (hb : body (s.fetchedWord e) = (s.fetchedWord e).spadLoad e rd (.add v) a cycles) :
    ∃ u, issue e s body = .next u ∧ OnlyEvents
      (((s.fetchedWord e).spadWrite e false (spadAt a) (addedWord (Sparse.read (s.eng e).dmem (spadAt a)) v)).onEng e fun en =>
        (en.put rd (wordAt (Sparse.read (s.eng e).dmem (spadAt a)) 0)).done cycles) u := by
  have hpart {q : Quad} {en : Engine} : en.loaded rd (.add v) (loadPart (.add v) a q) = en.put rd (wordAt q 0) := by
    rw [Engine.loaded, loadPart, wordAt_setWidth_word]
    exact nofun
  have hload : (s.fetchedWord e).spadLoad e rd (.add v) a cycles = (((s.fetchedWord e).spadWrite e false (spadAt a)
      (addedWord (Sparse.read (s.eng e).dmem (spadAt a)) v)).onEng e fun en =>
        en.put rd (wordAt (Sparse.read (s.eng e).dmem (spadAt a)) 0)).retire e cycles := by
    rw [State.spadLoad, State.spadRead_sound (fetched_sound hs), State.fetchedWord_dmem]
    simp only [hpart]
  refine issue_gives hc ?_ (by rw [State.eng_onEng, Engine.done_state]; decide)
  rw [hb, hload]
  refine State.retire_after ?_
  rw [Engine.put_pc, State.spadWrite_eng, Engine.spadStore_pc, State.fetchedWord_pc]
  exact hp

theorem stores_spad (hb : body (s.fetchedWord e) = ((s.fetchedWord e).spadWrite e false w q).retire e cycles) :
    ∃ u, issue e s body = .next u ∧ OnlyEvents (((s.fetchedWord e).spadWrite e false w q).onEng e fun en => (id en).done cycles) u := by
  refine issue_gives hc ?_ (by rw [State.eng_onEng, Engine.done_state]; decide)
  rw [hb]
  refine State.retire_events ?_
  rwa [State.spadWrite_eng, Engine.spadStore_pc, State.fetchedWord_pc]

end

/-! ### The instructions -/

section
variable {disp : BitVec 41} {short : BitVec 40} (hc : s.canIssue e = true) (hp : (s.eng e).pc ≠ 0xFFF8)
include hc hp

theorem execLd_word (ha : ((s.eng e).ea ra disp).toNat < 0x10000) (hs : (s.eng e).Sound (spadAt ((s.eng e).ea ra disp)))
    (h8 : ((s.eng e).ea ra disp).toNat % 8 = 0) :
    ∃ u, execLd e rd ra true false disp s = .next u ∧ OnlyEvents ((s.fetchedWord e).onEng e fun en =>
      (en.loaded rd .word (loadPart .word ((s.eng e).ea ra disp)
        (Sparse.read (s.eng e).dmem (spadAt ((s.eng e).ea ra disp))))).done 2) u := by
  refine loads_spad hc hp hs nofun ?_
  dsimp only
  rw [State.fetchedWord_ea]
  exact checked_spad (inside_spad ha) spad_not_wide h8 rfl

theorem execLd_half (ha : ((s.eng e).ea ra disp).toNat < 0x10000) (hs : (s.eng e).Sound (spadAt ((s.eng e).ea ra disp)))
    (h4 : ((s.eng e).ea ra disp).toNat % 4 = 0) :
    ∃ u, execLd e rd ra true true disp s = .next u ∧ OnlyEvents ((s.fetchedWord e).onEng e fun en =>
      (en.loaded rd .half (loadPart .half ((s.eng e).ea ra disp)
        (Sparse.read (s.eng e).dmem (spadAt ((s.eng e).ea ra disp))))).done 2) u := by
  refine loads_spad hc hp hs nofun ?_
  dsimp only
  rw [State.fetchedWord_ea]
  exact checked_spad (inside_spad ha) spad_not_wide h4 rfl

theorem execLdq_spad (ha : ((s.eng e).ea ra disp).toNat < 0x10000) (hs : (s.eng e).Sound (spadAt ((s.eng e).ea ra disp)))
    (h16 : ((s.eng e).ea ra disp).toNat % 16 = 0) (hrd : rd.val % 2 = 0) :
    ∃ u, execLdq e rd ra true disp s = .next u ∧ OnlyEvents ((s.fetchedWord e).onEng e fun en =>
      (en.loaded rd .quad (loadPart .quad ((s.eng e).ea ra disp)
        (Sparse.read (s.eng e).dmem (spadAt ((s.eng e).ea ra disp))))).done 3) u := by
  refine loads_spad hc hp hs nofun ?_
  dsimp only
  rw [State.fetchedWord_ea, if_neg (by omega)]
  exact checked_spad (inside_spad ha) spad_not_wide h16 rfl

theorem execSt_spad (w : Bool) (ha : ((s.eng e).ea ra disp).toNat < 0x10000)
    (hs : (s.eng e).Sound (spadAt ((s.eng e).ea ra disp)))
    (hlen : ((s.eng e).ea ra disp).toNat % (if w then 4 else 8) = 0) :
    ∃ u, execSt e rd ra true w disp s = .next u ∧ OnlyEvents
      (((s.fetchedWord e).spadWrite e false (spadAt ((s.eng e).ea ra disp))
        (mergeBytes (Sparse.read (s.eng e).dmem (spadAt ((s.eng e).ea ra disp))) (((s.eng e).ea ra disp).toNat % 16)
          (if w then 4 else 8) ((s.eng e).get rd))).onEng e fun en => (id en).done 2) u := by
  refine stores_spad hc hp ?_
  dsimp only
  rw [State.fetchedWord_ea, State.fetchedWord_get, checked_spad (inside_spad ha) spad_not_wide hlen rfl, State.spadMerge,
    State.spadRead_sound (fetched_sound hs), State.fetchedWord_dmem]

theorem execStq_spad (ha : ((s.eng e).ea ra disp).toNat < 0x10000) (h16 : ((s.eng e).ea ra disp).toNat % 16 = 0)
    (hrd : rd.val % 2 = 0) :
    ∃ u, execStq e rd ra true disp s = .next u ∧ OnlyEvents
      (((s.fetchedWord e).spadWrite e false (spadAt ((s.eng e).ea ra disp))
        ((s.eng e).get (rd + 1) ++ (s.eng e).get rd)).onEng e fun en => (id en).done 3) u := by
  refine stores_spad hc hp ?_
  dsimp only
  rw [State.fetchedWord_ea, State.fetchedWord_get, State.fetchedWord_get, if_neg (by omega)]
  exact checked_spad (inside_spad ha) spad_not_wide h16 rfl

theorem execAmoadd_spad (ha : ((s.eng e).ea ra short).toNat < 0x10000)
    (hs : (s.eng e).Sound (spadAt ((s.eng e).ea ra short))) (h16 : ((s.eng e).ea ra short).toNat % 16 = 0) :
    ∃ u, execAmoadd e rd ra rb true short s = .next u ∧ OnlyEvents
      (((s.fetchedWord e).spadWrite e false (spadAt ((s.eng e).ea ra short))
        (addedWord (Sparse.read (s.eng e).dmem (spadAt ((s.eng e).ea ra short))) ((s.eng e).get rb))).onEng e fun en =>
          (en.put rd (wordAt (Sparse.read (s.eng e).dmem (spadAt ((s.eng e).ea ra short))) 0)).done 4) u := by
  refine adds_spad hc hp hs ?_
  dsimp only
  rw [State.fetchedWord_ea, State.fetchedWord_get]
  exact checked_spad (inside_spad ha) spad_not_wide h16 rfl
end

/-- Settles O8: an aligned access below 64 KiB passes the checks; a good word is read as it stands, and a write changes its word alone. -/
theorem scratchpadMemory : Obligations.ScratchpadMemory := by
  unfold Obligations.ScratchpadMemory
  intro s e rd ra rb disp short hc hp
  simp only [Runs, Gives, exec]
  refine ⟨fun ha hs => ⟨fun h8 => ⟨?_, ?_⟩, fun h4 => ⟨?_, ?_⟩, fun h16 hrd => ?_⟩, execStq_spad hc hp, fun hb h16 hs => ?_,
    fun instr w q => ?_⟩
  · have h := execLd_word (rd := rd) hc hp ha hs h8
    simp only [Engine.loaded_word, loadPart_word (a := (s.eng e).ea ra disp) h8] at h
    exact h
  · have h := execSt_spad (rd := rd) hc hp false ha hs h8
    simp only [mergeBytes_eq (show 0 < 8 by decide), Bool.false_eq_true, if_false] at h
    exact h
  · have h := execLd_half (rd := rd) hc hp ha hs h4
    simp only [Engine.loaded_half, loadPart_half] at h
    exact h
  · have h := execSt_spad (rd := rd) hc hp true ha hs h4
    simp only [mergeBytes_eq (show 0 < 4 by decide), if_true] at h
    exact h
  · have h := execLdq_spad (rd := rd) hc hp ha hs h16 hrd
    simp only [Engine.loaded_quad, wordAt_low, wordAt_high] at h
    exact h
  · have h := execAmoadd_spad (rd := rd) (rb := rb) hc hp hb hs h16
    simp only [addedWord, wordAt_low, wordAt_high] at h
    exact h
  · simp only [State.spadWrite_eng]
    exact ⟨spadWord_spadStore, spadBad_spadStore, spadSoft_spadStore, fun v hv => spadWord_spadStore_ne hv, Engine.spadStore_g,
      Engine.spadStore_pc⟩

end Sys2Proof.Machine
end

section
/-! SUPPORT. What the fetch of an instruction leaves alone: everything but the error log, what events write, and the engine's mark of
the error; so a fetched state answers requests, reads memory and holds queues as the state before it. -/

namespace Sys2Proof.Machine

variable {s t u : State} {e : Eng} {r : RegName} {ix : List Nat} {f : Fld} {v w : W64} {n a i tw b reader : Nat} {src : EccSource}

/-! ### The parts of the state that an error log entry changes -/

/-- Nothing but registers, syndromes and the count of free choices has changed. -/
structure LogOnly (s t : State) : Prop where
  rest : t = { s with regs := t.regs, syndromes := t.syndromes, free := t.free }

theorem LogOnly.refl : LogOnly s s := ⟨rfl⟩
theorem LogOnly.trans (h : LogOnly s t) (k : LogOnly t u) : LogOnly s u := ⟨by rw [k.rest, h.rest]⟩
theorem LogOnly.setReg : LogOnly s (s.setReg r ix v) := ⟨rfl⟩
theorem LogOnly.put : LogOnly s (s.put f n ix) := ⟨rfl⟩

theorem LogOnly.foldl {α : Type} {g : State → α → State} (l : List α) (h : ∀ s a, LogOnly s (g s a)) : LogOnly s (l.foldl g s) := by
  induction l generalizing s with
  | nil => exact .refl
  | cons a l ih => exact (h s a).trans ih

theorem LogOnly.drawSyndrome : LogOnly s (s.drawSyndrome n) := by
  unfold State.drawSyndrome
  split
  · exact ⟨rfl⟩
  · exact .refl

theorem LogOnly.eccAdd : LogOnly s (s.eccAdd tw a src n w) := by
  have hshift {s : State} : LogOnly s (s.eccShift tw) := .foldl _ fun _ _ => LogOnly.setReg.trans .setReg
  have hput {s : State} {i : Nat} : LogOnly s (s.eccPut tw i a w) := LogOnly.setReg.trans .setReg
  unfold State.eccAdd
  dsimp only
  split
  · exact .refl
  · split
    · exact hput.trans (LogOnly.put.trans .put)
    · split
      · exact hshift.trans (hput.trans .put)
      · exact .put

theorem LogOnly.eccError {x : Bool} : LogOnly s (s.eccError tw a x src reader) := by
  have henter {s : State} : LogOnly s (s.eccEnter tw a x src reader) := LogOnly.drawSyndrome.trans .eccAdd
  unfold State.eccError
  dsimp only
  split
  · exact LogOnly.put.trans henter
  · exact LogOnly.put.trans henter

/-- The same with what events and the engine's mark of the error change. -/
structure FetchOnly (s t : State) : Prop where
  rest : t = { s with
    regs := t.regs, engines := t.engines, hostmem := t.hostmem, vault := t.vault, hostOut := t.hostOut
    holdoff := t.holdoff, notifyDue := t.notifyDue, syndromes := t.syndromes, free := t.free }

theorem FetchOnly.trans (h : FetchOnly s t) (k : FetchOnly t u) : FetchOnly s u := ⟨by rw [k.rest, h.rest]⟩
theorem FetchOnly.of_log (h : LogOnly s t) : FetchOnly s t := ⟨by rw [h.rest]⟩
theorem FetchOnly.of_events (h : OnlyEvents s t) : FetchOnly s t := ⟨by rw [h.rest]⟩

theorem State.fetchedWord_only : FetchOnly s (s.fetchedWord e) := by
  unfold State.fetchedWord State.spadCorrect
  split
  · exact (FetchOnly.of_log (LogOnly.eccError (s := s) (tw := e.val / 4) (x := false) (src := spadSource e true)
      (a := 16 * ((s.eng e).pc.toNat / 16)) (reader := readerEngine))).trans
      ((FetchOnly.of_events .tallyEng).trans ⟨rfl⟩)
  · exact ⟨rfl⟩

section
@[simp] theorem State.fetchedWord_fenceWait : (s.fetchedWord e).fenceWait = s.fenceWait := by rw [State.fetchedWord_only.rest]
@[simp] theorem State.fetchedWord_tests : (s.fetchedWord e).tests = s.tests := by rw [State.fetchedWord_only.rest]
@[simp] theorem State.fetchedWord_qitems : (s.fetchedWord e).qitems = s.qitems := by rw [State.fetchedWord_only.rest]
@[simp] theorem State.fetchedWord_mc : (s.fetchedWord e).mc = s.mc := by rw [State.fetchedWord_only.rest]
@[simp] theorem State.fetchedWord_carried : (s.fetchedWord e).carried = s.carried := by rw [State.fetchedWord_only.rest]
@[simp] theorem State.fetchedWord_memSoft : (s.fetchedWord e).memSoft = s.memSoft := by rw [State.fetchedWord_only.rest]
@[simp] theorem State.fetchedWord_standinSoft : (s.fetchedWord e).standinSoft = s.standinSoft := by rw [State.fetchedWord_only.rest]
@[simp] theorem State.fetchedWord_held : (s.fetchedWord e).held = s.held := by rw [State.fetchedWord_only.rest]
@[simp] theorem State.fetchedWord_poolReserved : (s.fetchedWord e).poolReserved = s.poolReserved := by
  rw [State.fetchedWord_only.rest]
end

/-! ### Words of design memory -/

theorem SameBanks.foldl_mem {α : Type} {g : State → α → State} (l : List α) (h : ∀ s, ∀ a ∈ l, SameBanks s (g s a)) :
    SameBanks s (l.foldl g s) := by
  induction l generalizing s with
  | nil => exact .refl
  | cons a l ih => exact (h s a (by simp)).trans (ih fun s b hb => h s b (by simp [hb]))

section
variable (ht : tw < 4)
include ht

theorem SameBanks.setLog (hr : r = .ECC_ADDR ∨ r = .ECC_INFO) (hi : i < 32) : SameBanks s (s.setReg r [tw, i] v) := by
  have hv := ecc_valid ht hi
  obtain rfl | rfl := hr
  · exact .setReg (by decide) (by decide) hv.1
  · exact .setReg (by decide) (by decide) hv.2

theorem SameBanks.put_eccStat (hf : f.reg = .ECC_STAT) : SameBanks s (s.put f n [tw]) :=
  .put (by rw [hf]; decide) (by rw [hf]; decide) (by rw [hf]; exact eccStat_valid ht) (by rw [hf]; decide)

theorem SameBanks.eccAdd : SameBanks s (s.eccAdd tw a src n w) := by
  have hput {s : State} {i : Nat} (hi : i < 32) : SameBanks s (s.eccPut tw i a w) :=
    (SameBanks.setLog ht (.inl rfl) hi).trans (.setLog ht (.inr rfl) hi)
  have hshift {s : State} : SameBanks s (s.eccShift tw) := .foldl_mem _ fun _ i hi => by
    have hi : i < 32 := by have := List.mem_range.mp hi; omega
    exact (SameBanks.setLog ht (.inl rfl) hi).trans (.setLog ht (.inr rfl) hi)
  unfold State.eccAdd
  dsimp only
  split
  · exact .refl
  · split
    · exact (hput ‹_›).trans ((SameBanks.put_eccStat ht rfl).trans (.put_eccStat ht rfl))
    · split
      · exact hshift.trans ((hput (by decide)).trans (.put_eccStat ht rfl))
      · exact .put_eccStat ht rfl

theorem SameBanks.eccError {x : Bool} : SameBanks s (s.eccError tw a x src reader) := by
  have hdraw {s : State} {k : Nat} : SameBanks s (s.drawSyndrome k) := by
    unfold State.drawSyndrome
    split
    · exact .of_regs rfl rfl rfl rfl rfl
    · exact .refl
  have henter {s : State} : SameBanks s (s.eccEnter tw a x src reader) := hdraw.trans (.eccAdd ht)
  unfold State.eccError
  dsimp only
  split
  · exact (SameBanks.put_eccStat (f := F.ECC_STAT.UNCORRECTABLE) ht rfl).trans henter
  · exact (SameBanks.put_eccStat (f := F.ECC_STAT.CORRECTED) ht rfl).trans henter
end

theorem KeepsKeys.tallyEng {ev k : Nat} : KeepsKeys s (s.tally (unitOfEngine e) ev k) := by
  unfold State.tally
  split
  · exact .refl
  · exact .tallyVia (fun a b c d s => .sendEvent 9 a b c d s) (unitOfEngine_lt e)

theorem SameBanks.tallyEng {ev k : Nat} : SameBanks s (s.tally (unitOfEngine e) ev k) := .of_events .tallyEng .tallyEng

theorem SameBanks.fetchedWord : SameBanks s (s.fetchedWord e) := by
  unfold State.fetchedWord State.spadCorrect
  split
  · exact (SameBanks.eccError (eng_tower_lt e)).trans (SameBanks.tallyEng.trans (.of_regs rfl rfl rfl rfl rfl))
  · exact .refl

@[simp] theorem State.fetchedWord_memWordAt : (s.fetchedWord e).memWordAt a = s.memWordAt a := SameBanks.fetchedWord.memWordAt
@[simp] theorem State.fetchedWord_memBadAt : (s.fetchedWord e).memBadAt a = s.memBadAt a := SameBanks.fetchedWord.memBadAt

@[simp] theorem State.fetchedWord_memSoftAt : (s.fetchedWord e).memSoftAt a = s.memSoftAt a := by
  rw [State.memSoftAt, SameBanks.fetchedWord.standinServes memBank_lt, State.fetchedWord_memSoft, State.fetchedWord_standinSoft,
    State.memSoftAt]

/-! ### Bank owners, domains and resets -/

theorem bankOwner_valid (ht : tw < 4) (hb : b < 256) : RegName.BANK_OWNER.valid [tw, b] = true := by
  simp [RegName.valid, RegName.place, ixValid, ht, hb]

theorem State.fetchedWord_portBAllows {rq : Requester} {role : Role} {write : Bool} (ht : tw < 4) (hb : b < 256) :
    (s.fetchedWord e).portBAllows tw b rq role write = s.portBAllows tw b rq role write := by
  have hfld {f : Fld} (hf : f.reg = .BANK_OWNER) : (s.fetchedWord e).fld f [tw, b] = s.fld f [tw, b] :=
    State.fetchedWord_fld (by rw [hf]; exact bankOwner_valid ht hb) (by rw [hf]; decide)
  have howner : (s.fetchedWord e).ownerIs tw b rq = s.ownerIs tw b rq := by
    unfold State.ownerIs
    rw [hfld (f := F.BANK_OWNER.KIND) rfl, hfld (f := F.BANK_OWNER.ENGINE) rfl]
  rw [State.portBAllows, howner, hfld (f := F.BANK_OWNER.KIND) rfl, State.fetchedWord_lapsRun, State.portBAllows]

theorem State.fetchedWord_pd (hn : n < 64) : (s.fetchedWord e).pd n = s.pd n :=
  State.fetchedWord_fld (by simp [RegName.valid, RegName.place, ixValid, F.PD_STAT.NOW, hn]) (by decide)

@[simp] theorem State.fetchedWord_targetHeld : (s.fetchedWord e).targetHeld a = s.targetHeld a := by
  simp only [State.targetHeld, State.layerHeld, State.towerHeld, State.fetchedWord_ref]

/-- The domains and the tower that a request stands on are domains and a tower of the package. -/
structure InPackage (rq : Rq) (a : Nat) : Prop where
  tower : (portOf rq a).tower < 4
  port : (portOf rq a).dom < 64
  block : addrDomain rq a < 64

theorem State.fetchedWord_targetOff {rq : Rq} (h : InPackage rq a) : (s.fetchedWord e).targetOff rq a = s.targetOff rq a := by
  have hlayer : (s.fetchedWord e).memLayerOn (portOf rq a).tower = s.memLayerOn (portOf rq a).tower := by
    refine Bool.eq_iff_iff.mpr ?_
    simp only [State.memLayerOn, List.any_eq_true, List.mem_range]
    refine exists_congr fun q => and_congr_right fun hq => ?_
    rw [State.fetchedWord_fenced (by have := h.tower; simp only [pdQuad]; omega)]
  rw [State.targetOff, State.portOff, State.portFenced, hlayer, State.fetchedWord_fenced h.port, State.fetchedWord_fenced h.block,
    State.fetchedWord_pd h.port, State.fetchedWord_fenceWait, State.targetOff, State.portOff, State.portFenced]

theorem inPackage_memory {rq : Rq} (ha : a < 0x100000000) : InPackage rq a := by
  have hs : spaceOf a = .memory := by simp [spaceOf, ha]
  have ht : memTower a < 4 := by simp only [memTower]; omega
  have hb := memBank_lt (a := a)
  refine ⟨?_, ?_, ?_⟩
  · simpa [portOf, endpointOf, hs, groupEnd] using ht
  · simp only [portOf, endpointOf, hs, groupEnd]
    omega
  · simp only [addrDomain, hs, pdQuad]
    omega

end Sys2Proof.Machine
end

section
/-! SUPPORT. Requests on design memory that reach their bank (R10, R76 to R78, R159, R160, R170), and O10. -/

namespace Sys2Proof.Machine

variable {s t u : State} {e : Eng} {rq : Rq} {role : Role} {who : HeldBy} {op : ReqOp} {a len reader : Nat} {r : Resp} {v : W64}
  {q : Quad} {d : Payload}

/-! ### The way to the bank -/

/-- A request that reaches the bank behind address `a`; an engine that sends it is in no handler. -/
structure ReachesBank (s : State) (rq : Rq) (a : Nat) : Prop where
  memory : a < 0x100000000
  on : s.targetOff rq a = false
  held : s.targetHeld a = false
  quiet : ∀ e, rq.agent = .engine e → (s.eng e).inTrap = false

theorem spaceOf_memory (h : a < 0x100000000) : spaceOf a = .memory := by simp [spaceOf, h]

/-- The form of a request on a memory: wide, or an atomic add of an aligned word. -/
structure MemForm (op : ReqOp) (a len : Nat) : Prop where
  wide : wideOk a len = true

theorem MemForm.refusal (h : MemForm op a len) (ha : a < 0x100000000) : formRefusal rq op a len = none := by
  have hlen : 16 ≤ len := by
    have := h.wide
    simp only [wideOk, decide_eq_true_eq] at this
    exact this.1
  simp [formRefusal, spaceOf_memory ha, h.wide, show ¬len < 16 by omega]

theorem wideOk_word (h : a % 16 = 0) : wideOk a 16 = true := by
  simp only [wideOk, decide_eq_true_eq, le_refl, Nat.mod_self, h, true_and]
  omega

section
variable (h : ReachesBank s rq a)
include h

theorem ReachesBank.assigned : Machine.assigned rq op a len = true := by simp [Machine.assigned, spaceOf_memory h.memory]

theorem ReachesBank.serve (hf : MemForm op a len) : s.serve rq role who op a len =
    State.countDenied (.done (s.serveMemory rq role who op a len).1 (s.serveMemory rq role who op a len).2.1,
      (s.serveMemory rq role who op a len).2.2) := by
  have harrive : s.arrive rq role who op a len = none := by
    simp [State.arrive, hf.refusal h.memory, h.assigned, h.on]
  simp [State.serve, harrive, State.serveOn, h.held, State.serveNow, spaceOf_memory h.memory]

theorem ReachesBank.noTest (he : rq.agent = .engine e) : s.trapAccess e (memTower a) (memBank a) = s := by
  simp [State.trapAccess, h.quiet e he]

omit h in
theorem serveMemory_refused
    (hr : s.portBAllows (memTower a) (memBank a) (requesterOf rq) role (op.isWrite || isAdd op) = r) (hne : r ≠ .ok) :
    s.serveMemory rq role who op a len = (r, 0, s) := by
  unfold State.serveMemory
  dsimp only
  rw [hr]
  cases r with
  | ok => exact absurd rfl hne
  | _ => rfl

theorem ReachesBank.serveMemory_read {qs : List Quad}
    (hok : s.portBAllows (memTower a) (memBank a) (requesterOf rq) role false = .ok)
    (hr : s.readWords (readerOf rq who) a (len / 16) = (some qs, t)) :
    s.serveMemory rq role who .read a len = (.ok, quadsPayload qs, t) := by
  have hallow : s.portBAllows (memTower a) (memBank a) (requesterOf rq) role (ReqOp.read.isWrite || isAdd .read) = .ok := hok
  unfold State.serveMemory
  dsimp only
  rw [hallow]
  dsimp only
  cases hag : rq.agent with
  | engine e =>
    dsimp only
    rw [h.noTest hag, hr]
  | host m n =>
    dsimp only
    rw [hr]

theorem ReachesBank.serveMemory_unread 
    (hok : s.portBAllows (memTower a) (memBank a) (requesterOf rq) role false = .ok)
    (hr : s.readWords (readerOf rq who) a (len / 16) = (none, t)) :
    s.serveMemory rq role who .read a len = (.uncorrectable, 0, t) := by
  have hallow : s.portBAllows (memTower a) (memBank a) (requesterOf rq) role (ReqOp.read.isWrite || isAdd .read) = .ok := hok
  unfold State.serveMemory
  dsimp only
  rw [hallow]
  dsimp only
  cases hag : rq.agent with
  | engine e =>
    dsimp only
    rw [h.noTest hag, hr]
  | host m n =>
    dsimp only
    rw [hr]

theorem ReachesBank.serveMemory_add (hok : s.portBAllows (memTower a) (memBank a) (requesterOf rq) role true = .ok)
    (hr : s.memRead a (readerOf rq who) = (some q, t)) : s.serveMemory rq role who (.amoadd v) a len =
      (.ok, BitVec.ofNat 2048 (wordAt q 0).toNat, t.memStore a (addedWord q v)) := by
  have hallow : s.portBAllows (memTower a) (memBank a) (requesterOf rq) role ((ReqOp.amoadd v).isWrite || isAdd (.amoadd v)) =
    .ok := hok
  unfold State.serveMemory
  dsimp only
  rw [hallow]
  dsimp only
  cases hag : rq.agent with
  | engine e =>
    dsimp only
    rw [h.noTest hag, hr]
  | host m n =>
    dsimp only
    rw [hr]

theorem ReachesBank.serveMemory_write (hw : op.isWrite = true)
    (hok : s.portBAllows (memTower a) (memBank a) (requesterOf rq) role true = .ok) :
    s.serveMemory rq role who op a len = (.ok, 0, s.storeWords a (payloadQuads op.data len)) := by
  have hallow : s.portBAllows (memTower a) (memBank a) (requesterOf rq) role (op.isWrite || isAdd op) = .ok := by
    rwa [hw, Bool.true_or]
  unfold State.serveMemory
  dsimp only
  rw [hallow]
  dsimp only
  cases hag : rq.agent with
  | engine e =>
    dsimp only
    rw [h.noTest hag]
    cases op with
    | write d => rfl
    | posted d => rfl
    | _ => exact absurd hw Bool.false_ne_true
  | host m n =>
    cases op with
    | write d => rfl
    | posted d => rfl
    | _ => exact absurd hw Bool.false_ne_true
end

/-! ### Good words -/

/-- The word of design memory has no error. -/
def State.SoundAt (s : State) (a : Nat) : Prop := s.memBadAt a = false ∧ s.memSoftAt a = false

theorem State.memRead_sound (h : s.SoundAt a) : s.memRead a reader = (some (s.memWordAt a), s) := by
  obtain ⟨hb, hs⟩ := h
  simp [State.memRead, hb, hs]

theorem State.readWords_sound {n : Nat} (h : ∀ i < n, s.SoundAt (a + 16 * i)) :
    s.readWords reader a n = (some ((List.range n).map fun i => s.memWordAt (a + 16 * i)), s) := by
  induction n generalizing a with
  | zero => rfl
  | succ n ih =>
    have hrest := ih (a := a + 16) fun i hi => by
      have := h (i + 1) (by omega)
      rwa [show a + 16 * (i + 1) = a + 16 + 16 * i by omega] at this
    rw [State.readWords, State.memRead_sound (by simpa using h 0 (by omega))]
    dsimp only
    rw [hrest, List.range_succ_eq_map]
    simp [Function.comp_def, Nat.mul_add, Nat.add_assoc, Nat.add_comm 16]

theorem quadsPayload_one : quadsPayload [q] = q.setWidth 2048 := by
  rw [quadsPayload, joinQuads_one, BitVec.ofNat_toNat]

theorem quadAt_payload : quadAt (q.setWidth 2048) 0 = q := by
  rw [quadAt, quad_toNat_setWidth, Nat.mul_zero, Nat.shiftRight_zero, BitVec.ofNat_toNat, BitVec.setWidth_eq]

theorem payloadQuads_one : payloadQuads (q.setWidth 2048) 16 = [q] := by
  show [quadAt (q.setWidth 2048) 0] = [q]
  rw [quadAt_payload]

section
variable (h : ReachesBank s rq a) (ha : a % 16 = 0)
include h ha

/-- A good word is read. -/
theorem ReachesBank.reads (hok : s.portBAllows (memTower a) (memBank a) (requesterOf rq) role false = .ok) (hs : s.SoundAt a) :
    s.serve rq role who .read a 16 = (.done .ok ((s.memWordAt a).setWidth 2048), s) := by
  have hread : s.readWords (readerOf rq who) a 1 = (some [s.memWordAt a], s) :=
    State.readWords_sound (n := 1) fun i hi => by
      obtain rfl : i = 0 := by omega
      simpa using hs
  rw [h.serve ⟨wideOk_word ha⟩, h.serveMemory_read hok hread, quadsPayload_one]
  rfl

/-- A word is written. -/
theorem ReachesBank.writes (hok : s.portBAllows (memTower a) (memBank a) (requesterOf rq) role true = .ok) :
    s.serve rq role who (.write (q.setWidth 2048)) a 16 = (.done .ok 0, s.memStore a q) := by
  rw [h.serve ⟨wideOk_word ha⟩, h.serveMemory_write rfl hok, ReqOp.data, payloadQuads_one]
  rfl

/-- A good word is added to. -/
theorem ReachesBank.adds (hok : s.portBAllows (memTower a) (memBank a) (requesterOf rq) role true = .ok) (hs : s.SoundAt a) :
    s.serve rq role who (.amoadd v) a 16 =
      (.done .ok (BitVec.ofNat 2048 (wordAt (s.memWordAt a) 0).toNat), s.memStore a (addedWord (s.memWordAt a) v)) := by
  rw [h.serve ⟨wideOk_word ha⟩, h.serveMemory_add hok (State.memRead_sound hs)]
  rfl
end

/-! ### Loads and stores of engines -/

theorem State.waited_with {f : Engine → Engine} (hp : (f (s.eng e)).pc ≠ 0xFFF8) {n : W64} :
    OnlyEvents (s.waited e n f) ((s.onEng e f).spend.retireWith e 0 0 ((s.onEng e f).cyclesWith n)) := by
  have h := State.retireWith_events (s := (s.onEng e f).spend) (e := e) (rd := 0) (v := 0) (n := (s.onEng e f).cyclesWith n)
    (by rw [show (s.onEng e f).spend.eng e = (s.onEng e f).eng e from rfl, State.eng_onEng]; exact hp)
  have heq : (s.onEng e f).spend.onEng e (fun en => (en.put 0 0).done ((s.onEng e f).cyclesWith n)) = s.waited e n f := by
    show (s.spend.onEng e f).onEng e _ = _
    rw [State.onEng_onEng]
    rfl
  rwa [heq] at h

/-- A load whose data arrives, and what the waits of every such instruction end in. -/
theorem issue_loads {body : State → State} {rd : Gpr} {form : LoadForm} {addr : W64} {g : State} (hc : s.canIssue e = true)
    (hb : body (s.fetchedWord e) = (g.loadArrived e rd form addr .ok d).finish)
    (hp : ((g.eng e).loaded rd form d).pc ≠ 0xFFF8) :
    ∃ u, issue e s body = .next (s.afterWait e u) ∧ OnlyEvents (g.waited e 2 fun en => en.loaded rd form d) u := by
  refine ⟨_, ?_, State.waited_with hp⟩
  rw [issue, if_pos hc, hb, State.loadArrived, if_pos rfl]
  rfl

theorem LoadForm.op_quad : LoadForm.quad.op = .read := rfl

theorem fetched_inTrap : ((s.fetchedWord e).eng e).inTrap = (s.eng e).inTrap := s.fetchedWord_eng e _ fun _ _ => rfl
theorem fetched_role : ((s.fetchedWord e).eng e).role = (s.eng e).role := s.fetchedWord_eng e _ fun _ _ => rfl
theorem fetched_stores : ((s.fetchedWord e).eng e).stores = (s.eng e).stores := s.fetchedWord_eng e _ fun _ _ => rfl

theorem fetched_storesTo : ((s.fetchedWord e).eng e).storesTo v = (s.eng e).storesTo v := by
  rw [Engine.storesTo, fetched_stores, Engine.storesTo]

/-- The bank is reached as well from the state after the fetch. -/
theorem ReachesBank.fetched (h : ReachesBank s (engRq e) a) : ReachesBank (s.fetchedWord e) (engRq e) a where
  memory := h.memory
  on := (State.fetchedWord_targetOff (inPackage_memory h.memory)).trans h.on
  held := State.fetchedWord_targetHeld.trans h.held
  quiet := fun e' he => by
    obtain rfl : e = e' := by simpa [engRq] using he
    rw [fetched_inTrap]
    exact h.quiet e rfl

theorem fetched_allows {write : Bool} (ha : a < 0x100000000) :
    (s.fetchedWord e).portBAllows (memTower a) (memBank a) (requesterOf (engRq e)) ((s.fetchedWord e).eng e).role write =
      s.portBAllows (memTower a) (memBank a) (.engine e.val) (s.eng e).role write := by
  rw [fetched_role]
  exact State.fetchedWord_portBAllows (by simp only [memTower]; omega) memBank_lt

theorem State.SoundAt.fetched (h : s.SoundAt a) : (s.fetchedWord e).SoundAt a :=
  ⟨State.fetchedWord_memBadAt.trans h.1, State.fetchedWord_memSoftAt.trans h.2⟩

theorem memory_reaches (ha : a < 0x100000000) : quadReach a = none ∧ addReach a = none := by
  simp [quadReach, addReach, spaceOf_memory ha]

theorem memory_inside (ha : v.toNat < 0x100000000) : ¬Outside false v := by
  simp only [Outside, Bool.false_eq_true, false_and, true_and, false_or]
  omega

theorem not_narrow {v : W64} : (16 < 16) → ¬WideOnly false v := by omega

theorem State.vaultLoads_memory {form : LoadForm} (ha : a < 0x100000000) : s.vaultLoads form a = false := by
  simp [State.vaultLoads, spaceOf_memory ha]

theorem Engine.loaded_pc {en : Engine} {rd : Gpr} {form : LoadForm} : (en.loaded rd form d).pc = en.pc := by
  cases form <;> simp only [Engine.loaded, Engine.put_pc]

theorem State.eng_memStore : (s.memStore a q).eng e = s.eng e := by
  unfold State.memStore
  dsimp only
  split <;> split <;> rfl

section
variable {rd ra rb : Gpr} {disp : BitVec 41} {short : BitVec 40} (hc : s.canIssue e = true) (hp : (s.eng e).pc ≠ 0xFFF8)
include hc hp

theorem execLdq_bank (h : ReachesBank s (engRq e) ((s.eng e).ea ra disp).toNat) (h16 : ((s.eng e).ea ra disp).toNat % 16 = 0)
    (hok : s.portBAllows (memTower ((s.eng e).ea ra disp).toNat) (memBank ((s.eng e).ea ra disp).toNat) (.engine e.val)
      (s.eng e).role false = .ok)
    (hs : s.SoundAt ((s.eng e).ea ra disp).toNat) (ho : (s.eng e).storesTo ((s.eng e).ea ra disp) = false)
    (hrd : rd.val % 2 = 0) :
    ∃ u, execLdq e rd ra false disp s = .next (s.afterWait e u) ∧ OnlyEvents ((s.fetchedWord e).waited e 2 fun en =>
      en.loaded rd .quad ((s.memWordAt ((s.eng e).ea ra disp).toNat).setWidth 2048)) u := by
  refine issue_loads (addr := (s.eng e).ea ra disp) hc ?_ (by rwa [Engine.loaded_pc, State.fetchedWord_pc])
  have hserve := h.fetched.reads (who := .load) (role := ((s.fetchedWord e).eng e).role) h16
    ((fetched_allows h.memory).trans hok) hs.fetched
  rw [State.fetchedWord_memWordAt] at hserve
  dsimp only
  rw [State.fetchedWord_ea, if_neg (by omega), checked_dev (memory_inside h.memory) not_narrow h16 rfl (memory_reaches h.memory).1,
    State.devLoad, fetched_storesTo, ho]
  unfold State.engineLoad
  simp only [State.vaultLoads_memory h.memory, Bool.false_eq_true, if_false, LoadForm.op_quad, LoadForm.len]
  rw [hserve]

theorem execAmoadd_bank (h : ReachesBank s (engRq e) ((s.eng e).ea ra short).toNat) (h16 : ((s.eng e).ea ra short).toNat % 16 = 0)
    (hok : s.portBAllows (memTower ((s.eng e).ea ra short).toNat) (memBank ((s.eng e).ea ra short).toNat) (.engine e.val)
      (s.eng e).role true = .ok)
    (hs : s.SoundAt ((s.eng e).ea ra short).toNat) (ho : (s.eng e).storesTo ((s.eng e).ea ra short) = false) :
    ∃ u, execAmoadd e rd ra rb false short s = .next (s.afterWait e u) ∧ OnlyEvents
      (((s.fetchedWord e).memStore ((s.eng e).ea ra short).toNat
        (addedWord (s.memWordAt ((s.eng e).ea ra short).toNat) ((s.eng e).get rb))).waited e 2 fun en =>
          en.loaded rd (.add ((s.eng e).get rb))
            (BitVec.ofNat 2048 (wordAt (s.memWordAt ((s.eng e).ea ra short).toNat) 0).toNat)) u := by
  refine issue_loads (addr := (s.eng e).ea ra short) hc ?_ (by rwa [Engine.loaded_pc, State.eng_memStore, State.fetchedWord_pc])
  have hserve := h.fetched.adds (who := .load) (role := ((s.fetchedWord e).eng e).role) (v := (s.eng e).get rb) h16
    ((fetched_allows h.memory).trans hok) hs.fetched
  rw [State.fetchedWord_memWordAt] at hserve
  dsimp only
  rw [State.fetchedWord_ea, State.fetchedWord_get, checked_dev (memory_inside h.memory) not_narrow h16 rfl
    (memory_reaches h.memory).2, State.devLoad, fetched_storesTo, ho]
  unfold State.engineLoad
  simp only [State.vaultLoads_memory h.memory, Bool.false_eq_true, if_false, LoadForm.op, LoadForm.len]
  rw [hserve]

theorem execStq_bank (h : ReachesBank s (engRq e) ((s.eng e).ea ra disp).toNat) (h16 : ((s.eng e).ea ra disp).toNat % 16 = 0)
    (hok : s.portBAllows (memTower ((s.eng e).ea ra disp).toNat) (memBank ((s.eng e).ea ra disp).toNat) (.engine e.val)
      (s.eng e).role true = .ok)
    (hrd : rd.val % 2 = 0) (hl : (s.eng e).stores.length < 16) :
    ∃ u, execStq e rd ra false disp s = .next (u.finish.settleEnd s e) ∧ OnlyEvents
      (((s.fetchedWord e).memStore ((s.eng e).ea ra disp).toNat ((s.eng e).get (rd + 1) ++ (s.eng e).get rd)).onEng e fun en =>
        ({ en with stores := en.stores ++ [{ addr := (s.eng e).ea ra disp, resp := some 0 }] } : Engine).done 3) u := by
  have hserve := h.fetched.writes (who := .store) (role := ((s.fetchedWord e).eng e).role)
    (q := (s.eng e).get (rd + 1) ++ (s.eng e).get rd) h16 ((fetched_allows h.memory).trans hok)
  refine ⟨_, ?_, State.retire_after
    (f := fun en => { en with stores := en.stores ++ [{ addr := (s.eng e).ea ra disp, resp := some 0 }] }) ?_⟩
  · rw [execStq, issue, if_pos hc]
    dsimp only
    rw [State.fetchedWord_ea, State.fetchedWord_get, State.fetchedWord_get, if_neg (by omega),
      checked_dev (memory_inside h.memory) not_narrow h16 rfl (memory_reaches h.memory).1, State.devStore, fetched_stores,
      if_neg (by omega)]
    rw [show quadOf ((s.eng e).get rd) ((s.eng e).get (pairHi rd)) = (s.eng e).get (rd + 1) ++ (s.eng e).get rd from rfl, hserve]
    dsimp only
    rw [State.eng_memStore, State.fetchedWord_state, State.canIssue_running hc, if_pos rfl]
    rfl
  · show ((State.memStore _ _ _).eng e).pc ≠ _
    rwa [State.eng_memStore, State.fetchedWord_pc]
end

/-- Settles O10: a request that reaches a bank which its owner rules admit reads, writes or adds to the bank's own word. -/
theorem designMemoryAccess : Obligations.DesignMemoryAccess := by
  unfold Obligations.DesignMemoryAccess
  intro s e rd ra rb disp short hc hp hi
  have hbank {a : Nat} (ha : a < 0x100000000) (hoff : s.targetOff (engRq e) a = false) (hheld : s.targetHeld a = false) :
      ReachesBank s (engRq e) a := ⟨ha, hoff, hheld, fun e' he => by
    obtain rfl : e = e' := by simpa [engRq] using he
    exact hi⟩
  simp only [RunsThen, GivesThen, exec]
  refine ⟨fun ⟨ha, h16, hoff, hheld, hok⟩ ⟨hb, hs, ho⟩ hrd => ?_, fun ⟨ha, h16, hoff, hheld, hok⟩ hrd hl => ?_,
    fun ⟨ha, h16, hoff, hheld, hok⟩ ⟨hb, hs, ho⟩ => ?_⟩
  · rw [BitVec.ofNat_toNat, BitVec.setWidth_eq] at ho
    have h := execLdq_bank (rd := rd) hc hp (hbank ha hoff hheld) h16 hok ⟨hb, hs⟩ ho hrd
    simp only [Engine.loaded, wordAt_payload] at h
    exact h
  · rw [BitVec.ofNat_toNat, BitVec.setWidth_eq]
    exact execStq_bank hc hp (hbank ha hoff hheld) h16 hok hrd hl
  · rw [BitVec.ofNat_toNat, BitVec.setWidth_eq] at ho
    have h := execAmoadd_bank (rd := rd) (rb := rb) hc hp (hbank ha hoff hheld) h16 hok ⟨hb, hs⟩ ho
    have hword (x : W64) : wordAt (BitVec.ofNat 2048 x.toNat) 0 = x := by
      rw [BitVec.ofNat_toNat, wordAt_setWidth_word]
    simp only [Engine.loaded, hword] at h
    exact h

end Sys2Proof.Machine
end

section
/-! SUPPORT. Accesses of engines to whole registers (R8, R12, R74 to R77, R220), answers to stores, and O11. -/

namespace Sys2Proof.Machine

variable {s t u : State} {e : Eng} {rq : Rq} {role : Role} {who : HeldBy} {r : RegName} {ix : List Nat} {v : W64} {o n a : Nat}

/-! ### Where registers lie -/

/-- A register of the package's towers, or of a doorbell page above its push window. -/
def placedInPackage (r : RegName) : Bool :=
  decide (r.place.1 + ixExt r.place.2 < 0x030005000000) ||
    (r.place.2 == [(0x1000, 8192)] && decide (0x040000000000 ≤ r.place.1) && decide (r.place.1 < 0x040000001000) &&
      decide (0x40 ≤ r.place.1 % 0x1000))

theorem all_placedInPackage : RegName.all.all placedInPackage = true := by decide +kernel

theorem placedInPackage_of (r : RegName) : placedInPackage r = true := List.all_eq_true.mp all_placedInPackage r (mem_all r)

theorem spaceOf_register (h : spaceOf a = .register) : 0x030000000000 ≤ a := by
  by_contra hlow
  have : spaceOf a ∈ [Space.memory, .frame, .stateStore, .none] := by
    simp only [spaceOf, show ¬0x030000000000 ≤ a from hlow, show ¬0x040000000000 ≤ a by omega, show ¬0x800000000000 ≤ a by omega,
      false_and, if_false]
    split_ifs <;> decide
  rw [h] at this
  exact absurd this (by decide)

theorem spaceOf_doorbell (h : spaceOf a = .doorbell) : 0x030500000000 ≤ a := by
  by_contra hlow
  have : spaceOf a ∈ [Space.memory, .frame, .stateStore, .register, .none] := by
    simp only [spaceOf, show ¬0x040000000000 ≤ a by omega, show ¬0x800000000000 ≤ a by omega, false_and, if_false]
    split_ifs <;> decide
  rw [h] at this
  exact absurd this (by decide)

theorem valid_first {i : Nat} {l : List Nat} (hi : r.valid (i :: l) = true) : i < (r.place.2.headD (0, 0)).2 := by
  unfold RegName.valid at hi
  cases hp : r.place.2 with
  | nil => simp [hp, ixValid] at hi
  | cons p ps =>
    simp only [hp, ixValid, Bool.and_eq_true, decide_eq_true_eq] at hi
    exact hi.1

section
variable (hi : r.valid ix = true)
include hi

theorem addr_package : r.addr ix < 0x030005000000 ∨ 0x040000000000 ≤ r.addr ix ∧ 0x40 ≤ r.addr ix % 0x1000 := by
  have hp := placedInPackage_of r
  simp only [placedInPackage, Bool.or_eq_true, Bool.and_eq_true, decide_eq_true_eq, beq_iff_eq] at hp
  have hb := RegName.addr_bounds hi
  obtain hp | ⟨⟨⟨hstride, hfrom⟩, -⟩, hlow⟩ := hp
  · left
    omega
  · right
    obtain ⟨i, rfl⟩ : ∃ i, ix = [i] := by
      rw [RegName.valid, hstride] at hi
      clear hb
      match ix, hi with
      | [i], _ => exact ⟨i, rfl⟩
      | _ :: _ :: _, h => simp [ixValid] at h
    refine ⟨by omega, ?_⟩
    rw [RegName.addr, hstride]
    simp only [ixOffset]
    omega

theorem addr_register (h : spaceOf (r.addr ix) = .register) : 0x030000000000 ≤ r.addr ix ∧ r.addr ix < 0x030005000000 := by
  have hlow := spaceOf_register h
  refine ⟨hlow, (addr_package hi).resolve_right fun ⟨hhigh, _⟩ => ?_⟩
  have : spaceOf (r.addr ix) ∈ [Space.doorbell, .host, .none] := by
    simp only [spaceOf, show ¬r.addr ix < 0x000100000000 by omega, show ¬r.addr ix < 0x010800000000 by omega,
      show ¬r.addr ix < 0x020100000000 by omega, show ¬r.addr ix < 0x030500000000 by omega, and_false, if_false]
    split_ifs <;> decide
  rw [h] at this
  exact absurd this (by decide)

theorem addr_doorbell (h : spaceOf (r.addr ix) = .doorbell) : 0x40 ≤ r.addr ix % 0x1000 := by
  have := spaceOf_doorbell h
  have := addr_package hi
  omega

/-! ### The domains behind registers -/

theorem pinDomain_lt (h : regAt (0x030000000000 + o / 8 * 8) = some (r, ix)) : pinDomain o < 64 := by
  unfold pinDomain
  rw [h]
  cases ix with
  | nil => split <;> simp_all [pdBank]
  | cons i l =>
    have hfirst := valid_first hi
    split <;> simp_all only [pdBank, bankOfPin, pmuBank, ruBank, Option.some.injEq, Prod.mk.injEq, List.cons.injEq]
    all_goals
      simp only [RegName.place, List.headD_cons] at hfirst
      omega

end

/-- The block behind a copy that its own address reaches stands on a domain of the package. -/
theorem inPackage_addr (hi : r.valid ix = true) (hs : shadowed r ix = false) : InPackage rq (r.addr ix) := by
  obtain h | h := spaceOf_addr hi
  · obtain ⟨hlow, hhigh⟩ := addr_register hi h
    have hblock : regDomain (r.addr ix) < 64 := by
      unfold regDomain
      rw [if_neg (by rw [h]; decide)]
      dsimp only
      have hpin : pinDomain (r.addr ix - 0x030000000000) < 64 := by
        refine pinDomain_lt hi (o := r.addr ix - 0x030000000000) ?_
        have := addr_words r ix
        rw [show 0x030000000000 + (r.addr ix - 0x030000000000) / 8 * 8 = r.addr ix by omega, regAt_addr hi hs]
      split
      · split
        case h_4 => exact hpin
        all_goals decide
      · split <;> simp only [pdQuad, pdRelay, pdTrace, pdNE] <;> omega
    have hgroup {n : Nat} (hn : n < 4) (t : Nat) : endpointNo t n = some ⟨t, [routerNo 1 1, routerNo 4 1, routerNo 1 2,
        routerNo 4 2].getD n 0, 0, pdNE t⟩ := if_pos hn
    refine ⟨?_, ?_, by rw [addrDomain, h]; exact hblock⟩
    · rw [portOf, endpointOf, h]
      dsimp only
      split_ifs
      · split <;> decide
      · rw [hgroup (by omega), Option.getD_some]
        dsimp only
        omega
      · dsimp only
        omega
      · dsimp only
        omega
      · dsimp only
        omega
    · rw [portOf, endpointOf, h]
      dsimp only
      split_ifs
      · split <;> decide
      · rw [hgroup (by omega), Option.getD_some]
        simp only [pdNE]
        omega
      · simp only [pdQuad]
        omega
      · simp only [pdNE]
        omega
      · simp only [pdNE]
        omega
  · have hport : portOf rq (r.addr ix) = ⟨0, routerNo 0 3, 0, pdNE 0⟩ := by rw [portOf, endpointOf, h]
    refine ⟨by rw [hport]; decide, by rw [hport]; decide, ?_⟩
    rw [addrDomain, h]
    show regDomain (r.addr ix) < 64
    rw [regDomain, if_pos h]
    decide

/-! ### Whole-register accesses -/

/-- A copy that exists, at its own address. -/
structure CopyAt (r : RegName) (ix : List Nat) : Prop where
  valid : r.valid ix = true
  shown : shadowed r ix = false
  assigned : copyAssigned r ix = true

theorem not_push {op : ReqOp} : isPush rq op a 8 = false := by cases op <;> simp [isPush]

section
variable {op : ReqOp} (h : CopyAt r ix)
include h

theorem CopyAt.target : targetAt (r.addr ix / 8 * 8) = some (.reg r ix) := by
  rw [Nat.div_mul_cancel (Nat.dvd_of_mod_eq_zero (addr_words r ix)), targetAt_addr h.valid h.shown h.assigned]

theorem CopyAt.form (ha : isAdd op = false) : formRefusal rq op (r.addr ix) 8 = none := by
  have hnarrow : narrowOk (r.addr ix) 8 = true := by simp [narrowOk, addr_words]
  obtain hs | hs := spaceOf_addr h.valid
  · simp [formRefusal, hs, ha, hnarrow]
  · have := addr_doorbell h.valid hs
    simp [formRefusal, hs, ha, hnarrow, not_push, show ¬r.addr ix % 0x1000 < 0x40 by omega]

theorem CopyAt.isAssigned : Machine.assigned rq op (r.addr ix) 8 = true := by
  obtain hs | hs := spaceOf_addr h.valid
  · simp [Machine.assigned, hs, h.target]
  · simp [Machine.assigned, hs, h.target]

theorem CopyAt.serve (ha : isAdd op = false) (hon : s.targetOff rq (r.addr ix) = false) (hheld : s.targetHeld (r.addr ix) = false) :
    s.serve rq role who op (r.addr ix) 8 =
      State.countDenied ((s.touchGate (r.addr ix)).serveReg rq role who op (r.addr ix) 8) := by
  have harrive : s.arrive rq role who op (r.addr ix) 8 = none := by simp [State.arrive, h.form ha, h.isAssigned, hon]
  have hnow : s.serveNow rq role who op (r.addr ix) 8 = (s.touchGate (r.addr ix)).serveReg rq role who op (r.addr ix) 8 := by
    obtain hs | hs := spaceOf_addr h.valid
    · simp [State.serveNow, hs, not_push]
    · simp [State.serveNow, hs, not_push]
  simp [State.serve, harrive, State.serveOn, hheld, hnow]

theorem CopyAt.serveReg_read (hr : s.readRight role r ix = true) (hd : s.slotDenies rq r ix = false) :
    s.serveReg rq role who .read (r.addr ix) 8 = (.done .ok ((s.regView r ix).setWidth 2048), s.afterRead r ix .full) := by
  simp [State.serveReg, h.target, halfOfAccess, ReqOp.isWrite, State.readReg, hr, hd, Half.pick]

theorem CopyAt.serveReg_write {x : Resp} (hn : r ≠ .ROUTER_CFG) (hw : s.writeReg rq role r ix .full v = (x, u)) :
    s.serveReg rq role who (.write (v.setWidth 2048)) (r.addr ix) 8 = (.done x 0, u) := by
  simp only [State.serveReg, h.target, halfOfAccess, ReqOp.isWrite, ReqOp.data, placed_full, if_true]
  split
  · exact absurd rfl hn
  · rw [hw]
end

/-! ### What an access leaves of the engines -/

theorem State.touchGate_eng : (s.touchGate a).eng e = s.eng e := by
  have hclose {s : State} {t b : Nat} : (s.askClose t b).eng e = s.eng e := by
    unfold State.askClose
    split <;> rfl
  have hfollow {s : State} {t b : Nat} : (s.followGate t b).eng e = s.eng e := by
    unfold State.followGate
    split
    · rfl
    · split
      · rfl
      · exact hclose
  unfold State.touchGate
  split
  · unfold State.gateAccess
    split
    · rfl
    · split
      · rfl
      · exact hfollow
  · rfl

theorem State.latchUnit_own : ((s.latchUnit n).eng e).own = (s.eng e).own := by
  have hfold (l : List Nat) (s : State) : ((l.foldl (fun s i =>
      if (s.fld (unitFields (unitIx n).1).ovf (unitIx n).2).testBit i then s
      else (s.orBits (unitFields (unitIx n).1).ovf (2 ^ i) (unitIx n).2).overflowEvent n i) s).eng e).own = (s.eng e).own := by
    induction l generalizing s with
    | nil => rfl
    | cons i l ih =>
      rw [List.foldl_cons, ih]
      split
      · rfl
      · exact (OnlyEvents.overflowEvent.eng e)
  unfold State.latchUnit
  dsimp only
  split
  · rfl
  · exact hfold _ _

theorem State.afterRead_own {h : Half} : ((s.afterRead r ix h).eng e).own = (s.eng e).own := by
  have hprbs {s : State} {p i : Nat} : (s.latchPrbs p i).eng e = s.eng e := by
    unfold State.latchPrbs
    split <;> rfl
  have hlatch : ((s.latchWraps r ix).eng e).own = (s.eng e).own := by
    unfold State.latchWraps
    split
    · exact State.latchUnit_own
    · exact State.latchUnit_own
    · rw [hprbs]
    · rfl
  have hfirst : ((if s.measured r ix then s.spend else s.latchWraps r ix).eng e).own = (s.eng e).own := by
    split
    · rfl
    · exact hlatch
  unfold State.afterRead
  dsimp only
  split
  · exact hfirst
  · exact hfirst

/-! ### Loads and stores of registers -/

theorem narrowReach_register {write : Bool} (h : r.valid ix = true) : narrowReach write (r.addr ix) = none := by
  obtain hs | hs := spaceOf_addr h <;> simp only [narrowReach, hs]

section
variable {rd ra : Gpr} {disp : BitVec 41} (hc : s.canIssue e = true) (hp : (s.eng e).pc ≠ 0xFFF8) (h : CopyAt r ix)
  (ha : (s.eng e).ea ra disp = BitVec.ofNat 64 (r.addr ix)) (hon : s.targetOff (engRq e) (r.addr ix) = false)
  (hheld : s.targetHeld (r.addr ix) = false)
include hc h ha hon hheld

omit hc ha hon hheld in
theorem CopyAt.addr_lt : r.addr ix < 2 ^ 48 := by
  obtain hs | hs := spaceOf_addr h.valid
  · have := (addr_register h.valid hs).2
    omega
  · by_contra hbig
    have : spaceOf (r.addr ix) = .none := by
      simp only [spaceOf, show ¬r.addr ix < 0x000100000000 by omega, show ¬r.addr ix < 0x010800000000 by omega,
        show ¬r.addr ix < 0x020100000000 by omega, show ¬r.addr ix < 0x030500000000 by omega,
        show ¬r.addr ix < 0x040002000000 by omega, show ¬r.addr ix < 0x1000000000000 by omega, and_false, if_false]
    rw [hs] at this
    exact absurd this (by decide)

omit hc hon hheld in
theorem CopyAt.ea_toNat : ((s.eng e).ea ra disp).toNat = r.addr ix := by
  have := h.addr_lt
  rw [ha, BitVec.toNat_ofNat]
  omega

omit hc hon hheld in
theorem CopyAt.passes {len : Nat} {write : Bool} {spad dev : State → State} (hl : len = 8) :
    t.checked e false ((s.eng e).ea ra disp) len (narrowReach write) spad dev = dev t := by
  have hea := h.ea_toNat ha
  have hlt := h.addr_lt
  refine checked_dev ?_ (fun _ => ?_) ?_ rfl ?_
  · simp only [Outside, hea, Bool.false_eq_true, false_and, true_and, false_or]
    omega
  · rintro ⟨-, hw⟩
    rw [hea] at hw
    obtain hs | hs := spaceOf_addr h.valid <;> simp [hs] at hw
  · rw [hea, hl, addr_words]
  · rw [hea]
    exact narrowReach_register h.valid

omit hc ha in
theorem fetched_serve {op : ReqOp} (hop : isAdd op = false) : (s.fetchedWord e).serve (engRq e) role who op (r.addr ix) 8 =
    State.countDenied (((s.fetchedWord e).touchGate (r.addr ix)).serveReg (engRq e) role who op (r.addr ix) 8) :=
  h.serve hop ((State.fetchedWord_targetOff (inPackage_addr h.valid h.shown)).trans hon)
    (State.fetchedWord_targetHeld.trans hheld)

include hp in
theorem execLd_register (hr : ((s.fetchedWord e).touchGate (r.addr ix)).readRight (s.eng e).role r ix = true)
    (hd : ((s.fetchedWord e).touchGate (r.addr ix)).slotDenies (engRq e) r ix = false)
    (ho : (s.eng e).storesTo (BitVec.ofNat 64 (r.addr ix)) = false) :
    ∃ u, execLd e rd ra false false disp s = .next (s.afterWait e u) ∧ OnlyEvents
      ((((s.fetchedWord e).touchGate (r.addr ix)).afterRead r ix .full).waited e 2 fun en =>
        en.loaded rd .word ((((s.fetchedWord e).touchGate (r.addr ix)).regView r ix).setWidth 2048)) u := by
  refine issue_loads (addr := (s.eng e).ea ra disp) hc ?_ ?_
  · have hvault : (s.fetchedWord e).vaultLoads .word (r.addr ix) = false := by
      obtain hs | hs := spaceOf_addr h.valid <;> simp [State.vaultLoads, hs]
    have hserve := fetched_serve (role := ((s.fetchedWord e).eng e).role) (who := .load) (op := .read) h hon hheld rfl
    rw [fetched_role, h.serveReg_read hr hd] at hserve
    simp only [Bool.false_eq_true, if_false]
    rw [State.fetchedWord_ea, h.passes ha (len := LoadForm.word.len) rfl, State.devLoad, fetched_storesTo, ha, ho, ← ha]
    unfold State.engineLoad
    have hword : LoadForm.word.op = .read := rfl
    simp only [h.ea_toNat ha, hvault, Bool.false_eq_true, if_false, hword, LoadForm.len, fetched_role]
    rw [hserve]
    rfl
  · have hpc : (((((s.fetchedWord e).touchGate (r.addr ix)).afterRead r ix .full).eng e).own).pc = (s.eng e).pc := by
      rw [State.afterRead_own, State.touchGate_eng]
      exact State.fetchedWord_pc
    rw [Engine.loaded_pc]
    exact hpc ▸ hp

theorem execSt_register (hl : (s.eng e).stores.length < 16) (hn : r ≠ .ROUTER_CFG)
    (hw : ((s.fetchedWord e).touchGate (r.addr ix)).writeReg (engRq e) (s.eng e).role r ix .full ((s.eng e).get rd) = (.ok, u))
    (hu : (u.eng e).state = .running) :
    execSt e rd ra false false disp s = .next (((u.onEng e fun en =>
      { en with stores := en.stores ++ [{ addr := BitVec.ofNat 64 (r.addr ix), resp := some 0 }] }).retire e 2).finish.settleEnd
        s e) := by
  have hserve := fetched_serve (role := ((s.fetchedWord e).eng e).role) (who := .store)
    (op := .write (((s.eng e).get rd).setWidth 2048)) h hon hheld rfl
  rw [fetched_role, h.serveReg_write hn hw] at hserve
  rw [execSt, issue, if_pos hc]
  simp only [Bool.false_eq_true, if_false]
  rw [State.fetchedWord_ea, State.fetchedWord_get, h.passes ha rfl, State.devStore, fetched_stores, if_neg (by omega), fetched_role,
    h.ea_toNat ha, hserve]
  simp only [State.countDenied, hu, if_true]
  rw [ha]
  rfl

end

/-! ### Answers to stores -/

section
variable {i : Fin 16} {st : Store} (hst : (s.eng e).stores[i.val]? = some st)
include hst

theorem execStoreResponse_ok (hr : st.resp = some 0) : execStoreResponse e i s =
    .next (s.onEng e fun en => { en with stores := en.stores.eraseIdx i.val }).settle := by
  have hanswered {t : State} : t.storeAnswered e st 0 = t := by
    unfold State.storeAnswered
    split
    · rfl
    · rfl
  simp only [execStoreResponse, hst, hr, hanswered]

/-- A store that has failed with DECODE_ERROR is taken as an imprecise trap. -/
theorem execStoreResponse_failed (hc : s.canIssue e = true) (hr : st.resp = some 1) (hold : st.old = false)
    (hv : (s.eng e).tvecEn = true) (hi : (s.eng e).inTrap = false) :
    ∃ u, execStoreResponse e i s = .next u.settle ∧ OnlyEvents (s.onEng e fun en =>
      ({ en with stores := en.stores.eraseIdx i.val } : Engine).trapped .busError 1 true st.addr (en.pc.setWidth 64)) u := by
  have hidle : (s.eng e).state = .running ∧ (s.eng e).frozen = false ∧ (s.eng e).impreciseHeld = [] := by
    simp only [State.canIssue, Bool.and_eq_true, beq_iff_eq, Bool.not_eq_true', List.isEmpty_iff] at hc
    exact ⟨hc.1.1.1.1.1.1, hc.1.1.1.1.1.2, hc.1.2⟩
  obtain ⟨hrun, hfrozen, himp⟩ := hidle
  have hdeliver : ((s.onEng e fun en => { en with stores := en.stores.eraseIdx i.val }).onEng e fun en =>
      { en with impreciseHeld := en.impreciseHeld ++ [st] }).deliver e =
      (s.onEng e fun en => { en with stores := en.stores.eraseIdx i.val }).takeTrap e .busError 1 true st.addr (s.eng e).pc64 := by
    rw [State.onEng_onEng, State.deliver]
    simp only [State.eng_onEng, hrun, hfrozen, himp, List.nil_append, State.onEng_onEng]
    have hsame : ({ s.eng e with stores := (s.eng e).stores.eraseIdx i.val, impreciseHeld := [] } : Engine) =
        { s.eng e with stores := (s.eng e).stores.eraseIdx i.val } := by rw [← himp]
    rw [if_neg (by decide), State.onEng_congr (g := fun en => { en with stores := en.stores.eraseIdx i.val }) hsame, State.storeTrap,
      hr, State.eng_onEng]
    rfl
  refine ⟨(s.onEng e fun en => { en with stores := en.stores.eraseIdx i.val }).takeTrap e .busError 1 true st.addr (s.eng e).pc64,
    ?_, ?_⟩
  · simp only [execStoreResponse, hst, hr, State.storeAnswered, hold, Bool.false_eq_true, if_false]
    rw [show respOfByte 1 = .decodeError from rfl]
    dsimp only
    rw [hdeliver]
  · have h := State.takeTrap_enters (s := s.onEng e fun en => { en with stores := en.stores.eraseIdx i.val }) (e := e) (c := .busError)
      (resp := 1) (i := true) (tval := st.addr) (tpc := (s.eng e).pc64)
      (by rw [State.eng_onEng]; exact trapEnds_handled hv hi)
    rwa [State.onEng_onEng] at h
end

/-- Settles O11: an access to a copy that its own address reaches goes through its block's checks to the register itself; an answer is
taken by the store it belongs to. -/
theorem registerAccess : Obligations.RegisterAccess := by
  unfold Obligations.RegisterAccess
  intro s e rd ra disp r ix i hc hp
  simp only [GivesThen, exec]
  refine ⟨fun hv hs hcopy _ ha hon hheld => ⟨fun hr hd ho => ?_, fun u hl hn hw hu => ?_⟩, fun st hst =>
    ⟨execStoreResponse_ok hst, execStoreResponse_failed hst hc⟩⟩
  · have h := execLd_register (rd := rd) hc hp ⟨hv, hs, hcopy⟩ ha hon hheld hr hd ho
    simp only [Engine.loaded_word, wordAt_setWidth_word] at h
    exact h
  · exact execSt_register hc ⟨hv, hs, hcopy⟩ ha hon hheld hl hn hw hu

end Sys2Proof.Machine
end

section
/-! SUPPORT. Channels and block moves (R81, R82), and O12. -/

namespace Sys2Proof.Machine

variable {s t u : State} {e : Eng} {rd ra rb : Gpr} {op32 : BitVec 32} {ch : Fin 8} {f : Chan → Chan}
  {n i w reader ssp dsp src dst : Nat} {len srcAt dstAt : W64} {q : Quad}

/-! ### The fetch, and fields of OP32 -/

@[simp] theorem fetched_chans : ((s.fetchedWord e).eng e).chans = (s.eng e).chans := s.fetchedWord_eng e _ fun _ _ => rfl

theorem bitsOf_two_zero : bitsOf op32 2 0 = op32.toNat % 8 := by simp [bitsOf]

theorem chanOf_eq (h : op32.toNat % 8 = ch.val) : chanOf op32 = ch := by
  apply Fin.ext
  rw [chanOf, bitsOf_two_zero, Fin.val_ofNat, h, Nat.mod_eq_of_lt ch.isLt]

/-! ### MOVE -/

theorem moveFormed_of (hz : bitsOf op32 31 8 = 0) (h3 : op32.getLsbD 3 = false) (hs : bitsOf op32 5 4 ≤ 1)
    (hd : bitsOf op32 7 6 ≤ 2) : moveFormed op32 = true := by
  simp only [moveFormed, hz, bit, h3, hs, hd, decide_true, beq_self_eq_true, Bool.not_false, Bool.and_true]

section
variable (hl : len.toNat % 16 = 0) (hs : srcAt.toNat % 16 = 0) (hd : dstAt.toNat % 16 = 0)
include hl hs hd

theorem moveInstr_empty (h0 : len = 0) : t.moveInstr e ch ssp dsp len srcAt dstAt = t.retire e 4 := by
  rw [State.moveInstr, if_neg (not_not.mpr hl), if_neg (not_not.mpr hs), if_neg (not_not.mpr hd), if_pos h0]

theorem moveInstr_starts (h0 : len ≠ 0) (hsrc : moveFits ssp srcAt.toNat len.toNat = true)
    (hdst : moveFits dsp dstAt.toNat len.toNat = true) (hres : dsp ≠ 2 ∨ 0x4000 ≤ dstAt.toNat)
    (hidle : (t.eng e).chans[ch].state = .idle) : t.moveInstr e ch ssp dsp len srcAt dstAt = (t.onEng e fun en =>
      { en with chans := en.chans.set ch { state := .busy, op := some (.move ssp dsp srcAt.toNat dstAt.toNat len.toNat), role := en.role } }).retire
        e 4 := by
  have hfree : ¬(dsp = 2 ∧ dstAt.toNat < 0x4000) := by omega
  rw [State.moveInstr, if_neg (not_not.mpr hl), if_neg (not_not.mpr hs), if_neg (not_not.mpr hd), if_neg h0, hsrc, hdst,
    if_neg (by decide), if_neg (by decide), if_neg fun h => hfree ⟨h.1, h.2.1⟩, hidle]
  dsimp only
  rw [State.startMove, if_neg hfree]
end

section
variable (hc : s.canIssue e = true) (hp : (s.eng e).pc ≠ 0xFFF8) (hform : moveFormed op32 = true)
  (hlen : ((s.eng e).get rd).toNat ≤ 0xFFFFFFF0)
include hc hp hform hlen

/-- A MOVE whose form is good and that completes after an update of its engine. -/
theorem execMove_gives {g : Engine → Engine} (hg : ∀ en, (g en).pc = en.pc)
    (h : (s.fetchedWord e).moveInstr e (chanOf op32) (bitsOf op32 5 4) (bitsOf op32 7 6) ((s.eng e).get rd)
      ((s.eng e).get ra) ((s.eng e).get rb) = ((s.fetchedWord e).onEng e g).retire e 4) :
    ∃ u, execMove e rd ra rb op32 s = .next u ∧ OnlyEvents ((s.fetchedWord e).onEng e fun en => (g en).done 4) u := by
  refine issue_gives hc ?_ (by rw [State.eng_onEng, Engine.done_state]; decide)
  dsimp only
  rw [State.fetchedWord_get, State.fetchedWord_get, State.fetchedWord_get, if_neg (by simp [hform]; omega), h]
  exact State.retire_after (by rwa [hg, State.fetchedWord_pc])
end

/-! ### MWAIT and CLR -/

section
variable (hop : op32.toNat = ch.val) (hc : s.canIssue e = true)
include hop

theorem mwait_formed : bitsOf op32 31 3 = 0 := by
  have := ch.isLt
  simp only [bitsOf, Nat.shiftRight_eq_div_pow]
  omega

theorem mwait_chan : chanOf op32 = ch := chanOf_eq (by rw [hop, Nat.mod_eq_of_lt ch.isLt])

include hc

theorem execMwait_idle (hp : (s.eng e).pc ≠ 0xFFF8) (h : (s.eng e).chans[ch].state = .idle) :
    ∃ u, execMwait e rd op32 s = .next u ∧
      OnlyEvents ((s.fetchedWord e).onEng e fun en => (en.put rd (s.eng e).chans[ch].stat).done 2) u := by
  refine issue_retireWith hc ?_ hp
  dsimp only
  obtain rfl := mwait_chan hop
  rw [if_neg (not_not.mpr (mwait_formed hop)), fetched_chans, h]

theorem execMwait_busy (h : (s.eng e).chans[ch].state = .busy) :
    ∃ u, execMwait e rd op32 s = .next u ∧ OnlyEvents ((s.fetchedWord e).onEng e fun en =>
      { en with state := .waiting, waiting := some (.mwait rd ch) }) u := by
  refine issue_gives hc ?_ (by rw [State.eng_onEng]; exact nofun)
  dsimp only
  obtain rfl := mwait_chan hop
  rw [if_neg (not_not.mpr (mwait_formed hop)), fetched_chans, h]
  exact .refl _

theorem execMwait_halted (h : (s.eng e).chans[ch].state = .halted) (ht : (s.eng e).trapEnds .dmaHalt = false) :
    ∃ u, execMwait e rd op32 s = .next u ∧ OnlyEvents ((s.fetchedWord e).onEng e fun en =>
      en.trapped .dmaHalt 0 false (BitVec.ofNat 64 ch.val) (en.pc.setWidth 64)) u := by
  refine issue_traps (r := .ok) hc ?_ ht
  dsimp only
  obtain rfl := mwait_chan hop
  rw [if_neg (not_not.mpr (mwait_formed hop)), fetched_chans, h]
end

theorem writeSpecial_clear (ch : Fin 8) (en : Engine) : en.writeSpecial (0x020 + ch.val) 0x100000 = en.clearChan ch := by
  fin_cases ch <;> rfl

theorem special_chan (ch : Fin 8) : (s.special e (0x020 + ch.val)).isNone = false := by
  fin_cases ch <;> rfl

theorem srwRight_chan (ch : Fin 8) (role : Role) : srwRight (0x020 + ch.val) role = true := by
  fin_cases ch <;> rfl

theorem srwRecorded_chan (ch : Fin 8) : srwRecorded (0x020 + ch.val) = false := by
  revert ch
  decide

theorem execDmaClr_gives (hc : s.canIssue e = true) (hp : (s.eng e).pc ≠ 0xFFF8) :
    ∃ u, execDmaClr e ch s = .next (u.settle.settleEnd s e) ∧
      OnlyEvents ((s.fetchedWord e).onEng e fun en => (en.clearChan ch).done 2) u := by
  have hwrite : (s.fetchedWord e).writeSpecial e (0x020 + ch.val) 0x100000 = (s.fetchedWord e).onEng e fun en => en.clearChan ch := by
    have hn : ¬0x020 + ch.val = 0x031 := by omega
    simp only [State.writeSpecial, if_neg hn, srwRecorded_chan, Bool.false_eq_true, if_false, writeSpecial_clear]
  refine ⟨((s.fetchedWord e).onEng e fun en => en.clearChan ch).retire e 2, ?_,
    State.retire_after (t := s.fetchedWord e) (f := fun en => en.clearChan ch)
      (by rw [show ((s.fetchedWord e).eng e |>.clearChan ch).pc = ((s.fetchedWord e).eng e).pc from rfl, State.fetchedWord_pc]; exact hp)⟩
  rw [execDmaClr, issue, if_pos hc, State.srw, special_chan, srwRight_chan, hwrite]
  simp only [Bool.false_eq_true, if_false, Bool.not_true]

/-! ### A move at work -/

theorem OnlyEvents.spadWrite (h : OnlyEvents s t) : OnlyEvents (s.spadWrite e false w q) (t.spadWrite e false w q) := by
  have hown : OwnOnly fun en => en.spadStore false w q := fun a b hab => by
    cases a
    cases b
    simp only [Engine.own, Engine.mk.injEq] at hab
    simp [Engine.spadStore, Engine.spadClean, Engine.own, hab]
  exact (h.after hown).dropSyndrome

theorem OnlyEvents.onChan (h : OnlyEvents s t) : OnlyEvents (s.onChan e ch f) (t.onChan e ch f) := by
  refine h.after fun a b hab => ?_
  cases a
  cases b
  simp only [Engine.own, Engine.mk.injEq] at hab
  simp [Engine.own, hab]

theorem OnlyEvents.chans (h : OnlyEvents s t) : (t.eng e).chans = (s.eng e).chans := by
  have := congrArg Engine.chans (h.eng e)
  exact this

theorem OnlyEvents.sound (h : OnlyEvents s t) (hs : (s.eng e).Sound w) : (t.eng e).Sound w := by
  have hb := congrArg Engine.dmemBad (h.eng e)
  have hf := congrArg Engine.dmemSoft (h.eng e)
  replace hb : (t.eng e).dmemBad = (s.eng e).dmemBad := hb
  replace hf : (t.eng e).dmemSoft = (s.eng e).dmemSoft := hf
  rwa [Engine.Sound, hb, hf]

theorem OnlyEvents.dmem (h : OnlyEvents s t) : (t.eng e).dmem = (s.eng e).dmem := by
  have := congrArg Engine.dmem (h.eng e)
  exact this

/-- The first `i` words of the move have been copied. -/
def State.copied (s : State) (e : Eng) (src dst i : Nat) : State :=
  (List.range i).foldl (fun u i => u.spadWrite e false (dst + i) (spadWord false (u.eng e) (src + i))) s

/-- The data scratchpad has no errors. -/
structure Engine.AllSound (en : Engine) : Prop where
  bad : en.dmemBad = []
  soft : en.dmemSoft = []

theorem Engine.AllSound.sound {en : Engine} (h : en.AllSound) : en.Sound w := by
  rw [Engine.Sound, h.bad, h.soft]
  simp

theorem Engine.AllSound.spadStore {en : Engine} (h : en.AllSound) : (en.spadStore false w q).AllSound := by
  constructor
  · simp [Engine.spadStore, h.bad, listDrop]
  · simp [Engine.spadStore, Engine.spadClean, h.soft, listDrop]

theorem State.copied_succ : s.copied e src dst (i + 1) =
    (s.copied e src dst i).spadWrite e false (dst + i) (spadWord false ((s.copied e src dst i).eng e) (src + i)) := by
  simp only [State.copied, List.range_succ, List.foldl_append, List.foldl_cons, List.foldl_nil]

theorem State.copied_allSound (h : (s.eng e).AllSound) : ((s.copied e src dst i).eng e).AllSound := by
  induction i with
  | zero => exact h
  | succ i ih =>
    rw [State.copied_succ, State.spadWrite_eng]
    exact ih.spadStore

theorem State.copied_chans : ((s.copied e src dst i).eng e).chans = (s.eng e).chans := by
  induction i with
  | zero => rfl
  | succ i ih =>
    rw [State.copied_succ, State.spadWrite_eng]
    exact ih

/-- The channel has moved `i` words. -/
def Chan.at (c : Chan) (i : Nat) : Chan := { c with bytes := BitVec.ofNat 32 (16 * i) }

theorem State.onChan_chan : ((s.onChan e ch f).eng e).chans[ch] = f (s.eng e).chans[ch] := by
  rw [State.onChan, State.eng_onEng]
  exact Vector.getElem_set_self _

theorem Chan.bytes_at {c : Chan} (h : i ≤ 4096) : (c.at i).bytes.toNat = 16 * i := by
  show (BitVec.ofNat 32 (16 * i)).toNat = 16 * i
  rw [BitVec.toNat_ofNat]
  omega

/-- A step of a move within the data scratchpad. -/
theorem State.chanRun_step {fuel : Nat} (hbusy : (t.eng e).chans[ch].state = .busy)
    (hbytes : (t.eng e).chans[ch].bytes.toNat = 16 * i) (hi : i < n) (hs : (t.eng e).Sound (src + i)) :
    t.chanRun e ch 1 1 (16 * src) (16 * dst) (16 * n) (fuel + 1) =
      ((t.spadWrite e false (dst + i) (spadWord false (t.eng e) (src + i))).chanMoved e ch 1 []).chanRun e ch 1 1 (16 * src) (16 * dst)
        (16 * n) fuel := by
  have hburst {a b : Nat} : moveBurst 1 a b = 1 := if_neg fun h => absurd h.1 (by decide)
  have hread {role : Role} {first : Bool} : t.chanRead e ch role 1 (16 * src + 16 * i) first =
      (.words [spadWord false (t.eng e) (src + i)] [], t) := by
    rw [State.chanRead, if_pos rfl, show (16 * src + 16 * i) / 16 = src + i by omega, State.spadRead_sound hs]
    rfl
  rw [State.chanRun]
  dsimp only
  rw [hbusy, hbytes, if_neg (by decide), if_neg (by omega), hburst, State.chanReads]
  simp only [List.length_nil, Nat.mul_zero, Nat.add_zero, hread, List.foldl_nil, List.nil_append, State.chanReads]
  have hwrite {role : Role} : t.chanWrite e ch role 1 (16 * dst + 16 * i) [spadWord false (t.eng e) (src + i)] [] =
      (.done .ok 0, t.spadWrite e false (dst + i) (spadWord false (t.eng e) (src + i))) := by
    rw [State.chanWrite, if_pos (by decide), show (16 * dst + 16 * i) / 16 = dst + i by omega]
    rfl
  rw [List.isEmpty_cons, if_neg (by decide), hwrite]
  rfl

/-- The end of a move that waits for no verdict. -/
theorem State.chanRun_ends {fuel : Nat} (hbusy : (t.eng e).chans[ch].state = .busy)
    (hbytes : (t.eng e).chans[ch].bytes.toNat = 16 * n) (hl : (t.eng e).chans[ch].lines = []) :
    t.chanRun e ch 1 1 (16 * src) (16 * dst) (16 * n) (fuel + 1) = t.finishMove e ch := by
  rw [State.chanRun]
  dsimp only
  rw [hbusy, hbytes, if_neg (by decide), if_pos (le_refl _), State.moveWritten, hl]
  rfl

theorem State.chanMoved_events : OnlyEvents (t.onChan e ch fun c => { c with bytes := c.bytes + BitVec.ofNat 32 (16 * n) })
    (t.chanMoved e ch n []) := .tallyEng

theorem Chan.at_succ {c : Chan} : { c.at i with bytes := (c.at i).bytes + BitVec.ofNat 32 (16 * 1) } = c.at (i + 1) := by
  simp only [Chan.at, Chan.mk.injEq, true_and, and_true]
  rw [← BitVec.ofNat_add, show 16 * i + 16 * 1 = 16 * (i + 1) by omega]

theorem State.onChan_onChan {g : Chan → Chan} : (s.onChan e ch f).onChan e ch g = s.onChan e ch fun c => g (f c) := by
  rw [State.onChan, State.onChan, State.onEng_onEng, State.onChan]
  refine State.onEng_congr ?_
  simp

theorem State.spadWrite_onChan : (s.onChan e ch f).spadWrite e false w q = (s.spadWrite e false w q).onChan e ch f := by
  have hdrop {s : State} {g : Engine → Engine} {k : Nat} : (s.dropSyndrome k).onEng e g = (s.onEng e g).dropSyndrome k := rfl
  rw [State.spadWrite, State.onChan, State.onEng_onEng, State.spadWrite, State.onChan, hdrop, State.onEng_onEng]
  rfl

theorem copied_chan (h : OnlyEvents ((s.copied e src dst i).onChan e ch fun c => c.at i) t) :
    (t.eng e).chans[ch] = (s.eng e).chans[ch].at i := by
  rw [h.chans, State.onChan_chan, State.copied_chans]

/-- The move, from the `i`-th word on, in a state that differs by events from the one in which `i` words have been copied. -/
theorem chanRun_copies (hs : (s.eng e).AllSound) (hbusy : (s.eng e).chans[ch].state = .busy)
    (hl : (s.eng e).chans[ch].lines = []) (hn : n ≤ 4096) {k : Nat} (hik : i + k = n)
    (h : OnlyEvents ((s.copied e src dst i).onChan e ch fun c => c.at i) t) :
    OnlyEvents (((s.copied e src dst n).onChan e ch fun c => c.at n).finishMove e ch)
      (t.chanRun e ch 1 1 (16 * src) (16 * dst) (16 * n) (k + 1)) := by
  induction k generalizing i t with
  | zero =>
    obtain rfl : i = n := by omega
    have hc := copied_chan h
    rw [State.chanRun_ends (by rw [hc]; exact hbusy) (by rw [hc, Chan.bytes_at hn]) (by rw [hc]; exact hl)]
    exact h.onChan.after (g := fun en => en.edge 0 fun a => bitsOf a 2 0 == ch.val) fun a b hab => by
      rw [Engine.own_edge, Engine.own_edge, hab]
  | succ k ih =>
    have hc := copied_chan h
    have hsound : (t.eng e).Sound (src + i) := h.sound (s := (s.copied e src dst i).onChan e ch fun c => c.at i) <| by
      rw [State.onChan, State.eng_onEng]
      exact (State.copied_allSound hs).sound
    rw [State.chanRun_step (by rw [hc]; exact hbusy) (by rw [hc, Chan.bytes_at (i := i) (by omega)]) (by omega) hsound]
    refine ih (i := i + 1) (by omega) ?_
    have hword : spadWord false (t.eng e) (src + i) = spadWord false ((s.copied e src dst i).eng e) (src + i) := by
      show Sparse.read (t.eng e).dmem _ = Sparse.read _ _
      rw [h.dmem, State.onChan, State.eng_onEng]
      rfl
    rw [hword]
    have hswap : (((s.copied e src dst i).onChan e ch fun c => c.at i).spadWrite e false (dst + i)
        (spadWord false ((s.copied e src dst i).eng e) (src + i))).onChan e ch
          (fun c => { c with bytes := c.bytes + BitVec.ofNat 32 (16 * 1) }) =
        (s.copied e src dst (i + 1)).onChan e ch fun c => c.at (i + 1) := by
      rw [State.spadWrite_onChan, State.onChan_onChan, State.copied_succ]
      exact congrArg _ (funext fun c => Chan.at_succ)
    rw [← hswap]
    exact (h.spadWrite.onChan).trans State.chanMoved_events

theorem State.onEng_id : s.onEng e id = s := by
  simp [State.onEng, State.setEng, State.eng]

theorem State.onChan_same (h : f (s.eng e).chans[ch] = (s.eng e).chans[ch]) : s.onChan e ch f = s := by
  rw [State.onChan, State.onEng_congr (g := id), State.onEng_id]
  rw [h]
  simp

/-- What the end of the move leaves. -/
theorem finishMove_events (hv : (t.eng e).chans[ch].verdictWait = false) (hl : (t.eng e).chans[ch].lines = []) :
    OnlyEvents (t.onChan e ch fun c => { c with state := .idle, op := none, resp := 0, result := 0 }) (t.finishMove e ch) := by
  have hsame : { (t.eng e).chans[ch] with
      state := .idle, op := none, verdictWait := false, lines := [], resp := 0, result := 0 } =
      ({ (t.eng e).chans[ch] with state := .idle, op := none, resp := 0, result := 0 } : Chan) := by rw [← hv, ← hl]
  have hend : (t.onChan e ch fun c =>
      { c with state := .idle, op := none, verdictWait := false, lines := [], resp := 0, result := 0 }) =
      t.onChan e ch fun c => { c with state := .idle, op := none, resp := 0, result := 0 } := by
    rw [State.onChan, State.onChan]
    exact State.onEng_congr (congrArg (fun c => { t.eng e with chans := (t.eng e).chans.set ch c }) hsame)
  rw [State.finishMove, hend]
  exact .onEng fun en => Engine.own_edge en _ _

theorem execDmaDone_works (hw : s.chanWorks e ch = true) (hop : (s.eng e).chans[ch].op = some (.move 1 1 (16 * src) (16 * dst) (16 * n))) :
    execDmaDone e ch s = .next (s.chanRun e ch 1 1 (16 * src) (16 * dst) (16 * n) (n + 1)).finish := by
  rw [execDmaDone, if_pos hw, State.chanGo, hop]
  dsimp only
  rw [show 16 * n / 16 = n by omega]

/-- Settles O12: MOVE and MWAIT by the state of the channel, and a move within the data scratchpad word by word. -/
theorem blockMoves : Obligations.BlockMoves := by
  unfold Obligations.BlockMoves
  intro s e rd ra rb op32 ch
  simp only [Runs, RunsThen, Gives, GivesThen, exec]
  refine ⟨fun hc hp => ⟨fun hch hz h3 hs hd hlen hl ha hb => ⟨fun h0 => ?_, fun h0 hsrc hdst hres hidle => ?_⟩,
    fun hop => ⟨execMwait_idle hop hc hp, execMwait_busy hop hc, fun h hv hi =>
      execMwait_halted hop hc h (trapEnds_handled hv hi)⟩, execDmaClr_gives hc hp⟩, ?_⟩
  · obtain rfl := chanOf_eq hch
    exact execMove_gives (g := id) hc hp (moveFormed_of hz h3 hs hd) hlen (fun _ => rfl)
      (by rw [moveInstr_empty hl ha hb (BitVec.eq_of_toNat_eq h0), State.onEng_id])
  · obtain rfl := chanOf_eq hch
    refine execMove_gives hc hp (moveFormed_of hz h3 hs hd) hlen ?_
      (moveInstr_starts hl ha hb (fun h => h0 (congrArg BitVec.toNat h)) hsrc hdst hres (by rwa [fetched_chans]))
    exact fun _ => rfl
  · intro src dst n hbusy hop hbytes hv hl hbad hsoft hsn hdn hn hheld hpd
    have hworks : s.chanWorks e ch = true := by
      rw [State.chanWorks, hbusy, hv, hheld, hpd]
      rfl
    refine ⟨_, execDmaDone_works hworks hop, ?_⟩
    have hstart : (s.copied e src dst 0).onChan e ch (fun c => c.at 0) = s :=
      State.onChan_same (s := s) (by
        show ({ (s.eng e).chans[ch] with bytes := 0 } : Chan) = _
        rw [← hbytes])
    have hrun := chanRun_copies (i := 0) (k := n) (n := n) (src := src) (dst := dst) (t := s) ⟨hbad, hsoft⟩ hbusy hl (by omega) (by omega)
      (by rw [hstart]; exact .refl s)
    have hchan : (((s.copied e src dst n).onChan e ch fun c => c.at n).eng e).chans[ch] = (s.eng e).chans[ch].at n := by
      rw [State.onChan_chan, State.copied_chans]
    have hend := (finishMove_events (t := (s.copied e src dst n).onChan e ch fun c => c.at n)
      (by rw [hchan]; exact hv) (by rw [hchan]; exact hl)).trans hrun
    rw [State.onChan_onChan] at hend
    exact hend

end Sys2Proof.Machine
end

section
/-! SUPPORT. Events, waits and signals of engines, exactly where no performance counter of the engine counts (R83, R84, R149), and
O13. -/

namespace Sys2Proof.Machine

variable {s t u : State} {e e' : Eng} {rd ra : Gpr} {op32 : BitVec 32} {b : Fin 64} {cls : Fin 16} {f : Engine → Engine} {n v : W64}
  {ev : Nat}

/-! ### Where nothing counts -/

theorem State.tally_uncounted (h : Uncounted s e) : s.tally (unitOfEngine e) ev = s := by
  have hnone : s.countersOf (unitOfEngine e) ev = [] := by
    unfold State.countersOf
    dsimp only
    exact if_pos (.inl h)
  rw [State.tally, if_neg (by decide), State.tallyVia, hnone]
  rfl

theorem unitEn_valid : (unitFields (unitIx (unitOfEngine e)).1).en.reg.valid (unitIx (unitOfEngine e)).2 = true ∧
    (unitFields (unitIx (unitOfEngine e)).1).en.reg ∉ eccRegs ++ eventRegs := by
  revert e
  decide +kernel

theorem Uncounted.fetched (h : Uncounted s e) : Uncounted (s.fetchedWord e) e := by
  rw [Uncounted, State.fetchedWord_fld unitEn_valid.1 unitEn_valid.2]
  exact h

theorem Uncounted.events (h : Uncounted s e) (k : OnlyEvents s t) : Uncounted t e := by
  rw [Uncounted, k.fld unitEn_valid.1 fun hm => unitEn_valid.2 (List.mem_append_right _ hm)]
  exact h

theorem Uncounted.onEng (h : Uncounted s e) : Uncounted (s.onEng e' f) e := h

theorem State.retire_uncounted (h : Uncounted s e) (hp : (s.eng e).pc ≠ 0xFFF8) :
    s.retire e n = s.onEng e fun en => en.done n := by
  rw [State.retire, State.tally_uncounted h, State.advance, State.eng_onEng, if_neg (by exact hp), State.onEng_onEng]
  rfl

/-- An update of the engine, and the instruction completes. -/
theorem State.retire_onEng (h : Uncounted s e) (hp : (f (s.eng e)).pc ≠ 0xFFF8) :
    (s.onEng e f).retire e n = s.onEng e fun en => (f en).done n := by
  rw [State.retire_uncounted h.onEng (by rwa [State.eng_onEng]), State.onEng_onEng]

theorem issue_ends {body : State → State} (hc : s.canIssue e = true) (hb : body (s.fetchedWord e) = u) :
    issue e s body = .next (u.settleEnd s e) := by rw [issue, if_pos hc, hb]

theorem State.settleEnd_goesOn (h : (u.eng e).state ≠ .idle) : u.settleEnd s e = u := by
  rw [State.settleEnd, if_neg fun h' => h h'.1]

theorem issue_goesOn {body : State → State} (hc : s.canIssue e = true) (hb : body (s.fetchedWord e) = u)
    (h : (u.eng e).state ≠ .idle) : issue e s body = .next u := by rw [issue_ends hc hb, State.settleEnd_goesOn h]

theorem onEng_done_state {m : W64} : ((s.onEng e fun en => (f en).done m).eng e).state ≠ .idle := by
  rw [State.eng_onEng, Engine.done_state]
  decide

/-! ### ARM -/

theorem arm_unbind_form : armFormed (BitVec.ofNat 32 (65536 + b.val)) = true ∧ bit (BitVec.ofNat 32 (65536 + b.val)) 16 = true := by
  revert b
  decide

theorem arm_form : armFormed (BitVec.ofNat 32 (cls.val * 256 + b.val)) = true ∧
    bit (BitVec.ofNat 32 (cls.val * 256 + b.val)) 16 = false := by
  revert b cls
  decide

theorem signal_form : signalFormed (BitVec.ofNat 32 (b.val * 256 + e'.val)) = true ∧
    Fin.ofNat 16 (bitsOf (BitVec.ofNat 32 (b.val * 256 + e'.val)) 4 0) = e' ∧
    Fin.ofNat 64 (bitsOf (BitVec.ofNat 32 (b.val * 256 + e'.val)) 13 8) = b ∧
    bitsOf (BitVec.ofNat 32 (b.val * 256 + e'.val)) 4 0 ≠ 16 := by
  revert b e'
  decide +kernel

theorem signalHost_form : signalFormed (BitVec.ofNat 32 (b.val * 256 + 16)) = true ∧
    bitsOf (BitVec.ofNat 32 (b.val * 256 + 16)) 4 0 = 16 ∧ bitsOf (BitVec.ofNat 32 (b.val * 256 + 16)) 13 8 = b.val := by
  revert b
  decide +kernel

section
variable (hc : s.canIssue e = true) (hp : (s.eng e).pc ≠ 0xFFF8) (hu : Uncounted s e)
include hc hp hu

theorem execArm_unbinds (hop : op32 = BitVec.ofNat 32 (65536 + b.val)) : execArm e ra op32 s =
    .next ((s.fetchedWord e).onEng e fun en => (en.unbind b).done 2) := by
  have hbit : Fin.ofNat 64 (bitsOf op32 5 0) = b := by
    apply Fin.ext
    simp only [hop, bitsOf, BitVec.toNat_ofNat, Nat.shiftRight_zero, Fin.val_ofNat]
    omega
  have hform := hop ▸ arm_unbind_form (b := b)
  refine issue_goesOn hc ?_ onEng_done_state
  dsimp only
  rw [hbit, if_neg (by simp [hform]), if_pos hform.2]
  exact State.retire_onEng hu.fetched (by show ((s.fetchedWord e).eng e).pc ≠ _; rw [State.fetchedWord_pc]; exact hp)

theorem execArm_binds (hop : op32 = BitVec.ofNat 32 (cls.val * 256 + b.val)) (h9 : cls.val ≤ 9)
    (h6 : ¬(cls.val = 6 ∧ (s.eng e).get ra = 0)) : execArm e ra op32 s =
    .next ((((s.fetchedWord e).onEng e fun en =>
      ({ en.unbind b with bindings := (en.unbind b).bindings ++ [⟨b, cls, en.get ra⟩] } : Engine).done 2).settle).settleEnd s e) := by
  have hbit : Fin.ofNat 64 (bitsOf op32 5 0) = b := by
    apply Fin.ext
    simp only [hop, bitsOf, BitVec.toNat_ofNat, Nat.shiftRight_zero, Fin.val_ofNat]
    omega
  have hcls : Fin.ofNat 16 (bitsOf op32 11 8) = cls := by
    apply Fin.ext
    simp only [hop, bitsOf, BitVec.toNat_ofNat, Nat.shiftRight_eq_div_pow, Fin.val_ofNat]
    omega
  have hform := hop ▸ arm_form (b := b) (cls := cls)
  refine issue_ends hc ?_
  dsimp only
  rw [hbit, hcls, if_neg (by simp [hform]; omega), hform.2, if_neg (by decide)]
  rw [State.onEng_congr (g := fun en => { en.unbind b with bindings := (en.unbind b).bindings ++ [⟨b, cls, en.get ra⟩] })
    (by rw [State.fetchedWord_get, Engine.bind]; exact if_neg h6)]
  rw [State.retire_onEng hu.fetched (by show ((s.fetchedWord e).eng e).pc ≠ _; rw [State.fetchedWord_pc]; exact hp)]

/-! ### WAIT -/

/-- The bits that a WAIT under the mask in `ra` finds pending. -/
def State.found (s : State) (e : Eng) (ra : Gpr) : W64 := ((s.fetchedWord e).eng e).evpend &&& (s.eng e).get ra

theorem execWait_takes (h0 : (s.eng e).get ra ≠ 0) (hv : s.found e ra ≠ 0) : execWait e rd ra op32 s =
    .next ((((s.fetchedWord e).onEng e fun en => (({ en with evpend := en.evpend &&& ~~~s.found e ra } : Engine).put rd
      (s.found e ra)).done 2).settle).settleEnd s e) := by
  refine issue_ends hc ?_
  dsimp only
  rw [State.fetchedWord_get, if_neg h0, ← State.found, if_neg hv, State.retireWith, State.onEng_onEng]
  exact congrArg State.settle (State.retire_onEng hu.fetched (by
    rw [Engine.put_pc]
    show ((s.fetchedWord e).eng e).pc ≠ _
    rwa [State.fetchedWord_pc]))

omit hp hu in
theorem execWait_waits (h0 : (s.eng e).get ra ≠ 0) (hv : s.found e ra = 0) : execWait e rd ra op32 s =
    .next ((s.fetchedWord e).onEng e fun en =>
      { en with state := .waiting, waiting := some (.wait rd (en.get ra) (op32 != 0)) }) := by
  refine issue_goesOn hc ?_ (by rw [State.eng_onEng]; exact nofun)
  dsimp only
  rw [State.fetchedWord_get, if_neg h0, ← State.found, if_pos hv, State.waitIn]
  exact State.onEng_congr (by rw [State.fetchedWord_get])

/-! ### SIGNAL -/

omit hc hp hu in
theorem State.signalEngine_pc : ((s.signalEngine e' b v).eng e).pc = (s.eng e).pc := by
  unfold State.signalEngine
  split
  · rfl
  · by_cases he : e = e'
    · rw [he, State.eng_onEng]
      exact Engine.setBit_pc _ b
    · rw [State.eng_onEng_ne (Ne.symm he)]

omit hc hp hu in
theorem Uncounted.signalEngine (h : Uncounted s e) : Uncounted (s.signalEngine e' b v) e := by
  unfold State.signalEngine
  split
  · exact h
  · exact h.onEng

theorem execSignal_engine (hop : op32 = BitVec.ofNat 32 (b.val * 256 + e'.val)) : execSignal e ra op32 s =
    .next (((((s.fetchedWord e).signalEngine e' b ((s.eng e).get ra)).onEng e fun en => en.done 4).settle).settleEnd s e) := by
  refine issue_ends hc ?_
  dsimp only
  have hform := hop ▸ signal_form (b := b) (e' := e')
  obtain ⟨hform, ht, hb, hto⟩ := hform
  rw [if_neg (by simp [hform]), if_neg hto, ht, hb, State.fetchedWord_get, State.retire_uncounted hu.fetched.signalEngine (by
    rwa [State.signalEngine_pc, State.fetchedWord_pc])]

omit hp hu in
theorem execSignal_held (hop : op32 = BitVec.ofNat 32 (b.val * 256 + 16)) (hh : (s.eng e).hostStoreHeld = true)
    (hr : (s.eng e).state ≠ .idle) : execSignal e ra op32 s = .next (s.fetchedWord e) := by
  refine issue_goesOn hc ?_ (by rwa [s.fetchedWord_eng e (fun en => en.state) fun _ _ => rfl])
  dsimp only
  obtain ⟨hform, ht, -⟩ := hop ▸ signalHost_form (b := b)
  rw [if_neg (by simp [hform]), if_pos ht, Engine.hostStoreHeld, fetched_stores]
  exact if_pos hh

theorem execSignal_host (hop : op32 = BitVec.ofNat 32 (b.val * 256 + 16)) (hh : (s.eng e).hostStoreHeld = false) :
    execSignal e ra op32 s = .next (((((s.fetchedWord e).hostEvent 1 (BitVec.ofNat 8 e.val) (BitVec.ofNat 16 b.val)
      ((s.eng e).get ra)).onEng e fun en => en.done 4).finish).settleEnd s e) := by
  refine issue_ends hc ?_
  dsimp only
  obtain ⟨hform, ht, hb⟩ := hop ▸ signalHost_form (b := b)
  rw [if_neg (by simp [hform]), if_pos ht, Engine.hostStoreHeld, fetched_stores, if_neg (by rw [← Engine.hostStoreHeld, hh]; decide), hb,
    State.fetchedWord_get, State.retire_uncounted (hu.fetched.events .hostEvent) (by
      rwa [OnlyEvents.hostEvent.pc, State.fetchedWord_pc])]

end

theorem engDomain_lt : engDomain e < 64 := by
  revert e
  decide

theorem State.canIssue_runs (h : s.canIssue e = true) : (s.eng e).state = .running := by
  simp only [State.canIssue, Bool.and_eq_true, beq_iff_eq, and_assoc] at h
  exact h.1

/-! ### The timeout of a WAIT, and TIMER -/

theorem execWaitTimeout_ends {mask : W64} (hw : (s.eng e).waiting = some (.wait rd mask true)) (hs : (s.eng e).state = .waiting)
    (hf : (s.eng e).frozen = false) (hn : (s.eng e).nmiDue = false) (hm : (s.eng e).evpend &&& mask = 0) :
    execWaitTimeout e s = .next (s.endWait e rd 0 2).settle := by
  unfold execWaitTimeout
  simp [hw, hs, hf, hn, hm]

theorem Engine.fireTimer_fires {en : Engine} {x : Binding} (hx : x ∈ en.bindings) (hb : x.bit = b) (hc : x.cls.val = 6)
    (ha : x.arg ≠ 0) : en.fireTimer b = { en with
      evpend := en.evpend ||| (1 <<< b.val)
      bindings := en.bindings.map fun x => if x.bit = b ∧ x.cls.val = 6 then { x with arg := 0 } else x } := by
  unfold Engine.fireTimer
  refine if_pos ?_
  exact List.any_eq_true.mpr ⟨x, hx, by simp only [hb, hc, bne_iff_ne.mpr ha, beq_self_eq_true, Bool.and_self]⟩

/-- Settles O13: an event that sets a bit reaches no part of the engine that an instruction's completion reads. -/
theorem eventsOfEngines : Obligations.EventsOfEngines := by
  unfold Obligations.EventsOfEngines
  intro s e e' rd ra op32 b cls
  simp only [GivesThen, exec]
  refine ⟨fun hc hp hu => ⟨execArm_unbinds hc hp hu, execArm_binds hc hp hu, execWait_takes hc hp hu, execWait_waits hc,
    fun hop => ⟨fun hf => ?_, fun hf => ?_⟩, fun hop => ⟨fun hh => execSignal_held hc hop hh ?_, execSignal_host hc hp hu hop⟩⟩,
    fun mask hw hs hf hn hm hp => ⟨_, execWaitTimeout_ends hw hs hf hn hm, State.waited_events hp⟩, fun x hx hb hcl ha => ?_⟩
  · rw [execSignal_engine hc hp hu hop, State.signalEngine, State.fetchedWord_fenced (engDomain_lt), hf]
    rfl
  · rw [execSignal_engine hc hp hu hop, State.signalEngine, State.fetchedWord_fenced (engDomain_lt), hf]
    rfl
  · rw [State.canIssue_runs hc]
    exact nofun
  · exact congrArg (fun t : State => Host.Outcome.next t.settle) (State.onEng_congr (Engine.fireTimer_fires hx hb hcl ha))

end Sys2Proof.Machine
end

section
/-! SUPPORT. Contexts as engines command them (R35, R86, R109, R116): what holds of the state in which an answer leaves, the loader's
start, a pending activation, the check of frames, and O15. -/

namespace Sys2Proof.Machine

variable {s t u x : State} {e : Eng} {rd ra rb : Gpr} {c : Instr} {body : State → State} {n v : W64} {P : State → Prop} {f : Fld}
  {ix : List Nat} {rs : List RegName} {ch : Fin 8} {a die k len : Nat}

/-! ### What an answered instruction leaves -/

section
variable (h : OnlyEvents (u.waited e n fun en => en.put rd v) x)
include h

theorem OnlyEvents.answered_fld (hi : f.reg.valid ix = true) (hr : f.reg ∉ eventRegs) : x.fld f ix = u.fld f ix := h.fld hi hr

theorem OnlyEvents.answered_get (hrd : rd ≠ 0) : (x.eng e).get rd = v := by
  have hget : ((u.waited e n fun en => en.put rd v).eng e).get rd = ((u.eng e).put rd v).get rd := by
    rw [State.waited, State.eng_onEng]
    rfl
  rw [Engine.own_get (h.eng e), hget, Engine.get_put, if_pos ⟨rfl, hrd⟩]

theorem OnlyEvents.answered_keeps : Keeps u x rs :=
  (Keeps.of_regs (s := u) (t := u.waited e n fun en => en.put rd v) rfl rfl rfl).trans (.of_onlyEvents h)

theorem OnlyEvents.answered_chan : (x.eng e).chans[ch] = (u.eng e).chans[ch] := by
  have hown := congrArg (fun en : Engine => en.chans[ch]) (h.eng e)
  refine Eq.trans hown ?_
  show ((u.waited e n fun en => en.put rd v).eng e).chans[ch] = _
  rw [State.waited, State.eng_onEng]
  show ((u.eng e).put rd v).chans[ch] = _
  obtain ⟨gs, hgs⟩ := Engine.put_eq (en := u.eng e) (a := rd) (v := v)
  rw [hgs]

theorem OnlyEvents.answered_persona : x.persona = u.persona := by rw [h.rest]; rfl

end

theorem completes_answers (h : LapReach s e) (hx : exec c s = issue e s fun s => s.atT0 e body)
    (hb : body (s.fetchedWord e) = u.endWait e rd v n) (hu : (u.eng e).pc = ((s.fetchedWord e).eng e).pc)
    (hP : ∀ x, OnlyEvents (u.waited e n fun en => en.put rd v) x → P x) : Completes (s.afterWait e) c s P := by
  obtain ⟨x, hx, hev⟩ := exec_answers h hx hb hu
  exact ⟨x, hx, hP x hev⟩

/-! ### CTXLOAD -/

@[simp] theorem State.fetchedWord_loading : (s.fetchedWord e).persona = s.persona := by rw [State.fetchedWord_only.rest]

theorem ctxLoad_form : bitsOf (BitVec.ofNat 32 ch.val) 31 3 = 0 := by
  revert ch
  decide

/-- The loader's block answers CTXLOAD. -/
def State.ctxLoaded (e : Eng) (rd ra rb : Gpr) (ch : Fin 8) (s : State) : State :=
  if s.persona.job.isSome then s.endWait e rd 1 8
  else if (s.eng e).chans[ch].state = .busy then s
  else (s.startLoad e ch ((s.eng e).get ra).toNat ((s.eng e).get rb).toNat).2.endWait e rd 0 8

theorem exec_ctxLoad : exec (.ctxLoad e rd ra rb (BitVec.ofNat 32 ch.val)) s =
    issue e s fun s => s.atT0 e (State.ctxLoaded e rd ra rb ch) := by
  have hch : chanOf (BitVec.ofNat 32 ch.val) = ch := chanOf_eq (by revert ch; decide)
  simp only [exec, execCtxLoad, ctxLoad_form, hch, ne_eq, not_true, if_false]
  rfl

/-- The load that CTXLOAD of engine `e` starts. -/
def State.loadJob (s : State) (e : Eng) (ch : Fin 8) (a len : Nat) : Job :=
  { engine := e, ch := ch, role := (s.eng e).role, queue := (s.eng e).cmdQueue, addr := a, len := len
    deadline := s.fld F.LOAD_CTRL.DEADLINE }

/-- The loader begins it: the channel is busy and LOAD_STAT says whose load it is. -/
def State.loading (s : State) (e : Eng) (ch : Fin 8) (a len : Nat) : State :=
  (((({ s with persona := { s.persona with job := some (s.loadJob e ch a len) } } : State).onChan e ch fun _ =>
    { state := .busy, op := some .image, ctx := true }).put F.LOAD_STAT.LOADER 1).put F.LOAD_STAT.ENGINE e.val).put F.LOAD_STAT.RESULT 0

theorem State.startLoad_free (hj : s.persona.job = none) : (s.startLoad e ch a len).2 = s.loading e ch a len := by
  rw [State.startLoad, hj]
  rfl

theorem State.fetchedWord_loadJob : (s.fetchedWord e).loadJob e ch a len = s.loadJob e ch a len := by
  rw [State.loadJob, s.fetchedWord_eng e (fun en => en.role) fun _ _ => rfl, s.fetchedWord_eng e (fun en => en.cmdQueue) fun _ _ => rfl,
    State.fetchedWord_fld (by decide) (by decide), State.loadJob]

theorem State.loading_eng : (s.loading e ch a len).eng e =
    { s.eng e with chans := (s.eng e).chans.set ch { state := .busy, op := some .image, ctx := true } } := by
  unfold State.loading State.onChan
  simp only [State.eng_put, State.eng_onEng]
  rfl

theorem State.loading_loader : (s.loading e ch a len).fld F.LOAD_STAT.LOADER = 1 := by
  rw [State.loading, State.fld_put_apart (by decide) (by decide) (by decide) (by decide) (by decide),
    State.fld_put_apart (by decide) (by decide) (by decide) (by decide) (by decide), State.fld_put (by decide) (by decide)]
  rfl

theorem State.loading_engine : (s.loading e ch a len).fld F.LOAD_STAT.ENGINE = e.val := by
  rw [State.loading, State.fld_put_apart (by decide) (by decide) (by decide) (by decide) (by decide),
    State.fld_put (by decide) (by decide)]
  exact Nat.mod_eq_of_lt (Nat.lt_of_lt_of_le e.isLt (by decide))

theorem State.loading_result : (s.loading e ch a len).fld F.LOAD_STAT.RESULT = 0 := by
  rw [State.loading, State.fld_put (by decide) (by decide)]
  rfl

theorem State.loading_keeps : Keeps s (s.loading e ch a len) [.LOAD_STAT] :=
  (Keeps.of_regs (s := s) (t := ({ s with persona := { s.persona with job := some (s.loadJob e ch a len) } } : State).onChan e ch fun _ =>
    { state := .busy, op := some .image, ctx := true }) rfl rfl rfl).trans
    ((Keeps.put (by decide) (by decide)).trans ((Keeps.put (by decide) (by decide)).trans (.put (by decide) (by decide))))

section
variable (h : LapReach s e)
include h

theorem exec_ctxLoad_busy (hj : s.persona.job.isSome = true) :
    RunsThen (s.afterWait e) (.ctxLoad e rd ra rb (BitVec.ofNat 32 ch.val)) s e fun s => s.waited e 8 fun en => en.put rd 1 :=
  exec_answers h exec_ctxLoad (by rw [State.ctxLoaded, State.fetchedWord_loading, if_pos hj]) rfl

theorem exec_ctxLoad_starts (hj : s.persona.job = none) (hb : (s.eng e).chans[ch].state ≠ .busy) :
    Completes (s.afterWait e) (.ctxLoad e rd ra rb (BitVec.ofNat 32 ch.val)) s fun u =>
      u.persona.job = some (s.loadJob e ch ((s.eng e).get ra).toNat ((s.eng e).get rb).toNat) ∧ u.fld F.LOAD_STAT.LOADER = 1 ∧
        u.fld F.LOAD_STAT.RESULT = 0 ∧ u.fld F.LOAD_STAT.ENGINE = e.val ∧
        (u.eng e).chans[ch] = { state := .busy, op := some .image, ctx := true } ∧
        (rd ≠ 0 → (u.eng e).get rd = 0) ∧ Keeps (s.fetchedWord e) u [.LOAD_STAT] := by
  refine completes_answers (u := (s.fetchedWord e).loading e ch ((s.eng e).get ra).toNat ((s.eng e).get rb).toNat) (rd := rd) (v := 0)
    (n := 8) h exec_ctxLoad ?_ (by rw [State.loading_eng]) fun x hx =>
    ⟨?_, ?_, ?_, ?_, ?_, hx.answered_get, State.loading_keeps.trans hx.answered_keeps⟩
  · rw [State.ctxLoaded, State.fetchedWord_loading, hj, if_neg (by decide), fetched_chans, if_neg hb,
      State.startLoad_free (by rw [State.fetchedWord_loading, hj]), State.fetchedWord_get, State.fetchedWord_get]
  · rw [hx.answered_persona, ← State.fetchedWord_loadJob]
    rfl
  · exact (hx.answered_fld (by decide) (by decide)).trans State.loading_loader
  · exact (hx.answered_fld (by decide) (by decide)).trans State.loading_result
  · exact (hx.answered_fld (by decide) (by decide)).trans State.loading_engine
  · rw [hx.answered_chan, State.loading_eng]
    exact Vector.getElem_set_self _

end

/-! ### CTXACT -/

theorem State.fetchedWord_flag (hi : f.reg.valid ix = true) (hr : f.reg ∉ eccRegs ++ eventRegs) :
    (s.fetchedWord e).flag f ix = s.flag f ix := by rw [State.flag, State.fetchedWord_fld hi hr, State.flag]

theorem State.ctxAct_loading (hj : s.persona.job.isSome = true) : s.ctxAct e = (2, s) := by
  rw [State.ctxAct]
  exact if_pos hj

section
variable (hj : s.persona.job = none) (hp : s.persona_ ≠ 1)
include hj hp

theorem State.ctxAct_unstaged (hs : s.flag F.LOAD_STAT.STAGED = false) : s.ctxAct e = (1, s) := by
  simp [State.ctxAct, hj, hp, hs]

theorem State.ctxAct_pending (hs : s.flag F.LOAD_STAT.STAGED = true) (ha : s.flag F.LOAD_STAT.ACT_PENDING = true) :
    s.ctxAct e = (0, s) := by simp [State.ctxAct, hj, hp, hs, ha]

/-- Engine `e` asks for the activation of the staged image, which has missed its lap or not. -/
def State.actAsked (s : State) (e : Eng) (late : Bool) : State :=
  ((({ s with persona := { s.persona with
      actEngine := e, actQueue := (s.eng e).cmdQueue, actRole := (s.eng e).role } } : State).put F.LOAD_STAT.LATE (b2n late))).put
    F.LOAD_STAT.ACT_PENDING 1

theorem State.ctxAct_running (hs : s.flag F.LOAD_STAT.STAGED = true) (ha : s.flag F.LOAD_STAT.ACT_PENDING = false)
    (hr : s.lapsRun = true) : ∃ late, s.ctxAct e = (0, s.actAsked e late) := by
  unfold State.ctxAct
  rw [if_neg (by simp [hj])]
  dsimp only
  rw [if_neg hp, if_neg (by simp [hs]), if_neg (by simp [ha]), if_neg (by simp [hr])]
  exact ⟨_, rfl⟩

end

theorem State.actAsked_pending {late : Bool} : (s.actAsked e late).flag F.LOAD_STAT.ACT_PENDING = true := by
  rw [State.actAsked]
  exact State.flag_put_one (by decide) (by decide)

theorem State.actAsked_keeps {late : Bool} : Keeps s (s.actAsked e late) [.LOAD_STAT] :=
  (Keeps.of_regs (s := s) (t := ({ s with persona := { s.persona with
    actEngine := e, actQueue := (s.eng e).cmdQueue, actRole := (s.eng e).role } } : State)) rfl rfl rfl).trans
    ((Keeps.put (by decide) (by decide)).trans (.put (by decide) (by decide)))

section
variable (h : LapReach s e)
include h

theorem exec_ctxAct {code : Nat} (ha : (s.fetchedWord e).ctxAct e = (code, s.fetchedWord e)) :
    RunsThen (s.afterWait e) (.ctxAct e rd) s e fun s => s.waited e 8 fun en => en.put rd (codeOf code) :=
  exec_answers h rfl (by simp only [ha]) rfl

theorem exec_ctxAct_running (hj : s.persona.job = none) (hp : s.persona_ ≠ 1) (hs : s.flag F.LOAD_STAT.STAGED = true)
    (ha : s.flag F.LOAD_STAT.ACT_PENDING = false) (hr : s.lapsRun = true) :
    Completes (s.afterWait e) (.ctxAct e rd) s fun u =>
      u.flag F.LOAD_STAT.ACT_PENDING = true ∧ (rd ≠ 0 → (u.eng e).get rd = 0) ∧ u.persona.actEngine = e ∧
        Keeps (s.fetchedWord e) u [.LOAD_STAT] := by
  obtain ⟨late, hact⟩ := State.ctxAct_running (s := s.fetchedWord e) (e := e) (by simpa using hj) (by simpa using hp)
    ((State.fetchedWord_flag (by decide) (by decide)).trans hs) ((State.fetchedWord_flag (by decide) (by decide)).trans ha)
    (by simpa using hr)
  refine completes_answers (u := (s.fetchedWord e).actAsked e late) (rd := rd) (v := 0) (n := 8) h rfl ?_ rfl fun x hx =>
    ⟨?_, hx.answered_get, ?_, State.actAsked_keeps.trans hx.answered_keeps⟩
  · simp only [hact]
    rfl
  · rw [State.flag, hx.answered_fld (by decide) (by decide)]
    exact State.actAsked_pending
  · rw [hx.answered_persona]
    rfl

end

/-! ### CTXCHK -/

theorem State.fetchedWord_invalidIn : (s.fetchedWord e).invalidIn die k = s.invalidIn die k := by
  simp only [State.invalidIn, State.frameWord, State.slotOf, State.fetchedWord_fab]

section
variable {base i j : Nat}

/-- One frame after another. The equation compiler does not derive this: it unfolds the 1,024 halves of a frame on the way, which
are generalised away here. -/
theorem State.firstInvalid_succ : s.firstInvalid die k base (len + 1) =
    (s.invalidIn die k).elim (s.firstInvalid die (k + 1) (base + 1) len) fun i => some (base * 1024 + i) := by
  delta State.firstInvalid State.firstInvalid._f
  dsimp only
  generalize s.invalidIn die = f
  cases f k <;> rfl

theorem State.firstInvalid_next (h : s.invalidIn die k = none) :
    s.firstInvalid die k base (len + 1) = s.firstInvalid die (k + 1) (base + 1) len := by
  rw [State.firstInvalid_succ, h, Option.elim_none]

theorem State.firstInvalid_here (h : s.invalidIn die k = some i) : s.firstInvalid die k base (len + 1) = some (base * 1024 + i) := by
  rw [State.firstInvalid_succ, h, Option.elim_some]

theorem State.firstInvalid_none (h : ∀ j < len, s.invalidIn die (k + j) = none) : s.firstInvalid die k base len = none := by
  induction len generalizing k base with
  | zero => rfl
  | succ len ih =>
    rw [State.firstInvalid_next (k := k) (h 0 (Nat.succ_pos len))]
    exact ih fun j hj => (Nat.add_assoc k 1 j).symm ▸ Nat.add_comm 1 j ▸ h (j + 1) (Nat.succ_lt_succ hj)

theorem State.firstInvalid_some (hj : j < len) (hi : s.invalidIn die (k + j) = some i)
    (hb : ∀ m < j, s.invalidIn die (k + m) = none) : s.firstInvalid die k base len = some ((base + j) * 1024 + i) := by
  induction j generalizing len k base with
  | zero =>
    obtain ⟨len, rfl⟩ := Nat.exists_eq_succ_of_ne_zero (Nat.ne_of_gt hj)
    exact State.firstInvalid_here hi
  | succ j ih =>
    obtain ⟨len, rfl⟩ := Nat.exists_eq_succ_of_ne_zero (Nat.ne_of_gt (Nat.lt_trans (Nat.succ_pos j) hj))
    have hshift (m : Nat) : k + 1 + m = k + (m + 1) := by omega
    rw [State.firstInvalid_next (k := k) (hb 0 (Nat.succ_pos j)), ih (Nat.lt_of_succ_lt_succ hj) (by rw [hshift]; exact hi)
      fun m hm => by rw [hshift]; exact hb (m + 1) (Nat.succ_lt_succ hm)]
    rw [Nat.add_assoc, Nat.add_comm 1 j]

end

/-- A frame slot's base, whose die answers: its configuration domain is on, and neither its layer nor its tower is in reset. -/
structure FrameReach (s : State) (a : Nat) : Prop where
  base : isSlotBase a = true
  layer : s.layerHeld ((a - 0x010000000000) / 0x100000000 / 2) (if (a - 0x010000000000) / 0x100000000 % 2 = 0 then 2 else 5) = false
  on : s.fenced (pdCfg ((a - 0x010000000000) / 0x100000000)) = false

theorem frameDie_lt (h : isSlotBase a = true) : spaceOf a = .frame ∧ (a - 0x010000000000) / 0x100000000 < 8 := by
  simp only [isSlotBase, Bool.and_eq_true, beq_iff_eq, and_assoc] at h
  obtain ⟨hs, -⟩ := h
  refine ⟨hs, ?_⟩
  unfold spaceOf at hs
  split at hs
  · cases hs
  · split at hs
    · omega
    · split at hs <;> grind

theorem frameEnd_dom (h : die < 8) : ((endpointNo (die / 2) (13 + die % 2)).getD ⟨0, 0, 0, 0⟩).dom = pdCfg die ∧
    ((endpointNo (die / 2) (13 + die % 2)).getD ⟨0, 0, 0, 0⟩).isMemLayer = false := by
  revert die
  decide

theorem FrameReach.open (h : FrameReach s a) {rq : Rq} : s.targetOff rq a = false := by
  obtain ⟨hs, hd⟩ := frameDie_lt h.base
  obtain ⟨hdom, hlayer⟩ := frameEnd_dom hd
  have hdomain : addrDomain rq a = pdCfg ((a - 0x010000000000) / 0x100000000) := by
    unfold addrDomain
    rw [hs]
    rfl
  have hport : portOf rq a = (endpointNo ((a - 0x010000000000) / 0x100000000 / 2) (13 + (a - 0x010000000000) / 0x100000000 % 2)).getD
      ⟨0, 0, 0, 0⟩ := by
    unfold portOf endpointOf
    rw [hs]
  rw [State.targetOff, hdomain, hport, State.portOff, hlayer, hdom, h.on, if_neg (by decide), State.portFenced, hdom, h.on]
  simp

theorem FrameReach.unheld (h : FrameReach s a) : s.targetHeld a = false := by
  unfold State.targetHeld
  rw [(frameDie_lt h.base).1]
  exact h.layer

theorem FrameReach.fetched (h : FrameReach s a) : FrameReach (s.fetchedWord e) a where
  base := h.base
  layer := by
    rw [State.layerHeld, State.fetchedWord_ref]
    exact h.layer
  on := by
    rw [State.fetchedWord_fenced (by have := (frameDie_lt h.base).2; simp only [pdCfg]; omega)]
    exact h.on

/-- CTXCHK's answer. -/
def checkAnswer (i : Option Nat) : W64 := (i.map fun i => BitVec.ofNat 64 i).getD (-1)

theorem State.ctxChk_eq : s.ctxChk e rd a len = s.retireWith e rd
    (checkAnswer (s.firstInvalid ((a - 0x010000000000) / 0x100000000) (frameNumber a) 0 len)) (8 + 520 * BitVec.ofNat 64 len) := by
  unfold State.ctxChk
  dsimp only [frameBase]
  cases s.firstInvalid ((a - 0x010000000000) / 0x100000000) (frameNumber a) 0 len <;> rfl

theorem State.fetchedWord_firstInvalid {base : Nat} :
    (s.fetchedWord e).firstInvalid die k base len = s.firstInvalid die k base len := by
  induction len generalizing k base with
  | zero => rfl
  | succ len ih => rw [State.firstInvalid_succ, State.firstInvalid_succ, State.fetchedWord_invalidIn, ih]

theorem checkAnswer_none : checkAnswer none = -1 := by rw [checkAnswer, Option.map_none, Option.getD_none]

theorem checkAnswer_some {i : Nat} : checkAnswer (some i) = BitVec.ofNat 64 i := by
  rw [checkAnswer, Option.map_some, Option.getD_some]

theorem execCtxChk_answers (hc : s.canIssue e = true) (h : FrameReach s a) (ha : ((s.eng e).get ra).toNat = a)
    (hlen : ((s.eng e).get rb).toNat = len) (hle : frameNumber a + len ≤ 149760)
    (hi : checkAnswer (s.firstInvalid ((a - 0x010000000000) / 0x100000000) (frameNumber a) 0 len) = v) :
    execCtxChk e rd ra rb s =
      .next ((((s.fetchedWord e).retireWith e rd v (8 + 520 * BitVec.ofNat 64 len)).finish).settleEnd s e) := by
  refine issue_ends (u := State.finish _) hc ?_
  dsimp only [frameBase]
  simp only [State.fetchedWord_get, ha, hlen]
  rw [if_neg (by simp [h.base]), if_neg (by omega), if_neg (by rw [State.layerHeld, State.fetchedWord_ref, ← State.layerHeld, h.layer]; decide),
    State.atBlock, h.fetched.open, h.fetched.unheld, if_neg (by decide), if_neg (by decide), State.ctxChk_eq,
    State.fetchedWord_firstInvalid, hi]

/-- Settles O15: the laws above, one for each instruction and result. -/
theorem contextInstructions : Obligations.ContextInstructions := by
  unfold Obligations.ContextInstructions
  intro s e rd ra rb ch hc hp
  simp only [RunsThen, GivesThen]
  refine ⟨fun hf hh => ?_, fun hb hle hl hf hh => ?_⟩
  · have h : LapReach s e := ⟨hc, hp, hf, hh⟩
    exact ⟨fun hj => ⟨exec_ctxLoad_busy h hj, exec_ctxAct h (State.ctxAct_loading (by simpa using hj))⟩,
      fun hj hb => exec_ctxLoad_starts h hj hb,
      fun hj hp hs => exec_ctxAct h (State.ctxAct_unstaged (by simpa using hj) (by simpa using hp)
        ((State.fetchedWord_flag (by decide) (by decide)).trans hs)),
      fun hj hp hs ha => exec_ctxAct h (State.ctxAct_pending (by simpa using hj) (by simpa using hp)
        ((State.fetchedWord_flag (by decide) (by decide)).trans hs) ((State.fetchedWord_flag (by decide) (by decide)).trans ha)),
      fun hj hp hs ha hr => exec_ctxAct_running h hj hp hs ha hr⟩
  · have h : FrameReach s ((s.eng e).get ra).toNat := ⟨hb, hl, hf⟩
    have hev {v n : W64} : OnlyEvents _ _ :=
      State.retireWith_events (s := s.fetchedWord e) (e := e) (rd := rd) (v := v) (n := n) (by rwa [State.fetchedWord_pc])
    refine ⟨fun hall => ⟨_, execCtxChk_answers hc h rfl rfl hle ?_, hev⟩, fun k i hk hi hbefore =>
      ⟨_, execCtxChk_answers hc h rfl rfl hle ?_, hev⟩⟩
    · rw [State.firstInvalid_none hall, checkAnswer_none]
    · rw [State.firstInvalid_some hk hi hbefore, Nat.zero_add, checkAnswer_some]

end Sys2Proof.Machine
end

section
/-! SUPPORT. Fences, special registers and microcode commands of engines (R87, R88, R93, R94, R99), and O16. -/

namespace Sys2Proof.Machine

variable {s t u : State} {e : Eng} {rd ra : Gpr} {op32 : BitVec 32} {v w x : W64} {n : Nat} {f : Engine → Engine}

/-! ### What a fetch leaves of the engine -/

theorem fetched_fenceOpen {m d : Bool} : ((s.fetchedWord e).eng e).fenceOpen m d = (s.eng e).fenceOpen m d := by
  rw [Engine.fenceOpen, fetched_stores, fetched_chans, Engine.fenceOpen]

/-! ### FENCE and HALT -/

theorem fence_formed (hop : op32.toNat < 16) : bitsOf op32 31 4 = 0 := by
  simp only [bitsOf, Nat.shiftRight_eq_div_pow]
  omega

section
variable (hc : s.canIssue e = true)
include hc

theorem execFence_waits (hop : op32.toNat < 16) (ho : (s.eng e).fenceOpen (op32.getLsbD 0) (op32.getLsbD 1) = true) :
    execFence e op32 s = .next ((s.fetchedWord e).onEng e fun en =>
      { en with state := .waiting, waiting := some (.fence (op32.getLsbD 0) (op32.getLsbD 1) (op32.getLsbD 2)) }) := by
  refine issue_goesOn hc ?_ (by rw [State.eng_onEng]; exact nofun)
  rw [if_neg (by simp [fence_formed hop]), fetched_fenceOpen]
  exact if_pos ho

theorem execFence_goesOn (hp : (s.eng e).pc ≠ 0xFFF8) (hop : op32.toNat < 16)
    (ho : (s.eng e).fenceOpen (op32.getLsbD 0) (op32.getLsbD 1) = false) :
    ∃ u, execFence e op32 s = .next u ∧ OnlyEvents ((s.fetchedWord e).onEng e fun en =>
      (if op32.getLsbD 2 then { en with code := en.imem } else en).done 1) u := by
  have hpc {en : Engine} : (if bit op32 2 then en.refetch else en).pc = en.pc := by split <;> rfl
  obtain ⟨u, hu, hev⟩ := issue_completes (f := fun en => if bit op32 2 then en.refetch else en) (g := id)
    (body := fun s => if bitsOf op32 31 4 ≠ 0 then s.illegalX e 0x71 0 0 0 op32
      else if (s.eng e).fenceOpen (bit op32 0) (bit op32 1) then s.waitIn e (.fence (bit op32 0) (bit op32 1) (bit op32 2))
      else (s.onEng e fun en => if bit op32 2 then en.refetch else en).retire e 1) (cycles := 1) hc
    (by
      rw [if_neg (by simp [fence_formed hop]), fetched_fenceOpen, if_neg (by rw [bit, bit, ho]; decide)]
      rfl)
    (by rw [hpc, id, State.fetchedWord_pc]; exact hp)
  exact ⟨u, hu, hev⟩

theorem execHalt_waits (ho : (s.eng e).fenceOpen true true = true) :
    execHalt e ra s = .next ((s.fetchedWord e).onEng e fun en =>
      { en with state := .waiting, waiting := some (.halt (((s.eng e).get ra).setWidth 16)) }) := by
  refine issue_goesOn hc ?_ (by rw [State.eng_onEng]; exact nofun)
  dsimp only
  rw [fetched_fenceOpen, if_pos ho, State.fetchedWord_get]
  rfl

end

/-! ### SRR and SRW -/

theorem execSrr_reads (hc : s.canIssue e = true) (hp : (s.eng e).pc ≠ 0xFFF8)
    (hv : (s.fetchedWord e).special e (bitsOf op32 11 0) = some v) : ∃ u, execSrr e rd op32 s = .next u ∧
      OnlyEvents ((s.fetchedWord e).onEng e fun en => (en.put rd v).done 2) u := by
  refine issue_retireWith hc ?_ hp
  rw [hv]

theorem State.srw_accepted (hs : (s.special e n).isSome = true) (hr : srwRight n (s.eng e).role = true) :
    s.srw e n v w = ((s.writeSpecial e n v).retire e 2).settle := by
  rw [State.srw, if_neg (by rw [Option.isNone_iff_eq_none, ← Option.not_isSome_iff_eq_none, hs]; decide), if_neg (by simp [hr])]

theorem Engine.writeSpecial_pc {en : Engine} : (en.writeSpecial n v).pc = en.pc := by
  unfold Engine.writeSpecial
  split <;> first | rfl | (split <;> rfl)

theorem State.recordWrite_eng {rq : Rq} {a : Nat} {old new : W64} : (s.recordWrite rq a old new).eng e = s.eng e := rfl

/-- A special register of the engine whose writes are not recorded. -/
theorem State.writeSpecial_plain (hn : n ≠ 0x031) (hrec : srwRecorded n = false) :
    s.writeSpecial e n v = s.onEng e fun en => en.writeSpecial n v := by
  unfold State.writeSpecial
  simp only [hrec, Bool.false_eq_true, if_false, if_neg hn]

/-- One whose writes are. -/
theorem State.writeSpecial_recorded (hn : n ≠ 0x031) (hrec : srwRecorded n = true) :
    s.writeSpecial e n v = (s.onEng e fun en => en.writeSpecial n v).recordWrite (engRq e) (specialAddr e n)
      ((s.special e n).getD 0) (((s.onEng e fun en => en.writeSpecial n v).special e n).getD 0) := by
  unfold State.writeSpecial
  simp only [hrec, if_true, if_neg hn]

theorem State.writeSpecial_mcCtrl : s.writeSpecial e 0x031 v = (s.writeMcCtrl v).recordWrite (engRq e) (specialAddr e 0x031)
    (BitVec.ofNat 64 (b2n s.mc.swapPending)) (BitVec.ofNat 64 (b2n (s.writeMcCtrl v).mc.swapPending)) := rfl

section
variable (hc : s.canIssue e = true) (hn : bitsOf op32 11 0 = n) (hs : ((s.fetchedWord e).special e n).isSome = true)
  (hr : srwRight n (s.eng e).role = true)
include hc hn hs hr

theorem execSrw_ends : execSrw e ra op32 s =
    .next (((((s.fetchedWord e).writeSpecial e n ((s.eng e).get ra)).retire e 2).settle).settleEnd s e) := by
  refine issue_ends hc ?_
  rw [hn, State.srw_accepted hs (by rwa [fetched_role]), State.fetchedWord_get]

theorem execSrw_plain (hp : (s.eng e).pc ≠ 0xFFF8) (h31 : n ≠ 0x031) (hrec : srwRecorded n = false) :
    ∃ u, execSrw e ra op32 s = .next (u.settle.settleEnd s e) ∧ OnlyEvents ((s.fetchedWord e).onEng e fun en =>
      (en.writeSpecial n ((s.eng e).get ra)).done 2) u := by
  refine ⟨_, execSrw_ends hc hn hs hr, ?_⟩
  rw [State.writeSpecial_plain h31 hrec]
  exact State.retire_after (by rw [Engine.writeSpecial_pc, State.fetchedWord_pc]; exact hp)

theorem execSrw_recorded {old new : W64} (hp : (s.eng e).pc ≠ 0xFFF8) (h31 : n ≠ 0x031) (hrec : srwRecorded n = true)
    (hold : (s.fetchedWord e).special e n = some old)
    (hnew : ((s.fetchedWord e).onEng e fun en => en.writeSpecial n ((s.eng e).get ra)).special e n = some new) :
    ∃ u, execSrw e ra op32 s = .next (u.settle.settleEnd s e) ∧
      OnlyEvents ((((s.fetchedWord e).onEng e fun en => en.writeSpecial n ((s.eng e).get ra)).recordWrite (engRq e) (specialAddr e n)
        old new).onEng e fun en => en.done 2) u := by
  refine ⟨_, execSrw_ends hc hn hs hr, ?_⟩
  rw [State.writeSpecial_recorded h31 hrec, hold, hnew, Option.getD_some, Option.getD_some]
  refine State.retire_events ?_
  rw [State.recordWrite_eng, State.eng_onEng, Engine.writeSpecial_pc, State.fetchedWord_pc]
  exact hp

end

theorem execSrw_evpend (hc : s.canIssue e = true) (hp : (s.eng e).pc ≠ 0xFFF8) (hn : bitsOf op32 11 0 = 0x010)
    (hu : Uncounted s e) : execSrw e ra op32 s = .next ((((s.fetchedWord e).onEng e fun en =>
      ({ en with evpend := en.evpend &&& ~~~(s.eng e).get ra } : Engine).done 2).settle).settleEnd s e) := by
  rw [execSrw_ends hc hn rfl rfl, State.writeSpecial_plain (by decide) (by decide), State.retire_onEng hu.fetched]
  · rfl
  · rw [Engine.writeSpecial_pc, State.fetchedWord_pc]
    exact hp

/-! ### The microcode commands (R99) -/

section
variable (hs : s.mc.swapPending = false)
include hs

theorem State.requestSwap_refused (ho : (if s.mc.active then s.mc.aValid else s.mc.bValid) = false) :
    s.requestSwap = { s with mc := { s.mc with refused := true } } := by
  rw [State.requestSwap, hs, ho]
  rfl

section
variable (ho : (if s.mc.active then s.mc.aValid else s.mc.bValid) = true)
include ho

theorem State.requestSwap_waits (hr : s.lapsRun = true) :
    s.requestSwap = { s with mc := { s.mc with swapPending := true } } := by
  rw [State.requestSwap, hs, ho, hr]
  rfl

theorem State.requestSwap_swaps (hr : s.lapsRun = false) : s.requestSwap = s.mcSwap := by
  rw [State.requestSwap, hs, ho, hr]
  rfl

end

end

theorem State.requestSwap_pending (hs : s.mc.swapPending = true) : s.requestSwap = s := by rw [State.requestSwap, if_pos hs]

/-- The installer's write of MC_CTRL that makes `t` of the state after the fetch. -/
theorem mcCtrl_gives (hc : s.canIssue e = true) (hp : (s.eng e).pc ≠ 0xFFF8) (hr : (s.eng e).role = .installer)
    (ht : (s.fetchedWord e).writeMcCtrl v = t) (he : t.engines = (s.fetchedWord e).engines) :
    ∃ u, issue e s (fun s => s.srw e 0x031 v 0) = .next (u.settle.settleEnd s e) ∧
      OnlyEvents ((t.recordWrite (engRq e) (specialAddr e 0x031) (BitVec.ofNat 64 (b2n s.mc.swapPending))
        (BitVec.ofNat 64 (b2n t.mc.swapPending))).onEng e fun en => en.done 2) u := by
  refine ⟨_, issue_ends hc (State.srw_accepted rfl (by rw [fetched_role, hr]; rfl)), ?_⟩
  rw [State.writeSpecial_mcCtrl, ht, State.fetchedWord_mc]
  refine State.retire_events ?_
  rw [State.recordWrite_eng, State.eng, he, ← State.eng, State.fetchedWord_pc]
  exact hp

theorem swap_gives (hc : s.canIssue e = true) (hp : (s.eng e).pc ≠ 0xFFF8) (hr : (s.eng e).role = .installer)
    (ht : (s.fetchedWord e).requestSwap = t) (he : t.engines = (s.fetchedWord e).engines) :
    ∃ u, execSwap e s = .next (u.settle.settleEnd s e) ∧
      OnlyEvents ((t.recordWrite (engRq e) (specialAddr e 0x031) (BitVec.ofNat 64 (b2n s.mc.swapPending))
        (BitVec.ofNat 64 (b2n t.mc.swapPending))).onEng e fun en => en.done 2) u := mcCtrl_gives hc hp hr ht he

/-! ### TELL -/

theorem execTell_waits (hc : s.canIssue e = true) (hop : op32.toNat < 65536) : execTell e rd ra op32 s =
    .next (((((s.fetchedWord e).onEng e fun en => { en with state := .waiting, waiting := some (.tell rd) }).takeOp (.tell e)
      op32.toNat 0 ((s.eng e).get ra) []).finish).settleEnd s e) := by
  have hform : bitsOf op32 31 16 = 0 ∧ bitsOf op32 15 0 = op32.toNat := by
    simp only [bitsOf, Nat.shiftRight_eq_div_pow]
    omega
  refine issue_ends hc ?_
  dsimp only
  rw [if_neg (by simp [hform]), hform.2, State.fetchedWord_get]
  rfl

theorem fetched_wdog : ((s.fetchedWord e).eng e).wdog = (s.eng e).wdog := s.fetchedWord_eng e _ fun _ _ => rfl
theorem fetched_tvec : ((s.fetchedWord e).eng e).tvec = (s.eng e).tvec := s.fetchedWord_eng e _ fun _ _ => rfl

theorem State.special_wdog : s.special e 0x018 = some ((s.eng e).wdog.setWidth 64) := rfl
theorem State.special_tvec : s.special e 0x00B = some (s.eng e).tvec := rfl

/-- Settles O16: the laws above. -/
theorem systemInstructions : Obligations.SystemInstructions := by
  unfold Obligations.SystemInstructions
  simp only [RunsThen, GivesThen, Runs, Gives, exec]
  refine ⟨fun s e rd ra op32 v hc hp => ⟨fun hop => ⟨execFence_goesOn hc hp hop, execFence_waits hc hop⟩, execHalt_waits hc,
    execSrr_reads hc hp, fun hn => execSrw_plain hc hn rfl rfl hp (by decide) rfl,
    fun hn => execSrw_plain hc hn rfl rfl hp (by decide) rfl, fun hn => execSrw_plain hc hn rfl rfl hp (by decide) rfl,
    fun hn => execSrw_plain hc hn rfl rfl hp (by decide) rfl, fun hn hu => execSrw_evpend hc hp hn hu, fun hn hr => ?_, fun hn hr => ?_,
    execTell_waits hc⟩, fun s e hc hp hr => ⟨fun hs => ?_, fun hs ho => ?_, fun hs ho hl => ?_, fun hs ho hl => ?_, ?_⟩⟩
  · rw [hn]
    refine execSrw_recorded hc hn rfl (by rw [hr]; rfl) hp (by decide) rfl ?_ ?_
    · rw [State.special_wdog, fetched_wdog]
    · rw [State.special_wdog, State.eng_onEng]
      rfl
  · rw [hn]
    refine execSrw_recorded hc hn rfl ?_ hp (by decide) rfl ?_ ?_
    · exact bne_iff_ne.mpr hr
    · rw [State.special_tvec, fetched_tvec]
    · rw [State.special_tvec, State.eng_onEng, ← fetched_tvec]
      rfl
  · exact swap_gives hc hp hr (State.requestSwap_pending (by rwa [State.fetchedWord_mc])) rfl
  · exact swap_gives hc hp hr (State.requestSwap_refused (by rwa [State.fetchedWord_mc]) (by rwa [State.fetchedWord_mc])) rfl
  · exact swap_gives hc hp hr (State.requestSwap_waits (by rwa [State.fetchedWord_mc]) (by rwa [State.fetchedWord_mc])
      (by rwa [State.fetchedWord_lapsRun])) rfl
  · exact swap_gives hc hp hr (State.requestSwap_swaps (by rwa [State.fetchedWord_mc]) (by rwa [State.fetchedWord_mc])
      (by rwa [State.fetchedWord_lapsRun])) rfl
  · exact mcCtrl_gives hc hp hr rfl rfl

end Sys2Proof.Machine
end

section
/-! SUPPORT. Queue instructions of engines (R184, R188, R189, R205): the queue manager as their target, what a fetch leaves of a
queue, and O17. -/

namespace Sys2Proof.Machine

variable {s t u x : State} {e : Eng} {rd ra rb : Gpr} {c : Instr} {body : State → State} {op32 : BitVec 32} {n v : W64}
  {q k w reader : Nat} {a : Nat} {f : Fld} {role : Role}

/-! ### The queue manager -/

section
variable (hf : s.fenced (pdNE 0) = false) (hh : s.towerHeld 0 = false) (hq : q < 8192)
include hq in
theorem spaceOf_queue : spaceOf (doorbellBase + q * 0x1000) = .doorbell := by
  unfold spaceOf doorbellBase
  grind

include hf hq in
theorem State.queue_on : s.targetOff (engRq e) (doorbellBase + q * 0x1000) = false := by
  have hspace := spaceOf_queue hq
  have hport : portOf (engRq e) (doorbellBase + q * 0x1000) = ⟨0, routerNo 0 3, 0, pdNE 0⟩ := by
    unfold portOf endpointOf
    rw [hspace]
  have hdom : addrDomain (engRq e) (doorbellBase + q * 0x1000) = pdNE 0 := by
    unfold addrDomain regDomain
    rw [hspace]
    rfl
  rw [State.targetOff, hport, hdom, State.portOff, if_neg (by decide), State.portFenced, hf]
  rfl

include hf hh hq in
theorem State.atQueue_served : s.atQueue e q body = (body s).finish := by
  have hspace := spaceOf_queue hq
  have hheld : s.targetHeld (doorbellBase + q * 0x1000) = false := by
    have hreg : regDomain (doorbellBase + q * 0x1000) = pdNE 0 ∧ regTower (doorbellBase + q * 0x1000) = 0 ∧
        isMemLayer (doorbellBase + q * 0x1000) = false := by
      simp [regDomain, regTower, isMemLayer, hspace]
    unfold State.targetHeld
    rw [hspace]
    dsimp only
    rw [hreg.1, hreg.2.1, hreg.2.2, if_neg (by decide), hh]
    rfl
  rw [State.atQueue, State.atBlock, if_neg (by rw [State.queue_on hf hq]; decide), if_neg (by rw [hheld]; decide)]

end

theorem issue_answers (hc : s.canIssue e = true) (hp : (s.eng e).pc ≠ 0xFFF8)
    (hb : body (s.fetchedWord e) = (u.endWait e rd v n).finish) (hu : (u.eng e).pc = ((s.fetchedWord e).eng e).pc) :
    ∃ x, issue e s body = .next (s.afterWait e x) ∧ OnlyEvents (u.waited e n fun en => en.put rd v) x := by
  refine ⟨u.spend.retireWith e rd v (u.cyclesWith n), ?_, State.waited_events (by rw [hu, State.fetchedWord_pc]; exact hp)⟩
  rw [issue_ends hc hb]
  rfl

/-! ### What a fetch leaves of a queue -/

section
variable (hq : q < 8192)
include hq

theorem bind_valid : RegName.Q_BIND.valid [q] = true := by simp [RegName.valid, RegName.place, ixValid, hq]

theorem level_valid : RegName.Q_LEVEL.valid [q] = true := by simp [RegName.valid, RegName.place, ixValid, hq]

theorem State.fetchedWord_bind (hf : f.reg = .Q_BIND) : (s.fetchedWord e).fld f [q] = s.fld f [q] :=
  State.fetchedWord_fld (by rw [hf]; exact bind_valid hq) (by rw [hf]; decide)

theorem State.fetchedWord_producer : (s.fetchedWord e).producer q = s.producer q := by
  rw [State.producer, State.qValid, State.flag, State.fetchedWord_bind hq rfl, State.fetchedWord_bind hq rfl,
    State.fetchedWord_bind hq rfl, State.producer, State.qValid, State.flag]

theorem State.fetchedWord_consumer : (s.fetchedWord e).consumer q = s.consumer q := by
  rw [State.consumer, State.qValid, State.flag, State.fetchedWord_bind hq rfl, State.fetchedWord_bind hq rfl,
    State.fetchedWord_bind hq rfl, State.consumer, State.qValid, State.flag]

theorem State.fetchedWord_credits : (s.fetchedWord e).credits q = s.credits q :=
  State.fetchedWord_fld (queue_valid hq).1 (by decide)

theorem State.fetchedWord_faulted : (s.fetchedWord e).flag F.Q_STAT.FAULTED [q] = s.flag F.Q_STAT.FAULTED [q] :=
  State.fetchedWord_flag (queue_valid hq).1 (by decide)

omit hq in
theorem State.fetchedWord_headCell : (s.fetchedWord e).headCell q = s.headCell q := by
  rw [State.headCell, State.items_congr SameBanks.fetchedWord (State.slots_of_qitems State.fetchedWord_qitems), State.headCell]

theorem State.fetchedWord_grantSize : (s.fetchedWord e).grantSize q k = s.grantSize q k := by
  have hbank {f : Fld} (hf : f.reg = .POOL_BANK) {i : Nat} (hi : i < 64) : (s.fetchedWord e).fld f [i] = s.fld f [i] :=
    State.fetchedWord_fld (by rw [hf]; simp [RegName.valid, RegName.place, ixValid, hi]) (by rw [hf]; decide)
  have hbanks : (s.fetchedWord e).poolBanks = s.poolBanks := by
    unfold State.poolBanks State.banksOf
    rw [List.filter_congr (q := s.poolEn) fun i hi => by
      rw [State.poolEn, State.flag, hbank rfl (List.mem_range.mp hi), State.poolEn, State.flag]]
    refine congrArg List.eraseDups (List.map_congr_left fun i hi => ?_)
    exact hbank rfl (List.mem_range.mp (List.mem_of_mem_filter hi))
  have hused : (s.fetchedWord e).poolUsed = s.poolUsed := by
    funext b
    rw [State.poolUsed, State.cellsUsed, State.fetchedWord_qitems, State.poolUsed, State.cellsUsed]
  have hfree : (s.fetchedWord e).poolFree = s.poolFree := by
    rw [State.poolFree, State.poolEmpty, State.emptyCells, hbanks, hused, State.fetchedWord_poolReserved, State.poolFree,
      State.poolEmpty, State.emptyCells]
  rw [State.grantSize, State.fetchedWord_faulted hq, State.fetchedWord_fld (level_valid hq) (by decide), State.qCount,
    State.slots_of_qitems State.fetchedWord_qitems, State.fetchedWord_credits hq, hfree, State.grantSize, State.qCount]

end

/-! ### What queue operations leave of the engine -/

theorem State.readWords_eng {m : Nat} : (s.readWords reader a m).2.eng e = s.eng e := by
  have hread {s : State} {a : Nat} : (s.memRead a reader).2.eng e = s.eng e := by
    unfold State.memRead State.bankError
    dsimp only
    split
    · rw [State.eng, State.eccError_engines]
      split <;> rfl
    · split
      · rw [State.eng, State.eccError_engines]
        split <;> rfl
      · rfl
  induction m generalizing s a with
  | zero => rfl
  | succ m ih => exact ih.trans hread

theorem State.readCell_eng {i : Nat} : (s.readCell q i).eng e = s.eng e := by
  unfold State.readCell
  split
  · rfl
  · exact State.readWords_eng

theorem State.popCell_own : ((s.popCell q).eng e).own = (s.eng e).own := by
  have hfree : ((s.freeCell q 0).eng e).own = (s.eng e).own := by
    rw [State.freeCell, State.watermark_own]
    rfl
  unfold State.popCell State.takeCell State.faultQueue
  split
  · split
    · exact hfree
    · rw [State.errRecord_own]
      exact hfree
  · exact hfree

theorem State.spadWrites_pc {b : Bool} {qs : List Quad} : ((s.spadWrites e b w qs).eng e).pc = (s.eng e).pc := by
  induction qs generalizing s w with
  | nil => rfl
  | cons q qs ih => rw [State.spadWrites, ih, State.spadWrite_eng, Engine.spadStore_pc]

/-! ### What the queue manager answers -/

section
variable {item : Item} {cell : QCell}

theorem State.tryPush_notProducer (h : s.producer q ≠ .engine e.val) : s.tryPush (.engine e) role q item = (some 2, s) := by
  rw [State.tryPush, State.isProducer, if_pos (by simp [h])]

section
variable (h : s.producer q = .engine e.val) (hr : s.flag F.Q_BIND.CMD [q] = true → s.fld F.Q_BIND.ROLE [q] = roleCode role)
include h hr

theorem State.tryPush_noCredit (hk : s.credits q ≤ s.keptBack (.engine e) q) :
    s.tryPush (.engine e) role q item = (some 1, s) := by
  rw [State.tryPush, State.isProducer, if_neg (by simp [h]), if_neg fun hc => hc.2 (hr hc.1), if_pos hk]

theorem State.tryPush_pushes (hk : s.keptBack (.engine e) q < s.credits q) :
    s.tryPush (.engine e) role q item = (some 0, s.pushCell q item) := by
  rw [State.tryPush, State.isProducer, if_neg (by simp [h]), if_neg fun hc => hc.2 (hr hc.1), if_neg (by omega)]

end

theorem State.tryPop_notConsumer (h : s.consumer q ≠ .engine e.val) : s.tryPop (.engine e) q = (some (2, none), s) := by
  rw [State.tryPop, State.isConsumer, if_pos (by simp [h])]

section
variable (h : s.consumer q = .engine e.val)
include h

theorem State.tryPop_none (hn : s.flag F.Q_STAT.FAULTED [q] = true ∨ s.headCell q = none) :
    s.tryPop (.engine e) q = (some (0, none), s) := by
  unfold State.tryPop
  rw [State.isConsumer, if_neg (by simp [h])]
  by_cases hx : s.flag F.Q_STAT.FAULTED [q] = true
  · exact if_pos hx
  · rw [if_neg hx, hn.resolve_left hx]

section
variable (hn : s.flag F.Q_STAT.FAULTED [q] = false) (hx : s.headCell q = some cell)
include hn hx

theorem State.tryPop_item (hc : cell.poison = false) :
    s.tryPop (.engine e) q = (some (1, some cell.item), (s.readCell q 0).popCell q) := by
  unfold State.tryPop
  rw [State.isConsumer, if_neg (by simp [h]), if_neg (by simp [hn]), hx]
  exact if_neg (by simp [hc])

theorem State.tryPop_poison (hc : cell.poison = true) : s.tryPop (.engine e) q = (none, s.readCell q 0) := by
  unfold State.tryPop
  rw [State.isConsumer, if_neg (by simp [h]), if_neg (by simp [hn]), hx]
  exact if_pos hc

end

end

end

/-! ### The instructions -/

theorem queueOfReg_eq : queueOfReg v = v.toNat % 8192 := by simp [queueOfReg, bitsOf]

theorem queueOfReg_lt : queueOfReg v < 8192 := by rw [queueOfReg_eq]; omega

/-- What every clause about a queue instruction supposes, with the domains and the tower after the fetch. -/
structure QueueReach (s : State) (e : Eng) : Prop where
  issues : s.canIssue e = true
  notLast : (s.eng e).pc ≠ 0xFFF8
  on : (s.fetchedWord e).fenced (pdNE 0) = false
  held : (s.fetchedWord e).towerHeld 0 = false

/-- The 64 bytes at the register's address: aligned, and inside the data scratchpad. -/
def Buffer (a : W64) : Prop := a.toNat % 64 = 0 ∧ a.toNat < 0x10000

theorem Buffer.passes {a : W64} (h : Buffer a) : s.spadBuffer e a body = body s := by
  rw [State.spadBuffer, if_neg (not_not.mpr h.1), if_neg (by have := h.2; omega)]

theorem State.spadReads_sound {m : Nat} (h : ∀ i < m, (s.eng e).Sound (w + i)) :
    s.spadReads e false reader w m = (.ok ((List.range m).map fun i => Sparse.read (s.eng e).dmem (w + i)), s) := by
  induction m generalizing w with
  | zero => rfl
  | succ m ih =>
    have hnext := ih (w := w + 1) fun i hi => by rw [Nat.add_assoc, Nat.add_comm 1 i]; exact h (i + 1) (by omega)
    rw [State.spadReads, State.spadRead_sound (w := w) (h 0 (Nat.succ_pos m))]
    dsimp only
    rw [hnext]
    simp only [List.range_succ_eq_map, List.map_cons, List.map_map, Nat.add_zero]
    refine Prod.ext (congrArg Except.ok (congrArg (List.cons _) (List.map_congr_left fun i _ => ?_))) rfl
    show Sparse.read _ (w + 1 + i) = Sparse.read _ (w + (i + 1))
    rw [Nat.add_assoc, Nat.add_comm 1 i]

section
variable (h : QueueReach s e)
include h

/-- The item in the 64 bytes at word `w` of the data scratchpad. -/
def Engine.bufferItem (en : Engine) (w : Nat) : Item :=
  BitVec.ofNat 512 (joinQuads ((List.range 4).map fun i => Sparse.read en.dmem (w + i)))

theorem execQPush_answers {code : Nat} (hb : Buffer ((s.eng e).get ra))
    (hs : ∀ i < 4, (s.eng e).Sound (((s.eng e).get ra).toNat / 16 + i))
    (ht : (s.fetchedWord e).tryPush (.engine e) (s.eng e).role (((s.eng e).get rb).toNat % 8192)
      ((s.eng e).bufferItem (((s.eng e).get ra).toNat / 16)) = (some code, t))
    (hpc : (t.eng e).pc = ((s.fetchedWord e).eng e).pc) : ∃ y, execQPush e rd ra rb s = .next (s.afterWait e y) ∧
      OnlyEvents (t.waited e 8 fun en => en.put rd (codeOf code)) y := by
  refine issue_answers h.issues h.notLast ?_ hpc
  dsimp only
  have hfence : (s.fetchedWord e).pushAtFence e (((s.eng e).get rb).toNat % 8192) = s.fetchedWord e := by
    rw [State.pushAtFence, State.queue_on h.on (by omega)]
    rfl
  rw [State.fetchedWord_get, hb.passes, spadAt, State.spadReads_sound fun i hi => fetched_sound (hs i hi), State.fetchedWord_dmem,
    State.fetchedWord_get, queueOfReg_eq]
  dsimp only
  rw [hfence, State.atQueue_served h.on h.held (by omega), fetched_role, ← Engine.bufferItem, ht]

theorem execQPop_answers {code : Nat} (hb : Buffer ((s.eng e).get rb))
    (ht : (s.fetchedWord e).tryPop (.engine e) (((s.eng e).get ra).toNat % 8192) = (some (code, none), s.fetchedWord e)) :
    ∃ y, execQPop e rd ra rb s = .next (s.afterWait e y) ∧
      OnlyEvents ((s.fetchedWord e).waited e 8 fun en => en.put rd (codeOf code)) y := by
  refine issue_answers h.issues h.notLast ?_ rfl
  dsimp only
  rw [State.fetchedWord_get, hb.passes, State.fetchedWord_get, queueOfReg_eq, State.atQueue_served h.on h.held (by omega), ht]

theorem execQPop_item {code : Nat} {item : Item} (hb : Buffer ((s.eng e).get rb))
    (ht : (s.fetchedWord e).tryPop (.engine e) (((s.eng e).get ra).toNat % 8192) = (some (code, some item), t))
    (hpc : (t.eng e).pc = ((s.fetchedWord e).eng e).pc) :
    ∃ y, execQPop e rd ra rb s = .next (s.afterWait e y) ∧
      OnlyEvents ((t.spadWrites e false (((s.eng e).get rb).toNat / 16) (itemQuads item)).waited e 8 fun en =>
        en.put rd (codeOf code)) y := by
  refine issue_answers h.issues h.notLast ?_ (State.spadWrites_pc.trans hpc)
  dsimp only
  rw [State.fetchedWord_get, hb.passes, State.fetchedWord_get, queueOfReg_eq, State.atQueue_served h.on h.held (by omega), ht,
    spadAt]

theorem execQPop_traps (hb : Buffer ((s.eng e).get rb))
    (ht : (s.fetchedWord e).tryPop (.engine e) (((s.eng e).get ra).toNat % 8192) = (none, t))
    (heng : t.eng e = (s.fetchedWord e).eng e) (hv : (s.eng e).tvecEn = true) (hi : (s.eng e).inTrap = false) :
    ∃ y, execQPop e rd ra rb s = .next (y.finish.settleEnd s e) ∧ OnlyEvents (t.spend.onEng e fun en =>
      en.trapped .dataUncorrectable 0 false (Config.freeWord t.free) (en.pc.setWidth 64)) y := by
  have hends : ((t.spend).eng e).trapEnds .dataUncorrectable = false := by
    show (t.eng e).trapEnds _ = _
    rw [heng, State.fetchedWord_trapEnds]
    exact trapEnds_handled hv hi
  refine ⟨t.spend.takeTrap e .dataUncorrectable 0 false (Config.freeWord t.free) (t.eng e).pc64,
    issue_ends (u := State.finish _) h.issues ?_, ?_⟩
  case refine_2 =>
    have henters := State.takeTrap_enters (resp := 0) (i := false) (tval := Config.freeWord t.free) (tpc := (t.eng e).pc64) hends
    rwa [State.onEng_congr (g := fun en => en.trapped .dataUncorrectable 0 false (Config.freeWord t.free) (en.pc.setWidth 64)) rfl]
      at henters
  dsimp only
  rw [State.fetchedWord_get, hb.passes, State.fetchedWord_get, queueOfReg_eq, State.atQueue_served h.on h.held (by omega), ht]
  dsimp only
  rw [State.trapOpen, State.trap]
  rfl

theorem execQCred_answers {k m : Nat} (hm : bitsOf op32 15 0 = m)
    (ht : (s.fetchedWord e).tryGrant (.engine e) (((s.eng e).get ra).toNat % 8192) m = (k, t))
    (hpc : (t.eng e).pc = ((s.fetchedWord e).eng e).pc) : ∃ y, execQCred e rd ra op32 s = .next (s.afterWait e y) ∧
      OnlyEvents (t.waited e 8 fun en => en.put rd (codeOf k)) y := by
  refine issue_answers h.issues h.notLast ?_ hpc
  dsimp only
  rw [State.fetchedWord_get, queueOfReg_eq, State.atQueue_served h.on h.held (by omega), State.fetchedWord_get, queueOfReg_eq, hm, ht]

end

theorem State.tryGrant_notProducer (h : s.producer q ≠ .engine e.val) : s.tryGrant (.engine e) q k = (0, s) := by
  rw [State.tryGrant, State.isProducer, if_pos (by simp [h])]

theorem State.tryGrant_grants (h : s.producer q = .engine e.val) :
    s.tryGrant (.engine e) q k = (s.credits q + s.grantSize q k, s.grant q k) := by
  rw [State.tryGrant, State.isProducer, if_neg (by simp [h])]
  exact Prod.ext State.grant_credits rfl

theorem fetched_keptBack : (s.fetchedWord e).keptBack (.engine e) q =
    if (s.eng e).cqHeld = true ∧ (s.eng e).cq.toNat = q then 1 else 0 := by
  have hheld : ((s.fetchedWord e).eng e).cqHeld = (s.eng e).cqHeld := s.fetchedWord_eng e _ fun _ _ => rfl
  have hcq : ((s.fetchedWord e).eng e).cq = (s.eng e).cq := s.fetchedWord_eng e _ fun _ _ => rfl
  rw [State.keptBack, hheld, hcq, b2n]
  by_cases hc : (s.eng e).cqHeld = true ∧ (s.eng e).cq.toNat = q
  · rw [if_pos hc, if_pos (by simpa using hc)]
  · rw [if_neg hc, if_neg (by simpa using hc)]

/-- Settles O17: what the queue manager answers, and the instruction that carries it. -/
theorem queueInstructions : Obligations.QueueInstructions := by
  unfold Obligations.QueueInstructions
  intro s e rd ra rb op32 hc hp hf hh
  simp only [RunsThen, GivesThen, exec]
  have h : QueueReach s e := ⟨hc, hp, by rwa [State.fetchedWord_fenced (by decide)], by rwa [State.fetchedWord_towerHeld]⟩
  have hlt (v : W64) : v.toNat % 8192 < 8192 := Nat.mod_lt _ (by decide)
  have hpush {q : Nat} {item : Item} : (((s.fetchedWord e).pushCell q item).eng e).pc = ((s.fetchedWord e).eng e).pc :=
    congrArg Engine.pc (a₁ := Engine.own _) (a₂ := Engine.own _) State.pushCell_own
  have hpop {q : Nat} : ((((s.fetchedWord e).readCell q 0).popCell q).eng e).pc = ((s.fetchedWord e).eng e).pc :=
    (congrArg Engine.pc (a₁ := Engine.own _) (a₂ := Engine.own _) State.popCell_own).trans (congrArg (fun en => (Engine.own en).pc) State.readCell_eng)
  have hrole {q : Nat} (hr : s.flag F.Q_BIND.CMD [q % 8192] = true → s.fld F.Q_BIND.ROLE [q % 8192] = roleCode (s.eng e).role) :
      (s.fetchedWord e).flag F.Q_BIND.CMD [q % 8192] = true →
        (s.fetchedWord e).fld F.Q_BIND.ROLE [q % 8192] = roleCode (s.eng e).role := by
    rwa [State.flag, State.fetchedWord_bind (Nat.mod_lt _ (by decide)) rfl, State.fetchedWord_bind (Nat.mod_lt _ (by decide)) rfl]
  refine ⟨fun hb hs => ⟨fun hn => ?_, fun hn hr => ⟨fun hk => ?_, fun hk => ?_⟩⟩, fun hb => ⟨fun hn => ?_, fun hn hx => ?_,
    fun c hn hx hcell => ⟨fun hpo => ?_, fun hpo hv hi => ?_⟩⟩, fun hn => ?_, fun hn => ?_⟩
  · exact execQPush_answers h hb hs (State.tryPush_notProducer (by rwa [State.fetchedWord_producer (hlt _)])) rfl
  · exact execQPush_answers h hb hs (State.tryPush_noCredit (by rwa [State.fetchedWord_producer (hlt _)]) (hrole hr)
      (by rwa [State.fetchedWord_credits (hlt _), fetched_keptBack])) rfl
  · exact execQPush_answers h hb hs (State.tryPush_pushes (by rwa [State.fetchedWord_producer (hlt _)]) (hrole hr)
      (by rwa [State.fetchedWord_credits (hlt _), fetched_keptBack])) hpush
  · exact execQPop_answers h hb (State.tryPop_notConsumer (by rwa [State.fetchedWord_consumer (hlt _)]))
  · exact execQPop_answers h hb (State.tryPop_none (by rwa [State.fetchedWord_consumer (hlt _)])
      (by rwa [State.fetchedWord_faulted (hlt _), State.fetchedWord_headCell]))
  · exact execQPop_item h hb (State.tryPop_item (by rwa [State.fetchedWord_consumer (hlt _)])
      (by rwa [State.fetchedWord_faulted (hlt _)]) (by rwa [State.fetchedWord_headCell]) hpo) hpop
  · exact execQPop_traps h hb (State.tryPop_poison (by rwa [State.fetchedWord_consumer (hlt _)])
      (by rwa [State.fetchedWord_faulted (hlt _)]) (by rwa [State.fetchedWord_headCell]) hpo) State.readCell_eng hv hi
  · exact execQCred_answers h rfl (State.tryGrant_notProducer (by rwa [State.fetchedWord_producer (hlt _)])) rfl
  · refine execQCred_answers (m := op32.toNat % 65536) h (by simp [bitsOf]) ((State.tryGrant_grants (by rwa [State.fetchedWord_producer (hlt _)])).trans ?_) rfl
    rw [State.fetchedWord_credits (hlt _), State.fetchedWord_grantSize (hlt _)]

end Sys2Proof.Machine
end

section
/-! SUPPORT. What a fetch leaves of the tests and their blocks, and what power requests and tests leave of the engines (R93, R337,
R351 to R355). -/

namespace Sys2Proof.Machine

variable {s t u : State} {e : Eng} {d n k row col p : Nat} {f : Fld} {ix : List Nat} {r : RegName} {v ra : W64} {tw : Fin 4}

/-! ### After a fetch -/

theorem State.fetchedWord_serves (hd : d < 64) : (s.fetchedWord e).serves d = s.serves d := by
  have hbusy : (s.fetchedWord e).reg .PD_STAT [d] = s.reg .PD_STAT [d] :=
    State.fetchedWord_reg (by simp [RegName.valid, RegName.place, ixValid, hd]) (by decide)
  rw [State.serves, State.fetchedWord_pd hd, State.pdBusy, hbusy, State.serves, State.pdBusy]

theorem State.fetchedWord_standinPhase (ht : k < 4) (hg : n < 8) : (s.fetchedWord e).standinPhase k n = s.standinPhase k n :=
  State.fetchedWord_fld (by simp [RegName.valid, RegName.place, ixValid, F.STANDIN_STAT.PHASE, ht, hg]) (by decide)

theorem State.fetchedWord_bankFailed (ht : k < 4) (hb : n < 256) : (s.fetchedWord e).bankFailed k n = s.bankFailed k n := by
  rw [State.bankFailed, State.fetchedWord_reg
    (by simp only [RegName.valid, RegName.place, ixValid, Bool.and_eq_true, decide_eq_true_eq, Bool.and_true]; omega) (by decide),
    State.bankFailed]

section
variable (ht : k < 4) (hr : row < 64)
include ht hr

theorem State.fetchedWord_steer (hf : f.reg = .STEER) : (s.fetchedWord e).fld f [k, row] = s.fld f [k, row] :=
  State.fetchedWord_fld (by rw [hf]; simp [RegName.valid, RegName.place, ixValid, ht, hr]) (by rw [hf]; decide)

theorem State.fetchedWord_servedCol : (s.fetchedWord e).servedCol k row col = s.servedCol k row col := by
  rw [State.servedCol, State.skipCol, State.fetchedWord_steer ht hr rfl, State.servedCol, State.skipCol]

theorem State.fetchedWord_posFailed : (s.fetchedWord e).posFailed k row col = s.posFailed k row col := by
  unfold State.posFailed
  rw [State.fetchedWord_servedCol ht hr,
    State.fetchedWord_reg (r := .TFAIL_L3) (by simp [RegName.valid, RegName.place, ixValid, ht, hr]) (by decide),
    State.fetchedWord_reg (r := .TFAIL_L4) (by simp [RegName.valid, RegName.place, ixValid, ht, hr]) (by decide)]

theorem State.fetchedWord_rowRetired : (s.fetchedWord e).rowRetired k row = s.rowRetired k row := by
  rw [State.rowRetired, State.flag, State.fetchedWord_steer ht hr rfl, State.fetchedWord_ref, State.rowRetired, State.flag]

omit ht hr in
theorem State.fetchedWord_tileInUse : (s.fetchedWord e).tileInUse n = s.tileInUse n := by
  have hbench : (s.fetchedWord e).benched n = s.benched n := by
    refine Bool.eq_iff_iff.mpr ?_
    simp only [State.benched, List.any_eq_true, List.mem_range]
    refine exists_congr fun i => and_congr_right fun hi => ?_
    rw [State.fetchedWord_reg (by simp [RegName.valid, RegName.place, ixValid, hi]) (by decide)]
  rw [State.tileInUse, State.fetchedWord_fab, hbench, State.tileInUse]

theorem State.fetchedWord_needsWalk {b : Bool} : (s.fetchedWord e).needsWalk k row col b = s.needsWalk k row col b := by
  have huse : (s.fetchedWord e).posInUse k row col = s.posInUse k row col := by
    unfold State.posInUse
    rw [State.fetchedWord_servedCol ht hr]
    simp only [State.fetchedWord_tileInUse]
  rw [State.needsWalk, State.skipCol, State.fetchedWord_steer ht hr rfl, huse, State.fetchedWord_rowRetired ht hr, State.needsWalk,
    State.skipCol]

end

theorem State.fetchedWord_loaderWrites : (s.fetchedWord e).loaderWrites k = s.loaderWrites k := by
  unfold State.loaderWrites
  rw [State.fetchedWord_loading]

theorem State.fetchedWord_laneMap (hp : p < 16) (hf : f.reg = .PORT_MAP) :
    (s.fetchedWord e).fld f (portIx p) = s.fld f (portIx p) :=
  State.fetchedWord_fld (by
    rw [hf]
    simp only [RegName.valid, RegName.place, ixValid, portIx, Bool.and_eq_true, decide_eq_true_eq, Bool.and_true]
    omega) (by rw [hf]; decide)

theorem bits_lt {hi lo : Nat} : bitsOf ra hi lo < 2 ^ (hi + 1 - lo) := bitsOf_lt _ _ _

theorem State.fetchedWord_blockRuns : (s.fetchedWord e).blockRuns k ra = s.blockRuns k ra := by
  have h7 : bitsOf ra 7 0 < 256 := bits_lt
  have h2 : bitsOf ra 2 0 < 8 := bits_lt
  have h6 : bitsOf ra 6 0 < 128 := bits_lt
  have hclk (c : ClkDom) : clkPower c < 64 := by
    cases c with
    | dom t n => fin_cases t <;> fin_cases n <;> decide
    | pkg k => fin_cases k <;> decide
  unfold State.blockRuns
  dsimp only
  split
  · exact State.fetchedWord_serves (by simp only [pdQuad]; omega)
  · exact State.fetchedWord_serves (by simp only [pdQuad]; omega)
  · rw [State.fetchedWord_serves (by simp only [pdLogic]; split <;> omega), State.fetchedWord_serves (by simp only [pdLogic]; split <;> omega)]
  · exact State.fetchedWord_serves (by simp only [pdRelay]; omega)
  · exact State.fetchedWord_serves (hclk _)
  · rw [State.fetchedWord_ref]
  · rw [State.fetchedWord_ref]

theorem State.fetchedWord_testIneligible {b : Bool} : (s.fetchedWord e).testIneligible k ra b = s.testIneligible k ra b := by
  have h7 : bitsOf ra 7 0 < 256 := bits_lt
  have h2 : bitsOf ra 2 0 < 8 := bits_lt
  have h6 : bitsOf ra 6 0 < 128 := bits_lt
  have hrow : tileRowOf ra < 64 := bits_lt
  have ht : (testTower k ra).val < 4 := (testTower k ra).isLt
  unfold State.testIneligible
  dsimp only
  split
  · rw [State.fetchedWord_standinPhase ht (by omega), State.fetchedWord_bankFailed ht h7]
  · rw [State.fetchedWord_standinPhase ht h2]
  · rw [State.fetchedWord_posFailed ht hrow, State.fetchedWord_needsWalk ht hrow, State.fetchedWord_loaderWrites,
      State.fetchedWord_rowRetired ht hrow]
  · rw [State.rxMap, State.txMap, State.fetchedWord_laneMap (by omega) rfl, State.fetchedWord_laneMap (by omega) rfl, State.rxMap,
      State.txMap]
  · rfl

theorem State.fetchedWord_testBusy {b : Bool} : (s.fetchedWord e).testBusy k ra b = s.testBusy k ra b := by
  rw [State.testBusy, State.testIn, State.fetchedWord_tests, State.fetchedWord_blockRuns, State.fetchedWord_testIneligible,
    State.testBusy, State.testIn]

theorem State.fetchedWord_testWindow (hn : n < 4) : (s.fetchedWord e).testWindow k n = s.testWindow k n := by
  have hcfg : (s.fetchedWord e).reg .PKGCLK_CFG [2] = s.reg .PKGCLK_CFG [2] := State.fetchedWord_reg (by decide) (by decide)
  have hstat : (s.fetchedWord e).reg .PKGCLK_STAT [2] = s.reg .PKGCLK_STAT [2] := State.fetchedWord_reg (by decide) (by decide)
  have hv : (s.fetchedWord e).fld F.TPWR_STAT.VLOGIC [n] = s.fld F.TPWR_STAT.VLOGIC [n] :=
    State.fetchedWord_fld (by simp [RegName.valid, RegName.place, ixValid, F.TPWR_STAT.VLOGIC, hn]) (by decide)
  have hclk {f : Fld} : (s.fetchedWord e).clkFld (.pkg 2) f = s.clkFld (.pkg 2) f := by
    rw [State.clkFld, clkCfgReg, clkStatReg]
    show fieldIn f (if _ then (s.fetchedWord e).reg .PKGCLK_CFG [2] else (s.fetchedWord e).reg .PKGCLK_STAT [2]) = _
    rw [hcfg, hstat]
    rfl
  unfold State.testWindow State.clkFlag
  dsimp only
  rw [hclk, hclk, hclk, hv]

@[simp] theorem State.fetchedWord_sweepOf : (s.fetchedWord e).sweepOf tw = s.sweepOf tw := by
  rw [State.sweepOf, State.fetchedWord_only.rest, State.sweepOf]

/-! ### Engines -/

/-- Every part of every engine but the places that an event may write keeps its value. -/
def KeepsOwn (s t : State) : Prop := ∀ e, (t.eng e).own = (s.eng e).own

theorem KeepsOwn.refl : KeepsOwn s s := fun _ => rfl
theorem KeepsOwn.trans (h : KeepsOwn s t) (k : KeepsOwn t u) : KeepsOwn s u := fun e => (k e).trans (h e)
theorem KeepsOwn.of_engines (h : t.engines = s.engines) : KeepsOwn s t := fun e => by rw [State.eng, h, State.eng]
theorem KeepsOwn.put : KeepsOwn s (s.put f n ix) := .of_engines rfl
theorem KeepsOwn.pc (h : KeepsOwn s t) : (t.eng e).pc = (s.eng e).pc :=
  congrArg Engine.pc (a₁ := (t.eng e).own) (a₂ := (s.eng e).own) (h e)

theorem KeepsOwn.foldl {α : Type} {g : State → α → State} (l : List α) (h : ∀ s a, KeepsOwn s (g s a)) : KeepsOwn s (l.foldl g s) := by
  induction l generalizing s with
  | nil => exact .refl
  | cons a l ih => exact (h s a).trans ih

/-- Either way of a choice. -/
theorem KeepsOwn.ite {c : Prop} [Decidable c] (ht : KeepsOwn s t) (hu : KeepsOwn s u) : KeepsOwn s (if c then t else u) := by
  split
  · exact ht
  · exact hu

theorem KeepsOwn.edge {m : W64 → Bool} : KeepsOwn s (s.edge n m) := fun e => OnlyEvents.edge.eng e

theorem KeepsOwn.setPd {now target : Nat} {busy : Bool} {latch : Option Nat} : KeepsOwn s (s.setPd d now target busy latch) :=
  .of_engines rfl

theorem KeepsOwn.startSequence : KeepsOwn s (s.startSequence d n) := by
  unfold State.startSequence
  dsimp only
  split
  · exact (KeepsOwn.of_engines (t := s.raiseFences d) rfl).trans .setPd
  · exact .setPd

theorem KeepsOwn.pdRequest : KeepsOwn s (s.pdRequest d n) :=
  .ite .refl (.ite .setPd (.ite (.ite .setPd .setPd) (.ite .edge .startSequence)))

theorem KeepsOwn.setCap {rq : Rq} : KeepsOwn s (s.setCap rq n) := .of_engines rfl

theorem KeepsOwn.walk : KeepsOwn s (s.walk tw row n) := by
  unfold State.walk
  dsimp only
  split
  · exact .ite (.of_engines rfl) (.of_engines rfl)
  · exact .of_engines rfl

theorem KeepsOwn.startTest {who : Option Eng} : KeepsOwn s (s.startTest k ra who) := by
  unfold State.startTest
  dsimp only
  refine .ite (.of_engines rfl) (.ite ?_ (.of_engines rfl))
  exact (KeepsOwn.of_engines (t := { s with tests := _ }) rfl).trans .walk

theorem KeepsOwn.splitDone {who : Option Eng} : KeepsOwn s (s.splitDone who) := by
  cases who with
  | none => exact .refl
  | some e =>
    intro e'
    by_cases he : e = e'
    · rw [← he, State.splitDone, State.eng_onEng, Engine.own_edge]
    · rw [State.splitDone, State.eng_onEng_ne he]

theorem KeepsOwn.unforceGates : KeepsOwn s s.unforceGates := by
  have hopen {s : State} {t b : Nat} : KeepsOwn s (s.followGate t b) := .ite .refl (.ite (.of_engines rfl) (.ite (.of_engines rfl) .refl))
  exact (KeepsOwn.of_engines (t := (s.put F.CLKGATE_MODE.FORCED 0).put F.CLKGATE_MODE.AUTO (b2n s.ref.clkAuto)) rfl).trans
    (.foldl _ fun _ _ => .foldl _ fun _ _ => hopen)

theorem KeepsOwn.checkReady : KeepsOwn s s.checkReady := by
  unfold State.checkReady
  dsimp only
  exact .ite ((KeepsOwn.of_engines (t := { s with ref := { s.ref with sbState := 2 } }) rfl).trans .unforceGates) .refl

theorem KeepsOwn.sweepEnds : KeepsOwn s (s.sweepEnds tw) := by
  unfold State.sweepEnds
  split
  · exact .refl
  · next w _ =>
    have hdrop : KeepsOwn s { s with sweeps := s.sweeps.filter fun v => v.tower != tw } := .of_engines rfl
    refine .ite .refl (.ite (hdrop.trans .checkReady) (.ite (.of_engines rfl) ?_))
    refine (KeepsOwn.of_engines ?_).trans .splitDone
    rfl

theorem KeepsOwn.sweepTry {slot : TestSlot} {m : Nat} : KeepsOwn s (s.sweepTry tw slot m) := by
  induction m generalizing s with
  | zero => exact .refl
  | succ m ih =>
    unfold State.sweepTry
    split
    · exact .refl
    · split
      · exact .sweepEnds
      · next w _ _ b _ =>
        exact .ite ((KeepsOwn.of_engines (t := s.setSweep (w.next slot)) rfl).trans ih) (.ite (.of_engines rfl) .startTest)

theorem KeepsOwn.startSweep {who : Option Eng} : KeepsOwn s (s.startSweep tw who) :=
  (KeepsOwn.of_engines (t := { s with sweeps := s.sweeps ++
    [{ tower := tw, engine := who, groupNext := Vector.replicate 8 0, tileNext := 0, analogNext := 0 }] }) rfl).trans
    (.foldl _ fun _ _ => .sweepTry)

end Sys2Proof.Machine
end

section
/-! SUPPORT. PWR and SPLIT as engines command them (R87, R93, R337, R351, R352, R354, R355), and O19. -/

namespace Sys2Proof.Machine

variable {s t u : State} {e : Eng} {rd ra : Gpr} {body : State → State} {d n k : Nat} {v w : W64} {tw : Fin 4} {rq : Rq}

/-! ### PWR -/

theorem pwrDomain_eq : pwrDomain v = v.toNat % 64 := by simp [pwrDomain, bitsOf]

theorem pdReply_eq : s.pdReply d (pdFixed d) = BitVec.ofNat 64 (s.fld F.PD_STAT.WORD [d] + 128 * if d = 0 ∨ d = 7 then 1 else 0) := by
  rw [State.pdReply, pdFixed, b2n]
  simp only [Bool.or_eq_true, beq_iff_eq]

section
variable (hc : s.canIssue e = true) (hp : (s.eng e).pc ≠ 0xFFF8)
include hc hp

/-- PWR of a request for state `n`. -/
theorem pwrAction_answers : ∃ x, issue e s (fun s => s.pwrAction e rd ra n) = .next (s.afterWait e x) ∧
    OnlyEvents (((s.fetchedWord e).pdRequest (((s.eng e).get ra).toNat % 64) n).waited e 8 fun en => en.put rd
      (BitVec.ofNat 64 (((s.fetchedWord e).pdRequest (((s.eng e).get ra).toNat % 64) n).fld F.PD_STAT.WORD
        [((s.eng e).get ra).toNat % 64] + 128 * if ((s.eng e).get ra).toNat % 64 = 0 ∨ ((s.eng e).get ra).toNat % 64 = 7 then 1 else 0))) x :=
  issue_answers hc hp (by rw [State.pwrAction, State.fetchedWord_get, pwrDomain_eq, pdReply_eq]) KeepsOwn.pdRequest.pc

theorem execPwrQuery_answers : ∃ x, execPwrQuery e rd ra s = .next (((x.deliver e).settle).settleEnd s e) ∧
    OnlyEvents ((s.fetchedWord e).waited e 8 fun en => en.put rd
      (BitVec.ofNat 64 ((s.fetchedWord e).fld F.PD_STAT.WORD [((s.eng e).get ra).toNat % 64] + 128 * 0))) x := by
  refine ⟨_, issue_ends (u := State.settle _) hc ?_, State.waited_events (by rwa [State.fetchedWord_pc])⟩
  rw [State.fetchedWord_get, pwrDomain_eq]
  rfl

theorem execPwrSetCap_answers (hr : (s.eng e).role = .installer) : ∃ x, execPwrSetCap e rd ra s = .next (s.afterWait e x) ∧
    OnlyEvents (((s.fetchedWord e).spend.setCap (engRq e) ((s.eng e).get ra).toNat).waited e 8 fun en =>
      en.put rd (Config.freeWord (s.fetchedWord e).free)) x := by
  refine issue_answers hc hp ?_ KeepsOwn.setCap.pc
  rw [fetched_role, if_neg (not_not.mpr hr), State.fetchedWord_get]

end

/-! ### SPLIT -/

theorem testAddr_place : spaceOf (testAddr tw) = .register ∧ regDomain (testAddr tw) = pdNE tw ∧ regTower (testAddr tw) = tw.val ∧
    isMemLayer (testAddr tw) = false := by
  revert tw
  decide

theorem testAddr_end : (endpointOf n (testAddr tw)).dom = pdNE tw ∧ (endpointOf n (testAddr tw)).isMemLayer = false := by
  unfold endpointOf
  rw [testAddr_place.1]
  dsimp only
  revert tw
  decide

/-- The test registers of the tower answer. -/
structure TestReach (s : State) (t : Fin 4) : Prop where
  on : s.fenced (pdNE t) = false
  held : s.towerHeld t = false

theorem TestReach.fetched (h : TestReach s tw) : TestReach (s.fetchedWord e) tw where
  on := by rw [State.fetchedWord_fenced (by simp only [pdNE]; omega), h.on]
  held := by rw [State.fetchedWord_towerHeld, h.held]

theorem TestReach.served (h : TestReach s tw) : (s.targetOff rq (testAddr tw) || s.targetHeld (testAddr tw)) = false := by
  obtain ⟨hs, hd, ht, hm⟩ := testAddr_place (tw := tw)
  obtain ⟨he, hl⟩ := testAddr_end (tw := tw) (n := towerOf rq)
  have hdom : addrDomain rq (testAddr tw) = pdNE tw := by
    unfold addrDomain
    rw [hs]
    exact hd
  have hheld : s.targetHeld (testAddr tw) = false := by
    unfold State.targetHeld
    rw [hs]
    dsimp only
    rw [hd, ht, hm, h.held, if_neg (by simp only [pdNE]; omega)]
    rfl
  rw [hheld, State.targetOff, hdom, portOf, State.portOff, hl, if_neg (by decide), State.portFenced, he, h.on]
  simp

theorem split_answers {code : Nat} (hc : s.canIssue e = true) (hp : (s.eng e).pc ≠ 0xFFF8) (hr : (s.eng e).role ≠ .operator)
    (hl : testLegal k ((s.eng e).get ra) = true) (hs : ∀ tw ∈ splitTowers k ((s.eng e).get ra), TestReach s tw)
    (ht : (if k = 7 then (s.fetchedWord e).splitSweep e ((s.eng e).get ra) else (s.fetchedWord e).splitOne e k ((s.eng e).get ra)) =
      (code, t)) (ho : KeepsOwn (s.fetchedWord e) t) : ∃ x, issue e s (fun s => s.split e rd ra k) = .next (s.afterWait e x) ∧
        OnlyEvents (t.waited e 8 fun en => en.put rd (codeOf code)) x := by
  have hnone : ((splitTowers k ((s.eng e).get ra)).find? fun tw =>
      (s.fetchedWord e).targetOff (engRq e) (testAddr tw) || (s.fetchedWord e).targetHeld (testAddr tw)) = none :=
    List.find?_eq_none.mpr fun tw hm => by rw [(hs tw hm).fetched.served]; decide
  refine issue_answers hc hp ?_ ho.pc
  unfold State.split
  dsimp only
  rw [State.fetchedWord_get, if_neg (by simp [hl]), fetched_role, if_neg hr, hnone]
  dsimp only
  rw [ht]

/-! One test -/

section
variable (hb : s.testBusy k v false = false)
include hb

theorem State.splitOne_refused (hw : s.testWindow k (testTower k v) = false) : s.splitOne e k v = (1, s) := by
  rw [State.splitOne, if_neg (by simp [hb]), if_pos (by simp [hw])]

theorem State.splitOne_starts (hw : s.testWindow k (testTower k v) = true) :
    s.splitOne e k v = (0, (s.recordSplit e k v).startTest k v (some e)) := by
  rw [State.splitOne, if_neg (by simp [hb]), if_neg (by simp [hw])]

end

theorem State.splitOne_busy (hb : s.testBusy k v false = true) : s.splitOne e k v = (2, s) := by rw [State.splitOne, if_pos hb]

theorem KeepsOwn.recordSplit : KeepsOwn s (s.recordSplit e k v) := .of_engines rfl

/-! A sweep -/

theorem State.splitSweep_busy (h : ∃ tw ∈ sweepTowers v, (s.sweepOf tw).isSome) : s.splitSweep e v = (2, s) := by
  rw [State.splitSweep]
  exact if_pos (List.any_eq_true.mpr h)

section
variable (h : ∀ tw ∈ sweepTowers v, s.sweepOf tw = none)
include h

theorem sweeps_none : ¬((sweepTowers v).any fun tw => (s.sweepOf tw).isSome) = true := by
  rw [List.any_eq_true]
  rintro ⟨tw, hm, hs⟩
  rw [h tw hm] at hs
  exact absurd hs (by decide)

theorem State.splitSweep_refused (hw : ∃ tw ∈ sweepTowers v, s.testWindow 7 tw = false) : s.splitSweep e v = (1, s) := by
  obtain ⟨tw, hm, hw⟩ := hw
  rw [State.splitSweep, if_neg (sweeps_none h)]
  exact if_pos (List.any_eq_true.mpr ⟨tw, hm, by rw [hw]; rfl⟩)

theorem State.splitSweep_starts (hw : ∀ tw ∈ sweepTowers v, s.testWindow 7 tw = true) (hne : sweepTowers v ≠ []) :
    s.splitSweep e v = (0, (sweepTowers v).foldl (fun s tw => s.startSweep tw (some e)) (s.recordSplit e 7 v)) := by
  have hnone : ¬((sweepTowers v).any fun tw => !s.testWindow 7 tw.val) = true := by
    rw [List.any_eq_true]
    rintro ⟨tw, hm, hx⟩
    rw [hw tw hm] at hx
    exact absurd hx (by decide)
  rw [State.splitSweep, if_neg (sweeps_none h), if_neg hnone]
  refine Prod.ext rfl (if_neg ?_)
  rwa [List.isEmpty_iff]

end

theorem split_instr (hk : k < 7) : exec ([.bankMarch e rd ra, .standinMarch e rd ra, .tileScan e rd ra, .laneLoop e rd ra,
    .loopCheck e rd ra, .sensorRef e rd ra, .vmonCheck e rd ra] : List Instr)[k] s = issue e s fun s => s.split e rd ra k := by
  interval_cases k <;> rfl

/-- Settles O19: each request's result, and that it leaves the engine to go on. -/
theorem powerAndTestInstructions : Obligations.PowerAndTestInstructions := by
  unfold Obligations.PowerAndTestInstructions
  simp only [RunsThen, GivesThen]
  refine ⟨fun s e rd ra hc hp => ⟨execPwrQuery_answers hc hp, pwrAction_answers hc hp, pwrAction_answers hc hp,
    pwrAction_answers hc hp, pwrAction_answers hc hp, execPwrSetCap_answers hc hp⟩, fun s e rd ra hc hp hr => ⟨?_, ?_⟩⟩
  · intro k hk hl hf hh
    have hne : k ≠ 7 := Nat.ne_of_lt hk
    have hx {t : State} {code : Nat} := split_answers (rd := rd) (ra := ra) (k := k) (t := t) (code := code) hc hp hr hl (by
      rw [splitTowers, if_neg hne]
      exact List.forall_mem_singleton.mpr ⟨hf, hh⟩)
    simp only [if_neg hne] at hx
    rw [split_instr hk]
    refine ⟨fun hb => hx (State.splitOne_busy (by rwa [State.fetchedWord_testBusy])) .refl,
      fun hb hw => hx (State.splitOne_refused (by rwa [State.fetchedWord_testBusy])
        (by rwa [State.fetchedWord_testWindow (Fin.isLt _)])) .refl,
      fun hb hw => hx (State.splitOne_starts (by rwa [State.fetchedWord_testBusy])
        (by rwa [State.fetchedWord_testWindow (Fin.isLt _)])) (KeepsOwn.recordSplit.trans .startTest)⟩
  · intro hs
    have hx {t : State} {code : Nat} := split_answers (rd := rd) (ra := ra) (k := 7) (t := t) (code := code) hc hp hr rfl
      fun tw hm => ⟨(hs tw hm).1, (hs tw hm).2⟩
    simp only [if_true] at hx
    refine ⟨fun hb => hx (State.splitSweep_busy (by simp only [State.fetchedWord_sweepOf]; exact hb)) .refl,
      fun hn hw => hx (State.splitSweep_refused (by simp only [State.fetchedWord_sweepOf]; exact hn) ?_) .refl,
      fun hn hne => hx (State.splitSweep_starts (by simp only [State.fetchedWord_sweepOf]; exact fun tw hm => (hn tw hm).1) ?_ hne)
        (KeepsOwn.recordSplit.trans (.foldl _ fun _ _ => .startSweep))⟩
    · obtain ⟨tw, hm, hw⟩ := hw
      exact ⟨tw, hm, by rwa [State.fetchedWord_testWindow (Fin.isLt _)]⟩
    · exact fun tw hm => by rw [State.fetchedWord_testWindow (Fin.isLt _)]; exact (hn tw hm).2

end Sys2Proof.Machine
end

section
/-! SUPPORT. The command dispatcher (R95 to R97, R204), and O20. -/

namespace Sys2Proof.Machine

variable {s t u : State} {e : Eng} {q : Nat} {rest : List Nat} {x : Item} {c : QCell}

/-- The engine's part in taking a descriptor: what the program runs under. -/
def Engine.taking (en : Engine) (role : Role) (q : Nat) (x : Item) : Engine :=
  { en with
    role := role
    cmdQueue := BitVec.ofNat 13 q
    cmdTag := BitVec.ofNat 32 (bitsOf x 159 128)
    cqen := bit x 127
    cqHeld := bit x 127
    cq := BitVec.ofNat 13 (bitsOf x 124 112)
    lastQueue := q + 1 }

/-- The engine's part in starting a program, but for the pending events. -/
def Engine.starting (en : Engine) (x : Item) : Engine :=
  { en with
    launch := none
    code := en.imem
    g := Vector.ofFn fun i => if 1 ≤ i.val ∧ i.val ≤ 5 then wordAt x (2 + i.val) else 0
    bindings := []
    runtime := 0
    wdogHits := 0
    superseded := false
    pc := BitVec.ofNat 16 (8 * bitsOf x 95 80)
    state := .running }

theorem ownOnly_starting : OwnOnly fun en => { en.starting x with evpend := 0 } := .of_own fun _ => rfl

theorem launch_args : (Vector.ofFn fun i : Fin 32 => if 1 ≤ i.val ∧ i.val ≤ 5 then dArg x (i.val - 1) else 0) =
    Vector.ofFn fun i : Fin 32 => if 1 ≤ i.val ∧ i.val ≤ 5 then wordAt x (2 + i.val) else 0 := by
  refine congrArg Vector.ofFn (funext fun i => ?_)
  by_cases hi : 1 ≤ i.val ∧ i.val ≤ 5
  · rw [if_pos hi, if_pos hi, dArg]
    congr 1
    omega
  · rw [if_neg hi, if_neg hi]

theorem State.launch_eq : s.launch e x =
    (s.tally (unitOfEngine e) 0x106).onEng e fun en => { en.starting x with evpend := 0 } := by
  rw [State.launch, launch_args]
  rfl

theorem State.launch_events : OnlyEvents (s.onEng e fun en => en.starting x) (s.launch e x) := by
  have hzero : OnlyEvents (s.onEng e fun en => en.starting x) (s.onEng e fun en => { en.starting x with evpend := 0 }) := by
    have h : OnlyEvents (s.onEng e fun en => en.starting x) ((s.onEng e fun en => en.starting x).onEng e fun en =>
      { en with evpend := 0 }) := .onEng fun _ => rfl
    rwa [State.onEng_onEng] at h
  rw [State.launch_eq]
  exact hzero.trans (OnlyEvents.tallyEng.after ownOnly_starting)

theorem State.launch_evpend : ((s.launch e x).eng e).evpend = 0 := by rw [State.launch_eq, State.eng_onEng]

/-- The dispatcher looks at the head descriptor of the first ready queue. -/
theorem execCommandDispatch_looks (hd : s.mayDispatch e = true) (hl : (s.eng e).launch = none)
    (hq : s.readyQueues e = q :: rest) (hc : s.headCell q = some c) :
    execCommandDispatch e s = .next (s.dispatchFrom e q c.item).finish := by
  unfold execCommandDispatch
  rw [if_neg (by simp [hd]), hl]
  dsimp only
  rw [hq]
  dsimp only
  rw [hc]

section
variable (hk : bit x 127 = true → s.producer (bitsOf x 124 112) = .engine e.val ∧ s.credits (bitsOf x 124 112) ≠ 0)
include hk

/-- It takes a descriptor whose completion item, if it asks for one, has its credit. -/
theorem State.dispatchFrom_takes (hx : badCommand x = true ∨ bitsOf x 79 64 = 0) :
    s.dispatchFrom e q x = s.takeDescriptor e q x := by
  have hprod : ¬(dCqen x = true ∧ s.producer (dCq x) ≠ .engine e.val) := fun h => h.2 (hk h.1).1
  have hcred : ¬(dCqen x = true ∧ s.credits (dCq x) = 0) := fun h => (hk h.1).2 h.2
  unfold State.dispatchFrom
  rw [if_neg hprod]
  simp only [if_neg hcred]
  refine if_neg fun h => ?_
  obtain hx | hx := hx
  · simp [hx] at h
  · exact h.2.1 hx

end

/-- The state with the descriptor taken. -/
def State.taken (s : State) (e : Eng) (q : Nat) (x : Item) : State :=
  ((s.readCell q 0).popCell q).onEng e fun en =>
    en.taking (roleOfCode (((s.readCell q 0).popCell q).fld F.Q_BIND.ROLE [q])) q x

theorem State.takeDescriptor_ends (hx : badCommand x = true) :
    s.takeDescriptor e q x = (s.taken e q x).launchFails e 3 0 := if_pos hx

theorem State.takeDescriptor_starts (hx : badCommand x = false) (hlen : bitsOf x 79 64 = 0) :
    s.takeDescriptor e q x = (s.taken e q x).launch e x :=
  (if_neg (by rw [hx]; decide)).trans (if_pos hlen)

theorem State.dispatchFrom_discards (hb : bit x 127 = true) (hp : s.producer (bitsOf x 124 112) ≠ .engine e.val) :
    s.dispatchFrom e q x = s.discardDescriptor e q x := if_pos ⟨hb, hp⟩

/-- Settles O20: the descriptor is looked at, taken or discarded, and its program started or ended. -/
theorem commandDispatch : Obligations.CommandDispatch := by
  unfold Obligations.CommandDispatch
  intro s e q rest c hd hl hq hc
  have hlooks := execCommandDispatch_looks hd hl hq hc
  refine ⟨fun hk => ⟨fun hx hlen => ⟨_, hlooks.trans (congrArg (fun t : State => Host.Outcome.next t.finish)
    ((State.dispatchFrom_takes hk (.inr hlen)).trans (State.takeDescriptor_starts hx hlen))), ?_, State.launch_evpend⟩, fun hx => ?_⟩, fun hb hp => ?_⟩
  · have h := State.launch_events (s := ((s.readCell q 0).popCell q).onEng e fun en =>
      en.taking (roleOfCode (((s.readCell q 0).popCell q).fld F.Q_BIND.ROLE [q])) q c.item) (e := e) (x := c.item)
    rwa [State.onEng_onEng] at h
  · refine hlooks.trans (congrArg (fun t : State => Host.Outcome.next t.finish) ?_)
    rw [State.dispatchFrom_takes hk (.inl hx), State.takeDescriptor_ends hx]
    rfl
  · exact hlooks.trans (congrArg (fun t : State => Host.Outcome.next t.finish) (State.dispatchFrom_discards hb hp))

end Sys2Proof.Machine
end

section
/-! SUPPORT. The refusals of an engine's own role check (R93, R94, R280), and O21. -/

namespace Sys2Proof.Machine

variable {s : State} {e : Eng} {rd ra : Gpr} {op32 : BitVec 32} {body : State → State} {k n : Nat} {v w : W64}

theorem State.denied_count : s.denied.fld F.SEC_STAT.DENIED = min (s.fld F.SEC_STAT.DENIED + 1) (2 ^ 32 - 1) := by
  have hlt : s.fld F.SEC_STAT.DENIED < 2 ^ 32 := bitsOf_lt _ _ _
  rw [State.denied, State.count, State.fld_put (by decide) (by decide)]
  show satAdd 32 (s.fld F.SEC_STAT.DENIED) 1 % 2 ^ 32 = _
  rw [satAdd]
  split <;> omega

/-- What follows a denial: the count, and the trap. -/
def State.Denies (s : State) (e : Eng) (c : Out) : Prop := ∃ u, c = .next u ∧
  OnlyEvents ((s.fetchedWord e).denied.spend.onEng e fun en =>
    en.trapped .roleDenied 0 false (Config.freeWord (s.fetchedWord e).denied.free) (en.pc.setWidth 64)) u

section
variable (hc : s.canIssue e = true) (hv : (s.eng e).tvecEn = true) (hi : (s.eng e).inTrap = false)
include hc hv hi

theorem issue_denies (hb : body (s.fetchedWord e) = (s.fetchedWord e).denyInstr e) : s.Denies e (issue e s body) := by
  have hends : (((s.fetchedWord e).denied.spend).eng e).trapEnds .roleDenied = false := by
    show ((s.fetchedWord e).eng e).trapEnds _ = _
    rw [State.fetchedWord_trapEnds]
    exact trapEnds_handled hv hi
  have h := State.takeTrap_enters (resp := 0) (i := false) (tval := Config.freeWord (s.fetchedWord e).denied.free)
    (tpc := (((s.fetchedWord e).denied.spend).eng e).pc64) hends
  rw [State.onEng_congr (g := fun en => en.trapped .roleDenied 0 false (Config.freeWord (s.fetchedWord e).denied.free)
    (en.pc.setWidth 64)) rfl] at h
  refine issue_gives hc (by rw [hb]; exact h) ?_
  rw [State.eng_onEng, Engine.trapped_state]
  decide

theorem split_denies (hr : (s.eng e).role = .operator) (hl : ∀ v, testLegal k v = true) :
    s.Denies e (issue e s fun s => s.split e rd ra k) := by
  refine issue_denies hc hv hi ?_
  unfold State.split
  dsimp only
  rw [if_neg (by simp [hl]), fetched_role, if_pos hr]

theorem srw_denies (hs : ∀ s : State, (s.special e n).isSome = true) (hr : srwRight n (s.eng e).role = false) {g : State → W64} :
    s.Denies e (issue e s fun s => s.srw e n (g s) w) := by
  refine issue_denies hc hv hi ?_
  rw [State.srw, if_neg (by rw [Option.isNone_iff_eq_none, ← Option.not_isSome_iff_eq_none, hs]; decide), fetched_role, hr]
  rfl

theorem execSrw_denies (hn : bitsOf op32 11 0 = n) (hs : ∀ s : State, (s.special e n).isSome = true)
    (hr : srwRight n (s.eng e).role = false) : s.Denies e (execSrw e ra op32 s) := by
  subst hn
  exact srw_denies hc hv hi hs hr

theorem execPwrSetCap_denies (hr : (s.eng e).role ≠ .installer) : s.Denies e (execPwrSetCap e rd ra s) := by
  refine issue_denies hc hv hi ?_
  rw [fetched_role, if_pos hr]

end

/-- Settles O21: every such check is made of the state after the fetch, and traps. -/
theorem roleDenials : Obligations.RoleDenials := by
  unfold Obligations.RoleDenials
  intro s e rd ra op32 hc hv hi
  simp only [Runs, Gives, exec]
  have hinst {n : Nat} (hn : n = 0x018 ∨ n = 0x031) (hr : (s.eng e).role ≠ .installer) : srwRight n (s.eng e).role = false := by
    obtain rfl | rfl := hn <;> exact beq_eq_false_iff_ne.mpr hr
  have hsome {n : Nat} (hn : n = 0x018 ∨ n = 0x031) (s : State) : (s.special e n).isSome = true := by
    obtain rfl | rfl := hn <;> rfl
  refine ⟨fun hr => ⟨split_denies hc hv hi hr fun _ => rfl, split_denies hc hv hi hr fun _ => rfl, split_denies hc hv hi hr fun _ => rfl,
    split_denies hc hv hi hr fun _ => rfl, split_denies hc hv hi hr fun _ => rfl,
    fun hn => execSrw_denies hc hv hi hn (fun _ => rfl) (by rw [hr]; rfl)⟩,
    fun hr => ⟨execPwrSetCap_denies hc hv hi hr, fun hn => execSrw_denies hc hv hi rfl (hsome hn) (hinst hn hr),
      srw_denies hc hv hi (hsome (.inr rfl)) (hinst (.inr rfl) hr), srw_denies hc hv hi (hsome (.inr rfl)) (hinst (.inr rfl) hr)⟩,
    State.denied_count⟩

end Sys2Proof.Machine
end

section
/-! SUPPORT. A command that is a write of one register, wherever the register stands: the way from the sender to the register's own
effect and back (R8, R9, R210, R216, R280, R287, R319). -/

namespace Sys2Proof.Machine

variable {s t u : State} {rq : Rq} {role : Role} {r : RegName} {ix : List Nat} {v : W64} {c : Instr} {x : Resp} {h : Half}
  {f : State → State} {a n : Nat}

/-! ### The block's answer and the sender's -/

section
variable (hc : CopyAt r ix) (hn : r ≠ .ROUTER_CFG) (hr : Reaches s rq role (r.addr ix))
  (hw : (s.touchGate (r.addr ix)).writeReg rq role r ix .full v = (x, u))
include hc hn hr hw

theorem CopyAt.serve_write : s.serve rq role .bus (.write (v.setWidth 2048)) (r.addr ix) 8 = State.countDenied (.done x 0, u) := by
  rw [hc.serve rfl hr.on hr.held, hc.serveReg_write hn hw]

theorem CopyAt.busReg_ok (hx : x = .ok) : s.busReg rq r ix v = (u.answer rq false .ok 0 0).finish := by
  subst hx
  have hserve := hc.serve_write hn hr hw
  rw [State.countDenied_of_ne (by decide)] at hserve
  simp [State.busReg, State.request, hr.role, hserve, State.respond]

theorem CopyAt.busReg_refused (hx : x ≠ .ok) (hd : x ≠ .roleDenied) : s.busReg rq r ix v = (u.answer rq false x 0 0).finish := by
  have hserve := hc.serve_write hn hr hw
  rw [State.countDenied_of_ne hd] at hserve
  simp [State.busReg, State.request, hr.role, hserve, State.respond, State.refuse, hx]

theorem CopyAt.busReg_denied (hx : x = .roleDenied) : s.busReg rq r ix v = (u.denied.answer rq false .roleDenied 0 0).finish := by
  subst hx
  have hserve : s.serve rq role .bus (.write (v.setWidth 2048)) (r.addr ix) 8 = (.done .roleDenied 0, u.denied) :=
    hc.serve_write hn hr hw
  simp [State.busReg, State.request, hr.role, hserve, State.respond, State.refuse]

end

/-! ### The register's effect and the block's answer -/

theorem State.slotDenies_of (hm : mailboxSlot r ix = none) : s.slotDenies rq r ix = false := by rw [State.slotDenies, hm]

section
variable (hright : s.writeRight role r ix h v = true) (hslot : s.slotDenies rq r ix = false)
include hright hslot

theorem State.writeReg_ok (he : s.writeEffect rq role r ix h v = (.ok, u)) : s.writeReg rq role r ix h v =
    (.ok, if s.writeRecorded r ix h v then u.recordWrite rq (r.addr ix) (s.reg r ix) (u.reg r ix) else u) := by
  rw [State.writeReg, if_neg (by simp [hright]), if_neg (by simp [hslot])]
  simp only [he]

theorem State.writeReg_no (he : s.writeEffect rq role r ix h v = (x, u)) (hx : x ≠ .ok) : s.writeReg rq role r ix h v = (x, u) := by
  rw [State.writeReg, if_neg (by simp [hright]), if_neg (by simp [hslot])]
  simp only [he]

end

theorem State.writeReg_denied (hright : s.writeRight role r ix h v = false) : s.writeReg rq role r ix h v = (.roleDenied, s) := by
  rw [State.writeReg, if_pos (by simp [hright])]

/-! ### The commands -/

/-- What every such command supposes: the copy, the sender, and the command's own write. -/
structure RegWrite (c : Instr) (s : State) (rq : Rq) (role : Role) (r : RegName) (ix : List Nat) (v : W64) : Prop where
  copy : CopyAt r ix
  atOnce : r ≠ .ROUTER_CFG
  reach : Reaches s rq role (r.addr ix)
  write : exec c s = .next (s.busReg rq r ix v)

/-- The register lies at its own address in every copy, and its writes take effect at once. -/
def ownCopies (r : RegName) : Bool := r != .POOL_BANK && r != .PACER && r != .ROUTER_CFG

theorem CopyAt.of_ownCopies (hr : ownCopies r = true) (hv : r.valid ix = true) : CopyAt r ix := by
  simp only [ownCopies, Bool.and_eq_true, bne_iff_ne] at hr
  obtain ⟨⟨hpool, hpacer⟩, -⟩ := hr
  refine ⟨hv, by simp [shadowed, hpool], ?_⟩
  unfold copyAssigned
  split
  · exact absurd rfl hpacer
  · rfl

theorem RegWrite.of_reaches (hown : ownCopies r = true) (hv : r.valid ix = true) (hr : Reaches s rq role (r.addr ix))
    (hw : exec c s = .next (s.busReg rq r ix v)) : RegWrite c s rq role r ix v :=
  ⟨.of_ownCopies hown hv, by simp_all [ownCopies], hr, hw⟩

section
variable (hc : RegWrite c s rq role r ix v) (ht : s.touchGate (r.addr ix) = t)
include hc ht

section
variable (hright : t.writeRight role r ix .full v = true) (hslot : t.slotDenies rq r ix = false)
include hright hslot

/-- The write is accepted, and the black box does not record it. -/
theorem RegWrite.writes (hrec : t.writeRecorded r ix .full v = false) (he : t.writeEffect rq role r ix .full v = (.ok, f t)) :
    Writes c s rq r ix f := by
  have hw := State.writeReg_ok hright hslot he
  rw [hrec] at hw
  rw [Writes, hc.write, hc.copy.busReg_ok hc.atOnce hc.reach (by rw [ht]; exact hw) rfl, ht]
  rfl

/-- The write is accepted and recorded. -/
theorem RegWrite.writesRecorded (hrec : t.writeRecorded r ix .full v = true)
    (he : t.writeEffect rq role r ix .full v = (.ok, f t)) : WritesRecorded c s rq r ix f := by
  have hw := State.writeReg_ok hright hslot he
  rw [hrec, if_pos rfl] at hw
  rw [WritesRecorded, Writes, hc.write, hc.copy.busReg_ok hc.atOnce hc.reach (by rw [ht]; exact hw) rfl, ht]

/-- The write is refused, and nothing is written. -/
theorem RegWrite.refuses (he : t.writeEffect rq role r ix .full v = (x, t)) (hx : x ≠ .ok) (hd : x ≠ .roleDenied) :
    RefusesWrite c s rq r ix x := by
  have hw := State.writeReg_no hright hslot he hx
  rw [RefusesWrite, hc.write, hc.copy.busReg_refused hc.atOnce hc.reach (by rw [ht]; exact hw) hx hd, ht]

/-- The register itself denies the write to the role. -/
theorem RegWrite.deniedByEffect (he : t.writeEffect rq role r ix .full v = (.roleDenied, t)) :
    exec c s = .next ((t.denied.answer rq false .roleDenied 0 0).finish) := by
  have hw := State.writeReg_no hright hslot he (by decide)
  rw [hc.write, hc.copy.busReg_denied hc.atOnce hc.reach (by rw [ht]; exact hw) rfl]

end

/-- The role may not make the write. -/
theorem RegWrite.denied (hright : t.writeRight role r ix .full v = false) :
    exec c s = .next ((t.denied.answer rq false .roleDenied 0 0).finish) := by
  rw [hc.write, hc.copy.busReg_denied hc.atOnce hc.reach (by rw [ht]; exact State.writeReg_denied hright) rfl]

end

/-! ### What a 64-bit write carries, and what it makes of a field -/

theorem Half.part_full : Half.full.part v = v := by
  rw [Half.part, show BitVec.ofNat 64 Half.full.mask = BitVec.allOnes 64 by decide, BitVec.and_allOnes]

theorem wrote_full {g : Fld} : wrote g .full v = (fieldIn g v != 0) := by rw [wrote, Half.part_full]

/-- Every bit of the field takes the value written. -/
def Fld.stored (g : Fld) : Bool :=
  (List.range 64).all fun i => !(decide (g.lo ≤ i) && decide (i ≤ g.hi)) ||
    ((g.reg.mask [.rw]).testBit i && !(g.reg.mask [.w1c]).testBit i)

/-- No bit of the field takes the value written. -/
def Fld.untouched (g : Fld) : Bool :=
  (List.range 64).all fun i => !(decide (g.lo ≤ i) && decide (i ≤ g.hi)) ||
    (!(g.reg.mask [.rw]).testBit i && !(g.reg.mask [.w1c]).testBit i)

theorem getLsbD_mergeWrite {old : W64} {i : Nat} (hi : i < 64) : (mergeWrite r .full old v).getLsbD i =
    ((if (r.mask [.rw]).testBit i then v.getLsbD i else old.getLsbD i) && !(v.getLsbD i && (r.mask [.w1c]).testBit i)) := by
  simp only [mergeWrite, full_mask, BitVec.getLsbD_and, BitVec.getLsbD_or, BitVec.getLsbD_not, BitVec.getLsbD_ofNat, hi, decide_true,
    Bool.true_and]
  cases (r.mask [.rw]).testBit i <;> simp

theorem fieldIn_congr {g : Fld} {x y : W64} (hn : g.hi < 64) (h : ∀ i, i < 64 → g.lo ≤ i → i ≤ g.hi → x.getLsbD i = y.getLsbD i) :
    fieldIn g x = fieldIn g y := by
  refine Nat.eq_of_testBit_eq fun i => ?_
  rw [fieldIn, fieldIn, testBit_bitsOf, testBit_bitsOf]
  by_cases hi : i < g.hi + 1 - g.lo
  · rw [h (g.lo + i) (by omega) (by omega) (by omega)]
  · simp [hi]

theorem fieldIn_mergeWrite_stored {g : Fld} {old : W64} (hg : g.stored = true) (hn : g.hi < 64) :
    fieldIn g (mergeWrite g.reg .full old v) = fieldIn g v := by
  refine fieldIn_congr hn fun i hi hlo hhi => ?_
  have hbits := List.all_eq_true.mp hg i (List.mem_range.mpr hi)
  simp only [hlo, hhi, decide_true, Bool.and_self, Bool.not_true, Bool.false_or, Bool.and_eq_true, Bool.not_eq_true'] at hbits
  rw [getLsbD_mergeWrite hi, hbits.1, hbits.2]
  simp

theorem fieldIn_mergeWrite_untouched {g : Fld} {old : W64} (hg : g.untouched = true) (hn : g.hi < 64) :
    fieldIn g (mergeWrite g.reg .full old v) = fieldIn g old := by
  refine fieldIn_congr hn fun i hi hlo hhi => ?_
  have hbits := List.all_eq_true.mp hg i (List.mem_range.mpr hi)
  simp only [hlo, hhi, decide_true, Bool.and_self, Bool.not_true, Bool.false_or, Bool.and_eq_true, Bool.not_eq_true'] at hbits
  rw [getLsbD_mergeWrite hi, hbits.1, hbits.2]
  simp

/-- A write that sets a W1S field stores the register as it stands. -/
theorem State.store_withSet {f : Fld} (hf : BitVec.ofNat 64 (2 ^ f.lo) &&& BitVec.ofNat 64 (f.reg.mask [.rw]) = 0#64)
    (hc : BitVec.ofNat 64 (f.reg.mask [.w1c]) = 0#64) :
    s.store f.reg ix .full (s.withSet f ix) = s.setReg f.reg ix (s.reg f.reg ix) := by
  rw [State.store, State.merged_withSet hf hc]

/-! ### Clock gates (R319) -/

/-- The block of the package that serves the register has no clock gate. -/
def ungatedPackage (r : RegName) : Bool :=
  decide (0x030000000000 ≤ r.place.1) && decide (r.place.1 + ixExt r.place.2 < 0x030001000000) &&
    (decide (r.place.1 + ixExt r.place.2 < 0x030000400000) || decide (0x030000500000 ≤ r.place.1))

/-- The block of each tower that serves the register has no clock gate. -/
def ungatedTower (r : RegName) : Bool :=
  match r.place.2 with
  | (st, k) :: l => st == 0x1000000 && k == 4 && decide (0x030001100000 ≤ r.place.1) && decide (r.place.1 < 0x030002000000) &&
      decide (r.place.1 % 0x100000 + ixExt l < 0x100000) && !([3, 6, 7, 8].contains (r.place.1 % 0x1000000 / 0x100000))
  | [] => false

theorem touchGate_none (h : gateOfAddr a = none) : s.touchGate a = s := by rw [State.touchGate, h]

theorem touchGate_package (hu : ungatedPackage r = true) (hv : r.valid ix = true) : s.touchGate (r.addr ix) = s := by
  simp only [ungatedPackage, Bool.and_eq_true, Bool.or_eq_true, decide_eq_true_eq] at hu
  have hb := RegName.addr_bounds hv
  refine touchGate_none ?_
  have hs : spaceOf (r.addr ix) = .register := by
    unfold spaceOf
    rw [if_neg (by omega), if_neg (by omega), if_neg (by omega), if_pos (by omega)]
  unfold gateOfAddr
  rw [hs, if_neg (by decide)]
  dsimp only
  rw [if_pos (by omega), if_neg (by omega)]

theorem touchGate_doorbell (hs : spaceOf (r.addr ix) = .doorbell) : s.touchGate (r.addr ix) = s := by
  refine touchGate_none ?_
  rw [gateOfAddr, hs]
  rfl

theorem touchGate_tower {i : Nat} {l : List Nat} (hu : ungatedTower r = true) (hv : r.valid (i :: l) = true) :
    s.touchGate (r.addr (i :: l)) = s := by
  refine touchGate_none ?_
  have heng := engineBlock_addr hv
  unfold ungatedTower at hu
  cases hp : r.place.2 with
  | nil => simp [hp] at hu
  | cons d ds =>
    obtain ⟨st, k⟩ := d
    rw [hp] at hu
    simp only [Bool.and_eq_true, decide_eq_true_eq, beq_iff_eq, and_assoc, Bool.not_eq_true', List.contains_eq_mem, List.mem_cons,
      List.not_mem_nil, or_false, decide_eq_false_iff_not, not_or] at hu
    obtain ⟨rfl, rfl, hlow, hhigh, hin, h3, h6, h7, h8⟩ := hu
    rw [RegName.valid, hp] at hv
    simp only [ixValid, Bool.and_eq_true, decide_eq_true_eq] at hv
    obtain ⟨hi, hl⟩ := hv
    have hoff := ixOffset_le hl
    have haddr : r.addr (i :: l) = r.place.1 + (0x1000000 * i + ixOffset ds l) := by rw [RegName.addr, hp, ixOffset]
    have hs : spaceOf (r.addr (i :: l)) = .register := by
      unfold spaceOf
      rw [haddr, if_neg (by omega), if_neg (by omega), if_neg (by omega), if_pos (by omega)]
    have hblock : (r.addr (i :: l) - 0x030000000000) % 0x1000000 / 0x100000 = r.place.1 % 0x1000000 / 0x100000 := by
      rw [haddr]
      omega
    unfold gateOfAddr
    rw [hs, if_neg (by decide)]
    dsimp only
    rw [if_neg (by rw [haddr]; omega), heng]
    dsimp only
    rw [hblock]
    split
    · exact absurd ‹_› h3
    · exact absurd ‹_› h6
    · exact absurd ‹_› h7
    · exact absurd ‹_› h8
    · rfl

/-! What an access does to a gated block's register file. -/

theorem pinDomain_le {o : Nat} (hi : r.valid ix = true) (hr : regAt (0x030000000000 + o / 8 * 8) = some (r, ix)) :
    2 ≤ pinDomain o ∧ pinDomain o < 6 := by
  unfold pinDomain
  rw [hr]
  cases ix with
  | nil => split <;> simp_all [pdBank]
  | cons i l =>
    have hfirst := valid_first hi
    split <;> simp_all only [pdBank, bankOfPin, pmuBank, ruBank, Option.some.injEq, Prod.mk.injEq, List.cons.injEq]
    all_goals
      simp only [RegName.place, List.headD_cons] at hfirst
      omega

theorem gateOfAddr_lt {i b : Nat} (hv : r.valid ix = true) (hs : shadowed r ix = false)
    (h : gateOfAddr (r.addr ix) = some (i, b)) : i < 4 ∧ b < 11 := by
  unfold gateOfAddr at h
  rw [engineBlock_addr hv] at h
  dsimp only at h
  by_cases hreg : spaceOf (r.addr ix) = .register
  · obtain ⟨hlow, hhigh⟩ := addr_register hv hreg
    rw [hreg, if_neg (by decide)] at h
    have hpin := pinDomain_le (o := r.addr ix - 0x030000000000) hv (by
      have := addr_words r ix
      rw [show 0x030000000000 + (r.addr ix - 0x030000000000) / 8 * 8 = r.addr ix by omega, regAt_addr hv hs])
    split at h
    · split at h
      · cases h
        omega
      · cases h
    · split at h
      case h_5 => cases h
      case h_3 =>
        cases h
        refine ⟨by omega, ?_⟩
        split <;> omega
      all_goals
        cases h
        omega
  · rw [if_pos (by simpa using hreg)] at h
    cases h

/-- `t` is `s` but for the clock gates' own registers. -/
structure GateOnly (s t : State) : Prop where
  reg : ∀ r ix, r.valid ix = true → r ≠ .GATE → t.reg r ix = s.reg r ix
  rest : t = { s with regs := t.regs }

theorem GateOnly.refl : GateOnly s s := ⟨fun _ _ _ _ => rfl, rfl⟩

theorem GateOnly.trans (h : GateOnly s t) (k : GateOnly t u) : GateOnly s u :=
  ⟨fun r ix hv hr => (k.reg r ix hv hr).trans (h.reg r ix hv hr), by rw [k.rest, h.rest]⟩

theorem GateOnly.fld {f : Fld} (h : GateOnly s t) (hv : f.reg.valid ix = true) (hr : f.reg ≠ .GATE) : t.fld f ix = s.fld f ix := by
  rw [State.fld, h.reg _ _ hv hr, State.fld]

section
variable {i b : Nat} (hi : i < 4) (hb : b < 11)
include hi hb

theorem GateOnly.put {f : Fld} (hf : f.reg = .GATE) : GateOnly s (s.put f n [i, b]) :=
  ⟨fun _ _ hv hr => State.reg_put_ne (by rw [hf]; exact Ne.symm hr)
    (by rw [hf]; simp [RegName.valid, RegName.place, ixValid, hi, hb]) hv, rfl⟩

theorem GateOnly.openGate : GateOnly s (s.openGate i b) :=
  (GateOnly.put hi hb rfl).trans ((GateOnly.put hi hb rfl).trans (.put hi hb rfl))

theorem GateOnly.followGate : GateOnly s (s.followGate i b) := by
  unfold State.followGate State.askClose
  split
  · exact .refl
  · split
    · exact .openGate hi hb
    · split
      · exact .put hi hb rfl
      · exact .refl

theorem GateOnly.gateAccess : GateOnly s (s.gateAccess i b) := by
  unfold State.gateAccess
  split
  · exact .refl
  · split
    · exact .openGate hi hb
    · exact (GateOnly.openGate hi hb).trans (.followGate hi hb)

end

theorem GateOnly.touchGate (hv : r.valid ix = true) (hs : shadowed r ix = false) : GateOnly s (s.touchGate (r.addr ix)) := by
  unfold State.touchGate
  split
  · next hg =>
    obtain ⟨hi, hb⟩ := gateOfAddr_lt hv hs hg
    exact .gateAccess hi hb
  · exact .refl

end Sys2Proof.Machine
end

section
/-! SUPPORT. Counters as an engine reads them, and the snapshot of all of them (R93, R152, R153), and O22. -/

namespace Sys2Proof.Machine

variable {s t : State} {e : Eng} {rd ra : Gpr} {op32 : BitVec 32} {u x : Fin 26} {n m : Fin 9} {rq : Rq} {role : Role} {k : Nat}

/-! ### Where a unit's counters stand -/

theorem cnt_place : spaceOf ((cntReg u).addr ((unitIx u).2 ++ [n.val])) = .register ∧
    regDomain ((cntReg u).addr ((unitIx u).2 ++ [n.val])) = unitDomain u ∧
    isMemLayer ((cntReg u).addr ((unitIx u).2 ++ [n.val])) = false ∧
    unitTower u = (if unitDomain u = 1 then none else some (regTower ((cntReg u).addr ((unitIx u).2 ++ [n.val])))) := by
  revert u n
  decide +kernel

theorem cnt_end : (endpointOf k ((cntReg u).addr ((unitIx u).2 ++ [n.val]))).dom = ((unitTower u).map pdNE).getD (unitDomain u) ∧
    (endpointOf k ((cntReg u).addr ((unitIx u).2 ++ [n.val]))).isMemLayer = false := by
  unfold endpointOf
  rw [cnt_place.1]
  dsimp only
  revert u n
  decide +kernel

theorem unitDomain_lt : unitDomain u < 64 := by
  revert u
  decide

/-- The unit answers: its domain is on, and so is the tower that holds it, which is not in reset. -/
structure UnitReach (s : State) (u : Fin 26) : Prop where
  on : s.fenced (unitDomain u) = false
  tower : ∀ t, unitTower u = some t → s.towerHeld t = false ∧ s.fenced (pdNE t) = false

section
variable (h : UnitReach s u)
include h

theorem UnitReach.fetched : UnitReach (s.fetchedWord e) u where
  on := by
    rw [State.fetchedWord_fenced unitDomain_lt]
    exact h.on
  tower t ht := by
    have hlt : pdNE t < 64 := by
      revert ht
      simp only [unitTower, pdNE]
      split_ifs <;> simp only [Option.some.injEq, false_implies] <;> omega
    rw [State.fetchedWord_towerHeld, State.fetchedWord_fenced hlt]
    exact h.tower t ht

theorem UnitReach.open : s.targetOff rq ((cntReg u).addr ((unitIx u).2 ++ [n.val])) = false := by
  obtain ⟨hs, hd, -, -⟩ := cnt_place (u := u) (n := n)
  obtain ⟨he, hl⟩ := cnt_end (u := u) (n := n) (k := towerOf rq)
  have hdom : addrDomain rq ((cntReg u).addr ((unitIx u).2 ++ [n.val])) = unitDomain u := by
    unfold addrDomain
    rw [hs]
    exact hd
  have hport : s.fenced (((unitTower u).map pdNE).getD (unitDomain u)) = false := by
    cases ht : unitTower u with
    | none => exact h.on
    | some t => exact (h.tower t ht).2
  rw [State.targetOff, hdom, portOf, State.portOff, hl, if_neg (by decide), State.portFenced, he, hport, h.on]
  simp

theorem UnitReach.unheld : s.targetHeld ((cntReg u).addr ((unitIx u).2 ++ [n.val])) = false := by
  obtain ⟨hs, hd, hm, ht⟩ := cnt_place (u := u) (n := n)
  unfold State.targetHeld
  rw [hs]
  dsimp only
  rw [hd, hm]
  split
  · rfl
  · next hne =>
    rw [if_neg fun h1 => hne (.inr (.inl h1))] at ht
    rw [(h.tower _ ht).1]
    rfl

end

/-! ### CNTRD -/

section
variable (hc : s.canIssue e = true) (h : UnitReach s u) (hu : ((s.eng e).get ra).toNat % 32 = u.val) (hn : op32.toNat % 16 = n.val)
include hc h hu hn

omit hc h in
theorem cntrd_form : bitsOf ((s.eng e).get ra) 4 0 = u.val ∧ bitsOf op32 3 0 = n.val ∧ ¬(25 < u.val ∨ 8 < n.val) := by
  refine ⟨by simpa [bitsOf] using hu, by simpa [bitsOf] using hn, by omega⟩

theorem execCntrd_reads (hp : (s.eng e).pc ≠ 0xFFF8) (hr : (s.fetchedWord e).unitReadable (s.eng e).role u = true) :
    ∃ y, execCntrd e rd ra op32 s = .next (s.afterWait e y) ∧
      OnlyEvents ((if (s.fetchedWord e).countsUnseen u n then (s.fetchedWord e).spend else s.fetchedWord e).waited e 4 fun en =>
        en.put rd ((s.fetchedWord e).counter u n)) y := by
  obtain ⟨hx, hy, hz⟩ := cntrd_form hu hn
  refine issue_answers hc hp ?_ (by split <;> rfl)
  dsimp only
  rw [State.fetchedWord_get, hx, hy, if_neg hz, fetched_role, hr, State.atBlock, h.fetched.open, h.fetched.unheld]
  rfl

omit h in
theorem execCntrd_denied (hv : (s.eng e).tvecEn = true) (hi : (s.eng e).inTrap = false)
    (hr : (s.fetchedWord e).unitReadable (s.eng e).role u = false) : s.Denies e (execCntrd e rd ra op32 s) := by
  obtain ⟨hx, hy, hz⟩ := cntrd_form hu hn
  refine issue_denies hc hv hi ?_
  dsimp only
  rw [State.fetchedWord_get, hx, hy, if_neg hz, fetched_role, hr]
  rfl

end

theorem fetched_unitReadable : (s.fetchedWord e).unitReadable role k = s.unitReadable role k := by
  rw [State.unitReadable, State.fetchedWord_fld (by decide) (by decide), State.unitReadable]

/-! ### The snapshot -/

/-- Every register but the shadows keeps its value. -/
structure ShadowsOnly (s t : State) : Prop where
  reg : ∀ r ix, r.valid ix = true → r ≠ .SHADOW_T → r ≠ .SHADOW_P → t.reg r ix = s.reg r ix
  rest : t = { s with regs := t.regs }

theorem ShadowsOnly.refl : ShadowsOnly s s := ⟨fun _ _ _ _ _ => rfl, rfl⟩

theorem ShadowsOnly.trans {v : State} (h : ShadowsOnly s t) (k : ShadowsOnly t v) : ShadowsOnly s v :=
  ⟨fun r ix hi ht hp => (k.reg r ix hi ht hp).trans (h.reg r ix hi ht hp), by rw [k.rest, h.rest]⟩

theorem shadow_valid : (shadowReg u).valid ((unitIx u).2 ++ [n.val]) = true ∧ (cntReg u).valid ((unitIx u).2 ++ [n.val]) = true := by
  revert u n
  decide +kernel

theorem shadowReg_eq : shadowReg u = .SHADOW_T ∨ shadowReg u = .SHADOW_P := by
  unfold shadowReg
  split
  · exact .inl rfl
  · exact .inr rfl

theorem shadow_inj : shadowReg u = shadowReg x → (unitIx u).2 = (unitIx x).2 → u = x := by
  revert u x
  decide +kernel

theorem ShadowsOnly.setShadow {v : W64} : ShadowsOnly s (s.setReg (shadowReg u) ((unitIx u).2 ++ [n.val]) v) := by
  refine ⟨fun r ix hi ht hp => State.reg_setReg_ne ?_ (shadow_valid (u := u) (n := n)).1 hi, rfl⟩
  obtain h | h := shadowReg_eq (u := u)
  · rw [h]
    exact Ne.symm ht
  · rw [h]
    exact Ne.symm hp

theorem shadow_set {v : W64} : (s.setReg (shadowReg u) ((unitIx u).2 ++ [n.val]) v).reg (shadowReg x) ((unitIx x).2 ++ [m.val]) =
    if u = x ∧ n = m then v else s.reg (shadowReg x) ((unitIx x).2 ++ [m.val]) := by
  by_cases h : u = x ∧ n = m
  · obtain ⟨rfl, rfl⟩ := h
    rw [if_pos ⟨rfl, rfl⟩, State.reg_setReg]
  · rw [if_neg h]
    by_cases hr : shadowReg u = shadowReg x
    · rw [← hr]
      refine State.reg_setReg_ix (fun he => h ?_) (shadow_valid (u := u) (n := n)).1 (by rw [hr]; exact (shadow_valid (u := x) (n := m)).1)
      obtain ⟨hix, hn⟩ := List.append_inj' he rfl
      exact ⟨shadow_inj hr hix, Fin.ext (List.singleton_inj.mp hn)⟩
    · exact State.reg_setReg_ne hr (shadow_valid (u := u) (n := n)).1 (shadow_valid (u := x) (n := m)).1

/-- The registers that a counter's reading rests on: all of them valid, none of them a shadow. -/
theorem unit_fields : (unitFields (unitIx u).1).cycEn.reg.valid (unitIx u).2 = true ∧
    (unitFields (unitIx u).1).en.reg.valid (unitIx u).2 = true ∧
    (∀ i : Fin 8, (unitFields (unitIx u).1).event.reg.valid ((unitIx u).2 ++ [i.val]) = true) ∧
    [(unitFields (unitIx u).1).cycEn.reg, (unitFields (unitIx u).1).en.reg, (unitFields (unitIx u).1).event.reg, cntReg u].all
      (fun r => r != .SHADOW_T && r != .SHADOW_P) = true := by
  revert u
  decide +kernel

section
variable (h : ShadowsOnly s t)
include h

theorem ShadowsOnly.fld {f : Fld} {ix : List Nat} (hv : f.reg.valid ix = true) (hne : (f.reg != .SHADOW_T && f.reg != .SHADOW_P) = true) :
    t.fld f ix = s.fld f ix := by
  simp only [Bool.and_eq_true, bne_iff_ne] at hne
  rw [State.fld, h.reg _ _ hv hne.1 hne.2, State.fld]

theorem ShadowsOnly.counter : t.counter u n = s.counter u n := by
  obtain ⟨hcyc, hen, hev, hne⟩ := unit_fields (u := u)
  rw [List.all_eq_true] at hne
  have hcyc' := hne _ (.head _)
  have hen' := hne _ (.tail _ (.head _))
  have hev' := hne _ (.tail _ (.tail _ (.head _)))
  have hcnt' := hne _ (.tail _ (.tail _ (.tail _ (.head _))))
  have hunseen : t.countsUnseen u n = s.countsUnseen u n := by
    unfold State.countsUnseen
    dsimp only
    split
    · rw [State.flag, h.fld hcyc hcyc', State.flag]
    · next i hi =>
      have hi8 : i < 8 := by have := n.isLt; omega
      rw [h.fld hen hen', h.fld (hev ⟨i, hi8⟩) hev']
  simp only [Bool.and_eq_true, bne_iff_ne] at hcnt'
  have hfree : t.free = s.free := by rw [h.rest]
  rw [State.counter, hunseen, hfree, h.reg _ _ (shadow_valid (u := u) (n := n)).2 hcnt'.1 hcnt'.2, State.counter]

theorem ShadowsOnly.pd (hk : k < 64) : t.pd k = s.pd k :=
  h.fld (by simp [RegName.valid, RegName.place, ixValid, F.PD_STAT.NOW, hk]) (by decide)

end

/-- The first `k` counters of a unit go into its shadows. -/
def State.shadowCounts (s : State) (u k : Nat) : State :=
  (List.range k).foldl (fun s n => s.setReg (shadowReg u) ((unitIx u).2 ++ [n]) (s.counter u n)) s

theorem shadowCounts_spec (hk : k ≤ 9) : ShadowsOnly s (s.shadowCounts u k) ∧ ∀ x : Fin 26, ∀ m : Fin 9,
    (s.shadowCounts u k).reg (shadowReg x) ((unitIx x).2 ++ [m.val]) =
      if u = x ∧ m.val < k then s.counter u m else s.reg (shadowReg x) ((unitIx x).2 ++ [m.val]) := by
  induction k with
  | zero => exact ⟨.refl, fun x m => (if_neg fun h => Nat.not_lt_zero _ h.2).symm⟩
  | succ k ih =>
    obtain ⟨honly, hregs⟩ := ih (by omega)
    have hstep : s.shadowCounts u (k + 1) = (s.shadowCounts u k).setReg (shadowReg u) ((unitIx u).2 ++ [k])
        ((s.shadowCounts u k).counter u k) := by
      rw [State.shadowCounts, List.range_succ, List.foldl_append]
      rfl
    have hval : (s.shadowCounts u k).counter u k = s.counter u k := honly.counter (n := ⟨k, by omega⟩)
    rw [hstep, hval]
    refine ⟨honly.trans (.setShadow (n := ⟨k, by omega⟩)), fun x m => ?_⟩
    rw [shadow_set (n := ⟨k, by omega⟩), hregs]
    by_cases hx : u = x
    · by_cases hm : k = m.val
      · rw [if_pos ⟨hx, Fin.ext hm⟩, if_pos ⟨hx, by omega⟩, hm]
      · rw [if_neg fun h => hm (congrArg Fin.val h.2)]
        by_cases hlt : m.val < k
        · rw [if_pos ⟨hx, hlt⟩, if_pos ⟨hx, by omega⟩]
        · rw [if_neg fun h => hlt h.2, if_neg fun h => hlt (by omega)]
    · rw [if_neg fun h => hx h.1, if_neg fun h => hx h.1, if_neg fun h => hx h.1]

/-- The counters of the first `k` units that are on go into their shadows. -/
def State.shadowUnits (s : State) (k : Nat) : State :=
  (List.range k).foldl (fun s u =>
    if s.pd (unitDomain u) = 1 ∨ s.pd (unitDomain u) = 2 then s.shadowCounts u 9 else s) s

theorem shadowUnits_spec (hk : k ≤ 26) : ShadowsOnly s (s.shadowUnits k) ∧ ∀ x : Fin 26, ∀ m : Fin 9,
    (s.shadowUnits k).reg (shadowReg x) ((unitIx x).2 ++ [m.val]) =
      if x.val < k ∧ (s.pd (unitDomain x) = 1 ∨ s.pd (unitDomain x) = 2) then s.counter x m
      else s.reg (shadowReg x) ((unitIx x).2 ++ [m.val]) := by
  induction k with
  | zero => exact ⟨.refl, fun x m => (if_neg fun h => Nat.not_lt_zero _ h.1).symm⟩
  | succ k ih =>
    obtain ⟨honly, hregs⟩ := ih (by omega)
    obtain ⟨u, hu⟩ : ∃ u : Fin 26, u.val = k := ⟨⟨k, by omega⟩, rfl⟩
    have hpd : (s.shadowUnits k).pd (unitDomain u) = s.pd (unitDomain u) := honly.pd unitDomain_lt
    have hstep : s.shadowUnits (k + 1) = if s.pd (unitDomain u) = 1 ∨ s.pd (unitDomain u) = 2
        then (s.shadowUnits k).shadowCounts u 9 else s.shadowUnits k := by
      rw [State.shadowUnits, List.range_succ, List.foldl_append, ← hpd, ← hu]
      rfl
    obtain ⟨hcounts, hshadow⟩ := shadowCounts_spec (s := s.shadowUnits k) (u := u) (le_refl 9)
    rw [hstep]
    by_cases hon : s.pd (unitDomain u) = 1 ∨ s.pd (unitDomain u) = 2
    · rw [if_pos hon]
      refine ⟨honly.trans hcounts, fun x m => ?_⟩
      rw [hshadow, hregs, honly.counter]
      by_cases hx : u = x
      · subst hx
        rw [if_pos ⟨rfl, m.isLt⟩, if_pos ⟨by omega, hon⟩]
      · have hne : x.val ≠ k := fun h => hx (Fin.ext (hu.trans h.symm))
        rw [if_neg fun h => hx h.1]
        by_cases hlt : x.val < k ∧ (s.pd (unitDomain x) = 1 ∨ s.pd (unitDomain x) = 2)
        · rw [if_pos hlt, if_pos ⟨by omega, hlt.2⟩]
        · rw [if_neg hlt, if_neg fun h => hlt ⟨by omega, h.2⟩]
    · rw [if_neg hon]
      refine ⟨honly, fun x m => ?_⟩
      rw [hregs]
      by_cases hx : x.val = k
      · have hux : u = x := Fin.ext (hu.trans hx.symm)
        rw [if_neg fun h => by omega, if_neg fun h => hon (hux ▸ h.2)]
      · by_cases hlt : x.val < k ∧ (s.pd (unitDomain x) = 1 ∨ s.pd (unitDomain x) = 2)
        · rw [if_pos hlt, if_pos ⟨by omega, hlt.2⟩]
        · rw [if_neg hlt, if_neg fun h => hlt ⟨by omega, h.2⟩]

theorem State.snapshot_eq : s.snapshot = (s.shadowUnits 26).spend := rfl

theorem State.writeSnap_snapshot : s.writeSnap .full (s.withSet F.COUNTER_SNAP.SNAP []) =
    (.ok, (s.setReg .COUNTER_SNAP [] (s.reg .COUNTER_SNAP)).snapshot) := by
  have hmerged : s.merged .COUNTER_SNAP [] .full (s.withSet F.COUNTER_SNAP.SNAP []) = s.reg .COUNTER_SNAP :=
    State.merged_withSet (f := F.COUNTER_SNAP.SNAP) (by decide) (by decide)
  have hwrote : wrote F.COUNTER_SNAP.SNAP .full (s.withSet F.COUNTER_SNAP.SNAP []) = true :=
    State.wrote_withSet (by decide) (by decide)
  rw [State.writeSnap, State.store, hmerged]
  exact congrArg (Prod.mk Resp.ok) (if_pos hwrote)

/-- A register written with its own value: nothing that is read changes. -/
theorem ShadowsOnly.setReg_same {r : RegName} {ix : List Nat} (hv : r.valid ix = true) : ShadowsOnly s (s.setReg r ix (s.reg r ix)) := by
  refine ⟨fun r' ix' hv' _ _ => ?_, rfl⟩
  by_cases h : r = r' ∧ ix = ix'
  · obtain ⟨rfl, rfl⟩ := h
    exact State.reg_setReg
  · by_cases hr : r = r'
    · subst hr
      exact State.reg_setReg_ix (fun hi => h ⟨rfl, hi⟩) hv hv'
    · exact State.reg_setReg_ne hr hv hv'

theorem exec_snap (hr : Reaches s rq role (RegName.COUNTER_SNAP.addr [])) (hrole : role ≠ .operator) :
    Writes (.snap rq) s rq .COUNTER_SNAP [] fun _ => (s.setReg .COUNTER_SNAP [] (s.reg .COUNTER_SNAP)).snapshot := by
  have hc : RegWrite (.snap rq) s rq role .COUNTER_SNAP [] (s.withSet F.COUNTER_SNAP.SNAP []) :=
    .of_reaches (by decide) (by decide) hr rfl
  refine hc.writes (touchGate_package (by decide) (by decide)) ?_ rfl rfl State.writeSnap_snapshot
  simp [State.writeRight, hrole]

/-- Settles O22. The counters of the units that are on are copied one by one: none of the copies changes a counter still to be
copied, for a counter's value rests on no shadow. -/
theorem counters : Obligations.Counters := by
  unfold Obligations.Counters
  refine ⟨fun s e rd ra u n op32 hc hp hu hn hon htower => ?_, fun s rq role hr hrole => ?_⟩
  · have hreach : UnitReach s u := ⟨hon, htower⟩
    have hread := fun h => execCntrd_reads (rd := rd) hc hreach hu hn hp (fetched_unitReadable.trans h)
    refine ⟨fun h => hread (by simp [State.unitReadable, h]), fun _ h => hread (by simp [State.unitReadable, h]), fun hop h hv hi => ?_⟩
    exact execCntrd_denied hc hu hn hv hi (fetched_unitReadable.trans (by simp [State.unitReadable, hop, h]))
  · have hsame : ShadowsOnly s (s.setReg .COUNTER_SNAP [] (s.reg .COUNTER_SNAP)) := .setReg_same (by decide)
    obtain ⟨honly, hshadow⟩ := shadowUnits_spec (s := s.setReg .COUNTER_SNAP [] (s.reg .COUNTER_SNAP)) (le_refl 26)
    have hall := hsame.trans honly
    refine ⟨_, exec_snap hr hrole, fun x n => ?_, hall.reg, ?_⟩
    · have hshadows : (s.setReg .COUNTER_SNAP [] (s.reg .COUNTER_SNAP)).reg (shadowReg x) ((unitIx x).2 ++ [n.val]) =
          s.reg (shadowReg x) ((unitIx x).2 ++ [n.val]) := by
        refine State.reg_setReg_ne (fun h => ?_) (by decide) shadow_valid.1
        obtain hx | hx := shadowReg_eq (u := x)
        all_goals
          rw [hx] at h
          cases h
      rw [State.snapshot_eq]
      refine (hshadow x n).trans ?_
      rw [hsame.pd unitDomain_lt, hsame.counter, hshadows]
      simp [x.isLt]
    · rw [State.snapshot_eq]
      exact congrArg State.spend hall.rest

end Sys2Proof.Machine
end

section
/-! Bank owners and error logs (R161, R162, R169 to R171): O24. -/

namespace Sys2Proof.Machine

variable {s : State} {rq : Rq} {role : Role} {t : Tower} {b : Fin 256} {word : Fin 262144} {v : W64} {a x : Nat}

/-! ### Handing a bank over -/

theorem eccCtrl_valid : RegName.ECC_CTRL.valid [t.val] = true := by
  simp [RegName.valid, RegName.place, ixValid]

section
variable (hr : Reaches s rq role (RegName.BANK_OWNER.addr [t.val, b.val]))
include hr

theorem bankOwner_write : RegWrite (.bankOwner rq t b v) s rq role .BANK_OWNER [t.val, b.val] v :=
  .of_reaches (by decide) (bankOwner_valid t.isLt b.isLt) hr rfl

theorem bankOwner_writes {f : State → State} (he : s.writeBankOwner t b .full v = (.ok, f s)) :
    Writes (.bankOwner rq t b v) s rq .BANK_OWNER [t.val, b.val] f :=
  (bankOwner_write hr).writes (touchGate_tower (by decide) (bankOwner_valid t.isLt b.isLt)) rfl rfl rfl he

theorem bankOwner_refuses (he : s.writeBankOwner t b .full v = (.bankNotOwned, s)) :
    RefusesWrite (.bankOwner rq t b v) s rq .BANK_OWNER [t.val, b.val] .bankNotOwned :=
  (bankOwner_write hr).refuses (touchGate_tower (by decide) (bankOwner_valid t.isLt b.isLt)) rfl rfl he (by decide) (by decide)

end

/-- What the write names: the kind of owner, and the engine where the owner is one. -/
theorem bankOwner_named : fieldIn F.BANK_OWNER.KIND (s.merged .BANK_OWNER [t.val, b.val] .full v) = fieldIn F.BANK_OWNER.KIND v ∧
    fieldIn F.BANK_OWNER.ENGINE (s.merged .BANK_OWNER [t.val, b.val] .full v) = fieldIn F.BANK_OWNER.ENGINE v :=
  ⟨fieldIn_mergeWrite_stored (g := F.BANK_OWNER.KIND) (by decide) (by decide),
    fieldIn_mergeWrite_stored (g := F.BANK_OWNER.ENGINE) (by decide) (by decide)⟩

/-! ### Error logs -/

theorem exec_eccClear (hr : Reaches s rq role (RegName.ECC_CTRL.addr [t.val])) :
    Writes (.eccClear rq t) s rq .ECC_CTRL [t.val] fun g =>
      (((g.setReg .ECC_CTRL [t.val] (g.reg .ECC_CTRL [t.val])).put F.ECC_STAT.COUNT 0 [t.val]).put
        F.ECC_STAT.OVERRUN 0 [t.val]).put F.ECC_STAT.FROZEN 0 [t.val] := by
  have hc : RegWrite (.eccClear rq t) s rq role .ECC_CTRL [t.val] (s.withSet F.ECC_CTRL.CLEAR [t.val]) :=
    .of_reaches (by decide) eccCtrl_valid hr rfl
  refine hc.writes (touchGate_tower (by decide) eccCtrl_valid) rfl rfl rfl ?_
  have hstore : s.store .ECC_CTRL [t.val] .full (s.withSet F.ECC_CTRL.CLEAR [t.val]) =
      s.setReg .ECC_CTRL [t.val] (s.reg .ECC_CTRL [t.val]) := State.store_withSet (f := F.ECC_CTRL.CLEAR) (by decide) (by decide)
  have hclear : wrote F.ECC_CTRL.CLEAR .full (s.withSet F.ECC_CTRL.CLEAR [t.val]) = true :=
    State.wrote_withSet (by decide) (by decide)
  have hcount (g : State) : ((g.put F.ECC_STAT.COUNT 0 [t.val]).put F.ECC_STAT.OVERRUN 0 [t.val]).fld F.ECC_STAT.COUNT [t.val] = 0 := by
    rw [State.fld_put_field (f := F.ECC_STAT.OVERRUN) (f' := F.ECC_STAT.COUNT) rfl (by decide) (by decide) (by decide),
      State.fld_put (f := F.ECC_STAT.COUNT) (by decide) (by decide)]
    rfl
  show s.writeEccCtrl t.val .full _ = _
  rw [State.writeEccCtrl, hstore, hclear, if_pos rfl, State.eccFrozen, hcount]
  rfl

/-! ### The write-back of a corrected word -/

section
variable (hs : s.memSoftAt a = true)
include hs

theorem State.eccRewrite_soft : s.eccRewrite a = { s.newWord a with
      memSoft := if s.standinServes (memTower a) (memBank a) then s.memSoft else listDrop s.memSoft (a / 16)
      standinSoft := if s.standinServes (memTower a) (memBank a) then
          listDrop s.standinSoft (standinKey (memTower a) (memBank a) (memWord a)) else s.standinSoft } := by
  rw [State.eccRewrite, if_pos hs]

theorem State.standinServes_eccRewrite {i k : Nat} : (s.eccRewrite a).standinServes i k = s.standinServes i k := by
  rw [State.eccRewrite_soft hs]
  rfl

theorem State.memSoftAt_eccRewrite : (s.eccRewrite a).memSoftAt x = (s.memSoftAt x && x / 16 != a / 16) := by
  rw [State.memSoftAt, State.standinServes_eccRewrite hs, State.eccRewrite_soft hs, State.memSoftAt]
  dsimp only
  by_cases hx : x / 16 = a / 16
  · have hplace : memTower x = memTower a ∧ memBank x = memBank a ∧ memWord x = memWord a := by
      unfold memTower memBank memWord
      omega
    obtain ⟨ht, hb, hw⟩ := hplace
    rw [ht, hb, hw, hx]
    split <;> simp only [not_mem_listDrop, bne_self_eq_false, Bool.and_false]
  · have hne : (x / 16 != a / 16) = true := by simpa using hx
    rw [hne, Bool.and_true]
    by_cases ha : s.standinServes (memTower a) (memBank a) = true
    · rw [if_pos ha, if_pos ha]
      split
      · next h =>
        exact mem_listDrop_ne (standinKey_ne hx (State.standinFor_of_serves h) (State.standinFor_of_serves ha))
      · rfl
    · rw [if_neg ha, if_neg ha, mem_listDrop_ne hx]

end

theorem exec_eccWriteBack (ha : a = bankBase t b + 16 * word.val) : Completes id (.eccWriteBack t b word) s fun u =>
    u.memSoftAt a = false ∧ (∀ x, x / 16 ≠ a / 16 → u.memSoftAt x = s.memSoftAt x) ∧
      (∀ x, u.memWordAt x = s.memWordAt x ∧ u.memBadAt x = s.memBadAt x) ∧
      u = { s with memSoft := u.memSoft, standinSoft := u.standinSoft, syndromes := u.syndromes } := by
  subst ha
  refine ⟨s.eccRewrite (bankBase t b + 16 * word.val), rfl, ?_⟩
  by_cases hs : s.memSoftAt (bankBase t b + 16 * word.val) = true
  · refine ⟨by simp [State.memSoftAt_eccRewrite hs], fun x hx => ?_, fun x => ?_, ?_⟩
    · simp [State.memSoftAt_eccRewrite hs, hx]
    · rw [State.eccRewrite_soft hs]
      exact ⟨rfl, rfl⟩
    · rw [State.eccRewrite_soft hs]
      rfl
  · have hsame : s.eccRewrite (bankBase t b + 16 * word.val) = s := if_neg hs
    rw [hsame]
    exact ⟨by simpa using hs, fun _ _ => rfl, fun _ => ⟨rfl, rfl⟩, rfl⟩

/-- Settles O24. -/
theorem bankCommands : Obligations.BankCommands := by
  unfold Obligations.BankCommands
  intro s rq role t b word v
  obtain ⟨hkind, heng⟩ := bankOwner_named (s := s) (t := t) (b := b) (v := v)
  have heffect := State.writeBankOwner.eq_1 s t b .full v
  rw [hkind, heng] at heffect
  refine ⟨fun hr => ⟨fun h => ?_, fun hp h => ?_, fun hp h hfree => ?_⟩, exec_eccClear, rfl, exec_eccWriteBack rfl⟩
  · refine bankOwner_refuses hr (heffect.trans ?_)
    split
    · rfl
    · next hp =>
      obtain ⟨hne, huse⟩ := h.resolve_left hp
      rw [if_neg (by rwa [not_and_or]), if_pos huse]
  · refine bankOwner_writes hr (heffect.trans ?_)
    rw [if_neg (by simp [hp]), if_pos (by rwa [not_or, not_ne_iff, not_ne_iff] at h)]
    rfl
  · refine bankOwner_writes hr (heffect.trans ?_)
    rw [if_neg (by simp [hp]), if_neg (by rwa [not_and_or]), if_neg hfree]
    rfl

end Sys2Proof.Machine
end

section
/-! The doorbell page and the binding of queues (R184, R185, R189, R193 to R196): O25 and O26. -/

namespace Sys2Proof.Machine

variable {s : State} {rq : Rq} {role : Role} {q : Qn} {item : Item} {v : W64} {r : RegName} {f : State → State}

/-! ### The push window -/

theorem window_space : spaceOf (doorbellBase + q.val * 0x1000) = .doorbell := by
  have := q.isLt
  unfold spaceOf doorbellBase
  rw [if_neg (by omega), if_neg (by omega), if_neg (by omega), if_neg (by omega), if_pos (by omega)]

theorem window_push {m : Module} {i : Fin 16} {op : Payload} (hh : rq.agent = .host m i) :
    isPush rq (.posted op) (doorbellBase + q.val * 0x1000) 64 = true := by
  have : (doorbellBase + q.val * 0x1000) % 0x1000 = 0 := by
    unfold doorbellBase
    omega
  simp [isPush, isHost, hh, this]

theorem window_queue : (doorbellBase + q.val * 0x1000 - doorbellBase) / 0x1000 = q.val := by omega

section
variable {m : Module} {i : Fin 16} (hh : rq.agent = .host m i) (hr : Reaches s rq role (doorbellBase + q.val * 0x1000))
include hh hr

theorem serve_push : s.serve rq role .bus (.posted (item.setWidth 2048)) (doorbellBase + q.val * 0x1000) 64 =
    State.countDenied (.done (s.pushWindow role q item).1 0, (s.pushWindow role q item).2) := by
  have hpush : isPush rq (.posted (item.setWidth 2048)) (doorbellBase + q.val * 0x1000) 64 = true := window_push hh
  have hitem : (item.setWidth 2048).setWidth 512 = item := by
    rw [BitVec.setWidth_setWidth_of_le _ (by decide), BitVec.setWidth_eq]
  have harrive : s.arrive rq role .bus (.posted (item.setWidth 2048)) (doorbellBase + q.val * 0x1000) 64 = none := by
    simp [State.arrive, formRefusal, Machine.assigned, window_space, hpush, hr.on]
  rw [State.serve, harrive]
  simp only [State.serveOn, hr.held, State.serveNow, window_space, hpush, State.servePush, window_queue, ReqOp.data, hitem,
    Bool.false_eq_true, if_false, if_true]

theorem exec_push {u : State} (hw : s.pushWindow role q item = (.ok, u)) : exec (.push rq q item) s = .next u.finish := by
  have hserve := serve_push (item := item) hh hr
  rw [hw, State.countDenied_of_ne (show Resp.ok ≠ .roleDenied by decide)] at hserve
  have hpush : exec (.push rq q item) s =
      .next (s.request rq (.posted (item.setWidth 2048)) (doorbellBase + q.val * 0x1000) 64).finish := rfl
  simp [hpush, State.request, hr.role, hserve, State.respond]

end

/-! ### The registers of the page -/

/-- The registers of the doorbell page. -/
def pageRegs : List RegName := [.DB_CREDIT, .DB_RING_PI, .DB_RING_CI]

theorem pageReg_valid (hm : r ∈ pageRegs) : r.valid [q.val] = true := by
  fin_cases hm <;> simp [RegName.valid, RegName.place, ixValid]

theorem pageReg_space (hm : r ∈ pageRegs) : spaceOf (r.addr [q.val]) = .doorbell := by
  have hplace : ∀ r ∈ pageRegs, 0x040000000000 ≤ r.place.1 ∧ r.place.1 + ixExt r.place.2 < 0x040002000000 := by decide
  obtain ⟨hlow, hhigh⟩ := hplace r hm
  obtain ⟨hfirst, hlast⟩ := RegName.addr_bounds (pageReg_valid (q := q) hm)
  unfold spaceOf
  rw [if_neg (by omega), if_neg (by omega), if_neg (by omega), if_neg (by omega), if_pos (by omega)]

theorem pageReg_plain (hm : r ∈ pageRegs) : ownCopies r = true ∧ s.writeRight role r [q.val] .full v = true ∧
    s.slotDenies rq r [q.val] = false ∧ s.writeRecorded r [q.val] .full v = false ∧
    s.writeEffect rq role r [q.val] .full v = s.writeQueueReg role r [q.val] .full v := by
  fin_cases hm <;> exact ⟨rfl, rfl, rfl, rfl, rfl⟩

section
variable {c : Instr} {x : Resp} (hm : r ∈ pageRegs) (hr : Reaches s rq role (r.addr [q.val]))
  (hc : exec c s = .next (s.busReg rq r [q.val] v))
include hm hr hc

theorem pageReg_write : RegWrite c s rq role r [q.val] v :=
  .of_reaches (pageReg_plain (s := s) (rq := rq) (role := role) (q := q) (v := v) hm).1 (pageReg_valid hm) hr hc

theorem pageReg_writes (he : s.writeQueueReg role r [q.val] .full v = (.ok, f s)) : Writes c s rq r [q.val] f := by
  obtain ⟨-, hright, hslot, hrecord, heffect⟩ := pageReg_plain (s := s) (rq := rq) (role := role) (q := q) (v := v) hm
  exact (pageReg_write hm hr hc).writes (touchGate_doorbell (pageReg_space hm)) hright hslot hrecord (heffect.trans he)

theorem pageReg_refuses (he : s.writeQueueReg role r [q.val] .full v = (x, s)) (hx : x ≠ .ok) (hd : x ≠ .roleDenied) :
    RefusesWrite c s rq r [q.val] x := by
  obtain ⟨-, hright, hslot, hrecord, heffect⟩ := pageReg_plain (s := s) (rq := rq) (role := role) (q := q) (v := v) hm
  exact (pageReg_write hm hr hc).refuses (touchGate_doorbell (pageReg_space hm)) hright hslot (heffect.trans he) hx hd

end

theorem bitsOf_word : bitsOf v 31 0 = v.toNat % 2 ^ 32 := by rw [bitsOf, Nat.shiftRight_zero]

/-- Settles O25. -/
theorem doorbellCommands : Obligations.DoorbellCommands := by
  unfold Obligations.DoorbellCommands
  refine fun s rq role q item v => ⟨fun m i hh hr hprod hallowed => ?_, fun hprod hr => ?_, fun hprod hr => ?_, fun hr => ?_, fun hr => ?_⟩
  · have hrole : ¬(s.flag F.Q_BIND.CMD [q.val] = true ∧ s.fld F.Q_BIND.ROLE [q.val] ≠ roleCode role) := fun h => h.2 (hallowed h.1)
    refine ⟨fun h => exec_push hh hr ?_, fun h => exec_push hh hr ?_⟩
    · rw [State.pushWindow, if_neg (by simp [hprod]), if_neg hrole, if_neg h]
    · rw [State.pushWindow, if_neg (by simp [hprod]), if_neg hrole, if_pos h]
      rfl
  · refine pageReg_writes (by decide) hr rfl ?_
    show s.writeCredit q.val .full v = _
    rw [State.writeCredit, if_neg (by simp [hprod]), Half.part_full]
    rfl
  · refine pageReg_refuses (by decide) hr rfl ?_ (by decide) (by decide)
    show s.writeCredit q.val .full v = _
    rw [State.writeCredit, if_pos hprod]
  · refine pageReg_writes (by decide) hr rfl ?_
    show s.writeRingPi q.val .full v = _
    rw [State.writeRingPi, if_neg (by decide), bitsOf_word]
    exact (apply_ite (Prod.mk Resp.ok) _ _ _).symm
  · refine pageReg_writes (by decide) hr rfl ?_
    show s.writeRingCi q.val .full v = _
    rw [State.writeRingCi, if_neg (by decide), bitsOf_word]
    exact (apply_ite (Prod.mk Resp.ok) _ _ _).symm

/-! ### Binding a queue -/

theorem qBind_valid : RegName.Q_BIND.valid [q.val] = true := by simp [RegName.valid, RegName.place, ixValid]

section
variable (hr : Reaches s rq role (RegName.Q_BIND.addr [q.val]))
include hr

theorem qBind_write : RegWrite (.qBind rq q v) s rq role .Q_BIND [q.val] v := .of_reaches (by decide) qBind_valid hr rfl

theorem qBind_refuses {x : Resp} (he : s.writeQBind role q .full v = (x, s)) (hx : x ≠ .ok) (hd : x ≠ .roleDenied) :
    RefusesWrite (.qBind rq q v) s rq .Q_BIND [q.val] x :=
  (qBind_write hr).refuses (touchGate_package (by decide) qBind_valid) rfl rfl he hx hd

end

/-- Settles O26. -/
theorem queueBinding : Obligations.QueueBinding := by
  unfold Obligations.QueueBinding
  intro s rq role q v hr c old new effect command
  have hgate : s.touchGate (RegName.Q_BIND.addr [q.val]) = s := touchGate_package (by decide) qBind_valid
  have hmay : role = .installer → ¬(role ≠ .installer ∧ (isCmd new = true ∨ (isCmd old = true ∧ new ≠ old))) := fun h h' => h'.1 h
  refine ⟨fun hheld hrole => ?_, fun hheld hrole hbad => ?_, fun hheld hends hninth => ?_, fun hrole hcmd => ?_⟩
  · refine qBind_refuses hr ?_ (by decide) (by decide)
    rw [State.writeQBind]
    exact (if_neg (hmay hrole)).trans (if_pos hheld)
  · refine qBind_refuses hr ?_ (by decide) (by decide)
    rw [State.writeQBind]
    exact (if_neg (hmay hrole)).trans ((if_neg (by simp [hheld])).trans (if_pos (Bool.or_eq_true_iff.mpr hbad)))
  · have heffect (h : ¬(role ≠ .installer ∧ (isCmd new = true ∨ (isCmd old = true ∧ new ≠ old)))) :
        s.writeQBind role q .full v = (.ok, effect s) := by
      rw [State.writeQBind]
      refine (if_neg h).trans ((if_neg (by simp [hheld])).trans ((if_neg ?_).trans ?_))
      · have hends' : endsBad (s.merged .Q_BIND [q.val] .full v) = false := hends
        have hninth' : s.ninth q.val (s.merged .Q_BIND [q.val] .full v) = false := hninth
        simp [hends', hninth']
      · rfl
    refine ⟨fun hcmd hrole => ?_, fun hcmd => ?_⟩
    · refine (qBind_write hr).writesRecorded hgate rfl rfl ?_ (heffect (hmay hrole))
      exact Bool.or_eq_true_iff.mpr hcmd
    · refine (qBind_write hr).writes hgate rfl rfl ?_ (heffect fun h => hcmd (h.2.symm.imp (·.1) id))
      exact Bool.eq_false_iff.mpr fun h => hcmd (Bool.or_eq_true_iff.mp h)
  · refine (qBind_write hr).deniedByEffect hgate rfl rfl ?_
    show s.writeQBind role q .full v = _
    rw [State.writeQBind]
    exact if_pos ⟨hrole, hcmd⟩

end Sys2Proof.Machine
end

section
/-! SUPPORT. What operations on queues write of the registers, key by key, and so what they leave of the flow table, which is found
by the keys listed in it (R187, R191, R197, R204, R206). -/

namespace Sys2Proof.Machine

variable {s t u : State} {r : RegName} {rs rs' : List RegName} {ix : List Nat} {f : Fld} {n q k : Nat} {v : W64} {x : Item}
  {lines : List Nat}

/-! ### Writes of some registers -/

theorem RegSteps.refl : RegSteps rs s s := .of_regs rfl

theorem RegSteps.mono (h : RegSteps rs s t) (hs : rs ⊆ rs') : RegSteps rs' s t := by
  induction h with
  | of_regs h => exact .of_regs h
  | setReg hr hi => exact .setReg (hs hr) hi
  | trans _ _ ih ih' => exact ih.trans ih'

theorem RegSteps.put (hr : f.reg ∈ rs) (hi : f.reg.valid ix = true) : RegSteps rs s (s.put f n ix) := .setReg hr hi

theorem RegSteps.foldl {α : Type} {g : State → α → State} (l : List α) (h : ∀ s a, RegSteps rs s (g s a)) :
    RegSteps rs s (l.foldl g s) := by
  induction l generalizing s with
  | nil => exact .refl
  | cons a l ih => exact (h s a).trans ih

theorem RegSteps.keepsRegs (h : RegSteps rs s t) : KeepsRegs s t rs := by
  induction h with
  | of_regs h => exact .of_regs h
  | setReg hr hi => exact .setReg hr hi
  | trans _ _ ih ih' => exact ih.trans ih'

/-! ### Operations on queues -/

/-- The registers of queues that operations on them write, and what their events bring with them. -/
def queueRegs : List RegName := [.Q_STAT, .Q_SEQ, .Q_RING_IDX] ++ eventRegs

/-- The same with the count of error records lost. -/
def faultRegs : List RegName := .ERR_LOST :: queueRegs

theorem queueRegs_event : eventRegs ⊆ queueRegs := List.subset_append_right _ _

theorem queueRegs_fault : queueRegs ⊆ faultRegs := List.subset_cons_self _ _

theorem ringIdx_valid (hq : q < 8192) : RegName.Q_RING_IDX.valid [q] = true := by simp [RegName.valid, RegName.place, ixValid, hq]

section
variable (hq : q < 8192)
include hq

theorem RegSteps.put_queue (hf : f.reg = .Q_STAT ∨ f.reg = .Q_SEQ ∨ f.reg = .Q_RING_IDX) : RegSteps queueRegs s (s.put f n [q]) := by
  obtain hf | hf | hf := hf
  · exact .put (by rw [hf]; decide) (by rw [hf]; exact (queue_valid hq).1)
  · exact .put (by rw [hf]; decide) (by rw [hf]; exact (queue_valid hq).2)
  · exact .put (by rw [hf]; decide) (by rw [hf]; exact ringIdx_valid hq)

theorem RegSteps.setCredits : RegSteps queueRegs s (s.setCredits q n) :=
  (RegSteps.put_queue (f := F.Q_STAT.CREDITS) hq (.inl rfl)).trans (.of_regs rfl)

theorem RegSteps.watermark : RegSteps queueRegs s (s.watermark q) := by
  obtain ⟨b, -, hk⟩ := State.watermark_puts (s := s) (q := q)
  exact (RegSteps.put_queue hq (.inl rfl)).trans (RegSteps.mono hk queueRegs_event)

omit hq in
theorem RegSteps.storeItem : RegSteps rs s (s.storeItem q x lines) := by
  unfold State.storeItem
  exact (RegSteps.foldl _ fun _ _ => .of_regs State.memStore_regs).trans (.of_regs rfl)

theorem RegSteps.pushCell : RegSteps queueRegs s (s.pushCell q x lines) :=
  (RegSteps.setCredits hq).trans (RegSteps.storeItem.trans ((RegSteps.put_queue hq (.inr (.inl rfl))).trans (.watermark hq)))

theorem RegSteps.autoPush (h : s.autoPush q x = some t) : RegSteps queueRegs s t := by
  have hgrant : RegSteps queueRegs s (if s.credits q = 0 then s.grant q 1 else s) := by
    split
    · exact .setCredits hq
    · exact .refl
  unfold State.autoPush at h
  dsimp only at h
  generalize (if s.credits q = 0 then s.grant q 1 else s) = g at h hgrant
  split at h
  · cases h
  · cases h
    exact hgrant.trans (.pushCell hq)

omit hq in
theorem RegSteps.errRecord {target : Option Nat} {type source queue : Nat} {resp : Resp} {addr : W64} :
    RegSteps faultRegs s (s.errRecord target type resp source queue addr) := by
  have hlost : RegSteps faultRegs s (s.count F.ERR_LOST.COUNT) := .put (by decide) (by decide)
  unfold State.errRecord
  split
  · exact hlost
  · next q heq =>
    have hq : q < 8192 := State.errQueue_lt heq
    split
    · split
      · next h => exact (RegSteps.autoPush hq h).mono queueRegs_fault
      · exact hlost
    · exact hlost

theorem RegSteps.faultQueue {type : Nat} {resp : Resp} {addr : W64} : RegSteps faultRegs s (s.faultQueue q type resp addr) := by
  unfold State.faultQueue
  split
  · exact .refl
  · have hfault : RegSteps queueRegs s ((s.setCredits q 0).put F.Q_STAT.FAULTED 1 [q]) :=
      (RegSteps.setCredits hq).trans (.put_queue hq (.inl rfl))
    exact (hfault.mono queueRegs_fault).trans .errRecord

theorem RegSteps.freeCell : RegSteps queueRegs s (s.freeCell q k) :=
  RegSteps.trans (t := s.setSlots q ((s.slots q).eraseIdx k)) (.of_regs rfl) ((RegSteps.put_queue hq (.inr (.inl rfl))).trans (.watermark hq))

theorem RegSteps.popCell : RegSteps faultRegs s (s.popCell q) := by
  unfold State.popCell State.takeCell
  split
  · exact ((RegSteps.freeCell hq).mono queueRegs_fault).trans (.faultQueue hq)
  · exact (RegSteps.freeCell hq).mono queueRegs_fault

theorem RegSteps.emptyQueue : RegSteps queueRegs s (s.emptyQueue q n) := by
  have hsteps : RegSteps queueRegs s
      ((((((s.setSlots q []).put F.Q_SEQ.HEAD n [q]).put F.Q_SEQ.TAIL n [q]).put F.Q_RING_IDX.PI 0 [q]).put
        F.Q_RING_IDX.CI 0 [q]).watermark q) :=
    (RegSteps.of_regs (s := s) (t := s.setSlots q []) rfl).trans ((RegSteps.put_queue (f := F.Q_SEQ.HEAD) hq (.inr (.inl rfl))).trans
      ((RegSteps.put_queue (f := F.Q_SEQ.TAIL) hq (.inr (.inl rfl))).trans
        ((RegSteps.put_queue (f := F.Q_RING_IDX.PI) hq (.inr (.inr rfl))).trans
          ((RegSteps.put_queue (f := F.Q_RING_IDX.CI) hq (.inr (.inr rfl))).trans (.watermark hq)))))
  unfold State.emptyQueue
  dsimp only
  split
  · split
    · exact hsteps.trans (.of_regs rfl)
    · exact hsteps
  · exact hsteps

end

/-! ### The flow table -/

/-- The key lies in the flow table. -/
def flowKey (k : Nat) : Bool := decide (0x030000600000 ≤ k) && decide (k < 0x030000680000)

theorem Sparse.filter_drop {α : Type} {P : Nat → Bool} {m : Sparse α} (hk : P k = false) :
    (Sparse.drop m k).filter (fun p => P p.1) = m.filter fun p => P p.1 := by
  induction m with
  | nil => rfl
  | cons p m ih =>
    obtain ⟨j, w⟩ := p
    unfold Sparse.drop
    split
    · next h => rw [List.filter_cons_of_neg (by simp [h, hk]), ih]
    · rw [List.filter_cons, List.filter_cons, ih]

theorem Sparse.filter_insert {α : Type} {P : Nat → Bool} {m : Sparse α} {w : α} (hk : P k = false) :
    (Sparse.insert m k w).filter (fun p => P p.1) = m.filter fun p => P p.1 := by
  induction m with
  | nil => simp [Sparse.insert, hk]
  | cons p m ih =>
    obtain ⟨j, y⟩ := p
    unfold Sparse.insert
    split
    · rw [List.filter_cons_of_neg (by simp [hk])]
    · split
      · next h => rw [List.filter_cons_of_neg (by simp [hk]), List.filter_cons_of_neg (by simp [h, hk])]
      · rw [List.filter_cons, List.filter_cons, ih]

theorem Sparse.filter_write {P : Nat → Bool} {m : Sparse W64} (hk : P k = false) :
    (Sparse.write m k v).filter (fun p => P p.1) = m.filter fun p => P p.1 := by
  unfold Sparse.write Sparse.set
  split
  · exact Sparse.filter_drop hk
  · exact Sparse.filter_insert hk

theorem Sparse.read_filter {P : Nat → Bool} {m : Sparse W64} (hk : P k = true) :
    Sparse.read (m.filter fun p => P p.1) k = Sparse.read m k := by
  induction m with
  | nil => rfl
  | cons p m ih =>
    obtain ⟨j, y⟩ := p
    unfold Sparse.read at ih ⊢
    rw [List.filter_cons]
    split
    · rw [Sparse.get_cons, Sparse.get_cons, ih]
    · next h =>
      have hne : j ≠ k := fun he => h (by simpa [he] using hk)
      rw [ih, Sparse.get_cons, if_neg hne]

/-- The flow table holds the same entries in the same order. -/
def FlowsKept (s t : State) : Prop := t.regs.filter (fun p => flowKey p.1) = s.regs.filter fun p => flowKey p.1

theorem faultRegs_apart : ∀ r ∈ faultRegs, r ≠ .POOL_BANK ∧
    (r.place.1 + ixExt r.place.2 < 0x030000600000 ∨ 0x030000680000 ≤ r.place.1) := by
  decide

theorem FlowsKept.setReg (hr : r ≠ .POOL_BANK) (hp : r.place.1 + ixExt r.place.2 < 0x030000600000 ∨ 0x030000680000 ≤ r.place.1)
    (hi : r.valid ix = true) : FlowsKept s (s.setReg r ix v) := by
  refine Sparse.filter_write ?_
  have hb := RegName.addr_bounds hi
  rw [RegName.key, if_neg hr]
  simp only [flowKey, Bool.and_eq_false_iff, decide_eq_false_iff_not]
  omega

theorem FlowsKept.trans (h : FlowsKept s t) (k : FlowsKept t u) : FlowsKept s u := Eq.trans k h

theorem RegSteps.flowsKept (h : RegSteps faultRegs s t) : FlowsKept s t := by
  induction h with
  | of_regs h => rw [FlowsKept, h]
  | setReg hr hi => exact .setReg (faultRegs_apart _ hr).1 (faultRegs_apart _ hr).2 hi
  | trans _ _ ih ih' => exact ih.trans ih'

section
variable (h : FlowsKept s t)
include h

theorem FlowsKept.reg {fl : Nat} (hr : r = .FLOW_BIND ∨ r = .FLOW_QUEUES ∨ r = .FLOW_POS) (hf : fl < 16384) :
    t.reg r [fl] = s.reg r [fl] := by
  have hkey : flowKey (r.key [fl]) = true := by
    obtain rfl | rfl | rfl := hr
    all_goals
      simp only [flowKey, RegName.key, RegName.addr, RegName.place, ixOffset, reduceCtorEq, if_false, Bool.and_eq_true,
        decide_eq_true_eq]
      omega
  rw [State.reg, ← Sparse.read_filter hkey, h, Sparse.read_filter hkey, State.reg]

theorem FlowsKept.fld {fl : Nat} (hr : f.reg = .FLOW_BIND ∨ f.reg = .FLOW_QUEUES ∨ f.reg = .FLOW_POS) (hf : fl < 16384) :
    t.fld f [fl] = s.fld f [fl] := by
  rw [State.fld, h.reg hr hf, State.fld]

theorem FlowsKept.flowIn {fl : Nat} (hf : fl < 16384) : t.flowIn fl = s.flowIn fl := by
  simp only [State.flowIn, State.flowValid, State.flag, h.fld (f := F.FLOW_BIND.VALID) (.inl rfl) hf,
    h.fld (f := F.FLOW_BIND.IN_EN) (.inl rfl) hf, h.fld (f := F.FLOW_QUEUES.IN_Q) (.inr (.inl rfl)) hf]
  rfl

theorem FlowsKept.flowOut {fl : Nat} (hf : fl < 16384) : t.flowOut fl = s.flowOut fl := by
  simp only [State.flowOut, State.flowValid, State.flag, h.fld (f := F.FLOW_BIND.VALID) (.inl rfl) hf,
    h.fld (f := F.FLOW_BIND.OUT_EN) (.inl rfl) hf, h.fld (f := F.FLOW_QUEUES.OUT_Q) (.inr (.inl rfl)) hf]
  rfl

end

/-- The flow whose FLOW_BIND stands at a listed key. -/
def flowAtKey (k : Nat) : Option Nat :=
  if 0x030000600000 ≤ k ∧ k < 0x030000680000 ∧ k % 0x20 = 0 then some ((k - 0x030000600000) / 0x20) else none

theorem State.listedFlows_eq : s.listedFlows = (s.regs.filter fun p => flowKey p.1).filterMap fun p => flowAtKey p.1 := by
  have hall : s.listedFlows = s.regs.filterMap fun p => flowAtKey p.1 := rfl
  rw [hall]
  generalize s.regs = m
  induction m with
  | nil => rfl
  | cons p m ih =>
    by_cases hk : flowKey p.1 = true
    · rw [List.filter_cons_of_pos (by exact hk)]
      simp only [List.filterMap_cons, ih]
    · have hnone : flowAtKey p.1 = none := by
        rw [flowAtKey, if_neg]
        rintro ⟨hlow, hhigh, -⟩
        exact hk (by simp [flowKey, hlow, hhigh])
      rw [List.filter_cons_of_neg (by exact hk), List.filterMap_cons_none (f := fun p : Nat × W64 => flowAtKey p.1) hnone, ih]

theorem State.listedFlows_lt {fl : Nat} (hf : fl ∈ s.listedFlows) : fl < 16384 := by
  rw [State.listedFlows, List.mem_filterMap] at hf
  obtain ⟨p, -, hp⟩ := hf
  split at hp
  · cases hp
    omega
  · cases hp

theorem State.flowOfQueue_lt {fl : Nat} (hf : s.flowOfQueue q = some fl) : fl < 16384 :=
  State.listedFlows_lt (List.mem_of_find?_eq_some hf)

theorem FlowsKept.flowOfQueue (h : FlowsKept s t) : t.flowOfQueue q = s.flowOfQueue q := by
  have hlist : t.listedFlows = s.listedFlows := by rw [State.listedFlows_eq, h, ← State.listedFlows_eq]
  rw [State.flowOfQueue, hlist, State.flowOfQueue]
  refine List.find?_congr fun fl hf => ?_
  have hlt := State.listedFlows_lt hf
  rw [h.flowIn hlt, h.flowOut hlt]

end Sys2Proof.Machine
end

section
/-! Binding and positioning flows (R197, R198, R203): O28. -/

namespace Sys2Proof.Machine

variable {s : State} {rq : Rq} {role : Role} {f : Flow} {v : W64} {r : RegName} {g : State → State} {c : Instr} {x : Resp}

/-- The registers of the flow table that take writes of their own kind. -/
def flowRegs : List RegName := [.FLOW_QUEUES, .FLOW_BIND, .FLOW_POS]

theorem flowReg_valid (hm : r ∈ flowRegs) : r.valid [f.val] = true := by
  fin_cases hm <;> simp [RegName.valid, RegName.place, ixValid]

theorem flowReg_plain (hm : r ∈ flowRegs) : ownCopies r = true ∧ ungatedPackage r = true ∧
    s.writeRight role r [f.val] .full v = true ∧ s.slotDenies rq r [f.val] = false ∧ s.writeRecorded r [f.val] .full v = false ∧
    s.writeEffect rq role r [f.val] .full v = s.writeQueueReg role r [f.val] .full v := by
  fin_cases hm <;> exact ⟨rfl, rfl, rfl, rfl, rfl, rfl⟩

section
variable (hm : r ∈ flowRegs) (hr : Reaches s rq role (r.addr [f.val])) (hc : exec c s = .next (s.busReg rq r [f.val] v))
include hm hr hc

theorem flowReg_writes (he : s.writeQueueReg role r [f.val] .full v = (.ok, g s)) : Writes c s rq r [f.val] g := by
  obtain ⟨hown, hgate, hright, hslot, hrecord, heffect⟩ :=
    flowReg_plain (s := s) (rq := rq) (role := role) (f := f) (v := v) hm
  have hw : RegWrite c s rq role r [f.val] v := .of_reaches hown (flowReg_valid hm) hr hc
  exact hw.writes (touchGate_package hgate (flowReg_valid hm)) hright hslot hrecord (heffect.trans he)

theorem flowReg_refuses (he : s.writeQueueReg role r [f.val] .full v = (.bankNotOwned, s)) :
    RefusesWrite c s rq r [f.val] .bankNotOwned := by
  obtain ⟨hown, hgate, hright, hslot, hrecord, heffect⟩ :=
    flowReg_plain (s := s) (rq := rq) (role := role) (f := f) (v := v) hm
  have hw : RegWrite c s rq role r [f.val] v := .of_reaches hown (flowReg_valid hm) hr hc
  exact hw.refuses (touchGate_package hgate (flowReg_valid hm)) hright hslot (heffect.trans he) (by decide) (by decide)

end

/-! ### FLOW_POS -/

theorem flowQueue_lt {q : Nat} (h : s.flowIn f = some q ∨ s.flowOut f = some q) : q < 8192 := by
  obtain h | h := h
  · unfold State.flowIn at h
    split at h
    · cases h
      exact bitsOf_lt _ _ _
    · cases h
  · unfold State.flowOut at h
    split at h
    · cases h
      exact bitsOf_lt _ _ _
    · cases h

/-- A write of FLOW_POS leaves the rest of the flow table alone, and stores both positions. -/
theorem flowPos_stored : (s.store .FLOW_POS [f.val] .full v).flowIn f = s.flowIn f ∧
    (s.store .FLOW_POS [f.val] .full v).flowOut f = s.flowOut f ∧
    (s.store .FLOW_POS [f.val] .full v).fld F.FLOW_POS.IN [f.val] = bitsOf v F.FLOW_POS.IN.hi F.FLOW_POS.IN.lo ∧
    (s.store .FLOW_POS [f.val] .full v).fld F.FLOW_POS.OUT [f.val] = bitsOf v F.FLOW_POS.OUT.hi F.FLOW_POS.OUT.lo := by
  have hbind : (s.store .FLOW_POS [f.val] .full v).reg .FLOW_BIND [f.val] = s.reg .FLOW_BIND [f.val] :=
    State.reg_setReg_ne (by decide) (flowReg_valid (by decide)) (flowReg_valid (by decide))
  have hqueues : (s.store .FLOW_POS [f.val] .full v).reg .FLOW_QUEUES [f.val] = s.reg .FLOW_QUEUES [f.val] :=
    State.reg_setReg_ne (by decide) (flowReg_valid (by decide)) (flowReg_valid (by decide))
  have hpos : (s.store .FLOW_POS [f.val] .full v).reg .FLOW_POS [f.val] = mergeWrite .FLOW_POS .full (s.reg .FLOW_POS [f.val]) v :=
    State.reg_setReg
  refine ⟨?_, ?_, ?_, ?_⟩
  · unfold State.flowIn State.flowValid State.flag State.fld
    rw [show F.FLOW_BIND.VALID.reg = .FLOW_BIND from rfl, show F.FLOW_BIND.IN_EN.reg = .FLOW_BIND from rfl,
      show F.FLOW_QUEUES.IN_Q.reg = .FLOW_QUEUES from rfl, hbind, hqueues]
  · unfold State.flowOut State.flowValid State.flag State.fld
    rw [show F.FLOW_BIND.VALID.reg = .FLOW_BIND from rfl, show F.FLOW_BIND.OUT_EN.reg = .FLOW_BIND from rfl,
      show F.FLOW_QUEUES.OUT_Q.reg = .FLOW_QUEUES from rfl, hbind, hqueues]
  · exact (congrArg (fieldIn F.FLOW_POS.IN) hpos).trans (fieldIn_mergeWrite_stored (g := F.FLOW_POS.IN) (by decide) (by decide))
  · exact (congrArg (fieldIn F.FLOW_POS.OUT) hpos).trans (fieldIn_mergeWrite_stored (g := F.FLOW_POS.OUT) (by decide) (by decide))

/-- What the position of the inbound queue makes of it. -/
theorem flowPos_input {q n : Nat} (hq : s.flowIn f = some q) : ((s.setCredits q 0).emptyQueue q n).flowOut f = s.flowOut f ∧
    ((s.setCredits q 0).emptyQueue q n).fld F.FLOW_POS.OUT [f.val] = s.fld F.FLOW_POS.OUT [f.val] := by
  have hlt := flowQueue_lt (.inl hq)
  have hkept : FlowsKept s ((s.setCredits q 0).emptyQueue q n) :=
    (((RegSteps.setCredits hlt).trans (.emptyQueue hlt)).mono queueRegs_fault).flowsKept
  exact ⟨hkept.flowOut f.isLt, hkept.fld (.inr (.inr rfl)) f.isLt⟩

/-! ### FLOW_BIND -/

/-- What the value that a write makes of FLOW_BIND says. -/
structure FlowWrite (s : State) (f : Flow) (v : W64) : Prop where
  busy : s.flowBusy f = false
  free : ¬(bitsOf v F.FLOW_BIND.VALID.hi F.FLOW_BIND.VALID.lo = 1 ∧ s.lapsRun = true ∧
    s.tileInUse (tileNo (fieldIn F.FLOW_BIND.DIE (s.merged .FLOW_BIND [f.val] .full v))
      (fieldIn F.FLOW_BIND.ROW (s.merged .FLOW_BIND [f.val] .full v))
      (fieldIn F.FLOW_BIND.COL (s.merged .FLOW_BIND [f.val] .full v))) = true)

theorem flowBind_valid : fieldIn F.FLOW_BIND.VALID (s.merged .FLOW_BIND [f.val] .full v) =
    bitsOf v F.FLOW_BIND.VALID.hi F.FLOW_BIND.VALID.lo :=
  fieldIn_mergeWrite_stored (g := F.FLOW_BIND.VALID) (by decide) (by decide)

theorem writeFlowBind_no (h : s.flowBusy f = true ∨ bitsOf v F.FLOW_BIND.VALID.hi F.FLOW_BIND.VALID.lo = 1 ∧ s.lapsRun = true ∧
    s.tileInUse (tileNo (fieldIn F.FLOW_BIND.DIE (s.merged .FLOW_BIND [f.val] .full v))
      (fieldIn F.FLOW_BIND.ROW (s.merged .FLOW_BIND [f.val] .full v))
      (fieldIn F.FLOW_BIND.COL (s.merged .FLOW_BIND [f.val] .full v))) = true) :
    s.writeFlowBind f .full v = (.bankNotOwned, s) := by
  rw [State.writeFlowBind]
  refine if_pos ?_
  obtain h | ⟨hv, hl, hx⟩ := h
  · rw [h]
    rfl
  · rw [flowBind_valid, hv, hl, hx]
    simp

section
variable (h : FlowWrite s f v)
include h

theorem FlowWrite.effect : s.writeFlowBind f .full v =
    if s.flowValid f = true then
      if bitsOf v F.FLOW_BIND.VALID.hi F.FLOW_BIND.VALID.lo = 1 then
        if setBits (s.reg .FLOW_BIND [f.val]) 3 3 0 = setBits (s.merged .FLOW_BIND [f.val] .full v) 3 3 0 then
          (.ok, s.setReg .FLOW_BIND [f.val] (s.merged .FLOW_BIND [f.val] .full v))
        else (.bankNotOwned, s)
      else (.ok, s.unbindFlow f (s.merged .FLOW_BIND [f.val] .full v))
    else if bitsOf v F.FLOW_BIND.VALID.hi F.FLOW_BIND.VALID.lo = 1 then
      if s.mayBindFlow f (s.merged .FLOW_BIND [f.val] .full v) = true then
        (.ok, s.bindFlow f (s.merged .FLOW_BIND [f.val] .full v))
      else (.bankNotOwned, s)
    else (.ok, s.setReg .FLOW_BIND [f.val] (s.merged .FLOW_BIND [f.val] .full v)) := by
  rw [State.writeFlowBind]
  refine (if_neg ?_).trans ?_
  · have := h.free
    rw [flowBind_valid, h.busy]
    simpa [and_assoc] using this
  · simp only [flowBind_valid, beq_iff_eq]

end

/-- Settles O28. -/
theorem flowCommands : Obligations.FlowCommands := by
  unfold Obligations.FlowCommands
  intro s rq role f v reaches old new valid tile binds refused moves
  have hwrites (hr : reaches .FLOW_BIND) {g : State → State} : s.writeFlowBind f .full v = (.ok, g s) → binds g :=
    flowReg_writes (by decide) hr rfl
  have hno (hr : reaches .FLOW_BIND) : s.writeFlowBind f .full v = (.bankNotOwned, s) → refused :=
    flowReg_refuses (by decide) hr rfl
  refine ⟨fun hr => ⟨fun h => ?_, fun h => ?_⟩, fun hr => ⟨fun h => ?_, fun hbusy hfree => ?_⟩, fun hr => ⟨fun h => ?_, fun h => ?_⟩⟩
  · exact flowReg_refuses (by decide) hr rfl (if_pos h)
  · exact flowReg_writes (by decide) hr rfl (if_neg (by simp [h]))
  · exact hno hr (writeFlowBind_no h)
  · have heffect := FlowWrite.effect ⟨hbusy, hfree⟩
    refine ⟨fun h h' h'' => hwrites hr ?_, fun h h' h'' => hno hr ?_, fun h h' => hwrites hr ?_, fun h h' h'' => hwrites hr ?_,
      fun h h' h'' => hno hr ?_, fun h h' => hwrites hr ?_⟩
    · exact heffect.trans ((if_pos h).trans ((if_pos h').trans (if_pos h'')))
    · exact heffect.trans ((if_pos h).trans ((if_pos h').trans (if_neg h'')))
    · exact heffect.trans ((if_pos h).trans (if_neg h'))
    · exact heffect.trans ((if_neg (by simp [h])).trans ((if_pos h').trans (if_pos h'')))
    · exact heffect.trans ((if_neg (by simp [h])).trans ((if_pos h').trans (if_neg (Bool.eq_false_iff.mp h''))))
    · exact heffect.trans ((if_neg (by simp [h])).trans (if_neg h'))
  · exact flowReg_refuses (by decide) hr rfl (if_pos h)
  · refine flowReg_writes (by decide) hr rfl (?_ : s.writeFlowPos f.val .full v = _)
    rw [State.writeFlowPos, if_neg (by simp [h])]
    obtain ⟨hin, hout, hposIn, hposOut⟩ := flowPos_stored (s := s) (f := f) (v := v)
    dsimp only
    generalize s.store .FLOW_POS [f.val] .full v = u at *
    rw [hin]
    cases hfi : s.flowIn f with
    | none =>
      dsimp only
      rw [hout]
      cases hfo : s.flowOut f with
      | none => rfl
      | some q => exact congrArg (fun n => (Resp.ok, u.emptyQueue q n)) hposOut
    | some q =>
      obtain ⟨hout', hpos'⟩ := flowPos_input (n := u.fld F.FLOW_POS.IN [f.val]) (hin.trans hfi)
      dsimp only
      rw [hout', hpos', hout, hposIn, hposOut]
      cases hfo : s.flowOut f with
      | none => rfl
      | some q' => rfl

end Sys2Proof.Machine
end

section
/-! The host region table and the event ring's consumer index (R234 to R236, R298): O29. -/

namespace Sys2Proof.Machine

variable {s : State} {rq : Rq} {role : Role} {n : Fin 64} {v : W64} {r : RegName} {g : State → State} {c : Instr} {x : Resp}

/-! ### The entries of the table -/

/-- The two registers of a region. -/
def regionRegs : List RegName := [.HR_BASE, .HR_LIMIT]

theorem regionReg_valid (hm : r ∈ regionRegs) : r.valid [n.val] = true := by
  fin_cases hm <;> simp [RegName.valid, RegName.place, ixValid]

theorem regionReg_plain (hm : r ∈ regionRegs) : ownCopies r = true ∧ ungatedPackage r = true ∧
    s.writeRight .installer r [n.val] .full v = true ∧ s.slotDenies rq r [n.val] = false ∧
    s.writeRecorded r [n.val] .full v = true := by
  fin_cases hm <;> exact ⟨rfl, rfl, rfl, rfl, rfl⟩

section
variable (hm : r ∈ regionRegs) (hr : Reaches s rq .installer (r.addr [n.val])) (hc : exec c s = .next (s.busReg rq r [n.val] v))
include hm hr hc

theorem regionReg_writes (he : s.writeEffect rq .installer r [n.val] .full v = (.ok, g s)) : WritesRecorded c s rq r [n.val] g := by
  obtain ⟨hown, hgate, hright, hslot, hrecord⟩ := regionReg_plain (s := s) (rq := rq) (n := n) (v := v) hm
  have hw : RegWrite c s rq .installer r [n.val] v := .of_reaches hown (regionReg_valid hm) hr hc
  exact hw.writesRecorded (touchGate_package hgate (regionReg_valid hm)) hright hslot hrecord he

theorem regionReg_refuses (he : s.writeEffect rq .installer r [n.val] .full v = (x, s)) (hx : x ≠ .ok) (hd : x ≠ .roleDenied) :
    RefusesWrite c s rq r [n.val] x := by
  obtain ⟨hown, hgate, hright, hslot, hrecord⟩ := regionReg_plain (s := s) (rq := rq) (n := n) (v := v) hm
  have hw : RegWrite c s rq .installer r [n.val] v := .of_reaches hown (regionReg_valid hm) hr hc
  exact hw.refuses (touchGate_package hgate (regionReg_valid hm)) hright hslot he hx hd

end

theorem fieldIn_bit {f : Fld} (h : f.hi = f.lo) : fieldIn f v = (v.getLsbD f.lo).toNat := by
  rw [fieldIn, bitsOf, h, show f.lo + 1 - f.lo = 1 by omega, pow_one, BitVec.getLsbD, Nat.testBit]
  simp only [Nat.and_comm 1, Nat.and_one_is_mod]
  obtain h | h := Nat.mod_two_eq_zero_or_one (v.toNat >>> f.lo) <;> simp [h]

theorem hrBase_bit {f : Fld} {old : W64} (h : f = F.HR_BASE.EN ∨ f = F.HR_BASE.VAULT) :
    fieldIn f (mergeWrite .HR_BASE .full old v) = (v.getLsbD f.lo).toNat := by
  obtain rfl | rfl := h
  · exact (fieldIn_mergeWrite_stored (g := F.HR_BASE.EN) (by decide) (by decide)).trans (fieldIn_bit rfl)
  · exact (fieldIn_mergeWrite_stored (g := F.HR_BASE.VAULT) (by decide) (by decide)).trans (fieldIn_bit rfl)

/-! ### The event ring's index -/

theorem evringCi_writes (hr : Reaches s rq role (RegName.HC_EVRING_IDX.addr [])) :
    Writes (.evringCi rq v) s rq .HC_EVRING_IDX [] fun g =>
      if (s.fld F.HC_EVRING_IDX.PI + 2 ^ 32 - v.toNat % 2 ^ 32) % 2 ^ 32 ≤
        (s.fld F.HC_EVRING_IDX.PI + 2 ^ 32 - s.fld F.HC_EVRING_IDX.CI) % 2 ^ 32 then g.put F.HC_EVRING_IDX.CI (v.toNat % 2 ^ 32) else g := by
  have hw : RegWrite (.evringCi rq v) s rq role .HC_EVRING_IDX [] v := .of_reaches (by decide) (by decide) hr rfl
  refine hw.writes (touchGate_package (by decide) (by decide)) rfl rfl rfl (?_ : s.writeEvringCi .full v = _)
  have hci : fieldIn F.HC_EVRING_IDX.CI v = v.toNat % 2 ^ 32 := by rw [fieldIn, bitsOf]; rfl
  rw [State.writeEvringCi, if_neg (by decide), hci]
  exact (apply_ite (Prod.mk Resp.ok) _ _ _).symm

/-- Settles O29. -/
theorem hostRegionCommands : Obligations.HostRegionCommands := by
  unfold Obligations.HostRegionCommands
  intro s rq role n v ix old new bit w no used ci
  have hen : fieldIn F.HR_BASE.EN new = (bit F.HR_BASE.EN).toNat := hrBase_bit (.inl rfl)
  have hvault : fieldIn F.HR_BASE.VAULT new = (bit F.HR_BASE.VAULT).toNat := hrBase_bit (.inr rfl)
  have hset (h : bit F.HR_BASE.EN = true) : ¬fieldIn F.HR_BASE.EN new = 0 := by
    rw [hen, h]
    decide
  have hplain (h : bit F.HR_BASE.VAULT = false) : ¬fieldIn F.HR_BASE.VAULT new = 1 := by
    rw [hvault, h]
    decide
  have hmay (h : s.mayEnable n new = true) : ¬(!s.mayEnable n new) = true := by simp [h]
  refine ⟨fun hr => ⟨fun he => ⟨fun h => ?_, fun h h' => ?_⟩, fun he => ⟨fun h => ?_, fun h h' => ?_, fun h h' => ⟨fun h'' => ?_,
    fun h'' => ?_⟩⟩⟩, fun hr => ⟨fun h => ?_, fun h => ?_⟩, evringCi_writes⟩
  · exact regionReg_writes (by decide) hr rfl ((if_pos he).trans (if_pos h))
  · exact regionReg_refuses (by decide) hr rfl ((if_pos he).trans (if_neg (not_or.mpr ⟨h, h'⟩))) (by decide) (by decide)
  · exact regionReg_writes (by decide) hr rfl ((if_neg (by simp [he])).trans (if_pos (hen.trans (by rw [h]; rfl))))
  · exact regionReg_refuses (by decide) hr rfl ((if_neg (by simp [he])).trans ((if_neg (hset h)).trans
      (if_pos (by rw [Bool.not_eq_true']; exact h')))) (by decide) (by decide)
  · refine regionReg_writes (by decide) hr rfl ((if_neg (by simp [he])).trans ((if_neg (hset h)).trans ((if_neg (hmay h')).trans ?_)))
    exact congrArg (Prod.mk Resp.ok) (if_neg (hplain h''))
  · refine regionReg_writes (by decide) hr rfl ((if_neg (by simp [he])).trans ((if_neg (hset h)).trans ((if_neg (hmay h')).trans ?_)))
    exact congrArg (Prod.mk Resp.ok) (if_pos (hvault.trans (by rw [h'']; rfl)))
  · exact regionReg_refuses (by decide) hr rfl (if_pos h) (by decide) (by decide)
  · exact regionReg_writes (by decide) hr rfl (if_neg (by simp [h]))

end Sys2Proof.Machine
end

section
/-! SKIP and RESET of a queue, and its end (R205, R206): the first part of O27. -/

namespace Sys2Proof.Machine

variable {s t : State} {rq : Rq} {role : Role} {q : Qn} {v : W64} {g : State → State} {c : Instr} {f : Fld} {ix : List Nat}
  {n k : Nat} {r : RegName}

/-! ### The write of Q_CTRL -/

/-- A write that sets one W1S field carries no 1 for another field of one bit. -/
theorem State.wrote_withSet_ne {g : Fld} (hb : g.hi = g.lo) (hrw : (g.reg.mask [.rw]).testBit g.lo = false) (hr : f.reg = g.reg)
    (hne : f.lo ≠ g.lo) : wrote g .full (s.withSet f ix) = false := by
  have hbit : (s.withSet f ix).getLsbD g.lo = false := by
    rw [State.withSet, BitVec.getLsbD_or, BitVec.getLsbD_and, hr, BitVec.getLsbD_ofNat, BitVec.getLsbD_ofNat, hrw,
      Nat.testBit_two_pow_of_ne hne]
    simp
  rw [wrote_full, fieldIn_bit hb, hbit]
  rfl

theorem qCtrl_valid : RegName.Q_CTRL.valid [q.val] = true := by simp [RegName.valid, RegName.place, ixValid]

/-- The register as it stands. -/
def State.sameCtrl (s : State) (q : Qn) : State := s.setReg .Q_CTRL [q.val] (s.reg .Q_CTRL [q.val])

section
variable (hr : Reaches s rq role (RegName.Q_CTRL.addr [q.val]))
include hr

theorem skip_writes (he : s.writeQCtrl q .full (s.withSet F.Q_CTRL.SKIP [q.val]) = (.ok, g s)) :
    Writes (.skip rq q) s rq .Q_CTRL [q.val] g :=
  (RegWrite.of_reaches (by decide) qCtrl_valid hr rfl).writes (touchGate_package (by decide) qCtrl_valid) rfl rfl rfl he

theorem reset_writes (he : s.writeQCtrl q .full (s.withSet F.Q_CTRL.RESET [q.val]) = (.ok, g s)) :
    Writes (.qCtrlReset rq q) s rq .Q_CTRL [q.val] g :=
  (RegWrite.of_reaches (by decide) qCtrl_valid hr rfl).writes (touchGate_package (by decide) qCtrl_valid) rfl rfl rfl he

theorem reset_refuses (he : s.writeQCtrl q .full (s.withSet F.Q_CTRL.RESET [q.val]) = (.bankNotOwned, s)) :
    RefusesWrite (.qCtrlReset rq q) s rq .Q_CTRL [q.val] .bankNotOwned :=
  (RegWrite.of_reaches (by decide) qCtrl_valid hr rfl).refuses (touchGate_package (by decide) qCtrl_valid) rfl rfl he
    (by decide) (by decide)

end

theorem writeQCtrl_skip : s.writeQCtrl q .full (s.withSet F.Q_CTRL.SKIP [q.val]) = (.ok, (s.sameCtrl q).skipHead q) := by
  have hreset : wrote F.Q_CTRL.RESET .full (s.withSet F.Q_CTRL.SKIP [q.val]) = false :=
    State.wrote_withSet_ne rfl (by decide) rfl (by decide)
  have hskip : wrote F.Q_CTRL.SKIP .full (s.withSet F.Q_CTRL.SKIP [q.val]) = true := State.wrote_withSet (by decide) (by decide)
  have hstore : s.store .Q_CTRL [q.val] .full (s.withSet F.Q_CTRL.SKIP [q.val]) = s.sameCtrl q :=
    State.store_withSet (f := F.Q_CTRL.SKIP) (by decide) (by decide)
  rw [State.writeQCtrl, hreset, hskip, hstore, Bool.false_and]
  rfl

theorem writeQCtrl_reset : s.writeQCtrl q .full (s.withSet F.Q_CTRL.RESET [q.val]) =
    if ((s.flowOfQueue q).map s.flowBusy).getD false = true then (.bankNotOwned, s)
    else (.ok, (((s.sameCtrl q).setCredits q 0).put F.Q_STAT.FAULTED 0 [q.val]).put F.Q_CTRL.RESET 1 [q.val]) := by
  have hreset : wrote F.Q_CTRL.RESET .full (s.withSet F.Q_CTRL.RESET [q.val]) = true := State.wrote_withSet (by decide) (by decide)
  have hskip : wrote F.Q_CTRL.SKIP .full (s.withSet F.Q_CTRL.RESET [q.val]) = false :=
    State.wrote_withSet_ne rfl (by decide) rfl (by decide)
  have hstore : s.store .Q_CTRL [q.val] .full (s.withSet F.Q_CTRL.RESET [q.val]) = s.sameCtrl q :=
    State.store_withSet (f := F.Q_CTRL.RESET) (by decide) (by decide)
  rw [State.writeQCtrl, hreset, hskip, hstore, Bool.true_and]
  simp

/-! ### What SKIP does -/

theorem sameCtrl_banks : SameBanks s (s.sameCtrl q) := .setReg (by decide) (by decide) qCtrl_valid

theorem sameCtrl_headCell : (s.sameCtrl q).headCell q = s.headCell q := by
  rw [State.headCell, State.items_congr (s := s) sameCtrl_banks rfl, State.headCell]

theorem sameCtrl_flows : FlowsKept s (s.sameCtrl q) := .setReg (by decide) (by decide) qCtrl_valid

theorem skipHead_sound (h : ¬∃ c, s.headCell q = some c ∧ c.poison = true) : s.skipHead q = s := by
  unfold State.skipHead
  split
  · rfl
  · next c hc => exact if_pos (by simpa using fun hp => h ⟨c, hc, hp⟩)

section
variable (h : ∃ c, s.headCell q = some c ∧ c.poison = true)
include h

theorem skipHead_plain (hf : ∀ fl, s.flowOfQueue q = some fl → s.flowIn fl ≠ some q.val) : s.skipHead q = s.popCell q := by
  obtain ⟨c, hc, hp⟩ := h
  have hkept : FlowsKept s (s.popCell q) := (RegSteps.popCell q.isLt).flowsKept
  unfold State.skipHead
  rw [hc]
  simp only [hp, Bool.not_true, Bool.false_eq_true, if_false, hkept.flowOfQueue]
  split
  · next fl hfl =>
    rw [hkept.flowIn (State.flowOfQueue_lt hfl), if_neg (hf fl hfl)]
  · rfl

theorem skipHead_flow {fl : Nat} (hfl : s.flowOfQueue q = some fl) (hin : s.flowIn fl = some q.val) :
    s.skipHead q = ((s.popCell q).put F.FLOW_POS.IN ((s.fld F.FLOW_POS.IN [fl] + 1) % 2 ^ 32) [fl]).setDelivered fl
      ((s.popCell q).delivered fl - 1) := by
  obtain ⟨c, hc, hp⟩ := h
  have hkept : FlowsKept s (s.popCell q) := (RegSteps.popCell q.isLt).flowsKept
  have hlt := State.flowOfQueue_lt hfl
  unfold State.skipHead
  rw [hc]
  simp only [hp, Bool.not_true, Bool.false_eq_true, if_false, hkept.flowOfQueue, hfl, hkept.flowIn hlt, hin, if_true]
  rw [hkept.fld (.inr (.inr rfl)) hlt]

end

/-! ### The end of a reset -/

/-- The queue without items, its positions at `n` and its ring indices at 0. -/
def State.emptied (s : State) (q n : Nat) : State :=
  ((((s.setSlots q []).put F.Q_SEQ.HEAD n [q]).put F.Q_SEQ.TAIL n [q]).put F.Q_RING_IDX.PI 0 [q]).put F.Q_RING_IDX.CI 0 [q]

theorem State.emptyQueue_eq : ∃ d, s.emptyQueue q n = { (s.emptied q n).watermark q with fab := d } := by
  unfold State.emptyQueue
  dsimp only
  split
  · split
    · exact ⟨_, rfl⟩
    · exact ⟨_, rfl⟩
  · exact ⟨_, rfl⟩

theorem State.dropUnacked_eq {j : Nat} : ∃ br, s.dropUnacked j = { s with bridges := br } := by
  unfold State.dropUnacked
  generalize s.listedBridges = l
  induction l generalizing s with
  | nil => exact ⟨_, rfl⟩
  | cons b l ih =>
    rw [List.foldl_cons]
    obtain ⟨br, h⟩ := ih (s := if s.bridgeEn b && !s.bridgeIn b && s.bridgeQ b == j
      then s.onBridge b fun br => { br with unacked := [] } else s)
    rw [h]
    split <;> exact ⟨_, rfl⟩

/-- What Q_RESET_DONE makes of the queue. -/
def State.resetDone (s : State) (q : Qn) : State :=
  (((s.setCredits q 0).emptyQueue q 0).dropUnacked q).put F.Q_CTRL.RESET 0 [q.val]

/-- It differs from the queue emptied and its watermark in RESET, in what the fabric's ports hold and in what bridges wait for. -/
theorem State.resetDone_eq : ∃ d br, s.resetDone q =
    ({ ((s.setCredits q 0).emptied q 0).watermark q with fab := d, bridges := br } : State).put F.Q_CTRL.RESET 0 [q.val] := by
  obtain ⟨d, hd⟩ := State.emptyQueue_eq (s := s.setCredits q 0) (q := q) (n := 0)
  obtain ⟨br, hbr⟩ := State.dropUnacked_eq (s := (s.setCredits q 0).emptyQueue q 0) (j := q)
  exact ⟨d, br, by rw [State.resetDone, hbr, hd]⟩

theorem exec_qResetDone_runs (h : s.flag F.Q_CTRL.RESET [q.val] = true) (hpd : s.pd (pdNE 0) = 1) :
    exec (.qResetDone q) s = .next (s.resetDone q).settle := by
  show execQResetDone q s = _
  rw [execQResetDone, State.qmRuns, h, hpd]
  rfl

theorem exec_qResetDone_none (h : s.flag F.Q_CTRL.RESET [q.val] = false) : exec (.qResetDone q) s = .next s := by
  show execQResetDone q s = _
  rw [execQResetDone, h]
  rfl

/-! What the queue's registers then hold. -/

theorem SameBanks.emptied (hq : k < 8192) : SameBanks s (s.emptied k n) :=
  (SameBanks.of_regs (s := s) (t := s.setSlots k []) rfl rfl rfl rfl rfl).trans
    ((SameBanks.put_seq (f := F.Q_SEQ.HEAD) hq rfl).trans ((SameBanks.put_seq (f := F.Q_SEQ.TAIL) hq rfl).trans
      ((SameBanks.put (f := F.Q_RING_IDX.PI) (by decide) (by decide) (ringIdx_valid hq)).trans
        (SameBanks.put (f := F.Q_RING_IDX.CI) (by decide) (by decide) (ringIdx_valid hq)))))

theorem State.resetDone_banks : SameBanks s (s.resetDone q) := by
  obtain ⟨d, br, h⟩ := State.resetDone_eq (s := s) (q := q)
  have hwater : SameBanks s (((s.setCredits q 0).emptied q 0).watermark q) :=
    (SameBanks.setCredits q.isLt).trans ((SameBanks.emptied q.isLt).trans (.watermark q.isLt))
  have hparts : SameBanks s { ((s.setCredits q 0).emptied q 0).watermark q with fab := d, bridges := br } :=
    hwater.trans (.of_regs rfl rfl rfl rfl rfl)
  rw [h]
  exact hparts.trans (SameBanks.put (f := F.Q_CTRL.RESET) (by decide) (by decide) qCtrl_valid)

theorem State.resetDone_keepsRegs : KeepsRegs s (s.resetDone q) (.Q_CTRL :: queueRegs) := by
  have hq := q.isLt
  have hsteps : RegSteps queueRegs s ((s.setCredits q 0).emptyQueue q 0) := (RegSteps.setCredits hq).trans (.emptyQueue hq)
  obtain ⟨br, hbr⟩ := State.dropUnacked_eq (s := (s.setCredits q 0).emptyQueue q 0) (j := q)
  have hdrop : RegSteps queueRegs s (((s.setCredits q 0).emptyQueue q 0).dropUnacked q) := by
    rw [hbr]
    exact hsteps.trans (.of_regs rfl)
  exact (hdrop.keepsRegs.mono (List.subset_cons_self _ _)).trans (.put (by decide) qCtrl_valid)

theorem State.resetDone_slots {j : Nat} : (s.resetDone q).slots j = if q.val = j then [] else s.slots j := by
  obtain ⟨d, br, h⟩ := State.resetDone_eq (s := s) (q := q)
  have hslots : ((s.setCredits q 0).emptied q 0).slots j = ((s.setCredits q 0).setSlots q []).slots j := rfl
  rw [h]
  exact (State.slots_of_qitems State.watermark_qitems).trans (hslots.trans State.slots_setSlots)

/-- The register copy before the watermark. -/
theorem State.resetDone_reg (hr : r ∉ eventRegs) (hs : r ≠ .Q_STAT) (hc : r ≠ .Q_CTRL) (hi : r.valid ix = true) :
    (s.resetDone q).reg r ix = ((s.setCredits q 0).emptied q 0).reg r ix := by
  obtain ⟨d, br, h⟩ := State.resetDone_eq (s := s) (q := q)
  obtain ⟨b, hevents, -⟩ := State.watermark_puts (s := (s.setCredits q 0).emptied q 0) (q := q)
  rw [h, State.reg_put_ne (Ne.symm hc) qCtrl_valid hi]
  exact (hevents.reg r ix hi hr).trans (State.reg_put_ne (Ne.symm hs) (queue_valid q.isLt).1 hi)

theorem State.resetDone_fld (hr : f.reg ∉ eventRegs) (hs : f.reg ≠ .Q_STAT) (hc : f.reg ≠ .Q_CTRL) (hi : f.reg.valid ix = true) :
    (s.resetDone q).fld f ix = ((s.setCredits q 0).emptied q 0).fld f ix := by
  rw [State.fld, State.resetDone_reg hr hs hc hi, State.fld]

theorem State.resetDone_credits {j : Nat} (hj : j < 8192) : (s.resetDone q).credits j = (s.setCredits q 0).credits j := by
  obtain ⟨d, br, h⟩ := State.resetDone_eq (s := s) (q := q)
  have hi := credits_valid hj
  have hq := q.isLt
  rw [h, State.credits, State.fld_put_ne (f := F.Q_CTRL.RESET) (by decide) qCtrl_valid hi]
  refine (State.watermark_fld hq (by decide) (by decide) (by decide) hi).trans ?_
  unfold State.emptied
  rw [State.fld_put_ne (f := F.Q_RING_IDX.CI) (by decide) (ringIdx_valid hq) hi,
    State.fld_put_ne (f := F.Q_RING_IDX.PI) (by decide) (ringIdx_valid hq) hi,
    State.fld_put_ne (f := F.Q_SEQ.TAIL) (by decide) (queue_valid hq).2 hi,
    State.fld_put_ne (f := F.Q_SEQ.HEAD) (by decide) (queue_valid hq).2 hi]
  rfl

section
variable (hq : k < 8192)
include hq

theorem State.emptied_seq : (s.emptied k n).fld F.Q_SEQ.HEAD [k] = n % 2 ^ 32 ∧ (s.emptied k n).fld F.Q_SEQ.TAIL [k] = n % 2 ^ 32 := by
  have hs := (queue_valid hq).2
  unfold State.emptied
  refine ⟨?_, ?_⟩
  · rw [State.fld_put_ne (f := F.Q_RING_IDX.CI) (by decide) (ringIdx_valid hq) hs,
      State.fld_put_ne (f := F.Q_RING_IDX.PI) (by decide) (ringIdx_valid hq) hs,
      State.fld_put_field (f := F.Q_SEQ.TAIL) (f' := F.Q_SEQ.HEAD) rfl (by decide) (by decide) (by decide),
      State.fld_put (f := F.Q_SEQ.HEAD) (by decide) (by decide)]
    rfl
  · rw [State.fld_put_ne (f := F.Q_RING_IDX.CI) (by decide) (ringIdx_valid hq) hs,
      State.fld_put_ne (f := F.Q_RING_IDX.PI) (by decide) (ringIdx_valid hq) hs,
      State.fld_put (f := F.Q_SEQ.TAIL) (by decide) (by decide)]
    rfl

omit hq in
theorem State.emptied_ring : (s.emptied k n).fld F.Q_RING_IDX.PI [k] = 0 ∧ (s.emptied k n).fld F.Q_RING_IDX.CI [k] = 0 := by
  unfold State.emptied
  refine ⟨?_, ?_⟩
  · rw [State.fld_put_field (f := F.Q_RING_IDX.CI) (f' := F.Q_RING_IDX.PI) rfl (by decide) (by decide) (by decide),
      State.fld_put (f := F.Q_RING_IDX.PI) (by decide) (by decide)]
    rfl
  · rw [State.fld_put (f := F.Q_RING_IDX.CI) (by decide) (by decide)]
    rfl

end

/-- The positions of the other queues stand. -/
theorem State.resetDone_others {q' : Qn} (hne : q' ≠ q) : (s.resetDone q).reg .Q_SEQ [q'.val] = s.reg .Q_SEQ [q'.val] ∧
    (s.resetDone q).reg .Q_CTRL [q'.val] = s.reg .Q_CTRL [q'.val] := by
  have hq := q.isLt
  have hs := (queue_valid q'.isLt).2
  have hix : [q.val] ≠ [q'.val] := by
    intro h
    exact hne (Fin.ext (List.singleton_inj.mp h)).symm
  refine ⟨?_, ?_⟩
  · rw [State.resetDone_reg (by decide) (by decide) (by decide) hs]
    unfold State.emptied
    rw [State.reg_put_ne (f := F.Q_RING_IDX.CI) (by decide) (ringIdx_valid hq) hs,
      State.reg_put_ne (f := F.Q_RING_IDX.PI) (by decide) (ringIdx_valid hq) hs]
    exact (State.reg_put_ix (f := F.Q_SEQ.TAIL) hix (queue_valid hq).2 hs).trans
      ((State.reg_put_ix (f := F.Q_SEQ.HEAD) hix (queue_valid hq).2 hs).trans
        (State.reg_put_ne (f := F.Q_STAT.CREDITS) (by decide) (queue_valid hq).1 hs))
  · obtain ⟨br, hbr⟩ := State.dropUnacked_eq (s := (s.setCredits q 0).emptyQueue q 0) (j := q)
    have hsteps : RegSteps queueRegs s ((s.setCredits q 0).emptyQueue q 0) := (RegSteps.setCredits hq).trans (.emptyQueue hq)
    refine (State.reg_put_ix (f := F.Q_CTRL.RESET) hix qCtrl_valid qCtrl_valid).trans ?_
    rw [hbr]
    exact hsteps.keepsRegs _ _ qCtrl_valid (by decide)

theorem qResetDone_completes (h : s.flag F.Q_CTRL.RESET [q.val] = true) (hpd : s.pd (pdNE 0) = 1) :
    Completes State.settle (.qResetDone q) s fun u =>
      u.flag F.Q_CTRL.RESET [q] = false ∧ u.items q = [] ∧ u.credits q = 0 ∧ u.fld F.Q_SEQ.HEAD [q] = 0 ∧
        u.fld F.Q_SEQ.TAIL [q] = 0 ∧ u.fld F.Q_RING_IDX.PI [q] = 0 ∧ u.fld F.Q_RING_IDX.CI [q] = 0 ∧
        Keeps s u [.Q_CTRL, .Q_STAT, .Q_SEQ, .Q_RING_IDX] ∧
        ∀ q' : Qn, q' ≠ q → u.items q' = s.items q' ∧ u.credits q' = s.credits q' ∧
          u.reg .Q_SEQ [q'] = s.reg .Q_SEQ [q'] ∧ u.reg .Q_CTRL [q'] = s.reg .Q_CTRL [q'] := by
  have hq := q.isLt
  have hseq := (queue_valid hq).2
  have hring := ringIdx_valid hq
  obtain ⟨hhead, htail⟩ := State.emptied_seq (s := s.setCredits q 0) (n := 0) hq
  obtain ⟨hpi, hci⟩ := State.emptied_ring (s := s.setCredits q 0) (k := q) (n := 0)
  refine ⟨s.resetDone q, exec_qResetDone_runs h hpd, ?_, ?_, ?_, ?_, ?_, ?_, ?_, ⟨fun r ix hi hr he => ?_, ?_, ?_⟩, fun q' hne => ?_⟩
  · rw [State.resetDone, State.flag, State.fld_put (f := F.Q_CTRL.RESET) (by decide) (by decide)]
    rfl
  · rw [State.items, State.resetDone_slots, if_pos rfl, List.map_nil]
  · exact (State.resetDone_credits hq).trans State.setCredits_credits
  · exact (State.resetDone_fld (by decide) (by decide) (by decide) hseq).trans hhead
  · exact (State.resetDone_fld (by decide) (by decide) (by decide) hseq).trans htail
  · exact (State.resetDone_fld (by decide) (by decide) (by decide) hring).trans hpi
  · exact (State.resetDone_fld (by decide) (by decide) (by decide) hring).trans hci
  · refine State.resetDone_keepsRegs r ix hi fun hm => ?_
    simp only [queueRegs, List.mem_cons, List.mem_append] at hm hr
    tauto
  · exact State.resetDone_banks.mem
  · exact State.resetDone_banks.standin
  · have hval : (q' : Nat) ≠ q := fun h => hne (Fin.ext h)
    refine ⟨State.items_congr State.resetDone_banks (State.resetDone_slots.trans (if_neg (Ne.symm hval))), ?_, State.resetDone_others hne⟩
    exact (State.resetDone_credits q'.isLt).trans (State.setCredits_credits_ne hval hq q'.isLt)

end Sys2Proof.Machine
end

section
/-! The bank table of the cell pool (R182), with the entries whose own address reaches another register (notes/assumptions 75), and O27. -/

namespace Sys2Proof.Machine

variable {s t u : State} {rq : Rq} {role : Role} {i : Fin 64} {v : W64} {g : State → State} {x : Resp}

theorem poolBank_valid : RegName.POOL_BANK.valid [i.val] = true := by simp [RegName.valid, RegName.place, ixValid]

theorem poolBank_ungated : s.touchGate (RegName.POOL_BANK.addr [i.val]) = s := touchGate_package (by decide) poolBank_valid

/-! ### The way to the queue manager -/

section
variable (hr : Reaches s rq role (RegName.POOL_BANK.addr [i.val]))
include hr

theorem exec_poolBank_shadowed (h : shadowed .POOL_BANK [i.val] = true) :
    exec (.poolBank rq i v) s = .next (s.poolServed rq role i v).finish := by
  show execPoolBank rq i v s = _
  rw [execPoolBank, if_pos h, hr.role]
  simp [State.packet, hr.on, hr.held, State.packetServed]

omit hr in
theorem exec_poolBank_shown (h : shadowed .POOL_BANK [i.val] = false) :
    exec (.poolBank rq i v) s = .next (s.busReg rq .POOL_BANK [i.val] v) := by
  show execPoolBank rq i v s = _
  rw [execPoolBank, if_neg (by simp [h])]

theorem poolBank_writes (he : s.writePoolBank i .full v = (.ok, g s)) : Writes (.poolBank rq i v) s rq .POOL_BANK [i.val] g := by
  have hw : (s.touchGate (RegName.POOL_BANK.addr [i.val])).writeReg rq role .POOL_BANK [i.val] .full v = (.ok, g s) := by
    rw [poolBank_ungated]
    exact State.writeReg_ok (u := g s) (r := .POOL_BANK) (h := .full) rfl rfl he
  rw [Writes, poolBank_ungated]
  cases hs : shadowed .POOL_BANK [i.val] with
  | false => rw [exec_poolBank_shown hs, CopyAt.busReg_ok ⟨poolBank_valid, hs, rfl⟩ (by decide) hr hw rfl]
  | true => rw [exec_poolBank_shadowed hr hs, State.poolServed, hw]

theorem poolBank_refuses (he : s.writePoolBank i .full v = (.bankNotOwned, s)) :
    RefusesWrite (.poolBank rq i v) s rq .POOL_BANK [i.val] .bankNotOwned := by
  have hw : (s.touchGate (RegName.POOL_BANK.addr [i.val])).writeReg rq role .POOL_BANK [i.val] .full v = (.bankNotOwned, s) := by
    rw [poolBank_ungated]
    exact State.writeReg_no (u := s) (r := .POOL_BANK) (h := .full) rfl rfl he (by decide)
  rw [RefusesWrite, poolBank_ungated]
  cases hs : shadowed .POOL_BANK [i.val] with
  | false =>
    rw [exec_poolBank_shown hs, CopyAt.busReg_refused ⟨poolBank_valid, hs, rfl⟩ (by decide) hr hw (by decide) (by decide)]
  | true =>
    rw [exec_poolBank_shadowed hr hs, State.poolServed, hw]
    rfl

end

/-! ### What the write makes of the entry -/

theorem poolBank_named : fieldIn F.POOL_BANK.EN (s.merged .POOL_BANK [i.val] .full v) = bitsOf v F.POOL_BANK.EN.hi F.POOL_BANK.EN.lo ∧
    fieldIn F.POOL_BANK.BANK (s.merged .POOL_BANK [i.val] .full v) = bitsOf v F.POOL_BANK.BANK.hi F.POOL_BANK.BANK.lo :=
  ⟨fieldIn_mergeWrite_stored (g := F.POOL_BANK.EN) (by decide) (by decide),
    fieldIn_mergeWrite_stored (g := F.POOL_BANK.BANK) (by decide) (by decide)⟩

theorem writePoolBank_enabled (h : s.poolEn i = true) : s.writePoolBank i .full v =
    if bitsOf v F.POOL_BANK.BANK.hi F.POOL_BANK.BANK.lo ≠ s.poolBankNo i ∨
      (¬bitsOf v F.POOL_BANK.EN.hi F.POOL_BANK.EN.lo = 1 ∧ s.emptyWithout i < s.poolReserved) then (.bankNotOwned, s)
    else (.ok, (s.setReg .POOL_BANK [i.val] (s.merged .POOL_BANK [i.val] .full v)).put F.POOL_BANK.DRAINED
      (if bitsOf v F.POOL_BANK.EN.hi F.POOL_BANK.EN.lo = 1 then 0 else 1) [i.val]) := by
  obtain ⟨hen, hbank⟩ := poolBank_named (s := s) (i := i) (v := v)
  rw [State.writePoolBank]
  refine (if_pos h).trans ?_
  rw [hen, hbank]
  refine if_congr (by simp) rfl ?_
  split <;> simp_all [b2n]

theorem writePoolBank_disabled (h : s.poolEn i = false) : s.writePoolBank i .full v =
    if bitsOf v F.POOL_BANK.EN.hi F.POOL_BANK.EN.lo = 1 ∧ s.fld F.BANK_OWNER.KIND
      [bitsOf v F.POOL_BANK.BANK.hi F.POOL_BANK.BANK.lo / 256, bitsOf v F.POOL_BANK.BANK.hi F.POOL_BANK.BANK.lo % 256] ≠ 2
    then (.bankNotOwned, s)
    else (.ok, if s.reg .POOL_BANK [i.val] = s.merged .POOL_BANK [i.val] .full v then s
      else (s.setReg .POOL_BANK [i.val] (s.merged .POOL_BANK [i.val] .full v)).put F.POOL_BANK.DRAINED
        (if ¬bitsOf v F.POOL_BANK.EN.hi F.POOL_BANK.EN.lo = 1 ∧ s.flag F.POOL_BANK.DRAINED [i.val] = true ∧
          bitsOf v F.POOL_BANK.BANK.hi F.POOL_BANK.BANK.lo = s.poolBankNo i then 1 else 0) [i.val]) := by
  obtain ⟨hen, hbank⟩ := poolBank_named (s := s) (i := i) (v := v)
  rw [State.writePoolBank]
  refine (if_neg (by simp [h])).trans ?_
  rw [hen, hbank]
  have hdrained (a b c : Prop) [Decidable a] [Decidable b] [Decidable c] :
      b2n (!decide a && decide b && decide c) = if ¬a ∧ b ∧ c then 1 else 0 := by
    by_cases a <;> by_cases b <;> by_cases c <;> simp_all [b2n]
  refine if_congr (by simp) rfl (congrArg (Prod.mk Resp.ok) (if_congr Iff.rfl rfl ?_))
  rw [← hdrained]
  simp [beq_eq_decide]

/-- Settles O27. -/
theorem queueControlAndPool : Obligations.QueueControlAndPool := by
  unfold Obligations.QueueControlAndPool
  refine ⟨fun s rq role q => ⟨fun hr => ⟨fun h => ?_, fun h hf => ?_, fun fl h hfl hin => ?_, fun h => ?_, fun h => ?_⟩,
    qResetDone_completes, exec_qResetDone_none⟩, fun s rq role i v hr => ⟨fun h h' => ?_, fun h h' h'' => ?_, fun h h' h'' => ?_,
    fun h h' h'' => ?_, fun h h' => ?_, ?_⟩⟩
  · refine skip_writes hr (writeQCtrl_skip.trans ?_)
    rw [skipHead_sound (by rwa [sameCtrl_headCell])]
    rfl
  · refine skip_writes hr (writeQCtrl_skip.trans ?_)
    rw [skipHead_plain (by rwa [sameCtrl_headCell]) fun fl hfl => ?_]
    · rfl
    · rw [sameCtrl_flows.flowOfQueue] at hfl
      rw [sameCtrl_flows.flowIn (State.flowOfQueue_lt hfl)]
      exact hf fl hfl
  · have hlt := State.flowOfQueue_lt hfl
    refine skip_writes hr (writeQCtrl_skip.trans ?_)
    rw [skipHead_flow (by rwa [sameCtrl_headCell]) (by rwa [sameCtrl_flows.flowOfQueue]) (by rwa [sameCtrl_flows.flowIn hlt]),
      sameCtrl_flows.fld (.inr (.inr rfl)) hlt]
    rfl
  · obtain ⟨fl, hfl, hbusy⟩ := h
    exact reset_refuses hr (writeQCtrl_reset.trans (if_pos (by simp [hfl, hbusy])))
  · refine reset_writes hr (writeQCtrl_reset.trans (if_neg ?_))
    cases hfl : s.flowOfQueue q with
    | none => simp
    | some fl => simp [h fl hfl]
  · exact poolBank_refuses hr ((writePoolBank_enabled h).trans (if_pos (.inl h')))
  · exact poolBank_refuses hr ((writePoolBank_enabled h).trans (if_pos (.inr ⟨h', h''⟩)))
  · refine poolBank_writes hr ((writePoolBank_enabled h).trans (if_neg ?_))
    rintro (hne | ⟨hne, hlt⟩)
    · exact hne h'
    · exact h''.elim hne fun hle => by omega
  · exact poolBank_refuses hr ((writePoolBank_disabled h).trans (if_pos ⟨h', h''⟩))
  · exact poolBank_writes hr ((writePoolBank_disabled h).trans (if_neg fun hc => hc.2 (h' hc.1)))
  · rw [State.poolDrained, State.poolUsed]
    cases s.cellsUsed (s.poolBankNo i) <;> rfl

end Sys2Proof.Machine
end

section
/-! Writes to the registers of relay ports and lanes (R246 to R250, R256, R257): O31. -/

namespace Sys2Proof.Machine

variable {s t : State} {rq : Rq} {p : Port} {i : Lane} {v : W64} {f : State → State} {c : Instr} {x : Resp} {r : RegName} {ix : List Nat}
  {n : Nat}

/-! ### Writes that replace one field, or set one bit -/

/-- A write of the register's own value with one field replaced puts the field. -/
theorem State.merged_withField {g : Fld} (hg : g.stored = true) (hlo : g.lo ≤ g.hi) (hc : g.reg.mask [.w1c] = 0) :
    mergeWrite g.reg .full (s.reg g.reg ix) (s.withField g ix n) = s.withField g ix n := by
  ext j hj
  rw [← BitVec.getLsbD_eq_getElem, ← BitVec.getLsbD_eq_getElem, getLsbD_mergeWrite hj, hc, State.withField,
    Nat.zero_testBit, Bool.and_false, Bool.not_false, Bool.and_true, getLsbD_setBits _ _ _ _ _ hlo hj]
  have hbits := List.all_eq_true.mp hg j (List.mem_range.mpr hj)
  by_cases hin : g.lo ≤ j ∧ j ≤ g.hi
  · rw [if_pos hin]
    simp only [hin.1, hin.2, decide_true, Bool.and_self, Bool.not_true, Bool.false_or, Bool.and_eq_true] at hbits
    rw [hbits.1, if_pos rfl]
  · rw [if_neg hin, ite_self]

theorem State.store_withField {g : Fld} (hg : g.stored = true) (hlo : g.lo ≤ g.hi) (hc : g.reg.mask [.w1c] = 0) :
    s.store g.reg ix .full (s.withField g ix n) = s.put g n ix := by
  rw [State.store, State.merged, State.merged_withField hg hlo hc, State.put, State.withField]

/-- A bit that is set already is put where it stands. -/
theorem State.withField_set {g : Fld} (hb : g.hi = g.lo) (h : s.flag g ix = true) : s.withField g ix 1 = s.reg g.reg ix := by
  have hbit : (s.reg g.reg ix).getLsbD g.lo = true := by
    have hf : fieldIn g (s.reg g.reg ix) ≠ 0 := by simpa [State.flag, State.fld, fieldIn] using h
    rw [fieldIn_bit hb] at hf
    cases hg : (s.reg g.reg ix).getLsbD g.lo with
    | true => rfl
    | false => simp [hg] at hf
  ext j hj
  rw [← BitVec.getLsbD_eq_getElem, ← BitVec.getLsbD_eq_getElem, State.withField, getLsbD_setBits _ _ _ _ _ (by omega) hj]
  split
  · next hin =>
    obtain rfl : j = g.lo := by omega
    rw [hbit, Nat.sub_self]
    rfl
  · rfl

theorem GateOnly.withField {g : Fld} (h : GateOnly s t) (hv : g.reg.valid ix = true) (hr : g.reg ≠ .GATE) :
    s.withField g ix n = t.withField g ix n := by
  rw [State.withField, ← h.reg _ _ hv hr, State.withField]

theorem GateOnly.withSet {g : Fld} (h : GateOnly s t) (hv : g.reg.valid ix = true) (hr : g.reg ≠ .GATE) :
    s.withSet g ix = t.withSet g ix := by
  rw [State.withSet, ← h.reg _ _ hv hr, State.withSet]

/-! ### The registers of ports and lanes -/

/-- The registers of ports and lanes that take writes of their own kind. -/
def linkRegs : List RegName := [.PORT_CTRL, .LANE_CTRL, .LANE_EQ]

theorem linkReg_plain {w : W64} (hm : r ∈ linkRegs) : ownCopies r = true ∧ t.writeRight .installer r ix .full w = true ∧
    t.slotDenies rq r ix = false ∧ t.writeRecorded r ix .full w = true ∧
    t.writeEffect rq .installer r ix .full w = t.writeRelayReg r ix .full w := by
  fin_cases hm <;> exact ⟨rfl, rfl, rfl, rfl, rfl⟩

theorem portCtrl_valid : RegName.PORT_CTRL.valid (portIx p) = true := by
  have := p.isLt
  simp [RegName.valid, RegName.place, ixValid, portIx]
  omega

theorem laneReg_valid (hm : r = .LANE_CTRL ∨ r = .LANE_EQ) : r.valid (laneIx p i) = true := by
  have := p.isLt
  have := i.isLt
  obtain rfl | rfl := hm
  all_goals
    simp [RegName.valid, RegName.place, ixValid, laneIx, portIx]
    omega

theorem laneErr_valid : RegName.LANE_ERR.valid (laneIx p i) = true := by
  have := p.isLt
  have := i.isLt
  simp [RegName.valid, RegName.place, ixValid, laneIx, portIx]
  omega

section
variable (hm : r ∈ linkRegs) (hv : r.valid ix = true) (hr : Reaches s rq .installer (r.addr ix))
  (hc : exec c s = .next (s.busReg rq r ix v))
include hm hv hr hc

theorem linkReg_writes (he : (s.touchGate (r.addr ix)).writeRelayReg r ix .full v = (.ok, f (s.touchGate (r.addr ix)))) :
    WritesRecorded c s rq r ix f := by
  obtain ⟨hown, hright, hslot, hrecord, heffect⟩ := linkReg_plain (t := s.touchGate (r.addr ix)) (rq := rq) (ix := ix) (w := v) hm
  have hw : RegWrite c s rq .installer r ix v := .of_reaches hown hv hr hc
  exact hw.writesRecorded rfl hright hslot hrecord (heffect.trans he)

theorem linkReg_refuses (he : (s.touchGate (r.addr ix)).writeRelayReg r ix .full v = (.bankNotOwned, s.touchGate (r.addr ix))) :
    RefusesWrite c s rq r ix .bankNotOwned := by
  obtain ⟨hown, hright, hslot, hrecord, heffect⟩ := linkReg_plain (t := s.touchGate (r.addr ix)) (rq := rq) (ix := ix) (w := v) hm
  have hw : RegWrite c s rq .installer r ix v := .of_reaches hown hv hr hc
  exact hw.refuses rfl hright hslot (heffect.trans he) (by decide) (by decide)

end

theorem linkReg_gate (hm : r ∈ linkRegs) (hv : r.valid ix = true) : GateOnly s (s.touchGate (r.addr ix)) := by
  refine .touchGate hv ?_
  fin_cases hm <;> rfl

/-! ### PORT_CTRL -/

section
variable (h : GateOnly s t)
include h

theorem GateOnly.portEn : t.portEn p = s.portEn p := by
  rw [State.portEn, State.flag, h.fld (f := F.PORT_CTRL.EN) portCtrl_valid (by decide), State.portEn, State.flag]

theorem GateOnly.farLooped : t.farLooped p = (s.flag F.PORT_CTRL.FAR_LOOP (portIx p) && !s.ref.straps.ref) := by
  have href : t.aloneRef = s.aloneRef := by rw [h.rest]; rfl
  rw [State.farLooped, State.flag, h.fld (f := F.PORT_CTRL.FAR_LOOP) portCtrl_valid (by decide), href]
  rfl

theorem GateOnly.farFlag : t.flag F.PORT_CTRL.FAR_LOOP (portIx p) = s.flag F.PORT_CTRL.FAR_LOOP (portIx p) := by
  rw [State.flag, h.fld (f := F.PORT_CTRL.FAR_LOOP) portCtrl_valid (by decide), State.flag]

theorem GateOnly.strapRef : t.ref.straps.ref = s.ref.straps.ref := by rw [h.rest]

theorem GateOnly.laneFld {g : Fld} (hg : g.reg = .LANE_CTRL) : t.fld g (laneIx p i) = s.fld g (laneIx p i) :=
  h.fld (by rw [hg]; exact laneReg_valid (.inl rfl)) (by rw [hg]; decide)

theorem GateOnly.laneFlag {g : Fld} (hg : g.reg = .LANE_CTRL := by decide) : t.flag g (laneIx p i) = s.flag g (laneIx p i) := by
  rw [State.flag, h.laneFld hg, State.flag]

theorem GateOnly.maps : t.rxMap p = s.rxMap p ∧ t.txMap p = s.txMap p := by
  have hv : RegName.PORT_MAP.valid (portIx p) = true := by
    have := p.isLt
    simp [RegName.valid, RegName.place, ixValid, portIx]
    omega
  exact ⟨congrArg mapLanes (h.fld (f := F.PORT_MAP.RX) hv (by decide)), congrArg mapLanes (h.fld (f := F.PORT_MAP.TX) hv (by decide))⟩

end

theorem farLooped_put_en : (s.put F.PORT_CTRL.EN n (portIx p)).farLooped p = s.farLooped p := by
  rw [State.farLooped, State.flag,
    State.fld_put_field (f := F.PORT_CTRL.EN) (f' := F.PORT_CTRL.FAR_LOOP) rfl (by decide) (by decide) (by decide)]
  rfl

theorem portEn_put_en {b : Bool} : (s.put F.PORT_CTRL.EN (b2n b) (portIx p)).portEn p = b := by
  rw [State.portEn, State.flag, State.fld_put (f := F.PORT_CTRL.EN) (by decide) (by decide)]
  cases b <;> rfl

theorem writePortCtrl_en {b : Bool} : s.writePortCtrl p .full (s.withField F.PORT_CTRL.EN (portIx p) (b2n b)) =
    (.ok, if s.farLooped p = true ∨ s.portEn p = b then s.put F.PORT_CTRL.EN (b2n b) (portIx p)
      else if b = true then (s.put F.PORT_CTRL.EN (b2n b) (portIx p)).acquire p
      else (s.put F.PORT_CTRL.EN (b2n b) (portIx p)).portDown p) := by
  have hstore : s.store .PORT_CTRL (portIx p) .full (s.withField F.PORT_CTRL.EN (portIx p) (b2n b)) =
      s.put F.PORT_CTRL.EN (b2n b) (portIx p) := State.store_withField (g := F.PORT_CTRL.EN) (by decide) (by decide) (by decide)
  rw [State.writePortCtrl, hstore, farLooped_put_en, portEn_put_en]
  cases s.farLooped p <;> cases s.portEn p <;> cases b <;> rfl

theorem portEn_put_far : (s.put F.PORT_CTRL.FAR_LOOP n (portIx p)).portEn p = s.portEn p := by
  rw [State.portEn, State.flag,
    State.fld_put_field (f := F.PORT_CTRL.FAR_LOOP) (f' := F.PORT_CTRL.EN) rfl (by decide) (by decide) (by decide)]
  rfl

theorem farLooped_put_far : (s.put F.PORT_CTRL.FAR_LOOP 1 (portIx p)).farLooped p = !s.ref.straps.ref := by
  rw [State.farLooped, State.flag_put_one (by decide) (by decide), Bool.true_and]
  rfl

theorem writePortCtrl_far : s.writePortCtrl p .full (s.withField F.PORT_CTRL.FAR_LOOP (portIx p) 1) =
    (.ok, if s.flag F.PORT_CTRL.FAR_LOOP (portIx p) = true ∨ s.ref.straps.ref = true then s.put F.PORT_CTRL.FAR_LOOP 1 (portIx p)
      else ((s.put F.PORT_CTRL.FAR_LOOP 1 (portIx p)).leaveUp p).farLoop p) := by
  have hstore : s.store .PORT_CTRL (portIx p) .full (s.withField F.PORT_CTRL.FAR_LOOP (portIx p) 1) =
      s.put F.PORT_CTRL.FAR_LOOP 1 (portIx p) := State.store_withField (g := F.PORT_CTRL.FAR_LOOP) (by decide) (by decide) (by decide)
  have hwas : s.farLooped p = (s.flag F.PORT_CTRL.FAR_LOOP (portIx p) && !s.ref.straps.ref) := rfl
  rw [State.writePortCtrl, hstore, farLooped_put_far, portEn_put_far, hwas]
  cases s.flag F.PORT_CTRL.FAR_LOOP (portIx p) <;> cases s.ref.straps.ref <;> cases s.portEn p <;> rfl

theorem writeRelayReg_port {w : W64} : s.writeRelayReg .PORT_CTRL (portIx p) .full w = s.writePortCtrl p .full w := by
  show s.writePortCtrl (4 * (p.val / 4) + p.val % 4) .full w = _
  rw [Nat.div_add_mod]

/-- A write that replaces one field of PORT_CTRL. -/
theorem portField_writes {g : Fld} (hg : g.reg = .PORT_CTRL) (hr : Reaches s rq .installer (RegName.PORT_CTRL.addr (portIx p)))
    (hc : exec c s = .next (s.busReg rq .PORT_CTRL (portIx p) (s.withField g (portIx p) n)))
    (he : ∀ t, GateOnly s t → t.writePortCtrl p .full (t.withField g (portIx p) n) = (.ok, f t)) :
    WritesRecorded c s rq .PORT_CTRL (portIx p) f := by
  have hgate := linkReg_gate (s := s) (r := .PORT_CTRL) (by decide) (portCtrl_valid (p := p))
  refine linkReg_writes (by decide) portCtrl_valid hr hc ?_
  rw [writeRelayReg_port, hgate.withField (g := g) (by rw [hg]; exact portCtrl_valid) (by rw [hg]; decide)]
  exact he _ hgate

/-! ### LANE_CTRL and LANE_EQ -/

theorem writeRelayReg_lane {w : W64} : s.writeRelayReg .LANE_CTRL (laneIx p i) .full w = s.writeLaneCtrl p i .full w := by
  show s.writeLaneCtrl (4 * (p.val / 4) + p.val % 4) i .full w = _
  rw [Nat.div_add_mod]

theorem writeRelayReg_eq {w : W64} : s.writeRelayReg .LANE_EQ (laneIx p i) .full w = s.writeLaneEq p i .full w := by
  show s.writeLaneEq (4 * (p.val / 4) + p.val % 4) i .full w = _
  rw [Nat.div_add_mod]

/-- LANE_CTRL written with its own value. -/
def State.sameLane (s : State) (p : Port) (i : Lane) : State :=
  s.lanesChange p [i.val] fun g => g.setReg .LANE_CTRL (laneIx p i) (g.reg .LANE_CTRL (laneIx p i))

theorem latchEq_still (h : s.flag F.LANE_CTRL.ADAPT (laneIx p i) = false) : s.latchEq p i = s := by
  rw [State.latchEq, State.adapting, h, Bool.false_and, if_neg (by decide)]

theorem latchPrbs_ctrl : (s.latchPrbs p i).reg .LANE_CTRL (laneIx p i) = s.reg .LANE_CTRL (laneIx p i) := by
  unfold State.latchPrbs
  split
  · exact State.reg_put_ne (f := F.LANE_ERR.PRBS_ERR) (by decide) laneErr_valid (laneReg_valid (.inl rfl))
  · rfl

/-- A change of one lane acts on what the change of its checker leaves. -/
theorem lanesChange_congr {g g' : State → State} (h : g (s.latchPrbs p i) = g' (s.latchPrbs p i)) :
    s.lanesChange p [i.val] g = s.lanesChange p [i.val] g' := by
  simp only [State.lanesChange, List.foldl_cons, List.foldl_nil, h]

/-- What a write makes of the lane's register, by the value that it leaves in it. -/
theorem lanesChange_store {w y : W64} (h : mergeWrite .LANE_CTRL .full (s.reg .LANE_CTRL (laneIx p i)) w = y) :
    (s.lanesChange p [i.val] fun g => g.store .LANE_CTRL (laneIx p i) .full w) =
      s.lanesChange p [i.val] fun g => g.setReg .LANE_CTRL (laneIx p i) y := by
  refine lanesChange_congr ?_
  rw [State.store, State.merged, latchPrbs_ctrl, h]

theorem sameLane_eq : s.sameLane p i = s.lanesChange p [i.val] fun g => g.setReg .LANE_CTRL (laneIx p i) (s.reg .LANE_CTRL (laneIx p i)) := by
  refine lanesChange_congr ?_
  rw [latchPrbs_ctrl]

/-- A write after which ADAPT stands as it was. -/
theorem adapt_still {y : W64} (h : fieldIn F.LANE_CTRL.ADAPT y = s.fld F.LANE_CTRL.ADAPT (laneIx p i)) :
    (if fieldIn F.LANE_CTRL.ADAPT y = 0 then s.latchEq p i else s) = s := by
  rw [h]
  split
  · next h => exact latchEq_still (by rw [State.flag, h]; rfl)
  · rfl

/-- A write after which ADAPT and NEAR_LOOP stand as they were acts through RETIRE and CLR_FAIL alone. -/
theorem writeLaneCtrl_still {w : W64} (h : mergeWrite .LANE_CTRL .full (s.reg .LANE_CTRL (laneIx p i)) w = s.reg .LANE_CTRL (laneIx p i)) :
    s.writeLaneCtrl p i .full w = (.ok,
      (if wrote F.LANE_CTRL.CLR_FAIL .full w = true then
        (if wrote F.LANE_CTRL.RETIRE .full w = true then (s.sameLane p i).failLane p i 2 else s.sameLane p i).clearFail p i
      else if wrote F.LANE_CTRL.RETIRE .full w = true then (s.sameLane p i).failLane p i 2 else s.sameLane p i).portMirror p) := by
  have hstore := lanesChange_store h
  have hnear : (fieldIn F.LANE_CTRL.NEAR_LOOP (s.reg .LANE_CTRL (laneIx p i)) != 0) = s.flag F.LANE_CTRL.NEAR_LOOP (laneIx p i) := rfl
  rw [State.writeLaneCtrl, State.merged, h, hnear, adapt_still (y := s.reg .LANE_CTRL (laneIx p i)) rfl]
  dsimp only
  rw [hstore, ← sameLane_eq]
  cases s.flag F.LANE_CTRL.NEAR_LOOP (laneIx p i) <;> rfl

/-- A lane outside both maps goes into near-end loopback. -/
theorem writeLaneCtrl_near (hn : s.flag F.LANE_CTRL.NEAR_LOOP (laneIx p i) = false) (hr : s.fld F.LANE_CTRL.RETIRE (laneIx p i) = 0)
    (hc : s.fld F.LANE_CTRL.CLR_FAIL (laneIx p i) = 0) :
    s.writeLaneCtrl p i .full (s.withField F.LANE_CTRL.NEAR_LOOP (laneIx p i) 1) =
      if s.outsideMaps p i = false then (.bankNotOwned, s)
      else (.ok, ((s.lanesChange p [i.val] fun g => g.put F.LANE_CTRL.NEAR_LOOP 1 (laneIx p i)).setLane p i 5).portMirror p) := by
  have hmerged : mergeWrite .LANE_CTRL .full (s.reg .LANE_CTRL (laneIx p i)) (s.withField F.LANE_CTRL.NEAR_LOOP (laneIx p i) 1) =
      s.withField F.LANE_CTRL.NEAR_LOOP (laneIx p i) 1 :=
    State.merged_withField (g := F.LANE_CTRL.NEAR_LOOP) (by decide) (by decide) (by decide)
  have hother {g : Fld} (hreg : g.reg = .LANE_CTRL) (hhi : g.hi < 64) (hne : g.hi < 2 ∨ 2 < g.lo) :
      fieldIn g (s.withField F.LANE_CTRL.NEAR_LOOP (laneIx p i) 1) = s.fld g (laneIx p i) := by
    rw [State.fld, hreg]
    exact bitsOf_setBits_ne _ _ _ _ _ _ (by decide) hhi hne
  have hnear : fieldIn F.LANE_CTRL.NEAR_LOOP (s.withField F.LANE_CTRL.NEAR_LOOP (laneIx p i) 1) = 1 :=
    bitsOf_setBits _ _ _ _ (by decide) (by decide)
  have hput : (s.lanesChange p [i.val] fun g => g.store .LANE_CTRL (laneIx p i) .full (s.withField F.LANE_CTRL.NEAR_LOOP (laneIx p i) 1)) =
      s.lanesChange p [i.val] fun g => g.put F.LANE_CTRL.NEAR_LOOP 1 (laneIx p i) := by
    refine (lanesChange_store hmerged).trans (lanesChange_congr ?_)
    rw [State.put, show F.LANE_CTRL.NEAR_LOOP.reg = .LANE_CTRL from rfl, latchPrbs_ctrl]
    rfl
  rw [State.writeLaneCtrl, State.merged, hmerged, hnear, hn, adapt_still (hother rfl (by decide) (by decide))]
  dsimp only
  rw [hput, wrote_full, wrote_full,
    hother rfl (by decide) (by decide), hother rfl (by decide) (by decide), hr, hc]
  cases s.outsideMaps p i <;> rfl

/-! The commands. -/

section
variable (hr : Reaches s rq .installer (RegName.LANE_CTRL.addr (laneIx p i)))
include hr

theorem lane_writes {w : W64} (hc : exec c s = .next (s.busReg rq .LANE_CTRL (laneIx p i) w))
    (he : ∀ t, GateOnly s t → t.writeLaneCtrl p i .full w = (.ok, f t)) : WritesRecorded c s rq .LANE_CTRL (laneIx p i) f := by
  refine linkReg_writes (by decide) (laneReg_valid (.inl rfl)) hr hc ?_
  rw [writeRelayReg_lane]
  exact he _ (linkReg_gate (by decide) (laneReg_valid (.inl rfl)))

theorem lane_refuses {w : W64} (hc : exec c s = .next (s.busReg rq .LANE_CTRL (laneIx p i) w))
    (he : ∀ t, GateOnly s t → t.writeLaneCtrl p i .full w = (.bankNotOwned, t)) :
    RefusesWrite c s rq .LANE_CTRL (laneIx p i) .bankNotOwned := by
  refine linkReg_refuses (by decide) (laneReg_valid (.inl rfl)) hr hc ?_
  rw [writeRelayReg_lane]
  exact he _ (linkReg_gate (by decide) (laneReg_valid (.inl rfl)))

end

/-- Settles O31. -/
theorem relayPortRegisters : Obligations.RelayPortRegisters := by
  unfold Obligations.RelayPortRegisters
  intro s rq p i v px lx port lane sets same far loop near
  refine ⟨fun h hr => ?_, fun h h' hr => ?_, fun h hr => ?_, fun h h' hr => ?_, fun h hr => ?_, fun h h' hr => ?_, fun hr => ?_,
    fun hr => ?_, fun h h' => ⟨fun hn hr => ?_, fun hn hrx htx hr => ?_, fun hn hm hr => ?_⟩, fun hr => ⟨fun h => ?_, fun h => ?_⟩⟩
  · refine portField_writes (g := F.PORT_CTRL.EN) rfl hr rfl fun t ht => (writePortCtrl_en (b := true)).trans ?_
    rw [ht.farLooped, ht.portEn, if_pos h]
    rfl
  · refine portField_writes (g := F.PORT_CTRL.EN) rfl hr rfl fun t ht => (writePortCtrl_en (b := true)).trans ?_
    rw [ht.farLooped, ht.portEn, if_neg (not_or.mpr ⟨Bool.eq_false_iff.mp h, by rw [h']; decide⟩)]
    rfl
  · refine portField_writes (g := F.PORT_CTRL.EN) rfl hr rfl fun t ht => (writePortCtrl_en (b := false)).trans ?_
    rw [ht.farLooped, ht.portEn, if_pos h]
    rfl
  · refine portField_writes (g := F.PORT_CTRL.EN) rfl hr rfl fun t ht => (writePortCtrl_en (b := false)).trans ?_
    rw [ht.farLooped, ht.portEn, if_neg (not_or.mpr ⟨Bool.eq_false_iff.mp h, by rw [h']; decide⟩)]
    rfl
  · refine portField_writes (g := F.PORT_CTRL.FAR_LOOP) rfl hr rfl fun t ht => writePortCtrl_far.trans ?_
    rw [ht.farFlag, ht.strapRef, if_pos h]
  · refine portField_writes (g := F.PORT_CTRL.FAR_LOOP) rfl hr rfl fun t ht => writePortCtrl_far.trans ?_
    rw [ht.farFlag, ht.strapRef, if_neg (not_or.mpr ⟨Bool.eq_false_iff.mp h, Bool.eq_false_iff.mp h'⟩)]
    rfl
  · refine lane_writes (w := s.withSet F.LANE_CTRL.RETIRE (laneIx p i)) hr rfl fun t ht => ?_
    rw [ht.withSet (g := F.LANE_CTRL.RETIRE) (laneReg_valid (.inl rfl)) (by decide)]
    refine (writeLaneCtrl_still (State.merged_withSet (f := F.LANE_CTRL.RETIRE) (by decide) (by decide))).trans ?_
    rw [State.wrote_withSet (f := F.LANE_CTRL.RETIRE) (by decide) (by decide),
      State.wrote_withSet_ne (f := F.LANE_CTRL.RETIRE) (g := F.LANE_CTRL.CLR_FAIL) rfl (by decide) rfl (by decide)]
    rfl
  · refine lane_writes (w := s.withSet F.LANE_CTRL.CLR_FAIL (laneIx p i)) hr rfl fun t ht => ?_
    rw [ht.withSet (g := F.LANE_CTRL.CLR_FAIL) (laneReg_valid (.inl rfl)) (by decide)]
    refine (writeLaneCtrl_still (State.merged_withSet (f := F.LANE_CTRL.CLR_FAIL) (by decide) (by decide))).trans ?_
    rw [State.wrote_withSet (f := F.LANE_CTRL.CLR_FAIL) (by decide) (by decide),
      State.wrote_withSet_ne (f := F.LANE_CTRL.CLR_FAIL) (g := F.LANE_CTRL.RETIRE) rfl (by decide) rfl (by decide)]
    rfl
  · refine lane_writes (w := s.withField F.LANE_CTRL.NEAR_LOOP (laneIx p i) 1) hr rfl fun t ht => ?_
    have hsame : t.withField F.LANE_CTRL.NEAR_LOOP (laneIx p i) 1 = t.reg .LANE_CTRL (laneIx p i) :=
      State.withField_set (g := F.LANE_CTRL.NEAR_LOOP) rfl (ht.laneFlag.trans hn)
    have hmerged := State.merged_withField (s := t) (n := 1) (ix := laneIx p i) (g := F.LANE_CTRL.NEAR_LOOP) (by decide) (by decide)
      (by decide)
    have hzero {g : Fld} (hg : g.reg = .LANE_CTRL) (h0 : s.fld g (laneIx p i) = 0) : wrote g .full (t.reg .LANE_CTRL (laneIx p i)) = false := by
      rw [wrote_full, bne_eq_false_iff_eq]
      refine Eq.trans ?_ h0
      rw [← ht.laneFld hg, State.fld, hg]
      rfl
    rw [hsame] at hmerged
    rw [ht.withField (g := F.LANE_CTRL.NEAR_LOOP) (laneReg_valid (.inl rfl)) (by decide), hsame]
    refine (writeLaneCtrl_still hmerged).trans ?_
    rw [hzero (g := F.LANE_CTRL.CLR_FAIL) rfl h', hzero (g := F.LANE_CTRL.RETIRE) rfl h]
    rfl
  · refine lane_writes (w := s.withField F.LANE_CTRL.NEAR_LOOP (laneIx p i) 1) hr rfl fun t ht => ?_
    rw [ht.withField (g := F.LANE_CTRL.NEAR_LOOP) (laneReg_valid (.inl rfl)) (by decide)]
    refine (writeLaneCtrl_near (ht.laneFlag.trans hn) ((ht.laneFld rfl).trans h) ((ht.laneFld rfl).trans h')).trans (if_neg ?_)
    rw [State.outsideMaps, ht.maps.1, ht.maps.2]
    simp [hrx, htx]
  · refine lane_refuses (w := s.withField F.LANE_CTRL.NEAR_LOOP (laneIx p i) 1) hr rfl fun t ht => ?_
    rw [ht.withField (g := F.LANE_CTRL.NEAR_LOOP) (laneReg_valid (.inl rfl)) (by decide)]
    refine (writeLaneCtrl_near (ht.laneFlag.trans hn) ((ht.laneFld rfl).trans h) ((ht.laneFld rfl).trans h')).trans (if_pos ?_)
    rw [State.outsideMaps, ht.maps.1, ht.maps.2]
    obtain hm | hm := hm
    · simp [hm]
    · simp [hm]
  · have hgate := linkReg_gate (s := s) (r := .LANE_EQ) (by decide) (laneReg_valid (p := p) (i := i) (.inr rfl))
    refine linkReg_refuses (by decide) (laneReg_valid (.inr rfl)) hr rfl (writeRelayReg_eq.trans (if_pos ?_))
    exact hgate.laneFlag.trans h
  · have hgate := linkReg_gate (s := s) (r := .LANE_EQ) (by decide) (laneReg_valid (p := p) (i := i) (.inr rfl))
    refine linkReg_writes (by decide) (laneReg_valid (.inr rfl)) hr rfl (writeRelayReg_eq.trans (if_neg ?_))
    rw [hgate.laneFlag, h]
    decide

end Sys2Proof.Machine
end

section
/-! Writes to the chain, bridge, enrolment and lab-mode registers, and the Referee's enrolments (R274, R277 to R279, R290, R295, R297):
O32. -/

namespace Sys2Proof.Machine

variable {s t : State} {rq : Rq} {role : Role} {b : Fin 64} {v w : W64} {f : State → State} {c : Instr} {x : Resp} {r : RegName}
  {ix : List Nat} {g : Fld} {j : EnrolJob}

/-! ### The way of an installer's write to a register of the package -/

/-- A register of the package that the installer writes, and whose writes are recorded. -/
structure InstallerReg (r : RegName) (ix : List Nat) : Prop where
  own : ownCopies r = true
  ungated : ungatedPackage r = true
  valid : r.valid ix = true
  right : ∀ (s : State) (v : W64), s.writeRight .installer r ix .full v = true
  slot : ∀ (s : State) (rq : Rq), s.slotDenies rq r ix = false
  recorded : ∀ (s : State) (v : W64), s.writeRecorded r ix .full v = true

section
variable (hi : InstallerReg r ix) (hr : Reaches s rq .installer (r.addr ix)) (hc : exec c s = .next (s.busReg rq r ix v))
include hi hr hc

theorem InstallerReg.writes (he : s.writeEffect rq .installer r ix .full v = (.ok, f s)) : WritesRecorded c s rq r ix f :=
  (RegWrite.of_reaches hi.own hi.valid hr hc).writesRecorded (touchGate_package hi.ungated hi.valid) (hi.right s v) (hi.slot s rq)
    (hi.recorded s v) he

theorem InstallerReg.refuses (he : s.writeEffect rq .installer r ix .full v = (x, s)) (hx : x ≠ .ok) (hd : x ≠ .roleDenied) :
    RefusesWrite c s rq r ix x :=
  (RegWrite.of_reaches hi.own hi.valid hr hc).refuses (touchGate_package hi.ungated hi.valid) (hi.right s v) (hi.slot s rq) he hx hd

theorem InstallerReg.denies (he : s.writeEffect rq .installer r ix .full v = (.roleDenied, s)) :
    exec c s = .next ((s.denied.answer rq false .roleDenied 0 0).finish) :=
  (RegWrite.of_reaches hi.own hi.valid hr hc).deniedByEffect (touchGate_package hi.ungated hi.valid) (hi.right s v) (hi.slot s rq) he

end

theorem installerReg_chainCfg : InstallerReg .CHAIN_CFG [] := ⟨rfl, rfl, rfl, fun _ _ => rfl, fun _ _ => rfl, fun _ _ => rfl⟩
theorem installerReg_enrolCtrl : InstallerReg .ENROL_CTRL [] := ⟨rfl, rfl, rfl, fun _ _ => rfl, fun _ _ => rfl, fun _ _ => rfl⟩
theorem installerReg_secCtrl : InstallerReg .SEC_CTRL [] := ⟨rfl, rfl, rfl, fun _ _ => rfl, fun _ _ => rfl, fun _ _ => rfl⟩
theorem installerReg_bridge : InstallerReg .BRIDGE_CFG [b.val] :=
  ⟨rfl, rfl, by simp [RegName.valid, RegName.place, ixValid], fun _ _ => rfl, fun _ _ => rfl, fun _ _ => rfl⟩

/-! ### CHAIN_CFG and CHAIN_CTRL -/

theorem chainCfg_mode : fieldIn F.CHAIN_CFG.MODE (s.merged .CHAIN_CFG [] .full v) = bitsOf v F.CHAIN_CFG.MODE.hi F.CHAIN_CFG.MODE.lo :=
  fieldIn_mergeWrite_stored (g := F.CHAIN_CFG.MODE) (by decide) (by decide)

theorem writeChainCfg_eq : s.writeChainCfg .full v = if s.lapsRun = true then (.bankNotOwned, s)
    else if bitsOf v F.CHAIN_CFG.MODE.hi F.CHAIN_CFG.MODE.lo = 1 ∧ s.ref.straps.anchor = false then (.decodeError, s)
    else (.ok, s.setReg .CHAIN_CFG [] (s.merged .CHAIN_CFG [] .full v)) := by
  rw [State.writeChainCfg, chainCfg_mode]
  simp only [Bool.not_eq_true']

theorem exec_chainDiscard (hr : Reaches s rq role (RegName.CHAIN_CTRL.addr [])) :
    WritesRecorded (.chainCtrlDiscard rq) s rq .CHAIN_CTRL [] fun g =>
      if s.fab.phase = .undecided then ((g.noteScratch 0 none).discardLap).haltLaps 6 else g := by
  have hw : RegWrite (.chainCtrlDiscard rq) s rq role .CHAIN_CTRL [] 1 := .of_reaches (by decide) (by decide) hr rfl
  refine hw.writesRecorded (touchGate_package (by decide) (by decide)) rfl rfl ?_ ?_
  · show wrote F.CHAIN_CTRL.DISCARD .full 1 = true
    decide
  · show (Resp.ok, if wrote F.CHAIN_CTRL.DISCARD .full 1 = true then s.discardUndecided else s) = _
    rw [if_pos (by decide), State.discardUndecided]
    simp only [beq_iff_eq]

/-! ### Bridges -/

/-- The bridge out of use. -/
def State.bridgeClosed (s : State) (b : Fin 64) : State := (if s.bridgeEn b then s.closeBridge b else s).put F.BRIDGE_CFG.EN 0 [b.val]

theorem bridge_field {g : Fld} (hg : g ∈ [F.BRIDGE_CFG.PEER_ID, F.BRIDGE_CFG.EN, F.BRIDGE_CFG.DIR, F.BRIDGE_CFG.QUEUE]) :
    fieldIn g (s.merged .BRIDGE_CFG [b.val] .full v) = fieldIn g v := by
  have hstored : ∀ g ∈ [F.BRIDGE_CFG.PEER_ID, F.BRIDGE_CFG.EN, F.BRIDGE_CFG.DIR, F.BRIDGE_CFG.QUEUE],
      g.stored = true ∧ g.hi < 64 ∧ g.reg = .BRIDGE_CFG := by decide
  obtain ⟨hs, hh, hr⟩ := hstored g hg
  rw [State.merged, ← hr]
  exact fieldIn_mergeWrite_stored hs hh

theorem writeBridge_eq : s.writeBridge b .full v =
    if s.lapsRun = true then (.bankNotOwned, s)
    else if s.merged .BRIDGE_CFG [b.val] .full v = s.reg .BRIDGE_CFG [b.val] then (.ok, s)
    else if v.getLsbD F.BRIDGE_CFG.EN.lo = false then
      (.ok, (s.bridgeClosed b).setReg .BRIDGE_CFG [b.val] (s.merged .BRIDGE_CFG [b.val] .full v))
    else if (s.bridgeClosed b).bridgeQualifies (bitsOf v 12 0) (v.getLsbD 14) = false then (.bankNotOwned, s)
    else if (s.flag F.FWD.VALID [bitsOf v F.BRIDGE_CFG.PEER_ID.hi F.BRIDGE_CFG.PEER_ID.lo] &&
        !s.enrolled (s.fld F.FWD.PORT [bitsOf v F.BRIDGE_CFG.PEER_ID.hi F.BRIDGE_CFG.PEER_ID.lo])) = true then (.unenrolled, s)
    else (.ok, ((s.bridgeClosed b).setReg .BRIDGE_CFG [b.val] (s.merged .BRIDGE_CFG [b.val] .full v)).pumpBridges) := by
  have hen : (fieldIn F.BRIDGE_CFG.EN v = 0) = (v.getLsbD F.BRIDGE_CFG.EN.lo = false) := by
    rw [fieldIn_bit rfl]
    cases v.getLsbD F.BRIDGE_CFG.EN.lo <;> simp
  have hdir : (fieldIn F.BRIDGE_CFG.DIR v == 1) = v.getLsbD 14 := by
    rw [fieldIn_bit rfl, show F.BRIDGE_CFG.DIR.lo = 14 from rfl]
    cases v.getLsbD 14 <;> rfl
  rw [State.writeBridge, bridge_field (by simp), bridge_field (by simp), bridge_field (by simp), bridge_field (by simp)]
  simp only [hen, hdir, Bool.not_eq_true']
  rfl

/-! ### Enrolment -/

/-- The value with GO or REMOVE that a command writes to ENROL_CTRL. -/
def enrolWord (v : W64) (remove : Bool) : W64 := (v &&& ~~~3) ||| (if remove then 2 else 1)

def enrolBit (remove : Bool) : Fld := if remove then F.ENROL_CTRL.REMOVE else F.ENROL_CTRL.GO

theorem enrolWord_bits {remove : Bool} : wrote F.ENROL_CTRL.GO .full (enrolWord v remove) = !remove ∧
    wrote F.ENROL_CTRL.REMOVE .full (enrolWord v remove) = remove := by
  have hbit {k : Nat} (hk : k < 2) : (enrolWord v remove).getLsbD k = (if remove then (2 : W64) else 1).getLsbD k := by
    have hmask : (~~~3 : W64).getLsbD k = false := by
      revert k
      decide
    rw [enrolWord, BitVec.getLsbD_or, BitVec.getLsbD_and, hmask, Bool.and_false, Bool.false_or]
  rw [wrote_full, wrote_full, fieldIn_bit rfl, fieldIn_bit rfl, hbit (by decide), hbit (by decide)]
  cases remove <;> decide

theorem enrolWord_field {remove : Bool} (hlo : 2 ≤ g.lo) (hhi : g.hi < 64) : fieldIn g (enrolWord v remove) = fieldIn g v := by
  refine fieldIn_congr hhi fun i hi hge _ => ?_
  have hpow : 4 ≤ 2 ^ i := Nat.pow_le_pow_right (show 0 < 2 by decide) (show 2 ≤ i by omega)
  have hsmall {m : W64} (hm : m.toNat < 4) : m.getLsbD i = false := Nat.testBit_lt_two_pow (by omega)
  have hones : (~~~3 : W64).getLsbD i = true := by rw [BitVec.getLsbD_not, hsmall (by decide), decide_eq_true hi]; rfl
  rw [enrolWord, BitVec.getLsbD_or, BitVec.getLsbD_and, hones,
    hsmall (m := if remove then 2 else 1) (by cases remove <;> decide), Bool.and_true, Bool.or_false]

/-- What the Referee is told to do. -/
def State.enrolJob (s : State) (rq : Rq) (v : W64) (remove : Bool) : EnrolJob :=
  ⟨remove, s.sessionOf rq, roleCode .installer, bitsOf v F.ENROL_CTRL.KIND.hi F.ENROL_CTRL.KIND.lo,
    bitsOf v F.ENROL_CTRL.INDEX.hi F.ENROL_CTRL.INDEX.lo, bitsOf v F.ENROL_CTRL.PORTS.hi F.ENROL_CTRL.PORTS.lo⟩

theorem writeEnrolCtrl_eq {remove : Bool} : s.writeEnrolCtrl rq .installer .full (enrolWord v remove) =
    (.ok, if s.flag F.ENROL_CTRL.BUSY = true then s
      else if kindSlots (bitsOf v F.ENROL_CTRL.KIND.hi F.ENROL_CTRL.KIND.lo) ≤ bitsOf v F.ENROL_CTRL.INDEX.hi F.ENROL_CTRL.INDEX.lo
        then s.put F.ENROL_CTRL.RESULT 7
      else { ((s.store .ENROL_CTRL [] .full (enrolWord v remove)).put (enrolBit remove) 1).put F.ENROL_CTRL.BUSY 1 with
        ref := { s.ref with enrolDue := some (s.enrolJob rq v remove) } }) := by
  obtain ⟨hgo, hremove⟩ := enrolWord_bits (v := v) (remove := remove)
  have hfield {g : Fld} (hg : g.stored = true) (hr : g.reg = .ENROL_CTRL) (hlo : 2 ≤ g.lo) (hhi : g.hi < 64) :
      fieldIn g (s.merged .ENROL_CTRL [] .full (enrolWord v remove)) = fieldIn g v := by
    rw [State.merged, ← hr, fieldIn_mergeWrite_stored hg hhi, enrolWord_field hlo hhi]
  rw [State.writeEnrolCtrl, hgo, hremove, hfield (g := F.ENROL_CTRL.KIND) (by decide) rfl (by decide) (by decide),
    hfield (g := F.ENROL_CTRL.INDEX) (by decide) rfl (by decide) (by decide),
    hfield (g := F.ENROL_CTRL.PORTS) (by decide) rfl (by decide) (by decide)]
  have hone : (!(!remove) && !remove) = false ∧ (!remove && remove) = false := by cases remove <;> decide
  have hbit : (if (!remove) = true then F.ENROL_CTRL.GO else F.ENROL_CTRL.REMOVE) = enrolBit remove := by cases remove <;> rfl
  rw [hone.1, hone.2, hbit, Bool.false_or]
  by_cases hbusy : s.flag F.ENROL_CTRL.BUSY = true
  · exact (if_pos hbusy).trans (congrArg (Prod.mk Resp.ok) (if_pos hbusy).symm)
  · refine (if_neg hbusy).trans (Eq.trans ?_ (congrArg (Prod.mk Resp.ok) (if_neg hbusy).symm))
    simp only [decide_eq_true_eq]
    exact (apply_ite (Prod.mk Resp.ok) _ _ _).symm

/-! ### What the Referee does -/

theorem step_enrolDone (hp : s.pending = []) (hj : s.ref.enrolDue = some j) : step s = .next (s.enrolDone j).settleV := by
  rw [step, hp]
  show s.goOn = _
  rw [State.goOn, hj]

theorem enrolDone_next {n : Nat} (h : ({ s with ref := { s.ref with enrolDue := none } } : State).enrolOutcome j =
    (n, f { s with ref := { s.ref with enrolDue := none } })) : Host.Outcome.next (s.enrolDone j).settleV = (.next
      (((((f { s with ref := { s.ref with enrolDue := none } }).put F.ENROL_CTRL.RESULT n).put F.ENROL_CTRL.BUSY 0).put
        F.ENROL_CTRL.GO 0).put F.ENROL_CTRL.REMOVE 0).settleV : Out) := by
  rw [State.enrolDone, h]

/-! ### Lab mode -/

theorem labEn_merged : s.merged .SEC_CTRL [] .full (s.withField F.SEC_CTRL.LAB_EN [] 1) = s.withField F.SEC_CTRL.LAB_EN [] 1 :=
  State.merged_withField (g := F.SEC_CTRL.LAB_EN) (by decide) (by decide) (by decide)

theorem labEn_on : fieldIn F.SEC_CTRL.LAB_EN (s.withField F.SEC_CTRL.LAB_EN [] 1) = 1 := bitsOf_setBits _ _ _ _ (by decide) (by decide)

theorem roleOf_setReg (hr : r ≠ .SESS) (hv : r.valid ix = true) : (s.setReg r ix v).roleOf rq = s.roleOf rq := by
  unfold State.roleOf
  rw [State.setReg_carried]
  cases s.carried with
  | some p => rfl
  | none =>
    cases rq.agent with
    | engine e => rfl
    | host m k =>
      have hsess : RegName.SESS.valid [16 * m.val + k.val] = true := by
        have := m.isLt
        have := k.isLt
        simp [RegName.valid, RegName.place, ixValid]
        omega
      have hreg : (s.setReg r ix v).reg .SESS [16 * m.val + k.val] = s.reg .SESS [16 * m.val + k.val] := State.reg_setReg_ne hr hv hsess
      simp only [State.flag, State.fld, F.SESS.OPEN, F.SESS.ROLE, hreg]
      rfl

theorem writeSecCtrl_lab (hs : s.ref.straps.lab = true) (hr : s.roleOf rq = some .installer) :
    s.writeSecCtrl rq .full (s.withField F.SEC_CTRL.LAB_EN [] 1) =
      (.ok, if s.labMode = true then s.put F.SEC_CTRL.LAB_EN 1
        else (s.put F.SEC_CTRL.LAB_EN 1).recordKey (s.sessionOf rq) (roleCode .installer) 0x300 0) := by
  have hrole : (s.setReg .SEC_CTRL [] (s.withField F.SEC_CTRL.LAB_EN [] 1)).roleOf rq = some .installer :=
    (roleOf_setReg (by decide) (by decide)).trans hr
  rw [State.writeSecCtrl, labEn_merged, labEn_on, hs]
  dsimp only
  rw [hrole]
  cases s.labMode <;> rfl

/-- Settles O32. -/
theorem chainAndSecurityRegisters : Obligations.ChainAndSecurityRegisters := by
  unfold Obligations.ChainAndSecurityRegisters
  intro s rq role b v reaches cfg mode bx old new closed en free peer stranger bridge refused kind i enrols job starts busy ends
  have hen (he : en = true) : ¬v.getLsbD F.BRIDGE_CFG.EN.lo = false := by
    rw [show v.getLsbD F.BRIDGE_CFG.EN.lo = true from he]
    decide
  have hqual (hf : free = true) : ¬(s.bridgeClosed b).bridgeQualifies (bitsOf v 12 0) (v.getLsbD 14) = false := by
    rw [show (s.bridgeClosed b).bridgeQualifies (bitsOf v 12 0) (v.getLsbD 14) = true from hf]
    decide
  have henrol (hr : reaches .ENROL_CTRL []) (remove : Bool) {c : Instr} {f : State → State}
      (hc : exec c s = .next (s.busReg rq .ENROL_CTRL [] (enrolWord v remove))) (he : (if s.flag F.ENROL_CTRL.BUSY = true then s
        else if kindSlots kind ≤ i then s.put F.ENROL_CTRL.RESULT 7
        else starts (enrolBit remove) remove s) = f s) : enrols c f := by
    refine installerReg_enrolCtrl.writes hr hc (writeEnrolCtrl_eq.trans (congrArg (Prod.mk Resp.ok) (Eq.trans ?_ he)))
    rfl
  refine ⟨fun hr => ⟨fun h => ?_, fun h h' h'' => ?_, fun h h' => ?_⟩, fun hr => ⟨fun h => ?_, fun h h' => ?_,
    fun h h' => ⟨fun h'' => ?_, fun he hf => ?_, fun he hf hs => ?_, fun he hf hs => ?_⟩⟩, exec_chainDiscard, fun hr => ⟨fun h => ?_,
    fun h h' => ?_, fun h h' => ?_⟩, ?_, fun hr => ⟨fun h => ?_, fun h => ?_⟩⟩
  · exact installerReg_chainCfg.refuses hr rfl (writeChainCfg_eq.trans (if_pos h)) (by decide) (by decide)
  · exact installerReg_chainCfg.refuses hr rfl (writeChainCfg_eq.trans ((if_neg (by simp [h])).trans (if_pos ⟨h', h''⟩))) (by decide)
      (by decide)
  · refine installerReg_chainCfg.writes hr rfl (writeChainCfg_eq.trans ((if_neg (by simp [h])).trans (if_neg ?_)))
    rintro ⟨hm, ha⟩
    obtain h' | h' := h'
    · exact h' hm
    · rw [ha] at h'
      cases h'
  · exact installerReg_bridge.refuses hr rfl (writeBridge_eq.trans (if_pos h)) (by decide) (by decide)
  · exact installerReg_bridge.writes hr rfl (writeBridge_eq.trans ((if_neg (by simp [h])).trans (if_pos h')))
  · exact installerReg_bridge.writes hr rfl (writeBridge_eq.trans ((if_neg (by simp [h])).trans ((if_neg h').trans (if_pos h''))))
  · exact installerReg_bridge.refuses hr rfl (writeBridge_eq.trans ((if_neg (by simp [h])).trans ((if_neg h').trans
      ((if_neg (hen he)).trans (if_pos hf))))) (by decide) (by decide)
  · exact installerReg_bridge.refuses hr rfl (writeBridge_eq.trans ((if_neg (by simp [h])).trans ((if_neg h').trans
      ((if_neg (hen he)).trans ((if_neg (hqual hf)).trans (if_pos hs)))))) (by decide) (by decide)
  · exact installerReg_bridge.writes hr rfl (writeBridge_eq.trans ((if_neg (by simp [h])).trans ((if_neg h').trans
      ((if_neg (hen he)).trans ((if_neg (hqual hf)).trans (if_neg (Bool.eq_false_iff.mp hs)))))))
  · exact ⟨henrol hr false rfl (if_pos h), henrol hr true rfl (if_pos h)⟩
  · have hfull {x y z : State} : (if s.flag F.ENROL_CTRL.BUSY = true then x else if kindSlots kind ≤ i then y else z) = y :=
      (if_neg (Bool.eq_false_iff.mp h)).trans (if_pos h')
    exact ⟨henrol hr false rfl hfull, henrol hr true rfl hfull⟩
  · have hbusy : ¬s.flag F.ENROL_CTRL.BUSY = true := Bool.eq_false_iff.mp h
    exact ⟨henrol hr false rfl ((if_neg hbusy).trans (if_neg (Nat.not_le.mpr h'))),
      henrol hr true rfl ((if_neg hbusy).trans (if_neg (Nat.not_le.mpr h')))⟩
  · intro j check last
    refine ⟨fun h h' hp hj => ?_, fun h h' hp hj => ?_, fun h h' hp hj => ?_, fun h h' hp hj => ?_⟩
    · exact (step_enrolDone hp hj).trans (enrolDone_next (by rw [State.enrolOutcome, h]; exact congrArg (Prod.mk check) (if_neg h')))
    · refine (step_enrolDone hp hj).trans (enrolDone_next (f := fun g => g.enrol j) ?_)
      rw [State.enrolOutcome, h]
      exact Prod.ext h' (if_pos h')
    · refine (step_enrolDone hp hj).trans (enrolDone_next (f := id) ?_)
      rw [State.enrolOutcome, h]
      exact if_pos h'
    · refine (step_enrolDone hp hj).trans (enrolDone_next (f := fun g => g.unenrolSlot j) ?_)
      rw [State.enrolOutcome, h]
      exact if_neg (Bool.eq_false_iff.mp h')
  · refine installerReg_secCtrl.denies hr rfl (?_ : s.writeSecCtrl rq .full _ = _)
    rw [State.writeSecCtrl, labEn_merged, labEn_on, h]
    rfl
  · exact installerReg_secCtrl.writes hr rfl (writeSecCtrl_lab h hr.role)

end Sys2Proof.Machine
end

section
/-! Clock domains, loops, monitors and gates (R311 to R322): O33. -/

namespace Sys2Proof.Machine

variable {s t u : State} {rq : Rq} {d : ClkDom} {v w : W64} {f f' : Fld} {n m : Nat} {tw : Tower} {b : Fin 11}

/-! ### The registers of a clock domain -/

theorem clkCfgReg_valid : (clkCfgReg d).1.valid (clkCfgReg d).2 = true := by
  cases d <;> simp [clkCfgReg, RegName.valid, RegName.place, ixValid]

theorem clkStatReg_valid : (clkStatReg d).1.valid (clkStatReg d).2 = true := by
  cases d <;> simp [clkStatReg, RegName.valid, RegName.place, ixValid]

theorem clkRegs_ne : (clkCfgReg d).1 ≠ (clkStatReg d).1 := by cases d <;> simp [clkCfgReg, clkStatReg]

theorem clkCfgReg_touchGate : s.touchGate ((clkCfgReg d).1.addr (clkCfgReg d).2) = s := by
  cases d with
  | dom t n => exact touchGate_tower (r := .CLKDOM_CFG) (by decide) (clkCfgReg_valid (d := .dom t n))
  | pkg k => exact touchGate_package (r := .PKGCLK_CFG) (by decide) (clkCfgReg_valid (d := .pkg k))

theorem clkTower_lt : clkTower d < 4 := by
  cases d with
  | dom t n => exact t.isLt
  | pkg k => simp only [clkTower]; split <;> omega

/-- The register of the domain that holds the field. -/
def clkReg (d : ClkDom) (f : Fld) : RegName × List Nat := if f.reg = .CLKDOM_CFG then clkCfgReg d else clkStatReg d

theorem State.clkFld_eq : s.clkFld d f = fieldIn f (s.reg (clkReg d f).1 (clkReg d f).2) := by
  unfold State.clkFld clkReg
  split <;> rfl

theorem State.clkPut_eq : s.clkPut d f n = s.setReg (clkReg d f).1 (clkReg d f).2
    (setBits (s.reg (clkReg d f).1 (clkReg d f).2) f.hi f.lo n) := by
  unfold State.clkPut clkReg
  split <;> rfl

theorem clkReg_valid : (clkReg d f).1.valid (clkReg d f).2 = true := by
  unfold clkReg
  split
  · exact clkCfgReg_valid
  · exact clkStatReg_valid

theorem State.clkFld_clkPut (h : f.lo ≤ f.hi) (hn : f.hi < 64) : (s.clkPut d f n).clkFld d f = n % 2 ^ (f.hi + 1 - f.lo) := by
  rw [State.clkPut_eq, State.clkFld_eq, State.reg_setReg]
  exact bitsOf_setBits _ _ _ _ h hn

/-- The fields lie in different registers, or apart in one. -/
def clkApart (f f' : Fld) : Bool :=
  (decide (f.reg = .CLKDOM_CFG) != decide (f'.reg = .CLKDOM_CFG)) || decide (f'.hi < f.lo ∨ f.hi < f'.lo)

theorem State.clkFld_clkPut_apart (hd : clkApart f f' = true) (h : f.lo ≤ f.hi) (hn : f'.hi < 64) :
    (s.clkPut d f n).clkFld d f' = s.clkFld d f' := by
  rw [State.clkPut_eq, State.clkFld_eq, State.clkFld_eq]
  by_cases hr : decide (f.reg = .CLKDOM_CFG) = decide (f'.reg = .CLKDOM_CFG)
  · have heq : clkReg d f' = clkReg d f := by simp only [clkReg, decide_eq_decide.mp hr]
    have hapart : f'.hi < f.lo ∨ f.hi < f'.lo := by simpa [clkApart, hr] using hd
    rw [heq, State.reg_setReg]
    exact bitsOf_setBits_ne _ _ _ _ _ _ h hn hapart
  · have hne : (clkReg d f).1 ≠ (clkReg d f').1 := by
      unfold clkReg
      rcases Decidable.em (f.reg = .CLKDOM_CFG) with h1 | h1 <;> rcases Decidable.em (f'.reg = .CLKDOM_CFG) with h2 | h2
      · exact absurd (by rw [h1, h2]) hr
      · rw [if_pos h1, if_neg h2]; exact clkRegs_ne
      · rw [if_neg h1, if_pos h2]; exact clkRegs_ne.symm
      · exact absurd (by simp only [h1, h2]) hr
    rw [State.reg_setReg_ne hne clkReg_valid clkReg_valid]

theorem State.clkFlag_clkPut (h : f.lo ≤ f.hi) (hn : f.hi < 64) :
    (s.clkPut d f n).clkFlag d f = (n % 2 ^ (f.hi + 1 - f.lo) != 0) := by rw [State.clkFlag, State.clkFld_clkPut h hn]

theorem State.clkFlag_clkPut_apart (hd : clkApart f f' = true) (h : f.lo ≤ f.hi) (hn : f'.hi < 64) :
    (s.clkPut d f n).clkFlag d f' = s.clkFlag d f' := by rw [State.clkFlag, State.clkFld_clkPut_apart hd h hn, State.clkFlag]

theorem State.clkFld_congr (h : t.regs = s.regs) : t.clkFld d f = s.clkFld d f := by
  rw [State.clkFld_eq, State.clkFld_eq, State.reg, h, State.reg]

theorem OnlyEvents.clkFld (h : OnlyEvents s t) : t.clkFld d f = s.clkFld d f := by
  have hne : (clkReg d f).1 ∉ eventRegs := by
    unfold clkReg
    split <;> cases d <;> simp [clkCfgReg, clkStatReg, eventRegs]
  rw [State.clkFld_eq, State.clkFld_eq, h.reg _ _ clkReg_valid hne]

/-- A write to the STAT register of the domain. -/
theorem Keeps.clkPut (hf : f.reg ≠ .CLKDOM_CFG) : Keeps s (s.clkPut d f n) [(clkStatReg d).1] := by
  rw [State.clkPut_eq, show clkReg d f = clkStatReg d from if_neg hf]
  exact .setReg (List.mem_singleton_self _) clkStatReg_valid

/-! ### Loops reprogrammed and switches (R314, R318) -/

/-- The loop unlocked where the write reprograms it. -/
def State.unlockIf (s : State) (d : ClkDom) (changed : Bool) : State :=
  if changed then (s.clkPut d F.CLKDOM_STAT.LOCKED 0).clkPut d F.CLKDOM_STAT.READY 0 else s

/-- The switch to `goal` from `was`: begun, or refused. -/
def State.switchTo (s : State) (d : ClkDom) (goal was : Nat) : State :=
  if goal = was then s
  else if s.sourceReady d goal = true then (s.clkPut d F.CLKDOM_CFG.SEL goal).clkPut d F.CLKDOM_STAT.SWITCHING 1
  else s.clkPut d F.CLKDOM_STAT.REFUSED 1

/-- The write of `w` may not be made: a switch runs, or the loop is in use. -/
def State.clkBusy (s : State) (d : ClkDom) (w : W64) : Prop :=
  (bitsOf w 29 28 ≠ s.clkFld d F.CLKDOM_CFG.SEL ∧ s.clkFlag d F.CLKDOM_STAT.SWITCHING = true) ∨
    (loopChanged (s.clkCfg d) w = true ∧ s.clkFld d F.CLKDOM_CFG.SEL = 0)

/-- The value of the domain's register after a write of `v`. -/
def State.clkNew (s : State) (d : ClkDom) (v : W64) : W64 := s.merged (clkCfgReg d).1 (clkCfgReg d).2 .full v

theorem writeClk_eq [Decidable (s.clkBusy d (s.clkNew d v))] : s.writeClk d .full v =
    if s.clkBusy d (s.clkNew d v) then (.bankNotOwned, s)
    else (.ok, ((s.setClkCfg d (setBits (s.clkNew d v) 29 28 (s.clkFld d F.CLKDOM_CFG.SEL))).unlockIf d
      (loopChanged (s.clkCfg d) (s.clkNew d v))).switchTo d (bitsOf (s.clkNew d v) 29 28) (s.clkFld d F.CLKDOM_CFG.SEL)) := by
  have hbusy : (((fieldIn F.CLKDOM_CFG.SEL (s.clkNew d v) != fieldIn F.CLKDOM_CFG.SEL (s.clkCfg d)) &&
      s.clkFlag d F.CLKDOM_STAT.SWITCHING) || (loopChanged (s.clkCfg d) (s.clkNew d v) &&
        fieldIn F.CLKDOM_CFG.SEL (s.clkCfg d) == 0)) = true ↔ s.clkBusy d (s.clkNew d v) := by
    simp only [Bool.or_eq_true, Bool.and_eq_true, bne_iff_ne, beq_iff_eq]
    rfl
  rw [State.writeClk]
  refine if_congr hbusy rfl ?_
  rw [State.switchTo]
  by_cases hgoal : bitsOf (s.clkNew d v) 29 28 = s.clkFld d F.CLKDOM_CFG.SEL
  · rw [if_pos hgoal]
    refine if_pos ?_
    show (!(bitsOf (s.clkNew d v) 29 28 != s.clkFld d F.CLKDOM_CFG.SEL)) = true
    simp [hgoal]
  · rw [if_neg hgoal]
    refine Eq.trans (if_neg ?_) ?_
    · show ¬(!(bitsOf (s.clkNew d v) 29 28 != s.clkFld d F.CLKDOM_CFG.SEL)) = true
      simp [hgoal]
    · rw [apply_ite (Prod.mk Resp.ok)]
      rfl

theorem clk_writes {c : Instr} (hr : Reaches s rq .installer ((clkCfgReg d).1.addr (clkCfgReg d).2))
    (hc : exec c s = .next (s.busReg rq (clkCfgReg d).1 (clkCfgReg d).2 v)) :
    (s.clkBusy d (s.clkNew d v) → RefusesWrite c s rq (clkCfgReg d).1 (clkCfgReg d).2 .bankNotOwned) ∧
      (¬s.clkBusy d (s.clkNew d v) → WritesRecorded c s rq (clkCfgReg d).1 (clkCfgReg d).2 fun g =>
        ((g.setReg (clkCfgReg d).1 (clkCfgReg d).2 (setBits (s.clkNew d v) 29 28 (s.clkFld d F.CLKDOM_CFG.SEL))).unlockIf d
          (loopChanged (s.clkCfg d) (s.clkNew d v))).switchTo d (bitsOf (s.clkNew d v) 29 28) (s.clkFld d F.CLKDOM_CFG.SEL)) := by
  classical
  have hw : RegWrite c s rq .installer (clkCfgReg d).1 (clkCfgReg d).2 v := .of_reaches (by cases d <;> rfl) clkCfgReg_valid hr hc
  have heffect : s.writeEffect rq .installer (clkCfgReg d).1 (clkCfgReg d).2 .full v = s.writeClk d .full v := by
    cases d with
    | dom t n =>
      show s.writeClk (.dom (Fin.ofNat 4 t.val) (Fin.ofNat 6 n.val)) .full v = _
      rw [Fin.ofNat_val_eq_self, Fin.ofNat_val_eq_self]
    | pkg k =>
      show s.writeClk (.pkg (Fin.ofNat 4 k.val)) .full v = _
      rw [Fin.ofNat_val_eq_self]
  have hright : s.writeRight .installer (clkCfgReg d).1 (clkCfgReg d).2 .full v = true := by cases d <;> rfl
  have hslot : s.slotDenies rq (clkCfgReg d).1 (clkCfgReg d).2 = false := by cases d <;> rfl
  have hrec : s.writeRecorded (clkCfgReg d).1 (clkCfgReg d).2 .full v = true := by cases d <;> rfl
  refine ⟨fun hb => ?_, fun hb => ?_⟩
  · exact hw.refuses clkCfgReg_touchGate hright hslot (heffect.trans (writeClk_eq.trans (if_pos hb))) (by decide) (by decide)
  · exact hw.writesRecorded clkCfgReg_touchGate hright hslot hrec (heffect.trans (writeClk_eq.trans (if_neg hb)))

theorem exec_loopProgram : exec (.loopProgram rq d v) s = .next (s.busReg rq (clkCfgReg d).1 (clkCfgReg d).2 v) := by cases d <;> rfl

theorem exec_clockSwitch {sel : BitVec 2} : exec (.clockSwitch rq d sel) s = .next (s.busReg rq (clkCfgReg d).1 (clkCfgReg d).2
    (setBits (s.reg (clkCfgReg d).1 (clkCfgReg d).2) 29 28 sel.toNat)) := by cases d <;> rfl

/-! ### Switches and loops that complete, gates -/

theorem exec_clockSwitchComplete (h : s.clkFlag d F.CLKDOM_STAT.SWITCHING = true) :
    Completes id (.clockSwitchComplete d) s fun u =>
      u.clkFlag d F.CLKDOM_STAT.SWITCHING = false ∧ u.clkFlag d F.CLKDOM_STAT.STOPPED = false ∧
        u.clkFld d F.CLKDOM_STAT.ON_FIO = (if s.clkFld d F.CLKDOM_CFG.SEL = 1 then s.clkFld d F.CLKDOM_STAT.ON_FIO else 0) ∧
        u.clkCfg d = s.clkCfg d ∧ Keeps s u [(clkStatReg d).1] := by
  let u := (s.clkPut d F.CLKDOM_STAT.SWITCHING 0).clkPut d F.CLKDOM_STAT.STOPPED 0
  have hsw : u.clkFlag d F.CLKDOM_STAT.SWITCHING = false := by
    rw [State.clkFlag_clkPut_apart (by decide) (by decide) (by decide), State.clkFlag_clkPut (by decide) (by decide)]
    rfl
  have hst : u.clkFlag d F.CLKDOM_STAT.STOPPED = false := State.clkFlag_clkPut (by decide) (by decide)
  have hfio : u.clkFld d F.CLKDOM_STAT.ON_FIO = s.clkFld d F.CLKDOM_STAT.ON_FIO := by
    rw [State.clkFld_clkPut_apart (by decide) (by decide) (by decide), State.clkFld_clkPut_apart (by decide) (by decide) (by decide)]
  have hsel : u.clkFld d F.CLKDOM_CFG.SEL = s.clkFld d F.CLKDOM_CFG.SEL := by
    rw [State.clkFld_clkPut_apart (by decide) (by decide) (by decide), State.clkFld_clkPut_apart (by decide) (by decide) (by decide)]
  have hkeeps : Keeps s u [(clkStatReg d).1] := (Keeps.clkPut (by decide)).trans (.clkPut (by decide))
  have hcfg {t : State} (k : Keeps s t [(clkStatReg d).1]) : t.clkCfg d = s.clkCfg d :=
    k.reg _ _ clkCfgReg_valid (by simp [clkRegs_ne]) (by cases d <;> simp [clkCfgReg, eventRegs])
  refine ⟨if s.clkFld d F.CLKDOM_CFG.SEL = 1 then u else u.clkPut d F.CLKDOM_STAT.ON_FIO 0, ?_, ?_⟩
  · rw [exec, execClockSwitchComplete, if_pos h]
    dsimp only
    rw [hsel]
    rfl
  · by_cases h1 : s.clkFld d F.CLKDOM_CFG.SEL = 1
    · rw [if_pos h1, if_pos h1]
      exact ⟨hsw, hst, hfio, hcfg hkeeps, hkeeps⟩
    · rw [if_neg h1, if_neg h1]
      have hlast := hkeeps.trans (Keeps.clkPut (d := d) (f := F.CLKDOM_STAT.ON_FIO) (n := 0) (by decide))
      exact ⟨(State.clkFlag_clkPut_apart (by decide) (by decide) (by decide)).trans hsw,
        (State.clkFlag_clkPut_apart (by decide) (by decide) (by decide)).trans hst,
        State.clkFld_clkPut (by decide) (by decide), hcfg hlast, hlast⟩

theorem exec_loopReady (h : s.clkFlag d F.CLKDOM_STAT.LOCKED = true) : exec (.loopReady d) s = .next
    (if s.flag F.CLKGATE_MODE.FORCED = true ∧ s.clkFld d F.CLKDOM_CFG.SEL = 1 ∧ s.clkFlag d F.CLKDOM_STAT.ON_FIO = false then
      (s.clkPut d F.CLKDOM_STAT.READY 1).clkPut d F.CLKDOM_CFG.SEL 0 else s.clkPut d F.CLKDOM_STAT.READY 1) := by
  have hforced : (s.clkPut d F.CLKDOM_STAT.READY 1).flag F.CLKGATE_MODE.FORCED = s.flag F.CLKGATE_MODE.FORCED := by
    have hne : (clkReg d F.CLKDOM_STAT.READY).1 ≠ .CLKGATE_MODE := by
      show (clkStatReg d).1 ≠ _
      cases d <;> simp [clkStatReg]
    rw [State.flag, State.flag, State.fld, State.clkPut_eq]
    exact congrArg (fun w => fieldIn F.CLKGATE_MODE.FORCED w != 0) (State.reg_setReg_ne hne clkReg_valid (by decide))
  rw [exec, execLoopReady, h]
  dsimp only
  rw [hforced, State.clkFld_clkPut_apart (by decide) (by decide) (by decide),
    State.clkFlag_clkPut_apart (by decide) (by decide) (by decide)]
  rw [Bool.not_true, if_neg Bool.false_ne_true, apply_ite Host.Outcome.next]
  simp only [Bool.and_eq_true, beq_iff_eq, Bool.not_eq_true', and_assoc]

/-! ### Failed loops (R315 to R317) -/

/-- What a failed loop leaves in the registers of its domain, with the count of its window. -/
structure LoopFailed (s u : State) (d : ClkDom) (count : Nat) : Prop where
  count : u.clkFld d F.CLKDOM_STAT.COUNT = count
  failed : u.clkFlag d F.CLKDOM_STAT.FAILED = true
  ready : u.clkFlag d F.CLKDOM_STAT.READY = false
  locked : u.clkFlag d F.CLKDOM_STAT.LOCKED = false
  used : s.clkFld d F.CLKDOM_CFG.SEL = 0 → u.clkFld d F.CLKDOM_CFG.SEL = 1 ∧ u.clkFlag d F.CLKDOM_STAT.SWITCHING = false ∧
    (∀ e, (u.eng e).nmiClock = true) ∧ (s.fioFailed (clkTower d) = true → u.clkFlag d F.CLKDOM_STAT.STOPPED = true) ∧
    (s.fioFailed (clkTower d) = false → u.clkFlag d F.CLKDOM_STAT.ON_FIO = true)

/-- The domain of a failed loop in use: forced to FIO, or stopped. -/
def State.fallsBack (s : State) (d : ClkDom) : State :=
  let s := (s.clkPut d F.CLKDOM_CFG.SEL 1).clkPut d F.CLKDOM_STAT.SWITCHING 0
  let s := s.clkPut d F.CLKDOM_STAT.FAILS (satAdd 16 (s.clkFld d F.CLKDOM_STAT.FAILS) 1)
  if s.fioFailed (clkTower d) then s.clkPut d F.CLKDOM_STAT.STOPPED 1 else s.clkPut d F.CLKDOM_STAT.ON_FIO 1

/-- The marks of a failed loop. -/
def State.loopMarked (s : State) (d : ClkDom) : State :=
  ((s.clkPut d F.CLKDOM_STAT.FAILED 1).clkPut d F.CLKDOM_STAT.READY 0).clkPut d F.CLKDOM_STAT.LOCKED 0

theorem fallsBack_onlyEvents : OnlyEvents (((s.loopMarked d).fallsBack d).nmiClockAll.recordClock (clkIndex d))
    ((((s.loopMarked d).fallsBack d).nmiClockAll.recordClock (clkIndex d)).blockEvent (clkIndex d) (clkBase d)) := .blockEvent

theorem State.clkFlag_one : s.clkFlag d f = true ↔ s.clkFld d f ≠ 0 := bne_iff_ne

theorem State.clkFlag_zero : s.clkFlag d f = false ↔ s.clkFld d f = 0 := bne_eq_false_iff_eq

theorem clkPut_fioFailed : (s.clkPut d f n).fioFailed m = s.fioFailed m := by rw [State.clkPut_eq]; rfl

/-- The fields of a failed loop that its marks and the fallback leave. -/
theorem fallsBack_clkFld : ((s.loopMarked d).fallsBack d).clkFld d F.CLKDOM_STAT.COUNT = s.clkFld d F.CLKDOM_STAT.COUNT ∧
    ((s.loopMarked d).fallsBack d).clkFld d F.CLKDOM_STAT.FAILED = 1 ∧ ((s.loopMarked d).fallsBack d).clkFld d F.CLKDOM_STAT.READY = 0 ∧
    ((s.loopMarked d).fallsBack d).clkFld d F.CLKDOM_STAT.LOCKED = 0 ∧ ((s.loopMarked d).fallsBack d).clkFld d F.CLKDOM_CFG.SEL = 1 ∧
    ((s.loopMarked d).fallsBack d).clkFld d F.CLKDOM_STAT.SWITCHING = 0 := by
  unfold State.fallsBack State.loopMarked
  dsimp only
  split <;> simp (disch := decide) only [State.clkFld_clkPut, State.clkFld_clkPut_apart] <;> decide

theorem loopMarked_clkFld : (s.loopMarked d).clkFld d F.CLKDOM_STAT.COUNT = s.clkFld d F.CLKDOM_STAT.COUNT ∧
    (s.loopMarked d).clkFld d F.CLKDOM_STAT.FAILED = 1 ∧ (s.loopMarked d).clkFld d F.CLKDOM_STAT.READY = 0 ∧
    (s.loopMarked d).clkFld d F.CLKDOM_STAT.LOCKED = 0 := by
  unfold State.loopMarked
  simp (disch := decide) only [State.clkFld_clkPut, State.clkFld_clkPut_apart]
  decide

theorem fallsBack_source : (s.fioFailed (clkTower d) = true → ((s.loopMarked d).fallsBack d).clkFlag d F.CLKDOM_STAT.STOPPED = true) ∧
    (s.fioFailed (clkTower d) = false → ((s.loopMarked d).fallsBack d).clkFlag d F.CLKDOM_STAT.ON_FIO = true) := by
  unfold State.fallsBack State.loopMarked
  simp only [clkPut_fioFailed]
  refine ⟨fun h => ?_, fun h => ?_⟩
  · rw [if_pos h, State.clkFlag_clkPut (by decide) (by decide)]
    rfl
  · rw [h, if_neg Bool.false_ne_true, State.clkFlag_clkPut (by decide) (by decide)]
    rfl

theorem loopFails_eq : s.loopFails d = if s.clkFld d F.CLKDOM_CFG.SEL ≠ 0 then s.loopMarked d
    else (((s.loopMarked d).fallsBack d).nmiClockAll.recordClock (clkIndex d)).blockEvent (clkIndex d) (clkBase d) := by
  have hsel : (s.loopMarked d).clkFld d F.CLKDOM_CFG.SEL = s.clkFld d F.CLKDOM_CFG.SEL := by
    unfold State.loopMarked
    simp (disch := decide) only [State.clkFld_clkPut_apart]
  rw [← hsel]
  rfl

theorem loopFails_failed : LoopFailed s (s.loopFails d) d (s.clkFld d F.CLKDOM_STAT.COUNT) := by
  rw [loopFails_eq]
  by_cases h0 : s.clkFld d F.CLKDOM_CFG.SEL = 0
  · rw [if_neg (not_not.mpr h0)]
    obtain ⟨hcount, hfailed, hready, hlocked, hsel, hsw⟩ := fallsBack_clkFld (s := s) (d := d)
    obtain ⟨hstop, hfio⟩ := fallsBack_source (s := s) (d := d)
    have hfld {f : Fld} : ((((s.loopMarked d).fallsBack d).nmiClockAll.recordClock (clkIndex d)).blockEvent (clkIndex d)
        (clkBase d)).clkFld d f = ((s.loopMarked d).fallsBack d).clkFld d f :=
      (OnlyEvents.clkFld fallsBack_onlyEvents).trans (State.clkFld_congr rfl)
    have hflag {f : Fld} : ((((s.loopMarked d).fallsBack d).nmiClockAll.recordClock (clkIndex d)).blockEvent (clkIndex d)
        (clkBase d)).clkFlag d f = ((s.loopMarked d).fallsBack d).clkFlag d f := by rw [State.clkFlag, hfld, State.clkFlag]
    have hnmi (e : Eng) : (((((s.loopMarked d).fallsBack d).nmiClockAll.recordClock (clkIndex d)).blockEvent (clkIndex d)
        (clkBase d)).eng e).nmiClock = true := by
      refine (congrArg Engine.nmiClock (fallsBack_onlyEvents.eng e)).trans ?_
      show ((((s.loopMarked d).fallsBack d).nmiClockAll).eng e).nmiClock = true
      simp [State.eng, State.nmiClockAll]
    refine ⟨hfld.trans hcount, hflag.trans (State.clkFlag_one.mpr (by rw [hfailed]; decide)), hflag.trans (State.clkFlag_zero.mpr hready),
      hflag.trans (State.clkFlag_zero.mpr hlocked), fun _ => ⟨hfld.trans hsel, hflag.trans (State.clkFlag_zero.mpr hsw), hnmi,
        fun h => hflag.trans (hstop h), fun h => hflag.trans (hfio h)⟩⟩
  · rw [if_pos h0]
    obtain ⟨hcount, hfailed, hready, hlocked⟩ := loopMarked_clkFld (s := s) (d := d)
    exact ⟨hcount, State.clkFlag_one.mpr (by rw [hfailed]; decide), State.clkFlag_zero.mpr hready, State.clkFlag_zero.mpr hlocked,
      fun h => absurd h h0⟩

section
variable {k : Fin 6} {count : BitVec 16}

theorem exec_monitorWindow : exec (.monitorWindow (.domLoop tw k) count) s =
    .next (s.loopWindow (.dom tw k) (.domLoop tw k) count).settleV := rfl

/-- The loop runs and is powered: its window is counted. -/
def State.monitored (s : State) (d : ClkDom) : Prop := s.clkFlag d F.CLKDOM_CFG.LOOP_EN = true ∧ s.loopOn d = true

theorem exec_monitorWindow_off (h : ¬s.monitored (.dom tw k)) : exec (.monitorWindow (.domLoop tw k) count) s = .next s.settleV := by
  rw [exec_monitorWindow, State.loopWindow, if_neg (by rwa [Bool.and_eq_true])]

theorem exec_monitorWindow_ok (h : s.monitored (.dom tw k)) (ho : windowOk (.domLoop tw k) count.toNat = true) :
    exec (.monitorWindow (.domLoop tw k) count) s =
      .next (s.clkPut (.dom tw k) F.CLKDOM_STAT.COUNT count.toNat).settleV := by
  rw [exec_monitorWindow, State.loopWindow, if_pos (by rwa [Bool.and_eq_true]), if_pos ho]

theorem exec_monitorWindow_fails (h : s.monitored (.dom tw k)) (ho : windowOk (.domLoop tw k) count.toNat = false) :
    Completes State.settleV (.monitorWindow (.domLoop tw k) count) s fun u => LoopFailed s u (.dom tw k) count.toNat := by
  have hfails := loopFails_failed (s := s.clkPut (.dom tw k) F.CLKDOM_STAT.COUNT count.toNat) (d := .dom tw k)
  rw [State.clkFld_clkPut (by decide) (by decide),
    show count.toNat % 2 ^ (F.CLKDOM_STAT.COUNT.hi + 1 - F.CLKDOM_STAT.COUNT.lo) = count.toNat from Nat.mod_eq_of_lt count.isLt] at hfails
  refine ⟨_, ?_, ⟨hfails.count, hfails.failed, hfails.ready, hfails.locked, fun h0 => ?_⟩⟩
  · rw [exec_monitorWindow, State.loopWindow, if_pos (by rwa [Bool.and_eq_true])]
    dsimp only
    rw [ho, if_neg Bool.false_ne_true]
  · obtain ⟨hsel, hsw, hnmi, hstop, hfio⟩ := hfails.used
      (by rwa [State.clkFld_clkPut_apart (by decide) (by decide) (by decide)])
    rw [clkPut_fioFailed] at hstop hfio
    exact ⟨hsel, hsw, hnmi, hstop, hfio⟩

end

/-! ### Stopped domains and gates -/

theorem exec_domainStoppedTimeout (h : s.clkFlag d F.CLKDOM_STAT.STOPPED = true) (hr : s.inTowerReset (clkTower d) = false) :
    exec (.domainStoppedTimeout d) s = .next
      (((s.clkPut d F.CLKDOM_STAT.STOPPED 0).recordReset 2 (clkTower d)).towerReset (Fin.ofNat 4 (clkTower d))).settleV := by
  have ht : (Fin.ofNat 4 (clkTower d)).val = clkTower d := Nat.mod_eq_of_lt clkTower_lt
  rw [exec, execDomainStoppedTimeout, if_pos h]
  dsimp only
  rw [ht, show (s.clkPut d F.CLKDOM_STAT.STOPPED 0).inTowerReset (clkTower d) = false by
    rw [State.clkPut_eq]; exact hr, if_neg Bool.false_ne_true]

theorem exec_gateClose (ho : s.flag F.GATE.OPEN [tw.val, b.val] = true)
    (h : s.gateAuto = true ∨ s.flag F.GATE.CLOSING [tw.val, b.val] = true) : exec (.gateClose tw b) s =
      .next ((s.put F.GATE.OPEN 0 [tw.val, b.val]).put F.GATE.CLOSING 0 [tw.val, b.val]) := by
  rw [exec, execGateClose]
  exact if_pos (by simpa [ho] using h)

theorem exec_gateTimeout (h : s.flag F.GATE.CLOSING [tw.val, b.val] = true) : GivesThen State.settle (.gateTimeout tw b) s
    ((s.put F.GATE.CLOSING 0 [tw.val, b.val]).put F.GATE.GATE_TIMEOUT 1 [tw.val, b.val]) := by
  have heq : exec (.gateTimeout tw b) s = .next ((((s.put F.GATE.CLOSING 0 [tw.val, b.val]).put F.GATE.GATE_TIMEOUT 1
      [tw.val, b.val]).blockEvent (0x3000 + 16 * tw.val + b.val) (clkBase (.dom tw 0))).settle) := if_pos h
  exact ⟨_, heq, .blockEvent⟩

theorem exec_clkgateMode (hr : Reaches s rq .installer (RegName.CLKGATE_MODE.addr [])) :
    WritesRecorded (.clkgateMode rq v) s rq .CLKGATE_MODE [] fun g =>
      let u : State := { g with ref := { g.ref with clkAuto := v.getLsbD 0 } }
      if s.flag F.CLKGATE_MODE.FORCED = true then u else (u.put F.CLKGATE_MODE.AUTO (b2n (v.getLsbD 0))).followGates := by
  have hi : InstallerReg .CLKGATE_MODE [] := ⟨rfl, rfl, rfl, fun _ _ => rfl, fun _ _ => rfl, fun _ _ => rfl⟩
  refine hi.writes hr rfl ?_
  have hauto : (fieldIn F.CLKGATE_MODE.AUTO v == 1) = v.getLsbD 0 := by
    rw [fieldIn_bit rfl, show F.CLKGATE_MODE.AUTO.lo = 0 from rfl]
    cases v.getLsbD 0 <;> rfl
  show s.writeClkgateMode .full v = _
  rw [State.writeClkgateMode, if_neg (by decide), hauto, apply_ite (Prod.mk Resp.ok)]
  rfl

/-- Settles O33: each write or event by the branch that its conditions choose. -/
theorem clockCommands : Obligations.ClockCommands := by
  intro s rq d v sel t b n count r ix was run gx loop monitored ok window
  refine ⟨fun hr => ⟨clk_writes hr exec_loopProgram, clk_writes hr exec_clockSwitch⟩, exec_clkgateMode, exec_clockSwitchComplete,
    fun h => ?_, fun hen hon hx => ?_, exec_loopReady, exec_monitorWindow_off, exec_monitorWindow_ok, fun hm ho => ?_,
    exec_domainStoppedTimeout, exec_gateClose, exec_gateTimeout⟩
  · rw [exec, execClockSwitchComplete, h]
    rfl
  · rw [exec, execLoopLocked, hen, hon, hx]
    rfl
  · obtain ⟨u, hu, hf⟩ := exec_monitorWindow_fails hm ho
    exact ⟨u, hu, hf.count, hf.failed, hf.ready, hf.locked, hf.used⟩

end Sys2Proof.Machine
end

section
/-! What the vault engine's work on its counter tree leaves as it is (R302). -/

namespace Sys2Proof.Machine

variable {s t u : State} {n k j i c line : Nat} {r : RegName} {ix : List Nat} {f : Fld}

/-- `t` is `s` after nothing but work on the counter tree: nodes cached, dirty or written back, and the mark of a region raised. Words
that only the engine has written stay so. -/
structure TreeOnly (s t : State) : Prop where
  reg : ∀ r ix, r.valid ix = true → r ≠ .VR_STAT → t.reg r ix = s.reg r ix
  state : ∀ n : Fin 64, t.fld F.VR_STAT.STATE [n.val] = s.fld F.VR_STAT.STATE [n.val]
  rest : t = { s with
    regs := t.regs
    vault := { s.vault with
      cache := t.vault.cache, dirty := t.vault.dirty, versions := t.vault.versions, foreign := t.vault.foreign } }
  own : ∀ w, w ∈ t.vault.foreign → w ∈ s.vault.foreign

theorem TreeOnly.refl (s : State) : TreeOnly s s := ⟨fun _ _ _ _ => rfl, fun _ => rfl, rfl, fun _ h => h⟩

theorem TreeOnly.trans (h : TreeOnly s t) (k : TreeOnly t u) : TreeOnly s u := by
  refine ⟨fun r ix hv hr => (k.reg r ix hv hr).trans (h.reg r ix hv hr), fun n => (k.state n).trans (h.state n), ?_,
    fun w hw => h.own w (k.own w hw)⟩
  have hk := k.rest
  rw [h.rest] at hk
  exact hk

/-- A change of the tree alone. -/
theorem TreeOnly.tree (cache : List (Nat × Nat × Nat)) (dirty : List ((Nat × Nat × Nat) × List Nat)) (versions : Sparse W64)
    {foreign : List Nat} (hf : ∀ w ∈ foreign, w ∈ s.vault.foreign) : TreeOnly s { s with
      vault := { s.vault with cache := cache, dirty := dirty, versions := versions, foreign := foreign } } :=
  ⟨fun _ _ _ _ => rfl, fun _ => rfl, rfl, hf⟩

theorem TreeOnly.foldl {α : Type} {g : State → α → State} (h : ∀ s a, TreeOnly s (g s a)) (l : List α) : TreeOnly s (l.foldl g s) := by
  induction l generalizing s with
  | nil => exact .refl s
  | cons a l ih => exact (h s a).trans ih

theorem TreeOnly.raiseMark : TreeOnly s (s.raiseMark n c) := by
  unfold State.raiseMark
  split
  · rename_i h
    have hv : RegName.VR_STAT.valid [n] = true := by simp [RegName.valid, RegName.place, ixValid, h.1]
    exact ⟨fun r ix hi hr => State.reg_put_ne (f := F.VR_STAT.HWM) hr.symm hv hi,
      fun k => State.fld_put_apart (by decide) (by decide) (fun _ => by decide) hv
        (by simp [RegName.valid, RegName.place, ixValid, F.VR_STAT.STATE]), rfl, fun _ h => h⟩
  · exact .refl s

theorem TreeOnly.dirtyNode : TreeOnly s (s.dirtyNode n k j) := by
  unfold State.dirtyNode
  split
  · exact .refl s
  · exact .tree _ _ _ fun _ h => h

theorem TreeOnly.storeNode : TreeOnly s (s.storeNode n k j) :=
  TreeOnly.dirtyNode.trans ((TreeOnly.tree _ _ _ fun _ h => List.mem_of_mem_filter h).trans .raiseMark)

theorem TreeOnly.evict : TreeOnly s s.evict := by
  unfold State.evict
  split
  · exact .refl s
  · simp only
    split
    · exact (TreeOnly.tree _ _ _ fun _ h => h).trans .storeNode
    · exact .tree _ _ _ fun _ h => h

theorem TreeOnly.cachePath : TreeOnly s (s.cachePath n i) :=
  (TreeOnly.tree _ _ _ fun _ h => h).trans (.foldl (fun _ _ => .evict) _)

/-! ### What such work leaves -/

section
variable (h : TreeOnly s t)
include h

theorem TreeOnly.fld (hi : f.reg.valid ix = true) (hr : f.reg ≠ .VR_STAT) : t.fld f ix = s.fld f ix := by
  rw [State.fld, h.reg _ _ hi hr, State.fld]

theorem TreeOnly.data : t.vault.data = s.vault.data := by rw [h.rest]
theorem TreeOnly.counters : t.vault.counters = s.vault.counters := by rw [h.rest]
theorem TreeOnly.rebased : t.vault.rebased = s.vault.rebased := by rw [h.rest]
theorem TreeOnly.baseCounter : t.vault.baseCounter = s.vault.baseCounter := by rw [h.rest]
theorem TreeOnly.mem : t.mem = s.mem := by rw [h.rest]
theorem TreeOnly.standin : t.standin = s.standin := by rw [h.rest]
theorem TreeOnly.hostmem : t.hostmem = s.hostmem := by rw [h.rest]

theorem TreeOnly.initCounter : t.initCounter n i k = s.initCounter n i k := by
  rw [State.initCounter, h.rebased, h.baseCounter, State.initCounter]

end

end Sys2Proof.Machine
end

section
/-! Vault regions: VR_CFG, initialisation and re-initialisation (R300, R307): O30. -/

namespace Sys2Proof.Machine

variable {s t u : State} {rq : Rq} {n : Fin 64} {v w : W64} {c : Instr} {k i j level node : Nat}

theorem vaultReg_valid : RegName.VR_CFG.valid [n.val] = true ∧ RegName.VR_STAT.valid [n.val] = true := by
  simp [RegName.valid, RegName.place, ixValid]

theorem seal_valid (hj : j < 32) : RegName.SEAL.valid [j] = true := by simp [RegName.valid, RegName.place, ixValid, hj]

theorem installerReg_vrCfg : InstallerReg .VR_CFG [n.val] :=
  ⟨rfl, rfl, vaultReg_valid.1, fun _ _ => rfl, fun _ _ => rfl, fun _ _ => rfl⟩

/-! ### Writes of VR_CFG -/

/-- The size that the value gives the region is one of those it may have. -/
def vaultFits (x : W64) : Prop := 20 ≤ bitsOf x F.VR_CFG.SIZE.hi F.VR_CFG.SIZE.lo ∧ bitsOf x F.VR_CFG.SIZE.hi F.VR_CFG.SIZE.lo ≤ 38

/-- What the two commands of the written value do. -/
def State.vaultOrders (s : State) (n : Nat) (v : W64) : State :=
  let u := if wrote F.VR_CFG.INIT .full v then s.startInit n else s
  if wrote F.VR_CFG.REINIT .full v then u.startReinit n else u

theorem writeVrCfg_small (h : ¬vaultFits (s.merged .VR_CFG [k] .full v)) : s.writeVrCfg k .full v = (.decodeError, s) := by
  have hsize : fieldIn F.VR_CFG.SIZE (s.merged .VR_CFG [k] .full v) < 20 ∨ 38 < fieldIn F.VR_CFG.SIZE (s.merged .VR_CFG [k] .full v) := by
    simp only [vaultFits] at h
    simp only [fieldIn]
    omega
  exact if_pos ⟨by decide, hsize⟩

theorem writeVrCfg_fits (h : vaultFits (s.merged .VR_CFG [k] .full v)) : s.writeVrCfg k .full v =
    if s.fld F.VR_STAT.STATE [k] ≠ 0 ∧ s.merged .VR_CFG [k] .full v ≠ s.reg .VR_CFG [k] then (.bankNotOwned, s)
    else (.ok, (s.setReg .VR_CFG [k] (s.merged .VR_CFG [k] .full v)).vaultOrders k v) := by
  refine if_neg fun hsize => ?_
  simp only [vaultFits] at h
  have := hsize.2
  simp only [fieldIn] at this
  omega

theorem writeVrCfg_order (hm : s.merged .VR_CFG [k] .full v = s.reg .VR_CFG [k]) (h : vaultFits (s.reg .VR_CFG [k])) :
    s.writeVrCfg k .full v = (.ok, (s.setReg .VR_CFG [k] (s.reg .VR_CFG [k])).vaultOrders k v) := by
  rw [writeVrCfg_fits (by rwa [hm]), hm]
  exact if_neg fun hne => hne.2 rfl

/-! ### Seals -/

theorem sealsOf_congr (h : ∀ j < 32, t.reg .SEAL [j] = s.reg .SEAL [j]) : t.sealsOf k = s.sealsOf k := by
  unfold State.sealsOf
  refine List.filter_congr fun j hj => ?_
  have hreg := h j (List.mem_range.mp hj)
  simp only [State.flag, State.fld]
  rw [show F.SEAL.VALID.reg = .SEAL from rfl, show F.SEAL.REGION.reg = .SEAL from rfl, hreg]

theorem TreeOnly.sealsOf (h : TreeOnly s t) : t.sealsOf k = s.sealsOf k :=
  sealsOf_congr fun _ hj => h.reg _ _ (seal_valid hj) (by decide)

theorem clearSeal_valid : (s.setReg .SEAL [j] 0).flag F.SEAL.VALID [j] = false := by
  rw [State.flag, State.fld, show F.SEAL.VALID.reg = .SEAL from rfl, State.reg_setReg]
  decide

theorem clearSeal_sealsOf (hj : j < 32) : (s.setReg .SEAL [j] 0).sealsOf k = (s.sealsOf k).filter (· != j) := by
  unfold State.sealsOf
  rw [List.filter_filter]
  refine List.filter_congr fun i hi => ?_
  by_cases he : i = j
  · subst he
    rw [clearSeal_valid, bne_self_eq_false, Bool.false_and, Bool.false_and]
  · have hreg : (s.setReg .SEAL [j] 0).reg .SEAL [i] = s.reg .SEAL [i] :=
      State.reg_setReg_ix (by simpa using Ne.symm he) (seal_valid hj) (seal_valid (List.mem_range.mp hi))
    simp only [State.flag, State.fld]
    rw [show F.SEAL.VALID.reg = .SEAL from rfl, show F.SEAL.REGION.reg = .SEAL from rfl, hreg]
    simp [he]

theorem clearSeals_sealsOf (l : List Nat) (hl : ∀ j ∈ l, j < 32) :
    (l.foldl (fun s j => s.setReg .SEAL [j] 0) s).sealsOf k = (s.sealsOf k).filter fun i => !l.contains i := by
  induction l generalizing s with
  | nil => simp
  | cons j l ih =>
    rw [List.foldl_cons, ih fun i hi => hl i (by simp [hi]), clearSeal_sealsOf (hl j (by simp)), List.filter_filter]
    refine List.filter_congr fun i _ => ?_
    simp only [List.contains_cons, Bool.not_or, bne, Bool.and_comm]

theorem sealsOf_lt (h : j ∈ s.sealsOf k) : j < 32 := List.mem_range.mp (List.mem_of_mem_filter h)

/-! ### INIT and REINIT -/

theorem setVrCfg_fld {f : Fld} {ix : List Nat} (hf : f.reg ≠ .VR_CFG) (hi : f.reg.valid ix = true) :
    (s.setReg .VR_CFG [n.val] v).fld f ix = s.fld f ix := by
  rw [State.fld, State.reg_setReg_ne hf.symm vaultReg_valid.1 hi, State.fld]

/-- INIT reads what a write of VR_CFG leaves as it is. -/
theorem setVrCfg_startInit : (s.setReg .VR_CFG [n.val] v).startInit n =
    if s.regionEn n = true ∨ s.fld F.VR_STAT.STATE [n.val] = 1 then s.setReg .VR_CFG [n.val] v
    else ((s.setReg .VR_CFG [n.val] v).put F.VR_STAT.STATE 1 [n.val]).put F.VR_CFG.INIT 1 [n.val] := by
  have hen : (s.setReg .VR_CFG [n.val] v).regionEn n = s.regionEn n := by
    rw [State.regionEn, State.flag, setVrCfg_fld (by decide) (by simp [RegName.valid, RegName.place, ixValid, F.HR_BASE.EN]),
      State.regionEn, State.flag]
  rw [State.startInit, hen, setVrCfg_fld (by decide) vaultReg_valid.2]

/-- So does REINIT. -/
theorem setVrCfg_startReinit (h : ¬s.fld F.VR_STAT.STATE [n.val] = 3) : (s.setReg .VR_CFG [n.val] v).startReinit n =
    if s.fld F.VR_STAT.STATE [n.val] = 2 ∧ s.sealsOf n ≠ [] then
      ((s.setReg .VR_CFG [n.val] v).put F.VR_STAT.STATE 4 [n.val]).put F.VR_CFG.REINIT 1 [n.val]
    else s.setReg .VR_CFG [n.val] v := by
  have hseals : (s.setReg .VR_CFG [n.val] v).sealsOf n = s.sealsOf n :=
    sealsOf_congr fun j hj => State.reg_setReg_ne (by decide) vaultReg_valid.1 (seal_valid hj)
  rw [State.startReinit, setVrCfg_fld (by decide) vaultReg_valid.2, hseals]
  split
  · next h3 => exact absurd h3 h
  · next h2 =>
    cases hl : s.sealsOf n with
    | nil => simp [h2]
    | cons j l => simp [h2]
  · next h2 => rw [if_neg fun hs => h2 hs.1]

theorem setVrCfg_startReinit_whole (h : s.fld F.VR_STAT.STATE [n.val] = 3) : (s.setReg .VR_CFG [n.val] v).startReinit n =
    (s.setReg .VR_CFG [n.val] v).startInit n := by
  rw [State.startReinit, setVrCfg_fld (by decide) vaultReg_valid.2, h]
  rfl

section
variable (hr : Reaches s rq .installer (RegName.VR_CFG.addr [n.val]))
include hr

theorem exec_vrCfg_small (h : ¬vaultFits (s.merged .VR_CFG [n.val] .full v)) :
    RefusesWrite (.vrCfg rq n v) s rq .VR_CFG [n.val] .decodeError :=
  installerReg_vrCfg.refuses hr rfl (writeVrCfg_small h) (by decide) (by decide)

theorem exec_vrCfg_inUse (h : vaultFits (s.merged .VR_CFG [n.val] .full v)) (hs : s.fld F.VR_STAT.STATE [n.val] ≠ 0)
    (hn : s.merged .VR_CFG [n.val] .full v ≠ s.reg .VR_CFG [n.val]) : RefusesWrite (.vrCfg rq n v) s rq .VR_CFG [n.val] .bankNotOwned :=
  installerReg_vrCfg.refuses hr rfl ((writeVrCfg_fits h).trans (if_pos ⟨hs, hn⟩)) (by decide) (by decide)

theorem exec_vrCfg_size (h : vaultFits (s.merged .VR_CFG [n.val] .full v))
    (hs : s.fld F.VR_STAT.STATE [n.val] = 0 ∨ s.merged .VR_CFG [n.val] .full v = s.reg .VR_CFG [n.val])
    (hi : v.getLsbD F.VR_CFG.INIT.lo = false) (hre : v.getLsbD F.VR_CFG.REINIT.lo = false) :
    WritesRecorded (.vrCfg rq n v) s rq .VR_CFG [n.val] fun g => g.setReg .VR_CFG [n.val] (s.merged .VR_CFG [n.val] .full v) := by
  have hinit : wrote F.VR_CFG.INIT .full v = false := by
    rw [wrote_full, fieldIn_bit rfl, hi]
    rfl
  have hreinit : wrote F.VR_CFG.REINIT .full v = false := by
    rw [wrote_full, fieldIn_bit rfl, hre]
    rfl
  refine installerReg_vrCfg.writes hr rfl ((writeVrCfg_fits h).trans ((if_neg ?_).trans ?_))
  · exact fun hne => hs.elim hne.1 hne.2
  · rw [State.vaultOrders, hinit, hreinit]
    rfl

/-- A command that sets INIT leaves the settings as they are. -/
theorem exec_vaultInit {f : State → State} (h : vaultFits (s.reg .VR_CFG [n.val]))
    (hf : (s.setReg .VR_CFG [n.val] (s.reg .VR_CFG [n.val])).startInit n = f s) : WritesRecorded (.init rq n) s rq .VR_CFG [n.val] f := by
  refine installerReg_vrCfg.writes hr rfl
    ((writeVrCfg_order (State.merged_withSet (f := F.VR_CFG.INIT) (by decide) (by decide)) h).trans ?_)
  rw [State.vaultOrders, State.wrote_withSet (by decide) (by decide),
    State.wrote_withSet_ne (g := F.VR_CFG.REINIT) (f := F.VR_CFG.INIT) rfl (by decide) rfl (by decide)]
  exact congrArg (Prod.mk Resp.ok) hf

theorem exec_vaultReinit {f : State → State} (h : vaultFits (s.reg .VR_CFG [n.val]))
    (hf : (s.setReg .VR_CFG [n.val] (s.reg .VR_CFG [n.val])).startReinit n = f s) :
    WritesRecorded (.reinit rq n) s rq .VR_CFG [n.val] f := by
  refine installerReg_vrCfg.writes hr rfl
    ((writeVrCfg_order (State.merged_withSet (f := F.VR_CFG.REINIT) (by decide) (by decide)) h).trans ?_)
  rw [State.vaultOrders, State.wrote_withSet (by decide) (by decide),
    State.wrote_withSet_ne (g := F.VR_CFG.INIT) (f := F.VR_CFG.REINIT) rfl (by decide) rfl (by decide)]
  exact congrArg (Prod.mk Resp.ok) hf

end

/-! ### Initialisation -/

theorem leavePlace_of_none (h : s.firstLine k = none) : s.leavePlace k = s := by
  rw [State.leavePlace, State.lineWords, h]
  rfl

theorem leavePlace_firstLine : (s.leavePlace k).firstLine k = none := by
  cases h : s.firstLine k with
  | none => rw [leavePlace_of_none h, h]
  | some l =>
    rw [State.leavePlace, State.lineWords, h, State.firstLine]
    simp

theorem leavePlace_rest : ∃ va : Vault, s.leavePlace k = { s with vault := va } ∧ va.draws = s.vault.draws := by
  cases h : s.firstLine k with
  | none => exact ⟨s.vault, leavePlace_of_none h, rfl⟩
  | some l =>
    rw [State.leavePlace, State.lineWords, h]
    exact ⟨_, rfl, rfl⟩

/-- What initialisation makes of a region's keys and counters. -/
structure VaultFresh (s u : State) (n c : Nat) : Prop where
  base : Sparse.read u.vault.baseCounter n = BitVec.ofNat 64 c
  rebased : ∀ r ∈ u.vault.rebased, r.1 ≠ n
  place : u.firstLine n = none
  cache : ∀ x ∈ u.vault.cache, x.1 ≠ n
  draws : Sparse.get (fun _ => 0) u.vault.draws n = s.free + 1
  free : u.free = s.free + 8
  rest : u = { s with vault := u.vault, free := u.free }

theorem initRegion_fresh : VaultFresh s (s.initRegion k i) k i := by
  obtain ⟨va, hva, _⟩ := leavePlace_rest (s := s) (k := k)
  have hplace := leavePlace_firstLine (s := s) (k := k)
  rw [hva] at hplace
  unfold State.initRegion
  rw [hva]
  refine ⟨Sparse.read_write_self, fun r hr => ?_, hplace, fun x hx => ?_, ?_, rfl, rfl⟩
  · simpa using (List.mem_filter.mp hr).2
  · simpa using (List.mem_filter.mp hx).2
  · show Sparse.get (fun _ => 0) (Sparse.set (fun _ => 0) va.draws k (s.free + 1)) k = s.free + 1
    rw [Sparse.get_set, if_pos rfl]

theorem clearSeals_keeps (l : List Nat) (hl : ∀ j ∈ l, j < 32) : KeepsRegs s (l.foldl (fun s j => s.setReg .SEAL [j] 0) s) [.SEAL] :=
  .foldl_mem l fun _ j hj => .setReg (by simp) (seal_valid (hl j hj))

theorem clearSeals_rest (l : List Nat) : ∃ m, l.foldl (fun s j => s.setReg .SEAL [j] 0) s = { s with regs := m } := by
  induction l generalizing s with
  | nil => exact ⟨s.regs, rfl⟩
  | cons j l ih =>
    obtain ⟨m, hm⟩ := ih (s := s.setReg .SEAL [j] 0)
    exact ⟨m, hm⟩

/-- The region's state after its initialisation, by the state `t` that the initialisation has left. -/
def State.vaultInitialised (t : State) (k c : Nat) : State :=
  (((t.put F.VR_STAT.HWM c [k]).put F.VR_STAT.STATE 2 [k]).put F.VR_CFG.INIT 0 [k]).put F.VR_CFG.REINIT 0 [k]

theorem vaultInitialised_fields {c : Nat} : (t.vaultInitialised n c).fld F.VR_STAT.STATE [n.val] = 2 ∧
    (t.vaultInitialised n c).fld F.VR_STAT.HWM [n.val] = c % 2 ^ 56 ∧ (t.vaultInitialised n c).flag F.VR_CFG.INIT [n.val] = false ∧
    (t.vaultInitialised n c).flag F.VR_CFG.REINIT [n.val] = false := by
  obtain ⟨hcfg, hstat⟩ := vaultReg_valid (n := n)
  refine ⟨?_, ?_, ?_, ?_⟩
  · rw [State.vaultInitialised, State.fld_put_apart (by decide) (by decide) (by decide) hcfg hstat,
      State.fld_put_apart (by decide) (by decide) (by decide) hcfg hstat, State.fld_put (by decide) (by decide)]
    rfl
  · rw [State.vaultInitialised, State.fld_put_apart (by decide) (by decide) (by decide) hcfg hstat,
      State.fld_put_apart (by decide) (by decide) (by decide) hcfg hstat,
      State.fld_put_apart (by decide) (by decide) (by decide) hstat hstat, State.fld_put (by decide) (by decide)]
    rfl
  · rw [State.vaultInitialised, State.flag, State.fld_put_apart (by decide) (by decide) (by decide) hcfg hcfg,
      State.fld_put (by decide) (by decide)]
    rfl
  · rw [State.vaultInitialised, State.flag, State.fld_put (by decide) (by decide)]
    rfl

theorem vaultInitialised_keeps {c : Nat} : KeepsRegs t (t.vaultInitialised n c) [.VR_STAT, .VR_CFG] := by
  obtain ⟨hcfg, hstat⟩ := vaultReg_valid (n := n)
  exact ((((KeepsRegs.refl.trans (.put (by decide) hstat)).trans (.put (by decide) hstat)).trans (.put (by decide) hcfg)).trans
    (.put (by decide) hcfg))

theorem exec_vaultInitDone (h : s.fld F.VR_STAT.STATE [n.val] = 1) : exec (.vaultInitDone n) s =
    .next ((((s.sealsOf n).foldl (fun s j => s.setReg .SEAL [j] 0) s).initRegion n (s.fld F.VR_STAT.HWM [n.val] + 1)).vaultInitialised n
      (s.fld F.VR_STAT.HWM [n.val] + 1)) :=
  if_neg (not_not.mpr h)

/-- What the completed initialisation of region `n` leaves, under counter `c`. -/
theorem vaultInitDone_leaves {c : Nat} :
    let u := (((s.sealsOf n).foldl (fun s j => s.setReg .SEAL [j] 0) s).initRegion n c).vaultInitialised n c
    VaultFresh s { s with vault := u.vault, free := u.free } n c ∧ u.sealsOf n = [] ∧ u.hostmem = s.hostmem ∧
      u.firstLine n = none ∧ Keeps s u [.VR_STAT, .VR_CFG, .SEAL] := by
  intro u
  have hlt : ∀ j ∈ s.sealsOf n, j < 32 := fun _ hj => sealsOf_lt hj
  have hseals := clearSeals_sealsOf (s := s) (k := n) (s.sealsOf n) hlt
  have hclear := clearSeals_keeps (s := s) (s.sealsOf n) hlt
  obtain ⟨m, hm⟩ := clearSeals_rest (s := s) (s.sealsOf n)
  have hend : u = (((s.sealsOf n).foldl (fun s j => s.setReg .SEAL [j] 0) s).initRegion n c).vaultInitialised n c := rfl
  rw [hm] at hseals hclear hend
  have hfresh := initRegion_fresh (s := { s with regs := m }) (k := n.val) (i := c)
  have hregs : KeepsRegs { s with regs := m } u [.VR_STAT, .VR_CFG] := by
    rw [hend]
    exact KeepsRegs.trans (.of_regs (by rw [hfresh.rest])) vaultInitialised_keeps
  have hvault : u.vault = (({ s with regs := m } : State).initRegion n c).vault := by rw [hend]; rfl
  have hmem : u.mem = s.mem ∧ u.standin = s.standin ∧ u.hostmem = s.hostmem := by
    have hend' := hend
    rw [hfresh.rest] at hend'
    rw [hend']
    exact ⟨rfl, rfl, rfl⟩
  obtain ⟨hmem, hstandin, hhost⟩ := hmem
  have hfree : u.free = s.free + 8 := by rw [hend]; exact hfresh.free
  refine ⟨⟨?_, ?_, ?_, ?_, ?_, hfree, rfl⟩, ?_, hhost, ?_, ⟨fun r ix hv hr _ => ?_, hmem, hstandin⟩⟩
  · show Sparse.read u.vault.baseCounter n = _
    rw [hvault]
    exact hfresh.base
  · show ∀ r ∈ u.vault.rebased, r.1 ≠ n
    rw [hvault]
    exact hfresh.rebased
  · show State.firstLine u n = none
    rw [State.firstLine, hvault]
    exact hfresh.place
  · show ∀ x ∈ u.vault.cache, x.1 ≠ n
    rw [hvault]
    exact hfresh.cache
  · show Sparse.get (fun _ => 0) u.vault.draws n = _
    rw [hvault]
    exact hfresh.draws
  · rw [sealsOf_congr (s := { s with regs := m }) fun j hj => hregs _ _ (seal_valid hj) (by decide), hseals]
    exact List.filter_eq_nil_iff.mpr fun j hj => by simp [hj]
  · rw [State.firstLine, hvault]
    exact hfresh.place
  · exact (hregs r ix hv (by simp_all)).trans (hclear r ix hv (by simp_all))

/-! ### Re-initialisation of a sealed range -/

/-- The lines of a sealed range are fresh under counter `c`, its nodes and tags still to be built. -/
def State.rangeFresh (s : State) (n level node c : Nat) : State :=
  { s with vault := { s.vault with
    data := s.vault.data.filter fun p => !s.nodeCovers n level node (p.1 / 4)
    counters := s.vault.counters.filter fun p => !s.nodeCovers n level node p.1
    badLines := s.vault.badLines.filter fun l => !s.nodeCovers n level node l
    foreign := s.vault.foreign.filter fun w => !s.inRange n level node w
    versions := s.vault.versions.filter fun p =>
      !(p.1 / 2 ^ 36 == n && decide (p.1 / 2 ^ 32 % 16 < level) && underNode level node (p.1 / 2 ^ 32 % 16) (p.1 % 2 ^ 32))
    cache := s.vault.cache.filter fun x => !(x.1 == n && underNode level node x.2.1 x.2.2)
    dirty := s.vault.dirty.filter fun d => !(d.1.1 == n && underNode level node d.1.2.1 d.1.2.2)
    rebased := (n, level, node, BitVec.ofNat 64 c) :: s.vault.rebased } }

/-- The range of a state whose cache holds the range's path, rewritten under the counter above its region's mark. -/
def State.rangeStored (s : State) (n level node : Nat) : State :=
  ((s.rangeFresh n level node (s.fld F.VR_STAT.HWM [n] + 1)).put F.VR_STAT.HWM (s.fld F.VR_STAT.HWM [n] + 1) [n]).storeNode n level node

theorem rewriteRange_eq : s.rewriteRange k level node = (s.cachePath k (node * 8 ^ level)).rangeStored k level node := rfl

theorem cachePath_nodeCovers : (s.cachePath n.val i).nodeCovers n level node j = s.nodeCovers n level node j := by
  have hbase : (s.cachePath n.val i).regionBase n = s.regionBase n := by
    rw [State.regionBase, TreeOnly.cachePath.fld (by simp [RegName.valid, RegName.place, ixValid, F.HR_BASE.BASE]) (by decide),
      State.regionBase]
  rw [State.nodeCovers, State.lineOf, hbase, State.nodeCovers, State.lineOf]

theorem rangeStored_data : (s.rangeStored k level node).vault.data = s.vault.data.filter fun p => !s.nodeCovers k level node (p.1 / 4) := by
  rw [State.rangeStored, TreeOnly.storeNode.data]
  rfl

theorem rangeStored_keeps : Keeps s (s.rangeStored n level node) [.VR_STAT] := by
  refine ⟨fun r ix hv hr _ => ?_, TreeOnly.storeNode.mem, TreeOnly.storeNode.standin⟩
  have hne : r ≠ .VR_STAT := by simpa using hr
  exact (TreeOnly.storeNode.reg r ix hv hne).trans (State.reg_put_ne (f := F.VR_STAT.HWM) hne.symm vaultReg_valid.2 hv)

theorem rangeStored_state : (s.rangeStored n level node).fld F.VR_STAT.STATE [n.val] = s.fld F.VR_STAT.STATE [n.val] :=
  (TreeOnly.storeNode.state n).trans
    (State.fld_put_field (f := F.VR_STAT.HWM) (f' := F.VR_STAT.STATE) rfl (by decide) (by decide) (by decide))

theorem rewriteRange_data : (s.rewriteRange n level node).vault.data = s.vault.data.filter fun p => !s.nodeCovers n level node (p.1 / 4) := by
  rw [rewriteRange_eq, rangeStored_data, TreeOnly.cachePath.data]
  simp only [cachePath_nodeCovers]

theorem rewriteRange_keeps : Keeps s (s.rewriteRange n level node) [.VR_STAT] := by
  rw [rewriteRange_eq]
  have hpath := TreeOnly.cachePath (s := s) (n := n) (i := node * 8 ^ level)
  exact Keeps.trans ⟨fun r ix hv hr _ => hpath.reg r ix hv (by simpa using hr), hpath.mem, hpath.standin⟩ rangeStored_keeps

theorem rewriteRange_state : (s.rewriteRange n level node).fld F.VR_STAT.STATE [n.val] = s.fld F.VR_STAT.STATE [n.val] := by
  rw [rewriteRange_eq, rangeStored_state, TreeOnly.cachePath.state n]

/-! The counters, where the cache has room for the path of the range. -/

theorem cachePath_fits (h : s.vault.cache.length + s.topLevel k ≤ cacheNodes) : s.cachePath k i = { s with
    vault := { s.vault with cache := s.pathOf k i ++ s.vault.cache.filter fun x => !(s.pathOf k i).contains x } } := by
  have hlen : (s.pathOf k i ++ s.vault.cache.filter fun x => !(s.pathOf k i).contains x).length - cacheNodes = 0 := by
    have hf := List.length_filter_le (fun x => !(s.pathOf k i).contains x) s.vault.cache
    have hp : (s.pathOf k i).length = s.topLevel k := by simp [State.pathOf]
    rw [List.length_append, hp]
    omega
  rw [State.cachePath]
  dsimp only
  rw [hlen]
  rfl

/-- A sealed range does not take away the counter that the parent of its node holds. -/
theorem nodeKey_outside {key : Nat} (hn : node < 2 ^ 32) (hk : key = nodeKey k level node) :
    (!(key / 2 ^ 36 == k && decide (key / 2 ^ 32 % 16 < level) && underNode level node (key / 2 ^ 32 % 16) (key % 2 ^ 32))) = true := by
  have hno : ¬(key / 2 ^ 36 = k ∧ key / 2 ^ 32 % 16 < level) := by
    rw [hk, nodeKey]
    omega
  rw [Bool.not_eq_true', Bool.and_eq_false_iff]
  left
  simpa using hno

theorem version_congr (hr : Sparse.read t.vault.versions (nodeKey k level node) = Sparse.read s.vault.versions (nodeKey k level node))
    (hi : t.initCounter k (node * 8 ^ level) level = s.initCounter k (node * 8 ^ level) level) :
    t.version k level node = s.version k level node := by
  rw [State.version, hr, hi, State.version]

theorem version_of_read {c : Nat} (h : (Sparse.read s.vault.versions (nodeKey k level node)).toNat = c + 1) :
    s.version k level node = c + 1 := by
  rw [State.version, h]
  rfl

theorem rangeFresh_version (hn : node < 2 ^ 32) : (s.rangeFresh k level node i).version k level node = s.version k level node := by
  refine version_congr ?_ ?_
  · exact Sparse.read_filter (P := fun key =>
      !(key / 2 ^ 36 == k && decide (key / 2 ^ 32 % 16 < level) && underNode level node (key / 2 ^ 32 % 16) (key % 2 ^ 32)))
      (nodeKey_outside hn rfl)
  · rw [State.initCounter, State.initCounter, State.rangeFresh, List.find?_cons_of_neg (by simp)]

/-- A node written back has one more than its counter, and the mark keeps up with it. -/
theorem storeNode_version (h : s.version k level node + 1 < 2 ^ 64) :
    (s.storeNode k level node).version k level node = s.version k level node + 1 := by
  refine version_of_read ?_
  have hread : Sparse.read (s.storeNode k level node).vault.versions (nodeKey k level node) =
      BitVec.ofNat 64 (s.version k level node + 1) := by
    unfold State.storeNode State.raiseMark
    dsimp only
    split <;> exact Sparse.read_write_self
  rw [hread, BitVec.toNat_ofNat, Nat.mod_eq_of_lt h]

theorem storeNode_mark (h : s.version k level node + 1 ≤ s.fld F.VR_STAT.HWM [k]) :
    (s.storeNode k level node).fld F.VR_STAT.HWM [k] = s.fld F.VR_STAT.HWM [k] := by
  have hdirty : ∀ j i, (s.dirtyNode k j i).regs = s.regs := fun j i => by
    unfold State.dirtyNode
    split <;> rfl
  unfold State.storeNode State.raiseMark
  dsimp only
  rw [if_neg]
  · rw [State.fld, State.reg, State.fld, State.reg]
    dsimp only
    rw [hdirty]
  · rw [State.fld, State.reg]
    dsimp only
    rw [hdirty]
    exact fun hlt => absurd hlt.2 (by
      show ¬s.fld F.VR_STAT.HWM [k] < _
      omega)

/-- What the range's node and lines hold once they have been rewritten. -/
theorem rangeStored_counters (hn : node < 2 ^ 32) (hv : s.version n level node ≤ s.fld F.VR_STAT.HWM [n.val])
    (hm : s.fld F.VR_STAT.HWM [n.val] + 1 < 2 ^ 56) :
    (s.rangeStored n level node).fld F.VR_STAT.HWM [n.val] = s.fld F.VR_STAT.HWM [n.val] + 1 ∧
      (s.rangeStored n level node).version n level node = s.version n level node + 1 ∧
      ∀ i, i / 8 ^ level = node → 0 < level → (s.rangeStored n level node).initCounter n i = s.fld F.VR_STAT.HWM [n.val] + 1 := by
  let c := s.fld F.VR_STAT.HWM [n.val] + 1
  have hversion : ((s.rangeFresh n level node c).put F.VR_STAT.HWM c [n.val]).version n level node = s.version n level node :=
    (version_congr rfl rfl).trans (rangeFresh_version hn)
  have hput : ((s.rangeFresh n level node c).put F.VR_STAT.HWM c [n.val]).fld F.VR_STAT.HWM [n.val] = c := by
    rw [State.fld_put (by decide) (by decide)]
    exact Nat.mod_eq_of_lt hm
  rw [State.rangeStored]
  refine ⟨?_, ?_, fun i hi hl => ?_⟩
  · exact (storeNode_mark (by rw [hversion, hput]; omega)).trans hput
  · exact (storeNode_version (by rw [hversion]; omega)).trans (congrArg (· + 1) hversion)
  · rw [TreeOnly.storeNode.initCounter]
    show State.initCounter (s.rangeFresh n level node c) n i = c
    rw [State.initCounter, State.rangeFresh, List.find?_cons_of_pos (by simp [hi, hl])]
    exact (BitVec.toNat_ofNat _ _).trans (Nat.mod_eq_of_lt (by omega))

theorem rewriteRange_counters (h : s.vault.cache.length + s.topLevel n ≤ cacheNodes) (hn : node < 2 ^ 32)
    (hv : s.version n level node ≤ s.fld F.VR_STAT.HWM [n.val]) (hm : s.fld F.VR_STAT.HWM [n.val] + 1 < 2 ^ 56) :
    (s.rewriteRange n level node).fld F.VR_STAT.HWM [n.val] = s.fld F.VR_STAT.HWM [n.val] + 1 ∧
      (s.rewriteRange n level node).version n level node = s.version n level node + 1 ∧
      ∀ i, i / 8 ^ level = node → 0 < level → (s.rewriteRange n level node).initCounter n i = s.fld F.VR_STAT.HWM [n.val] + 1 := by
  rw [rewriteRange_eq, cachePath_fits h]
  exact rangeStored_counters hn hv hm

/-! ### The end of a re-initialisation -/

section
variable {q : Fin 32}

/-- The seal's entry cleared, after its range. -/
def State.sealDone (s : State) (n : Nat) (j : Nat) : State :=
  (s.rewriteRange n (s.fld F.SEAL.LEVEL [j]) (s.fld F.SEAL.NODE [j])).setReg .SEAL [j] 0

/-- The last seal of the region ends its re-initialisation. -/
def State.reinitEnd (t : State) (n : Nat) : State :=
  if (t.sealsOf n).isEmpty then (t.put F.VR_STAT.STATE 2 [n]).put F.VR_CFG.REINIT 0 [n] else t

theorem exec_reinitDone (hk : s.fld F.SEAL.REGION [q.val] = n.val) (hv : s.flag F.SEAL.VALID [q.val] = true)
    (hs : s.fld F.VR_STAT.STATE [n.val] = 4) : exec (.reinitDone q) s = .next ((s.sealDone n q).reinitEnd n) := by
  rw [exec, execReinitDone]
  dsimp only
  rw [hk, if_neg (by simp [hv, hs]), State.reinitEnd, apply_ite Host.Outcome.next]
  rfl

theorem exec_reinitDone_none (hk : s.fld F.SEAL.REGION [q.val] = n.val)
    (h : s.flag F.SEAL.VALID [q.val] = false ∨ s.fld F.VR_STAT.STATE [n.val] ≠ 4) : exec (.reinitDone q) s = .next s := by
  rw [exec, execReinitDone]
  dsimp only
  rw [hk]
  exact if_pos h

theorem reinitEnd_vault : (t.reinitEnd k).vault = t.vault := by
  unfold State.reinitEnd
  split <;> rfl

theorem reinitEnd_keeps : Keeps t (t.reinitEnd n) [.VR_STAT, .VR_CFG] := by
  unfold State.reinitEnd
  split
  · exact (Keeps.put (by decide) vaultReg_valid.2).trans (.put (by decide) vaultReg_valid.1)
  · exact .refl

theorem reinitEnd_sealsOf : (t.reinitEnd n).sealsOf k = t.sealsOf k :=
  sealsOf_congr fun _ hj => reinitEnd_keeps.reg _ _ (seal_valid hj) (by decide) (by decide)

theorem reinitEnd_mark : (t.reinitEnd n).fld F.VR_STAT.HWM [n.val] = t.fld F.VR_STAT.HWM [n.val] := by
  unfold State.reinitEnd
  split
  · rw [State.fld_put_apart (by decide) (by decide) (by decide) vaultReg_valid.1 vaultReg_valid.2,
      State.fld_put_apart (by decide) (by decide) (by decide) vaultReg_valid.2 vaultReg_valid.2]
  · rfl

theorem reinitEnd_state (h : t.fld F.VR_STAT.STATE [n.val] = 4) :
    (t.reinitEnd n).fld F.VR_STAT.STATE [n.val] = if (t.reinitEnd n).sealsOf n = [] then 2 else 4 := by
  rw [reinitEnd_sealsOf, State.reinitEnd]
  by_cases he : t.sealsOf n = []
  · rw [if_pos (List.isEmpty_iff.mpr he), if_pos he,
      State.fld_put_apart (by decide) (by decide) (by decide) vaultReg_valid.1 vaultReg_valid.2,
      State.fld_put (by decide) (by decide)]
    rfl
  · rw [if_neg (mt List.isEmpty_iff.mp he), if_neg he, h]

theorem sealDone_vault : (s.sealDone k j).vault = (s.rewriteRange k (s.fld F.SEAL.LEVEL [j]) (s.fld F.SEAL.NODE [j])).vault := rfl

theorem sealDone_sealsOf : (s.sealDone n q).sealsOf n = (s.sealsOf n).filter (· != q.val) := by
  rw [State.sealDone, clearSeal_sealsOf q.isLt]
  exact congrArg _ (sealsOf_congr fun _ hj => rewriteRange_keeps.reg _ _ (seal_valid hj) (by decide) (by decide))

theorem sealDone_fld {f : Fld} (hf : f.reg = .VR_STAT) : (s.sealDone n q).fld f [n.val] =
    (s.rewriteRange n (s.fld F.SEAL.LEVEL [q.val]) (s.fld F.SEAL.NODE [q.val])).fld f [n.val] := by
  rw [State.fld, State.fld, State.sealDone, State.reg_setReg_ne (by rw [hf]; decide) (seal_valid q.isLt) (by rw [hf]; exact vaultReg_valid.2)]

theorem sealDone_keeps : Keeps s (s.sealDone n q) [.VR_STAT, .SEAL] :=
  (rewriteRange_keeps.mono (by simp)).trans (.setReg (by simp) (seal_valid q.isLt))

end

/-- Settles O30: writes of VR_CFG by its settings and commands, initialisation by the keys and counters that it draws, and the
re-initialisation of a sealed range by the counters of its node and lines. -/
theorem vaultRegionCommands : Obligations.VaultRegionCommands := by
  intro s rq n v ix old new size fits state c same begins mark
  refine ⟨fun hr => ⟨exec_vrCfg_small hr, exec_vrCfg_inUse hr, exec_vrCfg_size hr, fun hf => ?_, fun hf => ⟨fun h3 => ?_, fun h2 hs => ?_,
    fun h3 h2 => ?_⟩⟩, fun h => if_pos h, fun h => ?_, fun j k hk => ⟨exec_reinitDone_none hk, fun hv hs => ?_⟩⟩
  · exact exec_vaultInit hr hf setVrCfg_startInit
  · exact exec_vaultReinit hr hf ((setVrCfg_startReinit_whole h3).trans setVrCfg_startInit)
  · refine exec_vaultReinit hr hf ((setVrCfg_startReinit ?_).trans (if_pos ⟨h2, hs⟩))
    show ¬state = 3
    omega
  · exact exec_vaultReinit hr hf ((setVrCfg_startReinit h3).trans (if_neg h2))
  · obtain ⟨hfresh, hseals, hhost, hplace, hkeeps⟩ := vaultInitDone_leaves (s := s) (n := n) (c := mark)
    obtain ⟨hstate, hmark, hinit, hreinit⟩ := vaultInitialised_fields (n := n) (c := mark)
      (t := ((s.sealsOf n).foldl (fun s j => s.setReg .SEAL [j] 0) s).initRegion n mark)
    exact ⟨_, exec_vaultInitDone h, hstate, hmark, hinit, hreinit, hfresh.base, hseals, hfresh.rebased, hplace, hfresh.cache,
      hfresh.draws, hfresh.free, hhost, hkeeps⟩
  · intro level node
    have hnode : node < 2 ^ 32 := bitsOf_lt ..
    have hstate : (s.sealDone k j).fld F.VR_STAT.STATE [k.val] = 4 := by
      rw [sealDone_fld rfl, rewriteRange_state, hs]
    have hdata : ((s.sealDone k j).reinitEnd k).vault.data = s.vault.data.filter fun p => !s.nodeCovers k level node (p.1 / 4) := by
      rw [reinitEnd_vault, sealDone_vault, rewriteRange_data]
    refine ⟨(s.sealDone k j).reinitEnd k, exec_reinitDone hk hv hs, ?_, ?_, fun hroom hver hm => ?_, reinitEnd_state hstate, fun p hp => ?_, fun p hp hc => ?_, ?_⟩
    · rw [State.flag, State.fld, reinitEnd_keeps.reg F.SEAL.VALID.reg _ (seal_valid j.isLt) (by decide) (by decide)]
      exact clearSeal_valid
    · rw [reinitEnd_sealsOf, sealDone_sealsOf]
    · obtain ⟨hmark, hversion, hinit⟩ := rewriteRange_counters hroom hnode hver hm
      refine ⟨?_, ?_, fun i hi hl => ?_⟩
      · rw [reinitEnd_mark, sealDone_fld rfl, hmark]
      · rw [State.version, State.initCounter, reinitEnd_vault, sealDone_vault]
        exact hversion
      · rw [State.initCounter, reinitEnd_vault, sealDone_vault]
        exact hinit i hi hl
    · rw [hdata] at hp
      exact ⟨List.mem_of_mem_filter hp, by simpa using (List.mem_filter.mp hp).2⟩
    · rw [hdata]
      exact List.mem_filter.mpr ⟨hp, by simp [hc]⟩
    · exact (sealDone_keeps.mono (by simp)).trans (reinitEnd_keeps.mono (by simp))

end Sys2Proof.Machine
end

section
/-! Power domains: requests, sequences and the events of the supply (R333 to R348): O34 and O35. -/

namespace Sys2Proof.Machine

variable {s t u : State} {rq : Rq} {role : Role} {d : Pd} {n k l now target : Nat} {busy : Bool} {latch : Option Nat} {c : Instr} {f : Fld}

/-! ### The status of a domain -/

theorem pdStat_valid : RegName.PD_STAT.valid [d.val] = true := by simp [RegName.valid, RegName.place, ixValid]

theorem pdCtrl_valid : RegName.PD_CTRL.valid [d.val] = true := by simp [RegName.valid, RegName.place, ixValid]

theorem Keeps.setPd : Keeps s (s.setPd d now target busy latch) [.PD_STAT] :=
  (((Keeps.put (by decide) pdStat_valid).trans (.put (by decide) pdStat_valid)).trans (.put (by decide) pdStat_valid)).trans
    (.put (by decide) pdStat_valid)

/-- The word of a status whose state has three bits. -/
theorem pdWord_parts {on off : Bool} (h : target < 8) : pdWord target on off busy < 64 ∧ pdWord target on off busy % 8 = target ∧
    (pdWord target on off busy).testBit 5 = busy := by
  have hon : b2n on ≤ 1 := by cases on <;> decide
  have hoff : b2n off ≤ 1 := by cases off <;> decide
  unfold pdWord
  refine ⟨?_, by omega, ?_⟩
  · cases busy <;> simp only [b2n, if_true, Bool.false_eq_true, if_false] <;> unfold b2n at hon hoff <;> omega
  · rw [Nat.testBit_eq_decide_div_mod_eq]
    cases busy <;> simp only [b2n, if_true, Bool.false_eq_true, if_false, decide_eq_true_eq, decide_eq_false_iff_not] <;>
      unfold b2n at hon hoff <;> omega

/-- The latched request leads to a higher state than the sequence. -/
def pdOn (target : Nat) (latch : Option Nat) : Bool := latch.any fun l => decide (pdRank target < pdRank l)

theorem setPd_eq : s.setPd n now target busy latch = (((s.put F.PD_STAT.NOW now [n]).put F.PD_STAT.LATCH_VALID (b2n latch.isSome) [n]).put
    F.PD_STAT.LATCHED (latch.getD 0) [n]).put F.PD_STAT.WORD
      (pdWord target (pdOn target latch) (latch.isSome && !pdOn target latch) busy) [n] := by
  cases latch <;> rfl

/-- What the status reads once it has been written. -/
structure PdIs (u : State) (d now target : Nat) (busy : Bool) (latch : Option Nat) : Prop where
  now : u.pd d = now
  busy : u.pdBusy d = busy
  target : u.pdTarget d = target
  latchValid : u.latchValid d = latch.isSome
  latched : u.latched d = latch.getD 0

theorem setPd_is (hn : now < 8) (ht : target < 8) (hl : latch.getD 0 < 8) : PdIs (s.setPd k now target busy latch) k now target busy latch := by
  obtain ⟨hlt, hmod, hbit⟩ := pdWord_parts (busy := busy) (on := pdOn target latch) (off := latch.isSome && !pdOn target latch) ht
  have hword : (s.setPd k now target busy latch).fld F.PD_STAT.WORD [k] = pdWord target (pdOn target latch)
      (latch.isSome && !pdOn target latch) busy := by
    rw [setPd_eq, State.fld_put (by decide) (by decide)]
    exact Nat.mod_eq_of_lt (by
      show _ < 256
      omega)
  refine ⟨?_, ?_, ?_, ?_, ?_⟩
  · rw [State.pd, setPd_eq, State.fld_put_field (f := F.PD_STAT.WORD) (f' := F.PD_STAT.NOW) rfl (by decide) (by decide) (by decide),
      State.fld_put_field (f := F.PD_STAT.LATCHED) (f' := F.PD_STAT.NOW) rfl (by decide) (by decide) (by decide),
      State.fld_put_field (f := F.PD_STAT.LATCH_VALID) (f' := F.PD_STAT.NOW) rfl (by decide) (by decide) (by decide),
      State.fld_put (by decide) (by decide)]
    exact Nat.mod_eq_of_lt hn
  · have hb : ((s.setPd k now target busy latch).fld F.PD_STAT.WORD [k]).testBit 5 = (s.setPd k now target busy latch).pdBusy k := by
      rw [State.fld, testBit_bitsOf]
      rfl
    rw [← hb, hword, hbit]
  · rw [State.pdTarget, hword, hmod]
  · rw [State.latchValid, State.flag, setPd_eq,
      State.fld_put_field (f := F.PD_STAT.WORD) (f' := F.PD_STAT.LATCH_VALID) rfl (by decide) (by decide) (by decide),
      State.fld_put_field (f := F.PD_STAT.LATCHED) (f' := F.PD_STAT.LATCH_VALID) rfl (by decide) (by decide) (by decide),
      State.fld_put (by decide) (by decide)]
    cases latch <;> rfl
  · rw [State.latched, setPd_eq, State.fld_put_field (f := F.PD_STAT.WORD) (f' := F.PD_STAT.LATCHED) rfl (by decide) (by decide) (by decide),
      State.fld_put (by decide) (by decide)]
    exact Nat.mod_eq_of_lt hl

/-! ### Requests (R337) -/

/-- The write of PD_CTRL that asks for a state. -/
theorem pdWrite_records (hc : exec c s = .next (s.busReg rq .PD_CTRL [d.val] (s.withField F.PD_CTRL.REQ [d.val] n)))
    (hn : reqTarget (n % 8) = some target) (hr : Reaches s rq role (RegName.PD_CTRL.addr [d.val])) :
    WritesRecorded c s rq .PD_CTRL [d.val] fun g =>
      (g.put F.PD_CTRL.WAKE_ON_ACCESS (s.fld F.PD_CTRL.WAKE_ON_ACCESS [d.val]) [d.val]).pdRequest d target := by
  have hw : RegWrite c s rq role .PD_CTRL [d.val] (s.withField F.PD_CTRL.REQ [d.val] n) := .of_reaches (by decide) pdCtrl_valid hr hc
  have hwake : fieldIn F.PD_CTRL.WAKE_ON_ACCESS (s.withField F.PD_CTRL.REQ [d.val] n) = s.fld F.PD_CTRL.WAKE_ON_ACCESS [d.val] :=
    bitsOf_setBits_ne _ _ _ _ _ _ (by decide) (by decide) (by decide)
  have hreq : fieldIn F.PD_CTRL.REQ (s.withField F.PD_CTRL.REQ [d.val] n) = n % 8 := bitsOf_setBits _ _ _ _ (by decide) (by decide)
  refine hw.writesRecorded (touchGate_package (by decide) pdCtrl_valid) rfl rfl rfl ?_
  show s.writePdCtrl role d .full _ = _
  rw [State.writePdCtrl, if_neg (by decide), hwake, hreq]
  dsimp only
  rw [if_neg (fun h => h.1 rfl), hn]

theorem fitTarget_lt (h : target ≤ 3) : fitTarget n target < 8 := by
  unfold fitTarget
  split <;> omega

theorem pd_lt : s.pd n < 8 := bitsOf_lt ..

theorem pdTarget_lt : s.pdTarget n < 8 := Nat.mod_lt _ (by decide)

/-- The domain takes the request. -/
def State.pdTakes (s : State) (d target : Nat) : Prop :=
  pdFixed d = false ∧ (s.bankvBad d = true ∨ s.layerOff d = true → fitTarget d target = 0) ∧ s.noStack d = false

/-- A request that the domain takes. -/
theorem pdRequest_takes (h : s.pdTakes n target) : s.pdRequest n target =
    if s.pdBusy n then
      if fitTarget n target = s.pdTarget n then s.setPd n (s.pd n) (s.pdTarget n) true none
      else s.setPd n (s.pd n) (s.pdTarget n) true (some (fitTarget n target))
    else if fitTarget n target = s.pd n then s.pwrDone n
    else s.startSequence n (fitTarget n target) := by
  obtain ⟨hfixed, hfit, hstack⟩ := h
  have hskip : ¬((pdFixed n || ((s.bankvBad n || s.layerOff n) && fitTarget n target != 0)) = true) := by
    rw [hfixed, Bool.false_or, Bool.and_eq_true, Bool.or_eq_true, bne_iff_ne]
    exact fun hs => hs.2 (hfit hs.1)
  rw [State.pdRequest, if_neg hskip, hstack, if_neg Bool.false_ne_true]

theorem startSequence_is (h : target < 8) : PdIs (s.startSequence n target) n (s.pd n) target true none := by
  unfold State.startSequence
  dsimp only
  split
  · exact setPd_is pd_lt h (by decide)
  · exact setPd_is pd_lt h (by decide)

theorem Keeps.startSequence : Keeps s (s.startSequence d target) [.PD_STAT] := by
  unfold State.startSequence
  dsimp only
  split
  · exact Keeps.trans (t := s.raiseFences d) (.of_regs rfl rfl rfl) .setPd
  · exact .setPd

theorem exec_sequenceComplete_none (h : s.pdBusy d = false ∨ s.sequenceWaits d = true) : exec (.sequenceComplete d) s = .next s :=
  if_pos (by simpa using h)

theorem exec_sequenceComplete (hb : s.pdBusy d = true) (hw : s.sequenceWaits d = false) :
    exec (.sequenceComplete d) s = .next ((s.completeSequence d).afterRun d).checkReady.finish :=
  if_neg (by simp [hb, hw])

/-- Settles O34: a request by the branch of the domain's state, a completed sequence by what the model makes of it. -/
theorem powerRequests : Obligations.PowerRequests := by
  intro s rq role d target ix asks t u takes
  refine ⟨pdWrite_records rfl rfl, pdWrite_records rfl rfl, pdWrite_records rfl rfl, pdWrite_records rfl rfl, fun h => ?_,
    fun h3 ht hb hne => ?_, fun _ ht hb he => ?_, fun h3 ht hb hne => ?_, fun hb hw => exec_sequenceComplete hb hw,
    exec_sequenceComplete_none⟩
  · exact if_pos (by rw [h, Bool.true_or])
  · have hu : u = s.startSequence d t := (pdRequest_takes ht).trans ((if_neg (by simp [hb])).trans (if_neg hne))
    obtain ⟨hnow, hbusy, htarget, hlatch, _⟩ := startSequence_is (s := s) (n := d) (fitTarget_lt (n := d) h3)
    rw [hu]
    exact ⟨hnow, hbusy, htarget, hlatch, .startSequence⟩
  · have hu : u = s.pwrDone d := (pdRequest_takes ht).trans ((if_neg (by simp [hb])).trans (if_pos he))
    rw [hu]
    exact .edge
  · have hu : u = s.setPd d (s.pd d) (s.pdTarget d) true (some t) :=
      (pdRequest_takes ht).trans ((if_pos hb).trans (if_neg hne))
    obtain ⟨hnow, hbusy, htarget, hlatch, hlatched⟩ := setPd_is (s := s) (k := d) (busy := true) (latch := some t) pd_lt pdTarget_lt
      (fitTarget_lt (n := d) h3)
    rw [hu]
    exact ⟨hnow, hbusy, htarget, hlatch, hlatched⟩

/-! ### Start-up and input power -/

/-- The state in which domain `k` has begun its way to RUN, the first of those that are to come up. -/
def State.starts (s : State) (k : Nat) (rest : List Nat) : State :=
  let a : State := { s with ref := { s.ref with bringUp := rest } }
  let b : State := if k < 8 then a else a.setStack ((k - 8) / 14) true
  let latch := if s.latchValid k = true ∧ s.latched k ≠ 1 then some (s.latched k) else none
  if s.pd k = 1 ∨ s.bankvBad k = true ∨ s.layerOff k = true then b else b.setPd k (s.pd k) 1 true latch

theorem bringUpNext_waits (h : ∀ k rest, s.ref.bringUp = k :: rest → s.mayBringUp k = false) : s.bringUpNext = s := by
  unfold State.bringUpNext
  split
  · rfl
  · next d rest hd => rw [h d rest hd]; rfl

theorem bringUpNext_starts {rest : List Nat} (hb : s.ref.bringUp = k :: rest) (hm : s.mayBringUp k = true) :
    s.bringUpNext = s.starts k rest := by
  rw [State.bringUpNext, hb]
  dsimp only
  rw [hm, State.starts]
  by_cases h8 : k < 8
  · simp only [if_pos h8, Bool.not_true, if_neg Bool.false_ne_true]
    rfl
  · simp only [if_neg h8, Bool.not_true, if_neg Bool.false_ne_true]
    rfl

theorem exec_railUndervoltage (hf : pdFixed d = false) (hn : s.pd d = 1) : exec (.railUndervoltage d) s =
    .next (((((s.recordPower d 1).lowerFences d).setPd d 0 0 false none).stateEffects d 1 0).settleV) := by
  have hwas : (s.recordPower d 1).pd d = 1 := hn
  rw [exec, execRailUndervoltage, if_neg (by simp [hf, hn]), State.cutOff, hwas]

theorem removeStack_stackPower (h : k < 4) : (s.removeStack k).ref.stackPower.getLsbD k = false := by
  show (setBits _ k k 0).getLsbD k = false
  rw [getLsbD_setBits _ _ _ _ _ (le_refl k) h, if_pos ⟨le_refl k, le_refl k⟩]
  simp

theorem assertGsr_keepsRegs : KeepsRegs (s.put F.LOAD_STAT.GSR 1) s.assertGsr [.PIN_CFG, .RU_STAT] := by
  have hrelease {s : State} : ∀ k ∈ List.range 16, KeepsRegs s (s.release k) [.PIN_CFG, .RU_STAT] := fun k hk => by
    have hv : RegName.RU_STAT.valid [k] = true := by simp [RegName.valid, RegName.place, ixValid, List.mem_range.mp hk]
    exact (KeepsRegs.put (by decide) hv).trans (.put (by decide) hv)
  have hpark {s : State} : ∀ p ∈ List.range 512, KeepsRegs s
      (if s.flag F.PIN_CFG.PARKED [p] then s.put F.PIN_CFG.PARKED 0 [p] else s) [.PIN_CFG, .RU_STAT] := fun p hp => by
    split
    · exact .put (by decide) (by simp [RegName.valid, RegName.place, ixValid, F.PIN_CFG.PARKED, List.mem_range.mp hp])
    · exact .refl
  unfold State.assertGsr
  refine KeepsRegs.trans ?_ (.foldl_mem (List.range 16) fun _ => hrelease)
  exact KeepsRegs.trans (t := { s.put F.LOAD_STAT.GSR 1 with parked := [], pinNow := [] }) (.of_regs rfl)
    (.foldl_mem (List.range 512) fun _ => hpark)

theorem losePersona_none : (s.losePersona.put F.PKG_THERM.SHUTDOWN 1).persona_ = 0 := by
  let a : State := { s with persona := { s.persona with staged := [], stagedSetup := none, heldRegions := [] } }
  let b : State := (((a.put F.LOAD_STAT.PERSONA 0).put F.LOAD_STAT.STAGED 0).put F.LOAD_STAT.ACT_PENDING 0).put F.LOAD_STAT.UNBENCH_HELD 0
  have hgsr : s.losePersona.reg .LOAD_STAT [] = (b.put F.LOAD_STAT.GSR 1).reg .LOAD_STAT [] :=
    assertGsr_keepsRegs (s := b) .LOAD_STAT [] (by decide) (by decide)
  rw [State.persona_, State.fld_put_ne (by decide) (by decide) (by decide), State.fld]
  rw [show F.LOAD_STAT.PERSONA.reg = .LOAD_STAT from rfl, hgsr]
  show (b.put F.LOAD_STAT.GSR 1).fld F.LOAD_STAT.PERSONA = 0
  rw [State.fld_put_field (f := F.LOAD_STAT.GSR) (f' := F.LOAD_STAT.PERSONA) rfl (by decide) (by decide) (by decide),
    State.fld_put_field (f := F.LOAD_STAT.UNBENCH_HELD) (f' := F.LOAD_STAT.PERSONA) rfl (by decide) (by decide) (by decide),
    State.fld_put_field (f := F.LOAD_STAT.ACT_PENDING) (f' := F.LOAD_STAT.PERSONA) rfl (by decide) (by decide) (by decide),
    State.fld_put_field (f := F.LOAD_STAT.STAGED) (f' := F.LOAD_STAT.PERSONA) rfl (by decide) (by decide) (by decide),
    State.fld_put (by decide) (by decide)]
  rfl

/-! ### Levels and the cap (R345 to R348) -/

theorem putPin_plevel : (s.put F.PKG_INPUT.PIN n).plevel = s.plevel := State.fld_put_ne (by decide) (by decide) (by decide)

theorem powerUpdate_over {held : Bool} (h : s.fld F.PKG_CAP.EFFECTIVE < n) :
    s.powerUpdate n held = (s.put F.PKG_INPUT.PIN n).setPlevel (min 14 (s.plevel + 1)) := by
  rw [State.powerUpdate, if_pos h, putPin_plevel]

/-- The state with the measured power, the halt by the cap at an end. -/
def State.capEased (s : State) (pin : Nat) : State :=
  { s.put F.PKG_INPUT.PIN pin with ref := { (s.put F.PKG_INPUT.PIN pin).ref with powerCapHalt := false } }

theorem powerUpdate_under {held : Bool} (h : ¬s.fld F.PKG_CAP.EFFECTIVE < n) : s.powerUpdate n held =
    if held = true ∧ 100 * n < 95 * s.fld F.PKG_CAP.EFFECTIVE ∧ !(s.plevel = 14 ∧ !s.lapsRun ∧ s.ref.cause = 0x0C) then
      (s.capEased n).setPlevel (s.plevel - 1) else s.capEased n := by
  rw [State.powerUpdate, if_neg h, putPin_plevel]
  rfl

theorem pkgCap_fields {vin iin : BitVec 16} {ilim : Bool} : Completes id (.vinCapRecompute vin iin ilim) s fun u =>
    u.fld F.PKG_INPUT.VIN = vin.toNat ∧ u.fld F.PKG_CAP.VIN_CAP = vinCap vin.toNat ∧ u.flag F.PKG_CAP.ILIM = ilim ∧
      u.fld F.PKG_CAP.EFFECTIVE = (if s.fld F.PKG_CAP.CAP = 0 then vinCap vin.toNat else min (vinCap vin.toNat) (s.fld F.PKG_CAP.CAP)) ∧
      Keeps s u [.PKG_INPUT, .PKG_CAP] := by
  let a := (s.put F.PKG_INPUT.VIN vin.toNat).put F.PKG_INPUT.IIN iin.toNat
  let b := (a.put F.PKG_CAP.ILIM (b2n ilim)).put F.PKG_CAP.VIN_CAP (vinCap vin.toNat)
  have hcap : vinCap vin.toNat ≤ 2600 := by
    unfold vinCap
    split <;> omega
  have hvcap : b.fld F.PKG_CAP.VIN_CAP = vinCap vin.toNat := by
    rw [State.fld_put (by decide) (by decide)]
    exact Nat.mod_eq_of_lt (Nat.lt_of_le_of_lt hcap (by decide))
  have hinst : b.fld F.PKG_CAP.CAP = s.fld F.PKG_CAP.CAP := by
    rw [State.fld_put_apart (by decide) (by decide) (by decide) (by decide) (by decide),
      State.fld_put_apart (by decide) (by decide) (by decide) (by decide) (by decide),
      State.fld_put_apart (by decide) (by decide) (by decide) (by decide) (by decide),
      State.fld_put_apart (by decide) (by decide) (by decide) (by decide) (by decide)]
  have hvin : b.fld F.PKG_INPUT.VIN = vin.toNat := by
    rw [State.fld_put_apart (by decide) (by decide) (by decide) (by decide) (by decide),
      State.fld_put_apart (by decide) (by decide) (by decide) (by decide) (by decide),
      State.fld_put_apart (by decide) (by decide) (by decide) (by decide) (by decide), State.fld_put (by decide) (by decide)]
    exact Nat.mod_eq_of_lt vin.isLt
  have hilim : b.flag F.PKG_CAP.ILIM = ilim := by
    rw [State.flag, State.fld_put_apart (by decide) (by decide) (by decide) (by decide) (by decide),
      State.fld_put (by decide) (by decide)]
    cases ilim <;> rfl
  have hlow : b.effectiveCap = b.put F.PKG_CAP.EFFECTIVE
      (if s.fld F.PKG_CAP.CAP = 0 then vinCap vin.toNat else min (vinCap vin.toNat) (s.fld F.PKG_CAP.CAP)) := by
    rw [State.effectiveCap, hvcap, hinst, Nat.min_eq_right hcap]
  refine ⟨b.effectiveCap, rfl, ?_⟩
  rw [hlow]
  refine ⟨?_, ?_, ?_, ?_, ?_⟩
  · exact (State.fld_put_apart (by decide) (by decide) (by decide) (by decide) (by decide)).trans hvin
  · exact (State.fld_put_apart (by decide) (by decide) (by decide) (by decide) (by decide)).trans hvcap
  · rw [State.flag, State.fld_put_apart (by decide) (by decide) (by decide) (by decide) (by decide)]
    exact hilim
  · rw [State.fld_put (by decide) (by decide)]
    refine Nat.mod_eq_of_lt (Nat.lt_of_le_of_lt (m := 2600) ?_ (by decide))
    split <;> omega
  · exact ((((Keeps.put (by decide) (by decide)).trans (.put (by decide) (by decide))).trans (.put (by decide) (by decide))).trans
      (.put (by decide) (by decide))).trans (.put (by decide) (by decide))

/-! ### Temperature (R341) -/

/-- One step of a fold establishes `P`, which the others keep. -/
theorem foldl_establishes {α : Type} {P Q : State → Prop} {g : State → α → State} {x : α} (l : List α) (hx : x ∈ l)
    (hQ : ∀ s, ∀ a ∈ l, Q s → Q (g s a)) (hP : ∀ s, ∀ a ∈ l, Q s → P s → P (g s a)) (hest : ∀ s, Q s → P (g s x)) (hs : Q s) :
    P (l.foldl g s) := by
  have hkeep : ∀ (l' : List α), l' ⊆ l → ∀ s, Q s → P s → P (l'.foldl g s) := fun l' => by
    induction l' with
    | nil => exact fun _ _ _ h => h
    | cons a l' ih =>
      intro hl s hq hp
      exact ih (fun b hb => hl (by simp [hb])) _ (hQ s a (hl (by simp)) hq) (hP s a (hl (by simp)) hq hp)
  have hreach : ∀ (l' : List α), l' ⊆ l → x ∈ l' → ∀ s, Q s → P (l'.foldl g s) := fun l' => by
    induction l' with
    | nil => exact fun _ h => absurd h (by simp)
    | cons a l' ih =>
      intro hl hx s hq
      rcases List.mem_cons.mp hx with rfl | hx'
      · exact hkeep l' (fun b hb => hl (by simp [hb])) _ (hQ s x (hl (by simp)) hq) (hest s hq)
      · exact ih (fun b hb => hl (by simp [hb])) hx' _ (hQ s a (hl (by simp)) hq)
  exact hreach l (List.Subset.refl l) hx s hs

/-- The register of a sensor, and the value that a reading gives it. -/
def tempIx (n : Nat) : List Nat := [n / 96, n % 96 / 16, n % 16]
def State.tempWord (s : State) (n : Nat) (w : BitVec 16) : W64 := BitVec.ofNat 64 (w.toNat + 65536 * b2n (s.sensorValid n w))

theorem tempIx_valid (h : n < 384) : RegName.TEMP.valid (tempIx n) = true := by
  simp only [RegName.valid, RegName.place, tempIx, ixValid, Bool.and_true, Bool.and_eq_true, decide_eq_true_eq]
  omega

theorem tempIx_inj {m : Nat} (h : tempIx m = tempIx n) : m = n := by
  simp only [tempIx, List.cons.injEq, and_true] at h
  omega

/-- The readings of a conversion, each with its sensor. -/
structure Readings (rs : List (Nat × BitVec 16)) : Prop where
  lt : ∀ r ∈ rs, r.1 < 384
  one : ∀ r ∈ rs, ∀ r' ∈ rs, r'.1 = r.1 → r' = r

theorem readings_zip {readings : List (BitVec 16)} : Readings ((List.range 384).zip readings) := by
  refine ⟨fun r hr => List.mem_range.mp (List.of_mem_zip hr).1, fun r hr r' hr' he => ?_⟩
  obtain ⟨i, hi, hri⟩ := List.mem_iff_getElem.mp hr
  obtain ⟨j, hj, hrj⟩ := List.mem_iff_getElem.mp hr'
  rw [List.getElem_zip, List.getElem_range] at hri hrj
  rw [← hri, ← hrj] at he ⊢
  simp only at he
  subst he
  rfl

section
variable {rs : List (Nat × BitVec 16)} {w : BitVec 16} (hrs : Readings rs)
include hrs

/-- The readings of tower `k` in its sensors' registers. -/
def State.tempsOf (s : State) (rs : List (Nat × BitVec 16)) (k : Nat) : State :=
  (rs.filter fun r => r.1 / 96 == k).foldl (fun s r =>
    s.setReg .TEMP [k, r.1 % 96 / 16, r.1 % 16] (BitVec.ofNat 64 (r.2.toNat + 65536 * b2n (s.sensorValid r.1 r.2)))) s

omit hrs in
theorem convertTower_after : ∃ m, s.convertTower rs k = (s.tempsOf rs k).setReg .TWR_TMAX [k] m := ⟨_, rfl⟩

omit hrs in
theorem tempsOf_ref : (s.tempsOf rs k).ref = s.ref := by
  unfold State.tempsOf
  generalize rs.filter _ = l
  induction l generalizing s with
  | nil => rfl
  | cons r l ih => exact ih

omit hrs in
/-- A reading that belongs to the tower, as the fold writes it. -/
theorem tempStep_eq {r : Nat × BitVec 16} (h : r.1 / 96 = k) : s.setReg .TEMP [k, r.1 % 96 / 16, r.1 % 16]
    (BitVec.ofNat 64 (r.2.toNat + 65536 * b2n (s.sensorValid r.1 r.2))) = s.setReg .TEMP (tempIx r.1) (s.tempWord r.1 r.2) := by
  rw [← h]
  rfl

theorem tempsOf_keeps (hn : n < 384) (hne : n / 96 ≠ k) : (s.tempsOf rs k).reg .TEMP (tempIx n) = s.reg .TEMP (tempIx n) := by
  have hstep : ∀ l ⊆ rs, ∀ s : State, (∀ r ∈ l, r.1 / 96 = k) → (l.foldl (fun s r =>
      s.setReg .TEMP [k, r.1 % 96 / 16, r.1 % 16] (BitVec.ofNat 64 (r.2.toNat + 65536 * b2n (s.sensorValid r.1 r.2)))) s).reg .TEMP
        (tempIx n) = s.reg .TEMP (tempIx n) := fun l => by
    induction l with
    | nil => exact fun _ _ _ => rfl
    | cons r l ih =>
      intro hl s hk
      have hr : r.1 / 96 = k := hk r (by simp)
      rw [List.foldl_cons, ih (fun a ha => hl (by simp [ha])) _ fun a ha => hk a (by simp [ha]), tempStep_eq hr]
      refine State.reg_setReg_ix (fun he => hne ?_) (tempIx_valid (hrs.lt r (hl (by simp)))) (tempIx_valid hn)
      rw [← tempIx_inj he, hr]
  exact hstep _ List.filter_sublist.subset s fun r hr => by simpa using (List.mem_filter.mp hr).2

/-- The register of a sensor holds its reading once its tower has been converted. -/
theorem tempsOf_reads (hw : (n, w) ∈ rs) (hk : n / 96 = k) :
    (s.tempsOf rs k).reg .TEMP (tempIx n) = s.tempWord n w := by
  have hword {u : State} (h : u.ref.badSensors = s.ref.badSensors) : u.tempWord n w = s.tempWord n w := by
    rw [State.tempWord, State.sensorValid, h, State.tempWord, State.sensorValid]
  refine foldl_establishes (P := fun u => u.reg .TEMP (tempIx n) = s.tempWord n w) (Q := fun u => u.ref.badSensors = s.ref.badSensors)
    (x := (n, w)) _ (List.mem_filter.mpr ⟨hw, by simpa using hk⟩) (fun _ _ _ h => h) (fun u r hr hq hp => ?_) (fun u hq => ?_) rfl
  · obtain ⟨hr, htower⟩ := List.mem_filter.mp hr
    rw [tempStep_eq (by simpa using htower)]
    by_cases hsame : r.1 = n
    · rw [hrs.one _ hw r hr hsame, State.reg_setReg, hword hq]
    · rw [State.reg_setReg_ix (fun he => hsame (tempIx_inj he)) (tempIx_valid (hrs.lt r hr)) (tempIx_valid (hrs.lt _ hw)), hp]
  · rw [tempStep_eq hk, State.reg_setReg, hword hq]

omit hrs in
theorem convertTower_temp (hk : k < 4) (hn : n < 384) : (s.convertTower rs k).reg .TEMP (tempIx n) = (s.tempsOf rs k).reg .TEMP (tempIx n) := by
  obtain ⟨m, hm⟩ := convertTower_after (s := s) (rs := rs) (k := k)
  rw [hm]
  exact State.reg_setReg_ne (by decide) (by simp [RegName.valid, RegName.place, ixValid, hk]) (tempIx_valid hn)

/-- The sensor's register holds its reading once every tower has been converted. -/
theorem convertTowers_temp (hw : (n, w) ∈ rs) :
    ((List.range 4).foldl (fun s t => s.convertTower rs t) s).reg .TEMP (tempIx n) = s.tempWord n w := by
  have hn : n < 384 := hrs.lt _ hw
  have hword {u : State} (h : u.ref = s.ref) : u.tempWord n w = s.tempWord n w := by
    rw [State.tempWord, State.sensorValid, h, State.tempWord, State.sensorValid]
  refine foldl_establishes (P := fun u => u.reg .TEMP (tempIx n) = s.tempWord n w) (Q := fun u => u.ref = s.ref) (x := n / 96) _
    (List.mem_range.mpr (by omega)) (fun u k _ hq => ?_) (fun u k hk hq hp => ?_) (fun u hq => ?_) rfl
  · obtain ⟨m, hm⟩ := convertTower_after (s := u) (rs := rs) (k := k)
    rw [hm]
    exact tempsOf_ref.trans hq
  · rw [convertTower_temp (List.mem_range.mp hk) hn]
    by_cases hk' : n / 96 = k
    · rw [tempsOf_reads hrs hw hk', hword hq]
    · rw [tempsOf_keeps hrs hn hk', hp]
  · rw [convertTower_temp (by omega) hn, tempsOf_reads hrs hw rfl, hword hq]

end

/-- The registers that a conversion writes besides the sensors'. -/
def thermalRegs : List RegName := [.PKG_THERM, .REF_STAT, .TPWR_STAT, .CLKDOM_CFG] ++ eventRegs

theorem KeepsRegs.putTherm (hf : f.reg = .PKG_THERM) : KeepsRegs s (s.put f n) thermalRegs :=
  .put (by rw [hf]; decide) (by rw [hf]; decide)

theorem convertPackage_keepsRegs {rs : List (Nat × BitVec 16)} : KeepsRegs s (s.convertPackage rs) thermalRegs :=
  ((KeepsRegs.putTherm rfl).trans (.putTherm rfl)).trans ((KeepsRegs.putTherm rfl).trans (.putTherm rfl))

theorem warn_keepsRegs : KeepsRegs s (s.warn k) thermalRegs := by
  have hput : KeepsRegs (s.recordPower k 4) ((s.recordPower k 4).orBits F.REF_STAT.ALERTS 8) thermalRegs :=
    .put (by decide) (by decide)
  exact (KeepsRegs.trans (.of_regs rfl) hput).trans (.of_onlyEvents .blockEvent (List.subset_append_right _ _))

theorem setLevels_keepsRegs (hk : k < 4) : KeepsRegs s (s.setLevels k n l) thermalRegs := by
  have hpwr {s : State} {f : Fld} {n : Nat} (hf : f.reg = .TPWR_STAT) : KeepsRegs s (s.put f n [k]) thermalRegs :=
    .put (by rw [hf]; decide) (by rw [hf]; simp [RegName.valid, RegName.place, ixValid, hk])
  have hdiv {s : State} {m : Nat} : ∀ i ∈ [2, 3, 4], KeepsRegs s (s.put F.CLKDOM_CFG.DIV m [k, i]) thermalRegs := fun i hi =>
    .put (by decide) (by
      have : i < 6 := by
        simp only [List.mem_cons, List.not_mem_nil, or_false] at hi
        omega
      simp [RegName.valid, RegName.place, ixValid, F.CLKDOM_CFG.DIV, hk, this])
  unfold State.setLevels
  exact ((((hpwr rfl).trans (hpwr rfl)).trans (hpwr rfl)).trans ((hpwr rfl).trans (hpwr rfl))).trans (.foldl_mem _ fun _ => hdiv)

/-- The state after the crossing of the tower's warning threshold. -/
def State.warned (s : State) (t : Nat) (was : Int) : State :=
  if s.threshold F.PKG_THRESH.TWARN ≤ s.towerMax t ∧ was < s.threshold F.PKG_THRESH.TWARN ∧ !s.flag F.PKG_THERM.WARN then s.warn t else s

/-- The state after the crossing of the critical temperature. -/
def State.critical (s : State) (t : Nat) (was : Int) : State :=
  if was < 125 * 16 then (s.recordPower t 5).nmiThermalAll else s

theorem crossings_eq {was : Int} : s.crossings k was = if 125 * 16 ≤ s.towerMax k then
    ((s.warned k was).critical k was).setLevels k 14 ((s.warned k was).critical k was).plevel else s.warned k was := rfl

theorem crossings_keepsRegs {was : Int} (hk : k < 4) : KeepsRegs s (s.crossings k was) thermalRegs := by
  have hwarn : KeepsRegs s (s.warned k was) thermalRegs := by
    unfold State.warned
    split
    · exact warn_keepsRegs
    · exact .refl
  have hcrit {s : State} : KeepsRegs s (s.critical k was) thermalRegs := by
    unfold State.critical
    split
    · exact .of_regs rfl
    · exact .refl
  rw [crossings_eq]
  split
  · exact (hwarn.trans hcrit).trans (setLevels_keepsRegs hk)
  · exact hwarn

/-- The part of a conversion that follows the sensors' registers. -/
def State.convertRest (s : State) (rs : List (Nat × BitVec 16)) (old : List (Nat × Int)) : State :=
  let s := s.convertPackage rs
  let s := old.foldl (fun s o => s.crossings o.1 o.2) s
  let hot := (List.range 4).foldl (fun m t => max m (s.towerMax t)) (-32768)
  let s := s.put F.PKG_THERM.WARN (b2n (warnNow (s.flag F.PKG_THERM.WARN) hot (s.threshold F.PKG_THRESH.TWARN)))
  (s.put F.PKG_THERM.CRIT (b2n (decide (125 * 16 ≤ signedOf 16 (s.fld F.PKG_THERM.TMAX))))).throttleFlag

theorem convertRest_keepsRegs {rs : List (Nat × BitVec 16)} {old : List (Nat × Int)} (h : ∀ o ∈ old, o.1 < 4) :
    KeepsRegs s (s.convertRest rs old) thermalRegs :=
  (convertPackage_keepsRegs.trans (.foldl_mem _ fun _ o ho => crossings_keepsRegs (h o ho))).trans
    (((KeepsRegs.putTherm rfl).trans (.putTherm rfl)).trans (.putTherm rfl))

theorem convert_eq {readings : List (BitVec 16)} : s.convert readings =
    ((List.range 4).foldl (fun u t => u.convertTower ((List.range 384).zip readings) t) s).convertRest
      ((List.range 384).zip readings) ((List.range 4).map fun t => (t, s.towerMax t)) := rfl

theorem exec_temperatureConversion {readings : List (BitVec 16)} (hlen : readings.length = 384) :
    Completes State.settleV (.temperatureConversion readings) s fun u =>
      ∀ (x : Tower) (j : Fin 6) (i : Fin 16) w, readings[96 * x.val + 16 * j.val + i.val]? = some w →
        u.reg .TEMP [x.val, j.val, i.val] =
          BitVec.ofNat 64 (w.toNat + 65536 * b2n (s.sensorValid (96 * x.val + 16 * j.val + i.val) w)) := by
  refine ⟨s.convert readings, if_pos hlen, fun x j i w hw => ?_⟩
  have hn : 96 * x.val + 16 * j.val + i.val < 384 := by omega
  have hix : [x.val, j.val, i.val] = tempIx (96 * x.val + 16 * j.val + i.val) := by
    simp only [tempIx, List.cons.injEq, and_true]
    omega
  have hmem : (96 * x.val + 16 * j.val + i.val, w) ∈ (List.range 384).zip readings := by
    exact List.mem_iff_getElem?.mpr ⟨_, List.getElem?_zip_eq_some.mpr ⟨List.getElem?_range hn, hw⟩⟩
  have hrest := convertRest_keepsRegs (s := (List.range 4).foldl (fun u t => u.convertTower ((List.range 384).zip readings) t) s)
    (rs := (List.range 384).zip readings) (old := (List.range 4).map fun t => (t, s.towerMax t)) (by simp)
  rw [hix, convert_eq, hrest _ _ (tempIx_valid hn) (by decide), convertTowers_temp readings_zip hmem]
  rfl

/-- Settles O35: each event by the branch of its conditions; a conversion by what the later parts of it leave of a sensor's register. -/
theorem powerEvents : Obligations.PowerEvents := by
  intro s d t pin vin iin held ilim readings starts vinOut hotOut inRange cap p l limit hot tl level fed eased vcap
  refine ⟨fun h => ?_, fun k rest hb hm => ?_, fun hf hn => ?_, fun h => ?_, rfl, rfl, rfl, losePersona_none, rfl,
    removeStack_stackPower t.isLt, fun hv hl => ?_, fun hv hl => ?_, fun hv => ?_, exec_temperatureConversion, rfl, fun h => ?_,
    fun h hh h95 hrun => ?_, fun h hh => ?_, pkgCap_fields, fun hl hc => if_pos ⟨hl, hc⟩⟩
  · rw [exec, execDomainStart, bringUpNext_waits h]
  · rw [exec, execDomainStart, bringUpNext_starts hb hm]
    rfl
  · exact exec_railUndervoltage hf hn
  · rw [exec, execRailUndervoltage, if_pos (by simpa using h)]
  · exact (if_pos hv).trans (congrArg Host.Outcome.next (if_neg (Bool.eq_false_iff.mp hl)))
  · exact (if_pos hv).trans (congrArg Host.Outcome.next (if_pos hl))
  · exact if_neg (Bool.eq_false_iff.mp hv)
  · rw [exec, execPowerLevelUpdate, powerUpdate_over h]
  · rw [exec, execPowerLevelUpdate, powerUpdate_under (by omega), if_pos ⟨hh, h95, by simp [hrun]⟩]
    rfl
  · rw [exec, execPowerLevelUpdate, powerUpdate_under (by omega), if_neg (by simp [hh])]
    rfl

end Sys2Proof.Machine
end

section
/-! Target pins: owners, configuration, GPIO, parks, pattern-match and reaction units (R396 to R407): O36. -/

namespace Sys2Proof.Machine

variable {s t g u : State} {rq : Rq} {role : Role} {p : Pin} {i : Fin 8} {k : Fin 16} {n : Fin 32} {v m : W64} {pads : BitVec 512}
  {c : Instr} {r : RegName} {j : Nat} {f : State → State} {x : Resp}

/-! ### The way of a write to the pin block -/

/-- The registers of the pin block that the commands write. -/
def pinRegs : List RegName := [.PIN_OWN, .PIN_CFG, .GPIO_SET, .GPIO_CLR, .GPIO_TGL, .DOUT, .RU_CTRL]

theorem pinReg_plain (hm : r ∈ pinRegs) : ownCopies r = true ∧ s.slotDenies rq r [j] = false ∧
    s.writeEffect rq role r [j] .full v = s.writePinReg rq role r [j] .full v := by
  fin_cases hm <;> exact ⟨rfl, rfl, rfl⟩

theorem pinReg_gate (hm : r ∈ pinRegs) (hv : r.valid [j] = true) : GateOnly s (s.touchGate (r.addr [j])) := by
  refine .touchGate hv ?_
  fin_cases hm <;> rfl

section
variable (hm : r ∈ pinRegs) (hv : r.valid [j] = true) (hr : Reaches s rq role (r.addr [j]))
  (hc : exec c s = .next (s.busReg rq r [j] v)) (hright : ∀ g : State, g.writeRight role r [j] .full v = true)
include hm hv hr hc hright

theorem pinReg_writes (hrec : ∀ g, GateOnly s g → g.writeRecorded r [j] .full v = false)
    (he : ∀ g, GateOnly s g → g.writePinReg rq role r [j] .full v = (.ok, f g)) : Writes c s rq r [j] f := by
  have hgate := pinReg_gate (s := s) hm hv
  obtain ⟨hown, hslot, heffect⟩ := pinReg_plain (s := s.touchGate (r.addr [j])) (rq := rq) (role := role) (j := j) (v := v) hm
  exact (RegWrite.of_reaches hown hv hr hc).writes rfl (hright _) hslot (hrec _ hgate) (heffect.trans (he _ hgate))

theorem pinReg_writesRecorded (hrec : ∀ g, GateOnly s g → g.writeRecorded r [j] .full v = true)
    (he : ∀ g, GateOnly s g → g.writePinReg rq role r [j] .full v = (.ok, f g)) : WritesRecorded c s rq r [j] f := by
  have hgate := pinReg_gate (s := s) hm hv
  obtain ⟨hown, hslot, heffect⟩ := pinReg_plain (s := s.touchGate (r.addr [j])) (rq := rq) (role := role) (j := j) (v := v) hm
  exact (RegWrite.of_reaches hown hv hr hc).writesRecorded rfl (hright _) hslot (hrec _ hgate) (heffect.trans (he _ hgate))

theorem pinReg_refuses (he : ∀ g, GateOnly s g → g.writePinReg rq role r [j] .full v = (x, g)) (hx : x ≠ .ok) (hd : x ≠ .roleDenied) :
    RefusesWrite c s rq r [j] x := by
  have hgate := pinReg_gate (s := s) hm hv
  obtain ⟨hown, hslot, heffect⟩ := pinReg_plain (s := s.touchGate (r.addr [j])) (rq := rq) (role := role) (j := j) (v := v) hm
  exact (RegWrite.of_reaches hown hv hr hc).refuses rfl (hright _) hslot (heffect.trans (he _ hgate)) hx hd

end

/-! ### What a gate leaves of the pins -/

theorem pinReg_valid : RegName.PIN_OWN.valid [p.val] = true ∧ RegName.PIN_CFG.valid [p.val] = true := by
  simp [RegName.valid, RegName.place, ixValid]

theorem gpio_valid : RegName.GPIO_SET.valid [i.val] = true ∧ RegName.GPIO_CLR.valid [i.val] = true ∧
    RegName.GPIO_TGL.valid [i.val] = true ∧ RegName.GPIO_OUT.valid [i.val] = true ∧ RegName.DOUT.valid [i.val] = true := by
  simp [RegName.valid, RegName.place, ixValid]

theorem ruReg_valid : RegName.RU_CTRL.valid [k.val] = true ∧ RegName.RU_STAT.valid [k.val] = true := by
  simp [RegName.valid, RegName.place, ixValid]

section
variable (h : GateOnly s g)
include h

theorem GateOnly.pinOwner (hp : j < 512) : g.pinOwner j = s.pinOwner j :=
  h.fld (by simp [RegName.valid, RegName.place, ixValid, F.PIN_OWN.KIND, hp]) (by decide)

theorem GateOnly.pinSet : g.pinSet p = s.pinSet p := by rw [State.pinSet, h.reg _ _ pinReg_valid.2 (by decide), State.pinSet]

theorem GateOnly.ownsPin (hp : j < 512) : g.ownsPin rq j = s.ownsPin rq j := by
  have heng : g.fld F.PIN_OWN.ENG [j] = s.fld F.PIN_OWN.ENG [j] :=
    h.fld (by simp [RegName.valid, RegName.place, ixValid, F.PIN_OWN.ENG, hp]) (by decide)
  rw [State.ownsPin, h.pinOwner hp, heng]
  rfl

theorem GateOnly.gpioMask : g.gpioMask rq i = s.gpioMask rq i := by
  have hbit : ∀ a ∈ List.range 64, (g.ownsPin rq (64 * i + a) && g.pinFunc (64 * i + a) == 2) =
      (s.ownsPin rq (64 * i + a) && s.pinFunc (64 * i + a) == 2) := fun a ha => by
    have hlt : 64 * i.val + a < 512 := by
      have := List.mem_range.mp ha
      omega
    rw [h.ownsPin hlt, State.pinFunc, h.fld (by simp [RegName.valid, RegName.place, ixValid, F.PIN_CFG.FUNC, hlt]) (by decide),
      State.pinFunc]
  rw [State.gpioMask, List.map_congr_left hbit, State.gpioMask]

theorem GateOnly.persona : g.persona_ = s.persona_ ∧ g.persona = s.persona := by
  refine ⟨h.fld (by decide) (by decide), by rw [h.rest]⟩

theorem GateOnly.mapHolds : g.mapHolds j = s.mapHolds j := by
  rw [State.mapHolds, h.persona.1, h.persona.2, State.mapHolds]

theorem GateOnly.merged (hv : r.valid [j] = true) (hr : r ≠ .GATE) : g.merged r [j] .full v = s.merged r [j] .full v := by
  rw [State.merged, h.reg _ _ hv hr, State.merged]

end

/-! ### PIN_OWN and PIN_CFG -/

section
variable (hr : Reaches s rq .installer (RegName.PIN_OWN.addr [p.val]))
include hr

theorem exec_pinOwn_same (h : s.merged .PIN_OWN [p.val] .full v = s.reg .PIN_OWN [p.val]) :
    WritesRecorded (.pinOwn rq p v) s rq .PIN_OWN [p.val] id := by
  refine pinReg_writesRecorded (by decide) pinReg_valid.1 hr rfl (fun _ => rfl) (fun _ _ => rfl) fun g hg => if_pos ?_
  show g.merged .PIN_OWN [p.val] .full v = g.reg .PIN_OWN [p.val]
  rw [hg.merged pinReg_valid.1 (by decide), hg.reg _ _ pinReg_valid.1 (by decide)]
  exact h

/-- The pin may not leave the design: the personality's map holds it. -/
def State.pinStuck (s : State) (p : Nat) (own : W64) : Prop :=
  s.pinOwner p = 0 ∧ ¬fieldIn F.PIN_OWN.KIND own = 0 ∧ s.mapHolds p = true

omit hr in
theorem GateOnly.pinStuck (h : GateOnly s g) : g.pinStuck p v ↔ s.pinStuck p v := by
  rw [State.pinStuck, h.pinOwner p.isLt, h.mapHolds, State.pinStuck]

omit hr in
theorem writePinOwn_eq (h : s.merged .PIN_OWN [j] .full v ≠ s.reg .PIN_OWN [j]) [Decidable (s.pinStuck j (s.merged .PIN_OWN [j] .full v))] :
    s.writePinOwn j .full v = if s.pinStuck j (s.merged .PIN_OWN [j] .full v) then (.bankNotOwned, s)
      else (.ok, ((s.setReg .PIN_OWN [j] (s.merged .PIN_OWN [j] .full v)).setPinFunc j
        (b2n (fieldIn F.PIN_OWN.KIND (s.merged .PIN_OWN [j] .full v) == 0 && s.persona_ != 1 && bit (pinEntry s.persona.pinActive j) 63))
          0).checkConflicts) := by
  have hstuck : (s.pinOwner j = 0 && fieldIn F.PIN_OWN.KIND (s.merged .PIN_OWN [j] .full v) != 0 && s.mapHolds j) = true ↔
      s.pinStuck j (s.merged .PIN_OWN [j] .full v) := by
    simp [State.pinStuck, and_assoc]
  rw [State.writePinOwn]
  dsimp only
  rw [if_neg h]
  exact if_congr hstuck rfl rfl

theorem exec_pinOwn_stuck (h : s.pinStuck p (s.merged .PIN_OWN [p.val] .full v)) :
    RefusesWrite (.pinOwn rq p v) s rq .PIN_OWN [p.val] .bankNotOwned := by
  classical
  refine pinReg_refuses (by decide) pinReg_valid.1 hr rfl (fun _ => rfl) (fun g hg => ?_) (by decide) (by decide)
  have hmerged := hg.merged (v := v) (pinReg_valid (p := p)).1 (by decide)
  have hne : g.merged .PIN_OWN [p.val] .full v ≠ g.reg .PIN_OWN [p.val] := fun he => by
    obtain ⟨howner, hkind, -⟩ := h
    rw [hmerged, hg.reg _ _ pinReg_valid.1 (by decide)] at he
    exact hkind (by rw [he]; exact howner)
  refine (writePinOwn_eq hne).trans (if_pos ?_)
  rw [hmerged, hg.pinStuck]
  exact h

theorem exec_pinOwn (hn : s.merged .PIN_OWN [p.val] .full v ≠ s.reg .PIN_OWN [p.val])
    (h : ¬s.pinStuck p (s.merged .PIN_OWN [p.val] .full v)) : WritesRecorded (.pinOwn rq p v) s rq .PIN_OWN [p.val] fun g =>
      ((g.setReg .PIN_OWN [p.val] (s.merged .PIN_OWN [p.val] .full v)).setPinFunc p
        (b2n (fieldIn F.PIN_OWN.KIND (s.merged .PIN_OWN [p.val] .full v) == 0 && s.persona_ != 1 &&
          bit (pinEntry s.persona.pinActive p) 63)) 0).checkConflicts := by
  classical
  refine pinReg_writesRecorded (by decide) pinReg_valid.1 hr rfl (fun _ => rfl) (fun _ _ => rfl) fun g hg => ?_
  have hmerged := hg.merged (v := v) (pinReg_valid (p := p)).1 (by decide)
  have hne : g.merged .PIN_OWN [p.val] .full v ≠ g.reg .PIN_OWN [p.val] := by
    rwa [hmerged, hg.reg _ _ pinReg_valid.1 (by decide)]
  refine (writePinOwn_eq hne).trans ((if_neg ?_).trans ?_)
  · rwa [hmerged, hg.pinStuck]
  · rw [hmerged, hg.persona.1, hg.persona.2]

end

section
variable (hr : Reaches s rq role (RegName.PIN_CFG.addr [p.val]))
include hr

omit hr in
theorem pinMerged_pull : fieldIn F.PIN_CFG.PULL (s.merged .PIN_CFG [j] .full v) = bitsOf v 10 9 :=
  fieldIn_mergeWrite_stored (g := F.PIN_CFG.PULL) (by decide) (by decide)

/-- The installer sets up a pin of the design. -/
def State.pinDesign (s : State) (p : Nat) (role : Role) : Prop := s.pinOwner p = 0 ∧ role = .installer

omit hr in
theorem writePinCfg_eq [Decidable (s.pinDesign j role)] : s.writePinCfg rq role j .full v =
    if s.pinDesign j role then
      if bitsOf v 10 9 = 3 then (.decodeError, s)
      else (.ok, s.setReg .PIN_CFG [j] (setBits (s.merged .PIN_CFG [j] .full v) 7 0 (s.pinSet j)))
    else if s.ownsPin rq j then
      if pinCfgBad (s.merged .PIN_CFG [j] .full v) then (.decodeError, s)
      else (.ok, if bitsOf (s.merged .PIN_CFG [j] .full v) 7 0 = s.pinSet j then s.setReg .PIN_CFG [j] (s.merged .PIN_CFG [j] .full v)
        else (s.setReg .PIN_CFG [j] (s.merged .PIN_CFG [j] .full v)).switchPin j)
    else (.bankNotOwned, s) := by
  have hset : (s.setReg .PIN_CFG [j] (s.merged .PIN_CFG [j] .full v)).pinSet j = bitsOf (s.merged .PIN_CFG [j] .full v) 7 0 := by
    rw [State.pinSet, State.reg_setReg]
  rw [State.writePinCfg]
  dsimp only
  rw [pinMerged_pull, hset]
  exact if_congr Iff.rfl rfl rfl

omit hr in
theorem pinCfg_right (g : State) : g.writeRight role .PIN_CFG [j] .full v = true := rfl

omit hr in
theorem GateOnly.pinDesign (h : GateOnly s g) : g.pinDesign p role ↔ s.pinDesign p role := by
  rw [State.pinDesign, h.pinOwner p.isLt, State.pinDesign]

omit hr in
theorem GateOnly.pinMerged (h : GateOnly s g) : g.merged .PIN_CFG [p.val] .full v = s.merged .PIN_CFG [p.val] .full v :=
  h.merged pinReg_valid.2 (by decide)

omit hr in
theorem ownsPin_owner (h : s.ownsPin rq j = true) : s.pinOwner j ≠ 0 := fun h0 => by simp [State.ownsPin, h0] at h

theorem exec_pinCfg_pull (h : s.pinDesign p role) (hp : bitsOf v 10 9 = 3) :
    RefusesWrite (.pinCfg rq p v) s rq .PIN_CFG [p.val] .decodeError := by
  classical
  exact pinReg_refuses (by decide) pinReg_valid.2 hr rfl pinCfg_right
    (fun g hg => writePinCfg_eq.trans ((if_pos (hg.pinDesign.mpr h)).trans (if_pos hp))) (by decide) (by decide)

theorem exec_pinCfg_design (h : s.pinDesign p role) (hp : bitsOf v 10 9 ≠ 3) :
    WritesRecorded (.pinCfg rq p v) s rq .PIN_CFG [p.val] fun g =>
      g.setReg .PIN_CFG [p.val] (setBits (s.merged .PIN_CFG [p.val] .full v) 7 0 (s.pinSet p)) := by
  classical
  refine pinReg_writesRecorded (by decide) pinReg_valid.2 hr rfl pinCfg_right (fun g hg => ?_) fun g hg =>
    writePinCfg_eq.trans ((if_pos (hg.pinDesign.mpr h)).trans ((if_neg hp).trans ?_))
  · show (g.pinOwner p == 0) = true
    rw [hg.pinOwner p.isLt, h.1]
    rfl
  · show (Resp.ok, g.setReg .PIN_CFG [p.val] (setBits (g.merged .PIN_CFG [p.val] .full v) 7 0 (g.pinSet p))) = _
    rw [hg.pinMerged, hg.pinSet]

theorem exec_pinCfg_bad (h : ¬s.pinDesign p role) (ho : s.ownsPin rq p = true) (hb : pinCfgBad (s.merged .PIN_CFG [p.val] .full v) = true) :
    RefusesWrite (.pinCfg rq p v) s rq .PIN_CFG [p.val] .decodeError := by
  classical
  refine pinReg_refuses (by decide) pinReg_valid.2 hr rfl pinCfg_right (fun g hg => writePinCfg_eq.trans
    ((if_neg fun hd => h (hg.pinDesign.mp hd)).trans ((if_pos ?_).trans (if_pos ?_)))) (by decide) (by decide)
  · rw [← ho]
    exact hg.ownsPin p.isLt
  · exact (congrArg pinCfgBad hg.pinMerged).trans hb

theorem exec_pinCfg_owner (h : ¬s.pinDesign p role) (ho : s.ownsPin rq p = true)
    (hb : pinCfgBad (s.merged .PIN_CFG [p.val] .full v) = false) : Writes (.pinCfg rq p v) s rq .PIN_CFG [p.val] fun g =>
      if bitsOf (s.merged .PIN_CFG [p.val] .full v) 7 0 = s.pinSet p then g.setReg .PIN_CFG [p.val] (s.merged .PIN_CFG [p.val] .full v)
      else (g.setReg .PIN_CFG [p.val] (s.merged .PIN_CFG [p.val] .full v)).switchPin p := by
  classical
  refine pinReg_writes (by decide) pinReg_valid.2 hr rfl pinCfg_right (fun g hg => ?_) fun g hg => writePinCfg_eq.trans
    ((if_neg fun hd => h (hg.pinDesign.mp hd)).trans ((if_pos ((hg.ownsPin p.isLt).trans ho)).trans ((if_neg ?_).trans ?_)))
  · show (g.pinOwner p == 0) = false
    rw [hg.pinOwner p.isLt, beq_eq_false_iff_ne]
    exact ownsPin_owner ho
  · exact Bool.eq_false_iff.mp ((congrArg pinCfgBad hg.pinMerged).trans hb)
  · show (Resp.ok, if bitsOf (g.merged .PIN_CFG [p.val] .full v) 7 0 = g.pinSet p then g.setReg .PIN_CFG [p.val]
      (g.merged .PIN_CFG [p.val] .full v) else (g.setReg .PIN_CFG [p.val] (g.merged .PIN_CFG [p.val] .full v)).switchPin p) = _
    rw [hg.pinMerged, hg.pinSet]

theorem exec_pinCfg_other (h : ¬s.pinDesign p role) (ho : s.ownsPin rq p = false) :
    RefusesWrite (.pinCfg rq p v) s rq .PIN_CFG [p.val] .bankNotOwned := by
  classical
  refine pinReg_refuses (by decide) pinReg_valid.2 hr rfl pinCfg_right (fun g hg => writePinCfg_eq.trans
    ((if_neg fun hd => h (hg.pinDesign.mp hd)).trans (if_neg ?_))) (by decide) (by decide)
  exact Bool.eq_false_iff.mp ((hg.ownsPin p.isLt).trans ho)

end

/-! ### GPIO, DOUT and forced releases -/

/-- A change of GPIO_OUT, confined to the bits that the requester may change. -/
theorem gpio_writes {change : W64 → W64} (hm : r ∈ [RegName.GPIO_SET, .GPIO_CLR, .GPIO_TGL])
    (hr : Reaches s rq role (r.addr [i.val])) (hc : exec c s = .next (s.busReg rq r [i.val] v))
    (he : ∀ g : State, g.writePinReg rq role r [i.val] .full v = g.writeGpio rq .GPIO_OUT i change) :
    Writes c s rq r [i.val] fun g => g.setReg .GPIO_OUT [i.val]
      ((s.reg .GPIO_OUT [i.val] &&& ~~~s.gpioMask rq i) ||| (change (s.reg .GPIO_OUT [i.val]) &&& s.gpioMask rq i)) := by
  obtain ⟨hset, hclr, htgl, hout, -⟩ := gpio_valid (i := i)
  have hpin : r ∈ pinRegs := by fin_cases hm <;> decide
  have hv : r.valid [i.val] = true := by fin_cases hm <;> assumption
  have hplain : ∀ g : State, g.writeRight role r [i.val] .full v = true ∧ g.writeRecorded r [i.val] .full v = false := fun g => by
    fin_cases hm <;> exact ⟨rfl, rfl⟩
  refine pinReg_writes hpin hv hr hc (fun g => (hplain g).1) (fun g _ => (hplain g).2) fun g hg => (he g).trans ?_
  rw [State.writeGpio, hg.gpioMask, hg.reg _ _ hout (by decide)]

/-- The bits of the mask set, cleared or turned. -/
theorem masked_or {x : W64} : (x &&& ~~~m) ||| ((x ||| v) &&& m) = x ||| (v &&& m) := by
  ext i hi
  simp only [BitVec.getElem_or, BitVec.getElem_and, BitVec.getElem_not]
  cases x[i] <;> cases m[i] <;> simp

theorem masked_clear {x : W64} : (x &&& ~~~m) ||| ((x &&& ~~~v) &&& m) = x &&& ~~~(v &&& m) := by
  ext i hi
  simp only [BitVec.getElem_or, BitVec.getElem_and, BitVec.getElem_not]
  cases x[i] <;> cases m[i] <;> simp

theorem masked_xor {x : W64} : (x &&& ~~~m) ||| ((x ^^^ v) &&& m) = x ^^^ (v &&& m) := by
  ext i hi
  simp only [BitVec.getElem_or, BitVec.getElem_and, BitVec.getElem_not, BitVec.getElem_xor]
  cases x[i] <;> cases m[i] <;> simp

theorem exec_gpioSet (hr : Reaches s rq role (RegName.GPIO_SET.addr [i.val])) : Writes (.gpioSet rq i v) s rq .GPIO_SET [i.val] fun g =>
    g.setReg .GPIO_OUT [i.val] (s.reg .GPIO_OUT [i.val] ||| (v &&& s.gpioMask rq i)) := by
  have hw := gpio_writes (r := .GPIO_SET) (c := .gpioSet rq i v) (v := v) (change := fun old => old ||| v) (by decide) hr rfl fun g => by
    show g.writeGpio rq .GPIO_OUT i (fun old => old ||| (Half.part .full v)) = _
    rw [Half.part_full]
  rwa [masked_or] at hw

theorem exec_gpioClr (hr : Reaches s rq role (RegName.GPIO_CLR.addr [i.val])) : Writes (.gpioClr rq i v) s rq .GPIO_CLR [i.val] fun g =>
    g.setReg .GPIO_OUT [i.val] (s.reg .GPIO_OUT [i.val] &&& ~~~(v &&& s.gpioMask rq i)) := by
  have hw := gpio_writes (r := .GPIO_CLR) (c := .gpioClr rq i v) (v := v) (change := fun old => old &&& ~~~v) (by decide) hr rfl fun g => by
    show g.writeGpio rq .GPIO_OUT i (fun old => old &&& ~~~(Half.part .full v)) = _
    rw [Half.part_full]
  rwa [masked_clear] at hw

theorem exec_gpioTgl (hr : Reaches s rq role (RegName.GPIO_TGL.addr [i.val])) : Writes (.gpioTgl rq i v) s rq .GPIO_TGL [i.val] fun g =>
    g.setReg .GPIO_OUT [i.val] (s.reg .GPIO_OUT [i.val] ^^^ (v &&& s.gpioMask rq i)) := by
  have hw := gpio_writes (r := .GPIO_TGL) (c := .gpioTgl rq i v) (v := v) (change := fun old => old ^^^ v) (by decide) hr rfl fun g => by
    show g.writeGpio rq .GPIO_OUT i (fun old => old ^^^ (Half.part .full v)) = _
    rw [Half.part_full]
  rwa [masked_xor] at hw

theorem store_dout : s.store .DOUT [j] .full v = s.setReg .DOUT [j] v := by
  have hmask : ∀ i < 64, (RegName.DOUT.mask [.rw]).testBit i = true ∧ (RegName.DOUT.mask [.w1c]).testBit i = false := by decide
  rw [State.store, State.merged]
  congr 1
  refine BitVec.eq_of_getLsbD_eq fun i hi => ?_
  rw [getLsbD_mergeWrite hi, (hmask i hi).1, (hmask i hi).2]
  simp

section
variable (hr : Reaches s rq role (RegName.DOUT.addr [i.val]))
include hr

theorem exec_dout_running (h : s.lapsRun = true) : RefusesWrite (.dout rq i v) s rq .DOUT [i.val] .bankNotOwned :=
  pinReg_refuses (by decide) gpio_valid.2.2.2.2 hr rfl (fun _ => rfl)
    (fun g hg => if_pos (show g.lapsRun = true by rw [hg.rest]; exact h)) (by decide) (by decide)

theorem exec_dout_halted (h : s.lapsRun = false) :
    Writes (.dout rq i v) s rq .DOUT [i.val] fun g => (g.setReg .DOUT [i.val] v).rearmAll := by
  refine pinReg_writes (by decide) gpio_valid.2.2.2.2 hr rfl (fun _ => rfl) (fun _ _ => rfl) fun g hg => (if_neg ?_).trans ?_
  · rw [hg.rest]
    exact Bool.eq_false_iff.mp h
  · exact congrArg (fun u : State => (Resp.ok, u.rearmAll)) store_dout

end

theorem exec_forceRelease (hr : Reaches s rq role (RegName.RU_CTRL.addr [k.val])) :
    Writes (.forceRelease rq k) s rq .RU_CTRL [k.val] fun g =>
      (((g.setReg .RU_CTRL [k.val] (g.reg .RU_CTRL [k.val])).put F.RU_STAT.HELD 0 [k.val]).put F.RU_STAT.ARMED 0 [k.val]).rearm k := by
  refine pinReg_writes (by decide) ruReg_valid.1 hr rfl (fun _ => rfl) (fun _ _ => rfl) fun g hg => ?_
  have hword : s.withSet F.RU_CTRL.FORCE_RELEASE [k.val] = g.withSet F.RU_CTRL.FORCE_RELEASE [k.val] :=
    hg.withSet (g := F.RU_CTRL.FORCE_RELEASE) ruReg_valid.1 (by decide)
  show g.writeRuCtrl k .full (s.withSet F.RU_CTRL.FORCE_RELEASE [k.val]) = _
  rw [hword, State.writeRuCtrl, State.wrote_withSet (by decide) (by decide)]
  exact congrArg (fun u : State => (Resp.ok, (u.release k).rearm k))
    (State.store_withSet (f := F.RU_CTRL.FORCE_RELEASE) (by decide) (by decide))

/-! ### Parks -/

theorem pinParked_filter {l : List (Nat × W64)} : (l.filter fun y => y.1 != j).any (fun y => y.1 == j) = false := by
  rw [List.any_eq_false]
  intro y hy
  simpa using (List.mem_filter.mp hy).2

theorem pinParked_filter_ne {l : List (Nat × W64)} {q : Nat} (h : q ≠ j) :
    (l.filter fun y => y.1 != j).any (fun y => y.1 == q) = l.any fun y => y.1 == q := by
  rw [List.any_filter]
  congr 1
  funext y
  by_cases hy : y.1 = q
  · simp [hy, h]
  · simp [hy]

theorem exec_parkEnd {x : Nat × W64} (hx : s.parked.find? (fun y => y.1 == p.val) = some x) (hb : s.bankRuns (bankOfPin p) = true) :
    Completes id (.parkEnd p) s fun u =>
      u.pinParked p = false ∧ Sparse.read u.pinNow p = x.2 ∧ u.flag F.PIN_CFG.PARKED [p.val] = false ∧ Keeps s u [.PIN_CFG] ∧
        ∀ q : Pin, q ≠ p → u.pinParked q = s.pinParked q ∧ u.reg .PIN_CFG [q.val] = s.reg .PIN_CFG [q.val] := by
  let v : State := { s with parked := s.parked.filter (fun j => j.1 != p.val), pinNow := Sparse.write s.pinNow p.val x.2 }
  have hend : exec (.parkEnd p) s = .next (v.put F.PIN_CFG.PARKED 0 [p.val]) := by
    rw [exec, execParkEnd, hx]
    dsimp only
    rw [hb]
    rfl
  refine ⟨v.put F.PIN_CFG.PARKED 0 [p.val], hend, pinParked_filter, Sparse.read_write_self, ?_, ?_, fun q hq => ⟨?_, ?_⟩⟩
  · rw [State.flag, State.fld_put (by decide) (by decide)]
    rfl
  · exact Keeps.trans (t := v) (.of_regs rfl rfl rfl) (.put (by decide) pinReg_valid.2)
  · exact pinParked_filter_ne fun he => hq (Fin.ext he)
  · exact State.reg_put_ix (f := F.PIN_CFG.PARKED) (by simpa [Fin.ext_iff] using Ne.symm hq) pinReg_valid.2 pinReg_valid.2

/-! ### Pattern-match and reaction units -/

theorem pmu_valid : RegName.PMU_CTRL.valid [n.val] = true ∧ RegName.PMU_STAT.valid [n.val] = true := by
  simp [RegName.valid, RegName.place, ixValid]

theorem ru_valid (h : j < 16) : RegName.RU_CTRL.valid [j] = true ∧ RegName.RU_STAT.valid [j] = true := by
  simp [RegName.valid, RegName.place, ixValid, h]

section
variable {rs : List RegName} (h : KeepsRegs s t rs)
include h

theorem KeepsRegs.fld {f : Fld} {ix : List Nat} (hi : f.reg.valid ix = true) (hr : f.reg ∉ rs) : t.fld f ix = s.fld f ix := by
  rw [State.fld, h _ _ hi hr, State.fld]

theorem KeepsRegs.flag {f : Fld} {ix : List Nat} (hi : f.reg.valid ix = true) (hr : f.reg ∉ rs) : t.flag f ix = s.flag f ix := by
  rw [State.flag, h.fld hi hr, State.flag]

theorem KeepsRegs.bankLive (hj : j < 4) (hr : ∀ r ∈ [RegName.PD_STAT, .CLKGATE_MODE, .GATE], r ∉ rs) : t.bankLive j = s.bankLive j := by
  have hpd : t.pd (pdBank j) = s.pd (pdBank j) := h.fld (by
    simp [RegName.valid, RegName.place, ixValid, F.PD_STAT.NOW, pdBank]
    omega) (hr _ (by decide))
  have hgate : t.gateShut j 10 = s.gateShut j 10 := by
    rw [State.gateShut, h.flag (by decide) (hr _ (by decide)),
      h.flag (f := F.GATE.OPEN) (by simp [RegName.valid, RegName.place, ixValid, F.GATE.OPEN, hj]) (hr _ (by decide)), State.gateShut]
  rw [State.bankLive, hpd, hgate, State.bankLive]

end

theorem ruBank_lt (hj : j < 16) : ruBank j < 4 := by
  unfold ruBank
  omega

/-- Unit `j` sets when pattern-match unit `a` matches, if it has not set. -/
structure Reacts (s : State) (a j : Nat) : Prop where
  pmu : s.fld F.RU_CTRL.PMU [j] = a
  en : s.flag F.RU_CTRL.EN [j] = true
  armed : s.flag F.RU_STAT.ARMED [j] = true
  live : s.bankLive (ruBank j) = true
  gsr : s.gsr = false

theorem Reacts.keeps {rs : List RegName} {a : Nat} (h : Reacts s a k) (hk : KeepsRegs s t rs)
    (hr : ∀ r ∈ [RegName.PD_STAT, .CLKGATE_MODE, .GATE, .RU_CTRL, .LOAD_STAT], r ∉ rs)
    (ha : t.flag F.RU_STAT.ARMED [k.val] = s.flag F.RU_STAT.ARMED [k.val]) : Reacts t a k :=
  ⟨(hk.fld ruReg_valid.1 (hr _ (by decide))).trans h.pmu, (hk.flag ruReg_valid.1 (hr _ (by decide))).trans h.en, ha.trans h.armed,
    (hk.bankLive (ruBank_lt k.isLt) fun r hm => hr r (by revert hm; simp; tauto)).trans h.live,
    (hk.flag (by decide) (hr _ (by decide))).trans h.gsr⟩

/-- What the unit `j` does. -/
def State.reactStep (s : State) (n j : Nat) : State :=
  if s.fld F.RU_CTRL.PMU [j] = n ∧ s.flag F.RU_CTRL.EN [j] ∧ s.flag F.RU_STAT.ARMED [j] ∧ !s.flag F.RU_STAT.HELD [j] ∧
      s.bankLive (ruBank j) ∧ !s.gsr then
    (s.put F.RU_STAT.HELD 1 [j]).count F.RU_STAT.SETS [j]
  else s

theorem reactTo_eq : s.reactTo j = (List.range 16).foldl (fun s k => s.reactStep j k) s := rfl

theorem reactStep_keeps {a b : Nat} (hb : b < 16) : Keeps s (s.reactStep a b) [.RU_STAT] := by
  unfold State.reactStep
  split
  · exact (Keeps.put (by decide) (ru_valid hb).2).trans (.put (by decide) (ru_valid hb).2)
  · exact .refl

theorem reactStep_apart {a b : Nat} (hb : b < 16) : KeepsRegs s (s.reactStep a b) [.RU_STAT] := by
  unfold State.reactStep
  split
  · exact (KeepsRegs.put (by decide) (ru_valid hb).2).trans (.count (by decide) (ru_valid hb).2)
  · exact .refl

/-- A unit's reaction leaves every ARMED flag, and takes no HELD flag back. -/
theorem reactStep_armed {a b : Nat} (hb : b < 16) : (s.reactStep a b).flag F.RU_STAT.ARMED [k.val] = s.flag F.RU_STAT.ARMED [k.val] := by
  unfold State.reactStep
  split
  · rw [State.flag, State.count, State.fld_put_apart (by decide) (by decide) (by decide) (ru_valid hb).2 ruReg_valid.2,
      State.fld_put_apart (by decide) (by decide) (by decide) (ru_valid hb).2 ruReg_valid.2, State.flag]
  · rfl

theorem reactStep_held {a b : Nat} (hb : b < 16) (h : s.flag F.RU_STAT.HELD [k.val] = true) :
    (s.reactStep a b).flag F.RU_STAT.HELD [k.val] = true := by
  unfold State.reactStep
  split
  · rw [State.flag, State.count, State.fld_put_apart (by decide) (by decide) (by decide) (ru_valid hb).2 ruReg_valid.2]
    by_cases hk : k.val = b
    · subst hk
      exact State.flag_put_one (by decide) (by decide)
    · rw [State.fld_put_ix (f := F.RU_STAT.HELD) rfl (by simpa using Ne.symm hk) (ru_valid hb).2 ruReg_valid.2]
      exact h
  · exact h

theorem reactStep_sets {a : Nat} (h : Reacts s a k) : (s.reactStep a k).flag F.RU_STAT.HELD [k.val] = true := by
  obtain ⟨hpmu, hen, harmed, hlive, hgsr⟩ := h
  unfold State.reactStep
  cases hheld : s.flag F.RU_STAT.HELD [k.val] with
  | true =>
    rw [if_neg (by simp), hheld]
  | false =>
    rw [if_pos (by simp [hpmu, hen, harmed, hlive, hgsr]), State.flag, State.count,
      State.fld_put_apart (by decide) (by decide) (by decide) ruReg_valid.2 ruReg_valid.2]
    exact State.flag_put_one (by decide) (by decide)

/-- A unit that reacts has set once every unit has had its turn. -/
theorem reactTo_held {a : Nat} (h : Reacts s a k) : (s.reactTo a).flag F.RU_STAT.HELD [k.val] = true := by
  rw [reactTo_eq]
  exact foldl_establishes (P := fun u => u.flag F.RU_STAT.HELD [k.val] = true) (Q := fun u => Reacts u a k) (x := k.val) _
    (List.mem_range.mpr k.isLt)
    (fun u b hb hu => hu.keeps (reactStep_apart (List.mem_range.mp hb)) (by decide) (reactStep_armed (List.mem_range.mp hb)))
    (fun u b hb _ hh => reactStep_held (List.mem_range.mp hb) hh) (fun u hu => reactStep_sets hu) h

theorem reactTo_keeps {a : Nat} : KeepsRegs s (s.reactTo a) [.RU_STAT] := by
  rw [reactTo_eq]
  exact .foldl_mem _ fun _ _ hb => reactStep_apart (List.mem_range.mp hb)

theorem reactTo_rest {a : Nat} : ∃ m, s.reactTo a = { s with regs := m } := by
  rw [reactTo_eq]
  generalize List.range 16 = l
  induction l generalizing s with
  | nil => exact ⟨s.regs, rfl⟩
  | cons b l ih =>
    have hstep : ∃ m, s.reactStep a b = { s with regs := m } := by
      unfold State.reactStep
      split <;> exact ⟨_, rfl⟩
    obtain ⟨m, hm⟩ := hstep
    obtain ⟨m', hm'⟩ := ih (s := s.reactStep a b)
    exact ⟨m', by rw [List.foldl_cons, hm', hm]⟩

/-- The unit's match, held and counted. -/
def State.matched (s : State) (n : Nat) : State :=
  ((s.put F.PMU_CTRL.MATCH 1 [n]).put F.PMU_STAT.HELD 1 [n]).count F.PMU_STAT.MATCHES [n]

theorem matched_keeps : KeepsRegs s (s.matched n) [.PMU_CTRL, .PMU_STAT] :=
  ((KeepsRegs.put (by decide) pmu_valid.1).trans (.put (by decide) pmu_valid.2)).trans (.count (by decide) pmu_valid.2)

theorem matched_flags : (s.matched n).flag F.PMU_CTRL.MATCH [n.val] = true ∧ (s.matched n).flag F.PMU_STAT.HELD [n.val] = true := by
  obtain ⟨hctrl, hstat⟩ := pmu_valid (n := n)
  refine ⟨?_, ?_⟩
  · rw [State.matched, State.flag, State.count, State.fld_put_apart (by decide) (by decide) (by decide) hstat hctrl,
      State.fld_put_apart (by decide) (by decide) (by decide) hstat hctrl]
    exact State.flag_put_one (by decide) (by decide)
  · rw [State.matched, State.flag, State.count, State.fld_put_apart (by decide) (by decide) (by decide) hstat hstat]
    exact State.flag_put_one (by decide) (by decide)

section
variable (hl : s.bankLive (pmuBank n) = true)
include hl

theorem exec_patternMatch (hm : s.patternMatches n (bit pads) = true) (hw : s.flag F.PMU_CTRL.MATCH [n.val] = false) :
    Completes id (.patternMatch n pads) s fun u =>
      u.pads = pads ∧ u.flag F.PMU_CTRL.MATCH [n.val] = true ∧ u.flag F.PMU_STAT.HELD [n.val] = true ∧
        (∀ x : Fin 16, s.fld F.RU_CTRL.PMU [x.val] = n → s.flag F.RU_CTRL.EN [x.val] = true →
          s.flag F.RU_STAT.ARMED [x.val] = true → s.bankLive (ruBank x) = true → s.gsr = false →
          u.flag F.RU_STAT.HELD [x.val] = true) ∧ Keeps s u [.PMU_CTRL, .PMU_STAT, .RU_STAT] := by
  let now : State := { s with pads := pads }
  have hend : exec (.patternMatch n pads) s = .next ((now.matched n).reactTo n) :=
    if_pos (show (now.bankLive (pmuBank n) && now.patternMatches n (bit pads) && !now.flag F.PMU_CTRL.MATCH [n.val]) = true by
      rw [show now.bankLive (pmuBank n) = true from hl, show now.patternMatches n (bit pads) = true from hm,
        show now.flag F.PMU_CTRL.MATCH [n.val] = false from hw]
      rfl)
  have hreact := reactTo_keeps (s := now.matched n) (a := n)
  obtain ⟨hmatch, hheld⟩ := matched_flags (s := now) (n := n)
  have hkeeps : KeepsRegs s (now.matched n) [.PMU_CTRL, .PMU_STAT] := KeepsRegs.trans (t := now) (.of_regs rfl) matched_keeps
  obtain ⟨m, hrest⟩ := reactTo_rest (s := now.matched n) (a := n)
  refine ⟨(now.matched n).reactTo n, hend, ?_, ?_, ?_, fun x hpmu hen harmed hlive hgsr => ?_, fun r ix hv hr _ => ?_, ?_, ?_⟩
  · rw [hrest]
    rfl
  · rw [hreact.flag pmu_valid.1 (by decide), hmatch]
  · rw [hreact.flag pmu_valid.2 (by decide), hheld]
  · exact reactTo_held (Reacts.keeps ⟨hpmu, hen, harmed, hlive, hgsr⟩ hkeeps (by decide) (hkeeps.flag ruReg_valid.2 (by decide)))
  · rw [hreact r ix hv (by simp_all), hkeeps r ix hv (by simp_all)]
  · rw [hrest]
    rfl
  · rw [hrest]
    rfl

theorem exec_matchEnd (hm : s.patternMatches n (bit pads) = false) (hw : s.flag F.PMU_CTRL.MATCH [n.val] = true) :
    exec (.matchEnd n pads) s = .next (({ s with pads := pads } : State).put F.PMU_CTRL.MATCH 0 [n.val]).rearmAll :=
  if_pos (show (s.bankLive (pmuBank n) && !s.patternMatches n (bit pads) && s.flag F.PMU_CTRL.MATCH [n.val]) = true by
    rw [hl, hm, hw]
    rfl)

end

theorem exec_patternMatch_none (h : ¬s.bankLive (pmuBank n) = true ∨ s.patternMatches n (bit pads) = false ∨
    s.flag F.PMU_CTRL.MATCH [n.val] = true) : exec (.patternMatch n pads) s = .next { s with pads := pads } :=
  if_neg (show ¬(s.bankLive (pmuBank n) && s.patternMatches n (bit pads) && !s.flag F.PMU_CTRL.MATCH [n.val]) = true by
    simp only [Bool.and_eq_true, Bool.not_eq_true']
    rintro ⟨⟨hl, hm⟩, hw⟩
    rcases h with h | h | h
    · exact h hl
    · exact Bool.false_ne_true (h.symm.trans hm)
    · exact Bool.false_ne_true (hw.symm.trans h))

theorem exec_matchEnd_none (h : ¬s.bankLive (pmuBank n) = true ∨ s.patternMatches n (bit pads) = true ∨
    s.flag F.PMU_CTRL.MATCH [n.val] = false) : exec (.matchEnd n pads) s = .next { s with pads := pads } :=
  if_neg (show ¬(s.bankLive (pmuBank n) && !s.patternMatches n (bit pads) && s.flag F.PMU_CTRL.MATCH [n.val]) = true by
    simp only [Bool.and_eq_true, Bool.not_eq_true']
    rintro ⟨⟨hl, hm⟩, hw⟩
    rcases h with h | h | h
    · exact h hl
    · exact Bool.false_ne_true (hm.symm.trans h)
    · exact Bool.false_ne_true (h.symm.trans hw))

/-- Settles O36: writes by what the pin's owner may make of them, matches by the turn that each reaction unit has. -/
theorem pinCommands : Obligations.PinCommands := by
  intro s rq role p i k n pads v reaches px own owns toDesign stuck mapped cfg c design m out now live met was
  have hmapped : mapped = b2n (fieldIn F.PIN_OWN.KIND own == 0 && s.persona_ != 1 && bit (pinEntry s.persona.pinActive p) 63) := rfl
  refine ⟨fun hr => ⟨exec_pinOwn_same hr, exec_pinOwn_stuck hr, fun hn hs => ?_⟩, fun hr => ⟨exec_pinCfg_pull hr, exec_pinCfg_design hr,
    exec_pinCfg_bad hr, exec_pinCfg_owner hr, exec_pinCfg_other hr⟩, fun hr => ?_, fun hr => ?_, fun hr => ?_,
    fun hr => ⟨exec_dout_running hr, exec_dout_halted hr⟩, exec_forceRelease, fun x => exec_parkEnd, exec_patternMatch,
    exec_patternMatch_none, exec_matchEnd, exec_matchEnd_none, rfl⟩
  · rw [hmapped]
    exact exec_pinOwn hr hn hs
  · exact exec_gpioSet hr
  · exact exec_gpioClr hr
  · exact exec_gpioTgl hr

end Sys2Proof.Machine
end

section
/-! In-service tests: copy-in and copy-back, splits and their ends, sweeps and rotations (R351 to R369): O37. -/

namespace Sys2Proof.Machine

variable {s t u v : State} {tw : Tower} {g : Fin 8} {w : Fin 262144} {slot : TestSlot} {r : TestRun} {n a reader : Nat}
  {wires : List WireFault} {q : Quad} {o : Option Quad} {e : Eng}

/-! ### Words of a bank under test -/

theorem LogOnly.memRead : LogOnly s (s.memRead a reader).2 := by
  have herror {x : Bool} {i j : Nat} {src : EccSource} : LogOnly s (s.bankError i j a x src reader) := by
    unfold State.bankError
    dsimp only
    split
    · exact LogOnly.put.trans .eccError
    · exact LogOnly.put.trans .eccError
  unfold State.memRead
  dsimp only
  split
  · exact herror
  · split
    · exact herror
    · exact .refl

theorem memRead_copies (h : s.memRead a reader = (o, u)) : u.copies = s.copies := by
  have hcopies : (s.memRead a reader).2.copies = s.copies := by rw [LogOnly.memRead.rest]
  rwa [h] at hcopies

theorem bank_lt : r.bank < 256 := bitsOf_lt ..

/-- The address of a word of the bank names the bank. -/
theorem bankBase_parts {i : Nat} (hi : i < 262144) : memTower (bankBase n r.bank + 16 * i) = n ∧
    memBank (bankBase n r.bank + 16 * i) = r.bank := by
  have hb := bank_lt (r := r)
  unfold memTower memBank bankBase
  omega

theorem copierPut_copies {c : CopyBack} : (s.copierPut c).copies = s.copies := by
  unfold State.copierPut
  dsimp only
  split <;> rfl

theorem listDrop_eq {xs : List Nat} {x : Nat} : listDrop xs x = xs.filter (· ≠ x) := by
  unfold listDrop
  congr 1
  funext y
  by_cases h : y = x <;> simp [h]

/-! ### Copy-in -/

section
variable (hg : s.groupTest tw g = some r) (ht : r.tower = tw) (hc : r.copied = w.val) (hs : s.quadServes tw r.bank = true)
include hg ht hc hs

omit ht in
theorem exec_copyIn (hp : s.phaseOf r = 1) : exec (.copyIn tw g w) s = .next (s.copyInWord r w).settle := by
  rw [exec, execCopyIn, hg]
  exact if_pos ⟨hp, hc, hs⟩

end

/-- The word's place in the stand-in once the word has been read. -/
theorem copyInWord_good (h : s.memRead (bankBase r.tower r.bank + 16 * n) readerCopier = (some q, u)) :
    s.copyInWord r n = if n + 1 = 262144 then ((u.standinPut (standinKey r.tower r.bank n) q).setTest { r with copied := n + 1 }).setPhase r 2
      else (u.standinPut (standinKey r.tower r.bank n) q).setTest { r with copied := n + 1 } := by
  rw [State.copyInWord, h]

theorem copyInWord_bad (h : s.memRead (bankBase r.tower r.bank + 16 * n) readerCopier = (none, u)) :
    s.copyInWord r n = if n + 1 = 262144 then
        (({ u with standinBad := listAdd u.standinBad (standinKey r.tower r.bank n) } : State).setTest { r with copied := n + 1 }).setPhase r 2
      else ({ u with standinBad := listAdd u.standinBad (standinKey r.tower r.bank n) } : State).setTest { r with copied := n + 1 } := by
  rw [State.copyInWord, h]

/-! ### Copy-back -/

theorem flushCopies_none (h : s.copiesOf n a = []) : s.flushCopies n a = s := by
  have hall : (s.copies.filter fun c => !(memTower c.addr == n && memBank c.addr == a)) = s.copies := by
    rw [List.filter_eq_self]
    intro c hc
    have := List.filter_eq_nil_iff.mp h c hc
    rwa [Bool.not_eq_true', ← Bool.not_eq_true]
  rw [State.flushCopies, h, hall]
  rfl

theorem flushCopies_copiesOf : (s.flushCopies n a).copiesOf n a = [] := by
  rw [State.copiesOf, List.filter_eq_nil_iff]
  intro c hc
  have := (List.mem_filter.mp hc).2
  rwa [Bool.not_eq_true', ← Bool.not_eq_true] at this

section
variable (hg : s.groupTest tw g = some r) (ht : r.tower = tw) (hs : s.quadServes tw r.bank = true) (hp : s.phaseOf r = 3)
include hg ht hs hp

omit ht in
theorem exec_copyBack {writes : CopyWrite} (hc : r.copied = w.val ∨ (r.copied = 262144 ∧ w.val = 262143)) :
    exec (.copyBack tw g w writes) s = .next (s.copyBackWord r w writes).settle := by
  rw [exec, execCopyBack, hg]
  exact if_pos ⟨hp, hc, hs⟩

/-- All words are back: the writes still to come are made, and the test ends. -/
theorem exec_copyBack_last {writes : CopyWrite} (hc : r.copied = 262144) (hw : w.val = 262143) :
    exec (.copyBack tw g w writes) s = .next (((s.flushCopies tw r.bank).setPhase r 0).finishTest r r.result).settle := by
  rw [exec_copyBack hg hs hp (.inr ⟨hc, hw⟩), State.copyBackWord]
  subst ht
  dsimp only
  rw [if_pos hc, State.endCopyBack, flushCopies_copiesOf, if_pos ⟨hc, rfl⟩]

variable (hc : r.copied = w.val) (hn : s.copiesOf tw r.bank = []) (hr : s.memRead (bankBase tw r.bank + 16 * w.val) readerCopier = (o, u))
include hc hn hr

/-- The word's write is made at once. -/
theorem exec_copyBack_atOnce : exec (.copyBack tw g w .atOnce) s = .next
    (if w.val = 262143 then
        ((u.copierPut ⟨bankBase tw r.bank + 16 * w.val, o, false⟩).setPhase r 0).finishTest { r with copied := w.val + 1 } r.result
      else (u.copierPut ⟨bankBase tw r.bank + 16 * w.val, o, false⟩).setTest { r with copied := w.val + 1 }).settle := by
  have hcopies : (u.copierPut ⟨bankBase tw r.bank + 16 * w.val, o, false⟩).copiesOf tw r.bank = [] := by
    rw [State.copiesOf, copierPut_copies, memRead_copies hr]
    exact hn
  rw [exec_copyBack hg hs hp (.inl hc), State.copyBackWord]
  subst ht
  dsimp only
  rw [flushCopies_none hn, if_neg (by omega), hr, if_pos rfl, State.endCopyBack]
  dsimp only
  rw [show (CopyWrite.atOnce == CopyWrite.meets) = false from rfl]
  by_cases hw : w.val = 262143
  · rw [if_pos hw, if_pos ⟨by omega, by
      show (State.copiesOf _ r.tower.val r.bank).isEmpty = true
      rw [hcopies]
      rfl⟩]
    rfl
  · rw [if_neg hw, if_neg (by omega)]

/-- The word's write is still to come. -/
theorem exec_copyBack_later {writes : CopyWrite} (hl : writes ≠ .atOnce) : exec (.copyBack tw g w writes) s = .next
    (({ u with copies := u.copies ++ [⟨bankBase tw r.bank + 16 * w.val, o, writes == .meets⟩] } : State).setTest
      { r with copied := w.val + 1 }).settle := by
  rw [exec_copyBack hg hs hp (.inl hc), State.copyBackWord]
  subst ht
  dsimp only
  rw [flushCopies_none hn, if_neg (by omega), hr]
  dsimp only
  rw [if_neg hl, State.endCopyBack, if_neg]
  rintro ⟨-, he⟩
  obtain ⟨hto, hba⟩ := bankBase_parts (n := r.tower.val) (r := r) (i := w.val) w.isLt
  have hmem : (⟨bankBase r.tower r.bank + 16 * w.val, o, writes == .meets⟩ : CopyBack) ∈ State.copiesOf
      { u with copies := u.copies ++ [⟨bankBase r.tower r.bank + 16 * w.val, o, writes == .meets⟩] } r.tower r.bank := by
    refine List.mem_filter.mpr ⟨by simp, ?_⟩
    rw [hto, hba]
    simp
  exact List.ne_nil_of_mem hmem (List.isEmpty_iff.mp he)

end

/-- A word written since is not copied back over. -/
theorem memStore_copies : (s.memStore a q).copies = s.copies.filter fun c => c.addr ≠ a := by
  have hfilter : (s.copies.filter fun c => c.addr != a) = s.copies.filter fun c => c.addr ≠ a := by
    congr 1
    funext c
    by_cases h : c.addr = a <;> simp [h]
  rw [← hfilter]
  unfold State.memStore
  dsimp only
  split <;> split <;> rfl

/-! ### Splits and their ends -/

section
variable (ht : s.testIn tw slot = some r)
include ht

theorem exec_splitStart (hi : r.inSplit = false) (hl : s.testLive tw = true) (hw : s.testWindow r.kind tw = true)
    (hr : s.splitReady r = true) (hb : s.blockRuns r.kind (r.block.setWidth 64) = true) :
    exec (.splitStart tw slot true) s = .next (s.setTest { r with inSplit := true }) := by
  rw [exec, execSplitStart, ht]
  exact if_pos (by rw [hi, hl, hw, hr, hb]; rfl)

variable (hi : r.inSplit = true) (hl : s.testLive tw = true)
include hi hl

theorem exec_splitEnd_budget : exec (.splitEnd tw slot .budget wires) s =
    .next ((s.setTest { r with inSplit := false }).replaceWires tw wires).settleV := by
  rw [exec, execSplitEnd, ht]
  exact if_neg (by rw [hi, hl]; decide)

theorem exec_splitEnd_window : exec (.splitEnd tw slot .window wires) s =
    .next ((s.abandonTest r 5).replaceWires tw wires).settleV := by
  rw [exec, execSplitEnd, ht]
  exact if_neg (by rw [hi, hl]; decide)

theorem exec_splitEnd_last (h : s.testEnds r n = u) : exec (.splitEnd tw slot (.last n) wires) s =
    .next (u.replaceWires tw wires).settleV := by
  rw [exec, execSplitEnd, ht, ← h]
  exact if_neg (by rw [hi, hl]; decide)

end

theorem testEnds_bank (h : r.kind = 0) : s.testEnds r n = s.marchEnds r n := by
  rw [State.testEnds, h]
  rfl

theorem testEnds_standin (h : r.kind = 1) : s.testEnds r n = s.finishTest r (if n = 0 then 1 else 3) := by
  rw [State.testEnds, h]
  rfl

theorem testEnds_tile (h : r.kind = 2) : s.testEnds r n = s.scanEnds r n := by
  rw [State.testEnds, h]
  rfl

theorem testEnds_sensor (h : r.kind = 5) : s.testEnds r n = s.analogEnds r n := by
  rw [State.testEnds, h]
  rfl

/-- Nothing repaired: the count of repairs stands where it stood. -/
theorem repairsSince_self : s.repairsSince n (s.fld F.REPAIR_STAT.TOTAL [n]) = 0 := Nat.sub_self _

theorem scanEnds_good : s.scanEnds r 0 = s.finishTest { r with repairs := 0 } 1 := by
  unfold State.scanEnds
  generalize hk : min 0 544 = k
  obtain rfl : k = 0 := by omega
  exact congrArg (fun k => s.finishTest { r with repairs := k } 1) repairsSince_self

theorem fld_setRef {x : Referee} {f : Fld} {ix : List Nat} : ({ s with ref := x } : State).fld f ix = s.fld f ix := rfl

/-- The end of an analogue test whose registers stand as they were. -/
theorem analogEnds_same (hf : (if n = 0 then s else s.analogFails r n) = s) (hm : (if r.kind = 5 then s.markSensors r n else s) = u)
    (hu : u.fld F.REPAIR_STAT.TOTAL [r.tower.val] = s.fld F.REPAIR_STAT.TOTAL [r.tower.val]) :
    s.analogEnds r n = u.finishTest { r with repairs := 0 } (if n = 0 then 1 else 3) := by
  have hends (x : State) (hx : (if n = 0 then s else s.analogFails r n) = x) (y : State)
      (hy : (if r.kind = 5 then x.markSensors r n else x) = y) : s.analogEnds r n =
        y.finishTest { r with repairs := y.repairsSince r.tower.val (s.fld F.REPAIR_STAT.TOTAL [r.tower.val]) }
          (if n = 0 then 1 else 3) := by
    subst hy hx
    rfl
  rw [hends s hf u hm, ← hu, repairsSince_self]

theorem markSensors_fld {m : Nat} {f : Fld} {ix : List Nat} : (s.markSensors r m).fld f ix = s.fld f ix := by
  unfold State.markSensors
  exact fld_setRef

theorem sensorsEnd_good (h : r.kind = 5) : s.analogEnds r 0 = (s.markSensors r 0).finishTest { r with repairs := 0 } 1 :=
  (analogEnds_same (if_pos rfl) (if_pos h) markSensors_fld).trans (congrArg (State.finishTest _ _) (if_pos rfl))

/-! ### The end of a test -/

theorem splitResult_valid (h : r.kind < 8) : RegName.SPLIT_RESULT.valid [r.tower.val, r.kind] = true := by
  simp [RegName.valid, RegName.place, ixValid, h]

theorem putResult_result {b : BitVec 32} {o : Option Eng} {k : Nat} (hn : n < 256) :
    (s.putResult r.tower.val r.kind b o k n).fld F.SPLIT_RESULT.RESULT [r.tower.val, r.kind] = n := by
  rw [State.putResult, State.fld_put (by decide) (by decide)]
  exact Nat.mod_eq_of_lt hn

theorem putResult_keeps {b : BitVec 32} {o : Option Eng} {k : Nat} (hk : r.kind < 8) : Keeps s (s.putResult r.tower.val r.kind b o k n) [.SPLIT_RESULT] :=
  have hv := splitResult_valid hk
  (((Keeps.put (by decide) hv).trans (.put (by decide) hv)).trans (.put (by decide) hv)).trans (.put (by decide) hv)

theorem putResult_tests {b : BitVec 32} {o : Option Eng} {i j k : Nat} : (s.putResult i j b o k n).tests = s.tests := rfl

/-- The test is no longer among those that run. -/
def State.withoutTest (s : State) (r : TestRun) : State :=
  { s with tests := s.tests.filter fun q => !(q.tower == r.tower && q.slot == r.slot) }

theorem withoutTest_none : (s.withoutTest r).tests.find? (fun q => q.tower == r.tower && q.slot == r.slot) = none := by
  rw [State.withoutTest, List.find?_eq_none]
  intro x hx
  have := (List.mem_filter.mp hx).2
  rwa [Bool.not_eq_true', ← Bool.not_eq_true] at this

theorem finishTest_engine (he : r.engine = some e) (hk : r.kind < 8) (hn : n < 256) :
    (s.finishTest r n).fld F.SPLIT_RESULT.RESULT [r.tower.val, r.kind] = n ∧ (s.finishTest r n).testIn r.tower r.slot = none ∧
      Keeps s (s.finishTest r n) [.SPLIT_RESULT] := by
  have hend : s.finishTest r n = ((s.withoutTest r).putResult r.tower.val r.kind r.block r.engine r.repairs n).splitDone r.engine := by
    have hsome : r.engine.isSome = true := by rw [he]; rfl
    exact if_pos hsome
  rw [hend, he]
  refine ⟨putResult_result hn, ?_, ?_⟩
  · have htests (u : State) : (u.splitDone (some e)).tests = u.tests := rfl
    rw [State.testIn, htests, putResult_tests]
    exact withoutTest_none
  · have hdone (u : State) : Keeps u (u.splitDone (some e)) [.SPLIT_RESULT] := .of_regs rfl rfl rfl
    have hout : Keeps s (s.withoutTest r) [.SPLIT_RESULT] := .of_regs rfl rfl rfl
    exact (hout.trans (putResult_keeps hk)).trans (hdone _)

/-! ### Sweeps and rotations -/

theorem exec_sweepStart (he : s.flag F.TEST_CTRL.SWEEP_EN [tw.val] = true) (hn : s.sweepOf tw = none) (hl : s.testLive tw = true) :
    exec (.sweepStart tw) s = .next (s.startSweep tw none).settle :=
  if_pos (by rw [he, hn, hl]; rfl)

theorem exec_testRetry (hm : (tw.val, slot) ∈ s.retryTests) (hl : s.testLive tw = true) : exec (.testRetry tw slot) s =
    .next ((({ s with retryTests := s.retryTests.filter (· ≠ (tw.val, slot)) } : State).sweepTry tw slot 4200).settle) := by
  have hfilter : (s.retryTests.filter fun p => p != (tw.val, slot)) = s.retryTests.filter (· ≠ (tw.val, slot)) := by
    congr 1
    funext p
    by_cases h : p = (tw.val, slot) <;> simp [h]
  rw [← hfilter]
  exact if_pos (by simp [hm, hl])

section
variable {x : Rotation} (hx : s.rotations.find? (fun y => y.tower == tw && !y.preCopied) = some x) (hl : s.loaderWrites tw = false)
  (hp : s.rotationPowered x = true)
include hx hl hp

theorem exec_preCopyComplete : exec (.preCopyComplete tw) s = if !(s.preCopy x).lapsRun then .next ((s.preCopy x).rotate x)
    else .next { s.preCopy x with rotations := (s.preCopy x).rotations.map fun q => if q = x then { q with preCopied := true } else q } := by
  rw [exec, execPreCopyComplete, hx]
  exact if_neg (by rw [hl, hp]; decide)

end

/-- The laps run or stand as before, and no rotation has changed. -/
structure LapsKept (s t : State) : Prop where
  laps : t.lapsRun = s.lapsRun
  rotations : t.rotations = s.rotations

theorem LapsKept.trans (h : LapsKept s t) (k : LapsKept t u) : LapsKept s u := ⟨k.laps.trans h.laps, k.rotations.trans h.rotations⟩

theorem LapsKept.foldl {α : Type} {f : State → α → State} (l : List α) (h : ∀ s a, LapsKept s (f s a)) : LapsKept s (l.foldl f s) := by
  induction l generalizing s with
  | nil => exact ⟨rfl, rfl⟩
  | cons a l ih => exact (h s a).trans ih

theorem LapsKept.fab {f : Fabric} (h : f.phase = s.fab.phase) : LapsKept s { s with fab := f } :=
  ⟨congrArg (· != LapPhase.halted) h, rfl⟩

theorem LapsKept.setReg {x : RegName} {ix : List Nat} {v : W64} : LapsKept s (s.setReg x ix v) := ⟨rfl, rfl⟩

/-- The bad-frame entries of a tower, rewritten. -/
def State.listBad (s : State) (n : Nat) (keep : List W64) : State :=
  (List.range 16).foldl (fun s i => s.setReg .FRAME_BAD [n, i] (keep.getD i 0)) s

theorem LapsKept.listBad {keep : List W64} : LapsKept s (s.listBad n keep) := .foldl _ fun _ _ => .setReg

/-- The machine with another fabric. -/
def State.withFab (s : State) (f : Fabric) : State := { s with fab := f }

theorem LapsKept.withFab {f : Fabric} (h : f.phase = s.fab.phase) : LapsKept s (s.withFab f) := .fab h

theorem clearBad_eq {i j : Nat} : ∃ f keep, f.phase = s.fab.phase ∧ s.clearBad i j = (s.withFab f).listBad (i / 4160 / 2) keep :=
  ⟨{ s.fab with badFrames := listDrop s.fab.badFrames (i * 36 + j) }, _, rfl, rfl⟩

theorem LapsKept.clearBad {i j : Nat} : LapsKept s (s.clearBad i j) := by
  obtain ⟨f, keep, hphase, hclear⟩ := clearBad_eq (s := s) (i := i) (j := j)
  rw [hclear]
  exact (LapsKept.withFab hphase).trans .listBad

/-- The frames of a fabric with those of a tile at another's place, and their function tables. -/
def Fabric.moved (f : Fabric) (src dst : Nat) : Fabric :=
  let base := fun (p : Nat) => p * 36 * 512
  let moved := f.frames.filter fun q => decide (base src ≤ q.1) && decide (q.1 < base (src + 1))
  let kept := f.frames.filter fun q => !(decide (base dst ≤ q.1) && decide (q.1 < base (dst + 1)))
  let fmoved := f.ftable.filter fun q => q.1 / 4096 == src
  let fkept := f.ftable.filter fun q => q.1 / 4096 != dst
  { f with
    frames := moved.foldl (fun m q => Sparse.write m (q.1 - base src + base dst) q.2) kept
    ftable := fmoved.foldl (fun m q => Sparse.write m (q.1 - src * 4096 + dst * 4096) q.2) fkept }

theorem Fabric.moved_phase {f : Fabric} {i j : Nat} : (f.moved i j).phase = f.phase := rfl

theorem copyFrames_eq {i j : Nat} : s.copyFrames i j = (List.range 36).foldl (fun s k => s.clearBad j k)
    (((List.range 36).foldl (fun s k => s.setSlot j k (s.slotOf i k)) s).withFab
      (((List.range 36).foldl (fun s k => s.setSlot j k (s.slotOf i k)) s).fab.moved i j)) := rfl

theorem LapsKept.copyFrames {i j : Nat} : LapsKept s (s.copyFrames i j) := by
  have hslots : LapsKept s ((List.range 36).foldl (fun s k => s.setSlot j k (s.slotOf i k)) s) := .foldl _ fun _ _ => .fab rfl
  rw [copyFrames_eq]
  exact (hslots.trans (.withFab Fabric.moved_phase)).trans (.foldl _ fun _ _ => .clearBad)

theorem LapsKept.preCopy {x : Rotation} : LapsKept s (s.preCopy x) := .foldl _ fun _ _ => .copyFrames

/-- Settles O37: each step of a copy by the word it has read, the end of a split by the kind of its test. -/
theorem testCommands : Obligations.TestCommands := by
  intro s t g w slot r n wires b serves a key last step without ends copies
  have hcond : (w.val + 1 = 262144) = last := propext ⟨fun h => by show w.val = 262143; omega, fun h => by
    have : w.val = 262143 := h
    omega⟩
  refine ⟨fun hg ht hp hc hs => ⟨fun q u hr => ?_, fun u hr => ?_⟩, fun hg ht hp hs => ⟨fun hc hn q u hr => ⟨?_, fun cw hl => ?_⟩,
    fun hc hl writes => exec_copyBack_last hg ht hs hp hc hl⟩, fun _ _ => memStore_copies, exec_splitStart, fun ht hi hl =>
    ⟨exec_splitEnd_budget ht hi hl, exec_splitEnd_window ht hi hl, fun h => exec_splitEnd_last ht hi hl ((testEnds_bank h).trans rfl),
      fun h hn => exec_splitEnd_last ht hi hl ((testEnds_bank h).trans (if_neg hn)),
      fun h => exec_splitEnd_last ht hi hl (testEnds_standin h),
      fun h => exec_splitEnd_last ht hi hl ((testEnds_tile h).trans scanEnds_good),
      fun h _ => exec_splitEnd_last ht hi hl ((testEnds_sensor h).trans (sensorsEnd_good h))⟩,
    fun e result he hk hn => finishTest_engine he hk hn, exec_sweepStart, exec_testRetry, fun x hx hl hp => ⟨fun hrun => ?_, fun hrun => ?_⟩⟩
  · subst ht
    refine (exec_copyIn hg hc hs hp).trans ?_
    rw [copyInWord_good hr, State.standinPut, listDrop_eq, listDrop_eq]
    exact congrArg (fun x => Host.Outcome.next (State.settle x)) (ite_congr hcond (fun _ => rfl) fun _ => rfl)
  · subst ht
    refine (exec_copyIn hg hc hs hp).trans ?_
    rw [copyInWord_bad hr]
    exact congrArg (fun x => Host.Outcome.next (State.settle x)) (ite_congr hcond (fun _ => rfl) fun _ => rfl)
  · exact exec_copyBack_atOnce hg ht hs hp hc hn hr
  · exact exec_copyBack_later hg ht hs hp hc hn hr hl
  · rw [exec_preCopyComplete hx hl hp, LapsKept.preCopy.laps, hrun]
    rfl
  · rw [exec_preCopyComplete hx hl hp, LapsKept.preCopy.laps, hrun, LapsKept.preCopy.rotations]
    rfl

end Sys2Proof.Machine
end

section
/-! The scrubber, the fuse commit and the mailbox slots (R344, R363 to R365, R371, R394): O38. -/

namespace Sys2Proof.Machine

variable {s t u g : State} {rq : Rq} {role : Role} {tw : Tower} {l : CfgLayer} {n i j a : Nat} {k : Fin 4} {ix : List Nat} {es : List Nat}

/-! ### The scrubber -/

theorem scrubReg_valid : RegName.SCRUB_POS.valid [tw.val, cfgIx l] = true ∧ RegName.SCRUB_STAT.valid [tw.val, cfgIx l] = true := by
  cases l <;> simp [RegName.valid, RegName.place, ixValid, cfgIx]

/-- No entry of the bad-frame list lies at a scrubber register. -/
theorem frameBad_key_ne (hi : i < 16) : RegName.FRAME_BAD.key [n, i] ≠ RegName.SCRUB_STAT.key [tw.val, cfgIx l] := by
  have htw := tw.isLt
  have hl : cfgIx l < 2 := by cases l <;> decide
  simp only [RegName.key, RegName.addr, RegName.place, ixOffset, reduceCtorEq, if_false]
  omega

theorem passes_setFrameBad {v : W64} (hi : i < 16) :
    (s.setReg .FRAME_BAD [n, i] v).fld F.SCRUB_STAT.PASSES [tw.val, cfgIx l] = s.fld F.SCRUB_STAT.PASSES [tw.val, cfgIx l] :=
  congrArg (bitsOf · _ _) (State.reg_setReg_of_key (frameBad_key_ne hi))

theorem passes_onlyEvents (h : OnlyEvents s t) :
    t.fld F.SCRUB_STAT.PASSES [tw.val, cfgIx l] = s.fld F.SCRUB_STAT.PASSES [tw.val, cfgIx l] :=
  congrArg (bitsOf · _ _) (h.reg _ _ scrubReg_valid.2 (by decide))

theorem passes_markBadKey :
    (s.markBadKey n).fld F.SCRUB_STAT.PASSES [tw.val, cfgIx l] = s.fld F.SCRUB_STAT.PASSES [tw.val, cfgIx l] := by
  have hrecord {s : State} {c : Nat} {x y : W64} {b : Bool} :
      (s.recordAuto c x y b).fld F.SCRUB_STAT.PASSES [tw.val, cfgIx l] = s.fld F.SCRUB_STAT.PASSES [tw.val, cfgIx l] := rfl
  have hfab {s : State} {f : Fabric} :
      ({ s with fab := f } : State).fld F.SCRUB_STAT.PASSES [tw.val, cfgIx l] = s.fld F.SCRUB_STAT.PASSES [tw.val, cfgIx l] := rfl
  unfold State.markBadKey
  dsimp only
  split
  · rfl
  · rw [passes_onlyEvents .blockEvent, hrecord]
    split
    next i hi => rw [passes_setFrameBad (List.mem_range.mp (List.mem_of_find?_eq_some hi)), hfab]
    next => exact hfab

section
variable {ok : Bool}

theorem exec_scrubFrame_within (hl : s.scrubLive tw l = true) (hf : s.fld F.SCRUB_POS.FRAME [tw.val, cfgIx l] + 1 < 149760) :
    exec (.scrubFrame tw l n ok) s =
      .next (((if ok = true then s.count F.SCRUB_POS.CORRECTED [tw.val, cfgIx l] n
        else (s.count F.SCRUB_POS.CORRECTED [tw.val, cfgIx l] n).markBadKey
          ((2 * tw.val + cfgIx l) * 149760 + s.fld F.SCRUB_POS.FRAME [tw.val, cfgIx l])).put F.SCRUB_POS.FRAME
        (s.fld F.SCRUB_POS.FRAME [tw.val, cfgIx l] + 1) [tw.val, cfgIx l]).settle) := by
  rw [exec, execScrubFrame]
  exact (if_neg (by simp [hl])).trans (if_pos hf)

theorem exec_scrubFrame_wraps (hl : s.scrubLive tw l = true) (hf : 149760 ≤ s.fld F.SCRUB_POS.FRAME [tw.val, cfgIx l] + 1) :
    exec (.scrubFrame tw l n ok) s =
      .next (((((if ok = true then s.count F.SCRUB_POS.CORRECTED [tw.val, cfgIx l] n
        else (s.count F.SCRUB_POS.CORRECTED [tw.val, cfgIx l] n).markBadKey
          ((2 * tw.val + cfgIx l) * 149760 + s.fld F.SCRUB_POS.FRAME [tw.val, cfgIx l])).put F.SCRUB_POS.FRAME 0 [tw.val, cfgIx l]).put
          F.SCRUB_POS.CORRECTED 0 [tw.val, cfgIx l]).put F.SCRUB_STAT.PASSES
        ((s.fld F.SCRUB_STAT.PASSES [tw.val, cfgIx l] + 1) % 2 ^ 32) [tw.val, cfgIx l]).settle) := by
  obtain ⟨hpos, hstat⟩ := scrubReg_valid (tw := tw) (l := l)
  have hput {s : State} {f : Fld} {m : Nat} (hf : f.reg = .SCRUB_POS) :
      (s.put f m [tw.val, cfgIx l]).fld F.SCRUB_STAT.PASSES [tw.val, cfgIx l] = s.fld F.SCRUB_STAT.PASSES [tw.val, cfgIx l] :=
    State.fld_put_ne (by rw [hf]; decide) (by rw [hf]; exact hpos) hstat
  have hmarked {s : State} {m : Nat} : (if ok = true then s else s.markBadKey m).fld F.SCRUB_STAT.PASSES [tw.val, cfgIx l] =
      s.fld F.SCRUB_STAT.PASSES [tw.val, cfgIx l] := by
    split
    · rfl
    · exact passes_markBadKey
  rw [exec, execScrubFrame]
  refine (if_neg (by simp [hl])).trans ((if_neg (by omega)).trans ?_)
  dsimp only
  rw [hput rfl, hput rfl, hmarked, State.count, hput rfl]

end

theorem exec_scrubWatchdog (hl : s.scrubLive tw l = true) : exec (.scrubWatchdog tw l) s = .next (s.scrubRestart tw.val l) := if_pos hl

theorem exec_scrubWatchdog_idle (hl : ¬s.scrubLive tw l = true) : exec (.scrubWatchdog tw l) s = .next s := if_neg hl

theorem exec_scrubFrame_idle {ok : Bool} (hl : ¬s.scrubLive tw l = true) : exec (.scrubFrame tw l n ok) s = .next s :=
  if_pos (by simp [hl])

theorem exec_copyDisagrees {all : Bool} (hl : s.scrubLive tw l = true) : exec (.scrubberCopyDisagrees tw l all) s =
    if all = true then .next (s.scrubRestart tw.val l) else .next (s.count F.SCRUB_STAT.VOTES [tw.val, cfgIx l]) :=
  if_neg (by simp [hl])

theorem exec_copyDisagrees_idle {all : Bool} (hl : ¬s.scrubLive tw l = true) : exec (.scrubberCopyDisagrees tw l all) s = .next s :=
  if_pos (by simp [hl])

/-! ### The fuse commit -/

theorem fuseReg_valid : RegName.FUSE_CTRL.valid [tw.val] = true ∧ RegName.REPAIR_STAT.valid [tw.val] = true := by
  simp [RegName.valid, RegName.place, ixValid]

theorem repairLog_valid (hi : i < 64) : RegName.REPAIR_LOG.valid [tw.val, i] = true := by
  simp [RegName.valid, RegName.place, ixValid, hi]

theorem bankStat_valid {v : W64} : RegName.BANK_STAT.valid [tw.val, bitsOf v 7 0] = true := by
  have hb : bitsOf v 7 0 < 256 := bitsOf_lt ..
  simp [RegName.valid, RegName.place, ixValid, hb]

/-- The repair's entry is marked, and a row of fuses is taken. -/
def State.marksEntry (s : State) (n i : Nat) : State :=
  let t := s.setReg .REPAIR_LOG [n, i] (setBits (s.reg .REPAIR_LOG [n, i]) 55 55 1)
  t.put F.FUSE_CTRL.FREE (t.fld F.FUSE_CTRL.FREE [n] - 1) [n]

/-- Besides, the tower's count of repairs and the spares of its bank change. -/
theorem fuseEntry_keeps : KeepsRegs (s.marksEntry tw.val i) (s.fuseEntry tw.val i) [.REPAIR_STAT, .BANK_STAT] := by
  have hrecord {s : State} {c : Nat} {x y : W64} {b : Bool} : KeepsRegs s (s.recordAuto c x y b) [.REPAIR_STAT, .BANK_STAT] := .of_regs rfl
  have hspare {s : State} {v : W64} {p : Prop} [Decidable p] :
      KeepsRegs s (if p then s.count F.BANK_STAT.SPARES_FUSED [tw.val, bitsOf v 7 0] else s) [.REPAIR_STAT, .BANK_STAT] := by
    split
    · exact .count (by decide) bankStat_valid
    · exact .refl
  have hfused {s : State} {x : Referee} : KeepsRegs s { s with ref := x } [.REPAIR_STAT, .BANK_STAT] := .of_regs rfl
  unfold State.fuseEntry
  dsimp only
  exact (KeepsRegs.put (by decide) fuseReg_valid.2).trans (hfused.trans (hspare.trans hrecord))

section
variable (hi : i < 64)
include hi

theorem fuseEntry_log (hj : j < 64) : (s.fuseEntry tw.val i).reg .REPAIR_LOG [tw.val, j] =
    if j = i then setBits (s.reg .REPAIR_LOG [tw.val, j]) 55 55 1 else s.reg .REPAIR_LOG [tw.val, j] := by
  rw [fuseEntry_keeps .REPAIR_LOG _ (repairLog_valid hj) (by decide), State.marksEntry,
    State.reg_put_ne (by decide) fuseReg_valid.1 (repairLog_valid hj)]
  split
  next h =>
    subst h
    exact State.reg_setReg
  next h => exact State.reg_setReg_ix (by simpa using Ne.symm h) (repairLog_valid hi) (repairLog_valid hj)

theorem fuseEntry_free : (s.fuseEntry tw.val i).fld F.FUSE_CTRL.FREE [tw.val] = s.fld F.FUSE_CTRL.FREE [tw.val] - 1 := by
  have hfree : (s.setReg .REPAIR_LOG [tw.val, i] (setBits (s.reg .REPAIR_LOG [tw.val, i]) 55 55 1)).fld F.FUSE_CTRL.FREE [tw.val] =
      s.fld F.FUSE_CTRL.FREE [tw.val] := congrArg (bitsOf · _ _) (State.reg_setReg_ne (by decide) (repairLog_valid hi) fuseReg_valid.1)
  have hlt : s.fld F.FUSE_CTRL.FREE [tw.val] < 2 ^ 16 := bitsOf_lt ..
  have hkept : (s.fuseEntry tw.val i).fld F.FUSE_CTRL.FREE [tw.val] = (s.marksEntry tw.val i).fld F.FUSE_CTRL.FREE [tw.val] :=
    congrArg (bitsOf · _ _) (fuseEntry_keeps .FUSE_CTRL _ fuseReg_valid.1 (by decide))
  rw [hkept, State.marksEntry, State.fld_put (by decide) (by decide), hfree]
  exact Nat.mod_eq_of_lt (by show _ < 2 ^ 16; omega)

end

/-- With a row of fuses for each, every repair of the list is committed. -/
theorem fuseEntries_commits (hm : ∀ i ∈ es, i < 64) (hd : es.Nodup) (hf : es.length ≤ s.fld F.FUSE_CTRL.FREE [tw.val]) :
    (s.fuseEntries tw.val es).fld F.FUSE_CTRL.RESULT [tw.val] = 0 ∧
      (s.fuseEntries tw.val es).fld F.FUSE_CTRL.FREE [tw.val] = s.fld F.FUSE_CTRL.FREE [tw.val] - es.length ∧
      ∀ j, j < 64 → (s.fuseEntries tw.val es).reg .REPAIR_LOG [tw.val, j] =
        if j ∈ es then setBits (s.reg .REPAIR_LOG [tw.val, j]) 55 55 1 else s.reg .REPAIR_LOG [tw.val, j] := by
  induction es generalizing s with
  | nil =>
    refine ⟨State.fld_put (f := F.FUSE_CTRL.RESULT) (by decide) (by decide),
      State.fld_put_field (f := F.FUSE_CTRL.RESULT) (f' := F.FUSE_CTRL.FREE) rfl (by decide) (by decide) (by decide), fun j hj => ?_⟩
    exact State.reg_put_ne (by decide) fuseReg_valid.1 (repairLog_valid hj)
  | cons i es ih =>
    obtain ⟨hi, hes⟩ := List.forall_mem_cons.mp hm
    obtain ⟨hnot, hd⟩ := List.nodup_cons.mp hd
    have hlen : (i :: es).length = es.length + 1 := rfl
    have hfree := fuseEntry_free (s := s) (tw := tw) hi
    obtain ⟨hresult, hleft, hlog⟩ := ih (s := s.fuseEntry tw.val i) hes hd (by omega)
    rw [State.fuseEntries, if_neg (by omega)]
    refine ⟨hresult, by omega, fun j hj => ?_⟩
    rw [hlog j hj, fuseEntry_log hi hj]
    by_cases h : j = i
    · subst h
      simp [hnot]
    · simp [h]

theorem logOrder_nodup : (s.logOrder n).Nodup := by
  refine List.Nodup.map_on (fun x hx y hy h => ?_) List.nodup_range
  have := List.mem_range.mp hx
  have := List.mem_range.mp hy
  omega

theorem mem_logOrder : i ∈ s.logOrder n ↔ i < 64 := by
  have hlt : s.fld F.REPAIR_STAT.NEXT [n] < 2 ^ 6 := bitsOf_lt ..
  rw [State.logOrder, List.mem_map]
  refine ⟨?_, fun h => ⟨(i + 64 - s.fld F.REPAIR_STAT.NEXT [n]) % 64, List.mem_range.mpr (by omega), by omega⟩⟩
  rintro ⟨x, -, rfl⟩
  omega

section
variable (h : GateOnly s g)
include h

theorem GateOnly.fuseWindow : g.fuseWindow = s.fuseWindow := by
  have hfld {f : Fld} (hf : f.reg = .PKG_THERM := by rfl) : g.fld f = s.fld f := h.fld (by rw [hf]; rfl) (by rw [hf]; decide)
  rw [State.fuseWindow, hfld, hfld, State.fuseWindow]

theorem GateOnly.logOrder : g.logOrder tw.val = s.logOrder tw.val := by
  rw [State.logOrder, h.fld (f := F.REPAIR_STAT.NEXT) fuseReg_valid.2 (by decide), State.logOrder]

theorem GateOnly.uncommitted (hi : i < 64) : g.uncommitted tw.val i = s.uncommitted tw.val i := by
  rw [State.uncommitted, h.reg .REPAIR_LOG _ (repairLog_valid hi) (by decide), State.uncommitted]

/-- The clock gate changes nothing that the commit looks at. -/
theorem GateOnly.toCommit : ((g.logOrder tw.val).filter fun i => g.uncommitted tw.val i) =
    (s.logOrder tw.val).filter fun i => s.uncommitted tw.val i := by
  rw [h.logOrder]
  exact List.filter_congr fun i hi => h.uncommitted (mem_logOrder.mp hi)

end

theorem fuseCommit_writes {f : State → State} (hr : Reaches s rq .installer (RegName.FUSE_CTRL.addr [tw.val]))
    (hf : ∀ g, GateOnly s g → g.commitFuses tw.val = f g) : WritesRecorded (.fuseCommit rq tw) s rq .FUSE_CTRL [tw.val] f := by
  have hv := (fuseReg_valid (tw := tw)).1
  have hgate : GateOnly s (s.touchGate (RegName.FUSE_CTRL.addr [tw.val])) := .touchGate hv rfl
  exact (RegWrite.of_reaches rfl hv hr rfl).writesRecorded rfl rfl rfl rfl
    (congrArg (Prod.mk Resp.ok) ((if_pos (by decide)).trans (hf _ hgate)))

section
variable (hr : Reaches s rq .installer (RegName.FUSE_CTRL.addr [tw.val]))
include hr

theorem fuseCommit_outside (hw : s.fuseWindow = false) :
    WritesRecorded (.fuseCommit rq tw) s rq .FUSE_CTRL [tw.val] fun g => g.put F.FUSE_CTRL.RESULT 1 [tw.val] :=
  fuseCommit_writes hr fun g hg => if_pos (by rw [hg.fuseWindow, hw]; rfl)

theorem fuseCommit_full (hw : s.fuseWindow = true) (hf : s.fld F.FUSE_CTRL.FREE [tw.val] = 0) :
    WritesRecorded (.fuseCommit rq tw) s rq .FUSE_CTRL [tw.val] fun g => g.put F.FUSE_CTRL.RESULT 2 [tw.val] :=
  fuseCommit_writes hr fun g hg => (if_neg (by rw [hg.fuseWindow, hw]; decide)).trans
    (if_pos ((hg.fld (f := F.FUSE_CTRL.FREE) fuseReg_valid.1 (by decide)).trans hf))

theorem fuseCommit_commits (hw : s.fuseWindow = true) (hf : s.fld F.FUSE_CTRL.FREE [tw.val] ≠ 0) :
    WritesRecorded (.fuseCommit rq tw) s rq .FUSE_CTRL [tw.val] fun g =>
      g.fuseEntries tw.val ((s.logOrder tw.val).filter fun i => s.uncommitted tw.val i) :=
  fuseCommit_writes hr fun g hg => by
    rw [← hg.toCommit, State.commitFuses, if_neg (by rw [hg.fuseWindow, hw]; decide),
      if_neg (by rw [hg.fld (f := F.FUSE_CTRL.FREE) fuseReg_valid.1 (by decide)]; exact hf)]

end

/-! ### Mailbox slots -/

theorem mbxCtrl_valid : RegName.MBX_CTRL.valid [k.val] = true := by
  simp [RegName.valid, RegName.place, ixValid]

theorem mbxCtrl_gate : s.touchGate (RegName.MBX_CTRL.addr [k.val]) = s := touchGate_package (by decide) mbxCtrl_valid

section
variable {v : W64} (hr : Reaches s rq role (RegName.MBX_CTRL.addr [k.val]))
include hr

theorem mbxCtrl_closed {c : Instr} (hc : exec c s = .next (s.busReg rq .MBX_CTRL [k.val] v)) (ho : s.slotOpen rq k = false) :
    RefusesWrite c s rq .MBX_CTRL [k.val] .bankNotOwned := by
  have hslot : s.slotDenies rq .MBX_CTRL [k.val] = true := by rw [State.slotDenies]; exact congrArg (! ·) ho
  have hw : s.writeReg rq role .MBX_CTRL [k.val] .full v = (.bankNotOwned, s) := by
    have hright : s.writeRight role .MBX_CTRL [k.val] .full v = true := rfl
    rw [State.writeReg, hright, if_neg (by decide), if_pos hslot]
  have hreg := RegWrite.of_reaches (c := c) (v := v) rfl mbxCtrl_valid hr hc
  rw [RefusesWrite, hreg.write, hreg.copy.busReg_refused (x := .bankNotOwned) hreg.atOnce hreg.reach
    (by rw [mbxCtrl_gate]; exact hw) (by decide) (by decide), mbxCtrl_gate]

theorem mbxCtrl_writes {c : Instr} {f : State → State} (hc : exec c s = .next (s.busReg rq .MBX_CTRL [k.val] v))
    (ho : s.slotOpen rq k = true) (he : s.writeMbxCtrl k.val .full v = (.ok, f s)) : Writes c s rq .MBX_CTRL [k.val] f := by
  have hslot : s.slotDenies rq .MBX_CTRL [k.val] = false := by rw [State.slotDenies]; exact congrArg (! ·) ho
  exact (RegWrite.of_reaches rfl mbxCtrl_valid hr hc).writes mbxCtrl_gate rfl hslot rfl he

end

theorem writeMbxCtrl_go : s.writeMbxCtrl k.val .full 1 = (.ok, s.slotGo k) := by
  fin_cases k <;> rfl

theorem writeMbxCtrl_release : s.writeMbxCtrl k.val .full 2 = (.ok, s.freeSlot k.val) := rfl

/-- Settles O38: a scrubber's command by the part's state, the commit by induction on the repairs that are not in fuses. -/
theorem scrubFuseMailboxCommands : Obligations.ScrubFuseMailboxCommands := by
  intro s rq role t l n ok k ix frame counted marked live restarted tx free es commits box
  refine ⟨exec_scrubFrame_within, exec_scrubFrame_wraps, rfl, fun hl => ⟨exec_scrubWatchdog hl, exec_copyDisagrees hl, exec_copyDisagrees hl⟩,
    fun hl => ⟨exec_scrubFrame_idle hl, exec_scrubWatchdog_idle hl, exec_copyDisagrees_idle hl⟩, fun hw hr => fuseCommit_outside hr hw,
    fun hw hf hr => fuseCommit_full hr hw hf, fun hw hf hr => fuseCommit_commits hr hw hf, fun hf => ?_, fun hr => ⟨fun ho =>
      ⟨mbxCtrl_closed hr rfl ho, mbxCtrl_closed hr rfl ho⟩, fun ho => ⟨fun hs => mbxCtrl_writes hr rfl ho ?_, fun hs hz =>
        mbxCtrl_writes hr rfl ho ?_, mbxCtrl_writes hr rfl ho writeMbxCtrl_release⟩⟩⟩
  · obtain ⟨hresult, hleft, hlog⟩ := fuseEntries_commits (s := s) (tw := t)
      (fun i hi => mem_logOrder.mp (List.mem_filter.mp hi).1) (logOrder_nodup.filter _) hf
    refine ⟨hresult, hleft, fun i => (hlog i i.isLt).trans ?_⟩
    have hmem : (i.val ∈ es) = (s.uncommitted t i = true) := propext
      ⟨fun h => (List.mem_filter.mp h).2, fun h => List.mem_filter.mpr ⟨mem_logOrder.mpr i.isLt, h⟩⟩
    exact if_congr (iff_of_eq hmem) rfl rfl
  · exact writeMbxCtrl_go.trans (congrArg (Prod.mk Resp.ok) (if_pos (hs.imp_left Option.isNone_iff_eq_none.mpr)))
  · refine writeMbxCtrl_go.trans (congrArg (Prod.mk Resp.ok) (if_neg ?_))
    rintro (h | h)
    · exact hs (Option.isNone_iff_eq_none.mp h)
    · exact h hz

end Sys2Proof.Machine
end

section
/-! Plain register writes, 64 bits or one half, their refusals, and the bits that a write leaves (R8 to R11, R210, R216, R286): O39. -/

namespace Sys2Proof.Machine

variable {s t u : State} {rq : Rq} {role : Role} {r : RegName} {ix : List Nat} {v w : W64} {h : Half} {a b n len k tw : Nat} {x : Resp}
  {addr : Addr} {d : Payload} {p : Prop}

/-! ### Both halves of a register lie with it -/

theorem spaceOf_eq_register (hl : 0x030000000000 ≤ a) (hu : a < 0x030500000000) : spaceOf a = .register := by
  unfold spaceOf
  rw [if_neg (by omega), if_neg (by omega), if_neg (by omega), if_pos ⟨hl, hu⟩]

/-- The address lies in the 8-byte word of register space that begins at the other. -/
structure SameWord (a b : Nat) : Prop where
  word : a / 8 * 8 = b
  low : 0x030000000000 ≤ b
  high : b < 0x030005000000

theorem pinDomain_congr (h : a / 8 * 8 = b / 8 * 8) : pinDomain a = pinDomain b := by
  unfold pinDomain
  rw [h]

section
variable (hw : SameWord a b)
include hw

theorem SameWord.spaces : spaceOf a = .register ∧ spaceOf b = .register := by
  obtain ⟨hword, hlow, hhigh⟩ := hw
  exact ⟨spaceOf_eq_register (by omega) (by omega), spaceOf_eq_register (by omega) (by omega)⟩

/-- What places an address within its block is the same for both. -/
theorem SameWord.offsets : (a - 0x030000000000) / 8 * 8 = (b - 0x030000000000) / 8 * 8 ∧
    (a - 0x030000000000 < 0x1000000) = (b - 0x030000000000 < 0x1000000) ∧
    (a - 0x030000000000) / 0x100000 = (b - 0x030000000000) / 0x100000 ∧
    (a - 0x030000000000 - 0x1000000) / 0x1000000 = (b - 0x030000000000 - 0x1000000) / 0x1000000 ∧
    (a - 0x030000000000) % 0x1000000 / 0x100000 = (b - 0x030000000000) % 0x1000000 / 0x100000 ∧
    (a - 0x030000000000) % 0x100000 / 0x1000 = (b - 0x030000000000) % 0x100000 / 0x1000 := by
  obtain ⟨hword, hlow, hhigh⟩ := hw
  exact ⟨by omega, propext (by omega), by omega, by omega, by omega, by omega⟩

theorem SameWord.pinDomain : pinDomain (a - 0x030000000000) = Machine.pinDomain (b - 0x030000000000) := pinDomain_congr hw.offsets.1

theorem SameWord.engineNo (hc : 0x10000 ≤ (b - 0x030000000000) % 0x1000000) :
    ((a - 0x030000000000) % 0x1000000 - 0x10000) / 0x10000 = ((b - 0x030000000000) % 0x1000000 - 0x10000) / 0x10000 := by
  obtain ⟨hword, hlow, hhigh⟩ := hw
  omega

theorem SameWord.regDomain : regDomain a = Machine.regDomain b := by
  obtain ⟨ha, hb⟩ := hw.spaces
  obtain ⟨-, hpackage, hblock, htower, hlocal, hpage⟩ := hw.offsets
  unfold Machine.regDomain
  simp only [ha, hb, hpackage, hblock, htower, hlocal, hpage, hw.pinDomain]

theorem SameWord.regTower : regTower a = Machine.regTower b := by
  obtain ⟨ha, hb⟩ := hw.spaces
  obtain ⟨-, hpackage, hblock, htower, -⟩ := hw.offsets
  unfold Machine.regTower
  simp only [ha, hb, hpackage, hblock, htower, hw.pinDomain]

theorem SameWord.isMemLayer : isMemLayer a = Machine.isMemLayer b := by
  obtain ⟨ha, hb⟩ := hw.spaces
  obtain ⟨-, -, -, -, hlocal, -⟩ := hw.offsets
  have htowers : (0x030001000000 ≤ a) = (0x030001000000 ≤ b) := by
    obtain ⟨hword, -, -⟩ := hw
    exact propext (by omega)
  unfold Machine.isMemLayer
  simp only [ha, hb, hlocal, htowers]

theorem SameWord.targetHeld : s.targetHeld a = s.targetHeld b := by
  obtain ⟨ha, hb⟩ := hw.spaces
  unfold State.targetHeld
  simp only [ha, hb, hw.regDomain, hw.regTower, hw.isMemLayer]

theorem SameWord.endpointOf : endpointOf tw a = Machine.endpointOf tw b := by
  obtain ⟨ha, hb⟩ := hw.spaces
  obtain ⟨-, hpackage, hblock, htower, hlocal, -⟩ := hw.offsets
  have hengine : (0x10000 ≤ (a - 0x030000000000) % 0x1000000 ∧ (a - 0x030000000000) % 0x1000000 < 0x50000) =
      (0x10000 ≤ (b - 0x030000000000) % 0x1000000 ∧ (b - 0x030000000000) % 0x1000000 < 0x50000) := by
    obtain ⟨hword, -, -⟩ := hw
    exact propext (by omega)
  unfold Machine.endpointOf
  simp only [ha, hb, hpackage, hblock, htower, hlocal, hengine]
  split
  · rfl
  · by_cases hc : 0x10000 ≤ (b - 0x030000000000) % 0x1000000 ∧ (b - 0x030000000000) % 0x1000000 < 0x50000
    · rw [hw.engineNo hc.1]
    · rw [if_neg hc, if_neg hc]

theorem SameWord.targetOff : s.targetOff rq a = s.targetOff rq b := by
  obtain ⟨ha, hb⟩ := hw.spaces
  have hdomain : addrDomain rq a = addrDomain rq b := by
    unfold addrDomain
    simp only [ha, hb, hw.regDomain]
  have hport : portOf rq a = portOf rq b := hw.endpointOf
  rw [State.targetOff, hdomain, hport, State.targetOff]

theorem SameWord.touchGate (he : engineBlock b = none) : s.touchGate a = s.touchGate b := by
  obtain ⟨ha, hb⟩ := hw.spaces
  obtain ⟨-, hpackage, hblock, htower, hlocal, hpage⟩ := hw.offsets
  have hengine : engineBlock a = none := by
    obtain ⟨hword, -, -⟩ := hw
    unfold engineBlock at he ⊢
    simp only [ite_eq_left_iff, reduceCtorEq, imp_false, not_not] at he ⊢
    omega
  have hgate : gateOfAddr a = gateOfAddr b := by
    unfold gateOfAddr
    simp only [ha, hb, hpackage, hblock, htower, hlocal, hpage, hw.pinDomain, hengine, he]
  rw [State.touchGate, hgate, State.touchGate]

end

/-! ### A write of a register, whole or one half -/

/-- A width that the register map has, aligned (R8). -/
structure NarrowAt (a len b : Nat) : Prop extends SameWord a b where
  narrow : narrowOk a len = true

theorem addr_high (hv : r.valid ix = true) (hs : spaceOf (r.addr ix) = .register) :
    0x030000000000 ≤ r.addr ix ∧ r.addr ix < 0x030005000000 ∧ r.addr ix % 8 = 0 :=
  ⟨(addr_register hv hs).1, (addr_register hv hs).2, addr_words r ix⟩

section
variable (hc : CopyAt r ix) (hs : spaceOf (r.addr ix) = .register)
include hc hs

theorem NarrowAt.whole : NarrowAt (r.addr ix) 8 (r.addr ix) := by
  obtain ⟨hl, hh, hm⟩ := addr_high hc.valid hs
  exact ⟨⟨by omega, hl, hh⟩, by simp [narrowOk, hm]⟩

theorem NarrowAt.lowHalf : NarrowAt (r.addr ix) 4 (r.addr ix) := by
  obtain ⟨hl, hh, hm⟩ := addr_high hc.valid hs
  exact ⟨⟨by omega, hl, hh⟩, by simp [narrowOk]; omega⟩

theorem NarrowAt.highHalf : NarrowAt (r.addr ix + 4) 4 (r.addr ix) := by
  obtain ⟨hl, hh, hm⟩ := addr_high hc.valid hs
  exact ⟨⟨by omega, hl, hh⟩, by simp [narrowOk]; omega⟩

end

section
variable (hn : NarrowAt a len (r.addr ix)) (hc : CopyAt r ix)
include hn hc

theorem NarrowAt.target : targetAt (a / 8 * 8) = some (.reg r ix) := by
  rw [hn.word, targetAt_addr hc.valid hc.shown hc.assigned]

theorem NarrowAt.serve (hr : Reaches s rq role (r.addr ix)) : s.serve rq role .bus (.write d) a len =
    State.countDenied ((s.touchGate (r.addr ix)).serveReg rq role .bus (.write d) a len) := by
  have hspace := hn.spaces.1
  have hform : formRefusal rq (.write d) a len = none := by simp [formRefusal, hspace, isAdd, hn.narrow]
  have hassigned : assigned rq (.write d) a len = true := by simp [assigned, hspace, hn.target hc]
  have harrive : s.arrive rq role .bus (.write d) a len = none := by
    simp [State.arrive, hform, hassigned, hn.toSameWord.targetOff, hr.on]
  have hnow : s.serveNow rq role .bus (.write d) a len = (s.touchGate (r.addr ix)).serveReg rq role .bus (.write d) a len := by
    simp [State.serveNow, hspace, isPush, hn.toSameWord.touchGate (engineBlock_addr hc.valid)]
  simp [State.serve, harrive, State.serveOn, hn.toSameWord.targetHeld, hr.held, hnow]

theorem NarrowAt.serveReg (hr : r ≠ .ROUTER_CFG) (hw : s.writeReg rq role r ix (halfOfAccess a len) (placed (halfOfAccess a len) d) = (x, u)) :
    s.serveReg rq role .bus (.write d) a len = (.done x 0, u) := by
  simp only [State.serveReg, hn.target hc, ReqOp.isWrite, ReqOp.data, if_true]
  split
  · exact absurd rfl hr
  · rw [hw]

/-- The write is accepted. -/
theorem NarrowAt.request (hr : Reaches s rq role (r.addr ix)) (hx : r ≠ .ROUTER_CFG)
    (hw : (s.touchGate (r.addr ix)).writeReg rq role r ix (halfOfAccess a len) (placed (halfOfAccess a len) d) = (.ok, u)) :
    s.request rq (.write d) a len = u.answer rq false .ok 0 0 := by
  simp [State.request, hr.role, hn.serve hc hr, hn.serveReg hc hx hw, State.countDenied_of_ne, State.respond]

end

theorem low_word : BitVec.ofNat 64 (bitsOf (v.setWidth 2048) 31 0) = v &&& 0xFFFFFFFF := by
  refine BitVec.eq_of_getLsbD_eq fun i hi => ?_
  have hmask : (0xFFFFFFFF : W64) = BitVec.ofNat 64 (2 ^ 32 - 1) := rfl
  rw [hmask, BitVec.getLsbD_and, BitVec.getLsbD_ofNat, BitVec.getLsbD_ofNat, testBit_bitsOf, Nat.testBit_two_pow_sub_one]
  by_cases hlow : i < 32
  · simp [hi, hlow, BitVec.getLsbD_setWidth]
    omega
  · simp [hlow]

theorem placed_low : placed .low (v.setWidth 2048) = v &&& 0xFFFFFFFF := low_word

theorem placed_high : placed .high (v.setWidth 2048) = (v &&& 0xFFFFFFFF) <<< 32 := by
  have hshift {n : Nat} : BitVec.ofNat 64 (n * 2 ^ 32) = BitVec.ofNat 64 n <<< 32 := by
    refine BitVec.eq_of_toNat_eq ?_
    rw [BitVec.toNat_shiftLeft, BitVec.toNat_ofNat, BitVec.toNat_ofNat, Nat.shiftLeft_eq]
    omega
  rw [← low_word]
  exact hshift

/-! ### The bits that a write leaves -/

/-- The masks of a register's RW and W1C bits hold a field's bits by its own access code. -/
def masksOk (r : RegName) : Bool :=
  r.fields.all fun f => decide (f.hi < 64) && (List.range 64).all fun k => !(decide (f.lo ≤ k) && decide (k ≤ f.hi)) ||
    (((r.mask [.rw]).testBit k == decide (f.acc = .rw)) && ((r.mask [.w1c]).testBit k == decide (f.acc = .w1c)))

theorem all_masksOk : RegName.all.all masksOk = true := by decide +kernel

theorem masks_field {f : Fld} (hf : f ∈ r.fields) (hl : f.lo ≤ k) (hh : k ≤ f.hi) : k < 64 ∧
    (r.mask [.rw]).testBit k = decide (f.acc = .rw) ∧ (r.mask [.w1c]).testBit k = decide (f.acc = .w1c) := by
  have hok := List.all_eq_true.mp (List.all_eq_true.mp all_masksOk r (mem_all r)) f hf
  simp only [Bool.and_eq_true, decide_eq_true_eq, List.all_eq_true, List.mem_range, Bool.or_eq_true, Bool.not_eq_true',
    beq_iff_eq] at hok
  obtain ⟨hlt, hbits⟩ := hok
  have hk : k < 64 := by omega
  have := (hbits k hk).resolve_left (by simp [hl, hh])
  exact ⟨hk, this⟩

theorem half_mask (hk : k < 64) : h.mask.testBit k = decide (h = .full ∨ (h = .low ∧ k < 32) ∨ (h = .high ∧ 32 ≤ k)) := by
  have hall : ∀ k : Fin 64, ∀ h ∈ [Half.full, .low, .high],
      h.mask.testBit k = decide (h = .full ∨ (h = .low ∧ k.val < 32) ∨ (h = .high ∧ 32 ≤ k.val)) := by decide
  exact hall ⟨k, hk⟩ h (by cases h <;> simp)

theorem mergeWrite_field {old : W64} {f : Fld} (hf : f ∈ r.fields) (hl : f.lo ≤ k) (hh : k ≤ f.hi) :
    let within := h = .full ∨ (h = .low ∧ k < 32) ∨ (h = .high ∧ 32 ≤ k)
    (mergeWrite r h old v).getLsbD k = (if within ∧ f.acc = .rw then v.getLsbD k
      else if within ∧ f.acc = .w1c then old.getLsbD k && !v.getLsbD k else old.getLsbD k) := by
  intro within
  obtain ⟨hk, hrw, hw1c⟩ := masks_field hf hl hh
  simp only [mergeWrite, BitVec.getLsbD_and, BitVec.getLsbD_or, BitVec.getLsbD_not, BitVec.getLsbD_ofNat, hk, decide_true,
    Bool.true_and, Nat.testBit_and, hrw, hw1c, half_mask hk]
  by_cases hin : within
  · cases f.acc <;> simp [within, hin]
  · simp [within, hin]

/-! ### The plain registers -/

/-- The registers whose writes do nothing beyond their fields. -/
def plainRegs : List RegName :=
  [.TRIG_FIRED, .FABRIC_LIMITS, .LOG_STAT, .CNT_T, .OVF_STAT_T, .OVF_TARGET_T, .CNT_P, .OVF_STAT_P,
    .OVF_TARGET_P, .COUNTER_ACCESS, .BANK_STAT, .ECC_STAT, .Q_RING_WB, .ERRQ, .ERRQ_HOST, .FLOWCTL, .FLOW_STAT, .FLOW_WDOG,
    .ROUTER_STAT, .PACER, .NET_TIMEOUT, .HC_EVCTRL, .HC_EVSTAT, .PORT_EVENTS, .PORT_LIMITS, .CHAIN_STAT, .LINK_STAT,
    .SEC_ALARM, .PKGCLK_STAT, .SRC_STAT, .CLKDOM_STAT, .CROSS_MERGED, .PKG_THERM, .TEST_CTRL, .TEST_BUDGET, .SPLIT_RESULT,
    .GROUP_CFG, .SCRUB_CTRL, .REF_STAT, .REF_BOOTSRC, .BB_SEL, .PINS_STAT, .TRIGOUT_CFG]

section
variable (hm : r ∈ plainRegs)
include hm

theorem plain_space (hv : r.valid ix = true) : spaceOf (r.addr ix) = .register := by
  have hall : ∀ r ∈ plainRegs, 0x030000000000 ≤ r.place.1 ∧ r.place.1 + ixExt r.place.2 < 0x030500000000 := by decide
  have hb := RegName.addr_bounds hv
  obtain ⟨hl, hh⟩ := hall r hm
  exact spaceOf_eq_register (by omega) (by omega)

theorem plain_effect : s.writeEffect rq role r ix h v = (.ok, s.store r ix h v) := by
  fin_cases hm <;> rfl

theorem plain_right : s.writeRight .installer r ix h v = true := by
  fin_cases hm <;> rfl

theorem plain_slot : s.slotDenies rq r ix = false := by
  fin_cases hm <;> rfl

theorem plain_recorded : s.writeRecorded r ix h v = decide (r.right = .installer) := by
  fin_cases hm <;> rfl

theorem plain_direct : r ≠ .ROUTER_CFG := by
  rintro rfl
  exact absurd hm (by decide)

theorem plain_writes (hc : CopyAt r ix) (hr : Reaches s rq .installer (r.addr ix)) (hn : NarrowAt addr.toNat len (r.addr ix))
    (hh : halfOfAccess addr.toNat len = h) (hp : placed h (v.setWidth 2048) = w) :
    if r.right = .installer then WritesRecorded (.registerWrite rq addr len v) s rq r ix fun g => g.store r ix h w
    else Writes (.registerWrite rq addr len v) s rq r ix fun g => g.store r ix h w := by
  have hw := State.writeReg_ok (s := s.touchGate (r.addr ix)) (rq := rq) (plain_right hm) (plain_slot hm)
    (plain_effect (ix := ix) (h := h) (v := w) hm)
  subst hh hp
  have hreq := hn.request hc hr (plain_direct hm) hw
  rw [plain_recorded hm] at hreq
  split
  next hi =>
    rw [decide_eq_true hi, if_pos rfl] at hreq
    exact congrArg (fun x => Host.Outcome.next (State.finish x)) hreq
  next hi =>
    rw [decide_eq_false hi, if_neg (by decide)] at hreq
    exact congrArg (fun x => Host.Outcome.next (State.finish x)) hreq

end

/-! ### Refusals -/

/-- The registers that the installer alone writes. -/
def installerRegs : List RegName :=
  [.COUNTER_ACCESS, .FLOW_WDOG, .ROUTER_CFG, .PACER, .NET_TIMEOUT, .HC_EVRING, .HC_EVCTRL, .HR_BASE, .HR_LIMIT, .PORT_CTRL, .PORT_LIMITS,
    .LANE_CTRL, .LANE_EQ, .SEC_CTRL, .ENROL_WINDOW, .ENROL_CTRL, .VR_CFG, .SEAL, .PKGCLK_CFG, .CLKGATE_MODE, .CLKDOM_CFG, .PKG_CAP,
    .PKG_THRESH, .TEST_CTRL, .TEST_BUDGET, .GROUP_CFG, .FUSE_CTRL, .SCRUB_CTRL, .REF_BOOTSRC, .PIN_OWN]

theorem mem_installerRegs (hi : r.right = .installer) : r ∈ installerRegs := by
  have hall : RegName.all.all (fun r => r.right != .installer || installerRegs.contains r) = true := by decide +kernel
  have := List.all_eq_true.mp hall r (mem_all r)
  rw [hi] at this
  simpa using this

section
variable (hi : r.right = .installer) (hrole : role ≠ .installer)
include hi hrole

theorem installer_right : s.writeRight role r ix h v = false := by
  have hno : (role == Role.installer) = false := by simpa using hrole
  have hm := mem_installerRegs hi
  fin_cases hm <;> exact hno

theorem installer_serve (hc : CopyAt r ix) (hn : NarrowAt a len (r.addr ix)) :
    s.serveReg rq role .bus (.write d) a len = (.done .roleDenied 0, s) := by
  simp only [State.serveReg, hn.target hc, ReqOp.isWrite, if_true]
  split
  · exact if_neg hrole
  · rw [State.writeReg_denied (installer_right hi hrole)]

theorem installer_denied (hc : CopyAt r ix) (hn : NarrowAt addr.toNat len (r.addr ix)) (hr : Reaches s rq role (r.addr ix)) :
    exec (.registerWrite rq addr len v) s = .next ((s.touchGate (r.addr ix)).denied.answer rq false .roleDenied 0 0).finish := by
  have hserve : s.serve rq role .bus (.write (v.setWidth 2048)) addr.toNat len = (.done .roleDenied 0, (s.touchGate (r.addr ix)).denied) := by
    rw [hn.serve hc hr, installer_serve hi hrole hc hn]
    rfl
  have hreq : s.request rq (.write (v.setWidth 2048)) addr.toNat len =
      (s.touchGate (r.addr ix)).denied.answer rq false .roleDenied 0 0 := by
    simp [State.request, hr.role, hserve, State.respond, State.refuse]
  exact congrArg (fun x => Host.Outcome.next (State.finish x)) hreq

end

theorem installer_space (hi : r.right = .installer) (hv : r.valid ix = true) : spaceOf (r.addr ix) = .register := by
  have hall : ∀ r ∈ installerRegs, 0x030000000000 ≤ r.place.1 ∧ r.place.1 + ixExt r.place.2 < 0x030500000000 := by decide
  have hb := RegName.addr_bounds hv
  obtain ⟨hl, hh⟩ := hall r (mem_installerRegs hi)
  exact spaceOf_eq_register (by omega) (by omega)

theorem unbound_denied (hr : s.roleOf rq = none) (hf : formRefusal rq (.write (v.setWidth 2048)) addr.toNat len = none)
    (ha : assigned rq (.write (v.setWidth 2048)) addr.toNat len = true) :
    exec (.registerWrite rq addr len v) s = .next (s.answer rq false .roleDenied 0 0).finish := by
  have hreq : s.request rq (.write (v.setWidth 2048)) addr.toNat len = s.answer rq false .roleDenied 0 0 := by
    simp [State.request, hr, hf, ha, State.respond, State.refuse]
  exact congrArg (fun x => Host.Outcome.next (State.finish x)) hreq

theorem nowhere_refused (hs : spaceOf addr.toNat = .register)
    (h : (len ≠ 4 ∧ len ≠ 8) ∨ addr.toNat % len ≠ 0 ∨ targetAt (addr.toNat / 8 * 8) = none) :
    exec (.registerWrite rq addr len v) s = .next (s.answer rq false .decodeError 0 0).finish := by
  have hreq : s.request rq (.write (v.setWidth 2048)) addr.toNat len = s.answer rq false .decodeError 0 0 := by
    by_cases hn : narrowOk addr.toNat len = true
    · have htarget : targetAt (addr.toNat / 8 * 8) = none := by
        simp only [narrowOk, Bool.and_eq_true, Bool.or_eq_true, beq_iff_eq] at hn
        obtain ⟨hlen, halign⟩ := hn
        exact (h.resolve_left (by omega)).resolve_left (by omega)
      have hform : formRefusal rq (.write (v.setWidth 2048)) addr.toNat len = none := by simp [formRefusal, hs, hn, isAdd]
      have hassigned : assigned rq (.write (v.setWidth 2048)) addr.toNat len = false := by simp [assigned, hs, htarget]
      cases hr : s.roleOf rq with
      | none => simp [State.request, hr, hform, hassigned, State.respond, State.refuse]
      | some role => simp [State.request, hr, State.serve, State.arrive, hform, hassigned, State.respond, State.refuse]
    · have hform : formRefusal rq (.write (v.setWidth 2048)) addr.toNat len = some .decodeError := by simp [formRefusal, hs, hn]
      cases hr : s.roleOf rq with
      | none => simp [State.request, hr, hform, State.respond, State.refuse]
      | some role => simp [State.request, hr, State.serve, State.arrive, hform, State.respond, State.refuse]
  exact congrArg (fun x => Host.Outcome.next (State.finish x)) hreq

/-- Settles O39: the way of a write by its width, a refusal by the first check that fails, and a field's bits by the masks. -/
theorem registerWrites : Obligations.RegisterWrites := by
  intro s rq role addr len v r ix plain c low stores answers
  refine ⟨fun hv ha hs => ⟨fun hm hr => ?_, fun hi hrole hr he => ?_⟩, fun hr hf ha => unbound_denied hr hf ha, fun hs h =>
    nowhere_refused hs h, fun h old f k hf hl hh => mergeWrite_field hf hl hh⟩
  · have hc : CopyAt r ix := ⟨hv, hs, ha⟩
    have hspace := plain_space hm hv
    have haddr : r.addr ix % 8 = 0 := addr_words r ix
    refine ⟨fun he => ⟨?_, ?_⟩, fun he => ?_⟩
    · exact plain_writes hm hc hr (by rw [he]; exact .whole hc hspace) rfl placed_full
    · exact plain_writes hm hc hr (by rw [he]; exact .lowHalf hc hspace) ((if_neg (by decide)).trans (if_pos (by omega))) placed_low
    · exact plain_writes hm hc hr (by rw [he]; exact .highHalf hc hspace) ((if_neg (by decide)).trans (if_neg (by omega))) placed_high
  · have hc : CopyAt r ix := ⟨hv, hs, ha⟩
    exact installer_denied hi hrole hc (by rw [he]; exact .whole hc (installer_space hi hv)) hr

end Sys2Proof.Machine
end

section
/-! The fabric within a step: context words, go, cells, completion, port A and the step limit (R29 to R51, R163): O41. -/

namespace Sys2Proof.Machine

variable {s t u : State} {x : Tile} {k : Fin 64} {c : Fin 16} {p : Fin 8} {tw : Tower} {b : Fin 256} {ecc : Ecc} {pads : BitVec 512}
  {n i j a : Nat} {h : W64} {f : Fired}

/-! ### The next context word -/

/-- What counted occurrences and events leave of the schedule. -/
theorem stepAhead_events (he : OnlyEvents s t) (hp : a < 64) : t.stepAhead n a i = s.stepAhead n a i := by
  have hkind {a : Nat} (ha : a < 64) : t.schedKind a = s.schedKind a :=
    congrArg (bitsOf · _ _) (he.reg _ _ (by simp [RegName.valid, RegName.place, ixValid, F.LAP_SCHED.KIND, ha]) (by decide))
  have hcount {a : Nat} : t.kindCount (s.schedKind a) = s.kindCount (s.schedKind a) := by
    have hlt : s.schedKind a < 8 := bitsOf_lt ..
    exact congrArg (bitsOf · _ _) (he.reg _ _ (by simp [RegName.valid, RegName.place, ixValid, F.LAP_KIND.COUNT, hlt]) (by decide))
  have hlast : t.lastEntry = s.lastEntry := by
    have hflag : ∀ i ∈ List.range 64, t.flag F.LAP_SCHED.LAST [i] = s.flag F.LAP_SCHED.LAST [i] := fun i hi => by
      have hi := List.mem_range.mp hi
      exact congrArg (fun v => bitsOf v _ _ != 0)
        (he.reg _ _ (by simp [RegName.valid, RegName.place, ixValid, F.LAP_SCHED.LAST, hi]) (by decide))
    rw [State.lastEntry, List.find?_congr hflag, State.lastEntry]
  have hlastlt : s.lastEntry ≤ 63 := by
    rw [State.lastEntry]
    cases hf : (List.range 64).find? fun i => s.flag F.LAP_SCHED.LAST [i] with
    | none => rfl
    | some i =>
      have := List.mem_range.mp (List.mem_of_find?_eq_some hf)
      exact Nat.le_of_lt_succ this
  induction n generalizing a i with
  | zero => rw [State.stepAhead, State.stepAhead, hkind hp]
  | succ n ih =>
    rw [State.stepAhead, State.stepAhead, hkind hp, hcount, hlast]
    split
    · rfl
    · exact ih (by split <;> omega)

theorem nextWord_events (he : OnlyEvents s t) : t.nextWord tw.val n = s.nextWord tw.val n := by
  have hreg {r : RegName} {ix : List Nat} {hi lo : Nat} (hv : r.valid ix = true) (hr : r ∉ eventRegs) :
      bitsOf (t.reg r ix) hi lo = bitsOf (s.reg r ix) hi lo := congrArg (bitsOf · _ _) (he.reg _ _ hv hr)
  have hpos : t.pos = s.pos := hreg (by decide) (by decide)
  have hlt : s.pos < 64 := bitsOf_lt ..
  have hkindlt : s.kind < 8 := bitsOf_lt ..
  have hkind : t.kind = s.kind := by
    rw [State.kind, hpos]
    exact hreg (by simp [RegName.valid, RegName.place, ixValid, F.LAP_SCHED.KIND, hlt]) (by decide)
  have hfold : t.lapFold = s.lapFold := by
    rw [State.lapFold, hkind]
    exact congrArg (· + 1) (hreg (by simp [RegName.valid, RegName.place, ixValid, F.LAP_KIND.COUNT, hkindlt]) (by decide))
  have hfab : t.fab = s.fab := by rw [he.rest]
  have hstep : t.step_ tw.val = s.step_ tw.val := hreg (by simp [RegName.valid, RegName.place, ixValid, F.TLC_STAT.STEP]) (by decide)
  have hopen : t.firstOpenStep tw.val = s.firstOpenStep tw.val := by
    rw [State.firstOpenStep, hfab, hfold, hstep, State.firstOpenStep]
  rw [State.nextWord, hpos, hopen, stepAhead_events he hlt, State.nextWord]

theorem acrossHeld_iff : s.acrossHeld a n = true ↔ s.lapFold ≤ s.firstOpenStep a + n ∧
    ((s.flag F.LOAD_STAT.ACT_PENDING = true ∧ (s.reg .ACT_AT = 0 ∨ s.flag F.LOAD_STAT.LATE = true ∨ s.reg .ACT_AT = s.lapNext)) ∨
      (s.lapFold = 1 ∧ s.firstOpenStep a = 0 ∧ s.stepIsOpen a = false)) := by
  simp [State.acrossHeld, State.beyondLap, State.activationNext, and_assoc, or_assoc]

/-! ### Context delivery -/

section
variable {y m q : Nat}

theorem deliverContext_none (h : s.lapsRun = false ∨ s.tileInUse y = false ∨ 2 ≤ (s.queueOf (pairKey y m q)).length ∨
    s.acrossHeld (towerOfTile y) (s.queueOf (pairKey y m q)).length = true) : s.deliverContext y m q ecc = s := by
  by_cases hlive : (!s.lapsRun || !s.tileInUse y || decide (2 ≤ (s.queueOf (pairKey y m q)).length) ||
      s.layerHeld (towerOfTile y) (if tileDie y % 2 = 0 then 2 else 5)) = true
  · exact if_pos hlive
  · refine (if_neg hlive).trans (if_pos ?_)
    simp only [Bool.or_eq_true, Bool.not_eq_true', decide_eq_true_eq, not_or] at hlive
    obtain ⟨⟨⟨hl, hu⟩, hq⟩, -⟩ := hlive
    exact ((h.resolve_left hl).resolve_left hu).resolve_left hq

variable (hl : s.lapsRun = true) (hu : s.tileInUse y = true) (hq : (s.queueOf (pairKey y m q)).length < 2)
  (hh : s.layerHeld (towerOfTile y) (if tileDie y % 2 = 0 then 2 else 5) = false)
  (ha : s.acrossHeld (towerOfTile y) (s.queueOf (pairKey y m q)).length = false)
include hl hu hq hh ha

theorem deliverContext_asleep (hs : s.serves (pdCfg (tileDie y)) = false) : s.deliverContext y m q ecc =
    s.lapWants [pdCfg (tileDie y)] (some (whereAt y m (s.nextWord (towerOfTile y) (s.queueOf (pairKey y m q)).length).2)) := by
  have hlive : ¬(!s.lapsRun || !s.tileInUse y || decide (2 ≤ (s.queueOf (pairKey y m q)).length) ||
      s.layerHeld (towerOfTile y) (if tileDie y % 2 = 0 then 2 else 5)) = true := by simp [hl, hu, hh, hq]
  exact (if_neg hlive).trans ((if_neg (by rw [ha]; decide)).trans (if_pos (by rw [hs]; rfl)))

variable (hs : s.serves (pdCfg (tileDie y)) = true)
include hs

theorem deliverContext_awake : s.deliverContext y m q ecc =
    (let next := s.nextWord (towerOfTile y) (s.queueOf (pairKey y m q)).length
     let slot := s.kindFirst next.1 + next.2
     let word := s.frameWord (s.phys y) slot (8 * m + q)
     let v := if ecc = .corrected then s.tally (towerOfTile y) 0x00B else s
     if s.frameBad (s.phys y) slot then s.scratch 4 (some (whereAt y m next.2))
     else if ecc = .uncorrectable then (s.markBad (s.phys y) slot).scratch 4 (some (whereAt y m next.2))
     else if invalidHalf m (2 * q) (halfOf word 0) || invalidHalf m (2 * q + 1) (halfOf word 1) then v.scratch 11 (some (whereAt y m next.2))
     else { v with fab := { v.fab with creditQ := v.fab.creditQ ++ [⟨towerOfTile y, pairKey y m q,
        (v.nextWord (towerOfTile y) (s.queueOf (pairKey y m q)).length).2, word⟩] } }) := by
  have hlive : ¬(!s.lapsRun || !s.tileInUse y || decide (2 ≤ (s.queueOf (pairKey y m q)).length) ||
      s.layerHeld (towerOfTile y) (if tileDie y % 2 = 0 then 2 else 5)) = true := by simp [hl, hu, hh, hq]
  refine (if_neg hlive).trans ((if_neg (by rw [ha]; decide)).trans ((if_neg (by rw [hs]; decide)).trans ?_))
  cases ecc <;> rfl

end

/-! ### Go -/

/-- The tower's next step begins: the pads are sampled, and the ports with an item are noted. -/
theorem stepGo_goes (hp : s.fab.phase = .steps) (ho : s.stepIsOpen tw = false) (hd : s.towerDone tw = false) (hf : s.fab.firstCause = 0)
    (hs : ∀ d ∈ s.stepDomains tw, s.serves d = true) (hw : s.waitsContext tw = false)
    (ht : ∀ y ∈ s.inUseOf tw, ∀ q < 512, ∀ h, s.headOf (y * 512 + q) = some h → h.tag = s.step_ tw) :
    let ports := ((s.inUseOf tw).flatMap fun y => [portKey y 0, portKey y 1]).filter fun q => (s.presented (q / 2) (q % 2)).isSome
    let g : State :=
      ({ s with
        pads := pads
        fab := { s.fab with
          stepOpen := listAdd s.fab.stepOpen tw
          present := s.fab.present.filter (fun q => towerOfTile (q / 2) != tw.val) ++ ports } } : State).put F.TLC_STAT.PHASE 2 [tw.val]
    s.stepGo tw pads = g.pinTokens (fun e => entrySlot e == g.stepSlot (s.step_ tw) && towerOfTile (entryTile e) == tw.val &&
      g.asyncEntry e) fun q => pads.getLsbD q := by
  intro ports g
  have hidle : ¬(s.fab.phase != .steps || s.stepIsOpen tw || s.towerDone tw || s.fab.firstCause != 0) = true := by
    simp [hp, ho, hd, hf]
  have hawake : ¬((s.stepDomains tw).any fun d => !s.serves d) = true := by
    simpa using hs
  have htags : ¬(((s.inUseOf tw).flatMap fun x => (List.range 512).filterMap fun p => s.headOf (x * 512 + p)).any
      fun e => e.tag != s.goStep tw) = true := by
    rw [List.any_eq_true]
    rintro ⟨e, he, hne⟩
    obtain ⟨y, hy, he⟩ := List.mem_flatMap.mp he
    obtain ⟨q, hq, he⟩ := List.mem_filterMap.mp he
    exact absurd (ht y hy q (List.mem_range.mp hq) e he) (by simpa [State.goStep] using hne)
  exact (if_neg hidle).trans ((if_neg hawake).trans ((if_neg (by rw [hw]; decide)).trans (if_neg htags)))

/-! ### Cells -/

section
variable {y m d : Nat}

theorem cellFire_idle {wrong : Bool} (h : s.context y m d = none ∨ s.firedCell (cellKey y m d) ≠ none) : s.cellFire y m d wrong = s := by
  rw [State.cellFire]
  split
  next => rfl
  next h' hc =>
    have hfired : (s.firedCell (cellKey y m d)).isSome = true := Option.isSome_iff_ne_none.mpr (h.resolve_left (by simp [hc]))
    exact if_pos (by simp [hfired])

variable (hc : s.context y m d = some h) (hf : s.firedCell (cellKey y m d) = none) (hu : s.tileInUse y = true) (hp : s.fab.phase = .steps)
include hc hf hu hp

theorem cellFire_wrong : s.cellFire y m d true = s.scratch 4 (some (whereAt y m (s.step_ (towerOfTile y)))) := by
  rw [State.cellFire, hc]
  exact (if_neg (by simp [hf, hu, hp])).trans (if_pos rfl)

theorem cellFire_waits (hi : s.inputs y m d h = none) : s.cellFire y m d false = s := by
  rw [State.cellFire, hc]
  refine (if_neg (by simp [hf, hu, hp])).trans ((if_neg (by decide)).trans ?_)
  rw [hi]

/-- The ports that the cell's half selects. -/
def portsUsed (h : W64) : List Nat := [0, 1].filter fun p => (selects h).contains (116 + p)

theorem cellFire_fires {ins : List Bool} (hi : s.inputs y m d h = some ins)
    (hg : ∀ q < 2, 116 + q ∈ selects h → ∀ i, s.presented y q = some i → i.poison = false) :
    s.cellFire y m d false = { s with fab := { s.fab with
      fired := s.fab.fired ++ [⟨cellKey y m d, lookup (s.funcEntry y m (funcOf h)) ins, ins.headD false⟩]
      consumed := ((portsUsed h).map (portKey y)).foldl listAdd s.fab.consumed
      polled := s.fab.polled || (selects h).contains 122 || (selects h).contains 123
      vaultLap := ((portsUsed h).flatMap fun p => ((s.presented y p).map fun i => i.lines).getD []).foldl listAdd s.fab.vaultLap } } := by
  have hgood : ¬([0, 1].any fun p => (selects h).contains (116 + p) && ((s.presented y p).map fun i => i.poison).getD false) = true := by
    rw [List.any_eq_true]
    rintro ⟨q, hq, hbad⟩
    rw [Bool.and_eq_true, List.contains_iff_mem] at hbad
    obtain ⟨hsel, hpoison⟩ := hbad
    have hlt : q < 2 := by
      simp only [List.mem_cons, List.not_mem_nil, or_false] at hq
      omega
    cases hpr : s.presented y q with
    | none => simp [hpr] at hpoison
    | some i => simp [hpr, hg q hlt hsel i hpr] at hpoison
  rw [State.cellFire, hc]
  refine (if_neg (by simp [hf, hu, hp])).trans ((if_neg (by decide)).trans ?_)
  rw [hi]
  exact if_neg hgood

end

theorem mem_listAdd_self {xs : List Nat} : n ∈ listAdd xs n := by
  unfold listAdd
  split
  next h => simpa using h
  next => simp

theorem mem_listAdd_of_mem {xs : List Nat} (h : i ∈ xs) : i ∈ listAdd xs n := by
  unfold listAdd
  split
  · exact h
  · exact List.mem_append_left _ h

theorem mem_foldl_listAdd {xs ys : List Nat} (h : i ∈ xs ∨ i ∈ ys) : i ∈ xs.foldl listAdd ys := by
  induction xs generalizing ys with
  | nil => simpa using h
  | cons a xs ih =>
    refine ih ?_
    rcases h with h | h
    · rcases List.mem_cons.mp h with rfl | h
      · exact .inr mem_listAdd_self
      · exact .inl h
    · exact .inr (mem_listAdd_of_mem h)

/-- A cell's write of a next-state bit: the bit, its mask bit, and the word's other bits. -/
theorem latchState_writes (hw : ssWe h = true) :
    let i := 16 * (f.cell % 1024) + wrIdx h
    let at_ := stateKey (s.phys (f.cell / 1024)) (i / 128)
    let u := s.latchState f h
    (Sparse.read u.fab.nextState at_).getLsbD (i % 128) = f.out ∧ (Sparse.read u.fab.wmask at_).getLsbD (i % 128) = true ∧
      ∀ j < 128, j ≠ i % 128 → (Sparse.read u.fab.nextState at_).getLsbD j = (Sparse.read s.fab.nextState at_).getLsbD j := by
  intro i at_ u
  have hi : i % 128 < 128 := Nat.mod_lt _ (by decide)
  have hu : u = { s with fab := { s.fab with
      nextState := Sparse.write s.fab.nextState at_ (setBits (Sparse.read s.fab.nextState at_) (i % 128) (i % 128) (b2n f.out))
      wmask := Sparse.write s.fab.wmask at_ (setBits (Sparse.read s.fab.wmask at_) (i % 128) (i % 128) 1) } } := if_neg (by simp [hw])
  rw [hu]
  dsimp only
  rw [Sparse.read_write_self, Sparse.read_write_self]
  refine ⟨?_, ?_, fun j hj hne => ?_⟩
  · rw [getLsbD_setBits _ _ _ _ _ le_rfl hi, if_pos ⟨le_rfl, le_rfl⟩, Nat.sub_self]
    cases f.out <;> rfl
  · rw [getLsbD_setBits _ _ _ _ _ le_rfl hi, if_pos ⟨le_rfl, le_rfl⟩, Nat.sub_self]
    rfl
  · rw [getLsbD_setBits _ _ _ _ _ le_rfl hj, if_neg (by omega)]

/-! ### A step's completion -/

theorem stepComplete_not (h : s.stepIsOpen tw = false ∨ ¬s.fab.phase = .steps ∨ (s.firedIn tw).length ≠ 1024 * (s.inUseOf tw).length) :
    s.stepComplete tw = s := by
  refine if_pos ?_
  simpa [or_assoc] using h

/-- The holds, next states and exports of the step are latched. -/
def State.latchedStep (s : State) (t : Nat) : State :=
  (s.firedIn t).foldl (fun u q => (u.latchState q.1 q.2).latchExport q.1 q.2)
    { s with fab := { s.fab with hold := (s.firedIn t).foldl (fun old q => holdNext q.2 q.1 old) s.fab.hold } }

/-- The step is over: its cells' outputs and words are gone. -/
def State.shutStep (s : State) (t : Nat) : State :=
  { s with fab := { s.fab with
      fired := s.fab.fired.filter fun f => towerOfTile (f.cell / 1024) != t
      creditQ := freeHeads (s.inUseOf t) s.fab.creditQ []
      stepOpen := listDrop s.fab.stepOpen t } }

/-- What the step sends: its groups and its port requests. -/
def State.sentStep (s : State) (w : State) (t : Nat) : State :=
  ((w.traceWait t (s.step_ t)).sendGroups (s.firedIn t) t (w.stepSlot (s.step_ t))).portRequests (s.firedIn t) t (s.step_ t)

/-- The steps of the tower are over for this lap. -/
def State.lastStep (s : State) (t : Nat) : State :=
  (({ s with fab := { s.fab with stepsDone := listAdd s.fab.stepsDone t } } : State).put F.TLC_STAT.PHASE 3 [t]).verify

/-- The step is over; `n` was its number, and `u` is the machine when it has sent what it sends. -/
def State.endStep (w u : State) (t n : Nat) (tooLong : Bool) : State :=
  if tooLong then w.scratch 11 (some { tower := t, step := n })
  else if u.fab.phase != .steps then u
  else if n + 1 < u.lapFold then u.put F.TLC_STAT.STEP (n + 1) [t]
  else u.lastStep t

theorem shutStep_eq : s.shutStep n = { s with fab := { s.fab with
    fired := s.fab.fired.filter fun f => towerOfTile (f.cell / 1024) != n
    creditQ := freeHeads (s.inUseOf n) s.fab.creditQ []
    stepOpen := s.fab.stepOpen.filter (· ≠ n) } } := by
  rw [State.shutStep, listDrop_eq]

section
variable (ho : s.stepIsOpen n = true) (hp : s.fab.phase = .steps) (hf : (s.firedIn n).length = 1024 * (s.inUseOf n).length)
include ho hp hf

theorem stepComplete_eq : s.stepComplete n = (((s.latchedStep n).shutStep n).tally n 0x002).endStep
    (s.sentStep (((s.latchedStep n).shutStep n).tally n 0x002) n) n (s.step_ n)
    ((s.latchedStep n).fab.collectors.any fun c => towerOfTile c.flowTile == n && decide (512 < c.bits.length)) := by
  rw [State.stepComplete]
  extract_lets fab held latched tooLong tiles fab' shut w u fab'' last
  have hlatched : latched = s.latchedStep n := rfl
  have hshut : shut = latched.shutStep n := rfl
  have hlast : (last.put F.TLC_STAT.PHASE 3 [n]).verify = u.lastStep n := rfl
  have hend : w.endStep u n (s.step_ n) tooLong = (((s.latchedStep n).shutStep n).tally n 0x002).endStep
      (s.sentStep (((s.latchedStep n).shutStep n).tally n 0x002) n) n (s.step_ n)
      ((s.latchedStep n).fab.collectors.any fun c => towerOfTile c.flowTile == n && decide (512 < c.bits.length)) := by
    rw [← hlatched, ← hshut]
    rfl
  rw [if_neg (by simp [ho, hp, hf]), hlast, ← hend]
  rfl

theorem stepComplete_tooLong
    (hc : ∃ q ∈ (s.latchedStep n).fab.collectors, towerOfTile q.flowTile = n ∧ 512 < q.bits.length) :
    s.stepComplete n = (((s.latchedStep n).shutStep n).tally n 0x002).scratch 11 (some { tower := n, step := s.step_ n }) := by
  rw [stepComplete_eq ho hp hf]
  obtain ⟨q, hq, ht, hl⟩ := hc
  exact if_pos (List.any_eq_true.mpr ⟨q, hq, by simp [ht, hl]⟩)

variable (hc : ∀ q ∈ (s.latchedStep n).fab.collectors, towerOfTile q.flowTile = n → q.bits.length ≤ 512)
  (hu : u = s.sentStep (((s.latchedStep n).shutStep n).tally n 0x002) n) (hs : u.fab.phase = .steps)
include hc hu hs

theorem stepComplete_next (hn : s.step_ n + 1 < u.lapFold) : s.stepComplete n = u.put F.TLC_STAT.STEP (s.step_ n + 1) [n] := by
  rw [stepComplete_eq ho hp hf, ← hu]
  exact (if_neg (by simpa using hc)).trans ((if_neg (by simp [hs])).trans (if_pos hn))

theorem stepComplete_last (hn : u.lapFold ≤ s.step_ n + 1) : s.stepComplete n = u.lastStep n := by
  rw [stepComplete_eq ho hp hf, ← hu]
  exact (if_neg (by simpa using hc)).trans ((if_neg (by simp [hs])).trans (if_neg (by omega)))

end

/-! ### Port A, and the step limit -/

theorem answerRead_first {before after : List PortRead} {r : PortRead} {v : Quad} (hb : ∀ q ∈ before, q.bank = n → q.data ≠ none)
    (hr : r.bank = n) (hd : r.data = none) :
    answerRead n v (before ++ r :: after) = before ++ { r with data := some v } :: after := by
  induction before with
  | nil => exact if_pos ⟨hr, hd⟩
  | cons q before ih =>
    obtain ⟨hq, hb⟩ := List.forall_mem_cons.mp hb
    exact (if_neg fun h => hq h.1 h.2).trans (congrArg (q :: ·) (ih hb))

theorem upset_fabricPort {b : Bool} : (s.upset a b).fabricPort n i = s.fabricPort n i := by
  have hregs : (s.upset a b).regs = s.regs := by
    unfold State.upset
    dsimp only
    split <;> split <;> rfl
  rw [State.fabricPort, State.flag, State.fld, State.reg, hregs]
  rfl

theorem portAReturn_none (h : ∀ r ∈ s.fab.portReads, r.bank = 256 * n + i → r.data ≠ none) : s.portAReturn n i ecc = s := by
  have hnone : (s.fab.portReads.find? fun r => r.bank == 256 * n + i && r.data.isNone) = none := by
    rw [List.find?_eq_none]
    intro r hr hbad
    rw [Bool.and_eq_true, beq_iff_eq, Option.isNone_iff_eq_none] at hbad
    exact h r hr hbad.1 hbad.2
  rw [State.portAReturn, hnone]

section
variable {r : PortRead} (hr : s.fab.portReads.find? (fun r => r.bank == 256 * n + i && r.data.isNone) = some r)
  (hs : s.serves (pdQuad n i) = true) (hh : s.layerHeld n 1 = false)
include hr hs hh

theorem portAReturn_good (hb : s.memBadAt (bankBase n i + 16 * r.word) = false) (ho : s.memSoftAt (bankBase n i + 16 * r.word) = false) :
    s.portAReturn n i .good = { s with fab := { s.fab with
      portReads := answerRead (256 * n + i) (s.memWordAt (bankBase n i + 16 * r.word)) s.fab.portReads
      vaultLap := (s.bankLines (256 * n + i)).foldl listAdd s.fab.vaultLap } } := by
  rw [State.portAReturn, hr]
  refine (if_neg (by simp [hs, hh])).trans ((if_neg (by simp [hb])).trans ?_)
  rw [if_neg (show ¬Ecc.good = .corrected by decide)]
  dsimp only
  rw [if_neg (by simp [ho])]

theorem portAReturn_bad : s.portAReturn n i .uncorrectable =
    ((s.upset (bankBase n i + 16 * r.word) true).bankError n i (bankBase n i + 16 * r.word) true (s.bankSource n i)
      (s.fabricPort n i)).scratch 4 (some { tower := n, step := s.step_ n }) := by
  rw [State.portAReturn, hr]
  refine (if_neg (by simp [hs, hh])).trans ((if_pos (by simp)).trans ?_)
  rw [if_pos rfl]
  dsimp only
  rw [upset_fabricPort]

end

theorem exec_stepLimitExpiry (hp : s.fab.phase = .steps) (hd : s.towerDone tw = false) (hl : s.fld F.FABRIC_LIMITS.STEP_LIMIT ≠ 0)
    (hc : s.stepIsOpen tw = true → (s.firedIn tw).length ≠ 1024 * (s.inUseOf tw).length) (hw : s.waitsExternal tw = false) :
    exec (.stepLimitExpiry tw) s = .next (s.scratch 11 (some { tower := tw, step := s.step_ tw })).settle := by
  refine if_pos ?_
  simpa [hp, hd, hl, hw, imp_iff_not_or] using hc

theorem tower_lt : towerOfTile (tileKey x) < 4 := by
  have := x.die.isLt
  have := x.row.isLt
  have := x.col.isLt
  unfold towerOfTile tileDie tileKey tileNo
  omega

/-- The word reaches its pair. -/
def deliverWord (s : State) (t pk tag : Nat) (word : Quad) : State :=
  { s with fab := { s.fab with creditQ := s.fab.creditQ ++ [⟨t, pk, tag, word⟩] } }

/-- Settles O41: each command by the checks in their order; a step's completion by what it latches, ends and sends. -/
theorem fabricCommands : Obligations.FabricCommands := by
  intro s x k c p t b ecc pads tile tower queued next slot word malformed sends deliver ck n fs stepping incomplete key
  have hnext (u : State) : exec (.contextDelivery x k p ecc) s = .next u.settle ↔ sends u := Iff.rfl
  have hsends {u : State} (h : s.deliverContext tile k.val p.val ecc = u) : sends u :=
    congrArg (fun x => Host.Outcome.next (State.settle x)) h
  refine ⟨fun h => hsends (deliverContext_none h), fun hl hu hq hh ha => ⟨fun hs => hsends (deliverContext_asleep hl hu hq hh ha hs),
    fun hs hb => hsends ((deliverContext_awake hl hu hq hh ha hs).trans (if_pos hb))⟩, acrossHeld_iff, fun hl hu hq hh ha hs hb => ?_,
    fun hp ho hd hf hs hw ht => congrArg (fun x => Host.Outcome.next (State.settle x)) (stepGo_goes hp ho hd hf hs hw ht),
    fun h ins hc hf hu hp hi hg => ?_, fun h => congrArg Host.Outcome.next (cellFire_idle h), fun h hc hf hu hp =>
      ⟨congrArg (fun x => Host.Outcome.next (State.settle x)) (cellFire_wrong hc hf hu hp), fun hi =>
        congrArg Host.Outcome.next (cellFire_waits hc hf hu hp hi)⟩, fun f h hw => latchState_writes hw,
    fun h => congrArg (fun x => Host.Outcome.next (State.settleV x)) (stepComplete_not h), fun ho hp hf => ?_, fun r hr hs hh => ⟨?_, ?_⟩,
    fun before after r v hb hr hd => answerRead_first hb hr hd, fun h =>
      congrArg (fun x => Host.Outcome.next (State.settleV x)) (portAReturn_none h), exec_stepLimitExpiry⟩
  · have hawake := deliverContext_awake (ecc := ecc) hl hu hq hh ha hs
    have hbad : (invalidHalf k.val (2 * p.val) (halfOf word 0) || invalidHalf k.val (2 * p.val + 1) (halfOf word 1)) = true ↔ malformed :=
      Bool.or_eq_true_iff
    refine ⟨fun he => hsends (hawake.trans ((if_neg (by rw [hb]; decide)).trans (if_pos he))), fun he hm => ?_, fun he hm => ?_,
      fun he hm => ?_⟩
    · subst he
      exact hsends (hawake.trans ((if_neg (by rw [hb]; decide)).trans ((if_neg (by decide)).trans (if_pos (hbad.mpr hm)))))
    · subst he
      exact hsends (hawake.trans ((if_neg (by rw [hb]; decide)).trans ((if_neg (by decide)).trans (if_neg (mt hbad.mp hm)))))
    · subst he
      have htower : tower < 4 := tower_lt
      have hword : (s.tally tower 0x00B).nextWord tower queued = next :=
        nextWord_events (tw := ⟨tower, htower⟩) (OnlyEvents.tally (by omega))
      refine hsends (hawake.trans ((if_neg (by rw [hb]; decide)).trans ((if_neg (by decide)).trans ((if_neg (mt hbad.mp hm)).trans ?_))))
      exact congrArg (fun a => deliverWord (s.tally tower 0x00B) tower (pairKey tile k p) a.2 word) hword
  · have hfire := cellFire_fires hc hf hu hp hi hg
    refine ⟨s.cellFire tile k c false, rfl, ?_⟩
    rw [hfire]
    refine ⟨⟨_, rfl, rfl, rfl, rfl⟩, fun q hq hsel => mem_foldl_listAdd (.inl (List.mem_map_of_mem ?_)), rfl, rfl⟩
    exact List.mem_filter.mpr ⟨by simp; omega, by simpa using hsel⟩
  · have hf : fs.length = 1024 * (s.inUseOf t).length := not_not.mp hf
    intro held latched shut w u
    have hshut : shut = latched.shutStep t := shutStep_eq.symm
    clear_value shut
    subst hshut
    have hsent : u = s.sentStep w t := rfl
    clear_value u
    refine ⟨fun hc => ?_, fun hc hs => ⟨fun hn => ?_, fun hn => ?_⟩⟩
    · exact congrArg (fun x => Host.Outcome.next (State.settleV x)) (stepComplete_tooLong ho hp hf hc)
    · exact congrArg (fun x => Host.Outcome.next (State.settleV x)) (stepComplete_next ho hp hf hc hsent hs hn)
    · exact congrArg (fun x => Host.Outcome.next (State.settleV x)) (stepComplete_last ho hp hf hc hsent hs hn)
  · intro he hb ho
    subst he
    exact congrArg (fun x => Host.Outcome.next (State.settleV x)) (portAReturn_good hr hs hh hb ho)
  · intro he
    subst he
    exact congrArg (fun x => Host.Outcome.next (State.settleV x)) (portAReturn_bad hr hs hh)

end Sys2Proof.Machine
end

section
/-! SUPPORT. What pushes by the device's own producers, trace and log records and discarded laps leave of the fabric, the Referee and the
memories (R54, R57, R154, R187). -/

namespace Sys2Proof.Machine

variable {s t u : State} {r : RegName} {rs : List RegName} {ix : List Nat} {f : Fld} {v : W64} {n k q d tw ev kind entry : Nat} {e : Eng}
  {x : Item} {lines : List Nat} {lap data : W64} {cause : Byte} {w : Option Where}

/-! ### The fabric and the Referee stand as they stood -/

/-- The fabric and the Referee are as before. -/
structure FabRef (s t : State) : Prop where
  fab : t.fab = s.fab
  ref : t.ref = s.ref

theorem FabRef.refl : FabRef s s := ⟨rfl, rfl⟩

theorem FabRef.trans (h : FabRef s t) (k : FabRef t u) : FabRef s u := ⟨k.fab.trans h.fab, k.ref.trans h.ref⟩

theorem FabRef.of_onlyEvents (h : OnlyEvents s t) : FabRef s t := ⟨by rw [h.rest], by rw [h.rest]⟩

theorem FabRef.setReg : FabRef s (s.setReg r ix v) := ⟨rfl, rfl⟩

theorem FabRef.put : FabRef s (s.put f n ix) := ⟨rfl, rfl⟩

theorem FabRef.count : FabRef s (s.count f ix n) := ⟨rfl, rfl⟩

theorem FabRef.foldl {α : Type} {g : State → α → State} (l : List α) (h : ∀ s a, FabRef s (g s a)) : FabRef s (l.foldl g s) := by
  induction l generalizing s with
  | nil => exact .refl
  | cons a l ih => exact (h s a).trans ih

theorem FabRef.setCredits : FabRef s (s.setCredits q n) := ⟨rfl, rfl⟩

theorem FabRef.memStore {a : Nat} {w : Quad} : FabRef s (s.memStore a w) := by
  unfold State.memStore
  dsimp only
  split <;> split <;> exact ⟨rfl, rfl⟩

theorem FabRef.watermark : FabRef s (s.watermark q) := by
  have hput {b : Bool} : FabRef s (s.put F.Q_STAT.HIGH (b2n b) [q]) := .put
  unfold State.watermark
  dsimp only
  split
  · split
    · exact hput.trans (.of_onlyEvents (OnlyEvents.edge.trans .hostEvent))
    · exact hput.trans (.of_onlyEvents .edge)
  · split
    · split
      · exact hput.trans (.of_onlyEvents (OnlyEvents.edge.trans .hostEvent))
      · exact hput.trans (.of_onlyEvents .edge)
    · exact hput

theorem FabRef.appendItem : FabRef s (s.appendItem q x lines) := by
  have hstore : FabRef s (s.storeItem q x lines) := by
    unfold State.storeItem
    exact (FabRef.foldl _ fun _ _ => .memStore).trans ⟨rfl, rfl⟩
  exact (hstore.trans .put).trans .watermark

theorem FabRef.autoPush (h : s.autoPush q x = some t) : FabRef s t := by
  unfold State.autoPush at h
  have hgrant : FabRef s (if s.credits q = 0 then s.grant q 1 else s) := by
    split
    · exact .setCredits
    · exact .refl
  dsimp only at h
  generalize (if s.credits q = 0 then s.grant q 1 else s) = g at h hgrant
  split at h
  · simp at h
  · cases h
    exact hgrant.trans (FabRef.setCredits.trans .appendItem)

theorem FabRef.errRecord {o : Option Nat} {y z i : Nat} {p : Resp} {a : W64} : FabRef s (s.errRecord o y p z i a) := by
  unfold State.errRecord
  split
  · exact .count
  · split
    · split
      · exact .autoPush ‹_›
      · exact .count
    · exact .count

theorem FabRef.faultQueue {y : Nat} {p : Resp} {a : W64} : FabRef s (s.faultQueue q y p a) := by
  unfold State.faultQueue
  split
  · exact .refl
  · exact (FabRef.setCredits.trans .put).trans .errRecord

theorem FabRef.takeCell : FabRef s (s.takeCell q d) := by
  have hfree : FabRef s (s.freeCell q d) := FabRef.trans (t := s.setSlots q ((s.slots q).eraseIdx d)) ⟨rfl, rfl⟩ (FabRef.put.trans .watermark)
  unfold State.takeCell
  split
  · exact hfree.trans .faultQueue
  · exact hfree

theorem FabRef.trace : FabRef s (s.trace tw ev kind entry lap data) := by
  have hspend : FabRef s s.spend := ⟨rfl, rfl⟩
  unfold State.trace
  dsimp only
  split
  · exact .refl
  · split
    · split
      · exact hspend.trans ((FabRef.autoPush ‹_›).trans .count)
      · exact hspend.trans .count
    · exact .count

theorem FabRef.traceAll {g : Nat → W64} : FabRef s (s.traceAll ev lap g) := .foldl _ fun _ _ => .trace

theorem FabRef.traceLast {g : Nat → W64} : FabRef s (s.traceLast ev g) := .foldl _ fun _ _ => .trace

theorem FabRef.writeLog {l : List Item} : FabRef s (s.writeLog l) := by
  have hpush {s : State} {r : Item} {q : Nat} : FabRef s ((s.autoPush q r).getD s) := by
    cases h : s.autoPush q r with
    | none => exact .refl
    | some t => exact .autoPush h
  unfold State.writeLog
  dsimp only
  split
  · exact (FabRef.foldl _ fun _ _ => hpush).trans ⟨rfl, rfl⟩
  · exact .count

/-! ### Counted occurrences in a tower that is none -/

/-- Lap events are counted in the towers alone. -/
theorem OnlyEvents.tallyTower (he : ev / 0x100 = 0) : OnlyEvents s (s.tally n ev k) := by
  by_cases hn : n < 4
  · exact .tally (by omega)
  · have hnone : s.countersOf n ev = [] := by
      refine if_pos (.inr (.inr (.inl ?_)))
      rw [unitRange, he, if_neg hn]
      split <;> [rfl; (split <;> rfl)]
    unfold State.tally State.tallyVia
    rw [hnone]
    split <;> exact .refl s

/-! ### No trace records while no tower traces -/

/-- Every tower's trace is off. -/
def State.Untraced (s : State) : Prop := ∀ t < 4, s.flag F.TRACE_CTRL.EN [t] = false

theorem State.Untraced.of_keeps (h : s.Untraced) (k : Keeps s t rs) (hr : RegName.TRACE_CTRL ∉ rs) : t.Untraced := fun i hi => by
  have hv : RegName.TRACE_CTRL.valid [i] = true := by simp [RegName.valid, RegName.place, ixValid, hi]
  exact (congrArg (fun v => bitsOf v _ _ != 0) (k.reg .TRACE_CTRL _ hv hr (by decide))).trans (h i hi)

theorem State.Untraced.traceAll {g : Nat → W64} (h : s.Untraced) : s.traceAll ev lap g = s :=
  List.foldlRecOn (List.range 4) (fun s t => s.trace t ev s.kind s.pos lap (g t)) (motive := fun u => u = s) rfl fun u hu i hi => by
    subst hu
    exact if_pos (by rw [h i (List.mem_range.mp hi)]; rfl)

theorem State.Untraced.traceLast {g : Nat → W64} (h : s.Untraced) : s.traceLast ev g = s :=
  List.foldlRecOn (List.range 4) (fun s t => s.trace t ev s.fab.lastKind s.fab.lastEntry s.lapCount (g t)) (motive := fun u => u = s) rfl
    fun u hu i hi => by
      subst hu
      exact if_pos (by rw [h i (List.mem_range.mp hi)]; rfl)

end Sys2Proof.Machine
end

section
/-! SUPPORT. Writes that take effect at a boundary, a lap that is discarded, and laps that halt (R57, R60, R131 to R133). -/

namespace Sys2Proof.Machine

variable {s t u : State} {r : RegName} {rs : List RegName} {ix : List Nat} {f : Fld} {v : W64} {n k q ev : Nat} {h : Half}
  {cause : Byte} {w : Option Where} {b c : Bool}

/-! ### Waiting writes take effect -/

/-- The registers whose writes wait for a boundary, TRACE_CTRL apart, and what they set anew. -/
def appliedRegs : List RegName := [.TRIG_CTRL, .TRIG_ADDR, .TRIG_MASK, .TRIG_VALUE, .LOG_CTRL, .BENCH, .TRIG_MATCHES]

/-- Nothing but such registers has changed, with the words that triggers compare with, the context words and the log's marks. -/
structure Applied (s t : State) : Prop where
  regs : KeepsRegs s t appliedRegs
  rest : t = { s with
    regs := t.regs
    log := t.log
    fab := { s.fab with trigPrev := t.fab.trigPrev, creditQ := t.fab.creditQ, boundaryWrites := t.fab.boundaryWrites } }

theorem Applied.refl : Applied s s := ⟨.refl, rfl⟩

theorem Applied.trans (h : Applied s t) (k : Applied t u) : Applied s u := by
  refine ⟨h.regs.trans k.regs, ?_⟩
  rw [k.rest, h.rest]

theorem Applied.foldl_mem {α : Type} {g : State → α → State} (l : List α) (h : ∀ s, ∀ a ∈ l, Applied s (g s a)) :
    Applied s (l.foldl g s) := by
  induction l generalizing s with
  | nil => exact .refl
  | cons a l ih => exact (h s a (by simp)).trans (ih fun s b hb => h s b (by simp [hb]))

theorem Applied.setReg (hr : r ∈ appliedRegs) (hv : r.valid ix = true) : Applied s (s.setReg r ix v) := ⟨.setReg hr hv, rfl⟩

theorem Applied.latchTrig : Applied s (s.latchTrig n) := ⟨.of_regs rfl, rfl⟩

theorem Applied.log {l : Log} : Applied s { s with log := l } := ⟨.of_regs rfl, rfl⟩

theorem Applied.applyWrite (hw : waitsBoundary r = true) (ht : r ≠ .TRACE_CTRL) (hv : r.valid ix = true) : Applied s (s.applyWrite r ix h v) := by
  have hm : r ∈ appliedRegs := by
    revert hw ht
    cases r <;> decide
  have hset {s : State} {x : W64} : Applied s (s.setReg r ix x) := .setReg hm hv
  unfold State.applyWrite
  dsimp only
  split
  · split
    · refine hset.trans (Applied.trans (.setReg (by decide) ?_) .latchTrig)
      exact hv
    · exact hset
  · exact hset.trans .latchTrig
  · have hlog {s : State} {p : Prop} [Decidable p] {l : Log} : Applied s (if p then { s with log := l } else s) := by
      split
      · exact .log
      · exact .refl
    exact (hset.trans hlog).trans hlog
  · split
    · exact .refl
    · exact hset.trans ⟨.of_regs rfl, rfl⟩
  · exact hset

theorem Applied.applyDue {due : RegName → Bool} (hd : due .TRACE_CTRL = false) : Applied s (s.applyDue due) := by
  unfold State.applyDue
  extract_lets mine rest
  have hrest : Applied s { s with fab := { s.fab with boundaryWrites := rest } } := ⟨.of_regs rfl, rfl⟩
  refine hrest.trans (.foldl_mem _ fun s a ha => ?_)
  obtain ⟨p, -, hp⟩ := List.mem_filterMap.mp ha
  obtain ⟨q, hq, hsome⟩ := Option.bind_eq_some_iff.mp hp
  split at hsome
  next hcond =>
    rw [Bool.and_eq_true] at hcond
    cases hsome
    refine .applyWrite hcond.1 (fun he => ?_) (regAt_sound hq).1
    rw [he] at hcond
    exact absurd hcond.2 (by rw [hd]; decide)
  next => cases hsome

theorem Applied.keeps (h : Applied s t) : Keeps s t appliedRegs :=
  ⟨fun r ix hv hr _ => h.regs r ix hv hr, by rw [h.rest], by rw [h.rest]⟩

/-! ### The buffers of a lap -/

/-- The committed state and the buffers of the lap are as before. -/
structure BuffersKept (s t : State) : Prop where
  committed : t.fab.committed = s.fab.committed
  nextState : t.fab.nextState = s.fab.nextState
  wmask : t.fab.wmask = s.fab.wmask
  commitBuf : t.fab.commitBuf = s.fab.commitBuf
  collectors : t.fab.collectors = s.fab.collectors
  consumed : t.fab.consumed = s.fab.consumed

theorem BuffersKept.trans (h : BuffersKept s t) (k : BuffersKept t u) : BuffersKept s u :=
  ⟨k.committed.trans h.committed, k.nextState.trans h.nextState, k.wmask.trans h.wmask, k.commitBuf.trans h.commitBuf,
    k.collectors.trans h.collectors, k.consumed.trans h.consumed⟩

theorem BuffersKept.of_fab (h : t.fab = s.fab) : BuffersKept s t := by
  constructor <;> rw [h]

theorem BuffersKept.applied (h : Applied s t) : BuffersKept s t := by
  constructor <;> rw [h.rest]

theorem BuffersKept.foldl {α : Type} {g : State → α → State} (l : List α) (h : ∀ s a, BuffersKept s (g s a)) :
    BuffersKept s (l.foldl g s) := by
  induction l generalizing s with
  | nil => exact .of_fab rfl
  | cons a l ih => exact (h s a).trans ih

/-! ### Laps halt -/

/-- The laps are over; the registers that show it are still to be written. -/
def State.lapsOver (s : State) (cause : Byte) : State :=
  { s with
    ref := { s.ref with cause := cause }
    fab := { s.fab with phase := .halted, stopAsked := false, single := false, retries := 0, firstCause := 0, stepOpen := [],
                        stepsDone := [], committing := false, sampled := false, creditQ := [] }
    chain := { s.chain with readySent := false, doneSent := false, readyFrom := [], doneFrom := [], hcauseHeld := 0, hcauseFrom := 0,
                            stopHeld := false, decided := false, mismatch := false, singleLap := false } }

/-- The registers that show that laps have halted. -/
def State.showHalt (s : State) (b : Bool) : State :=
  (List.range 4).foldl (fun s t => s.put F.TLC_STAT.PHASE 0 [t])
    (((s.put F.LAP_STAT.RETRY_HALT (b2n b)).put F.CHAIN_STAT.STATE 0).put F.CHAIN_STAT.UNDECIDED 0)

/-- The trace record of the halt. -/
def State.traceHalt (s : State) (cause : Byte) (c : Bool) : State :=
  if c then s.traceAll 3 s.lapNext fun _ => cause.setWidth 64 else s.traceLast 3 fun _ => cause.setWidth 64

/-- The writes and the microcode swap that waited take effect. -/
def State.applyAtHalt (s : State) : State :=
  let t := if s.benchWaits then (s.applyDue (· != .TRACE_CTRL)).traceBench else s.applyDue (· != .TRACE_CTRL)
  let t := if t.mc.swapPending then t.mcSwap else t
  t.edge 1 fun _ => true

theorem haltLaps_eq : s.haltLaps cause b c = (((s.lapsOver cause).showHalt b).traceHalt cause c).applyAtHalt := rfl

theorem tlcStat_valid (hn : n < 4) : RegName.TLC_STAT.valid [n] = true := by
  simp [RegName.valid, RegName.place, ixValid, hn]

theorem showHalt_fabRef : FabRef s (s.showHalt b) :=
  ((FabRef.put.trans .put).trans .put).trans (.foldl _ fun _ _ => .put)

/-- The registers that halting laps write, but for those of the writes that waited. -/
def haltRegs : List RegName := [.LAP_STAT, .CHAIN_STAT, .TLC_STAT]

theorem Keeps.foldl_mem {α : Type} {g : State → α → State} (l : List α) (h : ∀ s, ∀ a ∈ l, Keeps s (g s a) rs) :
    Keeps s (l.foldl g s) rs := by
  induction l generalizing s with
  | nil => exact .refl
  | cons a l ih => exact (h s a (by simp)).trans (ih fun s b hb => h s b (by simp [hb]))

theorem showHalt_keeps : Keeps s (s.showHalt b) haltRegs :=
  (((Keeps.put (by decide) rfl).trans (.put (by decide) rfl)).trans (.put (by decide) rfl)).trans
    (.foldl_mem _ fun _ _ ht => .put (by decide) (tlcStat_valid (List.mem_range.mp ht)))

theorem traceHalt_fabRef : FabRef s (s.traceHalt cause c) := by
  unfold State.traceHalt
  split
  · exact .traceAll
  · exact .traceLast

theorem traceHalt_keepsRegs : KeepsRegs s (s.traceHalt cause c) traceRegs := by
  unfold State.traceHalt
  split
  · exact .foldl_mem _ fun _ _ ht => State.trace_keepsRegs (List.mem_range.mp ht)
  · exact State.traceLast_keepsRegs

theorem State.Untraced.traceHalt (h : s.Untraced) : s.traceHalt cause c = s := by
  unfold State.traceHalt
  split
  · exact h.traceAll
  · exact h.traceLast

theorem applyDue_waiting : Applied s (s.applyDue (· != .TRACE_CTRL)) := .applyDue rfl

/-- What halting leaves of the buffers, the phase and the cause. -/
theorem applyAtHalt_kept : BuffersKept s s.applyAtHalt ∧ s.applyAtHalt.fab.phase = s.fab.phase ∧ s.applyAtHalt.ref.cause = s.ref.cause := by
  have happly : BuffersKept s (s.applyDue (· != .TRACE_CTRL)) ∧ (s.applyDue (· != .TRACE_CTRL)).fab.phase = s.fab.phase ∧
      (s.applyDue (· != .TRACE_CTRL)).ref.cause = s.ref.cause :=
    ⟨.applied applyDue_waiting, by rw [applyDue_waiting.rest], by rw [applyDue_waiting.rest]⟩
  have htrace {t : State} : BuffersKept t t.traceBench ∧ t.traceBench.fab.phase = t.fab.phase ∧ t.traceBench.ref.cause = t.ref.cause := by
    have hk : FabRef t t.traceBench := .traceLast
    exact ⟨.of_fab hk.fab, by rw [hk.fab], by rw [hk.ref]⟩
  have hswap {t : State} : BuffersKept t (if t.mc.swapPending then t.mcSwap else t) ∧
      (if t.mc.swapPending then t.mcSwap else t).fab.phase = t.fab.phase ∧
      (if t.mc.swapPending then t.mcSwap else t).ref.cause = t.ref.cause := by
    split
    · exact ⟨.of_fab rfl, rfl, rfl⟩
    · exact ⟨.of_fab rfl, rfl, rfl⟩
  have hedge {t : State} : BuffersKept t (t.edge 1 fun _ => true) ∧ (t.edge 1 fun _ => true).fab.phase = t.fab.phase ∧
      (t.edge 1 fun _ => true).ref.cause = t.ref.cause := ⟨.of_fab rfl, rfl, rfl⟩
  unfold State.applyAtHalt
  dsimp only
  split
  · exact ⟨((happly.1.trans htrace.1).trans hswap.1).trans hedge.1, by rw [hedge.2.1, hswap.2.1, htrace.2.1, happly.2.1],
      by rw [hedge.2.2, hswap.2.2, htrace.2.2, happly.2.2]⟩
  · exact ⟨(happly.1.trans hswap.1).trans hedge.1, by rw [hedge.2.1, hswap.2.1, happly.2.1], by rw [hedge.2.2, hswap.2.2, happly.2.2]⟩

theorem mcSwap_keeps : Keeps s (if s.mc.swapPending then s.mcSwap else s) rs := by
  split
  · exact .of_regs rfl rfl rfl
  · exact .refl

theorem applyAtHalt_keepsRegs : KeepsRegs s s.applyAtHalt (appliedRegs ++ traceRegs) := by
  have happly : KeepsRegs s (s.applyDue (· != .TRACE_CTRL)) (appliedRegs ++ traceRegs) := applyDue_waiting.regs.mono (by decide)
  have htrace {t : State} : KeepsRegs t t.traceBench (appliedRegs ++ traceRegs) := State.traceLast_keepsRegs.mono (by decide)
  have hswap {t : State} : KeepsRegs t (if t.mc.swapPending then t.mcSwap else t) (appliedRegs ++ traceRegs) := by
    split
    · exact .of_regs rfl
    · exact .refl
  have hedge {t : State} : KeepsRegs t (t.edge 1 fun _ => true) (appliedRegs ++ traceRegs) := .of_regs rfl
  unfold State.applyAtHalt
  dsimp only
  split
  · exact (happly.trans htrace).trans (hswap.trans hedge)
  · exact happly.trans (hswap.trans hedge)

theorem State.Untraced.applyAtHalt (h : s.Untraced) : Keeps s s.applyAtHalt appliedRegs := by
  have happly : Keeps s (s.applyDue (· != .TRACE_CTRL)) appliedRegs := applyDue_waiting.keeps
  have hbench : (s.applyDue (· != .TRACE_CTRL)).traceBench = s.applyDue (· != .TRACE_CTRL) :=
    (h.of_keeps happly (by decide)).traceLast
  have hedge {t : State} : Keeps t (t.edge 1 fun _ => true) appliedRegs := .of_onlyEvents .edge
  unfold State.applyAtHalt
  dsimp only
  rw [hbench, ite_self]
  exact happly.trans (mcSwap_keeps.trans hedge)

/-- The laps have halted with the cause, and the buffers are as they were. -/
theorem haltLaps_kept : BuffersKept s (s.haltLaps cause b c) ∧ (s.haltLaps cause b c).fab.phase = .halted ∧
    (s.haltLaps cause b c).ref.cause = cause := by
  have hover : BuffersKept s (s.lapsOver cause) := ⟨rfl, rfl, rfl, rfl, rfl, rfl⟩
  have hshow : FabRef (s.lapsOver cause) (((s.lapsOver cause).showHalt b).traceHalt cause c) := showHalt_fabRef.trans traceHalt_fabRef
  obtain ⟨hkept, hphase, hcause⟩ := applyAtHalt_kept (s := ((s.lapsOver cause).showHalt b).traceHalt cause c)
  rw [haltLaps_eq]
  refine ⟨(hover.trans (.of_fab hshow.fab)).trans hkept, ?_, ?_⟩
  · rw [hphase, hshow.fab]
    rfl
  · rw [hcause, hshow.ref]
    rfl

theorem haltLaps_retryHalt : (s.haltLaps cause b c).flag F.LAP_STAT.RETRY_HALT = b := by
  have hrest : KeepsRegs ((s.lapsOver cause).put F.LAP_STAT.RETRY_HALT (b2n b)) (s.haltLaps cause b c)
      (([.CHAIN_STAT, .TLC_STAT] : List RegName) ++ (appliedRegs ++ traceRegs)) := by
    rw [haltLaps_eq]
    refine KeepsRegs.trans ?_ ((traceHalt_keepsRegs.mono (by decide)).trans (applyAtHalt_keepsRegs.mono (by decide)))
    exact ((KeepsRegs.put (by decide) rfl).trans (.put (by decide) rfl)).trans
      (.foldl_mem _ fun _ _ ht => .put (by decide) (tlcStat_valid (List.mem_range.mp ht)))
  have hflag : (s.haltLaps cause b c).flag F.LAP_STAT.RETRY_HALT =
      ((s.lapsOver cause).put F.LAP_STAT.RETRY_HALT (b2n b)).flag F.LAP_STAT.RETRY_HALT :=
    congrArg (fun v => bitsOf v _ _ != 0) (hrest .LAP_STAT [] rfl (by decide))
  rw [hflag, State.flag, State.fld_put (by decide) (by decide)]
  cases b <;> rfl

theorem State.Untraced.haltLaps (h : s.Untraced) : Keeps s (s.haltLaps cause b c) (haltRegs ++ appliedRegs) := by
  have hover : Keeps s (s.lapsOver cause) (haltRegs ++ appliedRegs) := .of_regs rfl rfl rfl
  have hshow := hover.trans ((showHalt_keeps (b := b)).mono (List.subset_append_left _ _))
  have hquiet := h.of_keeps hshow (by decide)
  rw [haltLaps_eq, hquiet.traceHalt]
  exact hshow.trans (hquiet.applyAtHalt.mono (List.subset_append_right _ _))

/-! ### A lap is discarded -/

/-- The credits of the lap's outbound items return. -/
def State.returnCredits (s : State) : State :=
  s.fab.outReserved.foldl (fun s fp =>
    match (s.flowAt (fp / 2) (fp % 2)).bind s.flowOut with
    | some q => s.put F.Q_STAT.CREDITS (s.credits q + 1) [q]
    | none => { s with poolReserved := s.poolReserved - 1 }) s

theorem flowOut_valid {i : Nat} (h : s.flowOut i = some q) : RegName.Q_STAT.valid [q] = true := by
  unfold State.flowOut at h
  split at h
  · cases h
    exact (queue_valid (bitsOf_lt _ _ _)).1
  · cases h

theorem returnCredits_kept : FabRef s s.returnCredits ∧ Keeps s s.returnCredits [.Q_STAT] := by
  refine ⟨.foldl _ fun s fp => ?_, .foldl_mem _ fun s fp _ => ?_⟩
  · split <;> exact ⟨rfl, rfl⟩
  · split
    next hq =>
      obtain ⟨i, -, hi⟩ := Option.bind_eq_some_iff.mp hq
      exact .put (by decide) (flowOut_valid hi)
    next => exact .of_regs rfl rfl rfl

theorem discardLap_buffers : s.discardLap.fab.nextState = [] ∧ s.discardLap.fab.wmask = [] ∧ s.discardLap.fab.commitBuf = [] ∧
    s.discardLap.fab.collectors = [] ∧ s.discardLap.fab.consumed = [] ∧ s.discardLap.fab.committed = s.fab.committed := by
  have hcommitted : s.returnCredits.fab.committed = s.fab.committed := by rw [returnCredits_kept.1.fab]
  exact ⟨rfl, rfl, rfl, rfl, rfl, hcommitted⟩

theorem discardLap_keeps : Keeps s s.discardLap [.Q_STAT] := by
  have hrest : Keeps s.returnCredits s.discardLap [.Q_STAT] := .of_regs rfl rfl rfl
  exact returnCredits_kept.2.trans hrest

/-! ### A lap is scratched -/

/-- The counts and status of a scratched lap. -/
def State.countScratch (s : State) (cause : Byte) (w : Option Where) : State :=
  (((s.count F.RETRY_STAT.SCRATCHED).put F.LAP_STAT.SCRATCH cause.toNat).raise cause w).tellRaised.tallyLap 1

/-- The log record of a scratched lap. -/
def State.logScratch (s : State) (cause : Byte) : State :=
  if s.logMode = 1 then s.writeLog (s.lapRecords true cause s.lapNext s.consumedItems) else s

theorem noteScratch_eq : s.noteScratch cause w =
    ((s.countScratch cause w).traceAll 1 (s.countScratch cause w).lapNext fun t => (s.countScratch cause w).reg .TLC_SCRATCH [t]).logScratch
      cause := rfl

theorem countScratch_kept : (s.countScratch cause w).fab.committed = s.fab.committed ∧
    Keeps s (s.countScratch cause w) [.RETRY_STAT, .LAP_STAT, .TLC_SCRATCH] := by
  have hraise {s : State} : (s.raise cause w).fab.committed = s.fab.committed ∧
      Keeps s (s.raise cause w) [.RETRY_STAT, .LAP_STAT, .TLC_SCRATCH] := by
    unfold State.raise
    split
    · split
      · exact ⟨rfl, .refl⟩
      · exact ⟨rfl, .of_regs rfl rfl rfl⟩
    · exact ⟨rfl, .refl⟩
  have htell {s : State} : FabRef s s.tellRaised ∧ Keeps s s.tellRaised [.RETRY_STAT, .LAP_STAT, .TLC_SCRATCH] := by
    refine ⟨.foldl _ fun _ _ => .setReg, .foldl_mem _ fun _ i hi => .setReg (by decide) ?_⟩
    have hi := List.mem_range.mp hi
    simp [RegName.valid, RegName.place, ixValid, hi]
  have htally {s : State} : OnlyEvents s (s.tallyLap 1) := .tallyLap
  have hput {s : State} : Keeps s ((s.count F.RETRY_STAT.SCRATCHED).put F.LAP_STAT.SCRATCH cause.toNat)
      [.RETRY_STAT, .LAP_STAT, .TLC_SCRATCH] := (Keeps.put (by decide) rfl).trans (.put (by decide) rfl)
  refine ⟨?_, ((hput.trans hraise.2).trans htell.2).trans (.of_onlyEvents htally)⟩
  unfold State.countScratch
  rw [(FabRef.of_onlyEvents htally).fab, htell.1.fab, hraise.1]
  rfl

theorem logScratch_fabRef : FabRef s (s.logScratch cause) := by
  unfold State.logScratch
  split
  · exact .writeLog
  · exact .refl

theorem noteScratch_committed : (s.noteScratch cause w).fab.committed = s.fab.committed := by
  rw [noteScratch_eq, logScratch_fabRef.fab, FabRef.traceAll.fab, countScratch_kept.1]

theorem State.Untraced.noteScratch (h : s.Untraced) (hl : s.logMode ≠ 1) :
    Keeps s (s.noteScratch cause w) [.RETRY_STAT, .LAP_STAT, .TLC_SCRATCH] := by
  have hcount := (countScratch_kept (s := s) (cause := cause) (w := w)).2
  have hlog : (s.countScratch cause w).logMode = s.logMode :=
    congrArg (bitsOf · _ _) (hcount.reg .LOG_CTRL [] rfl (by decide) (by decide))
  rw [noteScratch_eq, (h.of_keeps hcount (by decide)).traceAll, State.logScratch, if_neg (by rw [hlog]; exact hl)]
  exact hcount

/-- A scratched lap waits for its retry. -/
def State.awaitRetry (s : State) (cause : Byte) (h : Byte × BitVec 12) (stop : Bool) : State :=
  { s with
    fab := { s.fab with phase := .retryWait, firstCause := cause }
    chain := { s.chain with attempt := s.chain.attempt + 1, hcauseHeld := h.1, hcauseFrom := h.2, stopHeld := stop } }

theorem scratchNow_eq : s.scratchNow cause w b =
    if b then (s.noteScratch cause w).discardLap.awaitRetry cause s.knownHalt s.childStop
    else (s.noteScratch cause w).discardLap.haltLaps cause true := rfl

theorem scratchNow_buffers : BuffersKept (s.noteScratch cause w).discardLap (s.scratchNow cause w b) := by
  rw [scratchNow_eq]
  split
  · exact ⟨rfl, rfl, rfl, rfl, rfl, rfl⟩
  · exact haltLaps_kept.1

theorem State.Untraced.scratchNow (h : s.Untraced) (hl : s.logMode ≠ 1) : (s.scratchNow cause w b).mem = s.mem := by
  have hnote := h.noteScratch hl (cause := cause) (w := w)
  have hdiscard : Keeps s (s.noteScratch cause w).discardLap ([.RETRY_STAT, .LAP_STAT, .TLC_SCRATCH] ++ [.Q_STAT]) :=
    (hnote.mono (List.subset_append_left _ _)).trans (discardLap_keeps.mono (List.subset_append_right _ _))
  rw [scratchNow_eq]
  split
  · exact hdiscard.mem
  · exact (h.of_keeps hdiscard (by decide)).haltLaps.mem.trans hdiscard.mem

end Sys2Proof.Machine
end

section
/-! Laps: gather, commit, the boundary's decision, retry and scratch (R52 to R54, R57, R60, R131 to R134): O42. -/

namespace Sys2Proof.Machine

variable {s t u : State} {pads : BitVec 512} {cause : Byte} {w : Option Where} {b : Bool} {n k i ev : Nat} {ecc : Ecc}

/-! ### Gather -/

section
variable (hp : s.fab.phase = .gatherDue) (hf : s.fab.firstCause = 0)

theorem gather_idle (h : s.fab.phase ≠ .gatherDue ∨ s.fab.firstCause ≠ 0) : s.gather pads = s :=
  if_pos (by simpa using h)

include hp hf

theorem gather_asleep (h : ∃ d ∈ s.pinDomains, s.serves d = false) :
    s.gather pads = ({ s with fab := { s.fab with committing := false } } : State).lapWants s.pinDomains none := by
  obtain ⟨d, hd, hs⟩ := h
  refine (if_neg (by simp [hp, hf])).trans (if_pos ?_)
  rw [Bool.not_eq_true', List.all_eq_false]
  exact ⟨d, hd, by rw [hs]; decide⟩

variable (hs : ∀ d ∈ s.pinDomains, s.serves d = true)
include hs

theorem gather_awake : s.gather pads = if s.logMode = 2 then (s.replayNext.elim s ({ s with pads := pads } : State).replayGather)
    else (({ s with pads := pads } : State).samplePads pads).beginLap := by
  have hall : s.pinDomains.all s.serves = true := List.all_eq_true.mpr hs
  refine (if_neg (by simp [hp, hf])).trans ((if_neg (by rw [hall]; decide)).trans ?_)
  cases s.replayNext <;> rfl

end

/-- What the lap starts from; the towers' registers are still to be written. -/
def State.freshLap (s : State) : State :=
  { s with
    fab := { s.fab with
      phase := .steps, committing := false, sampled := true
      hold := s.fab.hold.filter fun c => s.fab.tilesUsed.contains (c / 1024) && s.benched (c / 1024)
      nextState := s.fab.nextState.filter fun p => ((s.fab.tilesUsed.filter s.benched).map s.phys).contains (p.1 / 128)
      wmask := [], collectors := [], portReads := [], fired := [], commitBuf := [], consumed := [], polled := false,
      present := [], outReserved := [], vaultLap := [], stepOpen := [], stepsDone := [] } }

theorem clearLap_fab : s.clearLap.fab = s.freshLap.fab := by
  have hfold : FabRef s.freshLap s.clearLap := .foldl _ fun _ _ => FabRef.put.trans .put
  exact hfold.fab

theorem clearLap_keeps : Keeps s s.clearLap [.TLC_STAT] := by
  have hfresh : Keeps s s.freshLap [.TLC_STAT] := .of_regs rfl rfl rfl
  have hfold : Keeps s.freshLap s.clearLap [.TLC_STAT] := .foldl_mem _ fun _ _ ht =>
    have hv := tlcStat_valid (List.mem_range.mp ht)
    (Keeps.put (by decide) hv).trans (.put (by decide) hv)
  exact hfresh.trans hfold

theorem clearLap_hold (c : Nat) : c ∈ s.clearLap.fab.hold ↔ c ∈ s.fab.hold ∧ c / 1024 ∈ s.fab.tilesUsed ∧ s.benched (c / 1024) = true := by
  rw [clearLap_fab]
  exact List.mem_filter.trans (by rw [Bool.and_eq_true, List.contains_iff_mem])

theorem clearLap_nextState (p : Nat × Quad) : p ∈ s.clearLap.fab.nextState ↔
    p ∈ s.fab.nextState ∧ ∃ x ∈ s.fab.tilesUsed, s.benched x = true ∧ s.phys x = p.1 / 128 := by
  rw [clearLap_fab]
  refine List.mem_filter.trans ?_
  rw [List.contains_iff_mem, List.mem_map]
  simp only [List.mem_filter, and_assoc]

/-! ### Retry -/

theorem exec_lapRetryStart (hp : s.fab.phase = .retryWait) : exec .lapRetryStart s =
    if s.chainMode = 0 then .next s.retryBegin.settleV
    else if s.chainMode = 1 then .next ((s.batonDown 2 s.baton).retryBegin).settleV else .next s := by
  refine (if_neg (by simp [hp])).trans ?_
  split
  next h => rw [h, if_pos rfl]
  next h => rw [h, if_neg (by decide), if_pos rfl]
  next h0 h1 => rw [if_neg h0, if_neg h1]

/-! ### The end of verify -/

theorem verifyEnds_open (h : s.verifyHolds = false) : s.verifyEnds = s := if_pos (by rw [h]; rfl)

theorem verifyEnds_diverges (h : s.verifyHolds = true) (hr : s.replayFlowsOk = false) : s.verifyEnds = s.diverge.scratch 1 :=
  (if_neg (by rw [h]; decide)).trans (if_pos (by rw [hr]; rfl))

theorem verifyEnds_holds (h : s.verifyHolds = true) (hr : s.replayFlowsOk = true) : s.verifyEnds =
    if s.chainMode = 0 then s.commitLap none
    else if s.chainMode = 1 then (if s.childrenDone && s.knownHalt.1 == 0 then s.anchorCommit else s) else s := by
  refine (if_neg (by rw [h]; decide)).trans ((if_neg (by rw [hr]; decide)).trans ?_)
  by_cases h0 : s.chainMode = 0
  · rw [h0, if_pos rfl]
    rfl
  · rw [if_neg h0]
    by_cases h1 : s.chainMode = 1
    · rw [h1, if_pos rfl]
      rfl
    · rw [if_neg h1]
      split
      next h => exact absurd h h0
      next h => exact absurd h h1
      next => rfl

/-- On a single device the boundary's own cause decides, and else the count's. -/
theorem commitLap_single :
    let boundary := s.commitActions.boundary s.consumedItems
    let own := boundary.2.ownCause boundary.1
    let after : State := if own = 0x0C then { boundary.2 with ref := { boundary.2.ref with powerCapHalt := false } } else boundary.2
    let c := if own ≠ 0 then own else after.countCause
    s.commitLap none = if c ≠ 0 then after.haltLaps c else after.nextLap := by
  intro boundary own after c
  rw [State.commitLap]

/-! ### Corrected and uncorrectable entries of the commit buffers -/

theorem checkEntry_good (h : ecc = .good ∨ s.fab.commitBuf[i]? = none) : s.checkEntry i ecc = s := by
  unfold State.checkEntry
  cases he : s.fab.commitBuf[i]? with
  | none => rfl
  | some e => rw [h.resolve_right (by simp [he])]

/-- Every lap controller's status is as before. -/
def TlcKept (s t : State) : Prop := ∀ i, t.reg .TLC_STAT [i] = s.reg .TLC_STAT [i]

/-- The error log of a tower lies apart from its lap controller's status. -/
theorem TlcKept.eccReg {r : RegName} {v : W64} {j : Nat} (hr : r = .ECC_ADDR ∨ r = .ECC_INFO) (hj : j < 32) :
    TlcKept s (s.setReg r [n, j] v) := fun i => State.reg_setReg_of_key (by
  rcases hr with rfl | rfl
  · simp only [RegName.key, RegName.addr, RegName.place, ixOffset, reduceCtorEq, if_false]
    omega
  · simp only [RegName.key, RegName.addr, RegName.place, ixOffset, reduceCtorEq, if_false]
    omega)

theorem TlcKept.eccStat {f : Fld} (hf : f.reg = .ECC_STAT) : TlcKept s (s.put f k [n]) := fun i => by
  rw [State.put, hf]
  refine State.reg_setReg_of_key ?_
  simp only [RegName.key, RegName.addr, RegName.place, ixOffset, reduceCtorEq, if_false]
  omega

theorem TlcKept.trans (h : TlcKept s t) (k : TlcKept t u) : TlcKept s u := fun i => (k i).trans (h i)

theorem TlcKept.eccAdd {a y : Nat} {src : EccSource} {v : W64} : TlcKept s (s.eccAdd n a src y v) := by
  have hshift {s : State} : TlcKept s (s.eccShift n) := by
    unfold State.eccShift
    refine List.foldlRecOn _ _ (motive := fun u => TlcKept s u) (fun _ => rfl) fun u hu j hj => ?_
    have hj := List.mem_range.mp hj
    exact hu.trans ((TlcKept.eccReg (.inl rfl) (by omega)).trans (.eccReg (.inr rfl) (by omega)))
  have hput {s : State} {j : Nat} (hj : j < 32) : TlcKept s (s.eccPut n j a v) :=
    (TlcKept.eccReg (.inl rfl) hj).trans (.eccReg (.inr rfl) hj)
  unfold State.eccAdd
  dsimp only
  split
  · exact fun _ => rfl
  · split
    · exact (hput ‹_›).trans ((TlcKept.eccStat rfl).trans (.eccStat rfl))
    · split
      · exact hshift.trans ((hput (by decide)).trans (.eccStat rfl))
      · exact .eccStat rfl

theorem TlcKept.eccError {a reader : Nat} {src : EccSource} : TlcKept s (s.eccError n a b src reader) := by
  have hdraw {s : State} {y : Nat} : TlcKept s (s.drawSyndrome y) := by
    unfold State.drawSyndrome
    split <;> exact fun _ => rfl
  unfold State.eccError State.eccEnter
  dsimp only
  split <;> exact (TlcKept.eccStat rfl).trans (hdraw.trans .eccAdd)

/-- An entry with an error: found, and scratching the lap where it is uncorrectable. -/
theorem checkEntry_found {e : HeldWrite} (h : ecc ≠ .good) (he : s.fab.commitBuf[i]? = some e) :
    let t := e.bank / 256
    let a := bankBase t (e.bank % 256) + 16 * e.word
    let k := EccSource.commitBuffer.key t a
    let found := ((s.dropSyndrome k).eccError t a (ecc == .uncorrectable) .commitBuffer (s.fabricPort t (e.bank % 256))).dropSyndrome k
    s.checkEntry i ecc = if ecc = .uncorrectable then found.scratch 4 (some { tower := t, step := s.step_ t }) else found := by
  intro t a k found
  have hstep : found.step_ t = s.step_ t := congrArg (bitsOf · _ _) (show found.reg .TLC_STAT [t] = s.reg .TLC_STAT [t] from
    TlcKept.eccError (s := s.dropSyndrome k) t)
  rw [← hstep]
  unfold State.checkEntry
  rw [he]
  cases ecc with
  | good => exact absurd rfl h
  | corrected => rfl
  | uncorrectable => rfl

/-! ### Commit -/

/-- The marks and items of the lap, and the lap count, are as before. -/
structure LapData (s t : State) : Prop where
  wmask : t.fab.wmask = s.fab.wmask
  commitBuf : t.fab.commitBuf = s.fab.commitBuf
  collectors : t.fab.collectors = s.fab.collectors
  consumed : t.fab.consumed = s.fab.consumed
  count : t.lapCount = s.lapCount

theorem LapData.refl : LapData s s := ⟨rfl, rfl, rfl, rfl, rfl⟩

theorem LapData.trans (h : LapData s t) (k : LapData t u) : LapData s u :=
  ⟨k.wmask.trans h.wmask, k.commitBuf.trans h.commitBuf, k.collectors.trans h.collectors, k.consumed.trans h.consumed,
    k.count.trans h.count⟩

theorem LapData.of_fab {rs : List RegName} (h : t.fab = s.fab) (k : KeepsRegs s t rs) (hr : RegName.LAP_COUNT ∉ rs) : LapData s t :=
  ⟨by rw [h], by rw [h], by rw [h], by rw [h], k .LAP_COUNT [] rfl hr⟩

theorem LapData.of_onlyEvents (h : OnlyEvents s t) : LapData s t :=
  .of_fab (by rw [h.rest]) (.of_onlyEvents h (List.Subset.refl _)) (by decide)

theorem LapData.foldl {α : Type} {g : State → α → State} (l : List α) (h : ∀ s a, LapData s (g s a)) : LapData s (l.foldl g s) := by
  induction l generalizing s with
  | nil => exact .refl
  | cons a l ih => exact (h s a).trans ih

theorem LapData.foldl_mem {α : Type} {g : State → α → State} (l : List α) (h : ∀ s, ∀ a ∈ l, LapData s (g s a)) :
    LapData s (l.foldl g s) := by
  induction l generalizing s with
  | nil => exact .refl
  | cons a l ih => exact (h s a (by simp)).trans (ih fun s b hb => h s b (by simp [hb]))

/-- A register at an address other than LAP_COUNT's. -/
theorem LapData.setReg {r : RegName} {ix : List Nat} {v : W64} (h : r.key ix ≠ RegName.LAP_COUNT.key []) : LapData s (s.setReg r ix v) :=
  ⟨rfl, rfl, rfl, rfl, State.reg_setReg_of_key h⟩

theorem LapData.put {f : Fld} {ix : List Nat} (hv : f.reg.valid ix = true) (hr : f.reg ≠ .LAP_COUNT) : LapData s (s.put f n ix) :=
  .setReg (RegName.key_ne hr hv rfl)

theorem LapData.tally (he : ev / 0x100 = 0) : LapData s (s.tally n ev k) := .of_onlyEvents (.tallyTower he)

theorem LapData.trace {kind entry : Nat} {lap data : W64} (hn : n < 4) : LapData s (s.trace n ev kind entry lap data) :=
  .of_fab FabRef.trace.fab (State.trace_keepsRegs hn) (by decide)

theorem LapData.takeCell {q d : Nat} (hq : q < 8192) : LapData s (s.takeCell q d) := by
  have hsteps : RegSteps faultRegs s (s.takeCell q d) := by
    unfold State.takeCell
    split
    · exact ((RegSteps.freeCell hq).mono queueRegs_fault).trans (.faultQueue hq)
    · exact (RegSteps.freeCell hq).mono queueRegs_fault
  exact .of_fab FabRef.takeCell.fab hsteps.keepsRegs (by decide)

theorem LapData.memStore {a : Nat} {v : Quad} : LapData s (s.memStore a v) :=
  .of_fab (rs := []) FabRef.memStore.fab (.of_regs State.memStore_regs) (by decide)

theorem LapData.copierPut {c : CopyBack} : LapData s (s.copierPut c) := by
  unfold State.copierPut
  dsimp only
  split <;> exact ⟨rfl, rfl, rfl, rfl, rfl⟩

/-- A bank's collisions are counted at an address apart from LAP_COUNT's, whatever the bank. -/
theorem LapData.collide {x : HeldWrite} : LapData s (s.collide x) := by
  unfold State.collide
  dsimp only
  split
  · refine .setReg ?_
    simp only [RegName.key, RegName.addr, RegName.place, ixOffset, F.BANK_STAT.COLLISIONS, reduceCtorEq, if_false]
    omega
  · exact .refl

/-- The held writes are made; then none is held. -/
theorem drainWrites_data : (s.drainWrites).fab.commitBuf = [] ∧ (s.drainWrites).fab.wmask = s.fab.wmask ∧
    (s.drainWrites).lapCount = s.lapCount := by
  have hwrites : LapData s (s.fab.commitBuf.foldl (fun s w =>
      ((s.collide w).memStore (bankBase (w.bank / 256) (w.bank % 256) + 16 * w.word) w.data).tally (w.bank / 256) 0x00D) s) :=
    .foldl _ fun _ _ => LapData.collide.trans (LapData.memStore.trans (.tally rfl))
  have hcopies (l : List CopyBack) (s : State) : LapData s (l.foldl (fun s c => s.copierPut c) s) := .foldl _ fun _ _ => .copierPut
  have hall (l : List CopyBack) := hwrites.trans (hcopies l _)
  exact ⟨rfl, (hall _).wmask, (hall _).count⟩

theorem LapData.driveOutputs : LapData s s.driveOutputs := by
  have hdout {s : State} {l : List Nat} {g : State → Nat → W64} (hl : ∀ i ∈ l, i < 8) :
      LapData s (l.foldl (fun s i => s.setReg .DOUT [i] (g s i)) s) := .foldl_mem _ fun _ i hi =>
    .setReg (RegName.key_ne (by decide) (by simp [RegName.valid, RegName.place, ixValid, hl i hi]) rfl)
  have hstat {s : State} {f : Fld} {k j : Nat} (hf : f.reg = .RU_STAT) (hj : j ∈ List.range 16) : LapData s (s.put f k [j]) := by
    have hj := List.mem_range.mp hj
    exact .put (by simp [hf, RegName.valid, RegName.place, ixValid, hj]) (by rw [hf]; decide)
  have hrelease {s : State} : LapData s s.releaseUnits := .foldl_mem _ fun s j hj => by
    split
    · exact (hstat rfl hj).trans (hstat rfl hj)
    · exact .refl
  have hrearm {s : State} : LapData s s.rearmAll := .foldl_mem _ fun s j hj => by
    unfold State.rearm
    split
    · exact hstat rfl hj
    · exact .refl
  unfold State.driveOutputs
  split
  · exact .refl
  · exact ((hdout fun i hi => List.mem_range.mp hi).trans hrelease).trans hrearm

/-- A flow that is found at a port is one of the table. -/
theorem flowAt_lt {x p : Nat} (h : s.flowAt x p = some i) : i < 16384 := by
  have hm := List.mem_of_find?_eq_some h
  obtain ⟨y, -, hy⟩ := List.mem_filterMap.mp hm
  split at hy
  next hkey =>
    cases hy
    omega
  next => cases hy

theorem flowPos_valid (h : i < 16384) : RegName.FLOW_POS.valid [i] = true := by
  simp [RegName.valid, RegName.place, ixValid, h]

theorem flowIn_lt {q : Nat} (h : s.flowIn i = some q) : q < 8192 := by
  unfold State.flowIn at h
  split at h
  · cases h
    exact bitsOf_lt ..
  · cases h

theorem flowOut_lt {q : Nat} (h : s.flowOut i = some q) : q < 8192 := by
  unfold State.flowOut at h
  split at h
  · cases h
    exact bitsOf_lt ..
  · cases h

theorem LapData.consumeItems : LapData s s.consumeItems := .foldl _ fun s j => by
  split
  next fl hfl =>
    split
    next q hq =>
      have hv := flowPos_valid (flowAt_lt hfl)
      have hset {s : State} {a b : Nat} : LapData s (s.setDelivered a b) := ⟨rfl, rfl, rfl, rfl, rfl⟩
      exact ((LapData.takeCell (flowIn_lt hq)).trans hset).trans ((LapData.put hv (by decide)).trans (.tally rfl))
    next => exact .refl
  next => exact .refl

/-- The collectors' items are released; then there are none. -/
theorem releaseItems_data : s.releaseItems.fab.collectors = [] ∧ s.releaseItems.fab.consumed = [] ∧
    s.releaseItems.fab.commitBuf = s.fab.commitBuf ∧ s.releaseItems.fab.wmask = s.fab.wmask ∧ s.releaseItems.lapCount = s.lapCount := by
  have hpush : LapData s ((s.fab.collectors.filter fun c => !c.bits.isEmpty).foldl (fun s c =>
      match s.flowAt c.flowTile c.port with
      | some f =>
        match s.flowOut f with
        | some q =>
          let s := s.pushReserved q (BitVec.ofNat 512 (natOfBits c.bits))
          (s.put F.FLOW_POS.OUT ((s.fld F.FLOW_POS.OUT [f] + 1) % 2 ^ 32) [f]).tally (towerOfTile c.flowTile) 0x00F
        | none => s
      | none => s) s) := .foldl _ fun s c => by
    split
    next fl hfl =>
      split
      next q hq =>
        have hv := flowPos_valid (flowAt_lt hfl)
        have hreserved : LapData s { s with poolReserved := s.poolReserved - 1 } := ⟨rfl, rfl, rfl, rfl, rfl⟩
        have happend {s : State} {x : Item} : LapData s (s.appendItem q x) :=
          .of_fab FabRef.appendItem.fab (State.appendItem_keepsRegs (flowOut_lt hq)) (by decide)
        exact (hreserved.trans happend).trans ((LapData.put hv (by decide)).trans (.tally rfl))
      next => exact .refl
    next => exact .refl
  exact ⟨rfl, rfl, hpush.commitBuf, hpush.wmask, hpush.count⟩

/-! ### The state stores swap buffers -/

/-- The bits of one word that the lap wrote become the committed ones. -/
def State.commitWord (s : State) (p : Nat × Quad) : State :=
  s.setCommitted p.1 ((s.committedWord p.1 &&& ~~~p.2) ||| (Sparse.read s.fab.nextState p.1 &&& p.2))

/-- The former committed buffers, beside the next state of the tiles that are not in use. -/
def State.formerState (s : State) : Sparse Quad :=
  ((s.inUse.map s.phys).flatMap fun pt => (List.range 128).map (stateKey pt)).foldl (fun m k => Sparse.write m k (s.committedWord k))
    (s.fab.nextState.filter fun p => !(s.inUse.map s.phys).contains (p.1 / 128))

theorem swapBuffers_eq : s.swapBuffers = { s.fab.wmask.foldl State.commitWord s with
    fab := { (s.fab.wmask.foldl State.commitWord s).fab with nextState := s.formerState, wmask := [] } } := rfl

theorem commitWord_committed {p : Nat × Quad} : (s.commitWord p).committedWord k = if p.1 = k then
    (s.committedWord p.1 &&& ~~~p.2) ||| (Sparse.read s.fab.nextState p.1 &&& p.2) else s.committedWord k := by
  have hword : (s.commitWord p).committedWord k = Sparse.read (Sparse.write s.fab.committed p.1
    (((s.committedWord p.1 &&& ~~~p.2) ||| (Sparse.read s.fab.nextState p.1 &&& p.2)) ^^^ s.undefWord p.1)) k ^^^ s.undefWord k := rfl
  rw [hword, Sparse.read_write]
  split
  next h =>
    subst h
    rw [BitVec.xor_assoc, BitVec.xor_self, BitVec.xor_zero]
  next => rfl

theorem keep_all {v x : Quad} : (v &&& ~~~0) ||| (x &&& 0) = v := by
  have hones : ~~~(0 : Quad) = BitVec.allOnes 128 := BitVec.not_zero
  have hzero : x &&& 0 = 0 := BitVec.and_zero
  rw [hones, BitVec.and_allOnes, hzero]
  exact BitVec.or_zero

/-- Every word takes the bits that its mask names, once. -/
theorem commitWords_committed {m : Sparse Quad} (hm : Memory.wf m = true) : (m.foldl State.commitWord s).committedWord k =
    (s.committedWord k &&& ~~~(Sparse.read m k)) ||| (Sparse.read s.fab.nextState k &&& Sparse.read m k) := by
  induction m generalizing s with
  | nil => exact keep_all.symm
  | cons p m ih =>
    obtain ⟨-, habove, hm⟩ := (Sparse.wf_cons _).mp hm
    have hread : Sparse.read (p :: m) k = if p.1 = k then p.2 else Sparse.read m k := rfl
    have hnext : (s.commitWord p).fab.nextState = s.fab.nextState := rfl
    rw [List.foldl_cons, ih hm, hnext, commitWord_committed, hread]
    split
    next h =>
      have hzero : Sparse.read m k = 0 := Sparse.get_of_above _ habove h.ge
      rw [hzero, ← h, keep_all]
    next => rfl

theorem swapBuffers_committed (hm : Memory.wf s.fab.wmask = true) : (s.swapBuffers).committedWord k =
    (s.committedWord k &&& ~~~(Sparse.read s.fab.wmask k)) ||| (Sparse.read s.fab.nextState k &&& Sparse.read s.fab.wmask k) := by
  rw [← commitWords_committed hm, swapBuffers_eq]
  rfl

theorem foldl_write_read {l : List Nat} {g : Nat → Quad} {m : Sparse Quad} (h : k ∈ l ∨ Sparse.read m k = g k) :
    Sparse.read (l.foldl (fun m k => Sparse.write m k (g k)) m) k = g k := by
  induction l generalizing m with
  | nil => exact h.resolve_left (by simp)
  | cons a l ih =>
    refine ih ?_
    by_cases ha : a = k
    · right
      rw [ha, Sparse.read_write_self]
    · refine h.imp (fun h => ?_) fun h => ?_
      · exact (List.mem_cons.mp h).resolve_left (Ne.symm ha)
      · rw [Sparse.read_write_ne ha, h]

theorem swapBuffers_former {x : Nat} (hx : x ∈ s.inUse) (hn : n < 128) :
    Sparse.read (s.swapBuffers).fab.nextState (stateKey (s.phys x) n) = s.committedWord (stateKey (s.phys x) n) := by
  have hformer : (s.swapBuffers).fab.nextState = s.formerState := by rw [swapBuffers_eq]
  rw [hformer]
  refine foldl_write_read (.inl (List.mem_flatMap.mpr ⟨s.phys x, List.mem_map_of_mem hx, ?_⟩))
  exact List.mem_map_of_mem (List.mem_range.mpr hn)

theorem swapBuffers_data : (s.swapBuffers).fab.wmask = [] ∧ (s.swapBuffers).lapCount = s.lapCount := by
  have hregs {l : Sparse Quad} : (l.foldl State.commitWord s).regs = s.regs := by
    refine List.foldlRecOn l State.commitWord (motive := fun u => u.regs = s.regs) rfl ?_
    intro u hu p _
    exact hu
  refine ⟨by rw [swapBuffers_eq], ?_⟩
  rw [swapBuffers_eq]
  show Sparse.read (s.fab.wmask.foldl State.commitWord s).regs _ ^^^ _ = _
  rw [hregs]
  rfl

/-! ### The commit as a whole -/

/-- Commit actions 1 to 4. -/
def State.commitData (s : State) : State := s.swapBuffers.drainWrites.driveOutputs.consumeItems.releaseItems

theorem commitData_data : s.commitData.fab.wmask = [] ∧ s.commitData.fab.commitBuf = [] ∧ s.commitData.fab.collectors = [] ∧
    s.commitData.fab.consumed = [] ∧ s.commitData.lapCount = s.lapCount := by
  obtain ⟨hswapMask, hswapCount⟩ := swapBuffers_data (s := s)
  obtain ⟨hdrainBuf, hdrainMask, hdrainCount⟩ := drainWrites_data (s := s.swapBuffers)
  have hmid : LapData s.swapBuffers.drainWrites s.swapBuffers.drainWrites.driveOutputs.consumeItems :=
    LapData.driveOutputs.trans .consumeItems
  obtain ⟨hcoll, hcons, hbuf, hmask, hcount⟩ := releaseItems_data (s := s.swapBuffers.drainWrites.driveOutputs.consumeItems)
  exact ⟨by rw [State.commitData, hmask, hmid.wmask, hdrainMask, hswapMask], by rw [State.commitData, hbuf, hmid.commitBuf, hdrainBuf],
    hcoll, hcons, by rw [State.commitData, hcount, hmid.count, hdrainCount, hswapCount]⟩

theorem commitActions_data : s.commitActions.lapCount = s.lapCount + 1 ∧ s.commitActions.fab.commitBuf = [] ∧
    s.commitActions.fab.collectors = [] ∧ s.commitActions.fab.consumed = [] ∧ s.commitActions.fab.wmask = [] := by
  obtain ⟨hmask, hbuf, hcoll, hcons, hcount⟩ := commitData_data (s := s)
  have hrest : LapData (s.commitData.setReg .LAP_COUNT [] (s.commitData.lapCount + 1)) s.commitActions := by
    have hlap {s : State} : LapData s (s.tallyLap 0) := .of_onlyEvents .tallyLap
    have hspend {s : State} : LapData s s.spend := ⟨rfl, rfl, rfl, rfl, rfl⟩
    have htrace {s : State} {lap : W64} {g : Nat → W64} : LapData s (s.traceAll 0 lap g) :=
      .foldl_mem _ fun _ _ ht => .trace (List.mem_range.mp ht)
    exact (hlap.trans hspend).trans htrace
  have hset : (s.commitData.setReg .LAP_COUNT [] (s.commitData.lapCount + 1)).lapCount = s.commitData.lapCount + 1 := State.reg_setReg
  exact ⟨by rw [hrest.count, hset, hcount], hrest.commitBuf.trans hbuf, hrest.collectors.trans hcoll, hrest.consumed.trans hcons,
    hrest.wmask.trans hmask⟩

/-- Settles O42: gather, retry and the end of verify by their checks in order; what a commit and a scratch leave, step by step. -/
theorem lapCommands : Obligations.LapCommands := by
  intro s pads cause w retry u m boundary own after c x commits ready
  have hgather {v : State} (h : s.gather pads = v) : exec (.gather pads) s = .next (v.proceedResets).settleV := by
    subst h
    rfl
  have hcommit {v : State} (h : s.verifyEnds = v) : commits s = .next v.settleV := by
    subst h
    rfl
  have hbuffers := scratchNow_buffers (s := s) (cause := cause) (w := w) (b := retry)
  obtain ⟨hnext, -, hbuf, hcoll, hcons, hcommitted⟩ := discardLap_buffers (s := s.noteScratch cause w)
  refine ⟨fun h => hgather (gather_idle h), fun hp hf h => hgather (gather_asleep hp hf h), fun ⟨hp, hf, hs⟩ hm => ?_,
    fun ⟨hp, hf, hs⟩ hm hr => ?_, fun r ⟨hp, hf, hs⟩ hm hr => ?_, ?_, fun hp => if_pos (by simpa using hp), fun hp hm => ?_, fun hp hm => ?_,
    fun hp h0 h1 => ?_, fun h hr hm hd hk => ?_, fun h hr hm hd => ?_, fun h => hcommit (verifyEnds_open h),
    fun h hr => hcommit (verifyEnds_diverges h hr), fun h hr hm => ?_, fun i ecc h => ?_, fun i ecc e h he => ?_, commitActions_data,
    fun hm k => swapBuffers_committed hm, fun _ x hx n hn => swapBuffers_former hx hn, hbuffers.nextState.trans hnext,
    hbuffers.commitBuf.trans hbuf, hbuffers.collectors.trans hcoll, hbuffers.consumed.trans hcons, fun ht hl => ?_,
    (hbuffers.committed.trans hcommitted).trans noteScratch_committed, fun hr => ?_, fun hr => ?_⟩
  · exact hgather ((gather_awake hp hf hs).trans (if_neg hm))
  · refine hgather ((gather_awake hp hf hs).trans ((if_pos hm).trans ?_))
    rw [hr]
    rfl
  · refine hgather ((gather_awake hp hf hs).trans ((if_pos hm).trans ?_))
    rw [hr]
    rfl
  · have hfab : u.fab = s.freshLap.fab := clearLap_fab
    exact ⟨by rw [hfab]; rfl, by rw [hfab]; rfl, by rw [hfab]; rfl, by rw [hfab]; rfl, by rw [hfab]; rfl, clearLap_hold,
      clearLap_nextState, by rw [hfab]; rfl, clearLap_keeps.mem, clearLap_keeps⟩
  · exact (exec_lapRetryStart hp).trans (if_pos hm)
  · exact (exec_lapRetryStart hp).trans ((if_neg (by rw [hm]; decide)).trans (if_pos hm))
  · exact (exec_lapRetryStart hp).trans ((if_neg h0).trans (if_neg h1))
  · refine hcommit ((verifyEnds_holds h hr).trans ((if_neg (by rw [hm]; decide)).trans ((if_pos hm).trans (if_pos ?_))))
    rw [hd, hk]
    rfl
  · refine hcommit ((verifyEnds_holds h hr).trans ((if_neg hm).trans ?_))
    split
    next h1 => exact if_neg (by simpa [imp_iff_not_or] using hd.resolve_left (not_not.mpr h1))
    next => rfl
  · exact hcommit ((verifyEnds_holds h hr).trans ((if_pos hm).trans commitLap_single))
  · have hcheck := checkEntry_good h
    exact congrArg (fun v => Host.Outcome.next (State.settleV (State.verifyEnds v))) hcheck
  · have hcheck := checkEntry_found h he
    refine (congrArg (fun v => Host.Outcome.next (State.settleV (State.verifyEnds v))) hcheck).trans ?_
    split <;> rfl
  · exact State.Untraced.scratchNow ht hl
  · exact (congrArg (fun v : State => v.fab.phase) (scratchNow_eq.trans (if_pos hr))).trans rfl
  · have hhalt : x = (s.noteScratch cause w).discardLap.haltLaps cause true := scratchNow_eq.trans (if_neg (by rw [hr]; decide))
    rw [hhalt]
    exact ⟨haltLaps_kept.2.1, haltLaps_kept.2.2, haltLaps_retryHalt⟩

end Sys2Proof.Machine
end

section
/-! The loader: header checks, frame records, the deadline, and what the end of a load leaves (R101 to R113): O43. -/

namespace Sys2Proof.Machine

variable {s t u g : State} {j k : Job} {h tbl db pb : List Byte} {ls lines : List Nat} {r q : Resp} {n sec result frame resp from_ : Nat}

/-! ### The header's checks -/

section
variable (hj : s.persona.job = some j)
include hj

theorem exec_loadHeaderChecks_accepted (ha : j.accepted = true) : exec .loadHeaderChecks s = .next s := by
  simp [exec, execLoadHeaderChecks, hj, ha]

theorem exec_loadHeaderChecks (ha : j.accepted = false) :
    exec .loadHeaderChecks s = .next ((s.headerChecks j).abandonForLoad).settle := by
  simp [exec, execLoadHeaderChecks, hj, ha]

theorem exec_loadTimeout_none (hd : j.deadline = 0) : exec .loadTimeout s = .next s := by
  simp [exec, execLoadTimeout, hj, hd]

theorem exec_loadTimeout_due (hd : j.deadline ≠ 0) : exec .loadTimeout s = .next (s.failLoad 0x13).settle := by
  simp [exec, execLoadTimeout, hj, hd]

theorem exec_loadFrameRecord_idle {tw : Tower} (hi : j.accepted = false ∨ s.fld F.LOAD_STAT.LOADER ≠ 2) :
    exec (.loadFrameRecord tw) s = .next s := by
  have hn : (j.accepted && s.fld F.LOAD_STAT.LOADER == 2) = false := by
    rcases hi with hi | hi <;> simp [hi]
  simp [exec, execLoadFrameRecord, hj, hn]

theorem exec_loadFrameRecord {tw : Tower} (ha : j.accepted = true) (hl : s.fld F.LOAD_STAT.LOADER = 2) :
    exec (.loadFrameRecord tw) s = .next (s.loadGoesOn j tw.val).settle := by
  simp [exec, execLoadFrameRecord, hj, ha, hl]

end

theorem headerChecks_failed (hf : s.loaderFetch j.role (j.engine.val / 4) j.addr 4096 = (r, h, ls, u)) (hr : r ≠ .ok) :
    s.headerChecks j = u.failTransfer r := by
  cases r <;> simp_all [State.headerChecks]

section
variable (hf : s.loaderFetch j.role (j.engine.val / 4) j.addr 4096 = (.ok, h, ls, u)) (hg : u.fetched j 4096 ls = g)
include hf hg

theorem headerChecks_form (h1 : headerOk h j.len = false) : s.headerChecks j = g.failLoad 1 := by
  simp [State.headerChecks, hf, hg, h1]

variable (h1 : headerOk h j.len = true)
include h1

theorem headerChecks_state (h2 : g.check2 h ≠ 0) : s.headerChecks j = g.failLoad (g.check2 h) := by
  simp [State.headerChecks, hf, hg, h1, h2]

variable (h2 : g.check2 h = 0)
include h2

theorem headerChecks_lock (h3 : lockOk h = false) : s.headerChecks j = g.failLoad 4 := by
  simp [State.headerChecks, hf, hg, h1, h2, h3]

variable (h3 : lockOk h = true)
include h3

theorem headerChecks_signature (h4 : g.check4 h ≠ 0) : s.headerChecks j = g.failLoad (g.check4 h) := by
  simp [State.headerChecks, hf, hg, h1, h2, h3, h4]

variable (h4 : g.check4 h = 0)
include h4

theorem headerChecks_tableFailed (ht : g.loaderFetch j.role (j.engine.val / 4) (j.addr + 4096) (tableLen h) = (q, tbl, lines, t))
    (hq : q ≠ .ok) : s.headerChecks j = t.failTransfer q := by
  simp only [State.headerChecks, hf, hg, h1, h2, h3, h4, ht]
  cases q <;> simp_all

theorem headerChecks_table (ht : g.loaderFetch j.role (j.engine.val / 4) (j.addr + 4096) (tableLen h) = (.ok, tbl, lines, t)) :
    s.headerChecks j = if tableOk h tbl then (t.fetched j (tableLen h) lines).acceptImage j h tbl
      else (t.fetched j (tableLen h) lines).failLoad 8 := by
  simp [State.headerChecks, hf, hg, h1, h2, h3, h4, ht]

end

/-! ### Frame records -/

section
variable (ha : j.kind = 0 ∧ sec ≠ 0) (hn : ¬(j.kind = 0 ∧ sec ≠ 0))

theorem parallel_iff : j.parallel sec = true ↔ j.kind = 0 ∧ sec ≠ 0 := by
  simp [Job.parallel]

include ha in
theorem faultAt_apart : s.faultAt j sec result (some n) = s.putJob (j.setCursor sec { j.cursor sec with fault := some (result, some n) }) :=
  if_pos (parallel_iff.mpr ha)

include hn in
theorem faultAt_alone : s.faultAt j sec result (some n) = s.endLoad result (s.frameIndex j sec n) :=
  if_neg fun h => hn (parallel_iff.mp h)

end

/-- The tower whose module fetches the records of a section. -/
theorem parallel_tower : (if j.parallel sec then sec - 1 else n) = if j.kind = 0 ∧ sec ≠ 0 then sec - 1 else n :=
  if_congr parallel_iff rfl rfl

section
variable (hr : j.nextSection n = sec)

theorem loadGoesOn_over (ho : j.allOver = true) : s.loadGoesOn j n = s.completeLoad j := if_pos ho

include hr

theorem loadGoesOn_fault (ho : j.allOver = false) (hc : (j.cursor sec).fault ≠ none) : s.loadGoesOn j n = s.abortParallel j := by
  simp [State.loadGoesOn, hr, ho, Option.isSome_iff_ne_none, hc]

theorem loadGoesOn_waits (ho : j.allOver = false) (hc : (j.cursor sec).fault = none) (hs : j.over sec = true) : s.loadGoesOn j n = s := by
  simp [State.loadGoesOn, hr, ho, hc, hs]

theorem loadGoesOn_record (ho : j.allOver = false) (hc : (j.cursor sec).fault = none) (hs : j.over sec = false) :
    s.loadGoesOn j n = s.frameRecord j sec := by
  simp [State.loadGoesOn, hr, ho, hc, hs]

end

/-- The length of a payload with its padding (R103). -/
def paddedLen (db : List Byte) : Nat := ((descOf db).len + 15) / 16 * 16

/-- The descriptor of a record is not well formed, or its payload reaches past the section's end. -/
def recordWrong (j : Job) (sec : Nat) (db : List Byte) : Prop :=
  descOk j.kind sec db = false ∨ (j.sectionAt sec).2 < (j.cursor sec).offset + 64 + paddedLen db

theorem frameRecord_outside (ho : (j.sectionAt sec).2 < (j.cursor sec).offset + 64) :
    s.frameRecord j sec = s.faultAt j sec 9 (some (j.cursor sec).records) := if_pos ho

section
variable {tw base : Nat} (htw : (if j.kind = 0 ∧ sec ≠ 0 then sec - 1 else j.engine.val / 4) = tw)
  (hb : j.addr + (j.sectionAt sec).1 + (j.cursor sec).offset = base) (ho : (j.cursor sec).offset + 64 ≤ (j.sectionAt sec).2)
include htw hb ho

theorem frameRecord_failed (hf : s.loaderFetch j.role tw base 64 = (r, db, ls, u)) (hr : r ≠ .ok) :
    s.frameRecord j sec = u.failTransfer r := by
  rw [State.frameRecord]
  dsimp only
  rw [parallel_tower, htw, hb, if_neg (by omega), hf]
  cases r <;> simp_all

variable (hf : s.loaderFetch j.role tw base 64 = (.ok, db, ls, u))
include hf

theorem frameRecord_wrong (hw : recordWrong j sec db) :
    s.frameRecord j sec = (u.fetched j 64 ls).faultAt j sec 9 (some (j.cursor sec).records) := by
  rw [State.frameRecord]
  dsimp only
  rw [parallel_tower, htw, hb, if_neg (by omega), hf]
  exact if_pos (by simpa [recordWrong, paddedLen] using hw)

variable (hw : ¬recordWrong j sec db)
include hw

theorem frameRecord_fenced {dom : Nat} (hd : u.frameDomain (descOf db) = some dom) (hs : u.fenced dom = true) :
    s.frameRecord j sec = u.frameWaits dom := by
  rw [State.frameRecord]
  dsimp only
  rw [parallel_tower, htw, hb, if_neg (by omega), hf]
  refine (if_neg (by simpa [recordWrong, paddedLen] using hw)).trans ?_
  rw [hd, Option.filter_some, if_pos hs]

theorem frameRecord_frame (hd : ∀ dom, u.frameDomain (descOf db) = some dom → u.fenced dom = false)
    (hp : (u.fetched j 64 ls).loaderFetch j.role tw (base + 64) (paddedLen db) = (.ok, pb, lines, t)) :
    s.frameRecord j sec = (t.fetched j (paddedLen db) lines).frameIn j sec db pb (base + 64) lines := by
  have hnone : (u.frameDomain (descOf db)).filter u.fenced = none := by
    cases h : u.frameDomain (descOf db) with
    | none => rfl
    | some dom => rw [Option.filter_some, hd dom h]; rfl
  rw [State.frameRecord]
  dsimp only
  rw [parallel_tower, htw, hb, if_neg (by omega), hf]
  refine (if_neg (by simpa [recordWrong, paddedLen] using hw)).trans ?_
  rw [hnone]
  dsimp only
  rw [paddedLen] at hp
  rw [hp]
  rfl

end

/-- The cursor after a record of `n` bytes. -/
def Cursor.past (c : Cursor) (bs : List Byte) : Cursor :=
  { c with offset := c.offset + bs.length, records := c.records + 1, bytes := c.bytes ++ bs }

/-- The segments complete after a record are held to their digests. -/
def Job.checked (j : Job) (sec : Nat) (bs : List Byte) : Option Cursor :=
  j.checkSegments sec ((j.cursor sec).past bs) (bs.length / 0x1000000 + 2)

section
variable {bs : List Byte}

theorem recordDone_digest (hc : j.checked sec bs = none) (hk : j.kind ≠ 0) : s.recordDone j sec bs = s.endLoad 0xF noFrame := by
  have hp : (j.setCursor sec ((j.cursor sec).past bs)).parallel sec = false := by simp [Job.parallel, Job.setCursor, hk]
  rw [Job.checked, Cursor.past] at hc
  rw [State.recordDone]
  dsimp only
  rw [hc]
  exact if_neg (by rw [← Cursor.past, hp]; decide)

theorem recordDone_goesOn {c : Cursor} (hc : j.checked sec bs = some c) :
    s.recordDone j sec bs = if (j.setCursor sec c).allOver then (s.putJob (j.setCursor sec c)).completeLoad (j.setCursor sec c)
      else s.putJob (j.setCursor sec c) := by
  rw [Job.checked, Cursor.past] at hc
  rw [State.recordDone]
  dsimp only
  rw [hc]

end

section
variable {d : Desc} {p : List Byte} (hd : descOf db = d) (hp : pb.take d.len = p)
include hd hp

theorem frameIn_sum (h1 : crc32c p ≠ BitVec.ofNat 32 d.crc) :
    s.frameIn j sec db pb from_ ls = s.faultAt j sec 0xA (some (j.cursor sec).records) := by
  simp [State.frameIn, hd, hp, h1]

variable (h1 : crc32c p = BitVec.ofNat 32 d.crc)
include h1

theorem frameIn_permitted (h2 : framePermitted j d = false) :
    s.frameIn j sec db pb from_ ls = s.faultAt j sec 0xB (some (j.cursor sec).records) := by
  simp [State.frameIn, hd, hp, h1, h2]

variable (h2 : framePermitted j d = true)
include h2

theorem frameIn_regions (h3 : frameInRegions j d = false) :
    s.frameIn j sec db pb from_ ls = s.faultAt j sec 0xC (some (j.cursor sec).records) := by
  simp [State.frameIn, hd, hp, h1, h2, h3]

variable (h3 : frameInRegions j d = true)
include h3

theorem frameIn_refused (h4 : s.applyFrame j d p from_ ls = (n, k, u)) (hn : n ≠ 0) :
    s.frameIn j sec db pb from_ ls = u.faultAt j sec n (some (j.cursor sec).records) := by
  simp only [State.frameIn, hd, hp, h1, h2, h3, h4]
  cases n with
  | zero => exact absurd rfl hn
  | succ n => simp

theorem frameIn_done (h4 : s.applyFrame j d p from_ ls = (0, k, u)) : s.frameIn j sec db pb from_ ls = u.recordDone k sec (db ++ pb) := by
  simp [State.frameIn, hd, hp, h1, h2, h3, h4]

end

/-! ### The end of a load -/

theorem loadReg_valid : RegName.LOAD_STAT.valid [] = true ∧ RegName.LOAD_FAULT.valid [] = true := by decide

/-- The result of a load stands in its registers, and no load is under way. -/
structure LoadEnded (s : State) (result frame : Nat) (t : State) : Prop where
  job : t.persona.job = none
  result : t.fld F.LOAD_STAT.RESULT = result
  loader : t.fld F.LOAD_STAT.LOADER = 0
  frame : t.fld F.LOAD_FAULT.FRAME = frame
  fab : t.fab = s.fab
  keeps : Keeps s t [.LOAD_STAT, .LOAD_FAULT]

/-- The result of a load is written into its registers. -/
def State.showResult (s : State) (result frame resp : Nat) : State :=
  (((({ s with persona := { s.persona with job := none } } : State).put F.LOAD_STAT.RESULT result).put F.LOAD_STAT.LOADER 0).put
    F.LOAD_FAULT.FRAME frame).put F.LOAD_FAULT.RESP resp

theorem endLoad_eq (hj : s.persona.job = some j) (hu : s.showResult result frame resp = u)
    (ht : (if j.accepted then u.recordLoad j result frame else u) = t) :
    s.endLoad result frame resp = (if j.accepted && result != 0 then t.failAfter j else t).endChan j result resp := by
  rw [State.showResult] at hu
  rw [State.endLoad, hj]
  dsimp only
  rw [hu, ht]

theorem showResult_ended (hr : result < 256) (hf : frame < 2 ^ 32) : LoadEnded s result frame (s.showResult result frame resp) := by
  obtain ⟨h1, h2⟩ := loadReg_valid
  refine ⟨rfl, ?_, ?_, ?_, rfl, ?_⟩
  · rw [State.showResult, State.fld_put_ne (by decide) (by decide) (by decide), State.fld_put_ne (by decide) (by decide) (by decide),
      State.fld_put_field (f := F.LOAD_STAT.LOADER) (f' := F.LOAD_STAT.RESULT) rfl (by decide) (by decide) (by decide),
      State.fld_put (by decide) (by decide)]
    exact Nat.mod_eq_of_lt (hr.trans (by decide))
  · rw [State.showResult, State.fld_put_ne (by decide) (by decide) (by decide), State.fld_put_ne (by decide) (by decide) (by decide),
      State.fld_put (by decide) (by decide)]
    rfl
  · rw [State.showResult,
      State.fld_put_field (f := F.LOAD_FAULT.RESP) (f' := F.LOAD_FAULT.FRAME) rfl (by decide) (by decide) (by decide),
      State.fld_put (by decide) (by decide)]
    exact Nat.mod_eq_of_lt hf
  · have hstat : RegName.LOAD_STAT ∈ [RegName.LOAD_STAT, .LOAD_FAULT] := by decide
    have hfault : RegName.LOAD_FAULT ∈ [RegName.LOAD_STAT, .LOAD_FAULT] := by decide
    refine Keeps.trans ?_ (.put (f := F.LOAD_FAULT.RESP) hfault h2)
    refine Keeps.trans ?_ (.put (f := F.LOAD_FAULT.FRAME) hfault h2)
    refine Keeps.trans ?_ (.put (f := F.LOAD_STAT.LOADER) hstat h1)
    refine Keeps.trans ?_ (.put (f := F.LOAD_STAT.RESULT) hstat h1)
    exact .of_regs rfl rfl rfl

section
variable (hl : LoadEnded s result frame t)
include hl

theorem LoadEnded.same (hp : u.persona.job = t.persona.job) (hr : u.regs = t.regs) (hf : u.fab = t.fab) (hm : u.mem = t.mem)
    (hs : u.standin = t.standin) : LoadEnded s result frame u := by
  have hfld {f : Fld} : u.fld f = t.fld f := by rw [State.fld, State.reg, hr]; rfl
  exact ⟨hp.trans hl.job, hfld.trans hl.result, hfld.trans hl.loader, hfld.trans hl.frame, hf.trans hl.fab,
    hl.keeps.trans (.of_regs hr hm hs)⟩

/-- LOADER lies below and RESULT above the other fields of LOAD_STAT. -/
theorem LoadEnded.put {f : Fld} (hr : f.reg = .LOAD_STAT) (hf : f.lo ≤ f.hi) (h1 : 1 < f.lo) (h2 : f.hi < 32) :
    LoadEnded s result frame (t.put f n) := by
  have hv : f.reg.valid [] = true := by rw [hr]; exact loadReg_valid.1
  refine ⟨hl.job, ?_, ?_, ?_, hl.fab, hl.keeps.trans (.put (by rw [hr]; decide) hv)⟩
  · exact (State.fld_put_apart (f := F.LOAD_STAT.RESULT) hf (by decide) (fun _ => .inr h2) hv (by decide)).trans hl.result
  · exact (State.fld_put_apart (f := F.LOAD_STAT.LOADER) hf (by decide) (fun _ => .inl h1) hv (by decide)).trans hl.loader
  · exact (State.fld_put_apart (f := F.LOAD_FAULT.FRAME) hf (by decide) (fun h => by rw [hr] at h; exact nomatch h) hv (by decide)).trans
      hl.frame

theorem LoadEnded.failAfter : LoadEnded s result frame (t.failAfter j) := by
  unfold State.failAfter
  split
  · refine LoadEnded.put (f := F.LOAD_STAT.STAGED) ?_ rfl (by decide) (by decide) (by decide)
    exact (hl.put (f := F.LOAD_STAT.PERSONA) rfl (by decide) (by decide) (by decide)).same rfl rfl rfl rfl rfl
  · refine LoadEnded.put (f := F.LOAD_STAT.STAGED) ?_ rfl (by decide) (by decide) (by decide)
    exact hl.same rfl rfl rfl rfl rfl
  · exact hl

theorem LoadEnded.recordLoad {m : Nat} : LoadEnded s result frame (t.recordLoad j n m) := hl.same rfl rfl rfl rfl rfl

theorem LoadEnded.endChan : LoadEnded s result frame (t.endChan j n resp) := hl.same rfl rfl rfl rfl rfl

end

theorem endLoad_ended (hj : s.persona.job = some j) (hr : result < 256) (hf : frame < 2 ^ 32) :
    LoadEnded s result frame (s.endLoad result frame resp) := by
  have hshown : LoadEnded s result frame (s.showResult result frame resp) := showResult_ended hr hf
  rw [endLoad_eq hj rfl rfl]
  refine LoadEnded.endChan ?_
  have hrecorded : LoadEnded s result frame (if j.accepted then (s.showResult result frame resp).recordLoad j result frame
      else s.showResult result frame resp) := by
    split
    · exact hshown.recordLoad
    · exact hshown
  split
  · exact hrecorded.failAfter
  · exact hrecorded

theorem edge_chans {en : Engine} {m : W64 → Bool} : (en.edge n m).chans = en.chans := by
  have hown := congrArg Engine.chans (Engine.own_edge en n m)
  exact hown

theorem endChan_idle (hr : result ≠ 0x12) : ((s.endChan j result resp).eng j.engine).chans[j.ch].state = .idle := by
  rw [State.endChan, State.chanDone, State.eng_onEng, edge_chans, State.onChan, State.eng_onEng]
  simp [hr]

/-- A failed load of a FULL image leaves no personality and nothing staged. -/
theorem failAfter_full (hk : j.kind = 0) : (s.failAfter j).persona_ = 0 ∧ (s.failAfter j).flag F.LOAD_STAT.STAGED = false ∧
    (s.failAfter j).persona.staged = [] := by
  rw [State.failAfter, hk]
  refine ⟨?_, ?_, rfl⟩
  · exact (State.fld_put_field (f := F.LOAD_STAT.STAGED) (f' := F.LOAD_STAT.PERSONA) rfl (by decide) (by decide) (by decide)).trans
      (State.fld_put (f := F.LOAD_STAT.PERSONA) (by decide) (by decide))
  · exact congrArg (· != 0) (State.fld_put (f := F.LOAD_STAT.STAGED) (n := 0) (by decide) (by decide))

theorem endLoad_full (hj : s.persona.job = some j) (ha : j.accepted = true) (hr : result ≠ 0) (hk : j.kind = 0) :
    (s.endLoad result frame resp).persona_ = 0 ∧ (s.endLoad result frame resp).flag F.LOAD_STAT.STAGED = false ∧
      (s.endLoad result frame resp).persona.staged = [] := by
  rw [endLoad_eq hj rfl rfl, if_pos (by simp [ha, hr])]
  exact failAfter_full hk

/-- Settles O43: the header's checks and the records go branch by branch through `headerChecks` and `frameRecord`; the end of a load
writes LOAD_STAT and LOAD_FAULT alone (`endLoad_ended`). -/
theorem loaderCommands : Obligations.LoaderCommands := by
  unfold Obligations.LoaderCommands
  intro s j hj
  dsimp only
  refine ⟨exec_loadHeaderChecks_accepted hj, ?_, fun t hi => exec_loadFrameRecord_idle hj hi, ?_, exec_loadTimeout_none hj,
    exec_loadTimeout_due hj, ?_⟩
  · intro r h ls u ha hf
    have ends {t : State} (he : s.headerChecks j = t) : exec .loadHeaderChecks s = .next (t.abandonForLoad).settle := by
      rw [exec_loadHeaderChecks hj ha, he]
    refine ⟨fun hr => ends (headerChecks_failed hf hr), ?_, ?_, ?_, ?_, ?_⟩
    · rintro rfl h1
      exact ends (headerChecks_form hf rfl h1)
    · rintro rfl h1 h2
      exact ends (headerChecks_state hf rfl h1 h2)
    · rintro rfl h1 h2 h3
      exact ends (headerChecks_lock hf rfl h1 h2 h3)
    · rintro rfl h1 h2 h3 h4
      exact ends (headerChecks_signature hf rfl h1 h2 h3 h4)
    · rintro rfl h1 h2 h3 h4
      refine ⟨fun q tbl lines y hq ht => ends (headerChecks_tableFailed hf rfl h1 h2 h3 h4 ht hq), fun tbl lines y ht => ?_⟩
      have htable := headerChecks_table hf rfl h1 h2 h3 h4 ht
      exact ⟨fun ho => ends (htable.trans (if_neg (by rw [ho]; decide))), fun ho => ends (htable.trans (if_pos ho))⟩
  · intro t ha hl
    have record {u : State} (he : s.loadGoesOn j t.val = u) : exec (.loadFrameRecord t) s = .next u.settle := by
      rw [exec_loadFrameRecord hj ha hl, he]
    have bad {u : State} {n : Nat}
        (he : s.loadGoesOn j t.val = u.faultAt j (j.nextSection t) n (some (j.cursor (j.nextSection t)).records)) :
        (j.kind = 0 ∧ j.nextSection t ≠ 0 → exec (.loadFrameRecord t) s = .next (u.putJob (j.setCursor (j.nextSection t)
          { j.cursor (j.nextSection t) with fault := some (n, some (j.cursor (j.nextSection t)).records) })).settle) ∧
        (¬(j.kind = 0 ∧ j.nextSection t ≠ 0) → exec (.loadFrameRecord t) s =
          .next (u.endLoad n (u.frameIndex j (j.nextSection t) (j.cursor (j.nextSection t)).records)).settle) :=
      ⟨fun hp => record (he.trans (faultAt_apart hp)), fun hp => record (he.trans (faultAt_alone hp))⟩
    refine ⟨fun ho => record (loadGoesOn_over ho), fun ho hc => record (loadGoesOn_fault rfl ho hc),
      fun ho hc hs => record (loadGoesOn_waits rfl ho hc hs), fun ho hc hs => ?_⟩
    have hrec : s.loadGoesOn j t.val = s.frameRecord j (j.nextSection t) := loadGoesOn_record rfl ho hc hs
    refine ⟨fun hw => bad (hrec.trans (frameRecord_outside hw)), fun r db ls u hi hf => ?_⟩
    refine ⟨fun hr => record (hrec.trans (frameRecord_failed rfl rfl hi hf hr)), ?_, ?_, ?_⟩
    · rintro rfl hw
      exact bad (hrec.trans (frameRecord_wrong rfl rfl hi hf hw))
    · rintro dom rfl hw hd hs
      have hwaits := hrec.trans (frameRecord_fenced rfl rfl hi hf hw hd hs)
      exact ⟨fun hk => record (hwaits.trans (if_pos hk)), fun hk => record (hwaits.trans (if_neg (by rw [hk]; decide)))⟩
    · rintro pb lines y rfl hw hd hp
      have hin := hrec.trans (frameRecord_frame rfl rfl hi hf hw hd hp)
      refine ⟨fun h1 => bad (hin.trans (frameIn_sum rfl rfl h1)), fun h1 h2 => bad (hin.trans (frameIn_permitted rfl rfl h1 h2)),
        fun h1 h2 h3 => bad (hin.trans (frameIn_regions rfl rfl h1 h2 h3)), fun h1 h2 h3 => ⟨?_, ?_⟩⟩
      · exact fun f k v h4 hn => bad (hin.trans (frameIn_refused rfl rfl h1 h2 h3 h4 hn))
      · intro k v h4
        have hdone := hin.trans (frameIn_done rfl rfl h1 h2 h3 h4)
        refine ⟨fun hc hk => record (hdone.trans (recordDone_digest hc hk)), fun e hc => ?_⟩
        have hgoes := hdone.trans (recordDone_goesOn hc)
        exact ⟨fun ho => record (hgoes.trans (if_neg (by rw [ho]; decide))), fun ho => record (hgoes.trans (if_pos ho))⟩
  · intro result hr hn
    have hend : LoadEnded s result noFrame (s.failLoad result) := endLoad_ended hj hr (by decide)
    obtain ⟨hjob, hresult, hloader, hframe, hfab, hkeeps⟩ := hend
    refine ⟨hjob, hresult, hloader, hframe, ?_, hfab, fun ha hn hk => endLoad_full hj ha hn hk, hkeeps.mono (by decide)⟩
    rw [State.failLoad, endLoad_eq hj rfl rfl]
    exact endChan_idle hn

end Sys2Proof.Machine
end

section
/-! Host rings, stream-port delivery, the fabric's credits and the flow watchdog (R190, R194, R195, R199, R202, R205, R206): O44. -/

namespace Sys2Proof.Machine

variable {s t u : State} {r : RegName} {ix : List Nat} {f : Fld} {v : W64} {n a i tw q k reader : Nat} {src : EccSource} {b : Bool}
  {qs : List Quad} {ls : List Nat} {found : CellFound} {c : QCell} {x : Item}

/-! ### The registers below those of the memory layer -/

/-- Only registers of the memory layer, or ones above them in the register map, have changed. -/
def BelowLog (s t : State) : Prop := ∀ r ix, r.key ix < 0x030001200800 → t.reg r ix = s.reg r ix

theorem BelowLog.of_regs (h : t.regs = s.regs) : BelowLog s t := fun _ _ _ => by rw [State.reg, h, State.reg]

theorem BelowLog.refl : BelowLog s s := .of_regs rfl

theorem BelowLog.trans (h : BelowLog s t) (k : BelowLog t u) : BelowLog s u := fun r ix hr => (k r ix hr).trans (h r ix hr)

theorem BelowLog.setReg (hr : 0x030001200800 ≤ r.key ix) : BelowLog s (s.setReg r ix v) :=
  fun _ _ hk => State.reg_setReg_of_key (by omega)

theorem BelowLog.foldl {α : Type} {g : State → α → State} (l : List α) (h : ∀ s a, BelowLog s (g s a)) :
    BelowLog s (l.foldl g s) := by
  induction l generalizing s with
  | nil => exact .refl
  | cons a l ih => exact (h s a).trans ih

theorem logKeys_from : 0x030001200800 ≤ RegName.ECC_STAT.key [tw] ∧ 0x030001200800 ≤ RegName.ECC_ADDR.key [tw, i] ∧
    0x030001200800 ≤ RegName.ECC_INFO.key [tw, i] ∧ 0x030001200800 ≤ RegName.BANK_STAT.key [tw, i] := by
  simp only [RegName.key, RegName.addr, RegName.place, ixOffset, reduceCtorEq, if_false]
  omega

theorem BelowLog.put_eccStat (hf : f.reg = .ECC_STAT) : BelowLog s (s.put f n [tw]) :=
  .setReg (by rw [hf]; exact (logKeys_from (i := 0)).1)

theorem BelowLog.put_bankStat (hf : f.reg = .BANK_STAT) : BelowLog s (s.put f n [tw, i]) :=
  .setReg (by rw [hf]; exact logKeys_from.2.2.2)

theorem BelowLog.eccAdd : BelowLog s (s.eccAdd tw a src n v) := by
  have hset {s : State} {i : Nat} {v w : W64} : BelowLog s ((s.setReg .ECC_ADDR [tw, i] v).setReg .ECC_INFO [tw, i] w) :=
    BelowLog.trans (.setReg logKeys_from.2.1) (.setReg logKeys_from.2.2.1)
  have hshift : BelowLog s (s.eccShift tw) := .foldl _ fun _ _ => hset
  unfold State.eccAdd
  dsimp only
  split
  · exact .refl
  · split
    · exact BelowLog.trans hset ((BelowLog.put_eccStat rfl).trans (.put_eccStat rfl))
    · split
      · exact hshift.trans (BelowLog.trans hset (.put_eccStat rfl))
      · exact .put_eccStat rfl

theorem BelowLog.eccError : BelowLog s (s.eccError tw a b src reader) := by
  have hdraw {s : State} {n : Nat} : BelowLog s (s.drawSyndrome n) := by
    unfold State.drawSyndrome
    split <;> exact .of_regs rfl
  have henter {s : State} : BelowLog s (s.eccEnter tw a b src reader) := hdraw.trans .eccAdd
  unfold State.eccError
  dsimp only
  split
  · exact (BelowLog.put_eccStat rfl).trans henter
  · exact (BelowLog.put_eccStat rfl).trans henter

theorem BelowLog.memRead : BelowLog s (s.memRead a reader).2 := by
  have herror {x : Bool} {src : EccSource} : BelowLog s (s.bankError (memTower a) (memBank a) a x src reader) := by
    unfold State.bankError
    dsimp only
    split
    · exact (BelowLog.put_bankStat rfl).trans .eccError
    · exact (BelowLog.put_bankStat rfl).trans .eccError
  unfold State.memRead
  dsimp only
  split
  · exact herror
  · split
    · exact herror
    · exact .refl

theorem BelowLog.readWords : BelowLog s (s.readWords reader a n).2 := by
  induction n generalizing s a with
  | zero => exact .refl
  | succ n ih => exact BelowLog.memRead.trans ih

theorem BelowLog.readCell : BelowLog s (s.readCell q i) := by
  unfold State.readCell
  split
  · exact .refl
  · exact .readWords

/-! ### The ring indices -/

/-- The ring indices of queue `q` are as they were. -/
def RingKept (q : Nat) (s t : State) : Prop := t.reg .Q_RING_IDX [q] = s.reg .Q_RING_IDX [q]

theorem RingKept.trans (h : RingKept q s t) (k : RingKept q t u) : RingKept q s u := Eq.trans k h

theorem RingKept.pi (h : RingKept q s t) : t.ringPi q = s.ringPi q := congrArg (bitsOf · _ _) h
theorem RingKept.ci (h : RingKept q s t) : t.ringCi q = s.ringCi q := congrArg (bitsOf · _ _) h

section
variable (hq : q < 8192)
include hq

theorem RingKept.of_keeps {rs : List RegName} (h : KeepsRegs s t rs) (hr : RegName.Q_RING_IDX ∉ rs) : RingKept q s t :=
  h _ _ (ringIdx_valid hq) hr

theorem RingKept.of_onlyEvents (h : OnlyEvents s t) : RingKept q s t := h.reg _ _ (ringIdx_valid hq) (by decide)

theorem RingKept.of_belowLog (h : BelowLog s t) : RingKept q s t := by
  refine h _ _ ?_
  simp only [RegName.key, RegName.addr, RegName.place, ixOffset, reduceCtorEq, if_false]
  omega

theorem RingKept.grant : RingKept q s (s.grant q n) := .of_keeps hq (State.grant_keepsRegs hq) (by decide)

theorem RingKept.pushCell : RingKept q s (s.pushCell q x ls) := .of_keeps hq (State.pushCell_keepsRegs hq) (by decide)

theorem RingKept.qmRead {rp : Resp} (h : s.qmRead a = (rp, qs, ls, u)) : RingKept q s u := by
  have hread : OnlyEvents s (s.qmRead a).2.2.2 := by
    unfold State.qmRead State.devRead
    split
    · split
      · exact (OnlyEvents.setVault _).trans ((OnlyEvents.tally (by decide)).trans (.tally (by decide)))
      · exact .refl s
    · exact .refl s
  rw [h] at hread
  exact .of_onlyEvents hq hread

omit hq in
theorem errRecord_keeps {target : Option Nat} {type source queue : Nat} {resp : Resp} {addr : W64} :
    KeepsRegs s (s.errRecord target type resp source queue addr) (.ERR_LOST :: pushRegs) := by
  have hlost : KeepsRegs s (s.count F.ERR_LOST.COUNT) (.ERR_LOST :: pushRegs) := .put (by decide) (by decide)
  unfold State.errRecord
  split
  · exact hlost
  · next q heq =>
    split
    · split
      · next h => exact (State.autoPush_keepsRegs (State.errQueue_lt heq) h).mono (List.subset_cons_self _ _)
      · exact hlost
    · exact hlost

theorem faultQueue_keeps {type : Nat} {resp : Resp} {addr : W64} :
    KeepsRegs s (s.faultQueue q type resp addr) (.ERR_LOST :: pushRegs) := by
  unfold State.faultQueue
  split
  · exact .refl
  · have hcredits : KeepsRegs s (s.setCredits q 0) (.ERR_LOST :: pushRegs) :=
      (State.setCredits_keepsRegs hq).mono (List.subset_cons_self _ _)
    exact hcredits.trans (.trans (.put (by decide) (queue_valid hq).1) errRecord_keeps)

theorem freeCell_keeps : KeepsRegs s (s.freeCell q n) pushRegs :=
  KeepsRegs.trans (t := s.setSlots q ((s.slots q).eraseIdx n)) (.of_regs rfl)
    (.trans (.put (f := F.Q_SEQ.HEAD) (by decide) (queue_valid hq).2) (State.watermark_keepsRegs hq))

theorem RingKept.popCell : RingKept q s (s.popCell q) := by
  have hfree : KeepsRegs s (s.freeCell q 0) (.ERR_LOST :: pushRegs) := (freeCell_keeps hq).mono (List.subset_cons_self _ _)
  refine .of_keeps hq (rs := .ERR_LOST :: pushRegs) ?_ (by decide)
  unfold State.popCell State.takeCell
  split
  · exact hfree.trans (faultQueue_keeps hq)
  · exact hfree

/-! ### To-design rings -/

/-- The queue with a credit asked for, if it had none. -/
def State.credited (s : State) (q : Nat) : State := if s.credits q = 0 then s.grant q 1 else s

theorem RingKept.credited : RingKept q s (s.credited q) := by
  unfold State.credited
  split
  · exact .grant hq
  · exact rfl

omit hq in
theorem ringFetch_noCredit (hc : (s.credited q).credits q = 0) : s.ringFetch q = s.credited q := if_pos hc

theorem ringFetch_read (hc : (s.credited q).credits q ≠ 0) (hr : (s.credited q).qmRead (s.ringAddr q (s.ringCi q)) = (.ok, qs, ls, u)) :
    s.ringFetch q = ((u.pushCell q (BitVec.ofNat 512 (joinQuads qs)) ls).put F.Q_RING_IDX.CI ((s.ringCi q + 1) % 2 ^ 32)
      [q]).writeBack q := by
  have hci : (u.pushCell q (BitVec.ofNat 512 (joinQuads qs)) ls).ringCi q = s.ringCi q :=
    (((RingKept.credited hq).trans (.qmRead hq hr)).trans (.pushCell hq)).ci
  refine (if_neg hc).trans ?_
  rw [← State.credited, hr]
  dsimp only
  rw [hci]

omit hq in
theorem ringFetch_failed {rp : Resp} (hc : (s.credited q).credits q ≠ 0)
    (hr : (s.credited q).qmRead (s.ringAddr q (s.ringCi q)) = (rp, qs, ls, u)) (hrp : rp ≠ .ok) :
    s.ringFetch q = u.faultQueue q 3 rp (BitVec.ofNat 64 (s.ringAddr q (s.ringCi q))) := by
  refine (if_neg hc).trans ?_
  rw [← State.credited, hr]
  cases rp <;> simp_all

/-! ### From-design rings -/

/-- The head item has left the queue for entry PI of its ring. -/
def State.ringPopped (s : State) (q : Nat) : State :=
  ((s.readCell q 0).popCell q).put F.Q_RING_IDX.PI ((s.ringPi q + 1) % 2 ^ 32) [q]

theorem ringWrite_issued (hw : (s.ringPopped q).qmWrite (s.ringAddr q (s.ringPi q)) (itemQuads c.item) = (.ok, u)) :
    s.ringWrite q c = u.writeBack q := by
  have hpi : ((s.readCell q 0).popCell q).ringPi q = s.ringPi q := ((RingKept.of_belowLog hq .readCell).trans (.popCell hq)).pi
  unfold State.ringWrite
  dsimp only
  rw [hpi, ← State.ringPopped, hw]

theorem ringWrite_failed {rp : Resp} (hrp : rp ≠ .ok)
    (hw : (s.ringPopped q).qmWrite (s.ringAddr q (s.ringPi q)) (itemQuads c.item) = (rp, u)) :
    s.ringWrite q c = u.faultQueue q 3 rp (BitVec.ofNat 64 (s.ringAddr q (s.ringPi q))) := by
  have hpi : ((s.readCell q 0).popCell q).ringPi q = s.ringPi q := ((RingKept.of_belowLog hq .readCell).trans (.popCell hq)).pi
  unfold State.ringWrite
  dsimp only
  rw [hpi, ← State.ringPopped, hw]
  cases rp <;> simp_all

end

section
variable {qn : Qn}

theorem exec_ringWrite_empty (ht : s.findCell qn.val 0 found = t) (hc : t.headCell qn.val = none) :
    exec (.ringWrite qn found) s = .next t := by
  simp [exec, execRingWrite, ht, hc]

/-- The queue manager runs and the queue, which is not faulted, has a ring at its end. -/
theorem exec_ringWrite (ht : s.findCell qn.val 0 found = t) (hc : t.headCell qn.val = some c) (hr : t.consumer qn.val = .ring)
    (hf : t.flag F.Q_STAT.FAULTED [qn.val] = false) (hp : t.qmRuns = true) :
    exec (.ringWrite qn found) s = if c.poison then .next (t.tellPoison qn.val).settle
      else if t.ringFull qn.val then .next t else .next (t.ringWrite qn.val c).settleV := by
  rw [exec, execRingWrite, ht, hc]
  exact if_pos ⟨hr, hf, hp⟩

theorem exec_ringFetch (hr : s.producer qn.val = .ring) (hf : s.flag F.Q_STAT.FAULTED [qn.val] = false)
    (hi : s.ringPi qn.val ≠ s.ringCi qn.val) (hp : s.qmRuns = true) :
    exec (.ringFetch qn) s = .next (s.ringFetch qn.val).settleV := if_pos ⟨hr, hf, hi, hp⟩

theorem exec_ringFetch_idle (h : ¬(s.producer qn.val = .ring ∧ s.flag F.Q_STAT.FAULTED [qn.val] = false ∧
    s.ringPi qn.val ≠ s.ringCi qn.val ∧ s.qmRuns = true)) : exec (.ringFetch qn) s = .next s := if_neg h

theorem qmRuns_iff : s.qmRuns = true ↔ s.pd (pdNE 0) = 1 := beq_iff_eq

theorem ringFull_iff (hr : s.consumer q = .ring) : s.ringFull q = true ↔ s.ringSize q ≤ ringUsed (s.ringPi q) (s.ringCi q) := by
  simp [State.ringFull, hr]

theorem headCell_told {first : QSlot} {rest : List QSlot} (hc : s.headCell q = some c) (hs : s.slots q = first :: rest) :
    c.told = first.told := by
  rw [State.headCell, State.items, hs] at hc
  have hseen : s.seen first = c := Option.some.inj hc
  rw [← hseen, State.seen]

theorem tellPoison_told (hc : s.headCell q = some c) (ht : c.told = true) : s.tellPoison q = s := by
  cases hs : s.slots q with
  | nil => simp [State.tellPoison, hs]
  | cons first rest => simp [State.tellPoison, hs, ← headCell_told hc hs, ht]

theorem tellPoison_untold {first : QSlot} {rest : List QSlot} (hc : s.headCell q = some c) (ht : c.told = false)
    (hs : s.slots q = first :: rest) : s.tellPoison q =
      ((s.readCell q 0).setSlots q ({ first with told := true } :: rest)).errRecord none 6 .ok 17 q 0 := by
  have hfirst := headCell_told hc hs
  simp [State.tellPoison, hs, ← hfirst, ht]

/-! ### Stream ports, the fabric's credits and the watchdog -/

theorem exec_streamDelivery {fl : Flow} (hk : s.flowIn fl.val = some k)
    (hu : s.findCell k (s.ahead fl.val k + s.delivered fl.val) found = u) :
    exec (.streamDelivery fl found) s = .next (u.deliverItem fl.val).settle := by
  simp [exec, execStreamDelivery, hk, hu]

section
variable (hk : u.flowIn n = some q) (hi : u.ahead n q + u.delivered n = i) (hr : u.qmRuns = true)
  (hf : u.flag F.Q_STAT.FAULTED [q] = false)
include hk hi hr hf

theorem deliverItem_badLink (hd : u.delivered n < 2) (hc : i < u.qCount q) (h0 : 0 < i) (hb : u.badLink q (i - 1) = true) :
    u.deliverItem n = u.faultQueue q 5 .ok := by
  simp [State.deliverItem, hk, hi, hr, hf, hd, hc, h0, hb]

theorem deliverItem_delivers (hd : u.delivered n < 2) (hc : i < u.qCount q) (hb : i = 0 ∨ u.badLink q (i - 1) = false) :
    u.deliverItem n = (u.readCell q i).setDelivered n (u.delivered n + 1) := by
  have hgood : (decide (0 < i) && u.badLink q (i - 1)) = false := by
    obtain hb | hb := hb <;> simp [hb]
  simp [State.deliverItem, hk, hi, hr, hf, hd, hc, hgood]

omit hr hf in
theorem deliverItem_full (hd : 2 ≤ u.delivered n ∨ u.qCount q ≤ i) : u.deliverItem n = u := by
  unfold State.deliverItem
  rw [hk]
  exact if_neg (by rw [hi]; omega)

end

theorem exec_fabricCreditGrant (hp : s.producer qn.val = .fabric) (hr : s.qmRuns = true)
    (hn : s.credits qn.val + s.fabricTaken qn.val < 2)
    (hl : s.qCount qn.val + (s.credits qn.val + s.fabricTaken qn.val) < s.fld F.Q_LEVEL.LIMIT [qn.val]) :
    exec (.fabricCreditGrant qn) s = .next (s.grant qn.val 1).settleV := if_pos ⟨hp, hn, hl, hr⟩

theorem exec_fabricCreditGrant_none (hn : 2 ≤ s.credits qn.val + s.fabricTaken qn.val ∨
    s.fld F.Q_LEVEL.LIMIT [qn.val] ≤ s.qCount qn.val + (s.credits qn.val + s.fabricTaken qn.val)) :
    exec (.fabricCreditGrant qn) s = .next s := if_neg (by omega)

theorem findCell_slot {slot : QSlot} (hs : (s.slots q)[i]? = some slot) :
    (s.findCell q i .clean = s) ∧ (s.findCell q i .corrected = s.upset slot.addr false) ∧
      (s.findCell q i .uncorrectable = s.upset slot.addr true) ∧
      (s.findCell q i .link = { s with linkBad := listAdd s.linkBad slot.link }) := by
  simp [State.findCell, hs]

end

/-- Settles O44: what the queue manager finds on its way leaves the ring indices alone, so the entry fetched or written is the one that
CI or PI names when the command begins (`RingKept`). -/
theorem ringAndStreamCommands : Obligations.RingAndStreamCommands := by
  unfold Obligations.RingAndStreamCommands
  intro s₀ q f found
  dsimp only
  have hq := q.isLt
  generalize ht : s₀.findCell q.val 0 found = s
  refine ⟨?_, ?_, ?_, ?_, exec_ringWrite_empty ht, ?_, ?_, ?_, ?_⟩
  · intro c hc
    obtain ⟨h1, h2, h3, h4⟩ := findCell_slot (i := 0) hc
    refine ⟨?_, ?_, ?_, ?_⟩ <;> rintro rfl <;> rw [← ht] <;> assumption
  · intro hp hf hr hi
    have hfetch := exec_ringFetch hp hf hi (qmRuns_iff.mpr hr)
    refine ⟨fun hc => ?_, fun hc => ⟨fun qs ls u hu => ?_, fun r qs ls u hrp hu => ?_⟩⟩
    · rw [hfetch, ringFetch_noCredit hc]; rfl
    · rw [hfetch, ringFetch_read hq hc hu]; rfl
    · rw [hfetch, ringFetch_failed hc hu hrp]; rfl
  · intro h
    refine exec_ringFetch_idle fun hall => ?_
    obtain ⟨hp, hf, hi, hr⟩ := hall
    obtain h | h | h | h := h
    · exact h hp
    · exact hi h
    · exact h (qmRuns_iff.mp hr)
    · exact h hf
  · intro c hc hr hf hp
    have hwrite := exec_ringWrite ht hc hr hf (qmRuns_iff.mpr hp)
    refine ⟨fun h1 h2 => ?_, fun h1 h2 first rest hs => ?_, fun h1 h2 => ?_, fun h1 h2 => ?_⟩
    · rw [hwrite, if_pos h1, tellPoison_told hc h2]
    · rw [hwrite, if_pos h1, tellPoison_untold hc h2 hs]
    · have hfull : s.ringFull q.val = true := (ringFull_iff hr).mpr h2
      rw [hwrite, if_neg (by simp [h1]), if_pos hfull]
    · have hroom : ¬s.ringFull q.val = true := fun h => Nat.not_le.mpr h2 ((ringFull_iff hr).mp h)
      refine ⟨fun u hu => ?_, fun r u hrp hu => ?_⟩
      · rw [hwrite, if_neg (by simp [h1]), if_neg hroom, ringWrite_issued hq hu]
      · rw [hwrite, if_neg (by simp [h1]), if_neg hroom, ringWrite_failed hq hrp hu]; rfl
  · intro k hk
    have hdeliver := exec_streamDelivery (found := found) hk rfl
    generalize s₀.findCell k (s₀.ahead f.val k + s₀.delivered f.val) found = u at hdeliver ⊢
    refine ⟨?_, ?_, ?_⟩
    · rintro ⟨hr, hf, hk, hi⟩ hd hc h0 hb
      rw [hdeliver, deliverItem_badLink hk hi hr hf hd hc h0 hb]
    · rintro ⟨hr, hf, hk, hi⟩ hd hc hb
      rw [hdeliver, deliverItem_delivers hk hi hr hf hd hc hb]
    · rintro ⟨-, -, hk, hi⟩ hd
      rw [hdeliver, deliverItem_full hk hi hd]
  · exact fun hp hr => ⟨fun hn hl => exec_fabricCreditGrant hp (qmRuns_iff.mpr hr) hn hl, exec_fabricCreditGrant_none⟩
  · intro hw hl hs
    exact if_pos (by simpa [hw, hl] using hs)
  · intro h
    refine if_neg ?_
    obtain h | h | ⟨h1, h2⟩ := h
    · simp [h]
    · simp [h]
    · simp [h1, h2]

end Sys2Proof.Machine
end

section
/-! Requests of the package network: design memory, refusals in their order, what routers find, responses taken (R10, R26, R159, R160,
R210 to R217, R220, R221, R229): O45. -/

namespace Sys2Proof.Machine

variable {s t u : State} {rq : Rq} {role : Role} {op : ReqOp} {a n len : Nat} {r : Resp} {d : Payload} {v : W64} {q : Quad}

/-! ### Refusals in their order -/

theorem request_form (hf : formRefusal rq op a n = some r) : s.request rq op a n = s.respond rq op a n r 0 := by
  cases hr : s.roleOf rq <;> simp [State.request, hr, hf, State.serve, State.arrive]

/-- The request has a form that an endpoint sends, and an address that one serves. -/
structure Formed (rq : Rq) (op : ReqOp) (a n : Nat) : Prop where
  form : formRefusal rq op a n = none
  assigned : Machine.assigned rq op a n = true

theorem request_unassigned (hf : formRefusal rq op a n = none) (ha : assigned rq op a n = false) :
    s.request rq op a n = s.respond rq op a n .decodeError 0 := by
  cases hr : s.roleOf rq <;> simp [State.request, hr, hf, ha, State.serve, State.arrive]

theorem Formed.arrive {poison : Bool} {who : HeldBy} (h : Formed rq op a n) (ho : s.targetOff rq a = false) :
    s.arrive rq role who op a n poison = none := by
  simp [State.arrive, h.form, h.assigned, ho]

section
variable (h : Formed rq op a n)
include h

theorem Formed.unbound (hr : s.roleOf rq = none) : s.request rq op a n = s.respond rq op a n .roleDenied 0 := by
  simp [State.request, hr, h.form, h.assigned]

variable (hr : s.roleOf rq = some role)
include hr

theorem Formed.held (ho : s.targetOff rq a = true) (hw : s.wakes rq a = true) :
    s.request rq op a n = s.holdAt rq role .bus op a n := by
  simp [State.request, hr, State.serve, State.arrive, h.form, h.assigned, ho, hw]

theorem Formed.off (ho : s.targetOff rq a = true) (hw : s.wakes rq a = false) :
    s.request rq op a n = (s.offRefusal rq a).respond rq op a n .domainOff 0 := by
  simp [State.request, hr, State.serve, State.arrive, h.form, h.assigned, ho, hw]

theorem Formed.layerReset (ho : s.targetOff rq a = false) (hh : s.targetHeld a = true) :
    s.request rq op a n = s.respond rq op a n .layerReset 0 := by
  simp [State.request, hr, State.serve, h.arrive ho, State.serveOn, hh]

theorem Formed.poisoned (ho : s.targetOff rq a = false) (hh : s.targetHeld a = false) :
    s.requestPoisoned rq op a n = s.respond rq op a n .uncorrectable 0 := by
  simp [State.requestPoisoned, hr, h.arrive ho, hh]

end

theorem request_serve (hr : s.roleOf rq = some role) (hs : s.serve rq role .bus op a n = (.done r d, u)) :
    s.request rq op a n = u.respond rq op a n r d := by
  simp [State.request, hr, hs]

/-! ### What routers find -/

theorem requestUnanswered_lost (hu : s.request rq op a n = u) (hp : op.isPosted = false)
    (hn : u.answers.length ≠ s.answers.length ∨ u.hostOut.length ≠ s.hostOut.length) :
    s.requestUnanswered rq op a n =
      { u with answers := s.answers, hostOut := u.hostOut.filter fun m => s.hostOut.contains m, lost := u.lost ++ [rq] } := by
  have hsent : ¬(u.answers.length = s.answers.length ∧ u.hostOut.length = s.hostOut.length) := by tauto
  rw [State.requestUnanswered, hu]
  refine (if_neg hsent).trans ?_
  rw [State.loseAnswer, hp]
  rfl

theorem requestSpoilt_uncorrectable (hw : op.isWrite = false) (hr : s.roleOf rq = some role)
    (hs : s.serve rq role .bus op a n = (.done .ok d, u)) : s.requestSpoilt rq op a n = u.respond rq op a n .uncorrectable 0 := by
  simp [State.requestSpoilt, hw, hr, hs]

theorem requestOver_arrayError {x : Bool} (ha : a < 0x100000000) :
    s.requestOver (.arrayError x) rq op a n = (s.upset (a / 16 * 16) x).request rq op a n :=
  congrArg (fun u => State.request u rq op a n) (if_pos (spaceOf_memory ha))

theorem discardPacket_lost {t i x k : Nat} : (s.discardPacket t i x k).lost = s.lost := rfl

/-! ### Responses -/

theorem respond_refused (h : r ≠ .ok) : s.respond rq .read a len r d = s.answer rq true r len 0 ∧
    s.respond rq (.write d) a len r 0 = s.answer rq false r 0 0 ∧ s.respond rq (.amoadd v) a 16 r d = s.answer rq true r 8 0 ∧
    s.respond rq (.posted d) a len r 0 = s.postedFailed rq r (queueAt a) (BitVec.ofNat 64 a) := by
  simp [State.respond, h, State.refuse]

theorem dropAnswer_first {before after : List Answer} {x : Answer} (hx : x.rq = rq)
    (hb : ∀ y ∈ before, ¬(y.rq = rq ∧ y.read = x.read)) : dropAnswer rq x.read (before ++ x :: after) = before ++ after := by
  induction before with
  | nil => simp [dropAnswer, hx]
  | cons y ys ih =>
    rw [List.cons_append, dropAnswer, if_neg (hb y (by simp)), ih fun z hz => hb z (by simp [hz])]
    rfl

/-! ### Fences -/

theorem targetOff_memory (ha : a < 0x100000000) : s.targetOff rq a = s.portFenced (groupEnd (memTower a) (memBank a / 32)) := by
  have hport : portOf rq a = groupEnd (memTower a) (memBank a / 32) := by
    simp [portOf, endpointOf, spaceOf_memory ha]
  have hdom : addrDomain rq a = (groupEnd (memTower a) (memBank a / 32)).dom := by
    simp only [addrDomain, spaceOf_memory ha, groupEnd, pdQuad]
    omega
  rw [State.targetOff, hport, hdom]
  simp [State.portOff, Endpoint.isMemLayer, groupEnd]

theorem wakes_iff : s.wakes rq a = true ↔
    s.portOff (portOf rq a) = true ∧ s.flag F.PD_CTRL.WAKE_ON_ACCESS [(portOf rq a).dom] = true ∧
    (s.wakeHeld (portOf rq a).tower (portOf rq a).router).length < 64 := by
  simp [State.wakes, State.wakeRoom, and_assoc]

/-! ### Design memory -/

theorem queueAt_memory (ha : a < 0x100000000) : queueAt a = 0xFFFF := by
  simp [queueAt, spaceOf_memory ha]

section
variable (h : ReachesBank s rq a) (hr : s.roleOf rq = some role)
include h hr

theorem ReachesBank.request (hf : MemForm op a n) (hs : s.serveMemory rq role .bus op a n = (r, d, u)) (hd : r ≠ .roleDenied) :
    s.request rq op a n = u.respond rq op a n r d := by
  refine request_serve hr ?_
  rw [h.serve hf, hs]
  exact State.countDenied_of_ne hd

theorem ReachesBank.request_denied (hf : MemForm op a n) (hs : s.serveMemory rq role .bus op a n = (.roleDenied, d, s)) :
    s.request rq op a n = s.denied.respond rq op a n .roleDenied d := by
  refine request_serve hr ?_
  rw [h.serve hf, hs]
  rfl

end

theorem readerOf_bus : readerOf rq .bus = if isHost rq then readerPortB else readerEngine := by
  cases h : rq.agent <;> simp [readerOf, isHost, h]

theorem readWords_bad {reader : Nat} (hb : s.memBadAt a = true) :
    s.readWords reader a 1 = (none, s.bankError (memTower a) (memBank a) a true (s.bankSource (memTower a) (memBank a)) reader) := by
  simp [State.readWords, State.memRead, hb]

theorem addedWord_append : addedWord q v = wordAt q 1 ++ (wordAt q 0 + v) := rfl

/-! ### The commands -/

/-- The requests of the network at an address: command, operation and length. -/
def requestCommands (rq : Rq) (addr : Addr) (len : Nat) (data : Payload) (v : W64) : List ((Path → Instr) × ReqOp × Nat) :=
  [(.read rq addr len, .read, len), (.write rq addr len data, .write data, len), (.writePosted rq addr len data, .posted data, len),
    (.amoaddRequest rq addr v, .amoadd v, 16)]

section
variable {c : (Path → Instr) × ReqOp × Nat} {addr : Addr} {data : Payload}

theorem requestCommands_exec (hc : c ∈ requestCommands rq addr len data v) (p : Path) (s : State) :
    exec (c.1 p) s = .next (s.requestOver p rq c.2.1 addr.toNat c.2.2).finish := by
  simp only [requestCommands, List.mem_cons, List.not_mem_nil, or_false] at hc
  obtain rfl | rfl | rfl | rfl := hc <;> rfl

end

/-- Settles O45: a request goes through its checks one by one (`request_form`, `Formed`), and then to its bank (`ReachesBank.request`). -/
theorem networkRequests : Obligations.NetworkRequests := by
  unfold Obligations.NetworkRequests
  intro s rq role addr len data v
  dsimp only
  generalize ha : addr.toNat = a
  refine ⟨?_, ?_, fun r hr => respond_refused hr, targetOff_memory, wakes_iff, ?_⟩
  · intro hreach hmem hquiet
    obtain ⟨hrole, hon, hheld⟩ := hreach
    have hbank : ReachesBank s rq a := ⟨hmem, hon, hheld, hquiet⟩
    have hread : exec (.read rq addr len .clean) s = .next (s.request rq .read a len).finish := by rw [← ha]; rfl
    have hwrite : exec (.write rq addr len data .clean) s = .next (s.request rq (.write data) a len).finish := by rw [← ha]; rfl
    have hposted : exec (.writePosted rq addr len data .clean) s = .next (s.request rq (.posted data) a len).finish := by rw [← ha]; rfl
    have hadd : exec (.amoaddRequest rq addr v .clean) s = .next (s.request rq (.amoadd v) a 16).finish := by rw [← ha]; rfl
    rw [hread, hwrite, hposted, hadd]
    refine ⟨fun hwide => ⟨?_, ?_, ?_, ?_, ?_, ?_⟩, ?_⟩
    · intro hok hsound
      rw [hbank.request hrole ⟨hwide⟩ (hbank.serveMemory_read hok (State.readWords_sound hsound)) (by decide)]
      rfl
    · rintro hok rfl hbad
      rw [hbank.request hrole ⟨hwide⟩ (hbank.serveMemory_unread hok (readWords_bad hbad)) (by decide), readerOf_bus]
      rfl
    · intro hok
      rw [hbank.request hrole ⟨hwide⟩ (hbank.serveMemory_write rfl hok) (by decide),
        hbank.request hrole ⟨hwide⟩ (hbank.serveMemory_write rfl hok) (by decide)]
      exact ⟨rfl, rfl⟩
    · intro r hno hr hd
      rw [hbank.request hrole ⟨hwide⟩ (serveMemory_refused (op := .read) hno hr) hd, (respond_refused (v := v) hr).1]
    · intro hno
      rw [hbank.request_denied hrole ⟨hwide⟩ (serveMemory_refused (op := .read) hno (by decide))]
      rfl
    · intro r hno hr hd
      rw [hbank.request hrole ⟨hwide⟩ (serveMemory_refused (op := .write data) hno hr) hd,
        hbank.request hrole ⟨hwide⟩ (serveMemory_refused (op := .posted data) hno hr) hd]
      obtain ⟨-, h1, -, h2⟩ := respond_refused (s := s) (rq := rq) (a := a) (len := len) (d := data) (v := v) hr
      rw [h1, h2, queueAt_memory hmem]
      exact ⟨rfl, rfl⟩
    · intro hal hok hb hs
      rw [hbank.request hrole ⟨wideOk_word hal⟩ (hbank.serveMemory_add hok (State.memRead_sound ⟨hb, hs⟩)) (by decide)]
      rfl
  · intro c hc
    have hexec := requestCommands_exec hc
    obtain ⟨cmd, op, n⟩ := c
    dsimp only at hexec ⊢
    rw [ha] at hexec
    have hclean : exec (cmd .clean) s = .next (s.request rq op a n).finish := hexec .clean s
    rw [hclean]
    refine ⟨?_, ?_, ?_, ?_, ?_, ?_, ?_, ?_, ?_, ?_, ?_, ?_⟩
    · intro hs
      simp [formRefusal, hs]
    · intro hm hw hn
      simp [formRefusal, spaceOf_memory hm, hw, hn]
    · intro r hf
      rw [request_form hf]
    · intro hf hn
      rw [request_unassigned hf hn]
    · rintro ⟨hf, hn⟩ hr
      rw [Formed.unbound ⟨hf, hn⟩ hr]
    · rintro ⟨hf, hn⟩ hr ho
      refine ⟨fun hw => ?_, fun hw => ?_⟩
      · rw [Formed.held ⟨hf, hn⟩ hr ho hw]; rfl
      · rw [Formed.off ⟨hf, hn⟩ hr ho hw]
    · rintro ⟨hf, hn⟩ hr ho hh
      rw [Formed.layerReset ⟨hf, hn⟩ hr ho hh]
    · intro t r
      rw [hexec, hexec]
      rfl
    · intro x hm
      rw [hexec, hexec, requestOver_arrayError hm]
      rfl
    · intro t r input
      rw [hexec, hexec]
      refine ⟨?_, fun u hp hu hn => ?_⟩
      · rw [State.requestOver, State.loseAnswer, discardPacket_lost]
        split <;> rfl
      · rw [State.requestOver, requestUnanswered_lost hu hp hn]
        rfl
    · rintro ⟨hf, hn⟩ ⟨hr, ho, hh⟩
      rw [hexec, State.requestOver, Formed.poisoned ⟨hf, hn⟩ hr ho hh]
    · intro d u hw hr hs
      rw [hexec, State.requestOver, requestSpoilt_uncorrectable hw hr hs]
  · intro before x after hs hx
    have hdrop (read : Bool) (hread : x.read = read) (hb : ∀ y ∈ before, ¬(y.rq = rq ∧ y.read = read)) :
        dropAnswer rq read s.answers = before ++ after := by
      subst hread
      rw [hs, dropAnswer_first hx hb]
    refine ⟨fun hr hb => ?_, fun hr hb => ?_⟩
    · rw [← hdrop true hr hb]; rfl
    · rw [← hdrop false hr hb]; rfl

end Sys2Proof.Machine
end

section
/-! Events, queue operations, maintenance and relay packets, timeouts, router holds, holds for a domain that does not wake (R83, R186,
R188, R189, R205, R211, R217, R220 to R223, R229, R236): O46. -/

namespace Sys2Proof.Machine

variable {s t u : State} {rq : Rq} {role : Role} {op : ReqOp} {a n k : Nat} {e : Eng} {b : Fin 64} {w v : W64} {x : Item} {q : Qn}
  {h : Held} {c : QCell}

/-! ### Packets at their block -/

section
variable {o : QOp} (hr : s.roleOf rq = some role)
include hr

theorem exec_queueOp : exec (.queueOp rq q o) s = .next (s.packet rq role (.queue q o) (queueAddr q)).finish := by
  simp [exec, execQueueOp, hr]

end

theorem exec_queueOp_unbound {o : QOp} (hr : s.roleOf rq = none) :
    exec (.queueOp rq q o) s = .next (s.answer rq true .roleDenied 0 0) := by
  simp [exec, execQueueOp, hr]

section
variable (ho : s.targetOff rq a = true)
include ho

theorem packet_held (hw : s.wakes rq a = true) : s.packet rq role op a = s.holdAt rq role .bus op a 8 := by
  simp [State.packet, ho, hw]

theorem packet_off (hw : s.wakes rq a = false) : s.packet rq role op a = (s.offRefusal rq a).refuse rq op a .domainOff := by
  simp [State.packet, ho, hw]

end

section
variable (ho : s.targetOff rq a = false)
include ho

theorem packet_layerReset (hh : s.targetHeld a = true) : s.packet rq role op a = s.refuse rq op a .layerReset := by
  simp [State.packet, ho, hh]

theorem packet_served (hh : s.targetHeld a = false) : s.packet rq role op a = s.packetServed rq role op a := by
  simp [State.packet, ho, hh]

end

/-! ### Queue operations -/

theorem queueServed_foreign_push (hp : ¬s.isProducer rq.agent q.val = true) :
    s.queueServed rq role q (.push x) = s.answer rq true .ok 8 (codeWord 2) := by
  simp [State.queueServed, State.tryPush, hp]

theorem queueServed_foreign_grant {m : BitVec 16} (hp : ¬s.isProducer rq.agent q.val = true) :
    s.queueServed rq role q (.grant m) = s.answer rq true .ok 8 (codeWord 0) := by
  simp [State.queueServed, State.tryGrant, hp]

section
variable (hp : s.isProducer rq.agent q.val = true)
include hp

theorem queueServed_grant {m : BitVec 16} : s.queueServed rq role q (.grant m) =
    (s.grant q.val m.toNat).answer rq true .ok 8 (codeWord (s.credits q.val + s.grantSize q.val m.toNat)) := by
  simp [State.queueServed, State.tryGrant, hp, State.grant_credits]

variable {P : Prop}

theorem queueServed_push_denied (hm : s.flag F.Q_BIND.CMD [q.val] = true ∧ s.fld F.Q_BIND.ROLE [q.val] ≠ roleCode role) :
    s.queueServed rq role q (.push x) = s.denied.postedFailed rq .roleDenied q.val (BitVec.ofNat 64 (queueAddr q)) := by
  simp [State.queueServed, State.tryPush, hp, hm, State.refuse]

variable (hm : ¬(s.flag F.Q_BIND.CMD [q.val] = true ∧ s.fld F.Q_BIND.ROLE [q.val] ≠ roleCode role))
include hm

theorem queueServed_push_noCredit (hk : s.credits q.val ≤ s.keptBack rq.agent q.val) :
    s.queueServed rq role q (.push x) = s.answer rq true .ok 8 (codeWord 1) := by
  have hpush : s.tryPush rq.agent role q.val x = (some 1, s) := by
    rw [State.tryPush, if_neg (by simp [hp]), if_neg hm, if_pos hk]
  rw [State.queueServed, hpush]

theorem queueServed_push (hk : s.keptBack rq.agent q.val < s.credits q.val) :
    s.queueServed rq role q (.push x) = (s.pushCell q.val x).answer rq true .ok 8 (codeWord 0) := by
  have hpush : s.tryPush rq.agent role q.val x = (some 0, s.pushCell q.val x) := by
    rw [State.tryPush, if_neg (by simp [hp]), if_neg hm, if_neg (by omega)]
  rw [State.queueServed, hpush]

end

theorem queueServed_foreign_pop (hc : ¬s.isConsumer rq.agent q.val = true) :
    s.queueServed rq role q .pop = s.answer rq true .ok 8 (codeWord 2) := by
  simp [State.queueServed, State.tryPop, hc]

section
variable (hc : s.isConsumer rq.agent q.val = true)
include hc

theorem queueServed_pop_none (hn : s.flag F.Q_STAT.FAULTED [q.val] = true ∨ s.headCell q.val = none) :
    s.queueServed rq role q .pop = s.answer rq true .ok 8 (codeWord 0) := by
  obtain hf | hn := hn
  · simp [State.queueServed, State.tryPop, hc, hf]
  · simp [State.queueServed, State.tryPop, hc, hn]

variable (hf : s.flag F.Q_STAT.FAULTED [q.val] = false) (hh : s.headCell q.val = some c)
include hf hh

theorem queueServed_pop_poison (hp : c.poison = true) :
    s.queueServed rq role q .pop = (s.readCell q.val 0).answer rq true .uncorrectable 0 0 := by
  simp [State.queueServed, State.tryPop, hc, hf, hh, hp]

theorem queueServed_pop (hp : c.poison = false) : s.queueServed rq role q .pop =
    ((s.readCell q.val 0).popCell q.val).answer rq true .ok 64 (c.item.setWidth 2048) := by
  simp [State.queueServed, State.tryPop, hc, hf, hh, hp]

end

theorem keptBack_engine : s.keptBack (.engine e) n = if (s.eng e).cqHeld = true ∧ (s.eng e).cq.toNat = n then 1 else 0 := by
  rw [State.keptBack, b2n]
  by_cases hc : (s.eng e).cqHeld = true ∧ (s.eng e).cq.toNat = n
  · simp [hc]
  · rw [if_neg hc, if_neg (by simpa using hc)]

/-! ### Maintenance packets -/

section
variable {m : Maint} (ha : m.addr.toNat = a)
include ha

theorem exec_maint_elsewhere (hs : spaceOf a ≠ .frame) : exec (.maint m) s = .next s.finish := by
  have hm : s.maintain a m.data = s := if_pos (.inl hs)
  rw [exec, execMaint, ha, hm]

theorem exec_maint (hs : spaceOf a = .frame ∧ a % 16 = 0 ∧ frameIndex a < 4160 ∧ frameOff a < 0x48000) :
    exec (.maint m) s = .next (s.packet (engRq 0) .operator (.maint m.data) a).finish := by
  obtain ⟨hs, hal, hi, ho⟩ := hs
  have hm : s.maintain a m.data = s.packet (engRq 0) .operator (.maint m.data) a :=
    if_neg (by simp [hs, hal, assigned, hi, ho])
  rw [exec, execMaint, ha, hm]

end

/-! ### Relay packets -/

section
variable {i j : Tower} {src dst : BitVec 12} {body : FrameBody} (hb : ∀ d l, body ≠ .boot d l)
include hb

theorem exec_relay (hh : ∀ m, body ≠ .hello m) : exec (.relay i j src dst body) s = .next (s.routeFrame none src dst body).settleV := by
  cases body with
  | boot d l => exact absurd rfl (hb d l)
  | hello m => exact absurd rfl (hh m)
  | _ => rfl

theorem exec_relay_alone (hm : s.chainMode = 0) : exec (.relay i j src dst body) s = .next s.settleV := by
  have hroute {body : FrameBody} : s.routeFrame none src dst body = s := if_pos hm
  cases body with
  | boot d l => exact absurd rfl (hb d l)
  | hello m => rfl
  | _ => exact congrArg (fun u => Host.Outcome.next (State.settleV u)) hroute

end

/-! ### Timeouts -/

theorem exec_requestTimeout_none (hh : s.held.any (fun h => h.rq == rq && h.who != .discarded) = false)
    (hr : s.holds.any (fun h => h.rq == rq && h.who != .discarded) = false) (hl : rq ∉ s.lost) (ha : ∀ y ∈ s.answers, y.rq ≠ rq) :
    exec (.requestTimeout rq) s = .next s := by
  have hany : s.answers.any (fun x => x.rq == rq) = false := by
    rw [List.any_eq_false]
    exact fun y hy => by simpa using ha y hy
  rw [exec, execRequestTimeout, hh, hr, hany, if_neg (by simpa using hl)]

theorem exec_requestTimeout_held (hf : s.held.find? (fun h => h.rq == rq && h.who != .discarded) = some h) :
    exec (.requestTimeout rq) s = .next (s.timeOutHeld h).finish := by
  have hany : s.held.any (fun h => h.rq == rq && h.who != .discarded) = true :=
    List.any_eq_true.mpr ⟨h, List.mem_of_find?_eq_some hf, by simpa using List.find?_some hf⟩
  rw [exec, execRequestTimeout, hany, State.timeOut, hf]
  rfl

section
variable (hh : s.held.any (fun h => h.rq == rq && h.who != .discarded) = false)
  (hr : s.holds.any (fun h => h.rq == rq && h.who != .discarded) = false)
include hh hr

theorem timeOut_unheld : s.timeOut rq =
    if s.lost.contains rq then ({ s with lost := s.lost.erase rq } : State).answer rq true .timeout 0 0
    else (s.answers.find? fun x => x.rq == rq).elim s s.timeOutAnswer := by
  have hfind : s.held.find? (fun h => h.rq == rq && h.who != .discarded) = none := by
    rw [List.find?_eq_none]
    exact fun x hx hp => by simpa [hp] using List.any_eq_false.mp hh x hx
  have hfind' : s.holds.find? (fun h => h.rq == rq && h.who != .discarded) = none := by
    rw [List.find?_eq_none]
    exact fun x hx hp => by simpa [hp] using List.any_eq_false.mp hr x hx
  rw [State.timeOut, hfind, hfind']
  cases s.answers.find? fun x => x.rq == rq <;> rfl

theorem exec_requestTimeout_lost (hl : rq ∈ s.lost) : exec (.requestTimeout rq) s =
    .next (({ s with lost := s.lost.erase rq } : State).answer rq true .timeout 0 0).finish := by
  have hl : s.lost.contains rq = true := List.contains_iff_mem.mpr hl
  rw [exec, execRequestTimeout, hh, hr, hl, timeOut_unheld hh hr, if_pos hl]
  rfl

theorem exec_requestTimeout_answer {y : Answer} (hl : rq ∉ s.lost) (hy : s.answers.find? (fun y => y.rq == rq) = some y) :
    exec (.requestTimeout rq) s = .next (({ s with answers := s.answers.erase y } : State).answer y.rq y.read .timeout 0 0).finish := by
  have hl : s.lost.contains rq = false := by simpa using hl
  have hany : s.answers.any (fun x => x.rq == rq) = true :=
    List.any_eq_true.mpr ⟨y, List.mem_of_find?_eq_some hy, List.find?_some (p := fun y : Answer => y.rq == rq) hy⟩
  rw [exec, execRequestTimeout, hh, hr, hl, hany, timeOut_unheld hh hr, hl, hy]
  rfl

end

theorem timeOutHeld_read (hw : h.who = .bus) (ho : h.op = .read) :
    s.timeOutHeld h = (s.giveUp h).carrying h.role h.session fun s => s.answer h.rq true .timeout h.len 0 := by
  unfold State.timeOutHeld
  rw [hw, ho]
  cases h.rq.agent <;> rfl

theorem endHeld_read {r : Resp} (hw : h.who = .bus) (ho : h.op = .read) :
    s.endHeld h r = s.carrying h.role h.session fun s => s.answer h.rq true r 0 0 := by
  unfold State.endHeld
  rw [hw, ho]
  cases h.rq.agent <;> rfl

/-! ### Holds for a domain that does not wake -/

/-- An event that the host channels do not count is counted by a unit that exists, or by none. -/
theorem OnlyEvents.tallyUnit {ev : Nat} (he : ev / 0x100 < 3) : OnlyEvents s (s.tally n ev k) := by
  by_cases hn : n < 24
  · exact .tally (by omega)
  · have hnone : s.countersOf n ev = [] := by
      refine if_pos (.inr (.inr (.inl ?_)))
      rw [unitRange, if_neg (by omega), if_neg (by omega), if_neg hn]
      simp
      omega
    unfold State.tally State.tallyVia
    rw [hnone]
    split <;> exact .refl s

theorem OnlyEvents.offRefusal : OnlyEvents s (s.offRefusal rq a) := .tallyUnit (by decide)

theorem OnlyEvents.held (h : OnlyEvents s t) : t.held = s.held := by rw [h.rest]

/-- The requests held for a domain are refused, and held no longer. -/
theorem exec_wakeHoldExpiry {d : Pd} {hs : List Held} (hd : s.serves d.val = false) (hh : s.held.filter (fun h => h.dom == d.val) = hs)
    (hu : hs.foldl (fun s h => s.offRefusal h.rq h.addr) s = u) : exec (.wakeHoldExpiry d) s =
      .next (hs.foldl (fun (s : State) h => s.endHeld h .domainOff) { u with held := u.held.filter fun h => h.dom != d.val }).finish := by
  rw [exec, execWakeHoldExpiry, hd, hh, ← hu]
  rfl

/-! ### Writes of ROUTER_CFG -/

section
variable {tw : Tower} {r : Fin 24}

theorem routerCfg_copy : CopyAt .ROUTER_CFG [tw.val, r.val] := by
  refine ⟨?_, rfl, rfl⟩
  simp [RegName.valid, RegName.place, ixValid]

theorem routerCfg_serve (hr : Reaches s rq role (RegName.ROUTER_CFG.addr [tw.val, r.val]))
    (hu : s.touchGate (RegName.ROUTER_CFG.addr [tw.val, r.val]) = u) :
    s.serve rq role .bus (.write (v.setWidth 2048)) (RegName.ROUTER_CFG.addr [tw.val, r.val]) 8 =
      State.countDenied (if role = .installer then (.waits, u.holdRouter rq role .bus tw r .full v false)
        else (.done .roleDenied 0, u)) := by
  have hc := routerCfg_copy (tw := tw) (r := r)
  rw [hc.serve rfl hr.on hr.held, hu]
  simp only [State.serveReg, hc.target, halfOfAccess, ReqOp.isWrite, ReqOp.data, placed_full, if_true]
  rfl

theorem request_waits (hr : s.roleOf rq = some role) (hs : s.serve rq role .bus op a n = (.waits, u)) : s.request rq op a n = u := by
  simp [State.request, hr, hs]

theorem exec_routerCfg : exec (.routerCfg rq tw r v) s =
    .next (s.request rq (.write (v.setWidth 2048)) (RegName.ROUTER_CFG.addr [tw.val, r.val]) 8).finish := rfl

theorem exec_routerCfg_installer (hr : Reaches s rq .installer (RegName.ROUTER_CFG.addr [tw.val, r.val])) :
    exec (.routerCfg rq tw r v) s =
      .next ((s.touchGate (RegName.ROUTER_CFG.addr [tw.val, r.val])).holdRouter rq .installer .bus tw r .full v false).finish := by
  rw [exec_routerCfg, request_waits hr.role ((routerCfg_serve (v := v) hr rfl).trans (congrArg State.countDenied (if_pos rfl)))]

theorem exec_routerCfg_denied (hr : Reaches s rq role (RegName.ROUTER_CFG.addr [tw.val, r.val])) (hi : role ≠ .installer) :
    exec (.routerCfg rq tw r v) s =
      .next ((s.touchGate (RegName.ROUTER_CFG.addr [tw.val, r.val])).denied.answer rq false .roleDenied 0 0).finish := by
  have hserve := routerCfg_serve (v := v) hr rfl
  rw [if_neg hi, State.countDenied] at hserve
  rw [exec_routerCfg, request_serve hr.role hserve]
  rfl

theorem routerHolds_none (hh : s.routerHolds tw r = []) :
    exec (.routerHoldDrained tw r) s = .next s ∧ exec (.routerHoldTimeout tw r) s = .next s := by
  simp [exec, execRouterHoldDrained, execRouterHoldTimeout, hh]

end

theorem undiscarded_any {α : Type} {l : List α} {f : α → Rq} {g : α → HeldBy} (h : ∀ x ∈ l, f x = rq → g x = .discarded) :
    l.any (fun x => f x == rq && g x != .discarded) = false := by
  rw [List.any_eq_false]
  exact fun x hx => by simpa using h x hx

/-- Settles O46: queue operations and packets go through their fence (`packet_held` … `packet_served`) to what their block makes of
them; a timeout takes the first request of the requester that is unanswered. -/
theorem networkEvents : Obligations.NetworkEvents := by
  unfold Obligations.NetworkEvents
  intro s rq role e b w v type source index q n x m t u r d src dst f body
  dsimp only
  have hpage : doorbellBase + q.val * 0x1000 = queueAddr q := rfl
  rw [hpage]
  generalize ha : m.addr.toNat = a
  refine ⟨?_, ?_, rfl, ?_, ?_, ?_, ?_, ?_, ?_, ?_, ?_, ?_, ?_, ?_, ?_, ?_, ?_, ?_, ?_, ?_, ?_, ?_, ?_, ?_, ?_, ?_, ?_⟩
  · intro hf
    exact congrArg (fun u => Host.Outcome.next (State.finish u)) (if_neg (by rw [engDomain, hf]; decide))
  · intro hf
    exact congrArg (fun u => Host.Outcome.next (State.finish u)) (if_pos hf)
  · intro hn
    rw [exec, execNotifyHoldoffEnd]
    exact if_neg (by rw [hn]; decide)
  · intro hn
    rw [exec, execNotifyHoldoffEnd]
    exact if_pos hn
  · exact fun hr o => exec_queueOp_unbound hr
  · intro hr ho o
    rw [exec_queueOp hr]
    exact ⟨fun hw => by rw [packet_held ho hw]; rfl, fun hw => by rw [packet_off ho hw]⟩
  · intro hr ho hh o
    rw [exec_queueOp hr, packet_layerReset ho hh]
  · rintro ⟨hr, ho, hh⟩
    have hop (o : QOp) : exec (.queueOp rq q o) s = .next (s.queueServed rq role q o).finish := by
      rw [exec_queueOp hr, packet_served ho hh]; rfl
    refine ⟨fun hp => ?_, fun hp => ⟨?_, fun hm => ?_, fun hm hk => ?_, fun hm hk => ?_⟩, fun hc => ?_, fun hc hn => ?_,
      fun c hc hf hh => ⟨fun hp => ?_, fun hp => ?_⟩, fun hf => ?_, fun hf => ?_⟩
    · rw [hop, hop, queueServed_foreign_push hp, queueServed_foreign_grant hp]
      exact ⟨rfl, rfl⟩
    · rw [hop, queueServed_grant hp]; rfl
    · rw [hop, queueServed_push_denied hp (by tauto)]
    · rw [hop, queueServed_push_noCredit hp (by tauto)]
      · rfl
      · cases hag : rq.agent with
        | engine e => rw [hag] at hk; rwa [keptBack_engine]
        | host i j => rwa [hag] at hk
    · rw [hop, queueServed_push hp (by tauto)]
      · rfl
      · cases hag : rq.agent with
        | engine e => rw [hag] at hk; rwa [keptBack_engine]
        | host i j => rwa [hag] at hk
    · rw [hop, queueServed_foreign_pop hc]; rfl
    · rw [hop, queueServed_pop_none hc hn]; rfl
    · rw [hop, queueServed_pop_poison hc hf hh hp]
    · rw [hop, queueServed_pop hc hf hh hp]
    · rw [hop]
      exact congrArg (fun u => Host.Outcome.next (State.finish u)) (if_pos hf)
    · rw [hop]
      exact congrArg (fun u => Host.Outcome.next (State.finish u)) (if_neg hf)
  · intro hs ho hh
    rw [exec_maint ha hs, engRq, packet_served ho hh]; rfl
  · intro hs ho hh
    rw [exec_maint ha hs, engRq, packet_layerReset ho hh]; rfl
  · intro hs ho hw
    rw [exec_maint ha hs, engRq, packet_off ho hw]; rfl
  · intro hs ho hw
    rw [exec_maint ha hs, engRq, packet_held ho hw]; rfl
  · exact exec_maint_elsewhere ha
  · intro hm hb hh
    rw [exec_relay hb hh, State.routeFrame, if_neg hm]
    exact ⟨fun hd => by rw [if_pos hd], fun hd => by rw [if_neg hd]⟩
  · exact fun hm hb => exec_relay_alone hb hm
  · exact fun data last => rfl
  · intro hh hr hl
    exact ⟨exec_requestTimeout_none (undiscarded_any hh) (undiscarded_any hr) hl,
      fun y hy => exec_requestTimeout_answer (undiscarded_any hh) (undiscarded_any hr) hl hy⟩
  · exact fun hh hr hl => exec_requestTimeout_lost (undiscarded_any hh) (undiscarded_any hr) hl
  · intro h hf hw ho
    have hrq : h.rq = rq := by
      have := List.find?_some hf
      simp only [Bool.and_eq_true, beq_iff_eq] at this
      exact this.1
    rw [exec_requestTimeout_held hf, timeOutHeld_read hw ho, hrq]
    rfl
  · exact exec_routerCfg_installer
  · exact exec_routerCfg_denied
  · exact routerHolds_none
  · intro h rest hh
    rw [exec, execRouterHoldDrained, exec, execRouterHoldTimeout, hh]
    exact ⟨rfl, rfl⟩
  · intro hs
    rw [exec, execWakeHoldExpiry]
    exact if_pos hs
  · intro hs hh
    have hnone : s.held.filter (fun h => h.dom == d.val) = [] := by
      rw [List.filter_eq_nil_iff]
      exact fun h hm => by simpa using hh h hm
    have hall : s.held.filter (fun h => h.dom != d.val) = s.held := by
      rw [List.filter_eq_self]
      exact fun h hm => by simpa using hh h hm
    rw [exec_wakeHoldExpiry hs hnone rfl, List.foldl_nil, List.foldl_nil, hall]
  · intro h hs hh hd hw ho
    have hone : s.held.filter (fun h => h.dom == d.val) = [h] := by simp [hh, hd]
    rw [exec_wakeHoldExpiry hs hone rfl, List.foldl_cons, List.foldl_nil, List.foldl_cons, List.foldl_nil, endHeld_read hw ho,
      OnlyEvents.offRefusal.held, hh]
    simp only [List.filter_cons, hd, bne_self_eq_false, Bool.false_eq_true, if_false, List.filter_nil]
    rfl

end Sys2Proof.Machine
end

section
/-! The host channel: host requests, answers of the host die, mainbands and sidebands, PERST_N (R226 to R239): O47. -/

namespace Sys2Proof.Machine

variable {s t u : State} {m : Module} {h : Hdr} {op : ReqOp} {r : Resp} {data : Payload} {who : DevReq} {resp : Byte} {addr : Addr}
  {word : Quad} {n k w : Nat} {v : W64}

/-! ### Host requests -/

theorem hostRequest_down (hu : s.flag F.HC_LINK.UP [m.val] = false) : s.hostRequest m h op = s := by
  simp [State.hostRequest, hu]

section
variable (hu : s.flag F.HC_LINK.UP [m.val] = true)
include hu

theorem hostRequest_refused (hr : s.hostRefusal m h op = some r) :
    s.hostRequest m h op = s.respond (hdrRq h m) op h.addr.toNat (hdrBytes h) r 0 := by
  simp [State.hostRequest, hu, hr]

theorem hostRequest_goes (hr : s.hostRefusal m h op = none) : s.hostRequest m h op =
    (s.tally (unitOfModule m.val) (if op.isWrite then 0x301 else 0x300)).request (hdrRq h m) op h.addr.toNat (hdrBytes h) := by
  simp [State.hostRequest, hu, hr]

end

theorem hostRefusal_ne (hr : s.hostRefusal m h op = some r) : r ≠ .ok := by
  unfold State.hostRefusal at hr
  rintro rfl
  split at hr
  · cases hr
  · split at hr
    · cases hr
    · split at hr <;> cases hr

theorem hostRefusal_unready (hs : s.hostServed = false) : s.hostRefusal m h op = some .domainOff := by
  simp [State.hostRefusal, hs]

section
variable (hs : s.hostServed = true)
include hs

theorem hostRefusal_malformed (hf : hdrFormed h op = false ∨ hostBase ≤ h.addr.toNat) : s.hostRefusal m h op = some .decodeError := by
  have hbad : (!hdrFormed h op || decide (hostBase ≤ h.addr.toNat)) = true := by simpa using hf
  simp only [State.hostRefusal, hs, hbad]
  rfl

variable (hf : hdrFormed h op = true) (ha : h.addr.toNat < hostBase)
include hf ha

theorem hostRefusal_tag : s.hostRefusal m h op =
    if !op.isPosted && s.tagOut m (h.tag.setWidth 10) then some .decodeError else none := by
  have hgood : (!hdrFormed h op || decide (hostBase ≤ h.addr.toNat)) = false := by simpa [hf] using ha
  simp only [State.hostRefusal, hs, hgood]
  rfl

end

/-! ### Answers of the host die -/

/-- What a word is to the vault engine does not depend on what else has written host memory. -/
theorem vaultPlace_hostPut {q : Quad} : (s.hostPut k q).vaultPlace w = s.vaultPlace w := rfl

theorem placeWord_hostPut {q : Quad} {p : VaultPlace} : (s.hostPut k q).placeWord w p = s.placeWord w p := by
  cases p <;> rfl

theorem staleDraw_hostPut {q : Quad} : (s.hostPut k q).staleDraw w = s.staleDraw w := rfl

/-- A word of the vault's, or left behind by one, that something else writes is marked as foreign. -/
theorem foreign_hostPut {q : Quad} : (s.hostPut k q).vault.foreign =
    if (s.vaultPlace k).isSome || (s.staleDraw k).isSome then listAdd s.vault.foreign k else s.vault.foreign := rfl

theorem hostmem_hostPut {q : Quad} : (s.hostPut k q).hostmem = Sparse.write s.hostmem k q := rfl

theorem contains_listAdd_self {xs : List Nat} : (listAdd xs k).contains k = true := List.contains_iff_mem.mpr mem_listAdd_self

theorem contains_listAdd_ne {xs : List Nat} (h : w ≠ k) : (listAdd xs k).contains w = xs.contains w := by
  unfold listAdd
  split
  · rfl
  · simp [h]

theorem hostRaw_hostPut_self : (s.hostPut k word).hostRaw k = word := by
  rw [State.hostRaw, foreign_hostPut, hostmem_hostPut, Sparse.read_write_self, vaultPlace_hostPut, staleDraw_hostPut]
  cases hp : s.vaultPlace k with
  | some p => simp [mem_listAdd_self]
  | none =>
    cases hd : s.staleDraw k with
    | some d => simp [mem_listAdd_self]
    | none => simp

theorem hostRaw_hostPut_ne (h : w ≠ k) : (s.hostPut k word).hostRaw w = s.hostRaw w := by
  have hforeign : (s.hostPut k word).vault.foreign.contains w = s.vault.foreign.contains w := by
    rw [foreign_hostPut]
    split
    · exact contains_listAdd_ne h
    · rfl
  have hplace {p : VaultPlace} : (s.hostPut k word).placeWord w p = s.placeWord w p := placeWord_hostPut
  rw [State.hostRaw, hforeign, hostmem_hostPut, Sparse.read_write_ne (Ne.symm h), vaultPlace_hostPut, staleDraw_hostPut, State.hostRaw]
  simp only [hplace]

section
variable (hr : resp ≠ 0)
include hr

theorem exec_completion_failed : exec (.completion who resp addr word) s =
    .next (s.deviceFailed who (respOfByte resp) (addr.setWidth 64)).finish := by
  rw [exec, execCompletion]
  exact if_pos hr

end

theorem exec_completion_data (hp : spaceOf addr.toNat = .host ∧ addr.toNat % 16 = 0) :
    exec (.completion who 0 addr word) s = .next (s.hostPut ((addr.toNat - hostBase) / 16) word) := by
  rw [exec, execCompletion]
  exact (if_neg (by decide)).trans (if_pos hp)

theorem exec_completion_elsewhere (hp : ¬(spaceOf addr.toNat = .host ∧ addr.toNat % 16 = 0)) :
    exec (.completion who 0 addr word) s = .next s := by
  rw [exec, execCompletion]
  exact (if_neg (by decide)).trans (if_neg hp)

theorem engineHostFails_idle {e : Eng} (hw : (s.eng e).waiting = none) :
    s.engineHostFails e r n = { s with hostFails := s.hostFails ++ [(e, n / 16, r.byte)] } := by
  simp [State.engineHostFails, hw]

theorem addr_setWidth : (addr.setWidth 64 : W64).toNat = addr.toNat := by
  rw [BitVec.toNat_setWidth, Nat.mod_eq_of_lt (by omega)]

/-! ### Mainbands -/

theorem hcLink_valid (h : n < 4) : RegName.HC_LINK.valid [n] = true := by simp [RegName.valid, RegName.place, ixValid, h]

theorem sess_valid (h : n < 69) : RegName.SESS.valid [n] = true := by simp [RegName.valid, RegName.place, ixValid, h]

/-- The registers that the end of a load writes, and what events bring. -/
def cutRegs : List RegName := [.LOAD_STAT, .LOAD_FAULT] ++ eventRegs

theorem cutLoad_keepsRegs : KeepsRegs s (s.cutLoad n) cutRegs := by
  unfold State.cutLoad
  split
  · next j hj =>
    split
    · have hend := (endLoad_ended (resp := Resp.timeout.code) hj (show 0x12 < 256 by decide) (show noFrame < 2 ^ 32 by decide)).keeps
      refine fun r ix hi hr => hend.reg r ix hi ?_ ?_
      · exact fun hm => hr (List.mem_append_left _ hm)
      · exact fun hm => hr (List.mem_append_right _ hm)
    · exact .refl
  · exact .refl

theorem cutChannels_keepsRegs : KeepsRegs s (s.cutChannels n) cutRegs := by
  refine .foldl_mem _ fun s e _ => .foldl_mem _ fun s ch _ => ?_
  dsimp only
  split
  · exact .of_regs rfl
  · exact .refl

theorem mainbandDown_keepsRegs : KeepsRegs (s.put F.HC_LINK.UP 0 [n]) ((s.put F.HC_LINK.UP 0 [n]).cutChannels n |>.cutLoad n) cutRegs :=
  cutChannels_keepsRegs.trans cutLoad_keepsRegs

theorem mainbandDown_was_down (hu : s.flag F.HC_LINK.UP [n] = false) : s.mainbandDown n = s := by
  simp [State.mainbandDown, hu]

theorem mainbandDown_up (hu : s.flag F.HC_LINK.UP [n] = true) :
    s.mainbandDown n = ((s.put F.HC_LINK.UP 0 [n]).cutChannels n).cutLoad n := by
  simp [State.mainbandDown, hu]

theorem mainbandDown_flag (hn : n < 4) : (s.mainbandDown n).flag F.HC_LINK.UP [n] = false := by
  by_cases hu : s.flag F.HC_LINK.UP [n] = true
  · have hreg := mainbandDown_keepsRegs (s := s) (n := n) .HC_LINK [n] (hcLink_valid hn) (by decide)
    rw [mainbandDown_up hu]
    refine (congrArg (fun v => bitsOf v 0 0 != 0) hreg).trans ?_
    exact congrArg (· != 0) (State.fld_put (f := F.HC_LINK.UP) (n := 0) (by decide) (by decide))
  · rw [mainbandDown_was_down (by simpa using hu)]
    simpa using hu

/-- A register that is neither the module's link nor the loader's keeps its value when a mainband goes down. -/
theorem mainbandDown_reg {x : RegName} {ix : List Nat} (hn : n < 4) (hv : x.valid ix = true) (hx : x ∉ cutRegs)
    (hl : x = .HC_LINK → ix ≠ [n]) : (s.mainbandDown n).reg x ix = s.reg x ix := by
  by_cases hu : s.flag F.HC_LINK.UP [n] = true
  · rw [mainbandDown_up hu, mainbandDown_keepsRegs _ _ hv hx]
    by_cases hr : x = .HC_LINK
    · subst hr
      exact State.reg_put_ix (f := F.HC_LINK.UP) (Ne.symm (hl rfl)) (hcLink_valid hn) hv
    · exact State.reg_put_ne (f := F.HC_LINK.UP) (Ne.symm hr) (hcLink_valid hn) hv
  · rw [mainbandDown_was_down (by simpa using hu)]

theorem exec_mainbandUp {x32 : Bool} {speed repaired : Byte} (hs : speedOk speed = true) (hp : s.pd 1 = 1)
    (hu : (if s.fld F.HC_LINK.SPEED [m.val] = 0 then s else s.count F.HC_LINK.RETRAINS [m.val]) = u) :
    exec (.mainbandUp m x32 speed repaired) s = .next ((((u.put F.HC_LINK.UP 1 [m.val]).put F.HC_LINK.WIDTH (b2n x32) [m.val]).put
      F.HC_LINK.SPEED speed.toNat [m.val]).put F.HC_LINK.REPAIRED repaired.toNat [m.val]).finish := by
  have hflag : (if s.flag F.HC_LINK.SPEED [m.val] then s.count F.HC_LINK.RETRAINS [m.val] else s) = u := by
    rw [← hu, State.flag]
    by_cases h : s.fld F.HC_LINK.SPEED [m.val] = 0 <;> simp [h]
  rw [exec, execMainbandUp, hs]
  refine (if_neg (by decide)).trans ((if_neg (by simpa using hp)).trans ?_)
  dsimp only
  rw [hflag]

theorem exec_mainbandUp_off {x32 : Bool} {speed repaired : Byte} (hs : speedOk speed = true) (hp : s.pd 1 ≠ 1) :
    exec (.mainbandUp m x32 speed repaired) s = .next s := by
  rw [exec, execMainbandUp, hs]
  exact (if_neg (by decide)).trans (if_pos hp)

theorem speedOk_listed {speed : Byte} (h : speed ∈ [4, 8, 12, 16, 24, 32].map (BitVec.ofNat 8)) : speedOk speed = true := by
  simp only [List.map_cons, List.map_nil, List.mem_cons, List.not_mem_nil, or_false] at h
  obtain rfl | rfl | rfl | rfl | rfl | rfl := h <;> rfl

/-! ### Sidebands -/

theorem setBits_one_or (b : BitVec 4) (m : Fin 4) : setBits b m.val m.val 1 = b ||| BitVec.ofNat 4 (2 ^ m.val) := by
  revert m b
  decide

theorem exec_sidebandLinkUp {read : Option Byte}
    (hu : { s with ref := { s.ref with sbLinkUp := s.ref.sbLinkUp ||| BitVec.ofNat 4 (2 ^ m.val) } } = u) :
    exec (.sidebandLinkUp m read) s = .next (read.elim u fun off => u.sidebandRead m off.toNat) := by
  rw [← hu, ← setBits_one_or]
  cases read <;> rfl

theorem sidebandRead_none {off : Byte} (h : off ∉ [0x00, 0x08, 0x10, 0x18].map (BitVec.ofNat 8)) :
    s.sidebandRead m off.toNat = { s with hostOut := s.hostOut ++ [.sideband m Resp.decodeError.byte 0] } := by
  have hnone : s.sidebandReg off.toNat = none := by
    have hne {k : Nat} (hk : BitVec.ofNat 8 k ∈ [0x00, 0x08, 0x10, 0x18].map (BitVec.ofNat 8)) : off.toNat ≠ k :=
      fun he => h (by rw [← he, BitVec.ofNat_toNat, BitVec.setWidth_eq] at hk; exact hk)
    unfold State.sidebandReg
    split
    · next he => exact absurd he (hne (by decide))
    · next he => exact absurd he (hne (by decide))
    · next he => exact absurd he (hne (by decide))
    · next he => exact absurd he (hne (by decide))
    · rfl
  rw [State.sidebandRead, hnone]

section
variable (hl : s.ref.sbLinkUp.getLsbD m.val = true)

theorem exec_sbHostmem_down (hl : ¬s.ref.sbLinkUp.getLsbD m.val = true) : exec (.sbHostmem m v) s = .next s := by
  rw [exec, execSbHostmem, Bool.eq_false_of_not_eq_true hl]
  rfl

include hl

theorem exec_sbHostmem (hw : s.writeHostmem v = (r, u)) :
    exec (.sbHostmem m v) s = .next { u with hostOut := u.hostOut ++ [.sideband m r.byte 0] } := by
  rw [exec, execSbHostmem, hl, hw]
  rfl

end

theorem writeHostmem_locked (hk : s.ref.sbHostmemLocked = true) : s.writeHostmem v = (.ok, s) := if_pos hk

section
variable (hk : s.ref.sbHostmemLocked = false)
include hk

theorem writeHostmem_large (hv : 256 < v.toNat) : s.writeHostmem v = (.decodeError, s) :=
  (if_neg (by rw [hk]; decide)).trans (if_pos hv)

theorem writeHostmem_writes (hv : v.toNat ≤ 256) : s.writeHostmem v = (.ok,
    ({ s with ref := { s.ref with sbHostmem := v.setWidth 9, sbHostmemLocked := true } } : State).put F.HC_HOSTMEM.GIB v.toNat) :=
  (if_neg (by rw [hk]; decide)).trans (if_neg (by omega))

end

/-! ### The reset of the host die -/

theorem freeSlotsOf_keepsRegs : KeepsRegs s (s.freeSlotsOf n) [.MBX_MSG, .MBX_ANS] := by
  have hclear {s : State} {k i : Nat} (hk : k < 4) (hi : i < 34) :
      KeepsRegs s ((s.clearReg .MBX_MSG [k, i]).clearReg .MBX_ANS [k, i]) [.MBX_MSG, .MBX_ANS] :=
    KeepsRegs.trans (.setReg (by decide) (by simp [RegName.valid, RegName.place, ixValid, hk, hi]))
      (.setReg (by decide) (by simp [RegName.valid, RegName.place, ixValid, hk, hi]))
  refine .foldl_mem _ fun s k hk => ?_
  have hk : k < 4 := List.mem_range.mp hk
  split
  · exact KeepsRegs.trans (.foldl_mem _ fun s i hi => hclear hk (List.mem_range.mp hi)) (.of_regs rfl)
  · exact .refl

theorem closeSession_sess (hn : n < 68) : (s.closeSession n).reg .SESS [n] = if n < 64 ∧ n % 16 = 0 then 1 else 0 := by
  rw [State.closeSession, freeSlotsOf_keepsRegs _ _ (sess_valid (by omega)) (by decide)]
  exact State.reg_setReg

theorem closeSession_other (hn : n < 68) (hk : k < 69) (h : k ≠ n) : (s.closeSession n).reg .SESS [k] = s.reg .SESS [k] := by
  rw [State.closeSession, freeSlotsOf_keepsRegs _ _ (sess_valid hk) (by decide)]
  exact State.reg_setReg_ix (by simpa using Ne.symm h) (sess_valid (by omega)) (sess_valid hk)

theorem closeSession_link (hn : n < 68) (hk : k < 4) : (s.closeSession n).reg .HC_LINK [k] = s.reg .HC_LINK [k] := by
  rw [State.closeSession, freeSlotsOf_keepsRegs _ _ (hcLink_valid hk) (by decide)]
  exact State.reg_setReg_ne (by decide) (sess_valid (by omega)) (hcLink_valid hk)

theorem mainbandsDown_flag (hn : n < 4) (hk : k < 4) (h : k = n ∨ s.flag F.HC_LINK.UP [k] = false) :
    (s.mainbandDown n).flag F.HC_LINK.UP [k] = false := by
  by_cases hkn : k = n
  · rw [hkn]
    exact mainbandDown_flag hn
  · have hreg : (s.mainbandDown n).reg .HC_LINK [k] = s.reg .HC_LINK [k] :=
      mainbandDown_reg hn (hcLink_valid hk) (by decide) fun _ => by simpa using hkn
    exact (congrArg (fun v => bitsOf v 0 0 != 0) hreg).trans (h.resolve_left hkn)

/-- What a fold establishes element by element, and later elements keep, holds at its end. -/
theorem range_foldl_each {g : State → Nat → State} {P : Nat → State → Prop} (hself : ∀ s, ∀ i < n, P i (g s i))
    (hkeep : ∀ s, ∀ i < n, ∀ j, P j s → P j (g s i)) (j : Nat) (hj : j < n) : P j ((List.range n).foldl g s) := by
  induction n with
  | zero => omega
  | succ n ih =>
    rw [List.range_succ, List.foldl_append, List.foldl_cons, List.foldl_nil]
    by_cases h : j = n
    · subst h
      exact hself _ j (by omega)
    · refine hkeep _ n (by omega) j (ih (fun s i hi => hself s i (by omega)) (fun s i hi => hkeep s i (by omega)) (by omega))

/-- Settles O47: the host channel's own refusals come before the network's; a mainband that goes down writes its link's register and
what the loader's end writes (`mainbandDown_reg`). -/
theorem hostChannelCommands : Obligations.HostChannelCommands := by
  unfold Obligations.HostChannelCommands
  intro s m h data who resp addr word x32 speed repaired v bytes
  have hread : exec (.hRead m h) s = .next (s.hostRequest m h .read).finish := rfl
  have hwrite : exec (.hWrite m h data) s = .next (s.hostRequest m h (.write data)).finish := rfl
  have hpost : exec (.hWritePosted m h data) s = .next (s.hostRequest m h (.posted data)).finish := rfl
  dsimp only
  rw [hread, hwrite, hpost]
  refine ⟨?_, ?_, ?_, ?_, ?_, ?_, ?_, exec_completion_elsewhere, ?_, ?_, ?_, ?_, ?_, ?_, ?_, ?_, ?_, ?_, ?_, ?_, ?_, ?_, ?_, ?_, ?_,
    ?_, ?_, rfl⟩
  · intro hu
    have hdown {op : ReqOp} : s.hostRequest m h op = s := hostRequest_down (by simpa using hu)
    rw [hdown, hdown, hdown]
    exact ⟨rfl, rfl, rfl⟩
  · intro hu
    refine ⟨fun r hr => ?_, fun r hr => ?_, fun r hr => ?_⟩
    · rw [hostRequest_refused hu hr, (respond_refused (v := v) (hostRefusal_ne hr)).1]
    · rw [hostRequest_refused hu hr, (respond_refused (v := v) (hostRefusal_ne hr)).2.1]
    · rw [hostRequest_refused hu hr, (respond_refused (v := v) (hostRefusal_ne hr)).2.2.2]
  · intro op
    refine ⟨hostRefusal_unready, hostRefusal_malformed, fun hs hf ha => ⟨fun hp ht => ?_, fun hp => ?_⟩⟩
    · rw [hostRefusal_tag hs hf ha, hp, ht]
      rfl
    · rw [hostRefusal_tag hs hf ha]
      exact if_neg (by obtain hp | hp := hp <;> simp [hp])
  · rintro ⟨hu, hr⟩
    rw [hostRequest_goes hu hr]
    rfl
  · rintro ⟨hu, hr⟩
    rw [hostRequest_goes hu hr]
    rfl
  · rintro ⟨hu, hr⟩
    rw [hostRequest_goes hu hr]
    rfl
  · exact fun hp => ⟨exec_completion_data hp, hostRaw_hostPut_self, fun w hw => hostRaw_hostPut_ne hw⟩
  · intro hr q hq
    rw [exec_completion_failed hr]
    obtain rfl | rfl := hq <;> rfl
  · rintro hr rfl
    exact exec_completion_failed hr
  · rintro hr e ch rfl hb hl
    rw [exec_completion_failed hr]
    exact congrArg (fun u => Host.Outcome.next (State.finish u)) (if_pos (by simpa [hl] using hb))
  · rintro hr rfl hj
    rw [exec_completion_failed hr]
    exact congrArg (fun u => Host.Outcome.next (State.finish u)) (if_pos (Option.isSome_iff_ne_none.mpr hj))
  · rintro hr e rfl hw
    rw [exec_completion_failed hr, State.deviceFailed, engineHostFails_idle hw, addr_setWidth]
  · refine ⟨_, rfl, mainbandDown_flag m.isLt, fun k hk => ?_, fun i hi => ?_, fun hu => mainbandDown_was_down (by simpa using hu)⟩
    · exact mainbandDown_reg m.isLt (hcLink_valid k.isLt) (by decide) fun _ => by simpa [Fin.val_inj] using hk
    · exact mainbandDown_reg m.isLt (sess_valid hi) (by decide) fun h => nomatch h
  · exact fun hp hs => exec_mainbandUp (speedOk_listed hs) hp rfl
  · exact fun hp hs => exec_mainbandUp_off (speedOk_listed hs) hp
  · exact exec_sidebandLinkUp rfl
  · exact exec_sidebandLinkUp rfl
  · exact exec_sidebandLinkUp rfl
  · exact exec_sidebandLinkUp rfl
  · exact exec_sidebandLinkUp rfl
  · intro off hoff
    rw [exec_sidebandLinkUp rfl, Option.elim_some, sidebandRead_none hoff]
  · exact exec_sbHostmem_down
  · exact fun hl hk => exec_sbHostmem hl (writeHostmem_locked hk)
  · exact fun hl hk hv => exec_sbHostmem hl (writeHostmem_large hk hv)
  · exact fun hl hk hv => exec_sbHostmem hl (writeHostmem_writes hk hv)
  · refine ⟨_, rfl, fun k => ?_, fun i hi => ?_⟩
    · have hdown : ((List.range 4).foldl (fun s m => s.mainbandDown m) s).flag F.HC_LINK.UP [k.val] = false :=
        range_foldl_each (P := fun k s => k < 4 → s.flag F.HC_LINK.UP [k] = false) (fun s i hi hk => mainbandsDown_flag hi hk (.inl rfl))
          (fun s i hi j hj hk => mainbandsDown_flag hi hk (.inr (hj hk))) k.val k.isLt k.isLt
      refine List.foldlRecOn (motive := fun (u : State) => u.flag F.HC_LINK.UP [k.val] = false) _ _ hdown ?_
      intro u hu i hi
      exact (congrArg (fun v => bitsOf v 0 0 != 0) (closeSession_link (List.mem_range.mp hi) k.isLt)).trans hu
    · exact range_foldl_each (P := fun i s => i < 68 → s.reg .SESS [i] = if i < 64 ∧ i % 16 = 0 then 1 else 0)
        (fun s i hi _ => closeSession_sess hi)
        (fun s i hi j hj hk => by
          by_cases h : j = i
          · subst h
            exact closeSession_sess hi
          · exact (closeSession_other hi (by omega) h).trans (hj hk)) i hi hi

end Sys2Proof.Machine
end

section
/-! SUPPORT. The line code: scrambling, sealed frames, striping (R241 to R243, R292). -/

namespace Sys2Proof.Machine

variable {s t u : State} {st : BitVec 58} {w : W64} {k n p i : Nat}

/-! ### Scrambling (R242) -/

theorem getLsbD_lowMask {m : Nat} (hm : m < 64) : (BitVec.ofNat 64 (2 ^ m - 1)).getLsbD k = decide (k < m) := by
  rw [BitVec.getLsbD_ofNat, Nat.testBit_two_pow_sub_one]
  by_cases h : k < m
  · simp [h]; omega
  · simp [h]

/-- The line that a block makes with the 58 bits before it. -/
def lineOfBlock (st : BitVec 58) (w : W64) : BitVec 122 := (w.setWidth 122 <<< 58) ||| st.setWidth 122

theorem getLsbD_lineOfBlock (hk : k < 122) : (lineOfBlock st w).getLsbD k = if k < 58 then st.getLsbD k else w.getLsbD (k - 58) := by
  rw [lineOfBlock, BitVec.getLsbD_or, BitVec.getLsbD_shiftLeft, BitVec.getLsbD_setWidth, BitVec.getLsbD_setWidth]
  by_cases h : k < 58
  · simp [h, hk]
  · have hlt : k - 58 < 122 := by omega
    simp [h, hk, hlt, BitVec.getLsbD_of_ge st k (by omega)]

/-- The low 39 bits of a block as scrambled. -/
def scrambledLow (st : BitVec 58) (w : W64) : W64 := (w ^^^ st.setWidth 64 ^^^ (st >>> 19).setWidth 64) &&& BitVec.ofNat 64 (2 ^ 39 - 1)

theorem getLsbD_scrambledLow : (scrambledLow st w).getLsbD k =
    (decide (k < 39) && (w.getLsbD k ^^ st.getLsbD k ^^ st.getLsbD (k + 19))) := by
  rw [scrambledLow, BitVec.getLsbD_and, getLsbD_lowMask (by decide)]
  by_cases h : k < 39
  · simp [h, Nat.add_comm 19, show k < 64 by omega, show k + 19 < 64 by omega]
  · simp [h]

theorem lineOfBlock_eq : st.setWidth 122 ||| (w.setWidth 122 <<< 58) = lineOfBlock st w := BitVec.or_comm _ _

/-- The high 25 bits of a block as scrambled, from bit 0 on. -/
def scrambledHigh (st : BitVec 58) (w : W64) : W64 :=
  ((w >>> 39) ^^^ (lineOfBlock st (scrambledLow st w) >>> 39).setWidth 64 ^^^ (lineOfBlock st (scrambledLow st w) >>> 58).setWidth 64) &&&
    BitVec.ofNat 64 (2 ^ 25 - 1)

theorem scrambled_eq : scrambled st w = scrambledLow st w ||| (scrambledHigh st w <<< 39) := by
  rw [scrambledHigh, ← lineOfBlock_eq]
  rfl

theorem getLsbD_scrambledHigh (hk : k < 25) : (scrambledHigh st w).getLsbD k =
    (w.getLsbD (k + 39) ^^ (lineOfBlock st (scrambledLow st w)).getLsbD (k + 39) ^^
      (lineOfBlock st (scrambledLow st w)).getLsbD (k + 58)) := by
  rw [scrambledHigh, BitVec.getLsbD_and, getLsbD_lowMask (by decide)]
  simp [hk, Nat.add_comm 39, Nat.add_comm 58, show k < 64 by omega]

theorem getLsbD_scrambled_low (hk : k < 39) : (scrambled st w).getLsbD k = (w.getLsbD k ^^ st.getLsbD k ^^ st.getLsbD (k + 19)) := by
  rw [scrambled_eq, BitVec.getLsbD_or, getLsbD_scrambledLow, BitVec.getLsbD_shiftLeft]
  simp [hk]

theorem getLsbD_scrambled_high (hk : 39 ≤ k) (hk' : k < 64) : (scrambled st w).getLsbD k = (scrambledHigh st w).getLsbD (k - 39) := by
  rw [scrambled_eq, BitVec.getLsbD_or, getLsbD_scrambledLow, BitVec.getLsbD_shiftLeft]
  simp [hk', show ¬k < 39 by omega]

/-- A bit of the block: the input with the bits sent 39 and 58 before it. -/
theorem getLsbD_scrambled (hk : k < 64) : (scrambled st w).getLsbD k =
    (w.getLsbD k ^^ ((lineOfBlock st (scrambled st w)).getLsbD (k + 19) ^^ (lineOfBlock st (scrambled st w)).getLsbD k)) := by
  rw [getLsbD_lineOfBlock (by omega), getLsbD_lineOfBlock (by omega)]
  by_cases h : k < 39
  · rw [getLsbD_scrambled_low h, if_pos (by omega), if_pos (by omega)]
    cases w.getLsbD k <;> cases st.getLsbD k <;> cases st.getLsbD (k + 19) <;> rfl
  · have hlow {j : Nat} (hj : j < 39) : (scrambledLow st w).getLsbD j = (scrambled st w).getLsbD j := by
      rw [getLsbD_scrambled_low hj, getLsbD_scrambledLow]
      simp [hj]
    rw [getLsbD_scrambled_high (by omega) hk, getLsbD_scrambledHigh (by omega), getLsbD_lineOfBlock (by omega),
      getLsbD_lineOfBlock (by omega), show k - 39 + 39 = k by omega, if_neg (show ¬k - 39 + 58 < 58 by omega),
      if_neg (show ¬k + 19 < 58 by omega), hlow (show k - 39 + 58 - 58 < 39 by omega), show k - 39 + 58 - 58 = k + 19 - 58 by omega]
    by_cases h' : k < 58
    · rw [if_pos h', if_pos h', Bool.xor_assoc, Bool.xor_comm (st.getLsbD k)]
    · rw [if_neg h', if_neg h', hlow (by omega), Bool.xor_assoc, Bool.xor_comm ((scrambled st w).getLsbD (k - 58))]

theorem getLsbD_descrambled (hk : k < 64) : (descrambled st w).getLsbD k =
    (w.getLsbD k ^^ ((lineOfBlock st w).getLsbD (k + 19) ^^ (lineOfBlock st w).getLsbD k)) := by
  have hbits : (descrambled st w).getLsbD k = ((w.getLsbD k ^^ (lineOfBlock st w).getLsbD k) ^^ (lineOfBlock st w).getLsbD (k + 19)) := by
    rw [descrambled, lineOfBlock_eq]
    simp [hk, Nat.add_comm 19]
  rw [hbits, Bool.xor_assoc, Bool.xor_comm ((lineOfBlock st w).getLsbD k)]

theorem descrambled_scrambled : descrambled st (scrambled st w) = w := by
  refine BitVec.eq_of_getLsbD_eq fun k hk => ?_
  rw [getLsbD_descrambled hk, getLsbD_scrambled hk, Bool.xor_assoc, Bool.xor_self, Bool.xor_false]

/-- Bit `k` of a block depends on bits of the line that lie before bit `k` of the block. -/
theorem scrambled_descrambled : scrambled st (descrambled st w) = w := by
  refine BitVec.eq_of_getLsbD_eq fun k => ?_
  induction k using Nat.strongRecOn with
  | ind k ih =>
    intro hk
    have hline {j : Nat} (hj : j < k + 58) :
        (lineOfBlock st (scrambled st (descrambled st w))).getLsbD j = (lineOfBlock st w).getLsbD j := by
      rw [getLsbD_lineOfBlock (by omega), getLsbD_lineOfBlock (by omega)]
      by_cases h : j < 58
      · rw [if_pos h, if_pos h]
      · rw [if_neg h, if_neg h, ih (j - 58) (by omega) (by omega)]
    rw [getLsbD_scrambled hk, hline (by omega), hline (by omega), getLsbD_descrambled hk, Bool.xor_assoc, Bool.xor_self, Bool.xor_false]

theorem getLsbD_lastBits (hk : 6 ≤ k) (hk' : k < 64) : (lastBits w).getLsbD (k - 6) = w.getLsbD k := by
  rw [lastBits]
  simp [show k - 6 < 58 by omega, show 6 + (k - 6) = k by omega]

/-! ### Sealed frames (R292) -/

theorem bytesOf_length : (bytesOf n k).length = n := by simp [bytesOf]

theorem xorBytes_length {xs ys : List Byte} : (xorBytes xs ys).length = min xs.length ys.length := by simp [xorBytes]

theorem xorBytes_twice {xs ys : List Byte} (h : xs.length ≤ ys.length) : xorBytes (xorBytes xs ys) ys = xs := by
  induction xs generalizing ys with
  | nil => rfl
  | cons x xs ih =>
    cases ys with
    | nil => simp at h
    | cons y ys =>
      have hrest := ih (ys := ys) (by simpa using h)
      simp only [xorBytes, List.zip_cons_cons, List.map_cons] at hrest ⊢
      rw [hrest, BitVec.xor_assoc, BitVec.xor_self, BitVec.xor_zero]

section
variable {key : BitVec 256} {iv bs aad : List Byte}

theorem gcmStream_length : (gcmStream key iv n).length = n := by
  have hsum : ((List.range ((n + 15) / 16)).flatMap fun i => aesBytes key (iv ++ beBytes 4 (i + 2))).length = (n + 15) / 16 * 16 := by
    simp [List.length_flatMap, aesBytes, bytesOf_length]
  rw [gcmStream, List.length_take, hsum]
  omega

theorem gcmCrypt_length : (gcmCrypt key iv bs).length = bs.length := by
  rw [gcmCrypt, xorBytes_length, gcmStream_length, Nat.min_self]

theorem gcmCrypt_twice : gcmCrypt key iv (gcmCrypt key iv bs) = bs := by
  rw [gcmCrypt, gcmCrypt_length, gcmCrypt]
  exact xorBytes_twice (by rw [gcmStream_length])

theorem gcmTag_length : (gcmTag key iv aad bs).length = 16 := by
  simp [gcmTag, xorBytes_length, beBytes, aesBytes, bytesOf_length]

end

section
variable {key : LinkKey} {nonce : W64} {header payload ct tag : List Byte}

theorem openBytes_append (h : tag.length = 16) : openBytes key nonce header (ct ++ tag) =
    if tag = gcmTag key.key (key.iv nonce) header ct then some (gcmCrypt key.key (key.iv nonce) ct) else none := by
  have hlen : (ct ++ tag).length - 16 = ct.length := by rw [List.length_append, h]; omega
  rw [openBytes, hlen]
  simp

theorem openBytes_sealBytes : openBytes key nonce header (sealBytes key nonce header payload) = some payload := by
  rw [sealBytes, openBytes_append gcmTag_length, if_pos rfl, gcmCrypt_twice]

theorem sealBytes_length : (sealBytes key nonce header payload).length = payload.length + 16 := by
  simp [sealBytes, gcmTag_length, gcmCrypt_length]

end

theorem frameUnits_length {f : TxFrame} : (frameUnits f).length = 2 + f.sealed_.length / 8 := by
  simp [frameUnits]
  omega

end Sys2Proof.Machine
end

section
/-! SUPPORT. What the operations on relay lanes and ports write of their registers (R240 to R251). -/

namespace Sys2Proof.Machine

variable {s t u : State} {p i j n k : Nat} {rs : List RegName} {r : RegName} {f : Fld} {b : Block} {w : W64}

/-! ### Ports and lanes -/

theorem modifyAt_getD_self {α : Type} {m : Nat} {v : Vector α m} {g : α → α} {d : α} (h : k < m) :
    (modifyAt v k g).toList.getD k d = g (v.toList.getD k d) := by
  simp [modifyAt, h, List.getD_eq_getElem?_getD]

theorem portH_onPort {g : PortH → PortH} (hp : p < 16) : (s.onPort p g).portH p = g (s.portH p) := modifyAt_getD_self hp

theorem lane_onLane {g : LaneH → LaneH} (hp : p < 16) (hi : i < 8) : ((s.onLane p i g).portH p).lane i = g ((s.portH p).lane i) := by
  rw [State.onLane, portH_onPort hp]
  exact modifyAt_getD_self hi

theorem portIx_valid (hp : p < 16) (hr : r ∈ [.PORT_STAT, .PORT_MAP, .PORT_CTRL, .PORT_LIMITS, .PORT_EVENTS]) :
    r.valid (portIx p) = true := by
  simp only [List.mem_cons, List.not_mem_nil, or_false] at hr
  obtain rfl | rfl | rfl | rfl | rfl := hr
  all_goals
    simp [RegName.valid, RegName.place, ixValid, portIx]
    omega

theorem laneIx_valid (hp : p < 16) (hi : i < 8) (hr : r ∈ [.LANE_STAT, .LANE_ERR, .LANE_EQ, .LANE_CTRL]) :
    r.valid (laneIx p i) = true := by
  simp only [List.mem_cons, List.not_mem_nil, or_false] at hr
  obtain rfl | rfl | rfl | rfl := hr
  all_goals
    simp [RegName.valid, RegName.place, ixValid, laneIx, portIx]
    omega

theorem laneIx_ne (h : i ≠ j) : laneIx p i ≠ laneIx p j := by simpa [laneIx] using h

/-! ### Blocks that leave -/

theorem emit_regs : (s.emit p b).regs = s.regs := by
  have hdrive {s : State} {i : Nat} {u : BitVec 2 × W64} : (s.drive p i u).regs = s.regs := rfl
  have hevery {s : State} {g : Nat → W64} : (s.everyLane p g).regs = s.regs :=
    List.foldlRecOn (motive := fun (t : State) => t.regs = s.regs) _ _ rfl fun t ht _ _ => hdrive.trans ht
  have hstripe {s : State} {u : BitVec 2 × W64} : (s.stripe p u).regs = s.regs := by
    unfold State.stripe
    dsimp only
    split
    · split <;> rfl
    · rfl
  have hframe {s : State} {l : List (BitVec 2 × W64)} : (l.foldl (fun s u => s.stripe p u) s).regs = s.regs :=
    List.foldlRecOn (motive := fun (t : State) => t.regs = s.regs) _ _ rfl fun t ht _ _ => hstripe.trans ht
  cases b with
  | frame f => exact hframe
  | ack n c => exact hstripe
  | nak n c => exact hstripe
  | prbs i k => rfl
  | echo c => rfl
  | _ => exact hevery

theorem offer_keepsRegs (hp : p < 16) : KeepsRegs s (s.offer p b) [.PORT_STAT] := by
  unfold State.offer
  split
  · exact KeepsRegs.trans (.of_regs rfl) (.put (by decide) (portIx_valid hp (by decide)))
  · exact .of_regs emit_regs

/-! ### The state of a lane -/

section
variable (hp : p < 16) (hi : i < 8)
include hp hi

theorem laneState_of_keeps (h : KeepsRegs s t rs) (hr : RegName.LANE_STAT ∉ rs) : t.laneState p i = s.laneState p i :=
  congrArg (bitsOf · _ _) (h _ _ (laneIx_valid hp hi (by decide)) hr)

theorem laneState_put_field (hr : f.reg = .LANE_STAT) (hf : f.lo ≤ f.hi)
    (hd : F.LANE_STAT.STATE.hi < f.lo ∨ f.hi < F.LANE_STAT.STATE.lo)
    (hj : j < 8) : (s.put f n (laneIx p j)).laneState p i = s.laneState p i :=
  State.fld_put_apart hf (by decide) (fun _ => hd) (by rw [hr]; exact laneIx_valid hp hj (by decide)) (laneIx_valid hp hi (by decide))

omit hp hi in
theorem laneState_put_self (hn : n < 16) : (s.put F.LANE_STAT.STATE n (laneIx p i)).laneState p i = n :=
  (State.fld_put (f := F.LANE_STAT.STATE) (by decide) (by decide)).trans (Nat.mod_eq_of_lt hn)

theorem laneState_put_other (hj : j < 8) (h : i ≠ j) : (s.put F.LANE_STAT.STATE n (laneIx p i)).laneState p j = s.laneState p j :=
  State.fld_put_ix (f := F.LANE_STAT.STATE) rfl (laneIx_ne h) (laneIx_valid hp hi (by decide)) (laneIx_valid hp hj (by decide))

/-! ### A lane takes a state -/

/-- The registers of lanes that start and stop with a lane's state. -/
def lanePrbsRegs : List RegName := [.LANE_ERR, .LANE_EQ]

omit hi in
theorem lanesChange_regs {g : State → State} (ls : List Nat) (hls : ∀ i ∈ ls, i < 8) :
    ∃ t, KeepsRegs s t lanePrbsRegs ∧ (s.lanesChange p ls g).regs = (g t).regs := by
  refine ⟨ls.foldl (fun s i => s.latchPrbs p i) s, ?_, ?_⟩
  · refine .foldl_mem _ fun s i hi => ?_
    unfold State.latchPrbs
    split
    · exact KeepsRegs.trans (.put (f := F.LANE_ERR.PRBS_ERR) (by decide) (laneIx_valid hp (hls i hi) (by decide))) (.of_regs rfl)
    · exact .refl
  · refine List.foldlRecOn (motive := fun (u : State) => u.regs = _) _ _ rfl ?_
    intro u hu x _
    split
    · split
      · exact hu
      · exact emit_regs.trans hu
    · exact hu

theorem setLane_puts (h : s.laneState p i ≠ n) :
    ∃ t, KeepsRegs s t lanePrbsRegs ∧ (s.setLane p i n).regs = (t.put F.LANE_STAT.STATE n (laneIx p i)).regs := by
  have heq {s : State} : KeepsRegs s (s.latchEq p i) lanePrbsRegs := by
    unfold State.latchEq
    split
    · exact KeepsRegs.trans (.setReg (by decide) (laneIx_valid hp hi (by decide))) (.of_regs rfl)
    · exact .refl
  have hlatch : KeepsRegs s (if adaptingState n then s else s.latchEq p i) lanePrbsRegs := by
    split
    · exact .refl
    · exact heq
  obtain ⟨t, ht, hg⟩ := lanesChange_regs (s := if adaptingState n then s else s.latchEq p i)
    (g := fun s => s.put F.LANE_STAT.STATE n (laneIx p i)) hp [i] (by simpa using hi)
  refine ⟨t, hlatch.trans ht, ?_⟩
  rw [State.setLane, if_neg h]
  exact hg

theorem setLane_self (hn : n < 16) : (s.setLane p i n).laneState p i = n := by
  by_cases h : s.laneState p i = n
  · rw [State.setLane, if_pos h, h]
  · obtain ⟨t, -, hg⟩ := setLane_puts (s := s) hp hi h
    rw [State.laneState, State.fld, State.reg, hg]
    exact laneState_put_self hn

theorem setLane_other (hj : j < 8) (h : i ≠ j) : (s.setLane p i n).laneState p j = s.laneState p j := by
  by_cases hs : s.laneState p i = n
  · rw [State.setLane, if_pos hs]
  · obtain ⟨t, ht, hg⟩ := setLane_puts (s := s) hp hi hs
    rw [State.laneState, State.fld, State.reg, hg]
    exact (laneState_put_other hp hi hj h).trans (laneState_of_keeps hp hj ht (by decide))

theorem setLane_keepsRegs : KeepsRegs s (s.setLane p i n) [.LANE_ERR, .LANE_EQ, .LANE_STAT] := by
  by_cases hs : s.laneState p i = n
  · rw [State.setLane, if_pos hs]
    exact .refl
  · obtain ⟨t, ht, hg⟩ := setLane_puts (s := s) hp hi hs
    exact (ht.mono (by decide)).trans (.trans (.put (by decide) (laneIx_valid hp hi (by decide))) (.of_regs hg))

end

section
variable (hp : p < 16)
include hp

theorem portMirror_keepsRegs : KeepsRegs s (s.portMirror p) [.PORT_STAT] := by
  have hput {s : State} {f : Fld} {n : Nat} (hf : f.reg = .PORT_STAT) : KeepsRegs s (s.put f n (portIx p)) [.PORT_STAT] :=
    .put (by rw [hf]; decide) (by rw [hf]; exact portIx_valid hp (by decide))
  exact (((hput rfl).trans (hput rfl)).trans ((hput rfl).trans (hput rfl))).trans (hput rfl)

theorem portState_put {s : State} (hr : f.reg = .PORT_STAT) (hf : f.lo ≤ f.hi)
    (hd : F.PORT_STAT.STATE.hi < f.lo ∨ f.hi < F.PORT_STAT.STATE.lo) : (s.put f n (portIx p)).portState p = s.portState p :=
  State.fld_put_apart hf (by decide) (fun _ => hd) (by rw [hr]; exact portIx_valid hp (by decide)) (portIx_valid hp (by decide))

theorem portState_of_keeps (h : KeepsRegs s t rs) (hr : RegName.PORT_STAT ∉ rs) : t.portState p = s.portState p :=
  congrArg (bitsOf · _ _) (h _ _ (portIx_valid hp (by decide)) hr)

theorem portMirror_portState : (s.portMirror p).portState p = s.portState p := by
  have hput {s : State} {f : Fld} {n : Nat} (hf : f.reg = .PORT_STAT) (hl : f.lo ≤ f.hi)
      (hd : F.PORT_STAT.STATE.hi < f.lo ∨ f.hi < F.PORT_STAT.STATE.lo) : (s.put f n (portIx p)).portState p = s.portState p :=
    portState_put hp hf hl hd
  unfold State.portMirror
  dsimp only
  rw [hput rfl (by decide) (by decide), hput rfl (by decide) (by decide), hput rfl (by decide) (by decide),
    hput rfl (by decide) (by decide), hput rfl (by decide) (by decide)]

/-! ### A port acquires, or goes down -/

theorem setLanes_state (hi : i < 8) (hn : n < 16) : (s.setLanes p n).laneState p i = n ∨ (s.setLanes p n).laneState p i = 7 ∨
    (s.setLanes p n).laneState p i = 5 := by
  have hself (s : State) (i : Nat) (hi : i < 8) :
      (fun i s => i < 8 → State.laneState s p i = n ∨ s.laneState p i = 7 ∨ s.laneState p i = 5) i
        (if s.laneState p i = 7 ∨ s.laneState p i = 5 then s else s.setLane p i n) := by
    intro _
    by_cases h : s.laneState p i = 7 ∨ s.laneState p i = 5
    · rw [if_pos h]
      exact .inr h
    · rw [if_neg h]
      exact .inl (setLane_self hp hi hn)
  refine range_foldl_each (P := fun i s => i < 8 → State.laneState s p i = n ∨ s.laneState p i = 7 ∨ s.laneState p i = 5) hself ?_ i
    hi hi
  intro s k hk j hj hj8
  by_cases hkj : k = j
  · subst hkj
    exact hself s k hk hk
  · split
    · exact hj hj8
    · rw [setLane_other hp hk hj8 hkj]
      exact hj hj8

omit hp in
theorem emitTrain_regs : (s.emitTrain p).regs = s.regs := emit_regs

theorem acquire_state (hi : i < 8) : (s.acquire p).laneState p i ≠ 3 := by
  have hlanes {s : State} {n : Nat} (hn : n < 16) (h3 : n ≠ 3) : ((s.setLanes p n).portMirror p).laneState p i ≠ 3 := by
    rw [laneState_of_keeps hp hi (portMirror_keepsRegs hp) (by decide)]
    obtain h | h | h := setLanes_state (s := s) hp hi hn <;> rw [h]
    · exact h3
    · decide
    · decide
  unfold State.acquire
  split
  · dsimp only
    split
    · rw [laneState_of_keeps hp hi (KeepsRegs.of_regs (rs := []) emitTrain_regs) (by decide)]
      exact hlanes (by decide) (by decide)
    · exact hlanes (by decide) (by decide)
  · exact hlanes (by decide) (by decide)

theorem portDown_state (hi : i < 8) : (s.portDown p).laneState p i ≠ 3 := by
  unfold State.portDown
  dsimp only
  split
  · exact acquire_state hp hi
  · rw [laneState_of_keeps hp hi (portMirror_keepsRegs hp) (by decide)]
    obtain h | h | h := setLanes_state (s := (s.leaveUp p).setPortState p 4) (n := 0) hp hi (by decide) <;> rw [h] <;> decide

theorem sendMapReq_state (hi : i < 8) (h : s.laneState p i ≠ 3) : (s.sendMapReq p).laneState p i ≠ 3 := by
  unfold State.sendMapReq
  dsimp only
  split
  · exact portDown_state hp hi
  · rwa [laneState_of_keeps hp hi (offer_keepsRegs hp) (by decide)]

/-! ### Lock, failure and loss of a lane -/

theorem portEvent_keepsRegs : KeepsRegs s (s.portEvent p n) (.PORT_EVENTS :: eventRegs) := by
  unfold State.portEvent
  dsimp only
  split
  · exact KeepsRegs.trans (.setReg (by decide) (portIx_valid hp (by decide))) (.of_onlyEvents .blockEvent (List.subset_cons_self _ _))
  · exact .setReg (by decide) (portIx_valid hp (by decide))

omit hp in
theorem recordLink_regs {x y : Nat} : (s.recordLink x y).regs = s.regs := rfl

/-- The registers that a failing lane's marks write, besides the lane's own. -/
def failRegs : List RegName := .PORT_STAT :: .PORT_EVENTS :: eventRegs

/-- A lane is FAILED, with its record; whether the map must change is not yet asked. -/
def State.markFailed (s : State) (p i reason : Nat) : State :=
  (((((s.setLane p i 7).put F.PORT_STAT.FAILED ((s.setLane p i 7).fld F.PORT_STAT.FAILED (portIx p) ||| 2 ^ i) (portIx p)).portEvent p
    5).recordLink (8 * p + i) (16 + reason)).portMirror p)

omit hp in
theorem failLane_eq (h : s.laneState p i ≠ 7) (hm : s.markFailed p i n = t) :
    s.failLane p i n = if t.portUp p && (t.rxMap p).contains i then t.sendMapReq p else t := by
  rw [State.failLane, if_neg h, ← hm]
  rfl

theorem markFailed_keeps : KeepsRegs (s.setLane p i 7) (s.markFailed p i n) failRegs := by
  have hput : KeepsRegs (s.setLane p i 7)
      ((s.setLane p i 7).put F.PORT_STAT.FAILED ((s.setLane p i 7).fld F.PORT_STAT.FAILED (portIx p) ||| 2 ^ i) (portIx p)) failRegs :=
    .put (by decide) (portIx_valid hp (by decide))
  exact ((hput.trans ((portEvent_keepsRegs hp).mono (by decide))).trans (.of_regs recordLink_regs)).trans
    ((portMirror_keepsRegs hp).mono (by decide))

theorem markFailed_self (hi : i < 8) : (s.markFailed p i n).laneState p i = 7 := by
  rw [laneState_of_keeps hp hi (markFailed_keeps hp) (by decide), setLane_self hp hi (by decide)]

theorem failLane_state (hi : i < 8) (h : s.laneState p i ≠ 3) : (s.failLane p i n).laneState p i ≠ 3 := by
  by_cases h7 : s.laneState p i = 7
  · rwa [State.failLane, if_pos h7]
  · have hmark : (s.markFailed p i n).laneState p i ≠ 3 := by
      rw [markFailed_self hp hi]
      decide
    rw [failLane_eq h7 rfl]
    split
    · exact sendMapReq_state hp hi hmark
    · exact hmark

/-- A lane that has lost lock hunts; its loss is counted. -/
def State.huntsAgain (s : State) (p i : Nat) : State :=
  (((((s.setLane p i 2).count F.LANE_STAT.LOSSES (laneIx p i)).onLane p i fun l =>
    { l with losses := l.losses + 1, good := 0, window := 0 }).onPort p fun h =>
      { h with deskewed := h.deskewed &&& ~~~(BitVec.ofNat 8 (2 ^ i)) }).portMirror p)

omit hp in
theorem lossOfLock_eq (h : s.laneState p i = 3 ∨ s.laneState p i = 4) (ht : s.huntsAgain p i = t) : s.lossOfLock p i =
    if t.fld F.PORT_LIMITS.LOSS_LIMIT (portIx p) ≠ 0 ∧ t.fld F.PORT_LIMITS.LOSS_LIMIT (portIx p) ≤ t.recentLosses p i then
      t.spend.failLane p i 0
    else if t.spend.portUp p && (s.rxMap p).contains i then t.spend.sendMapReq p else t.spend := by
  rw [State.lossOfLock, if_neg (by omega), ← ht]
  rfl

theorem huntsAgain_keeps (hi : i < 8) : KeepsRegs (s.setLane p i 2) (s.huntsAgain p i) [.LANE_STAT, .PORT_STAT] := by
  have hcount : KeepsRegs (s.setLane p i 2) ((s.setLane p i 2).count F.LANE_STAT.LOSSES (laneIx p i)) [.LANE_STAT, .PORT_STAT] :=
    .count (by decide) (laneIx_valid hp hi (by decide))
  refine KeepsRegs.trans ?_ ((portMirror_keepsRegs hp).mono (by decide))
  exact hcount.trans (.of_regs rfl)

theorem huntsAgain_state (hi : i < 8) : (s.huntsAgain p i).laneState p i = 2 := by
  rw [State.huntsAgain, laneState_of_keeps hp hi (portMirror_keepsRegs hp) (by decide)]
  exact (laneState_put_field hp hi (f := F.LANE_STAT.LOSSES) rfl (by decide) (by decide) hi).trans (setLane_self hp hi (by decide))

theorem lossOfLock_state (hi : i < 8) (h : s.laneState p i = 3 ∨ s.laneState p i = 4) : (s.lossOfLock p i).laneState p i ≠ 3 := by
  have hhunts : (s.huntsAgain p i).spend.laneState p i ≠ 3 := by
    rw [laneState_of_keeps hp hi (KeepsRegs.of_regs (rs := []) (State.spend_regs _)) (by decide), huntsAgain_state hp hi]
    decide
  rw [lossOfLock_eq h rfl]
  split
  · exact failLane_state hp hi hhunts
  · split
    · exact sendMapReq_state hp hi hhunts
    · exact hhunts

theorem lockLane_state (hi : i < 8) : (s.lockLane p i).laneState p i = 3 := by
  have hmeasure {s : State} : (s.measureLane p i).laneState p i = s.laneState p i := by
    refine (laneState_put_field hp hi (f := F.LANE_STAT.FREQ) rfl (by decide) (by decide) hi).trans ?_
    exact laneState_put_field hp hi (f := F.LANE_STAT.EYE) rfl (by decide) (by decide) hi
  have hlocked {s : State} : (((s.setLane p i 3).measureLane p i).portMirror p).laneState p i = 3 := by
    rw [laneState_of_keeps hp hi (portMirror_keepsRegs hp) (by decide), hmeasure, setLane_self hp hi (by decide)]
  unfold State.lockLane
  dsimp only
  split
  · rw [laneState_of_keeps hp hi (KeepsRegs.of_regs (rs := []) emitTrain_regs) (by decide), hlocked]
  · exact hlocked

end

end Sys2Proof.Machine
end

section
/-! Sync headers, control blocks of lanes, and the line code as a whole (R242 to R245, R264, R292): O48. -/

namespace Sys2Proof.Machine

variable {s t u : State} {p i j n k m : Nat} {h : BitVec 2} {hs : List (BitVec 2)} {w : W64} {b : Bool}

/-! ### A header on a lane -/

theorem onLane_laneState {g : LaneH → LaneH} : (s.onLane p i g).laneState p j = s.laneState p j := rfl

section
variable (hh : s.laneState p i = 1 ∨ s.laneState p i = 2)
include hh

theorem seeHeader_hunting : s.seeHeader p i h = s.huntHeader p i (syncOk h) := by
  obtain hh | hh := hh <;> simp [State.seeHeader, hh]

theorem hunting_bad (hv : syncOk h = false) :
    s.seeHeader p i h = s.onLane p i fun l => { l with good := 0, boundary := (l.boundary + 1) % 66 } := by
  simp [seeHeader_hunting hh, hv, State.huntHeader]

variable (hv : syncOk h = true) (hp : p < 16) (hi : i < 8)
include hv hp hi

theorem hunting_tries (hg : ((s.portH p).lane i).good < 63 ∨ s.aloneRef = true) :
    s.seeHeader p i h = s.onLane p i fun l => { l with good := min 64 (l.good + 1) } := by
  rw [seeHeader_hunting hh, hv, State.huntHeader]
  refine (if_neg (by decide)).trans (if_neg ?_)
  rw [lane_onLane hp hi]
  obtain hg | hg := hg
  · dsimp only
    omega
  · have halone : (s.onLane p i fun l => { l with good := min 64 (l.good + 1) }).aloneRef = true := hg
    simp [halone]

theorem hunting_locks (hg : 63 ≤ ((s.portH p).lane i).good) (ha : s.aloneRef = false) :
    s.seeHeader p i h = (s.onLane p i fun l => { l with good := min 64 (l.good + 1) }).lockLane p i := by
  have halone : (s.onLane p i fun l => { l with good := min 64 (l.good + 1) }).aloneRef = false := ha
  rw [seeHeader_hunting hh, hv, State.huntHeader]
  refine (if_neg (by decide)).trans (if_pos ⟨?_, by rw [halone]; rfl⟩)
  rw [lane_onLane hp hi]
  dsimp only
  omega

end

section
variable (hh : s.laneState p i = 3)
include hh

theorem seeHeader_locked : s.seeHeader p i h = s.lockedHeader p i (syncOk h) := by
  simp [State.seeHeader, hh]

theorem locked_good (hv : syncOk h = true) : s.seeHeader p i h = s.onLane p i fun l => { l with window := l.window <<< 1 } := by
  simp [seeHeader_locked hh, hv, State.lockedHeader, b2n]

/-- An invalid header on a LOCKED lane enters its window and is counted. -/
def State.headerMissed (s : State) (p i : Nat) : State :=
  (s.onLane p i fun l => { l with window := (l.window <<< 1) ||| 1 }).count F.LANE_ERR.HDR_ERR (laneIx p i)

theorem locked_bad (hv : syncOk h = false) (hp : p < 16) (hi : i < 8) :
    s.seeHeader p i h = if 16 ≤ popcount ((((s.portH p).lane i).window <<< 1) ||| 1) then (s.headerMissed p i).lossOfLock p i
      else s.headerMissed p i := by
  have hwindow : (((s.headerMissed p i).portH p).lane i).window = (((s.portH p).lane i).window <<< 1) ||| 1 :=
    congrArg LaneH.window (lane_onLane (g := fun l => { l with window := (l.window <<< 1) ||| 1 }) hp hi)
  rw [seeHeader_locked hh, hv, ← hwindow]
  rfl

theorem headerMissed_state (hp : p < 16) (hi : i < 8) : (s.headerMissed p i).laneState p i = 3 :=
  (laneState_of_keeps (t := s.headerMissed p i) (rs := [.LANE_ERR]) hp hi
    (.trans (.of_regs rfl) (.count (f := F.LANE_ERR.HDR_ERR) (by decide) (laneIx_valid hp hi (by decide)))) (by decide)).trans hh

end

section
variable (hh : s.laneState p i = 4)
include hh

theorem resting_unheard (hv : syncOk h = false ∨ (s.portH p).rxIdle = false) : s.seeHeader p i h = s := by
  have hn : (!syncOk h || !(s.portH p).rxIdle) = true := by simpa using hv
  simp only [State.seeHeader, hh, State.burstHeader, hn]
  rfl

theorem resting_burst (hv : syncOk h = true) (hr : (s.portH p).rxIdle = true) (hp : p < 16) (hi : i < 8) :
    s.seeHeader p i h = if 15 ≤ ((s.portH p).lane i).good then
        ((s.onLane p i fun l => { l with good := min 16 (l.good + 1) }).onLane p i fun l => { l with good := 0, window := 0 }).setLane p i 3
      else s.onLane p i fun l => { l with good := min 16 (l.good + 1) } := by
  have hlane := lane_onLane (s := s) (g := fun l => { l with good := min 16 (l.good + 1) }) hp hi
  have hsee : s.seeHeader p i h = s.burstHeader p i (syncOk h) := by simp [State.seeHeader, hh]
  rw [hsee, hv, State.burstHeader]
  refine (if_neg (by rw [hr]; decide)).trans ?_
  refine if_congr ?_ rfl rfl
  rw [hlane]
  dsimp only
  omega

end

/-! ### Lock by headers in a row (R245) -/

theorem seeHeaders_cons : s.seeHeaders p i (h :: hs) = (s.seeHeader p i h).seeHeaders p i hs := rfl

section
variable (hp : p < 16) (hi : i < 8)
include hp hi

theorem hunting_headers (hh : s.laneState p i = 1 ∨ s.laneState p i = 2) (ha : s.aloneRef = false) (hv : ∀ h ∈ hs, syncOk h = true)
    (hn : ((s.portH p).lane i).good + hs.length ≤ 64) (hg : ((s.portH p).lane i).good < 64) :
    (((s.portH p).lane i).good + hs.length < 64 → (s.seeHeaders p i hs).laneState p i = s.laneState p i) ∧
      (((s.portH p).lane i).good + hs.length = 64 → (s.seeHeaders p i hs).laneState p i = 3) := by
  induction hs generalizing s with
  | nil => exact ⟨fun _ => rfl, fun h => by simp at h; omega⟩
  | cons h hs ih =>
    have hok := hv h (by simp)
    rw [List.length_cons] at hn ⊢
    rw [seeHeaders_cons]
    by_cases h63 : ((s.portH p).lane i).good < 63
    · rw [hunting_tries hh hok hp hi (.inl h63)]
      have hlane := lane_onLane (s := s) (g := fun l => { l with good := min 64 (l.good + 1) }) hp hi
      have hgood : (((s.onLane p i fun l => { l with good := min 64 (l.good + 1) }).portH p).lane i).good =
          ((s.portH p).lane i).good + 1 := by
        rw [hlane]
        dsimp only
        omega
      have hrest := ih (s := s.onLane p i fun l => { l with good := min 64 (l.good + 1) }) hh ha (fun h hm => hv h (by simp [hm]))
        (by omega) (by omega)
      rw [hgood] at hrest
      exact ⟨fun hlt => hrest.1 (by omega), fun heq => hrest.2 (by omega)⟩
    · have hnil : hs = [] := List.eq_nil_of_length_eq_zero (by omega)
      subst hnil
      rw [hunting_locks hh hok hp hi (by omega) ha]
      exact ⟨fun hlt => by simp at hlt; omega, fun _ => lockLane_state hp hi⟩

theorem hunting_alone (hh : s.laneState p i = 1 ∨ s.laneState p i = 2) (ha : s.aloneRef = true) :
    (s.seeHeaders p i hs).laneState p i = s.laneState p i := by
  induction hs generalizing s with
  | nil => rfl
  | cons h hs ih =>
    rw [seeHeaders_cons]
    cases hv : syncOk h with
    | true =>
      rw [hunting_tries hh hv hp hi (.inr ha)]
      exact ih (s := s.onLane p i _) hh ha
    | false =>
      rw [hunting_bad hh hv]
      exact ih (s := s.onLane p i _) hh ha

end

/-! ### Loss of lock by invalid headers among the last 64 (R245) -/

/-- No bit of the window from `m` on is set. -/
def Within (m : Nat) (w : W64) : Prop := ∀ k, m ≤ k → w.getLsbD k = false

theorem Within.shift (hw : Within m w) : Within (m + 1) (w <<< 1 ||| BitVec.ofNat 64 (b2n b)) := by
  intro k hk
  have hb : (BitVec.ofNat 64 (b2n b)).getLsbD k = false := by
    cases b with
    | false => simp [b2n]
    | true => simp [b2n]; omega
  rw [BitVec.getLsbD_or, BitVec.getLsbD_shiftLeft, hb, hw (k - 1) (by omega)]
  simp

theorem popcount_shift (hw : Within 63 w) : popcount (w <<< 1 ||| BitVec.ofNat 64 (b2n b)) = popcount w + b2n b := by
  have hsucc {k : Nat} (hk : k < 63) : (w <<< 1 ||| BitVec.ofNat 64 (b2n b)).getLsbD (k + 1) = w.getLsbD k := by
    have hb : (BitVec.ofNat 64 (b2n b)).getLsbD (k + 1) = false := by cases b <;> simp [b2n]
    rw [BitVec.getLsbD_or, BitVec.getLsbD_shiftLeft, hb]
    simp [show k + 1 < 64 by omega]
  have hzero : (w <<< 1 ||| BitVec.ofNat 64 (b2n b)).getLsbD 0 = b := by cases b <;> simp [b2n]
  have htail : ((List.range 63).filter ((fun k => (w <<< 1 ||| BitVec.ofNat 64 (b2n b)).getLsbD k) ∘ Nat.succ)) =
      (List.range 63).filter fun k => w.getLsbD k :=
    List.filter_congr fun k hk => hsucc (List.mem_range.mp hk)
  have hold : popcount w = ((List.range 63).filter fun k => w.getLsbD k).length := by
    rw [popcount, List.range_succ, List.filter_append, List.length_append]
    rw [List.filter_cons_of_neg (by rw [hw 63 (by omega)]; decide)]
    rfl
  rw [hold, popcount, List.range_succ_eq_map, List.filter_cons, hzero, List.filter_map, htail]
  cases b <;> simp [b2n]

section
variable (hp : p < 16) (hi : i < 8)
include hp hi

/-- Fewer than sixteen invalid headers keep the lock, and the window holds them. -/
theorem locked_headers (hh : s.laneState p i = 3) (hw : Within m ((s.portH p).lane i).window) (hm : m + hs.length ≤ 64)
    (hc : popcount ((s.portH p).lane i).window + (hs.filter fun h => !syncOk h).length < 16) :
    (s.seeHeaders p i hs).laneState p i = 3 ∧
      Within (m + hs.length) (((s.seeHeaders p i hs).portH p).lane i).window ∧
      popcount (((s.seeHeaders p i hs).portH p).lane i).window =
        popcount ((s.portH p).lane i).window + (hs.filter fun h => !syncOk h).length := by
  induction hs generalizing s m with
  | nil => exact ⟨hh, hw, rfl⟩
  | cons h hs ih =>
    have hbits : Within 63 ((s.portH p).lane i).window := fun k hk => hw k (by simp at hm; omega)
    rw [seeHeaders_cons]
    have hcount : (List.filter (fun h => !syncOk h) (h :: hs)).length = b2n (!syncOk h) + (hs.filter fun h => !syncOk h).length := by
      rw [List.filter_cons]
      cases syncOk h <;> simp [b2n, Nat.add_comm]
    have hpop := popcount_shift (b := !syncOk h) hbits
    rw [hcount] at hc
    have hstep : (s.seeHeader p i h).laneState p i = 3 ∧ (((s.seeHeader p i h).portH p).lane i).window =
        ((s.portH p).lane i).window <<< 1 ||| BitVec.ofNat 64 (b2n (!syncOk h)) := by
      cases hv : syncOk h with
      | true =>
        rw [locked_good hh hv, lane_onLane hp hi]
        exact ⟨hh, (BitVec.or_zero).symm⟩
      | false =>
        rw [hv] at hpop hc
        have hone : popcount (((s.portH p).lane i).window <<< 1 ||| 1) = popcount ((s.portH p).lane i).window + 1 := hpop
        have hfew : ¬16 ≤ popcount (((s.portH p).lane i).window <<< 1 ||| 1) := by
          rw [hone]
          simp only [b2n, Bool.not_false, if_true] at hc
          omega
        rw [locked_bad hh hv hp hi, if_neg hfew]
        exact ⟨headerMissed_state hh hp hi, congrArg LaneH.window (lane_onLane hp hi)⟩
    obtain ⟨hstate, hwindow⟩ := hstep
    have hrest := ih (s := s.seeHeader p i h) (m := m + 1) hstate (by rw [hwindow]; exact hw.shift) (by simp at hm; omega)
      (by rw [hwindow, hpop]; omega)
    rw [hwindow, hpop] at hrest
    obtain ⟨h1, h2, h3⟩ := hrest
    refine ⟨h1, ?_, by rw [h3, hcount, Nat.add_assoc]⟩
    rwa [List.length_cons, Nat.add_comm hs.length, ← Nat.add_assoc]

/-- The sixteenth invalid header among 64 loses the lock. -/
theorem locked_lost (hh : s.laneState p i = 3) (hw : ((s.portH p).lane i).window = 0) (hm : hs.length ≤ 64)
    (hc : (hs.filter fun h => !syncOk h).length = 16) (hl : hs.getLast?.all (fun h => !syncOk h) = true) :
    (s.seeHeaders p i hs).laneState p i ≠ 3 := by
  obtain rfl | ⟨init, last, rfl⟩ := List.eq_nil_or_concat hs
  · simp at hc
  · have hbad : syncOk last = false := by simpa using hl
    have hinit : (init.filter fun h => !syncOk h).length = 15 := by
      simpa [List.filter_append, hbad] using hc
    have hzero : popcount (0 : W64) = 0 := by decide
    rw [List.length_concat] at hm
    have hlocked := locked_headers (hs := init) (m := 0) hp hi hh (by rw [hw]; exact fun k _ => by simp) (by omega)
      (by rw [hw, hzero, hinit]; decide)
    obtain ⟨hstate, hwithin, hpop⟩ := hlocked
    rw [hw, hzero, hinit] at hpop
    have hsee : s.seeHeaders p i (init.concat last) = (s.seeHeaders p i init).seeHeader p i last := by
      rw [State.seeHeaders, List.concat_eq_append, List.foldl_append]
      rfl
    have hsixteen := popcount_shift (b := true) (w := (((s.seeHeaders p i init).portH p).lane i).window)
      fun k hk => hwithin k (by omega)
    rw [hpop] at hsixteen
    have hfull : 16 ≤ popcount ((((s.seeHeaders p i init).portH p).lane i).window <<< 1 ||| 1) := Nat.le_of_eq hsixteen.symm
    rw [hsee, locked_bad hstate hbad hp hi, if_pos hfull]
    exact lossOfLock_state hp hi (.inl (headerMissed_state hstate hp hi))

end

/-! ### Control blocks of a lane (R242, R243, R264) -/

section
variable {l : LaneIn}

theorem laneBlock_data (hd : l.hdr ≠ 2) : s.laneBlock p l =
    (s.onLane p l.lane.val fun x => { x with descr := lastBits l.bits }).seeHeader p l.lane.val l.hdr := if_neg hd

theorem laneBlock_control (hd : l.hdr = 2) (hw : descrambled ((s.portH p).lane l.lane.val).descr l.bits = w)
    (hu : (s.onLane p l.lane.val fun x => { x with descr := lastBits l.bits }).seeHeader p l.lane.val l.hdr = u) :
    s.laneBlock p l = u.oddBlock p l.lane.val w := by
  rw [State.laneBlock, hw, hu]
  exact if_pos hd

end

section
variable (ht : bitsOf w 7 0 = k)
include ht

theorem oddBlock_fill (hk : k ∈ [0x1E, 0x2D, 0x4B, 0x55, 0x66, 0x78, 0x81, 0x82, 0x83]) : s.oddBlock p i w = s := by
  have hne : k ≠ 0x80 := by
    rintro rfl
    revert hk
    decide
  have hknown : knownType k = true := by
    rw [knownType, List.contains_iff_mem]
    simp only [List.mem_cons, List.not_mem_nil, or_false] at hk ⊢
    tauto
  simp only [State.oddBlock, ht, hne, hknown]
  rfl

theorem oddBlock_lane (hlt : k < 0x80) (hk : k ∉ [0x1E, 0x2D, 0x4B, 0x55, 0x66, 0x78]) :
    s.oddBlock p i w = if s.laneState p i = 3 then s.count F.LANE_ERR.HDR_ERR (laneIx p i) else s := by
  have hunknown : knownType k = false := by
    simp only [knownType, List.contains_eq_mem, decide_eq_false_iff_not, List.mem_cons, List.not_mem_nil, or_false] at hk ⊢
    omega
  simp only [State.oddBlock, ht, show k ≠ 0x80 by omega, hunknown, show ¬0x80 ≤ k by omega]
  rfl

theorem oddBlock_port (hge : 0x80 ≤ k) (hk : k ∉ [0x80, 0x81, 0x82, 0x83]) :
    s.oddBlock p i w = if s.portUp p then s.count F.LINK_STAT.PROTO_ERR [p] else s := by
  have hunknown : knownType k = false := by
    simp only [knownType, List.contains_eq_mem, decide_eq_false_iff_not, List.mem_cons, List.not_mem_nil, or_false] at hk ⊢
    omega
  have hne : k ≠ 0x80 := by
    rintro rfl
    exact hk (by decide)
  simp only [State.oddBlock, ht, hne, hunknown, hge]
  rfl

theorem oddBlock_reserved (hk : k = 0x80) (hu : s.portUp p = true) (hn : bitsOf w 11 8 = 0 ∨ 6 < bitsOf w 11 8) :
    s.oddBlock p i w = s.reservedFrame p (BitVec.ofNat 24 (bitsOf w 39 16)) := by
  have hkind : knownKind (bitsOf w 11 8) = false := by
    simp only [knownKind, decide_eq_false_iff_not]
    omega
  simp only [State.oddBlock, ht, hk, hu, hkind]
  rfl

end

/-! ### Striping (R243) -/

section
variable {x : BitVec 2 × W64} (hp : p < 16)

theorem stripe_none (hm : s.txMap p = []) : (s.stripe p x).wire = s.wire := by
  simp [State.stripe, hm]
  rfl

theorem stripe_drives (hm : (s.txMap p)[(s.portH p).unitNo % (s.txMap p).length]? = some i) (hs : s.laneState p i ≠ 7) :
    s.stripe p x = (s.onPort p fun h => { h with unitNo := (s.portH p).unitNo + 1 }).drive p i x := by
  rw [State.stripe, hm]
  exact if_neg hs

include hp

theorem drive_port (hi : i < 8) (ht : s.onPort p (fun h => { h with unitNo := n }) = t) :
    (t.drive p i x).wire = s.wire ++ [⟨p, i, x.1, scrambled ((s.portH p).lane i).scr x.2⟩] ∧ ((t.drive p i x).portH p).unitNo = n ∧
      (((t.drive p i x).portH p).lane i).scr = lastBits (scrambled ((s.portH p).lane i).scr x.2) := by
  subst ht
  have hlane : ((s.onPort p fun h => { h with unitNo := n }).portH p).lane i = (s.portH p).lane i := by
    rw [portH_onPort hp]
    rfl
  refine ⟨?_, ?_, ?_⟩
  · rw [← hlane]
    rfl
  · have hport := portH_onPort (s := s.onPort p fun h => { h with unitNo := n }) (g := fun h => { h with lanes := modifyAt h.lanes i fun l =>
      { l with scr := lastBits (scrambled (((s.onPort p fun h => { h with unitNo := n }).portH p).lane i).scr x.2) } }) hp
    refine (congrArg PortH.unitNo hport).trans ?_
    rw [portH_onPort hp]
  · rw [← hlane]
    exact congrArg LaneH.scr (lane_onLane hp hi)

end

/-! ### The obligation -/

/-- Settles O48: scrambling and sealing are undone by their inverses, blocks go to the lanes of the map in turn, and the headers
of a lane lock it, or lose its lock, by their numbers alone. -/
theorem lineCoding : Obligations.LineCoding := by
  unfold Obligations.LineCoding
  refine ⟨fun st w => ⟨descrambled_scrambled, scrambled_descrambled, fun k hk => ⟨getLsbD_scrambled hk, fun hk6 => getLsbD_lastBits hk6 hk⟩⟩,
    fun key nonce header payload => ⟨openBytes_sealBytes, sealBytes_length, fun ct tag hlen hne => ?_⟩, fun s p i x f => ?_,
    fun s p l hs => ?_⟩
  · exact (openBytes_append hlen).trans (if_neg hne)
  · refine ⟨fun hm hs => ?_, fun hm => stripe_none hm, frameUnits_length⟩
    rw [stripe_drives hm hs]
    exact drive_port p.isLt i.isLt rfl
  · have hp := p.isLt
    have hi := l.lane.isLt
    refine ⟨laneBlock_data, fun hd => ?_, fun hh hg ha hv hn => ?_, fun hh ha => hunting_alone hp hi hh ha, fun hh hw hn => ⟨fun hc => ?_,
      fun hc hl => locked_lost hp hi hh hw hn hc hl⟩⟩
    · refine ⟨fun hlt hk => ⟨fun h3 => ?_, fun h3 => ?_⟩, fun hge hk => ⟨fun hu => ?_, fun hu => ?_⟩, fun ht hu hn => ?_, fun hk => ?_⟩
      all_goals rw [laneBlock_control hd rfl rfl]
      · exact (oddBlock_lane rfl hlt hk).trans (if_pos h3)
      · exact (oddBlock_lane rfl hlt hk).trans (if_neg h3)
      · exact (oddBlock_port rfl hge hk).trans (if_pos hu)
      · exact (oddBlock_port rfl hge hk).trans (if_neg (by rw [hu]; decide))
      · exact oddBlock_reserved rfl ht hu hn
      · exact oddBlock_fill rfl hk
    · have hlock := hunting_headers hp hi hh ha hv (by omega) (by omega)
      rw [hg, Nat.zero_add] at hlock
      exact hlock
    · have hzero : popcount (0 : W64) = 0 := by decide
      exact (locked_headers (m := 0) hp hi hh (by rw [hw]; exact fun k _ => by simp) (by omega) (by rw [hw, hzero, Nat.zero_add]; exact hc)).1

end Sys2Proof.Machine
end

section
/-! The commands of relay lanes: what is heard, lock, loss and failure (R240, R245, R246, R249, R250, R257): O49. -/

namespace Sys2Proof.Machine

variable {s t u : State} {p i j n k : Nat} {c : Instr} {act : State → State}

/-! ### What leaves a port moves its line coders alone -/

/-- Two states of a port differ in the scramblers of its lanes and in the number of the next unit alone. -/
structure LineOnly (h h' : PortH) : Prop where
  port : h' = { h with unitNo := h'.unitNo, lanes := h'.lanes }
  lane : ∀ i, h'.lane i = { h.lane i with scr := (h'.lane i).scr }

namespace LineOnly

variable {h h' h'' : PortH}

theorem refl : LineOnly h h := ⟨rfl, fun _ => rfl⟩

theorem trans (h1 : LineOnly h h') (h2 : LineOnly h' h'') : LineOnly h h'' := by
  obtain ⟨hp1, hl1⟩ := h1
  obtain ⟨hp2, hl2⟩ := h2
  refine ⟨?_, fun i => ?_⟩
  · rw [hp1] at hp2
    exact hp2
  · have hlane := hl2 i
    rw [hl1 i] at hlane
    exact hlane

theorem unit : LineOnly h { h with unitNo := n } := ⟨rfl, fun _ => rfl⟩

theorem scrambler {x : BitVec 58} : LineOnly h { h with lanes := modifyAt h.lanes i fun l => { l with scr := x } } := by
  refine ⟨rfl, fun j => ?_⟩
  by_cases hj : j = i ∧ i < 8
  · obtain ⟨rfl, hj⟩ := hj
    have hlane : PortH.lane { h with lanes := modifyAt h.lanes j fun l => { l with scr := x } } j = { h.lane j with scr := x } :=
      modifyAt_getD_self hj
    rw [hlane]
  · have hlane : PortH.lane { h with lanes := modifyAt h.lanes i fun l => { l with scr := x } } j = h.lane j := by
      unfold PortH.lane modifyAt
      dsimp only
      split
      · rw [List.getD_eq_getElem?_getD, List.getD_eq_getElem?_getD, Vector.toList_set, List.getElem?_set_ne (by omega)]
      · rfl
    rw [hlane]

end LineOnly

/-- The line coders of ports alone have moved. -/
def CodersOnly (s t : State) : Prop := ∀ q, LineOnly (s.portH q) (t.portH q)

theorem portH_onPort_ne {g : PortH → PortH} {q : Nat} (h : q ≠ p) : (s.onPort p g).portH q = s.portH q := by
  unfold State.onPort State.portH modifyAt
  dsimp only
  split
  · rw [List.getD_eq_getElem?_getD, List.getD_eq_getElem?_getD, Vector.toList_set, List.getElem?_set_ne (Ne.symm h)]
  · rfl

theorem portH_onPort_out {g : PortH → PortH} (h : ¬p < 16) : s.onPort p g = s := by
  unfold State.onPort modifyAt
  rw [dif_neg h]

namespace CodersOnly

theorem refl : CodersOnly s s := fun _ => .refl

theorem trans (h1 : CodersOnly s t) (h2 : CodersOnly t u) : CodersOnly s u := fun q => (h1 q).trans (h2 q)

theorem of_ports (h : t.ports = s.ports) : CodersOnly s t := fun q => by
  rw [State.portH, State.portH, h]
  exact .refl

theorem onPort {g : PortH → PortH} (h : LineOnly (s.portH p) (g (s.portH p))) : CodersOnly s (s.onPort p g) := by
  intro q
  by_cases hp : p < 16
  · by_cases hq : q = p
    · rw [hq, portH_onPort hp]
      exact h
    · rw [portH_onPort_ne hq]
      exact .refl
  · rw [portH_onPort_out hp]
    exact .refl

theorem foldl {α : Type} {g : State → α → State} {l : List α} (h : ∀ s, ∀ a ∈ l, CodersOnly s (g s a)) : CodersOnly s (l.foldl g s) :=
  List.foldlRecOn (motive := fun (t : State) => CodersOnly s t) _ _ .refl fun t ht a ha => ht.trans (h t a ha)

theorem drive {x : BitVec 2 × W64} : CodersOnly s (s.drive p i x) := by
  have hlane : CodersOnly s (s.onLane p i fun l => { l with scr := lastBits (scrambled ((s.portH p).lane i).scr x.2) }) :=
    onPort .scrambler
  exact hlane.trans (.of_ports rfl)

theorem everyLane {g : Nat → W64} : CodersOnly s (s.everyLane p g) := foldl fun _ _ _ => drive

theorem stripe {x : BitVec 2 × W64} : CodersOnly s (s.stripe p x) := by
  have hunit : CodersOnly s (s.onPort p fun h => { h with unitNo := (s.portH p).unitNo + 1 }) := onPort .unit
  unfold State.stripe
  dsimp only
  split
  · split
    · exact hunit
    · exact hunit.trans drive
  · exact hunit

theorem emit {b : Block} : CodersOnly s (s.emit p b) := by
  cases b with
  | frame f => exact foldl (l := frameUnits f) (g := fun s u => s.stripe p u) fun _ _ _ => stripe
  | ack n c => exact stripe
  | nak n c => exact stripe
  | prbs i k => exact drive
  | echo c => exact .of_ports rfl
  | _ => exact everyLane

theorem latchPrbs : CodersOnly s (s.latchPrbs p i) := by
  unfold State.latchPrbs
  split
  · exact .of_ports rfl
  · exact .refl

theorem lanesChange {g : State → State} {ls : List Nat} (hg : ∀ s, CodersOnly s (g s)) : CodersOnly s (s.lanesChange p ls g) := by
  unfold State.lanesChange
  refine (foldl fun _ _ _ => latchPrbs).trans ((hg _).trans (foldl fun u x _ => ?_))
  split
  · split
    · exact .refl
    · exact emit
  · exact .refl

theorem setLane : CodersOnly s (s.setLane p i n) := by
  have hlatch {s : State} : CodersOnly s (s.latchEq p i) := by
    unfold State.latchEq
    split
    · exact .of_ports rfl
    · exact .refl
  unfold State.setLane
  split
  · exact .refl
  · refine CodersOnly.trans (t := if adaptingState n then s else s.latchEq p i) ?_ (lanesChange fun _ => .of_ports rfl)
    split
    · exact .refl
    · exact hlatch

end CodersOnly

/-! ### What a port hears -/

/-- In far-end loopback what comes goes back. -/
def State.echoed (s : State) (p : Nat) (c : Instr) : State := { s with sent := s.sent ++ [(p, Block.echo c)] }

theorem heard_loop (h : s.portState p = 5) : s.heard p c act = s.echoed p c := if_pos h

section
variable (h : s.portState p ≠ 5)
include h

theorem heard_deaf (hg : s.groupRuns p = false) : s.heard p c act = s := (if_neg h).trans (if_pos (by rw [hg]; rfl))

theorem heard_runs (hg : s.groupRuns p = true) : s.heard p c act = act s := (if_neg h).trans (if_neg (by rw [hg]; decide))

end

/-- A command that is heard, and nothing else, echoes or is not heard; `end_` is what ends its step. -/
theorem unheard {end_ : State → State} (hc : exec c s = .next (end_ (s.heard p c act))) :
    (s.portState p = 5 → exec c s = .next (end_ (s.echoed p c))) ∧
      (s.portState p ≠ 5 ∧ s.groupRuns p = false → exec c s = .next (end_ s)) := by
  refine ⟨fun h => ?_, fun ⟨h, hg⟩ => ?_⟩
  · rw [hc, heard_loop h]
  · rw [hc, heard_deaf h hg]

section
variable {p : Port} {bs : List LaneIn}

theorem idle_loop (h : s.portState p = 5) : execIdle p bs s = .next (((s.echoed p (.idle p bs)).returnBlocks p bs).settle) := by
  have hreturn : (s.returnBlocks p bs).portState p = 5 := h
  rw [execIdle]
  rw [if_pos h, heard_loop hreturn]
  rfl

theorem idle_heard (h : s.portState p ≠ 5) :
    execIdle p bs s = .next (s.heard p (.idle p bs) fun s => bs.foldl (fun s b => s.laneBlock p b) s).settle := by
  rw [execIdle]
  rw [if_neg h]

end

section
variable {p : Port} {bs : List LaneIn}

theorem idle_runs (h : s.portState p ≠ 5) (hg : s.groupRuns p = true) :
    execIdle p bs s = .next (bs.foldl (fun s b => s.laneBlock p b) s).settle := by rw [idle_heard h, heard_runs h hg]

end

/-! ### Headers and TRAIN blocks -/

theorem syncOk_iff {h : BitVec 2} : syncOk h = true ↔ h = 1 ∨ h = 2 := by simp [syncOk]

theorem not_syncOk_iff {h : BitVec 2} : syncOk h = false ↔ ¬(h = 1 ∨ h = 2) := by simp [syncOk]

theorem seeHeader_silent {h : BitVec 2} (hh : s.laneState p i ∉ [1, 2, 3, 4]) : s.seeHeader p i h = s := by
  simp only [List.mem_cons, List.not_mem_nil, or_false, not_or] at hh
  obtain ⟨h1, h2, h3, h4⟩ := hh
  unfold State.seeHeader
  split
  · exact absurd ‹_› h1
  · exact absurd ‹_› h2
  · exact absurd ‹_› h3
  · exact absurd ‹_› h4
  · rfl

theorem proposed_all {v : BitVec 8} : ((s.proposed p).all fun i => v.getLsbD i) = true ↔
    ∀ l < 8, s.laneState p l ≠ 7 → s.laneState p l ≠ 5 → v.getLsbD l = true := by
  simp only [State.proposed, List.all_eq_true, List.mem_filter, lanes8, List.mem_range, Bool.and_eq_true, bne_iff_ne, ne_eq, and_imp]

/-- The partner's flags of a lane as a TRAIN block gives them. -/
def partnerFlags (old : BitVec 8) (i : Nat) (locked : Bool) : BitVec 8 :=
  if locked then old ||| BitVec.ofNat 8 (2 ^ i) else old &&& ~~~BitVec.ofNat 8 (2 ^ i)

theorem trainReceived_eq {b : Bool} (hu : s.seeHeader p i 2 = u)
    (ht : (u.onPort p fun h => { h with partnerLocked := partnerFlags (u.portH p).partnerLocked i b }) = t) :
    s.trainReceived p i b = if t.portState p = 1 ∧
      ((t.proposed p).all fun l => (partnerFlags (u.portH p).partnerLocked i b).getLsbD l) = true ∧
      (!(t.proposed p).all fun l => (u.portH p).partnerLocked.getLsbD l) = true then t.sendAlign p else t := by
  subst hu ht
  rfl

/-! ### The loss of lock -/

section
variable (hp : p < 16)
include hp

omit hp in
theorem portUp_of_state (h : t.portState p = s.portState p) : t.portUp p = s.portUp p := by rw [State.portUp, State.portUp, h]

theorem setLane_portState (hi : i < 8) : (s.setLane p i n).portState p = s.portState p :=
  portState_of_keeps hp (setLane_keepsRegs hp hi) (by decide)

theorem huntsAgain_portState (hi : i < 8) : (s.huntsAgain p i).portState p = s.portState p := by
  have hcount : ((s.setLane p i 2).count F.LANE_STAT.LOSSES (laneIx p i)).portState p = (s.setLane p i 2).portState p :=
    portState_of_keeps hp (.count (rs := [.LANE_STAT]) (by decide) (laneIx_valid hp hi (by decide))) (by decide)
  rw [State.huntsAgain, portMirror_portState hp]
  exact hcount.trans (setLane_portState hp hi)

theorem huntsAgain_limit (hi : i < 8) :
    (s.huntsAgain p i).fld F.PORT_LIMITS.LOSS_LIMIT (portIx p) = s.fld F.PORT_LIMITS.LOSS_LIMIT (portIx p) :=
  congrArg (bitsOf · _ _) (KeepsRegs.trans ((setLane_keepsRegs hp hi).mono (rs' := [.LANE_ERR, .LANE_EQ, .LANE_STAT, .PORT_STAT]) (by decide))
    ((huntsAgain_keeps hp hi).mono (by decide)) _ _ (portIx_valid hp (by decide)) (by decide))

omit hp in
theorem portMirror_portH : (s.portMirror p).portH k = s.portH k := rfl

theorem huntsAgain_losses (hi : i < 8) : (((s.huntsAgain p i).portH p).lane i).losses = ((s.portH p).lane i).losses + 1 := by
  have hset : (((s.setLane p i 2).portH p).lane i).losses = ((s.portH p).lane i).losses := by
    rw [(CodersOnly.setLane (s := s) (p := p) (i := i) (n := 2) p).lane i]
  have hlane := lane_onLane (s := (s.setLane p i 2).count F.LANE_STAT.LOSSES (laneIx p i))
    (g := fun l => { l with losses := l.losses + 1, good := 0, window := 0 }) hp hi
  rw [State.huntsAgain, portMirror_portH, portH_onPort hp, ← hset]
  exact congrArg LaneH.losses hlane

theorem loss_retires (hi : i < 8) (h : s.laneState p i = 3 ∨ s.laneState p i = 4)
    (hl : s.fld F.PORT_LIMITS.LOSS_LIMIT (portIx p) = 1) : s.lossOfLock p i = (s.huntsAgain p i).spend.failLane p i 0 := by
  rw [lossOfLock_eq h rfl, huntsAgain_limit hp hi, hl]
  exact if_pos ⟨by decide, Nat.le_add_right _ _⟩

theorem loss_hunts (hi : i < 8) (h : s.laneState p i = 3 ∨ s.laneState p i = 4)
    (hl : s.fld F.PORT_LIMITS.LOSS_LIMIT (portIx p) = 0 ∨ ((s.portH p).lane i).losses + 1 < s.fld F.PORT_LIMITS.LOSS_LIMIT (portIx p)) :
    s.lossOfLock p i = if s.portUp p && (s.rxMap p).contains i then (s.huntsAgain p i).spend.sendMapReq p
      else (s.huntsAgain p i).spend := by
  have hfew : ¬(s.fld F.PORT_LIMITS.LOSS_LIMIT (portIx p) ≠ 0 ∧
      s.fld F.PORT_LIMITS.LOSS_LIMIT (portIx p) ≤ (s.huntsAgain p i).recentLosses p i) := by
    rintro ⟨h0, hle⟩
    have hrecent := Nat.mod_lt (Config.freeMeasure (s.huntsAgain p i).free).toNat (show 0 < ((s.portH p).lane i).losses + 1 by omega)
    rw [State.recentLosses, huntsAgain_losses hp hi] at hle
    obtain hl | hl := hl
    · exact h0 hl
    · omega
  have hup : (s.huntsAgain p i).spend.portUp p = s.portUp p :=
    portUp_of_state ((portState_of_keeps hp (KeepsRegs.of_regs (rs := []) (State.spend_regs _)) (by decide)).trans
      (huntsAgain_portState hp hi))
  rw [lossOfLock_eq h rfl, huntsAgain_limit hp hi, if_neg hfew, hup]

/-! ### Lanes that are late -/

theorem markFailed_portState (hi : i < 8) : (s.markFailed p i n).portState p = s.portState p := by
  rw [State.markFailed, portMirror_portState hp, portState_of_keeps hp (KeepsRegs.of_regs (rs := []) recordLink_regs) (by decide),
    portState_of_keeps hp (portEvent_keepsRegs hp) (by decide), portState_put hp (f := F.PORT_STAT.FAILED) rfl (by decide) (by decide),
    setLane_portState hp hi]

/-- What lanes that fail on an acquiring port leave: it goes on acquiring, and the other lanes keep their states. -/
structure LanesFailed (s t : State) (p : Nat) (late : List Nat) : Prop where
  port : t.portState p = s.portState p
  width : t.minWidth p = s.minWidth p
  lanes : ∀ l < 8, t.laneState p l = if l ∈ late then 7 else s.laneState p l

theorem failLane_acquiring (hi : i < 8) (h : s.portState p = 1) : LanesFailed s (s.failLane p i n) p [i] := by
  by_cases h7 : s.laneState p i = 7
  · rw [State.failLane, if_pos h7]
    refine ⟨rfl, rfl, fun l hl => ?_⟩
    by_cases hli : l = i
    · simp [hli, h7]
    · simp [hli]
  · have hstate := markFailed_portState (s := s) (n := n) hp hi
    have hup : ¬(((s.markFailed p i n).portUp p && ((s.markFailed p i n).rxMap p).contains i) = true) := by
      simp [State.portUp, hstate, h]
    rw [failLane_eq h7 rfl, if_neg hup]
    refine ⟨hstate, ?_, fun l hl => ?_⟩
    · have hkeeps : KeepsRegs s (s.markFailed p i n) ([.LANE_ERR, .LANE_EQ, .LANE_STAT] ++ failRegs) :=
        ((setLane_keepsRegs hp hi).mono (List.subset_append_left _ _)).trans
          ((markFailed_keeps hp).mono (List.subset_append_right _ _))
      rw [State.minWidth, State.minWidth, State.fld, hkeeps _ _ (portIx_valid hp (by decide)) (by decide)]
      rfl
    · by_cases hli : l = i
      · subst hli
        rw [if_pos (by simp), markFailed_self hp hl]
      · rw [if_neg (by simpa using hli), laneState_of_keeps hp hl (markFailed_keeps hp) (by decide),
          setLane_other hp hi hl (Ne.symm hli)]

theorem failLanes_acquiring {late : List Nat} (hlate : ∀ i ∈ late, i < 8) (h : s.portState p = 1) :
    LanesFailed s (late.foldl (fun s i => s.failLane p i n) s) p late := by
  induction late generalizing s with
  | nil => exact ⟨rfl, rfl, fun _ _ => by simp⟩
  | cons i late ih =>
    obtain ⟨hport, hwidth, hlanes⟩ := failLane_acquiring (n := n) hp (hlate i (by simp)) h
    obtain ⟨hport', hwidth', hlanes'⟩ := ih (s := s.failLane p i n) (fun i hi => hlate i (by simp [hi])) (hport.trans h)
    refine ⟨hport'.trans hport, hwidth'.trans hwidth, fun l hl => ?_⟩
    refine (hlanes' l hl).trans ?_
    rw [hlanes l hl]
    by_cases hmem : l ∈ late <;> simp [hmem]

end

/-! ### The obligation -/

theorem trainReceived_told {b : Bool} (hu : s.seeHeader p i 2 = u)
    (ht : (u.onPort p fun h => { h with partnerLocked := partnerFlags (u.portH p).partnerLocked i b }) = t) :
    (t.portState p ≠ 1 ∨
        ¬(∀ l < 8, t.laneState p l ≠ 7 → t.laneState p l ≠ 5 → (partnerFlags (u.portH p).partnerLocked i b).getLsbD l = true) ∨
        (∀ l < 8, t.laneState p l ≠ 7 → t.laneState p l ≠ 5 → (u.portH p).partnerLocked.getLsbD l = true) →
      s.trainReceived p i b = t) ∧
    (t.portState p = 1 →
      (∀ l < 8, t.laneState p l ≠ 7 → t.laneState p l ≠ 5 → (partnerFlags (u.portH p).partnerLocked i b).getLsbD l = true) →
      ¬(∀ l < 8, t.laneState p l ≠ 7 → t.laneState p l ≠ 5 → (u.portH p).partnerLocked.getLsbD l = true) →
      s.trainReceived p i b = t.sendAlign p) := by
  rw [trainReceived_eq hu ht]
  refine ⟨fun h => if_neg ?_, fun h1 hnew hold => if_pos ⟨h1, proposed_all.mpr hnew, ?_⟩⟩
  · rintro ⟨h1, hnew, hold⟩
    obtain h | h | h := h
    · exact h h1
    · exact h (proposed_all.mp hnew)
    · rw [proposed_all.mpr h] at hold
      exact absurd hold (by decide)
  · rw [Bool.not_eq_true', ← Bool.not_eq_true, proposed_all]
    exact hold

/-- The lanes of a port that are not locked and not out of use. -/
def State.lateLanes (s : State) (p : Nat) : List Nat :=
  lanes8.filter fun l => s.laneState p l == 1 || s.laneState p l == 2 || s.laneState p l == 8

theorem lateLanes_lt : ∀ l ∈ s.lateLanes p, l < 8 := fun _ hl => List.mem_range.mp (List.mem_of_mem_filter hl)

theorem LanesFailed.locked (h : LanesFailed s t p (s.lateLanes p)) :
    (lanes8.filter fun l => t.laneState p l == 3) = lanes8.filter fun l => s.laneState p l == 3 := by
  refine List.filter_congr fun l hl => ?_
  rw [h.lanes l (List.mem_range.mp hl)]
  by_cases hlate : l ∈ s.lateLanes p
  · have hstate := (List.mem_filter.mp hlate).2
    rw [if_pos hlate]
    simp only [Bool.or_eq_true, beq_iff_eq] at hstate
    obtain (h | h) | h := hstate <;> rw [h] <;> rfl
  · rw [if_neg hlate]

section
variable {p : Port}

theorem acqLimit_over (h1 : s.portState p = 1) (ha : s.aloneRef = false) (hg : s.groupRuns p = true) (late : List Nat)
    (hl : s.lateLanes p = late) :
    execAcqLimitExpiry p s = if (lanes8.filter fun l => s.laneState p l == 3).length < s.minWidth p then
        .next ((late.foldl (fun s l => s.failLane p l 1) s).acquire p)
      else .next (late.foldl (fun s l => s.failLane p l 1) s) := by
  have hfailed := failLanes_acquiring (n := 1) p.isLt (lateLanes_lt (s := s) (p := p)) h1
  subst hl
  rw [execAcqLimitExpiry, if_neg (by simp [h1, ha, hg]), ← hfailed.locked, ← hfailed.width]
  rfl

end

/-- Settles O49: a header's effect follows the state of its lane, a lane that fails or loses lock leaves the others as they are, and
what comes in far-end loopback, or while the group sleeps, is not acted on. -/
theorem relayLaneCommands : Obligations.RelayLaneCommands := by
  unfold Obligations.RelayLaneCommands
  intro s p i flag other outside ok hs bs skew entries bad spares next credits
  have hp := p.isLt
  have hi := i.isLt
  refine ⟨fun c hc => ?_, fun c hc => ?_, fun h => idle_loop h, fun ⟨h, hg⟩ => ?_, fun ⟨h, hg⟩ => ?_, ⟨rfl, fun _ _ => rfl⟩, fun h => ?_,
    fun h3 h4 => if_pos ⟨h3, h4⟩, fun hh => ⟨fun hl => loss_retires hp hi hh hl, fun hl => ?_⟩, fun h => if_pos h, fun h => if_neg h,
    fun h => if_pos ?_, fun h1 ha hg => ?_⟩
  · simp only [List.mem_cons, List.not_mem_nil, or_false] at hc
    obtain rfl | rfl | rfl | rfl | rfl | rfl := hc <;> exact unheard (end_ := State.settle) rfl
  · simp only [List.mem_cons, List.not_mem_nil, or_false] at hc
    obtain rfl | rfl | rfl := hc <;> exact unheard (end_ := id) rfl
  · exact (idle_heard h).trans (congrArg (fun u => Host.Outcome.next (State.settle u)) (heard_deaf h hg))
  · have hruns {c : Instr} {act : State → State} (hc : exec c s = .next (s.heard p c act).settle) : exec c s = .next (act s).settle := by
      rw [hc, heard_runs h hg]
    have htold := trainReceived_told (s := s) (p := p) (i := i) (b := flag) rfl rfl
    have htrain : exec (.train p i flag other outside) s = .next (s.trainReceived p i flag).settle :=
      hruns (act := fun s => s.trainReceived p i flag) rfl
    refine ⟨hruns (act := fun s => s.seeHeaders p i hs) rfl, hruns (act := fun s => s.seeHeaders p i hs) rfl, idle_runs h hg, fun ht => ?_,
      fun h1 hnew hold => ?_⟩
    · exact htrain.trans (congrArg (fun u => Host.Outcome.next (State.settle u)) (htold.1 ht))
    · exact htrain.trans (congrArg (fun u => Host.Outcome.next (State.settle u)) (htold.2 h1 hnew hold))
  · refine ⟨fun hh hv => hunting_bad hh (not_syncOk_iff.mpr hv), fun hh hv hg => hunting_tries hh (syncOk_iff.mpr hv) hp hi hg,
      fun hh hv hg ha => hunting_locks hh (syncOk_iff.mpr hv) hp hi hg ha, fun hh hv => locked_good hh (syncOk_iff.mpr hv),
      fun hh hv => ⟨fun hn => ?_, fun hn => ?_⟩, fun hh hv => resting_unheard hh (hv.imp_left not_syncOk_iff.mpr),
      fun hh hv hr => ⟨fun hn => ?_, fun hn => ?_⟩, seeHeader_silent⟩
    · exact (locked_bad hh (not_syncOk_iff.mpr hv) hp hi).trans (if_neg (Nat.not_le.mpr hn))
    · exact (locked_bad hh (not_syncOk_iff.mpr hv) hp hi).trans (if_pos hn)
    · exact (resting_burst hh (syncOk_iff.mpr hv) hr hp hi).trans (if_neg (Nat.not_le.mpr hn))
    · exact (resting_burst hh (syncOk_iff.mpr hv) hr hp hi).trans (if_pos hn)
  · have hloss := loss_hunts hp hi hh hl
    refine ⟨fun hu hm => hloss.trans (if_pos ?_), fun hn => hloss.trans (if_neg ?_)⟩
    · simp [hu, hm]
    · obtain hn | hn := hn <;> simp [hn]
  · obtain h | h | h := h <;> simp [h]
  · have hover := acqLimit_over h1 ha hg _ rfl
    have hfailed := failLanes_acquiring (n := 1) hp (lateLanes_lt (s := s) (p := p)) h1
    exact ⟨fun hle => hover.trans (if_neg (Nat.not_lt.mpr hle)), fun hlt => hover.trans (if_pos hlt), hfailed.lanes⟩

end Sys2Proof.Machine
end

section
/-! Ports whose group runs: ALIGN, MAP and MAP_REQ, electrical idle, acknowledgement and replay (R244, R250 to R255, R264, R265): O50. -/

namespace Sys2Proof.Machine

variable {s t u : State} {p i j n k a b : Nat} {sk : Nat → Nat} {c : Instr} {act : State → State}

/-! ### Masks of lanes -/

theorem testBit_natOfBits {bs : List Bool} : (natOfBits bs).testBit i = bs.getD i false := by
  have hcons {b : Bool} {bs : List Bool} : natOfBits (b :: bs) = 2 * natOfBits bs + b2n b := Nat.add_comm _ _
  induction bs generalizing i with
  | nil => exact Nat.zero_testBit i
  | cons b bs ih =>
    rw [hcons]
    cases i with
    | zero => cases b <;> simp [Nat.testBit_zero, b2n]
    | succ i =>
      rw [Nat.testBit_succ, show (2 * natOfBits bs + b2n b) / 2 = natOfBits bs by cases b <;> simp [b2n]; omega, ih]
      rfl

theorem getLsbD_maskOf {ls : List Nat} : (BitVec.ofNat 8 (maskOf ls)).getLsbD i = (decide (i < 8) && ls.contains i) := by
  rw [BitVec.getLsbD_ofNat, maskOf, testBit_natOfBits]
  by_cases hi : i < 8
  · simp [hi, lanes8]
  · simp [hi]

/-! ### Blocks that leave, in their order -/

theorem emit_sent {b : Block} : (s.emit p b).sent = s.sent ++ [(p, b)] := by
  have hfold {α : Type} {g : State → α → State} {l : List α} {s : State} (h : ∀ s a, (g s a).sent = s.sent) : (l.foldl g s).sent = s.sent :=
    List.foldlRecOn (motive := fun (t : State) => t.sent = s.sent) _ _ rfl fun t ht a _ => (h t a).trans ht
  have hevery {s : State} {g : Nat → W64} : (s.everyLane p g).sent = s.sent := hfold fun _ _ => rfl
  have hstripe {s : State} {x : BitVec 2 × W64} : (s.stripe p x).sent = s.sent := by
    unfold State.stripe
    dsimp only
    split
    · split <;> rfl
    · rfl
  have hframe {s : State} {l : List (BitVec 2 × W64)} : (l.foldl (fun s x => s.stripe p x) s).sent = s.sent := hfold fun _ _ => hstripe
  have happ {t : State} (h : t.sent = s.sent) : t.sent ++ [(p, b)] = s.sent ++ [(p, b)] := by rw [h]
  cases b with
  | frame f => exact happ hframe
  | ack n c => exact happ hstripe
  | nak n c => exact happ hstripe
  | prbs i k => exact happ rfl
  | echo c => exact happ rfl
  | _ => exact happ hevery

/-- Blocks go out in order; registers stay, and of the ports the line coders move alone. -/
structure Emitted (s t : State) (p : Nat) (bs : List Block) : Prop where
  regs : t.regs = s.regs
  coders : CodersOnly s t
  sent : t.sent = s.sent ++ bs.map fun b => (p, b)

theorem Emitted.nil : Emitted s s p [] := ⟨rfl, .refl, by simp⟩

theorem Emitted.emit {b : Block} : Emitted s (s.emit p b) p [b] := ⟨emit_regs, .emit, emit_sent⟩

theorem Emitted.trans {bs bs' : List Block} (h : Emitted s t p bs) (h' : Emitted t u p bs') : Emitted s u p (bs ++ bs') :=
  ⟨h'.regs.trans h.regs, h.coders.trans h'.coders, by rw [h'.sent, h.sent, List.map_append, List.append_assoc]⟩

theorem Emitted.foldl {bs : List Block} : Emitted s (bs.foldl (fun s b => s.emit p b) s) p bs := by
  induction bs generalizing s with
  | nil => exact .nil
  | cons b bs ih => exact Emitted.emit.trans ih

/-- The blocks of a burst are alike: what they say is not changed by sending them. -/
theorem Emitted.trains : Emitted s ((List.range n).foldl (fun s _ => s.emitTrain p) s) p
    (List.replicate n (.train ((s.controlLanes p).map fun i => (i, s.trainFlags p i)))) := by
  induction n with
  | zero => exact .nil
  | succ n ih =>
    rw [List.range_succ, List.foldl_append, List.replicate_succ']
    refine ih.trans ?_
    obtain ⟨hregs, hcoders, -⟩ := ih
    generalize (List.range n).foldl (fun s _ => s.emitTrain p) s = t at hregs hcoders ⊢
    have hfld (f : Fld) (ix : List Nat) : t.fld f ix = s.fld f ix := by rw [State.fld, State.fld, State.reg, State.reg, hregs]
    have hskew : (t.portH p).deskewed = (s.portH p).deskewed := by rw [(hcoders p).port]
    have hlanes : t.controlLanes p = s.controlLanes p := by
      unfold State.controlLanes State.laneState
      simp only [hfld]
    have hflags : t.trainFlags p = s.trainFlags p := by
      funext i
      unfold State.trainFlags State.laneState State.rxMap
      simp only [hfld, hskew]
    rw [← hlanes, ← hflags, List.foldl_cons, List.foldl_nil]
    exact Emitted.emit (s := t)

/-! ### Lanes that take another state together -/

/-- Every lane of a list that is in one state takes another. -/
def State.retake (s : State) (p a b : Nat) (ls : List Nat) : State := ls.foldl (fun s i => if s.laneState p i = a then s.setLane p i b else s) s

section
variable (hp : p < 16)
include hp

theorem retake_keepsRegs {ls : List Nat} (hls : ∀ i ∈ ls, i < 8) : KeepsRegs s (s.retake p a b ls) [.LANE_ERR, .LANE_EQ, .LANE_STAT] :=
  .foldl_mem _ fun s i hi => by
    split
    · exact setLane_keepsRegs hp (hls i hi)
    · exact .refl

omit hp in
theorem retake_coders {ls : List Nat} : CodersOnly s (s.retake p a b ls) :=
  .foldl fun s i _ => by
    split
    · exact .setLane
    · exact .refl

theorem retake_state {ls : List Nat} (hls : ∀ i ∈ ls, i < 8) (hab : b ≠ a) (hb : b < 16) (hj : j < 8) :
    (s.retake p a b ls).laneState p j = if j ∈ ls ∧ s.laneState p j = a then b else s.laneState p j := by
  induction ls generalizing s with
  | nil => simp [State.retake]
  | cons i ls ih =>
    have hi := hls i (by simp)
    have hrest := ih (s := if s.laneState p i = a then s.setLane p i b else s) fun i hi => hls i (by simp [hi])
    refine hrest.trans ?_
    by_cases hs : s.laneState p i = a
    · rw [if_pos hs]
      by_cases hji : j = i
      · subst hji
        simp [setLane_self hp hi hb, hab, hs]
      · simp [setLane_other hp hi hj (Ne.symm hji), hji]
    · rw [if_neg hs]
      by_cases hji : j = i
      · subst hji
        simp [hs]
      · simp [hji]

end

theorem lanes_lt : ∀ l ∈ lanes8, l < 8 := fun _ hl => List.mem_range.mp hl

theorem onPort_laneState {g : PortH → PortH} : (s.onPort p g).laneState k j = s.laneState k j := rfl

/-! ### An ALIGN deskews the locked lanes -/

/-- The lanes that are locked and at most 31 blocks behind. -/
def State.goodLanes (s : State) (p : Nat) (sk : Nat → Nat) : List Nat := lanes8.filter fun l => s.laneState p l == 3 && decide (sk l ≤ 31)

/-- The skews that an ALIGN shows are written down. -/
def State.skews (s : State) (p : Nat) (sk : Nat → Nat) : State :=
  lanes8.foldl (fun s l => if s.laneState p l = 3 then s.put F.LANE_STAT.SKEW (sk l) (laneIx p l) else s) s

/-- … and the lanes that are deskewed are known. -/
def State.deskews (s : State) (p : Nat) (sk : Nat → Nat) : State :=
  (s.skews p sk).onPort p fun h => { h with deskewed := BitVec.ofNat 8 (maskOf (s.goodLanes p sk)) }

section
variable (hp : p < 16)
include hp

theorem skews_keepsRegs : KeepsRegs s (s.skews p sk) [.LANE_STAT] :=
  .foldl_mem _ fun s i hi => by
    split
    · exact .put (by decide) (laneIx_valid hp (List.mem_range.mp hi) (by decide))
    · exact .refl

theorem skews_laneState (hj : j < 8) : (s.skews p sk).laneState p j = s.laneState p j :=
  List.foldlRecOn (motive := fun (t : State) => t.laneState p j = s.laneState p j) _ _ rfl fun t ht i hi => by
    split
    · exact (laneState_put_field hp hj (f := F.LANE_STAT.SKEW) rfl (by decide) (by decide) (List.mem_range.mp hi)).trans ht
    · exact ht

omit hp in
theorem skews_ports : (s.skews p sk).ports = s.ports :=
  List.foldlRecOn (motive := fun (t : State) => t.ports = s.ports) _ _ rfl fun t ht i _ => by
    split
    · exact ht
    · exact ht

theorem deskews_portH : (s.deskews p sk).portH p = { s.portH p with deskewed := BitVec.ofNat 8 (maskOf (s.goodLanes p sk)) } := by
  have hports : (s.skews p sk).portH p = s.portH p := by rw [State.portH, skews_ports, ← State.portH]
  rw [State.deskews, portH_onPort hp, hports]

theorem deskews_keepsRegs : KeepsRegs s (s.deskews p sk) [.LANE_STAT] := KeepsRegs.trans (skews_keepsRegs hp) (.of_regs rfl)

theorem deskews_portState : (s.deskews p sk).portState p = s.portState p := portState_of_keeps hp (deskews_keepsRegs hp) (by decide)

theorem deskews_portUp : (s.deskews p sk).portUp p = s.portUp p := portUp_of_state (deskews_portState hp)

theorem deskews_laneState (hj : j < 8) : (s.deskews p sk).laneState p j = s.laneState p j := skews_laneState hp hj

omit hp in
theorem mem_goodLanes : j ∈ s.goodLanes p sk ↔ j < 8 ∧ s.laneState p j = 3 ∧ sk j ≤ 31 := by
  simp [State.goodLanes, lanes8]

theorem usable_deskews : (s.deskews p sk).usable p j = decide (j ∈ s.goodLanes p sk) := by
  rw [State.usable, deskews_portH hp]
  dsimp only
  rw [getLsbD_maskOf]
  by_cases hj : j < 8
  · rw [deskews_laneState hp hj]
    simp only [hj, decide_true, Bool.true_and, List.contains_eq_mem, mem_goodLanes, true_and]
    by_cases h3 : s.laneState p j = 3 <;> simp [h3]
  · simp [hj, mem_goodLanes]

theorem rxMap_of_keeps {rs : List RegName} (h : KeepsRegs s t rs) (hr : RegName.PORT_MAP ∉ rs) : t.rxMap p = s.rxMap p :=
  congrArg (fun w => mapLanes (bitsOf w _ _)) (h _ _ (portIx_valid hp (by decide)) hr)

theorem minWidth_of_keeps {rs : List RegName} (h : KeepsRegs s t rs) (hr : RegName.PORT_CTRL ∉ rs) : t.minWidth p = s.minWidth p :=
  congrArg (fun w => max 1 (min 8 (bitsOf w _ _))) (h _ _ (portIx_valid hp (by decide)) hr)

theorem alignReceived_eq {skew : Vector (BitVec 8) 8} (hsk : (fun i => (skew.toList.getD i 0).toNat) = sk)
    (ht : s.deskews p sk = t) : s.alignReceived p skew =
      if s.portState p = 1 then if t.mapsReady p then t.portReady p else t.formMap p
      else if s.portUp p = false then t
      else if (s.portH p).rxIdle then t.burstEnds p
      else (t.applyRxMap p).mindMap p := by
  have hgood : (lanes8.filter fun l => (s.skews p sk).laneState p l == 3 && decide (sk l ≤ 31)) = s.goodLanes p sk :=
    List.filter_congr fun l hl => by rw [skews_laneState hp (List.mem_range.mp hl)]
  have hidle : (t.portH p).rxIdle = (s.portH p).rxIdle := by rw [← ht, deskews_portH hp]
  have hdesk : (s.skews p sk).onPort p (fun h => { h with deskewed := BitVec.ofNat 8 (maskOf (lanes8.filter fun l =>
      (s.skews p sk).laneState p l == 3 && decide (sk l ≤ 31))) }) = t := by rw [hgood, ← ht, State.deskews]
  have hexec : s.alignReceived p skew = if t.portState p = 1 then if t.mapsReady p then t.portReady p else t.formMap p
      else if !t.portUp p then t else if (t.portH p).rxIdle then t.burstEnds p else (t.applyRxMap p).mindMap p := by
    rw [← hdesk, ← hsk]
    rfl
  have hstate : t.portState p = s.portState p := ht ▸ deskews_portState hp
  rw [hexec, hstate, hidle, portUp_of_state hstate]
  simp only [Bool.not_eq_true']

end

/-! ### A port that acquires -/

section
variable (hp : p < 16)
include hp

theorem flag_deskews (f : Fld) (hf : f.reg = .PORT_CTRL) : (s.deskews p sk).flag f (portIx p) = s.flag f (portIx p) := by
  rw [State.flag, State.flag, State.fld, State.fld, deskews_keepsRegs hp _ _ (by rw [hf]; exact portIx_valid hp (by decide)) (by rw [hf]; decide)]

theorem minWidth_deskews : (s.deskews p sk).minWidth p = s.minWidth p := minWidth_of_keeps hp (deskews_keepsRegs hp) (by decide)

theorem formMap_deskews {map : List Nat} (ht : s.deskews p sk = t)
    (hm : mapFrom (s.goodLanes p sk) (s.flag F.PORT_CTRL.SPARE (portIx p)) = map) : t.formMap p =
      if map.length < s.minWidth p then t.onPort p fun h => { h with rxMapNext := none }
      else ((t.onPort p fun h => { h with rxMapNext := some (BitVec.ofNat 32 (mapWord map)) }).emitTrain p).emit p
        (.map (BitVec.ofNat 32 (mapWord map))) := by
  have husable : lanes8.filter (t.usable p) = s.goodLanes p sk := by
    rw [← ht, State.goodLanes]
    refine List.filter_congr fun l hl => ?_
    rw [usable_deskews hp, Bool.eq_iff_iff]
    simp [mem_goodLanes, List.mem_range.mp hl]
  have hmap : mapFrom (lanes8.filter (t.usable p)) (t.flag F.PORT_CTRL.SPARE (portIx p)) = map := by
    rw [husable, ← ht, flag_deskews hp _ rfl, hm]
  have hwidth : t.minWidth p = s.minWidth p := ht ▸ minWidth_deskews hp
  rw [State.formMap, hmap, hwidth]

theorem mapsReady_deskews : (s.deskews p sk).mapsReady p = true ↔ ∃ r x, (s.portH p).rxMapNext = some r ∧ (s.portH p).txMapNext = some x ∧
    s.minWidth p ≤ (mapLanes r.toNat).length ∧ s.minWidth p ≤ (mapLanes x.toNat).length ∧ ∀ l ∈ mapLanes r.toNat, l ∈ s.goodLanes p sk := by
  rw [State.mapsReady, deskews_portH hp, minWidth_deskews hp]
  dsimp only
  cases hr : (s.portH p).rxMapNext with
  | none => simp
  | some r =>
    cases hx : (s.portH p).txMapNext with
    | none => simp
    | some x =>
      simp only [Bool.and_eq_true, List.all_eq_true, usable_deskews hp, decide_eq_true_eq, Option.some.injEq]
      exact ⟨fun ⟨⟨hl, hwr⟩, hwx⟩ => ⟨r, x, rfl, rfl, hwr, hwx, hl⟩, by rintro ⟨_, _, rfl, rfl, hwr, hwx, hl⟩; exact ⟨⟨hl, hwr⟩, hwx⟩⟩

/-! ### Electrical idle of the partner -/

/-- The closing ALIGN of a burst in which no lane of the map has failed. -/
theorem burstEnds_whole (hu : t.portUp p = true) (hall : ∀ l ∈ t.rxMap p, l < 8 ∧ t.laneState p l = 3 ∧ t.usable p l = true) :
    t.burstEnds p = (t.onPort p fun h => { h with rxIdle := false }).retake p 4 2 lanes8 := by
  have hnone : ((t.onPort p fun h => { h with rxIdle := false }).rxMap p).filter (fun i =>
      (t.onPort p fun h => { h with rxIdle := false }).laneState p i == 4 ||
        (t.onPort p fun h => { h with rxIdle := false }).unusable p i) = [] := by
    refine List.filter_eq_nil_iff.mpr fun l hl => ?_
    obtain ⟨-, h3, huse⟩ := hall l hl
    have hdesk : (t.onPort p fun h => { h with rxIdle := false }).usable p l = t.usable p l := by
      unfold State.usable
      rw [portH_onPort hp]
      rfl
    rw [State.unusable, hdesk, huse, onPort_laneState, h3]
    decide
  have hup : ((t.onPort p fun h => { h with rxIdle := false }).retake p 4 2 lanes8).portUp p = true := by
    rw [portUp_of_state (portState_of_keeps hp (retake_keepsRegs hp lanes_lt) (by decide))]
    exact hu
  rw [State.burstEnds, hnone]
  exact if_pos hup

omit hp in
theorem partnerIdles_up (hu : s.portUp p = true) : s.partnerIdles p =
    (s.onPort p fun h => { h with rxIdle := true, lanes := h.lanes.map fun l => { l with good := 0 } }).retake p 3 4 lanes8 := if_pos hu

end

/-! ### The transmitter goes idle and leaves idle -/

theorem enterIdle_state : (s.enterIdle p).portState p = 3 := by
  rw [State.enterIdle]
  exact (State.fld_put (f := F.PORT_STAT.STATE) (by decide) (by decide)).trans rfl

theorem enterIdle_sent : (s.enterIdle p).sent = s.sent ++ List.replicate 5 (p, Block.idleEnter) :=
  (Emitted.foldl (s := s) (p := p) (bs := List.replicate 5 .idleEnter)).sent

theorem sendAlign_sent : ∃ count places, (s.sendAlign p).sent = s.sent ++ [(p, Block.align count places)] := ⟨_, _, emit_sent⟩

theorem burst_sent (long : Bool) : ∃ flags count places, (s.burst p long).sent =
    s.sent ++ List.replicate (if long then 1023 else 31) (p, Block.train flags) ++ [(p, Block.align count places)] := by
  have htrains := (Emitted.trains (s := s) (p := p) (n := if long then 1023 else 31)).sent
  obtain ⟨count, places, halign⟩ :=
    sendAlign_sent (s := (List.range (if long then 1023 else 31)).foldl (fun s _ => s.emitTrain p) s) (p := p)
  rw [htrains, List.map_replicate] at halign
  exact ⟨_, count, places, halign⟩

/-! ### Replay -/

theorem satAdd_lt : satAdd n a b < 2 ^ n := by
  have := Nat.two_pow_pos n
  unfold satAdd
  split <;> omega

/-- A frame that the port may carry goes out once more. -/
def State.sentAgain (s : State) (p : Nat) (f : TxFrame) : TxFrame := if s.mayCarry p f then { f with sends := f.sends + 1 } else f

/-- The frames that go out again. -/
def State.replayed (s : State) (p : Nat) : List TxFrame :=
  ((s.portH p).unacked.filter fun f => s.mayCarry p f).map fun f => { f with sends := f.sends + 1 }

theorem again_marked {m : TxFrame → Bool} {fs : List TxFrame} :
    ((fs.map fun f => if m f then ({ f with sends := f.sends + 1 }, true) else (f, false)).filter fun x => x.2).map (fun x => x.1) =
      (fs.filter m).map fun f => { f with sends := f.sends + 1 } := by
  induction fs with
  | nil => rfl
  | cons f fs ih => cases h : m f <;> simp_all

theorem again_all {m : TxFrame → Bool} {fs : List TxFrame} :
    (fs.map fun f => if m f then ({ f with sends := f.sends + 1 }, true) else (f, false)).map (fun x => x.1) =
      fs.map fun f => if m f then { f with sends := f.sends + 1 } else f := by
  rw [List.map_map]
  refine List.map_congr_left fun f _ => ?_
  by_cases h : m f <;> simp [h]

theorem resend_eq : s.resend p =
    if (s.replayed p).any (fun f => decide (max 1 (s.fld F.CHAIN_LIMITS.REPLAY_LIMIT) < f.sends)) then
      (s.put F.LINK_STAT.EXHAUSTED 1 [p]).portDown p
    else (s.replayed p).foldl (fun s f => s.offer p (.frame f))
      ((s.onPort p fun h => { h with unacked := (s.portH p).unacked.map (s.sentAgain p) }).count F.LINK_STAT.REPLAYS [p] (s.replayed p).length) := by
  unfold State.resend
  dsimp only
  rw [again_marked, again_all]
  rfl

theorem replayed_over : (s.replayed p).any (fun f => decide (n < f.sends)) = true ↔
    ∃ f ∈ (s.portH p).unacked, s.mayCarry p f = true ∧ n ≤ f.sends := by
  simp only [State.replayed, List.any_map, List.any_eq_true, List.mem_filter, Function.comp, decide_eq_true_eq, Nat.lt_succ_iff, and_assoc]

theorem offers_emitted {fs : List TxFrame} (h : s.portState p = 2) :
    Emitted s (fs.foldl (fun s f => s.offer p (.frame f)) s) p (fs.map .frame) := by
  induction fs generalizing s with
  | nil => exact .nil
  | cons f fs ih =>
    have hoffer : s.offer p (.frame f) = s.emit p (.frame f) := if_neg (by rw [h]; decide)
    rw [List.foldl_cons, List.map_cons, hoffer]
    refine Emitted.emit.trans (ih ?_)
    rw [State.portState, State.fld, State.reg, emit_regs]
    exact h

theorem linkStat_valid (hp : p < 16) : RegName.LINK_STAT.valid [p] = true := by
  simp [RegName.valid, RegName.place, ixValid]
  omega

theorem resend_up (hp : p < 16) (h : s.portState p = 2)
    (hf : ∀ f ∈ (s.portH p).unacked, s.mayCarry p f = true → f.sends < max 1 (s.fld F.CHAIN_LIMITS.REPLAY_LIMIT)) :
    ((s.resend p).portH p).unacked = (s.portH p).unacked.map (s.sentAgain p) ∧
      (s.resend p).sent = s.sent ++ (s.replayed p).map (fun f => (p, Block.frame f)) ∧
      (s.resend p).fld F.LINK_STAT.REPLAYS [p] = satAdd (F.LINK_STAT.REPLAYS.hi + 1 - F.LINK_STAT.REPLAYS.lo)
        (s.fld F.LINK_STAT.REPLAYS [p]) (s.replayed p).length := by
  have hfew : ¬(s.replayed p).any (fun f => decide (max 1 (s.fld F.CHAIN_LIMITS.REPLAY_LIMIT) < f.sends)) = true := by
    rw [replayed_over]
    rintro ⟨f, hm, hc, hle⟩
    exact absurd (hf f hm hc) (Nat.not_lt.mpr hle)
  rw [resend_eq, if_neg hfew]
  have hcount {t : State} {n : Nat} : (t.count F.LINK_STAT.REPLAYS [p] n).portState p = t.portState p :=
    portState_of_keeps hp (.count (f := F.LINK_STAT.REPLAYS) (rs := [.LINK_STAT]) (by decide) (linkStat_valid hp)) (by decide)
  have hstart : ((s.onPort p fun h => { h with unacked := (s.portH p).unacked.map (s.sentAgain p) }).count F.LINK_STAT.REPLAYS [p]
      (s.replayed p).length).portState p = 2 := hcount.trans h
  have hsent := offers_emitted (fs := s.replayed p) hstart
  refine ⟨?_, ?_, ?_⟩
  · have hport := congrArg PortH.unacked (hsent.coders p).port
    refine hport.trans ?_
    exact congrArg PortH.unacked (portH_onPort hp)
  · rw [hsent.sent, List.map_map]
    rfl
  · rw [State.fld, State.reg, hsent.regs]
    exact (State.fld_put (f := F.LINK_STAT.REPLAYS) (by decide) (by decide)).trans (Nat.mod_eq_of_lt satAdd_lt)

/-! ### The transmitter's commands -/

theorem alignSends_acquiring (h : s.portState p = 1) : s.alignSends p = s.sendAlign p := by
  unfold State.alignSends
  rw [h]
  rfl

theorem alignSends_silent (h1 : s.portState p ≠ 1) (h2 : s.portState p ≠ 2) : s.alignSends p = s := by
  unfold State.alignSends
  split
  · exact absurd ‹_› h1
  · exact absurd ‹_› h2
  · rfl

section
variable (h : s.portState p = 2) (ht : (s.sendAlign p).applyTxMap p = t)
include h ht

theorem alignSends_up : s.alignSends p = if t.flag F.PORT_STAT.IDLE_PENDING (portIx p) && (t.portH p).txMapNext.isNone then
      if (t.portH p).waitingTx.isEmpty && (t.put F.PORT_STAT.IDLE_PENDING 0 (portIx p)).portState p == 2 then
        (t.put F.PORT_STAT.IDLE_PENDING 0 (portIx p)).enterIdle p
      else t.put F.PORT_STAT.IDLE_PENDING 0 (portIx p)
    else t := by
  unfold State.alignSends
  rw [h, ← ht]
  rfl

theorem alignSends_stays (hn : ¬t.flag F.PORT_STAT.IDLE_PENDING (portIx p) = true ∨ (t.portH p).txMapNext ≠ none) :
    s.alignSends p = t := by
  rw [alignSends_up h ht]
  refine if_neg ?_
  rw [Bool.and_eq_true, Option.isNone_iff_eq_none]
  tauto

theorem alignSends_idles (hp : p < 16) (hf : t.flag F.PORT_STAT.IDLE_PENDING (portIx p) = true) (hm : (t.portH p).txMapNext = none)
    (h2 : t.portState p = 2) (hw : (t.portH p).waitingTx = []) :
    s.alignSends p = (t.put F.PORT_STAT.IDLE_PENDING 0 (portIx p)).enterIdle p := by
  have hstate : (t.put F.PORT_STAT.IDLE_PENDING 0 (portIx p)).portState p = 2 :=
    (portState_put hp (f := F.PORT_STAT.IDLE_PENDING) rfl (by decide) (by decide)).trans h2
  rw [alignSends_up h ht, if_pos (by rw [hf, hm]; rfl), if_pos (by rw [hw, hstate]; rfl)]

end

theorem exitDue_iff : s.exitDue p = true ↔
    (s.portH p).waitingTx ≠ [] ∨ (s.portH p).waitBlocks ≠ [] ∨ (s.portH p).exitLatched = true := by
  simp [State.exitDue, or_assoc]

theorem idleExit_due {long : Bool} (h : s.portState p = 3) (hd : s.exitDue p = true) (hg : s.groupRuns p = true) :
    s.idleExit p long =
      (if (s.portH p).exitLatched then ((s.portH p).waitBlocks.foldl (fun s b => s.emit p b) ((((s.burst p long).setPortState p 2).put
        F.PORT_STAT.IDLE_PENDING 0 (portIx p)).onPort p fun h => { h with waitBlocks := [] })).sendAck p none
      else (s.portH p).waitBlocks.foldl (fun s b => s.emit p b) ((((s.burst p long).setPortState p 2).put
        F.PORT_STAT.IDLE_PENDING 0 (portIx p)).onPort p fun h => { h with waitBlocks := [] })).drainAll p :=
  if_neg (by simp [h, hd, hg])

theorem onPort_congr {g g' : PortH → PortH} (hp : p < 16) (h : g (s.portH p) = g' (s.portH p)) : s.onPort p g = s.onPort p g' := by
  have hget : s.portH p = s.ports[p] := by simp [State.portH, hp, List.getD_eq_getElem?_getD]
  rw [hget] at h
  rw [State.onPort, State.onPort, modifyAt, modifyAt, dif_pos hp, dif_pos hp, h]

theorem mapRequested_latched {bad spares : BitVec 8} (hp : p < 16) (hu : s.portUp p = true) (hn : (s.portH p).txMapNext ≠ none) :
    s.mapRequested p bad spares = (s.onPort p fun h => { h with
      reqLatched := true
      badTx := if h.reqLatched then (h.badTx ||| bad) &&& ~~~spares else bad
      spareTx := spares }).put F.PORT_STAT.MAP_QUEUED 1 (portIx p) := by
  refine ((if_neg (by rw [hu]; decide)).trans (if_pos (Option.isSome_iff_ne_none.mpr hn))).trans ?_
  exact congrArg (fun t => State.put t F.PORT_STAT.MAP_QUEUED 1 (portIx p)) (onPort_congr hp rfl)

/-! ### The obligation -/

section
variable (hp : p < 16)
include hp

theorem alignReceived_acquiring {skew : Vector (BitVec 8) 8} (hsk : (fun i => (skew.toList.getD i 0).toNat) = sk)
    (ht : s.deskews p sk = t) (h1 : s.portState p = 1) :
    s.alignReceived p skew = if t.mapsReady p then t.portReady p else t.formMap p :=
  (alignReceived_eq hp hsk ht).trans (if_pos h1)

theorem alignReceived_up {skew : Vector (BitVec 8) 8} (hsk : (fun i => (skew.toList.getD i 0).toNat) = sk)
    (ht : s.deskews p sk = t) (hu : s.portUp p = true) : s.alignReceived p skew =
      if (s.portH p).rxIdle then t.burstEnds p else (t.applyRxMap p).mindMap p := by
  have h1 : s.portState p ≠ 1 := fun h => by simp [State.portUp, h] at hu
  exact (alignReceived_eq hp hsk ht).trans ((if_neg h1).trans (if_neg (by rw [hu]; decide)))

/-- The burst of an idle partner, at whose end no lane of the map has failed, brings the lanes back. -/
theorem burst_brings_back (hu : s.portUp p = true) (hall : ∀ l ∈ s.rxMap p, s.laneState p l = 3 ∧ sk l ≤ 31)
    (ht : s.deskews p sk = t) : ((t.burstEnds p).portH p).rxIdle = false ∧
      ∀ l < 8, (t.burstEnds p).laneState p l = if s.laneState p l = 4 then 2 else s.laneState p l := by
  have hmap : t.rxMap p = s.rxMap p := ht ▸ rxMap_of_keeps hp (deskews_keepsRegs hp) (by decide)
  have hlanes : ∀ l ∈ t.rxMap p, l < 8 ∧ t.laneState p l = 3 ∧ t.usable p l = true := by
    intro l hl
    rw [hmap] at hl
    have hlt : l < 8 := of_decide_eq_true (List.mem_filter.mp hl).2
    obtain ⟨h3, hsk⟩ := hall l hl
    subst ht
    refine ⟨hlt, (deskews_laneState hp hlt).trans h3, ?_⟩
    rw [usable_deskews hp]
    exact decide_eq_true (mem_goodLanes.mpr ⟨hlt, h3, hsk⟩)
  have hup : t.portUp p = true := (ht ▸ deskews_portUp hp : t.portUp p = s.portUp p).trans hu
  rw [burstEnds_whole hp hup hlanes]
  refine ⟨?_, fun l hl => ?_⟩
  · refine (congrArg PortH.rxIdle (retake_coders p).port).trans ?_
    exact congrArg PortH.rxIdle (portH_onPort hp)
  · rw [retake_state hp lanes_lt (by decide) (by decide) hl, onPort_laneState, ← ht, deskews_laneState hp hl]
    simp [lanes8, hl]

theorem partner_rests (hu : s.portUp p = true) : ((s.partnerIdles p).portH p).rxIdle = true ∧
    ∀ l < 8, (s.partnerIdles p).laneState p l = if s.laneState p l = 3 then 4 else s.laneState p l := by
  rw [partnerIdles_up hu]
  refine ⟨?_, fun l hl => ?_⟩
  · refine (congrArg PortH.rxIdle (retake_coders p).port).trans ?_
    exact congrArg PortH.rxIdle (portH_onPort hp)
  · rw [retake_state hp lanes_lt (by decide) (by decide) hl, onPort_laneState]
    simp [lanes8, hl]

end

/-- Settles O50: ALIGN acts by the state of its port; what an idle transmitter holds goes out in order behind its burst; and a replay
sends what is not acknowledged once more, each frame at most REPLAY_LIMIT times. -/
theorem relayPortCommands : Obligations.RelayPortCommands := by
  unfold Obligations.RelayPortCommands
  intro s p skew entries bad spares next credits long h5 hg
  have hp := p.isLt
  have hheard {c : Instr} {act end_ : State → State} (hc : exec c s = .next (end_ (s.heard p c act))) : exec c s = .next (end_ (act s)) := by
    rw [hc, heard_runs h5 hg]
  have halign : exec (.align p skew) s = .next (s.alignReceived p skew).settle :=
    hheard (act := fun s => s.alignReceived p skew) (end_ := State.settle) rfl
  have hstep {u : State} (h : s.alignReceived p skew = u) : exec (.align p skew) s = .next u.settle := by rw [halign, h]
  have hack (ok : Bool) : exec (.ack p next credits ok) s =
      .next (if s.portUp p && ok then (s.acknowledge p next credits).drainUp p else s) :=
    hheard (act := fun s => if s.portUp p && ok then (s.acknowledge p next credits).drainUp p else s) (end_ := id) rfl
  have hnak (ok : Bool) : exec (.nak p next credits ok) s =
      .next (if s.portUp p && ok then ((s.acknowledge p next credits).resend p).drainUp p else s).settle :=
    hheard (act := fun s => if s.portUp p && ok then ((s.acknowledge p next credits).resend p).drainUp p else s)
      (end_ := State.settle) rfl
  have hrequest {u : State} (h : s.mapRequested p bad spares = u) : exec (.mapReq p bad spares) s = .next u.settle := by
    rw [hheard (c := .mapReq p bad spares) (act := fun s => s.mapRequested p bad spares) (end_ := State.settle) rfl, h]
  have hsends {u : State} (h : s.alignSends p = u) : exec (.alignSend p) s = .next u.settle := by
    rw [← h]
    exact if_pos hg
  refine ⟨fun h1 => ?_, mapsReady_deskews hp, fun h1 hu => ?_, fun hu hi => ?_, fun hu hi hall => ?_, fun h1 => hsends (alignSends_acquiring h1),
    fun h2 => ⟨fun hn => hsends (alignSends_stays h2 rfl hn), fun hf hm h2' hw => hsends (alignSends_idles h2 rfl hp hf hm h2' hw)⟩,
    fun h1 h2 => hsends (alignSends_silent h1 h2), fun h1 => ?_, fun hu => ?_, fun hu => ?_, fun hu hn => ?_, fun hu hn => ?_, fun hu => ?_,
    fun hu => ?_, fun h2 hl hw => ⟨fun hm => ?_, fun hm => ?_⟩, fun hn => ?_, ⟨enterIdle_state, enterIdle_sent⟩, burst_sent long,
    fun h3 hd => ?_, fun hn => ?_, fun hu => ⟨fun ok => ?_, ?_⟩, fun hu => ?_, fun ⟨f, hm, hc, hl⟩ => ?_, fun hf h2 => resend_up hp h2 hf⟩
  · have hacquires := alignReceived_acquiring (skew := skew) hp rfl rfl h1
    refine ⟨fun hr => hstep (hacquires.trans (if_pos hr)), fun hr hw => hstep ?_, fun hr hw => hstep ?_⟩
    · exact hacquires.trans ((if_neg (Bool.eq_false_iff.mp hr)).trans ((formMap_deskews hp rfl rfl).trans (if_pos hw)))
    · exact hacquires.trans ((if_neg (Bool.eq_false_iff.mp hr)).trans ((formMap_deskews hp rfl rfl).trans (if_neg (Nat.not_lt.mpr hw))))
  · exact hstep ((alignReceived_eq hp rfl rfl).trans ((if_neg h1).trans (if_pos hu)))
  · exact hstep ((alignReceived_up hp rfl rfl hu).trans (if_neg (Bool.eq_false_iff.mp hi)))
  · exact ⟨_, hstep ((alignReceived_up hp rfl rfl hu).trans (if_pos hi)), burst_brings_back hp hu hall rfl⟩
  · exact (hheard (act := fun s => s.mapReceived p entries) (end_ := id) rfl).trans (congrArg Host.Outcome.next (if_pos h1))
  · have h1 : s.portState p ≠ 1 := fun h => by simp [State.portUp, h] at hu
    exact (hheard (act := fun s => s.mapReceived p entries) (end_ := id) rfl).trans
      (congrArg Host.Outcome.next ((if_neg h1).trans (if_pos hu)))
  · exact hrequest (if_pos (by rw [hu]; rfl))
  · exact hrequest ((if_neg (by rw [hu]; decide)).trans (if_neg (by rw [hn]; decide)))
  · exact hrequest (mapRequested_latched hp hu hn)
  · exact ⟨_, hheard (act := fun s => s.partnerIdles p) (end_ := id) rfl, partner_rests hp hu⟩
  · exact (hheard (act := fun s => s.partnerIdles p) (end_ := id) rfl).trans (congrArg Host.Outcome.next (if_neg (by rw [hu]; decide)))
  · exact (if_neg (by simp [h2, hl, hw])).trans (if_pos (Option.isSome_iff_ne_none.mpr hm))
  · exact (if_neg (by simp [h2, hl, hw])).trans (if_neg (by rw [hm]; decide))
  · exact if_pos (by simpa using hn)
  · have hexit := idleExit_due (long := long) h3 (exitDue_iff.mpr hd) hg
    refine ⟨fun hl => congrArg Host.Outcome.next (hexit.trans ?_), fun hl => congrArg Host.Outcome.next (hexit.trans ?_)⟩
    · rw [if_pos hl]
    · rw [if_neg (Bool.eq_false_iff.mp hl)]
  · refine congrArg Host.Outcome.next (if_pos ?_)
    rw [← exitDue_iff] at hn
    obtain hn | hn := hn
    · exact .inl hn
    · exact .inr (.inl (by simpa using hn))
  · exact ⟨(hack ok).trans (by rw [hu]; rfl), (hnak ok).trans (by rw [hu]; rfl)⟩
  · exact if_neg (by simp [hu])
  · refine ⟨(hack true).trans (by rw [hu]; rfl), (hnak true).trans (by rw [hu]; rfl), (hack false).trans (by rw [hu]; rfl),
      (hnak false).trans (by rw [hu]; rfl), fun hn => if_neg (by simp [hn]), fun hn => if_pos (by simp [hu, hn])⟩
  · rw [resend_eq, if_pos (replayed_over.mpr ⟨f, hm, hc, hl⟩)]

end Sys2Proof.Machine
end

section
/-! Frames as they arrive at a port: what is accepted, acknowledged and forwarded (R260 to R266): O51. -/

namespace Sys2Proof.Machine

variable {s t u : State} {p i j n k : Nat} {b : Block} {rs : List RegName}

/-! ### What a port's own work leaves as it is -/

/-- Registers of `rs`, the ports and what leaves them change, and no other part of the device. -/
structure PortWork (s t : State) (rs : List RegName) : Prop where
  keeps : KeepsRegs s t rs
  rest : t = { s with regs := t.regs, ports := t.ports, wire := t.wire, sent := t.sent }

namespace PortWork

theorem refl : PortWork s s rs := ⟨.refl, rfl⟩

theorem trans (h1 : PortWork s t rs) (h2 : PortWork t u rs) : PortWork s u rs := by
  obtain ⟨hk1, hr1⟩ := h1
  obtain ⟨hk2, hr2⟩ := h2
  refine ⟨hk1.trans hk2, ?_⟩
  rw [hr1] at hr2
  exact hr2

theorem onPort {g : PortH → PortH} : PortWork s (s.onPort p g) rs := ⟨.of_regs rfl, rfl⟩

theorem put {f : Fld} {ix : List Nat} (hr : f.reg ∈ rs) (hv : f.reg.valid ix = true) : PortWork s (s.put f n ix) rs := ⟨.put hr hv, rfl⟩

theorem of_outputs (hr : t.regs = s.regs) (h : t = { s with ports := t.ports, wire := t.wire, sent := t.sent }) : PortWork s t rs := by
  refine ⟨.of_regs hr, ?_⟩
  rw [hr]
  exact h

theorem foldl {α : Type} {g : State → α → State} {l : List α} (h : ∀ s, ∀ a ∈ l, PortWork s (g s a) rs) : PortWork s (l.foldl g s) rs :=
  List.foldlRecOn (motive := fun (t : State) => PortWork s t rs) _ _ .refl fun t ht a ha => ht.trans (h t a ha)

theorem emit : PortWork s (s.emit p b) rs := by
  have hdrive {s : State} {i : Nat} {x : BitVec 2 × W64} : PortWork s (s.drive p i x) rs := ⟨.of_regs rfl, rfl⟩
  have hevery {s : State} {g : Nat → W64} : PortWork s (s.everyLane p g) rs := foldl fun _ _ _ => hdrive
  have hstripe {s : State} {x : BitVec 2 × W64} : PortWork s (s.stripe p x) rs := by
    have hunit : PortWork s (s.onPort p fun h => { h with unitNo := (s.portH p).unitNo + 1 }) rs := onPort
    unfold State.stripe
    dsimp only
    split
    · split
      · exact hunit
      · exact hunit.trans hdrive
    · exact hunit
  have hout {t : State} : PortWork t { t with sent := t.sent ++ [(p, b)] } rs := ⟨.of_regs rfl, rfl⟩
  cases b with
  | frame f => exact (foldl (l := frameUnits f) (g := fun s u => s.stripe p u) fun _ _ _ => hstripe).trans hout
  | ack n c => exact hstripe.trans hout
  | nak n c => exact hstripe.trans hout
  | prbs i k => exact hdrive.trans hout
  | echo c => exact hout
  | _ => exact hevery.trans hout

theorem sendAck {c : Option (Fin 3)} (hp : p < 16) : PortWork s (s.sendAck p c) [.PORT_STAT] := by
  have hgoes {u : State} : PortWork u
      (if u.portState p = 3 then (u.onPort p fun h => { h with exitLatched := true }).put F.PORT_STAT.IDLE_PENDING 1 (portIx p)
      else (u.onPort p fun h => { h with owed := Vector.replicate 3 0, exitLatched := false }).emit p
        (.ack (u.portH p).rxSeq (u.portH p).owed.toList)) [.PORT_STAT] := by
    split
    · exact trans onPort (put (by decide) (portIx_valid hp (by decide)))
    · exact trans onPort emit
  exact trans onPort hgoes

theorem accept {c : Fin 3} (hp : p < 16) : PortWork s (s.accept p c) [.PORT_STAT] := trans onPort (sendAck hp)

section
variable (h : PortWork s t rs)
include h

theorem fld {f : Fld} {ix : List Nat} (hr : f.reg ∉ rs) (hv : f.reg.valid ix = true) : t.fld f ix = s.fld f ix :=
  congrArg (bitsOf · _ _) (h.keeps _ _ hv hr)

theorem flag {f : Fld} {ix : List Nat} (hr : f.reg ∉ rs) (hv : f.reg.valid ix = true) : t.flag f ix = s.flag f ix := by
  rw [State.flag, State.flag, h.fld hr hv]

theorem ref : t.ref = s.ref := by rw [h.rest]
theorem fab : t.fab = s.fab := by rw [h.rest]
theorem chain : t.chain = s.chain := by rw [h.rest]
theorem bridge : t.bridge n = s.bridge n := by rw [h.rest]; rfl

theorem selfId (hr : RegName.CHAIN_CFG ∉ rs) : t.selfId = s.selfId := by
  rw [State.selfId, State.selfId, h.ref, h.fld (f := F.CHAIN_CFG.ID) hr (by decide)]

theorem chainMode (hr : RegName.CHAIN_CFG ∉ rs) : t.chainMode = s.chainMode := by
  rw [State.chainMode, State.chainMode, h.fld (f := F.CHAIN_CFG.MODE) hr (by decide)]

end

end PortWork

/-! ### The checks of a frame (R265, R266, R293) -/

section
variable {f : Frm} {c : Fin 3} {ok : Bool} {act : State → State}

theorem receive_down (h : ¬s.portUp p = true) : s.receive p f c ok act = s := if_pos (by simpa using h)

section
variable (hu : s.portUp p = true)
include hu

theorem receive_corrupt (hc : f.crcOk = false) : s.receive p f c ok act = (s.count F.LINK_STAT.CRC_ERR [p]).nakOnce p :=
  (if_neg (by rw [hu]; decide)).trans (if_pos (by rw [hc]; rfl))

variable (hc : f.crcOk = true)
include hc

theorem receive_checked : s.receive p f c ok act =
    if (!f.tagOk || (s.portH p).rxKey.isNone) = true then s.tagFailure p
    else if f.seq ≠ (s.portH p).rxSeq then (if behind (s.portH p).rxSeq f.seq < 2 ^ 23 then s.sendAck p none else s.nakOnce p)
    else if ok then act (s.accept p c) else s.accept p c :=
  (if_neg (by rw [hu]; decide)).trans (if_neg (by rw [hc]; decide))

theorem receive_forged (hs : ¬(f.tagOk = true ∧ (s.portH p).rxKey ≠ none)) : s.receive p f c ok act = s.tagFailure p := by
  rw [receive_checked hu hc, if_pos]
  rw [Bool.or_eq_true, Bool.not_eq_true', Option.isNone_iff_eq_none]
  by_cases ht : f.tagOk = true
  · exact .inr (by_contra fun hk => hs ⟨ht, hk⟩)
  · exact .inl (Bool.eq_false_iff.mpr ht)

variable (ht : f.tagOk = true) (hk : (s.portH p).rxKey ≠ none)
include ht hk

theorem receive_sealed : s.receive p f c ok act =
    if f.seq ≠ (s.portH p).rxSeq then (if behind (s.portH p).rxSeq f.seq < 2 ^ 23 then s.sendAck p none else s.nakOnce p)
    else if ok then act (s.accept p c) else s.accept p c := by
  rw [receive_checked hu hc, if_neg]
  rw [ht, Bool.not_true, Bool.false_or, Option.isNone_iff_eq_none]
  exact hk

theorem receive_accepted (hq : f.seq = (s.portH p).rxSeq) : s.receive p f c ok act = if ok then act (s.accept p c) else s.accept p c := by
  rw [receive_sealed hu hc ht hk, if_neg (not_not.mpr hq)]

end

/-- What becomes of a frame that is not accepted. -/
theorem frame_unaccepted {c' : Instr} (hexec : exec c' s = .next (s.receive p f c ok act).settleV) :
    (¬s.portUp p = true → exec c' s = .next s.settleV) ∧
      (s.portUp p = true → f.crcOk = false → exec c' s = .next ((s.count F.LINK_STAT.CRC_ERR [p]).nakOnce p).settleV) ∧
      (s.portUp p = true → f.crcOk = true → ¬(f.tagOk = true ∧ (s.portH p).rxKey ≠ none) → exec c' s = .next (s.tagFailure p).settleV) ∧
      (s.portUp p = true → f.crcOk = true → f.tagOk = true ∧ (s.portH p).rxKey ≠ none → f.seq ≠ (s.portH p).rxSeq →
        (((s.portH p).rxSeq - f.seq).toNat < 2 ^ 23 → exec c' s = .next (s.sendAck p none).settleV) ∧
        (2 ^ 23 ≤ ((s.portH p).rxSeq - f.seq).toNat → exec c' s = .next (s.nakOnce p).settleV)) := by
  have hgoes {u : State} (h : s.receive p f c ok act = u) : exec c' s = .next u.settleV := by rw [hexec, h]
  refine ⟨fun hu => hgoes (receive_down hu), fun hu hc => hgoes (receive_corrupt hu hc), fun hu hc hs => hgoes (receive_forged hu hc hs),
    fun hu hc ⟨ht, hk⟩ hq => ⟨fun hb => hgoes ?_, fun hb => hgoes ?_⟩⟩
  · exact (receive_sealed hu hc ht hk).trans ((if_pos hq).trans (if_pos hb))
  · exact (receive_sealed hu hc ht hk).trans ((if_pos hq).trans (if_neg (Nat.not_lt.mpr hb)))

end

/-! ### Lap traffic -/

section
variable {p : Port} {f : Frm} {body : FrameBody} {c : Instr} (h5 : s.portState p ≠ 5) (hg : s.groupRuns p = true)
include h5 hg

theorem lapFrame_eq : s.lapFrame p c f body = (s.receiveLap p f body).settleV := by rw [State.lapFrame, heard_runs h5 hg]

end

/-- The accepted frames that go no further: the port does not carry them. -/
def State.carries (s : State) (p : Nat) (body : FrameBody) : Prop := s.carriesLap p = true ∧ s.roleCarries p body = true

theorem carriesLap_iff : s.carriesLap p = true ↔ s.chainMode ≠ 0 ∧ s.lapReady p = true ∧ s.enrolled p = true := by
  simp [State.carriesLap, and_assoc]

section
variable {f : Frm} {body : FrameBody} (hu : s.portUp p = true) (hc : f.crcOk = true) (ht : f.tagOk = true)
  (hk : (s.portH p).rxKey ≠ none) (hq : f.seq = (s.portH p).rxSeq)
include hu hc ht hk hq

theorem receiveLap_barred (h : ¬(s.carriesLap p = true ∧ s.roleCarries p body = true)) :
    s.receiveLap p f body = s.accept p body.class := by
  rw [State.receiveLap, receive_accepted hu hc ht hk hq, if_neg (by simpa using h)]

theorem receiveLap_routed (h : s.carriesLap p = true ∧ s.roleCarries p body = true) :
    s.receiveLap p f body = (s.accept p body.class).routeFrame (some p) f.src f.dst body := by
  rw [State.receiveLap, receive_accepted hu hc ht hk hq, if_pos (by simpa using h)]

theorem receiveLap_forwarded (hp : p < 16) (h : s.carriesLap p = true ∧ s.roleCarries p body = true) (hd : f.dst.toNat ≠ s.selfId) :
    s.receiveLap p f body = (s.accept p body.class).forwardFrom f.src.toNat f.dst.toNat body := by
  have hwork := PortWork.accept (s := s) (c := body.class) hp
  obtain ⟨hmode, -, -⟩ := carriesLap_iff.mp h.1
  rw [receiveLap_routed hu hc ht hk hq h, State.routeFrame, hwork.chainMode (by decide), if_neg hmode, hwork.selfId (by decide), if_neg hd]

end

theorem roleCarries_baton {k : Byte} {b : Baton} : s.roleCarries p (.baton k b) = true ↔ s.portRole p = 1 ∨ s.portRole p = 2 := by
  simp [State.roleCarries, State.inTree]

/-! ### The obligation -/

/-- Settles O51: the checks of a frame are made in their order, and one that passes them all is acknowledged, and then acted on or
forwarded where its port carries it. -/
theorem frameReception : Obligations.FrameReception := by
  unfold Obligations.FrameReception
  intro s p f g b bridge pos item credits highest hello data last h5 hg
  have hp := p.isLt
  have hlap {c : Instr} {body : FrameBody} (h : exec c s = .next (s.lapFrame p c f body)) :
      exec c s = .next (s.receiveLap p f body).settleV := by rw [h, lapFrame_eq h5 hg]
  have hheard {c : Instr} {cl : Fin 3} {ok : Bool} {act : State → State}
      (h : exec c s = .next (s.heard p c fun s => s.receive p f cl ok act).settleV) :
      exec c s = .next (s.receive p f cl ok act).settleV := by rw [h, heard_runs h5 hg]
  have hhello : exec (.hello p f hello) s =
      .next (s.receive p f 2 (s.enrolled p) fun s => (s.applyHello p hello).serveBoot p hello).settleV := hheard rfl
  have hboot : exec (.boot p f data last) s = .next (s.receive p f 2 (s.enrolled p) fun s => s.bootFrame p data last).settleV := hheard rfl
  have halive : exec (.alive p f) s = .next (s.receive p f 1 false fun s => s) := congrArg Host.Outcome.next (heard_runs h5 hg)
  refine ⟨fun c hc => ?_, fun c hc hu ⟨hcrc, ⟨ht, hk⟩, hq⟩ => ?_, carriesLap_iff, fun k => roleCarries_baton,
    fun hu ⟨hcrc, ⟨ht, hk⟩, hq⟩ he => ⟨?_, ?_⟩, fun hu => ?_, fun hu ⟨hcrc, ⟨ht, hk⟩, hq⟩ => ?_⟩
  · simp only [List.map_cons, List.map_nil, List.cons_append, List.nil_append, List.mem_cons, List.not_mem_nil, or_false] at hc
    obtain rfl | rfl | rfl | rfl | rfl | rfl | rfl | rfl | rfl | rfl | rfl := hc
    case inr.inr.inr.inr.inr.inr.inr.inr.inr.inl => exact frame_unaccepted hhello
    case inr.inr.inr.inr.inr.inr.inr.inr.inr.inr => exact frame_unaccepted hboot
    all_goals exact frame_unaccepted (hlap rfl)
  · have hform : exec c.1 s = .next (s.receiveLap p f c.2.2).settleV ∧ c.2.1 = c.2.2.class := by
      simp only [List.mem_cons, List.not_mem_nil, or_false] at hc
      obtain rfl | rfl | rfl | rfl | rfl | rfl | rfl | rfl | rfl := hc <;> exact ⟨hlap rfl, rfl⟩
    obtain ⟨hexec, hclass⟩ := hform
    refine ⟨fun hn => ?_, fun hcarries hd => ?_⟩
    · rw [hexec, receiveLap_barred hu hcrc ht hk hq hn, ← hclass]
      rfl
    · rw [hexec, receiveLap_forwarded hu hcrc ht hk hq hp hcarries hd, ← hclass]
      rfl
  · rw [hhello, receive_accepted hu hcrc ht hk hq, he]
    rfl
  · rw [hboot, receive_accepted hu hcrc ht hk hq, he]
    rfl
  · exact halive.trans (congrArg Host.Outcome.next (receive_down hu))
  · exact halive.trans (congrArg Host.Outcome.next (receive_accepted hu hcrc ht hk hq))

end Sys2Proof.Machine
end

section
/-! What accepted frames do: tokens, batons, bridged items, HELLO and BOOT; ALIVE and the loss of the partner (R263, R267, R271 to R279): O52. -/

namespace Sys2Proof.Machine

variable {s t u : State} {p n q : Nat} {f : Frm} {b : Baton} {src : BitVec 12} {c : Fin 3}

/-! ### What an accepted frame leaves as it is -/

theorem chainPort_valid (hp : p < 16) : RegName.CHAIN_PORT.valid [p] = true := by
  simp [RegName.valid, RegName.place, ixValid]
  omega

section
variable (h : PortWork s t [.PORT_STAT])
include h

theorem PortWork.lapNext : t.lapNext = s.lapNext := by
  rw [State.lapNext, State.lapNext, State.lapCount, State.lapCount, h.keeps .LAP_COUNT [] (by decide) (by decide)]

theorem PortWork.lapsRun : t.lapsRun = s.lapsRun := by rw [State.lapsRun, State.lapsRun, h.fab]

theorem PortWork.portRole (hp : p < 16) : t.portRole p = s.portRole p :=
  h.fld (f := F.CHAIN_PORT.ROLE) (by decide) (chainPort_valid hp)

theorem PortWork.bridgeReg {f : Fld} (hf : f.reg = .BRIDGE_CFG) (hn : n < 64) : t.fld f [n] = s.fld f [n] :=
  h.fld (by rw [hf]; decide) (by rw [hf]; simp [RegName.valid, RegName.place, ixValid]; omega)

theorem PortWork.bridgeEn (hn : n < 64) : t.bridgeEn n = s.bridgeEn n := by
  rw [State.bridgeEn, State.bridgeEn, State.flag, State.flag, h.bridgeReg rfl hn]

theorem PortWork.bridgeIn (hn : n < 64) : t.bridgeIn n = s.bridgeIn n := by
  rw [State.bridgeIn, State.bridgeIn, State.flag, State.flag, h.bridgeReg rfl hn]

theorem PortWork.bridgeQ (hn : n < 64) : t.bridgeQ n = s.bridgeQ n := h.bridgeReg rfl hn

theorem PortWork.credits (hq : q < 8192) : t.credits q = s.credits q :=
  h.fld (f := F.Q_STAT.CREDITS) (by decide) (queue_valid hq).1

theorem PortWork.ofThisLap_iff : t.ofThisLap b = true ↔ b.lap = s.lapNext ∧ b.attempt = s.chain.attempt := by
  rw [State.ofThisLap, h.lapNext, h.chain]
  simp

end

/-! ### Delivery -/

section
variable {body : FrameBody} (hu : s.portUp p = true) (hc : f.crcOk = true) (ht : f.tagOk = true)
  (hk : (s.portH p).rxKey ≠ none) (hq : f.seq = (s.portH p).rxSeq)
include hu hc ht hk hq

theorem receiveLap_here (hp : p < 16) (h : s.carriesLap p = true) (hr : s.roleCarries p body = true) (hd : f.dst.toNat = s.selfId) :
    s.receiveLap p f body = (s.accept p body.class).deliverFrame (some p) f.src body := by
  have hwork := PortWork.accept (s := s) (c := body.class) hp
  obtain ⟨hmode, -, -⟩ := carriesLap_iff.mp h
  rw [receiveLap_routed hu hc ht hk hq ⟨h, hr⟩, State.routeFrame, hwork.chainMode (by decide), if_neg hmode, hwork.selfId (by decide),
    if_pos hd]

end

/-! ### Batons -/

section
variable {k : Byte}

theorem baton_ready (hr : s.portRole p = 2) : s.batonReceived p src 1 b = s.readyReceived p b := by
  rw [State.batonReceived, hr]
  rfl

theorem baton_go (hr : s.portRole p = 1) : s.batonReceived p src 2 b = s.goReceived b := by
  rw [State.batonReceived, hr]
  rfl

theorem baton_done (hr : s.portRole p = 2) : s.batonReceived p src 3 b = s.doneReceived p b := by
  rw [State.batonReceived, hr]
  rfl

theorem baton_commit (hr : s.portRole p = 1) : s.batonReceived p src 4 b = s.commitReceived b := by
  rw [State.batonReceived, hr]
  rfl

theorem baton_scratch (hr : s.portRole p = 1) : s.batonReceived p src 5 b = s.scratchReceived b := by
  rw [State.batonReceived, hr]
  rfl

theorem baton_query : s.batonReceived p src 6 b = s.queryReceived src b := by
  unfold State.batonReceived
  rfl

theorem baton_fromChild (hr : s.portRole p = 2) (hk : k ∈ [2, 4, 5]) : s.batonReceived p src k b = s := by
  simp only [List.mem_cons, List.not_mem_nil, or_false] at hk
  obtain rfl | rfl | rfl := hk
  all_goals
    rw [State.batonReceived, hr]
    rfl

theorem baton_fromParent (hr : s.portRole p = 1) (hk : k ∈ [1, 3]) : s.batonReceived p src k b = s := by
  simp only [List.mem_cons, List.not_mem_nil, or_false] at hk
  obtain rfl | rfl := hk
  all_goals
    rw [State.batonReceived, hr]
    rfl

end

/-! GO, DONE and the decisions. -/

theorem goReceived_armed (h : s.fab.phase = .goWait) : s.goReceived b =
    ({ s.batonDown 2 b with chain := { (s.batonDown 2 b).chain with attempt := b.attempt } } : State).lapsStart := by
  rw [State.goReceived, h]

theorem goReceived_retry (h : s.fab.phase = .retryWait) : s.goReceived b =
    ({ s.batonDown 2 b with chain := { (s.batonDown 2 b).chain with attempt := b.attempt } } : State).retryBegin := by
  rw [State.goReceived, h]

theorem goReceived_else (h1 : s.fab.phase ≠ .goWait) (h2 : s.fab.phase ≠ .retryWait) : s.goReceived b = s := by
  unfold State.goReceived
  split
  · exact absurd ‹_› h1
  · exact absurd ‹_› h2
  · rfl

theorem queryReceived_decided {kind : Byte} {d : Baton} (h : s.chain.lastDecision = some (kind, d)) (hm : s.chainMode = 1)
    (hl : d.lap = b.lap) (ha : d.attempt = b.attempt) : s.queryReceived src b = s.forward src.toNat (.baton kind d) := by
  rw [State.queryReceived, h]
  exact if_pos ⟨hm, hl, ha⟩

theorem queryReceived_unknown (h : s.chain.lastDecision = none ∨ s.chainMode ≠ 1) : s.queryReceived src b = s := by
  unfold State.queryReceived
  split
  · rename_i kind d hd
    refine if_neg fun ⟨hm, _⟩ => ?_
    obtain h | h := h
    · rw [h] at hd
      exact absurd hd (by simp)
    · exact h hm
  · rfl

theorem awaitsDecision_iff : s.awaitsDecision b = true ↔ s.fab.phase = .goWait ∨
    (s.ofThisLap b = true ∧ (s.fab.phase = .steps ∨ s.fab.phase = .gatherDue ∨ s.fab.phase = .undecided)) := by
  unfold State.awaitsDecision
  cases s.fab.phase <;> simp

theorem barrierLive_iff : s.barrierLive = true ↔ s.fab.phase ≠ .halted ∧ s.fab.phase ≠ .goWait := by
  unfold State.barrierLive
  cases s.fab.phase <;> simp

/-! ### The loss of the partner -/

/-- The loss of the partner is noted at its port. -/
def State.aliveLost (s : State) (p : Nat) : State := s.put F.LINK_STAT.ALIVE_LOST 1 [p]

/-- The device itself is the origin of what follows. -/
def State.ownOrigin (s : State) : State := s.put F.CHAIN_STAT.ORIGIN s.selfId

theorem losePartner_idle (h : s.chainMode = 0 ∨ s.portRole p = 0 ∨ ¬(s.fab.phase ≠ .halted ∧ s.fab.phase ≠ .goWait)) :
    s.losePartner p = s := by
  rw [← barrierLive_iff] at h
  exact if_pos (by simpa using h)

section
variable (hm : s.chainMode ≠ 0) (hl : s.fab.phase ≠ .halted ∧ s.fab.phase ≠ .goWait) (hp : p < 16)
include hm hl hp

omit hm hl in
theorem aliveLost_portRole : (s.put F.LINK_STAT.ALIVE_LOST 1 [p]).portRole p = s.portRole p :=
  State.fld_put_ne (f := F.LINK_STAT.ALIVE_LOST) (f' := F.CHAIN_PORT.ROLE) (by decide) (linkStat_valid hp) (chainPort_valid hp)

omit hp in
theorem losePartner_undecided (hr : s.portRole p ≠ 0) (h : s.fab.phase = .undecided) : s.losePartner p = s.aliveLost p := by
  rw [State.losePartner, if_neg (by simp [hm, hr, barrierLive_iff.mpr hl])]
  dsimp only
  rw [State.put_fab, h]
  rfl

theorem losePartner_retry (hr : s.portRole p = 1) (h : s.fab.phase = .retryWait) :
    s.losePartner p = (s.aliveLost p).ownOrigin.haltLaps 6 true := by
  rw [State.losePartner, if_neg (by simp [hm, hr, barrierLive_iff.mpr hl])]
  dsimp only
  rw [State.put_fab, aliveLost_portRole hp, h, hr]
  rfl

theorem losePartner_parent (hr : s.portRole p = 1) (h : s.fab.phase = .steps) : s.losePartner p =
    if s.chain.doneSent then (s.aliveLost p).holdUndecided
    else if s.fab.committing then s.aliveLost p
    else (s.aliveLost p).ownOrigin.scratchNow 6 none false := by
  rw [State.losePartner, if_neg (by simp [hm, hr, barrierLive_iff.mpr hl])]
  dsimp only
  rw [State.put_fab, aliveLost_portRole hp, h, hr]
  rfl

theorem losePartner_child (hr : s.portRole p ≠ 0) (hr1 : s.portRole p ≠ 1) (h : s.fab.phase = .steps ∨ s.fab.phase = .gatherDue) :
    s.losePartner p = (s.aliveLost p).scratch 6 := by
  rw [State.losePartner, if_neg (by simp [hm, hr, barrierLive_iff.mpr hl])]
  dsimp only
  rw [State.put_fab, aliveLost_portRole hp]
  generalize s.portRole p = r at hr1
  obtain h | h := h
  all_goals
    rw [h]
    split
    · contradiction
    · contradiction
    · contradiction
    · rfl

end

/-! ### What a report or a decision makes of the state behind an accepted frame -/

section
variable (h : PortWork s t [.PORT_STAT])
include h

theorem readyReceived_accepted : t.readyReceived p b = ({ t with chain := { s.chain with
    readyFrom := s.chain.readyFrom.filter (fun r => r.1 != p) ++ [(p, b)] } } : State).barrierStart := by
  rw [State.readyReceived, h.chain]

theorem doneReceived_accepted (hr : s.lapsRun = true) (hl : b.lap = s.lapNext ∧ b.attempt = s.chain.attempt) :
    t.doneReceived p b = ({ t with chain := { s.chain with
      doneFrom := s.chain.doneFrom.filter (fun r => r.1 != p) ++ [(p, b)] } } : State).earlyReports := by
  rw [State.doneReceived, h.lapsRun, hr, h.ofThisLap_iff.mpr hl, h.chain]
  rfl

theorem doneReceived_stale (hn : s.lapsRun = false ∨ ¬(b.lap = s.lapNext ∧ b.attempt = s.chain.attempt)) : t.doneReceived p b = t := by
  rw [← h.lapsRun, ← h.ofThisLap_iff, Bool.not_eq_true] at hn
  exact if_pos (by simpa using hn)

/-- The lap that a COMMIT concerns: it waits for the decision. -/
theorem commitReceived_accepted (hl : b.lap = s.lapNext ∧ b.attempt = s.chain.attempt)
    (hw : s.fab.phase = .undecided ∨ (s.fab.phase = .steps ∧ s.chain.doneSent = true)) : t.commitReceived b =
      (((if b.halt then (t.batonDown 4 b).put F.CHAIN_STAT.ORIGIN b.origin.toNat else t.batonDown 4 b).put
        F.CHAIN_STAT.UNDECIDED 0).put F.CHAIN_STAT.STATE 2).commitLap (some (if b.halt then b.hcause else 0)) := by
  refine if_neg ?_
  rw [h.ofThisLap_iff.mpr hl, h.fab, h.chain]
  obtain hw | ⟨hw, hd⟩ := hw
  · simp [hw]
  · simp [hw, hd]

theorem commitReceived_stale (hn : ¬(b.lap = s.lapNext ∧ b.attempt = s.chain.attempt) ∨
    (s.fab.phase ≠ .undecided ∧ (s.fab.phase ≠ .steps ∨ s.chain.doneSent = false))) : t.commitReceived b = t := by
  refine if_pos ?_
  rw [← h.ofThisLap_iff, Bool.not_eq_true] at hn
  rw [h.fab, h.chain]
  simp only [Bool.or_eq_true, Bool.not_eq_true', Bool.or_eq_false_iff, Bool.and_eq_false_iff, beq_eq_false_iff_ne]
  exact hn

omit h in
theorem scratchReceived_awaited (hw : t.awaitsDecision b = true)
    (hu : ((t.batonDown 5 b).put F.CHAIN_STAT.UNDECIDED 0).put F.CHAIN_STAT.ORIGIN b.origin.toNat = u) :
    (b.withdrawn = true → t.scratchReceived b = u.withdrawLap b.hcause) ∧
      (b.withdrawn = false → b.retry = true → t.scratchReceived b = (u.scratchNow b.scause none true).put F.CHAIN_STAT.STATE 3) ∧
      (b.withdrawn = false → b.retry = false → t.scratchReceived b = (u.noteScratch b.scause none).discardLap.haltLaps b.hcause true) := by
  have htakes : t.scratchReceived b = if b.withdrawn then u.withdrawLap b.hcause
      else if b.retry then (u.scratchNow b.scause none true).put F.CHAIN_STAT.STATE 3
      else (u.noteScratch b.scause none).discardLap.haltLaps b.hcause true := by
    rw [← hu]
    exact if_neg (by rw [hw]; decide)
  refine ⟨fun hd => htakes.trans (if_pos hd), fun hd hr => ?_, fun hd hr => ?_⟩
  · exact htakes.trans ((if_neg (Bool.eq_false_iff.mp hd)).trans (if_pos hr))
  · exact htakes.trans ((if_neg (Bool.eq_false_iff.mp hd)).trans (if_neg (Bool.eq_false_iff.mp hr)))

theorem awaitsDecision_accepted : t.awaitsDecision b = true ↔ s.fab.phase = .goWait ∨
    ((b.lap = s.lapNext ∧ b.attempt = s.chain.attempt) ∧
      (s.fab.phase = .steps ∨ s.fab.phase = .gatherDue ∨ s.fab.phase = .undecided)) := by
  rw [awaitsDecision_iff, h.ofThisLap_iff, h.fab]

/-! ### Bridged items -/

variable (hn : n < 64)
include hn

omit h hn in
theorem bridgeQ_lt : s.bridgeQ n < 8192 := bitsOf_lt _ _ _

theorem bridgedItem_pushed {pos : BitVec 32} {x : Item} (he : s.bridgeEn n = true) (hi : s.bridgeIn n = true)
    (hpos : (s.bridge n).started = true → (s.bridge n).nextPos = pos) (hg : (s.bridge n).granted ≠ 0) (hc : s.credits (s.bridgeQ n) ≠ 0) :
    t.bridgedItem n pos x = ((t.pushCell (s.bridgeQ n) x).onBridge n fun br =>
      { br with started := true, nextPos := pos + 1, granted := br.granted - 1 }).pumpIn n true := by
  rw [← h.bridgeQ hn]
  refine if_neg ?_
  rw [h.bridgeEn hn, h.bridgeIn hn, h.bridge, h.bridgeQ hn, h.credits (bridgeQ_lt), he, hi]
  simpa [hg, hc] using hpos

theorem bridgedItem_dropped {pos : BitVec 32} {x : Item} (hd : s.bridgeEn n = false ∨ s.bridgeIn n = false ∨
    ((s.bridge n).started = true ∧ (s.bridge n).nextPos ≠ pos) ∨ (s.bridge n).granted = 0 ∨ s.credits (s.bridgeQ n) = 0) :
    t.bridgedItem n pos x = t := by
  refine if_pos ?_
  rw [h.bridgeEn hn, h.bridgeIn hn, h.bridge, h.bridgeQ hn, h.credits (bridgeQ_lt)]
  simpa [or_assoc] using hd

theorem bridgedCredit_taken {x : BitVec 16} {highest : BitVec 32} {acked : Nat} (he : s.bridgeEn n = true) (hi : s.bridgeIn n = false)
    (ha : ((s.bridge n).unacked.filter fun x => decide ((highest - x.1).toNat < 2 ^ 31)).length = acked)
    (hu : (t.onBridge n fun br => { br with granted := br.granted + x.toNat, unacked := br.unacked.drop acked }).popMany
      (s.bridgeQ n) acked = u) : t.bridgedCredit n x highest = u.pumpOut n (u.bridge n).granted := by
  rw [← h.bridge] at ha
  rw [← h.bridgeQ hn] at hu
  rw [State.bridgedCredit, if_neg (by rw [h.bridgeEn hn, h.bridgeIn hn, he, hi]; decide), ← hu, ← ha]
  rfl

theorem bridgedCredit_dropped {x : BitVec 16} {highest : BitVec 32} (hd : s.bridgeEn n = false ∨ s.bridgeIn n = true) :
    t.bridgedCredit n x highest = t :=
  if_pos (by rw [h.bridgeEn hn, h.bridgeIn hn]; simpa using hd)

end

/-! ### BOOT frames -/

theorem bootFrame_open {data : List Byte} {last : Bool} (h : PortWork s t [.PORT_STAT]) (hs : s.ref.straps.boot = 1) (ho : s.bootOpen = true) :
    t.bootFrame p data last = if last then
        ({ t with ref := { s.ref with bootRelay := s.ref.bootRelay.filter fun x => x.1 != p } } : State).bootVerify (s.bootBytes p ++ data)
      else { t with ref := { s.ref with bootRelay := (s.ref.bootRelay.filter fun x => x.1 != p) ++ [(p, s.bootBytes p ++ data)] } } := by
  have hopen : t.bootOpen = true := by rw [← ho, State.bootOpen, State.bootOpen, h.ref]
  have hbytes : t.bootBytes p = s.bootBytes p := by rw [State.bootBytes, State.bootBytes, h.ref]
  rw [State.bootFrame, h.ref, hbytes]
  exact if_neg (by simp [hs, hopen])

/-! ### The obligation -/

theorem deliverOwn_first {x : BitVec 12 × FrameBody} {rest : List (BitVec 12 × FrameBody)} (h : s.ownFrames = x :: rest) :
    s.deliverOwn = (({ s with ownFrames := rest } : State).routeFrame none x.1 x.1 x.2).settleV := by
  rw [State.deliverOwn, h]

theorem forward_unrouted {d : Nat} {body : FrameBody} (h : d ≠ s.selfId) (hr : s.routeTo d = none) :
    s.forward d body = s.count F.CHAIN_STAT.FWD_DROP := by
  rw [State.forward, if_neg h, State.forwardFrom, hr]

/-- Settles O52: what is accepted and addressed here takes its effect behind the acknowledgement, which leaves the barrier, the bridges
and the Referee as they are. -/
theorem chainFrameCommands : Obligations.ChainFrameCommands := by
  unfold Obligations.ChainFrameCommands
  intro s p f g b n pos item credits highest hello data last hu hg hc ht hk hq
  have hp := p.isLt
  have hn := n.isLt
  have h5 : s.portState p ≠ 5 := fun h => by simp [State.portUp, h] at hu
  have ha (c : Fin 3) : PortWork s (s.accept p c) [.PORT_STAT] := .accept hp
  have hlap {c : Instr} {body : FrameBody} {u : State} (hexec : exec c s = .next (s.lapFrame p c f body)) (hr : s.roleCarries p body = true)
      (h : s.carriesLap p = true ∧ f.dst.toNat = s.selfId) (hu' : (s.accept p body.class).deliverFrame (some p.val) f.src body = u) :
      exec c s = .next u.settleV := by
    rw [hexec, lapFrame_eq h5 hg, receiveLap_here hu hc ht hk hq hp h.1 hr h.2, hu']
  have hbaton {c : Instr} {k : Byte} {u : State} (hexec : exec c s = .next (s.lapFrame p c f (.baton k b)))
      (hr : s.portRole p = 1 ∨ s.portRole p = 2) (h : s.carriesLap p = true ∧ f.dst.toNat = s.selfId)
      (hu' : (s.accept p 1).batonReceived p f.src k b = u) : exec c s = .next u.settleV :=
    hlap hexec (roleCarries_baton.mpr hr) h hu'
  have hrole (k : Nat) (h : s.portRole p = k) : (s.accept p 1).portRole p = k := ((ha 1).portRole hp).trans h
  have hheard {c : Instr} {cl : Fin 3} {act : State → State} {u : State} (he : s.enrolled p = true)
      (hexec : exec c s = .next (s.heard p c fun s => s.receive p f cl (s.enrolled p) act).settleV) (hu' : act (s.accept p cl) = u) :
      exec c s = .next u.settleV := by
    rw [hexec, heard_runs h5 hg, receive_accepted hu hc ht hk hq, he, if_pos rfl, hu']
  have hlose {u : State} (h : s.losePartner p = u) : exec (.batonLimitExpiry p) s = .next u.settleV :=
    congrArg (fun u => Host.Outcome.next (State.settleV u)) h
  refine ⟨fun h => hlap rfl rfl h rfl, fun ⟨h, hr⟩ => ?_, fun ⟨h, hr⟩ hf => ?_, fun ⟨h, hr⟩ hf => ?_, fun ⟨h, hr⟩ h1 h2 => ?_,
    fun ⟨h, hr⟩ hl ho => ?_, fun ⟨h, hr⟩ hs => ?_, fun ⟨h, hr⟩ ho hw => ?_, fun ⟨h, hr⟩ hs => ?_, fun ⟨h, hr⟩ hw => ?_, fun ⟨h, hr⟩ hw => ?_,
    fun ⟨h, hr⟩ => ⟨?_, ?_, ?_⟩, fun ⟨h, hr⟩ => ⟨?_, ?_⟩, fun ⟨h, hr⟩ => ⟨fun kind d hd hm hl hat => ?_, fun hd => ?_⟩,
    fun h he hi hpos hgr hcr => ?_, fun h hd => ?_, fun h he hi => ?_, fun h hd => ?_, fun x rest h => deliverOwn_first h,
    fun d body => ⟨fun h => if_pos h, forward_unrouted⟩, fun he => hheard he rfl rfl, fun ⟨he, hs, ho⟩ hl => ?_, fun ⟨he, hs, ho⟩ hl => ?_,
    fun hl hr hcl => ?_, fun hn => ?_, fun hi => hlose (losePartner_idle hi), fun hm hl => ⟨fun hr hf => ⟨fun hd => ?_, fun hd hcm => ?_⟩,
      fun hr hf => hlose (losePartner_retry hm hl hp hr hf), fun hr hf => hlose (losePartner_undecided hm hl hr hf),
      fun hr hr1 hf => hlose (losePartner_child hm hl hp hr hr1 hf)⟩⟩
  · exact hbaton rfl (.inr hr) h ((baton_ready (hrole 2 hr)).trans (readyReceived_accepted (ha 1)))
  · exact hbaton rfl (.inl hr) h ((baton_go (hrole 1 hr)).trans (goReceived_armed (by rwa [(ha 1).fab])))
  · exact hbaton rfl (.inl hr) h ((baton_go (hrole 1 hr)).trans (goReceived_retry (by rwa [(ha 1).fab])))
  · exact hbaton rfl (.inl hr) h ((baton_go (hrole 1 hr)).trans (goReceived_else (by rwa [(ha 1).fab]) (by rwa [(ha 1).fab])))
  · exact hbaton rfl (.inr hr) h ((baton_done (hrole 2 hr)).trans (doneReceived_accepted (ha 1) hl ho))
  · exact hbaton rfl (.inr hr) h ((baton_done (hrole 2 hr)).trans (doneReceived_stale (ha 1) hs))
  · exact hbaton rfl (.inl hr) h ((baton_commit (hrole 1 hr)).trans (commitReceived_accepted (ha 1) ho hw))
  · exact hbaton rfl (.inl hr) h ((baton_commit (hrole 1 hr)).trans (commitReceived_stale (ha 1) hs))
  · obtain ⟨h1, h2, h3⟩ := scratchReceived_awaited ((awaitsDecision_accepted (ha 1)).mpr hw) rfl
    exact ⟨fun hd => hbaton rfl (.inl hr) h ((baton_scratch (hrole 1 hr)).trans (h1 hd)),
      fun hd ht => hbaton rfl (.inl hr) h ((baton_scratch (hrole 1 hr)).trans (h2 hd ht)),
      fun hd ht => hbaton rfl (.inl hr) h ((baton_scratch (hrole 1 hr)).trans (h3 hd ht))⟩
  · refine hbaton rfl (.inl hr) h ((baton_scratch (hrole 1 hr)).trans (if_pos ?_))
    rw [Bool.not_eq_true', ← Bool.not_eq_true, awaitsDecision_accepted (ha 1)]
    exact hw
  · exact hbaton rfl (.inr hr) h (baton_fromChild (hrole 2 hr) (by decide))
  · exact hbaton rfl (.inr hr) h (baton_fromChild (hrole 2 hr) (by decide))
  · exact hbaton rfl (.inr hr) h (baton_fromChild (hrole 2 hr) (by decide))
  · exact hbaton rfl (.inl hr) h (baton_fromParent (hrole 1 hr) (by decide))
  · exact hbaton rfl (.inl hr) h (baton_fromParent (hrole 1 hr) (by decide))
  · exact hbaton rfl hr h (baton_query.trans (queryReceived_decided (by rwa [(ha 1).chain]) (by rwa [(ha 1).chainMode (by decide)]) hl hat))
  · exact hbaton rfl hr h (baton_query.trans (queryReceived_unknown (by rwa [(ha 1).chain, (ha 1).chainMode (by decide)])))
  · exact hlap rfl rfl h (bridgedItem_pushed (ha 2) hn he hi hpos hgr hcr)
  · exact hlap rfl rfl h (bridgedItem_dropped (ha 2) hn hd)
  · exact hlap rfl rfl h (bridgedCredit_taken (ha 2) hn he hi rfl rfl)
  · exact hlap rfl rfl h (bridgedCredit_dropped (ha 2) hn hd)
  · exact hheard he rfl ((bootFrame_open (ha 2) hs ho).trans (if_pos hl))
  · exact hheard he rfl ((bootFrame_open (ha 2) hs ho).trans (if_neg (Bool.eq_false_iff.mp hl)))
  · refine (if_pos ?_).trans (congrArg Host.Outcome.next (if_pos hcl))
    rw [barrierLive_iff.mpr hl]
    simpa [State.inTree] using hr
  · by_cases hlive : s.barrierLive && s.inTree p
    · have hcl : s.carriesLap p = false := by
        rw [Bool.and_eq_true, barrierLive_iff] at hlive
        exact hn.resolve_left fun h => h hlive.1
      exact (if_pos hlive).trans (congrArg Host.Outcome.next (if_neg (by rw [hcl]; decide)))
    · exact if_neg hlive
  · exact hlose ((losePartner_parent hm hl hp hr hf).trans (if_pos hd))
  · exact hlose ((losePartner_parent hm hl hp hr hf).trans ((if_neg (Bool.eq_false_iff.mp hd)).trans (if_neg (Bool.eq_false_iff.mp hcm))))

end Sys2Proof.Machine
end

section
/-! SUPPORT. The registers that a scratched lap, an alarm and a lost partner leave as they are (R57, R261, R272, R280). -/

namespace Sys2Proof.Machine

variable {s t u : State} {p d n q kind src dst : Nat} {b : Baton} {cause : Byte} {w : Option Where} {c r : Bool} {o : BitVec 12}
  {body : FrameBody} {under : Option Nat}

/-! ### Frames sent -/

section
variable (hp : p < 16)
include hp

theorem PortWork.sendWith : PortWork s (s.sendWith src p dst body under) [.PORT_STAT] := by
  have hwait {s : State} : PortWork s (if s.portState p = 3 then s.put F.PORT_STAT.IDLE_PENDING 1 (portIx p) else s) [.PORT_STAT] := by
    split
    · exact .put (by decide) (portIx_valid hp (by decide))
    · exact .refl
  have htransmit {f : TxFrame} : PortWork s (s.transmit p f) [.PORT_STAT] := by
    unfold State.transmit
    exact PortWork.trans .onPort .emit
  unfold State.sendWith
  dsimp only
  split
  · exact .refl
  · split
    · exact htransmit
    · exact PortWork.trans .onPort hwait

theorem PortWork.sendBaton : PortWork s (s.sendBaton p kind b) [.PORT_STAT] := by
  unfold State.sendBaton
  split
  · exact .sendWith hp
  · exact .refl

end

theorem portsOf_lt {role : Nat} : ∀ p ∈ s.portsOf role, p < 16 := fun _ hp => List.mem_range.mp (List.mem_of_mem_filter hp)

theorem PortWork.batonDown : PortWork s (s.batonDown kind b) [.PORT_STAT] := .foldl fun _ p hp => .sendBaton (portsOf_lt p hp)

theorem PortWork.batonUp : PortWork s (s.batonUp kind b) [.PORT_STAT] := by
  unfold State.batonUp
  split
  · exact .sendBaton (portsOf_lt _ (List.mem_of_mem_head? ‹_›))
  · exact .refl

/-! ### A lap is scratched -/

/-- Every register that a scratched lap may write: its counts, the queues of its records, and the registers of writes that waited. -/
def scratchRegs : List RegName :=
  [.RETRY_STAT, .LOG_STAT, .TLC_SCRATCH, .PORT_STAT] ++ (haltRegs ++ (appliedRegs ++ traceRegs))

theorem tellRaised_keepsRegs : KeepsRegs s s.tellRaised [.TLC_SCRATCH] :=
  .foldl_mem _ fun _ i hi => .setReg (by decide) (by
    have hi := List.mem_range.mp hi
    simp [RegName.valid, RegName.place, ixValid, hi])

theorem raise_regs : (s.raise cause w).regs = s.regs := by
  unfold State.raise
  split
  · split <;> rfl
  · rfl

theorem writeLog_keepsRegs {rs : List Item} : KeepsRegs s (s.writeLog rs) (.LOG_STAT :: pushRegs) := by
  have hq : s.logQueue < 8192 := bitsOf_lt _ _ _
  unfold State.writeLog
  dsimp only
  split
  · refine KeepsRegs.trans (.foldl_mem _ fun s x _ => ?_) (.of_regs rfl)
    cases h : s.autoPush _ x with
    | none => exact .refl
    | some t => exact (State.autoPush_keepsRegs hq h).mono (by decide)
  · exact .count (by decide) (by decide)

theorem haltLaps_keepsRegs : KeepsRegs s (s.haltLaps cause r c) (haltRegs ++ (appliedRegs ++ traceRegs)) := by
  have hover : KeepsRegs s (s.lapsOver cause) (haltRegs ++ (appliedRegs ++ traceRegs)) := .of_regs rfl
  have hput {s : State} {f : Fld} {ix : List Nat} {n : Nat} (hr : f.reg ∈ haltRegs) (hv : f.reg.valid ix = true) :
      KeepsRegs s (s.put f n ix) haltRegs := .put hr hv
  have hshow {s : State} : KeepsRegs s (s.showHalt r) haltRegs :=
    (((hput (by decide) rfl).trans (hput (by decide) rfl)).trans (hput (by decide) rfl)).trans
      (.foldl_mem _ fun _ _ ht => hput (by decide) (tlcStat_valid (List.mem_range.mp ht)))
  rw [haltLaps_eq]
  exact ((hover.trans (hshow.mono (by decide))).trans (traceHalt_keepsRegs.mono (by decide))).trans (applyAtHalt_keepsRegs.mono (by decide))

theorem discardLap_keepsRegs : KeepsRegs s s.discardLap [.Q_STAT] := by
  have hreturn : KeepsRegs s s.returnCredits [.Q_STAT] := by
    refine .foldl_mem _ fun s fp _ => ?_
    split
    next hq =>
      obtain ⟨i, -, hi⟩ := Option.bind_eq_some_iff.mp hq
      exact .put (by decide) (flowOut_valid hi)
    next => exact .of_regs rfl
  exact hreturn.trans (.of_regs rfl)

theorem noteScratch_keepsRegs : KeepsRegs s (s.noteScratch cause w) scratchRegs := by
  have hcount : KeepsRegs s ((s.count F.RETRY_STAT.SCRATCHED).put F.LAP_STAT.SCRATCH cause.toNat) scratchRegs :=
    (KeepsRegs.count (by decide) rfl).trans (.put (by decide) rfl)
  have hraise {s : State} : KeepsRegs s (s.raise cause w).tellRaised scratchRegs :=
    KeepsRegs.trans (.of_regs raise_regs) (tellRaised_keepsRegs.mono (by decide))
  have htally {s : State} : KeepsRegs s (s.tallyLap 1) scratchRegs := .of_onlyEvents .tallyLap (by decide)
  have htrace {s : State} {g : Nat → W64} : KeepsRegs s (s.traceAll 1 s.lapNext g) scratchRegs :=
    .foldl_mem _ fun _ _ ht => (State.trace_keepsRegs (List.mem_range.mp ht)).mono (by decide)
  have hlog {s : State} : KeepsRegs s (s.logScratch cause) scratchRegs := by
    unfold State.logScratch
    split
    · exact writeLog_keepsRegs.mono (by decide)
    · exact .refl
  rw [noteScratch_eq]
  exact (((hcount.trans hraise).trans htally).trans htrace).trans hlog

theorem scratchNow_keepsRegs : KeepsRegs s (s.scratchNow cause w r) scratchRegs := by
  have hdiscard : KeepsRegs s (s.noteScratch cause w).discardLap scratchRegs :=
    noteScratch_keepsRegs.trans (discardLap_keepsRegs.mono (by decide))
  rw [scratchNow_eq]
  split
  · exact hdiscard.trans (.of_regs rfl)
  · exact hdiscard.trans (haltLaps_keepsRegs.mono (by decide))

theorem withdrawLap_keepsRegs {h : Byte} : KeepsRegs s (s.withdrawLap h) scratchRegs := by
  have hlog {rs : List Item} : KeepsRegs s (if s.logMode = 1 then s.writeLog rs else s) scratchRegs := by
    split
    · exact writeLog_keepsRegs.mono (by decide)
    · exact .refl
  exact (hlog.trans (discardLap_keepsRegs.mono (by decide))).trans (haltLaps_keepsRegs.mono (by decide))

theorem anchorScratch_keepsRegs : KeepsRegs s (s.anchorScratch cause o w) scratchRegs := by
  have hdecide {s : State} {b : Baton} {n : Nat} : KeepsRegs s
      ((({ s.batonDown 5 b with chain := { (s.batonDown 5 b).chain with lastDecision := some (5, b) } } : State)).put F.CHAIN_STAT.ORIGIN n)
      scratchRegs :=
    ((PortWork.batonDown.keeps.mono (by decide)).trans (.of_regs rfl)).trans (.put (by decide) rfl)
  unfold State.anchorScratch
  dsimp only
  split
  · exact hdecide.trans withdrawLap_keepsRegs
  · exact hdecide.trans scratchNow_keepsRegs

theorem memberScratch_keepsRegs : KeepsRegs s (s.memberScratch cause o w) scratchRegs := by
  have hraise {s : State} : KeepsRegs s (s.raise cause w).tellRaised scratchRegs :=
    KeepsRegs.trans (.of_regs raise_regs) (tellRaised_keepsRegs.mono (by decide))
  have hraised : KeepsRegs s (({ s with fab := { s.fab with firstCause := cause } } : State).raise cause w).tellRaised scratchRegs :=
    KeepsRegs.trans (.of_regs rfl) hraise
  have hreport {s : State} {b : Baton} : KeepsRegs s ({ s.batonUp 3 b with chain := { s.chain with doneSent := true } } : State)
      scratchRegs := (PortWork.batonUp.keeps.mono (by decide)).trans (.of_regs rfl)
  unfold State.memberScratch
  dsimp only
  split
  · exact hraised
  · exact hraised.trans hreport

theorem scratch_keepsRegs : KeepsRegs s (s.scratch cause w) scratchRegs := by
  have hlater : KeepsRegs s (({ s with fab := { s.fab with laterCauses := s.fab.laterCauses + 1 } } : State).raise cause w).tellRaised
      scratchRegs :=
    KeepsRegs.trans (t := ({ s with fab := { s.fab with laterCauses := s.fab.laterCauses + 1 } } : State)) (.of_regs rfl)
      (KeepsRegs.trans (.of_regs raise_regs) (tellRaised_keepsRegs.mono (by decide)))
  unfold State.scratch
  split
  · exact .refl
  · split
    · exact hlater
    · split
      · exact .refl
      · split
        · exact anchorScratch_keepsRegs
        · exact memberScratch_keepsRegs
        · exact scratchNow_keepsRegs

/-! ### Alarms -/

/-- The registers that an alarm may write. -/
def alarmRegs : List RegName := .SEC_ALARM :: .REF_STAT :: (scratchRegs ++ eventRegs)

theorem alarm_keepsRegs : KeepsRegs s (s.alarm n) alarmRegs := by
  have hset : KeepsRegs s ((s.setReg .SEC_ALARM [] (s.reg .SEC_ALARM ||| BitVec.ofNat 64 (2 ^ n))).orBits F.REF_STAT.ALERTS 4) alarmRegs :=
    (KeepsRegs.setReg (by decide) rfl).trans (.put (f := F.REF_STAT.ALERTS) (by decide) rfl)
  have hrecord {s : State} {k : Nat} {x y : W64} : KeepsRegs s (s.recordAuto k x y) alarmRegs := .of_regs rfl
  have hevent {s : State} {k a : Nat} {p : Prop} [Decidable p] : KeepsRegs s (if p then s.blockEvent k a else s) alarmRegs := by
    split
    · exact .of_onlyEvents .blockEvent (by decide)
    · exact .refl
  have hhalt {s : State} {p : Prop} [Decidable p] : KeepsRegs s (if p then s.scratch 0x0D else s) alarmRegs := by
    split
    · exact scratch_keepsRegs.mono (by decide)
    · exact .refl
  exact ((hset.trans hrecord).trans hevent).trans hhalt

end Sys2Proof.Machine
end

section
/-! Enrolment, verdicts of vault lines, zeroisation and failed proofs (R285, R291 to R294, R303, R306, R309): O53. -/

namespace Sys2Proof.Machine

variable {s t u : State} {n line j : Nat} {p : Port} {nonce : W64} {hello : Hello} {k : Fin 64} {x : Option (Fin 64)}

/-! ### An authentication HELLO -/

theorem authHello_unheard (h : s.portUp p = false ∨ s.unenrolled p = true) : s.authHello p nonce hello x = s :=
  if_pos (by simpa using h)

section
variable (hu : s.portUp p = true) (he : s.unenrolled p = false)
include hu he

theorem authHello_heard (ht : s.accept p 2 = t) : s.authHello p nonce hello (some k) =
    if t.enrolled p || !t.flag F.ROSTER.VALID [k.val] || !(t.fld F.ROSTER.PORTS [k.val]).testBit p then t
    else (((((t.put F.SEC_PORTS.ENROLLED (t.fld F.SEC_PORTS.ENROLLED ||| 2 ^ p.val)).onPort p fun h =>
      { h with partner := some k }).deriveKeys p k nonce).applyHello p hello).serveBoot p hello).drainUp p := by
  rw [State.authHello, if_neg (by rw [hu, he]; decide), ← ht]

theorem authHello_none : s.authHello p nonce hello none = s.accept p 2 := by
  rw [State.authHello, if_neg (by rw [hu, he]; decide)]

end

theorem roster_valid : RegName.ROSTER.valid [k.val] = true := by simp [RegName.valid, RegName.place, ixValid]

/-- What accepting a frame leaves of the enrolment. -/
theorem accepted_enrolment (ht : s.accept p 2 = t) : t.enrolled p = s.enrolled p ∧ t.flag F.ROSTER.VALID [k.val] = s.flag F.ROSTER.VALID [k.val] ∧
    t.fld F.ROSTER.PORTS [k.val] = s.fld F.ROSTER.PORTS [k.val] := by
  have hwork : PortWork s t [.PORT_STAT] := ht ▸ .accept p.isLt
  refine ⟨?_, hwork.flag (f := F.ROSTER.VALID) (by decide) roster_valid, hwork.fld (f := F.ROSTER.PORTS) (by decide) roster_valid⟩
  rw [State.enrolled, State.enrolled, hwork.fld (f := F.SEC_PORTS.ENROLLED) (by decide) (by decide)]

/-! ### Link keys (R292) -/

theorem deriveKeys_known {e : Nat × RosterEntry} (h : s.ref.roster.find? (fun x => x.1 == k.val) = some e) {mine : W64} {prk : List Byte}
    {low : Bool} (hm : (((s.portH p).helloNonces.find? fun x => x.1 == k.val).map fun x => x.2).getD 0 = mine)
    (hk : linkPrk e.2.agrPub = prk) (hl : bytesLess (digestBytes idDigest) (digestBytes (keyDigest (keyBytes e.2.idPub))) = low) :
    (s.deriveKeys p k nonce).portH p = { s.portH p with
      txKey := some (linkKey prk (if low then mine else nonce) (if low then nonce else mine) !low)
      rxKey := some (linkKey prk (if low then mine else nonce) (if low then nonce else mine) low)
      nonceTx := 1 } := by
  rw [State.deriveKeys, h, ← hm, ← hk, ← hl]
  exact portH_onPort p.isLt

/-! ### Verdicts of vault lines (R303, R306) -/

section
variable {tagOk : Bool} {badNode : Option (Nat × Nat)} {l : Nat} (hl : s.regionBase n / 64 + line = l)
include hl

theorem vaultVerdict_idle (h : l ∉ s.vault.pendingLines) : s.vaultVerdict n line tagOk badNode = s := by
  rw [State.vaultVerdict, hl]
  exact if_pos (by simpa using h)

variable (hp : l ∈ s.vault.pendingLines)
include hp

theorem vaultVerdict_sound (h : (badNode.orElse fun _ => s.badPath n line) = none) : s.vaultVerdict n line tagOk badNode =
    if tagOk && s.lineTagOk n line l then (s.cachePath n line).verdictGood l else (s.cachePath n line).tagFailed l := by
  rw [State.vaultVerdict, hl, h]
  exact if_neg (by simpa using hp)

theorem vaultVerdict_broken {level node : Nat} (h : (badNode.orElse fun _ => s.badPath n line) = some (level, node)) :
    s.vaultVerdict n line tagOk badNode = if level = 0 ∨ line / 8 ^ level ≠ node then s else s.nodeFailed n level node l := by
  rw [State.vaultVerdict, hl, h]
  exact if_neg (by simpa using hp)

end

/-! ### Zeroisation (R309) -/

/-- Every region that has keys is zeroised. -/
def State.zeroedRegions (s : State) (n : Nat) : State :=
  (List.range n).foldl (fun s n => if s.fld F.VR_STAT.STATE [n] = 0 then s else s.setReg .VR_STAT [n] 3) s

/-- Every seal is gone. -/
def State.zeroedSeals (s : State) : State := (List.range 32).foldl (fun s j => s.setReg .SEAL [j] 0) s

theorem zeroiseVault_eq : s.zeroiseVault = (s.zeroedRegions 64).zeroedSeals.abandonVaults := rfl

theorem vrStat_valid (h : n < 64) : RegName.VR_STAT.valid [n] = true := by simp [RegName.valid, RegName.place, ixValid, h]

theorem zeroedRegions_reg (hn : n ≤ 64) (hj : j < 64) : (s.zeroedRegions n).reg .VR_STAT [j] =
    if j < n ∧ s.fld F.VR_STAT.STATE [j] ≠ 0 then 3 else s.reg .VR_STAT [j] := by
  induction n generalizing j with
  | zero => simp [State.zeroedRegions]
  | succ n ih =>
    have hstep : s.zeroedRegions (n + 1) = if (s.zeroedRegions n).fld F.VR_STAT.STATE [n] = 0 then s.zeroedRegions n
        else (s.zeroedRegions n).setReg .VR_STAT [n] 3 := by
      rw [State.zeroedRegions, List.range_succ, List.foldl_append]
      rfl
    have hstate : (s.zeroedRegions n).fld F.VR_STAT.STATE [n] = s.fld F.VR_STAT.STATE [n] := by
      refine congrArg (bitsOf · _ _) ((ih (by omega) (by omega)).trans (if_neg ?_))
      omega
    rw [hstep, hstate]
    by_cases h0 : s.fld F.VR_STAT.STATE [n] = 0
    · rw [if_pos h0, ih (by omega) hj]
      by_cases hjn : j = n
      · subst hjn
        simp [h0]
      · simp only [show j < n + 1 ↔ j < n by omega]
    · rw [if_neg h0]
      by_cases hjn : j = n
      · subst hjn
        rw [State.reg_setReg, if_pos ⟨by omega, h0⟩]
      · rw [State.reg_setReg_ix (by simpa using Ne.symm hjn) (vrStat_valid (by omega)) (vrStat_valid hj), ih (by omega) hj]
        simp only [show j < n + 1 ↔ j < n by omega]

theorem zeroedRegions_hostmem : (s.zeroedRegions n).hostmem = s.hostmem :=
  List.foldlRecOn (motive := fun (t : State) => t.hostmem = s.hostmem) _ _ rfl fun t ht _ _ => by split <;> exact ht

theorem zeroedSeals_hostmem : s.zeroedSeals.hostmem = s.hostmem :=
  List.foldlRecOn (motive := fun (t : State) => t.hostmem = s.hostmem) _ _ rfl fun _ ht _ _ => ht

theorem zeroedSeals_keepsRegs : KeepsRegs s s.zeroedSeals [.SEAL] :=
  .foldl_mem _ fun _ _ hj => .setReg (by decide) (seal_valid (List.mem_range.mp hj))

theorem zeroedSeals_reg (hj : j < 32) : s.zeroedSeals.reg .SEAL [j] = 0 := by
  refine range_foldl_each (P := fun j (t : State) => j < 32 → t.reg .SEAL [j] = 0) (fun s i _ _ => State.reg_setReg)
    (fun s i hi j hk hj => ?_) j hj hj
  by_cases hij : i = j
  · subst hij
    exact State.reg_setReg
  · rw [State.reg_setReg_ix (by simpa using hij) (seal_valid hi) (seal_valid hj), hk hj]

/-- What zeroisation leaves: no line, counter, key or cached node, no seal, and every region that had keys zeroised. -/
theorem abandonVaults_reg {r : RegName} {ix : List Nat} : s.abandonVaults.reg r ix = s.reg r ix := rfl

theorem zeroiseVault_reg (r : RegName) (ix : List Nat) (hv : r.valid ix = true) (hr : r ≠ .SEAL) :
    s.zeroiseVault.reg r ix = (s.zeroedRegions 64).reg r ix := by
  rw [zeroiseVault_eq, abandonVaults_reg, zeroedSeals_keepsRegs r ix hv (by simpa using hr)]

theorem zeroiseVault_seal (hj : j < 32) : s.zeroiseVault.reg .SEAL [j] = 0 := by
  rw [zeroiseVault_eq, abandonVaults_reg, zeroedSeals_reg hj]

theorem abandonVaults_hostmem : s.abandonVaults.hostmem = s.hostmem := rfl

theorem zeroiseVault_hostmem : s.zeroiseVault.hostmem = s.hostmem := by
  rw [zeroiseVault_eq, abandonVaults_hostmem, zeroedSeals_hostmem, zeroedRegions_hostmem]

/-! ### Failed proofs (R285) -/

theorem countedFailure_flag : (s.count F.SEC_STAT.AUTH_FAIL).flag F.SEC_STAT.LOCKOUT = s.flag F.SEC_STAT.LOCKOUT :=
  congrArg (· != 0) (State.fld_put_apart (w := F.SEC_STAT.AUTH_FAIL) (f := F.SEC_STAT.LOCKOUT) (by decide) (by decide) (fun _ => by decide)
    (by decide) (by decide))

theorem countedFailure_fld : (s.count F.SEC_STAT.AUTH_FAIL).fld F.SEC_STAT.AUTH_FAIL =
    satAdd (F.SEC_STAT.AUTH_FAIL.hi + 1 - F.SEC_STAT.AUTH_FAIL.lo) (s.fld F.SEC_STAT.AUTH_FAIL) 1 :=
  (State.fld_put (f := F.SEC_STAT.AUTH_FAIL) (by decide) (by decide)).trans (Nat.mod_eq_of_lt satAdd_lt)

/-- The failures of the last minute are below eight: the count of failures goes on. -/
def State.failureNoted (s : State) (n : Nat) : State := { s with ref := { s.ref with authFails := n } }

/-- They are not: sessions are locked out, with a record and an alarm. -/
def State.lockedOut (s : State) : State := (((s.failureNoted 0).put F.SEC_STAT.LOCKOUT 1).recordAuto 4 0 0).alarm 0

theorem authFailed_locked (h : s.flag F.SEC_STAT.LOCKOUT = true) : s.authFailed = s.count F.SEC_STAT.AUTH_FAIL := by
  have hlocked := countedFailure_flag.trans h
  exact if_pos hlocked

theorem authFailed_open (h : s.flag F.SEC_STAT.LOCKOUT = false) (ht : s.count F.SEC_STAT.AUTH_FAIL = t) : s.authFailed =
    if 1 + (Config.freeMeasure s.free).toNat % (s.ref.authFails + 1) < 8 then t.spend.failureNoted (s.ref.authFails + 1)
    else t.spend.lockedOut := by
  subst ht
  have hopen := countedFailure_flag.trans h
  exact if_neg (by rw [hopen]; decide)

theorem failureNoted_fld {f : Fld} {ix : List Nat} : (s.failureNoted n).fld f ix = s.fld f ix := rfl

theorem recordAuto_keepsRegs {k : Nat} {x y : W64} {rs : List RegName} : KeepsRegs s (s.recordAuto k x y) rs := .of_regs rfl

theorem lockedOut_fails : s.lockedOut.fld F.SEC_STAT.AUTH_FAIL = s.fld F.SEC_STAT.AUTH_FAIL := by
  have halarm : KeepsRegs ((s.failureNoted 0).put F.SEC_STAT.LOCKOUT 1) s.lockedOut alarmRegs := recordAuto_keepsRegs.trans alarm_keepsRegs
  refine (congrArg (bitsOf · _ _) (halarm .SEC_STAT [] (by decide) (by decide))).trans ?_
  rw [← failureNoted_fld (s := s) (n := 0)]
  exact State.fld_put_apart (w := F.SEC_STAT.LOCKOUT) (f := F.SEC_STAT.AUTH_FAIL) (by decide) (by decide) (fun _ => by decide) (by decide)
    (by decide)

theorem authFailed_count : s.authFailed.fld F.SEC_STAT.AUTH_FAIL =
    satAdd (F.SEC_STAT.AUTH_FAIL.hi + 1 - F.SEC_STAT.AUTH_FAIL.lo) (s.fld F.SEC_STAT.AUTH_FAIL) 1 := by
  have hspend {t : State} : t.spend.fld F.SEC_STAT.AUTH_FAIL = t.fld F.SEC_STAT.AUTH_FAIL := by
    rw [State.fld, State.reg, State.spend_regs]
    rfl
  cases h : s.flag F.SEC_STAT.LOCKOUT with
  | true => rw [authFailed_locked h, countedFailure_fld]
  | false =>
    rw [authFailed_open h rfl, ← countedFailure_fld]
    split
    · rw [failureNoted_fld, hspend]
    · rw [lockedOut_fails, hspend]

theorem authFailed_lockout (h : s.flag F.SEC_STAT.LOCKOUT = true ∨ s.ref.authFails < 7) :
    s.authFailed.flag F.SEC_STAT.LOCKOUT = s.flag F.SEC_STAT.LOCKOUT := by
  have hspend {t : State} : t.spend.flag F.SEC_STAT.LOCKOUT = t.flag F.SEC_STAT.LOCKOUT := by
    rw [State.flag, State.fld, State.reg, State.spend_regs]
    rfl
  cases hf : s.flag F.SEC_STAT.LOCKOUT with
  | true => rw [authFailed_locked hf, countedFailure_flag, hf]
  | false =>
    have hfew : s.ref.authFails < 7 := h.resolve_left (by rw [hf]; decide)
    have hmod := Nat.mod_lt (Config.freeMeasure s.free).toNat (Nat.succ_pos s.ref.authFails)
    have hnoted {t : State} {n : Nat} : (t.failureNoted n).flag F.SEC_STAT.LOCKOUT = t.flag F.SEC_STAT.LOCKOUT := rfl
    rw [authFailed_open hf rfl, if_pos (by rw [Nat.succ_eq_add_one] at hmod; omega), hnoted, hspend, countedFailure_flag, hf]

/-! ### The obligation -/

/-- Settles O53: a HELLO enrols where the port awaits one, a verdict acts by the first bad node above its line, and a failed proof is
counted once. -/
theorem securityCommands : Obligations.SecurityCommands := by
  unfold Obligations.SecurityCommands
  intro s p nonce hello k path n line
  have hexec {x : Option (Fin 64)} {u : State} (h5 : s.portState p ≠ 5) (hg : s.groupRuns p = true) (h : s.authHello p nonce hello x = u) :
      exec (.authenticationHello p nonce hello x) s = .next u.settleV := by
    rw [show exec (.authenticationHello p nonce hello x) s = .next (s.heard p (.authenticationHello p nonce hello x) fun s =>
      s.authHello p nonce hello x).settleV from rfl, heard_runs h5 hg, h]
  have hdeaf {x : Option (Fin 64)} (h5 : s.portState p ≠ 5) (hg : s.groupRuns p = false) :
      exec (.authenticationHello p nonce hello x) s = .next s.settleV := by
    rw [show exec (.authenticationHello p nonce hello x) s = .next (s.heard p (.authenticationHello p nonce hello x) fun s =>
      s.authHello p nonce hello x).settleV from rfl, heard_deaf h5 hg]
  obtain ⟨henrolled, hvalid, hports⟩ := accepted_enrolment (s := s) (p := p) (k := k) rfl
  refine ⟨fun ⟨h5, hg⟩ ⟨hu, he, hn⟩ ⟨hv, hb⟩ => hexec h5 hg ?_, fun ⟨h5, hg⟩ ⟨hu, he, hn⟩ hk => hexec h5 hg ?_,
    fun ⟨h5, hg⟩ hu he hn => hexec h5 hg ?_, fun ⟨h5, hg⟩ hu hn => hexec h5 hg (authHello_none hu hn),
    fun ⟨h5, hg⟩ hn => ⟨hexec h5 hg (authHello_unheard hn), hexec h5 hg (authHello_unheard hn)⟩, fun h5 hg => ⟨hdeaf h5 hg, hdeaf h5 hg⟩,
    fun e he => ?_, fun ⟨hu, he, hn⟩ => if_pos (by rw [hu, he, hn]; decide), fun hn => if_neg (by simpa [and_assoc] using hn),
    fun tagOk badNode => ⟨fun hp => ?_, fun hp hb => ⟨fun ht hl => ?_, fun hf => ?_⟩, fun hp level node hb => ⟨fun hn => ?_, fun h0 hn => ?_⟩⟩,
    ⟨rfl, rfl, rfl⟩, rfl, rfl, rfl, rfl, rfl, zeroiseVault_hostmem, fun j => zeroiseVault_seal j.isLt,
    fun j => ⟨fun h0 => ?_, fun h0 => ?_⟩, authFailed_count, authFailed_lockout⟩
  · refine (authHello_heard hu hn rfl).trans (if_neg ?_)
    rw [henrolled, hvalid, hports, he, hv, hb]
    decide
  · refine (authHello_heard hu hn rfl).trans (if_pos ?_)
    rw [henrolled, hvalid, hports, he, Bool.false_or, Bool.or_eq_true, Bool.not_eq_true', Bool.not_eq_true']
    by_cases hv : s.flag F.ROSTER.VALID [k.val] = true
    · exact .inr (Bool.eq_false_iff.mpr fun hb => hk ⟨hv, hb⟩)
    · exact .inl (Bool.eq_false_iff.mpr hv)
  · refine (authHello_heard hu hn rfl).trans (if_pos ?_)
    rw [henrolled, he]
    rfl
  · have hkeys := deriveKeys_known (p := p) (nonce := nonce) he rfl rfl rfl
    refine ⟨congrArg PortH.nonceTx hkeys, fun hl => ⟨?_, ?_⟩, fun hl => ⟨?_, ?_⟩⟩
    all_goals
      rw [hkeys]
      dsimp only
      rw [hl]
      rfl
  · exact congrArg (fun u => Host.Outcome.next (State.settleV u)) (vaultVerdict_idle rfl hp)
  · exact congrArg (fun u => Host.Outcome.next (State.settleV u)) ((vaultVerdict_sound rfl hp hb).trans (if_pos (by rw [ht, hl]; rfl)))
  · refine congrArg (fun u => Host.Outcome.next (State.settleV u)) ((vaultVerdict_sound rfl hp hb).trans (if_neg ?_))
    obtain hf | hf := hf <;> rw [hf] <;> simp
  · exact congrArg (fun u => Host.Outcome.next (State.settleV u)) ((vaultVerdict_broken rfl hp hb).trans (if_pos hn))
  · refine congrArg (fun u => Host.Outcome.next (State.settleV u)) ((vaultVerdict_broken rfl hp hb).trans (if_neg ?_))
    rintro (h | h)
    · exact h0 h
    · exact h hn
  · rw [zeroiseVault_reg _ _ (vrStat_valid j.isLt) (by decide), zeroedRegions_reg (by decide) j.isLt, if_neg (by simp [h0])]
  · rw [zeroiseVault_reg _ _ (vrStat_valid j.isLt) (by decide), zeroedRegions_reg (by decide) j.isLt, if_pos ⟨j.isLt, h0⟩]

end Sys2Proof.Machine
end

section
/-! The vault in host memory: device writes, tags, counters and the cache of nodes (R301 to R304): O54. -/

namespace Sys2Proof.Machine

variable {s t u : State} {n i j k c w v h line : Nat} {q : Quad} {qs : List Quad} {m : Sparse Quad}

/-! ### Words written one after another -/

theorem read_writeWords_below (hv : v < k) : Sparse.read (writeWords m k qs) v = Sparse.read m v := by
  induction qs generalizing m k with
  | nil => rfl
  | cons q qs ih => rw [writeWords, ih (by omega), Sparse.read_write_ne (by omega)]

theorem read_writeWords_above (hv : k + qs.length ≤ v) : Sparse.read (writeWords m k qs) v = Sparse.read m v := by
  induction qs generalizing m k with
  | nil => rfl
  | cons q qs ih =>
    rw [List.length_cons] at hv
    rw [writeWords, ih (by omega), Sparse.read_write_ne (by omega)]

theorem read_writeWords (hj : j < qs.length) : Sparse.read (writeWords m k qs) (k + j) = qs[j] := by
  induction qs generalizing m k j with
  | nil => simp at hj
  | cons q qs ih =>
    rw [writeWords]
    cases j with
    | zero => exact (read_writeWords_below (by omega)).trans Sparse.read_write_self
    | succ j =>
      rw [show k + (j + 1) = k + 1 + j by omega, ih (by simpa using hj)]
      rfl

theorem mem_wordsOfLine : w ∈ wordsOfLine line ↔ w / 4 = line := by
  simp only [wordsOfLine, List.mem_map, List.mem_range]
  exact ⟨by rintro ⟨x, hx, rfl⟩; omega, fun h => ⟨w % 4, by omega, by omega⟩⟩

theorem untouched_iff {ws : List Nat} : s.untouched ws = true ↔ ∀ w ∈ ws, w ∉ s.vault.foreign := by
  simp [State.untouched]

/-! ### A line takes a fresh counter -/

/-- The engine has worked in the vault: no word has become foreign, the plaintext of words that were not foreign is as it was, and of the
registers VR_STAT alone has changed. -/
structure VaultStep (s t : State) : Prop where
  own : ∀ w, w ∈ t.vault.foreign → w ∈ s.vault.foreign
  data : ∀ w, w ∉ s.vault.foreign → Sparse.read t.vault.data w = Sparse.read s.vault.data w
  reg : ∀ r ix, r.valid ix = true → r ≠ .VR_STAT → t.reg r ix = s.reg r ix

theorem VaultStep.refl : VaultStep s s := ⟨fun _ h => h, fun _ _ => rfl, fun _ _ _ _ => rfl⟩

theorem VaultStep.trans (h1 : VaultStep s t) (h2 : VaultStep t u) : VaultStep s u :=
  ⟨fun w hw => h1.own w (h2.own w hw), fun w hw => (h2.data w fun h => hw (h1.own w h)).trans (h1.data w hw),
    fun r ix hv hr => (h2.reg r ix hv hr).trans (h1.reg r ix hv hr)⟩

theorem VaultStep.of_tree (h : TreeOnly s t) : VaultStep s t := ⟨h.own, fun _ _ => by rw [h.data], h.reg⟩

theorem VaultStep.adoptLine : VaultStep s (s.adoptLine n line) := by
  unfold State.adoptLine
  split
  · exact .refl
  · refine ⟨fun w hw => List.mem_of_mem_filter hw, fun w hw => ?_, fun _ _ _ _ => rfl⟩
    by_cases hlow : w < 4 * line
    · exact read_writeWords_below hlow
    · by_cases hhigh : 4 * line + 4 ≤ w
      · exact read_writeWords_above hhigh
      · obtain ⟨x, rfl⟩ : ∃ x, w = 4 * line + x := ⟨w - 4 * line, by omega⟩
        have hx : x < ((wordsOfLine line).map (s.vaultWord n)).length := by
          simp only [wordsOfLine, List.length_map, List.length_range]
          omega
        refine (read_writeWords hx).trans ?_
        simp only [wordsOfLine, List.getElem_map, List.getElem_range]
        rw [State.vaultWord, if_neg (by simpa using hw)]

theorem adoptLine_owns (hw : w / 4 = line) : w ∉ (s.adoptLine n line).vault.foreign := by
  unfold State.adoptLine
  split
  next h => exact untouched_iff.mp h w (mem_wordsOfLine.mpr hw)
  next => simp [hw]

/-- The counter of a line is written; its tag is good. -/
def State.recounted (s : State) (line c : Nat) : State :=
  { s with vault := { s.vault with
    counters := Sparse.write s.vault.counters line (BitVec.ofNat 64 c)
    badLines := listDrop s.vault.badLines line } }

/-- The line is the engine's, the nodes over it are cached, and its own node is dirty. -/
def State.opened (s : State) (n line : Nat) : State :=
  ((s.adoptLine n line).cachePath n (s.lineOf n (line * 64))).dirtyNode n 1 (s.lineOf n (line * 64) / 8)

theorem bumpLine_eq (hc : s.lineCounter n line + 1 = c) : s.bumpLine n line = ((s.opened n line).recounted line c).raiseMark n c := by
  subst hc
  rfl

theorem VaultStep.recounted : VaultStep s (s.recounted line c) := ⟨fun _ h => h, fun _ _ => rfl, fun _ _ _ _ => rfl⟩

theorem VaultStep.opened : VaultStep (s.adoptLine n line) (s.opened n line) := .of_tree (.trans .cachePath .dirtyNode)

theorem VaultStep.bumpLine : VaultStep s (s.bumpLine n line) := by
  rw [bumpLine_eq rfl]
  exact ((VaultStep.adoptLine.trans .opened).trans .recounted).trans (.of_tree .raiseMark)

theorem bumpLine_owns (hw : w / 4 = line) : w ∉ (s.bumpLine n line).vault.foreign := by
  have hstep : VaultStep (s.adoptLine n line) (s.bumpLine n line) := by
    rw [bumpLine_eq rfl]
    exact (VaultStep.opened.trans .recounted).trans (.of_tree .raiseMark)
  exact fun h => adoptLine_owns hw (hstep.own w h)

theorem bumpLine_counter (hc : s.lineCounter n line + 1 < 2 ^ 56) : (s.bumpLine n line).lineCounter n line = s.lineCounter n line + 1 := by
  have hcounters : (s.bumpLine n line).vault.counters =
      Sparse.write (s.opened n line).vault.counters line (BitVec.ofNat 64 (s.lineCounter n line + 1)) := by
    rw [bumpLine_eq rfl, TreeOnly.raiseMark.counters]
    rfl
  have hread : (Sparse.read (s.bumpLine n line).vault.counters line).toNat = s.lineCounter n line + 1 := by
    rw [hcounters, Sparse.read_write_self, BitVec.toNat_ofNat, Nat.mod_eq_of_lt (by omega)]
  rw [State.lineCounter, hread]
  rfl

theorem raiseMark_reaches (hn : n < 64) (hc : c < 2 ^ 56) : c ≤ (s.raiseMark n c).fld F.VR_STAT.HWM [n] := by
  unfold State.raiseMark
  split
  · refine Nat.le_of_eq (Eq.symm ?_)
    exact (State.fld_put (f := F.VR_STAT.HWM) (by decide) (by decide)).trans (Nat.mod_eq_of_lt hc)
  next h => exact Nat.le_of_not_lt fun hlt => h ⟨hn, hlt⟩

theorem bumpLine_mark (hn : n < 64) (hc : s.lineCounter n line + 1 < 2 ^ 56) :
    s.lineCounter n line + 1 ≤ (s.bumpLine n line).fld F.VR_STAT.HWM [n] := by
  rw [bumpLine_eq rfl]
  exact raiseMark_reaches hn hc

/-! ### A device write -/

/-- Every line takes a fresh counter. -/
def State.bumpLines (s : State) (n : Nat) (lines : List Nat) : State := lines.foldl (fun s l => s.bumpLine n l) s

theorem bumpLines_step {lines : List Nat} : VaultStep s (s.bumpLines n lines) :=
  List.foldlRecOn (motive := fun (t : State) => VaultStep s t) _ _ .refl fun _ ht _ _ => ht.trans .bumpLine

theorem bumpLines_owns {lines : List Nat} (hw : w / 4 ∈ lines) : w ∉ (s.bumpLines n lines).vault.foreign := by
  induction lines generalizing s with
  | nil => simp at hw
  | cons l lines ih =>
    rw [List.mem_cons] at hw
    obtain hw | hw := hw
    · exact fun h => bumpLine_owns hw (bumpLines_step.own w h)
    · exact ih hw

/-- The words reach the vault. -/
def State.stored (s : State) (h : Nat) (qs : List Quad) : State :=
  { s with vault := { s.vault with data := writeWords s.vault.data (h / 16) qs } }

/-- The new tags of lines reach tag words that something else has written. -/
def State.putTags (s : State) (n : Nat) (lines : List Nat) : State := lines.foldl (fun s l => s.putTag n (s.lineOf n (l * 64))) s

theorem vaultStore_eq {lines : List Nat} (hl : linesOf h (16 * qs.length) = lines) :
    s.vaultStore n h qs = ((s.bumpLines n lines).stored h qs).putTags n lines := by
  subst hl
  rfl

theorem putTags_kept {lines : List Nat} : (s.putTags n lines).vault = s.vault ∧ (s.putTags n lines).regs = s.regs := by
  have hput {s : State} {i : Nat} : (s.putTag n i).vault = s.vault ∧ (s.putTag n i).regs = s.regs := by
    unfold State.putTag
    dsimp only
    split <;> exact ⟨rfl, rfl⟩
  exact List.foldlRecOn (motive := fun (t : State) => t.vault = s.vault ∧ t.regs = s.regs) _ _ ⟨rfl, rfl⟩ fun t ht l _ =>
    ⟨hput.1.trans ht.1, hput.2.trans ht.2⟩

theorem vaultStore_foreign : (s.vaultStore n h qs).vault.foreign = (s.bumpLines n (linesOf h (16 * qs.length))).vault.foreign := by
  rw [vaultStore_eq rfl, putTags_kept.1]
  rfl

theorem vaultStore_data : (s.vaultStore n h qs).vault.data =
    writeWords (s.bumpLines n (linesOf h (16 * qs.length))).vault.data (h / 16) qs := by
  rw [vaultStore_eq rfl, putTags_kept.1]
  rfl

theorem mem_linesOf (hh : h % 16 = 0) (hj : j < qs.length) : (h / 16 + j) / 4 ∈ linesOf h (16 * qs.length) := by
  simp only [linesOf, List.mem_map, List.mem_range]
  exact ⟨(h / 16 + j) / 4 - h / 64, by omega, by omega⟩

theorem vaultStore_reads_back (hh : h % 16 = 0) (hj : j < qs.length) : (s.vaultStore n h qs).vaultWord n (h / 16 + j) = qs[j] := by
  have hown := bumpLines_owns (s := s) (n := n) (mem_linesOf hh hj)
  rw [State.vaultWord, vaultStore_foreign, if_neg (by simpa using hown), vaultStore_data, read_writeWords hj]

theorem vaultStore_keeps (hv : v ∉ s.vault.foreign) (hout : v < h / 16 ∨ h / 16 + qs.length ≤ v) :
    (s.vaultStore n h qs).vaultWord n v = s.vaultWord n v := by
  have hstep := bumpLines_step (s := s) (n := n) (lines := linesOf h (16 * qs.length))
  have hown : v ∉ (s.bumpLines n (linesOf h (16 * qs.length))).vault.foreign := fun hm => hv (hstep.own v hm)
  have hdata : Sparse.read (writeWords (s.bumpLines n (linesOf h (16 * qs.length))).vault.data (h / 16) qs) v =
      Sparse.read (s.bumpLines n (linesOf h (16 * qs.length))).vault.data v :=
    hout.elim read_writeWords_below read_writeWords_above
  rw [State.vaultWord, vaultStore_foreign, if_neg (by simpa using hown), vaultStore_data, hdata, hstep.data v hv, State.vaultWord,
    if_neg (by simpa using hv)]

theorem vaultStore_tagAddr (hn : n < 64) : (s.vaultStore n h qs).tagAddr n i = s.tagAddr n i := by
  have hv : RegName.VR_CFG.valid [n] = true := by simp [RegName.valid, RegName.place, ixValid, hn]
  have hreg : (s.vaultStore n h qs).reg .VR_CFG [n] = s.reg .VR_CFG [n] := by
    have hput : (s.vaultStore n h qs).regs = (s.bumpLines n (linesOf h (16 * qs.length))).regs := by
      rw [vaultStore_eq rfl, putTags_kept.2]
      rfl
    rw [State.reg, hput]
    exact bumpLines_step.reg _ _ hv (by decide)
  exact congrArg (fun x => bitsOf x _ _ * 4096 + 8 * i) hreg

theorem vaultStore_tagged (hn : n < 64) (hl : line ∈ linesOf h (16 * qs.length)) (ho : s.tagAddr n i / 16 ∉ s.vault.foreign) :
    (s.vaultStore n h qs).lineTagOk n i line = true := by
  have hstep := bumpLines_step (s := s) (n := n) (lines := linesOf h (16 * qs.length))
  rw [State.lineTagOk, Bool.or_eq_true]
  refine .inl (untouched_iff.mpr fun w hw => ?_)
  rw [vaultStore_foreign]
  rw [vaultStore_tagAddr hn, List.mem_cons, mem_wordsOfLine] at hw
  obtain rfl | rfl := hw
  · exact fun hm => ho (hstep.own _ hm)
  · exact bumpLines_owns hl

/-! ### The cache of nodes -/

/-- After its evictions the cache holds at least its first nodes, of which there are no more than it has room for. -/
theorem evictions_keep {path rest : List (Nat × Nat × Nat)} (hc : s.vault.cache = path ++ rest) (hk : k ≤ rest.length) :
    ∃ rest', ((List.range k).foldl (fun s _ => s.evict) s).vault.cache = path ++ rest' ∧ rest'.length + k = rest.length := by
  have hdrop {t : State} {x : Nat × Nat × Nat} {l : List (Nat × Nat × Nat)} (ht : t.vault.cache = l ++ [x]) : t.evict.vault.cache = l := by
    have hstore {t : State} {n k j : Nat} : (t.storeNode n k j).vault.cache = t.vault.cache := by
      have hmark {t : State} {c : Nat} : (t.raiseMark n c).vault = t.vault := by
        unfold State.raiseMark
        split <;> rfl
      have hdirty {t : State} {k j : Nat} : (t.dirtyNode n k j).vault.cache = t.vault.cache := by
        unfold State.dirtyNode
        split <;> rfl
      unfold State.storeNode
      dsimp only
      rw [hmark]
      exact hdirty
    have hlast : t.vault.cache.getLast? = some x := by simp [ht]
    unfold State.evict
    rw [hlast]
    dsimp only
    split
    · rw [hstore]
      simp [ht]
    · simp [ht]
  induction k with
  | zero => exact ⟨rest, hc, rfl⟩
  | succ k ih =>
    obtain ⟨rest', hcache, hlen⟩ := ih (by omega)
    obtain h | ⟨init, x, rfl⟩ := List.eq_nil_or_concat rest'
    · rw [h] at hlen
      simp at hlen
      omega
    · rw [List.range_succ, List.foldl_append]
      refine ⟨init, hdrop (x := x) (by rw [hcache]; simp), ?_⟩
      simp at hlen
      omega

theorem pathOf_length : (s.pathOf n i).length ≤ 18 := by
  have hsize : s.fld F.VR_CFG.SIZE [n] < 64 := bitsOf_lt _ _ _
  rw [State.pathOf, List.length_map, List.length_range, State.topLevel]
  omega

/-- The cache holds these nodes. -/
def State.withCache (s : State) (cache : List (Nat × Nat × Nat)) : State := { s with vault := { s.vault with cache := cache } }

/-- The cached nodes that do not lie over line `i`. -/
def State.offPath (s : State) (n i : Nat) : List (Nat × Nat × Nat) := s.vault.cache.filter fun x => !(s.pathOf n i).contains x

theorem cachePath_eq (hk : (s.pathOf n i ++ s.offPath n i).length - cacheNodes = k) :
    s.cachePath n i = (List.range k).foldl (fun s _ => s.evict) (s.withCache (s.pathOf n i ++ s.offPath n i)) := by
  subst hk
  rfl

theorem cachePath_caches {x : Nat × Nat × Nat} (hm : x ∈ s.pathOf n i) : x ∈ (s.cachePath n i).vault.cache := by
  have hlen := pathOf_length (s := s) (n := n) (i := i)
  obtain ⟨k, hk⟩ : ∃ k, (s.pathOf n i ++ s.offPath n i).length - cacheNodes = k := ⟨_, rfl⟩
  have hroom : k ≤ (s.offPath n i).length := by
    rw [← hk, List.length_append, show cacheNodes = 65536 from rfl]
    omega
  obtain ⟨rest, hcache, -⟩ := evictions_keep (s := s.withCache (s.pathOf n i ++ s.offPath n i)) rfl hroom
  rw [cachePath_eq hk, hcache]
  exact List.mem_append_left _ hm

theorem cachePath_badPath (hn : n < 64) : (s.cachePath n i).badPath n i = none := by
  have hv : RegName.VR_CFG.valid [n] = true := by simp [RegName.valid, RegName.place, ixValid, hn]
  have hpath : (s.cachePath n i).pathOf n i = s.pathOf n i := by
    rw [State.pathOf, State.pathOf, State.topLevel, State.topLevel, TreeOnly.cachePath.fld (f := F.VR_CFG.SIZE) hv (by decide)]
  rw [State.badPath, hpath, Option.map_eq_none_iff, List.find?_eq_none]
  intro x hx
  simp [cachePath_caches hx]

/-! ### What the tree and the tag stop -/

section
variable {tw : Nat} (hr : s.devRefusal tw h (16 * qs.length) true = none) (hv : s.vaultOf h (16 * qs.length) true = some n)
include hr hv

theorem hostWrite_vault {stops : List (Nat × Nat × Nat)}
    (hs : ((linesOf h (16 * qs.length)).filterMap fun l => (s.lineStop n l).map fun x => (n, x)) = stops) : s.hostWrite tw h qs =
    if !stops.isEmpty then (.regionSealed, { s with vault := { s.vault with sealDue := s.vault.sealDue ++ stops } })
    else if (linesOf h (16 * qs.length)).any (s.partFails n h (16 * qs.length)) then
      (.tagFailed, { s with vault := { s.vault with alarmDue := s.vault.alarmDue ++ [3] } })
    else (.ok, s.vaultStore n h qs) := by
  subst hs
  rw [State.hostWrite, hr, hv]

theorem hostWrite_runs (hs : ∀ l ∈ linesOf h (16 * qs.length), s.lineStop n l = none) : s.hostWrite tw h qs =
    if (linesOf h (16 * qs.length)).any (s.partFails n h (16 * qs.length)) then
      (.tagFailed, { s with vault := { s.vault with alarmDue := s.vault.alarmDue ++ [3] } })
    else (.ok, s.vaultStore n h qs) := by
  have hnone : ((linesOf h (16 * qs.length)).filterMap fun l => (s.lineStop n l).map fun x => (n, x)) = [] :=
    List.filterMap_eq_nil_iff.mpr fun l hl => by rw [hs l hl]; rfl
  exact (hostWrite_vault hr hv hnone).trans (if_neg (by decide))

theorem hostWrite_stopped (hs : ∃ l ∈ linesOf h (16 * qs.length), s.lineStop n l ≠ none) :
    (s.hostWrite tw h qs).1 = .regionSealed ∧ (s.hostWrite tw h qs).2.vault.data = s.vault.data := by
  obtain ⟨l, hl, hstop⟩ := hs
  obtain ⟨x, hx⟩ := Option.ne_none_iff_exists'.mp hstop
  have hsome : ((linesOf h (16 * qs.length)).filterMap fun l => (s.lineStop n l).map fun x => (n, x)) ≠ [] :=
    List.ne_nil_of_mem (List.mem_filterMap.mpr ⟨l, hl, by rw [hx]; rfl⟩)
  rw [hostWrite_vault hr hv rfl, if_pos (by simpa using hsome)]
  exact ⟨rfl, rfl⟩

end

/-! ### The obligation -/

/-- Settles O54: a line that is rewritten becomes the engine's own, whose words and tags verify; and a path that has been verified is in
the cache, which is larger than a path. -/
theorem vaultMemory : Obligations.VaultMemory := by
  unfold Obligations.VaultMemory
  intro s n tw h i line w v q qs
  have hn := n.isLt
  refine ⟨fun ho hp => ?_, fun hu => ?_, fun k j hu => ?_, ⟨hostRaw_hostPut_self, fun hne => hostRaw_hostPut_ne hne⟩,
    fun hc => ⟨bumpLine_counter hc, bumpLine_mark hn hc⟩, fun hh => ⟨fun j hj => vaultStore_reads_back hh hj, fun ho hout => ?_⟩,
    fun hl ho => vaultStore_tagged hn hl ?_, fun hr hv hs => ⟨fun hp => ?_, fun hp => ?_⟩, fun hr hv hs => ?_, fun hr hv => ?_,
    fun _ => cachePath_badPath hn, fun hb hc => ?_, fun hb hc => ?_⟩
  · have hraw : s.hostRaw w = s.cipherWord n w := by
      rw [State.hostRaw, if_neg (by simpa using ho), hp]
      rfl
    rw [hraw, State.cipherWord, BitVec.xor_assoc, BitVec.xor_self, BitVec.xor_zero]
  · exact Bool.or_eq_true_iff.mpr (.inl hu)
  · exact Bool.or_eq_true_iff.mpr (.inl hu)
  · exact vaultStore_keeps (by simpa using ho) hout
  · simpa using ho
  · exact (hostWrite_runs hr hv hs).trans (if_neg (by simpa using hp))
  · exact (hostWrite_runs hr hv hs).trans (if_pos (by simpa using hp))
  · exact hostWrite_stopped hr hv hs
  · rw [State.hostWrite, hr, hv]
  · rw [State.lineStop, hb]
    exact if_neg (by omega)
  · rw [State.lineStop, hb]
    exact if_pos hc

end Sys2Proof.Machine
end

section
/-! Messages to the Referee: which are served, and their refusals (R376 to R380): O56. -/

namespace Sys2Proof.Machine

variable {s t u : State} {path : RPath} {op : Nat} {tag : BitVec 16} {a : W64} {payload : List Byte} {r : Reply} {role : Role}

/-! ### A message marks its path busy -/

/-- The sideband or the slot of a message is busy until the answer. -/
def State.marked (s : State) (path : RPath) : State :=
  match path with
  | .sideband m => { s with ref := { s.ref with vdmOutstanding := setBits s.ref.vdmOutstanding m m 1 } }
  | .mailbox k => { s with ref := { s.ref with slots := s.ref.slots.set k { s.ref.slots[k] with state := 1 } } }
  | _ => s

/-- Nothing else changes. -/
structure MarkedOnly (s t : State) : Prop where
  rest : t = { s with ref := { s.ref with vdmOutstanding := t.ref.vdmOutstanding, slots := t.ref.slots } }
  owner : ∀ k : Fin 4, t.ref.slots[k].owner = s.ref.slots[k].owner

theorem marked_only : MarkedOnly s (s.marked path) := by
  cases path with
  | sideband m => exact ⟨rfl, fun _ => rfl⟩
  | smbus => exact ⟨rfl, fun _ => rfl⟩
  | tell e => exact ⟨rfl, fun _ => rfl⟩
  | mailbox k =>
    refine ⟨rfl, fun j => ?_⟩
    by_cases hjk : k = j
    · subst hjk
      simp [State.marked]
    · have hne : k.val ≠ j.val := fun h => hjk (Fin.ext h)
      simp [State.marked, hne]

section
variable (h : MarkedOnly s t)
include h

theorem MarkedOnly.regs : t.regs = s.regs := by rw [h.rest]
theorem MarkedOnly.engines : t.engines = s.engines := by rw [h.rest]
theorem MarkedOnly.fab : t.fab = s.fab := by rw [h.rest]

theorem MarkedOnly.fld {f : Fld} {ix : List Nat} : t.fld f ix = s.fld f ix := by rw [State.fld, State.reg, h.regs, ← State.reg, ← State.fld]

theorem MarkedOnly.pathSession : t.pathSession path = s.pathSession path := by
  cases path with
  | sideband m => rfl
  | smbus => rfl
  | tell e => simp only [State.pathSession, h.engines]
  | mailbox k => simp only [State.pathSession, h.owner]

theorem MarkedOnly.pathRole : t.pathRole path = s.pathRole path := by
  have hsess {ix : Nat} : t.sessRole ix = s.sessRole ix := by
    rw [State.sessRole, State.sessRole, State.flag, State.flag, h.fld, h.fld]
  cases path with
  | tell e => simp only [State.pathRole, h.engines]
  | _ =>
    unfold State.pathRole
    dsimp only
    rw [h.pathSession]
    simp only [hsess, h.fld]

end

/-! ### Messages that are served -/

/-- The Referee serves messages, the module of the path has none outstanding, and its slot is held. -/
structure Heeded (s : State) (path : RPath) : Prop where
  awake : s.ref.bothFailed = false
  module_ : ∀ m, path = .sideband m → s.ref.vdmOutstanding.getLsbD m = false
  slot : ∀ k, path = .mailbox k → s.ref.slots[k].owner ≠ none

theorem takeOp_dead (h : s.ref.bothFailed = true) : s.takeOp path op tag a payload = s := if_pos h

section
variable (h : s.ref.bothFailed = false)
include h

theorem takeOp_busy {m : Module} (hm : s.ref.vdmOutstanding.getLsbD m = true) :
    s.takeOp (.sideband m) op tag a payload = { s with ref := { s.ref with
      answers := s.ref.answers ++ [replyAnswer (.sideband m) op tag a s.notNow] } } :=
  (if_neg (Bool.eq_false_iff.mp h)).trans (if_pos hm)

theorem takeOp_unheld {k : Fin 4} (hk : s.ref.slots[k].owner = none) : s.takeOp (.mailbox k) op tag a payload = s :=
  (if_neg (Bool.eq_false_iff.mp h)).trans (if_pos (Option.isNone_iff_eq_none.mpr hk))

end

theorem Heeded.takeOp (h : Heeded s path) : s.takeOp path op tag a payload = (s.marked path).serveOp path op tag a payload := by
  obtain ⟨hawake, hmodule, hslot⟩ := h
  have hup := Bool.eq_false_iff.mp hawake
  cases path with
  | sideband m => exact (if_neg hup).trans (if_neg (Bool.eq_false_iff.mp (hmodule m rfl)))
  | mailbox k => exact (if_neg hup).trans (if_neg (mt Option.isNone_iff_eq_none.mp (hslot k rfl)))
  | smbus => exact if_neg hup
  | tell e => exact if_neg hup

/-- An operation whose answer comes at once. -/
theorem Heeded.answers (h : Heeded s path) (hr : (s.marked path).refRun path op tag a payload = now r) :
    s.takeOp path op tag a payload = r.st.sendAnswer (replyAnswer path op tag a r) := by
  rw [h.takeOp, State.serveOp, hr]
  rfl

/-- One whose answer comes later. -/
theorem Heeded.defers (h : Heeded s path) (hr : (s.marked path).refRun path op tag a payload = deferred u) :
    s.takeOp path op tag a payload = u := by
  rw [h.takeOp, State.serveOp, hr]
  rfl

/-! ### Form and right -/

theorem refRun_badForm (hf : opForm path op a payload = false) : t.refRun path op tag a payload = now t.badArg :=
  if_pos (by rw [hf]; rfl)

section
variable (hf : opForm path op a payload = true)
include hf

theorem refRun_unbound (hr : t.pathRole path = none) (hs : isSessionOp op = false) : t.refRun path op tag a payload = now t.deny := by
  rw [State.refRun, if_neg (by rw [hf]; decide), hr]
  exact if_neg (by rw [hs]; decide)

theorem refRun_noRight (hr : t.pathRole path = some role) (hn : opRight op a role = false) :
    t.refRun path op tag a payload = now t.deny := by
  rw [State.refRun, if_neg (by rw [hf]; decide), hr]
  exact if_neg (by rw [hn]; decide)

theorem refRun_may (hr : t.pathRole path = some role) (hm : opRight op a role = true) :
    t.refRun path op tag a payload = t.carryOp path op tag a payload := by
  rw [State.refRun, if_neg (by rw [hf]; decide), hr]
  exact if_pos hm

/-- The operations on sessions need no role of the path's own. -/
theorem refRun_session (hs : isSessionOp op = true) (hm : ∀ role, opRight op a role = true) :
    t.refRun path op tag a payload = t.carryOp path op tag a payload := by
  rw [State.refRun, if_neg (by rw [hf]; decide)]
  cases hr : t.pathRole path with
  | none => exact if_pos hs
  | some role => exact if_pos (hm role)

end

/-! ### The obligation -/

theorem isSessionOp_iff : isSessionOp op = true ↔ 0x10 ≤ op ∧ op ≤ 0x13 := by simp [isSessionOp]

/-- Settles O56: a message whose path is free is served, and one without form or right is answered so and changes nothing else. -/
theorem refereeMessages : Obligations.RefereeMessages := by
  unfold Obligations.RefereeMessages
  intro s path tag arg payload t layer e
  dsimp only
  intro x hx
  have hexec : exec x.1 s = .next (s.takeOp path x.2.1 tag x.2.2.1 x.2.2.2).settleV := by
    simp only [List.mem_cons, List.not_mem_nil, or_false] at hx
    rcases hx with rfl | rfl | rfl | rfl | rfl | rfl | rfl | rfl | rfl | rfl | rfl | rfl | rfl | rfl | rfl | rfl | rfl | rfl | rfl | rfl |
      rfl | rfl | rfl <;> rfl
  have hgoes {u : State} (h : s.takeOp path x.2.1 tag x.2.2.1 x.2.2.2 = u) : exec x.1 s = .next u.settleV := by rw [hexec, h]
  have hrole := (marked_only (s := s) (path := path)).pathRole (path := path)
  refine ⟨fun hd => hgoes (takeOp_dead hd), fun m hm hd hb => ?_, fun k hk hd ho => ?_, fun ⟨hd, hm, hk⟩ => ⟨fun hf => ?_, fun hf hs hr => ?_,
    fun r hf hr hn => ?_⟩⟩
  · subst hm
    exact hgoes (takeOp_busy hd hb)
  · subst hk
    exact hgoes (takeOp_unheld hd ho)
  · exact hgoes (Heeded.answers ⟨hd, hm, hk⟩ (refRun_badForm hf))
  · have hplain : isSessionOp x.2.1 = false := Bool.eq_false_iff.mpr (mt isSessionOp_iff.mp hs)
    exact hgoes (Heeded.answers ⟨hd, hm, hk⟩ (refRun_unbound hf (hrole.trans hr) hplain))
  · exact hgoes (Heeded.answers ⟨hd, hm, hk⟩ (refRun_noRight hf (hrole.trans hr) hn))

end Sys2Proof.Machine
end

section
/-! The Referee's operations under a session or program that may ask for them (R378, R380, R381, R386 to R389): O57. -/

namespace Sys2Proof.Machine

variable {s t u : State} {path : RPath} {op n : Nat} {tag : BitVec 16} {a : W64} {payload : List Byte} {r : Reply} {role : Role} {e : Eng}

/-! ### What a reset's ARG names -/

theorem towerArg : ∀ x : Fin 4, resetScope (BitVec.ofNat 64 (2 + 16 * x)) = 2 ∧ resetTowerNo (BitVec.ofNat 64 (2 + 16 * x)) = x := by decide

theorem layerArg : ∀ (x : Fin 4) (l : Fin 8), resetScope (BitVec.ofNat 64 (3 + 16 * x + 256 * l)) = 3 ∧
    resetTowerNo (BitVec.ofNat 64 (3 + 16 * x + 256 * l)) = x ∧ resetLayerNo (BitVec.ofNat 64 (3 + 16 * x + 256 * l)) = l := by decide

theorem engineArg : ∀ e : Fin 16, resetScope (BitVec.ofNat 64 (4 + 65536 * e)) = 4 ∧
    resetTowerNo (BitVec.ofNat 64 (4 + 65536 * e)) = e / 4 ∧ bitsOf (BitVec.ofNat 64 (4 + 65536 * e)) 19 16 = e := by decide

theorem layerArg_outside {x : Fin 4} {l : Fin 8} (h : 6 ≤ l.val) :
    opForm path 5 (BitVec.ofNat 64 (3 + 16 * x + 256 * l)) [] = false := by
  have hbad : argOk 5 (BitVec.ofNat 64 (3 + 16 * x + 256 * l)) = false := by
    obtain ⟨hs, -, hl⟩ := layerArg x l
    simp only [argOk, hs, hl]
    simp
    omega
  simp [opForm, argBits, hbad]

/-! ### RESET -/

theorem opReset_covered (h : t.resetCovered a = true) :
    t.opReset path tag a = deferred { t with ref := { t.ref with resetWaits := t.ref.resetWaits ++ [(path, tag, a)] } } := if_pos h

section
variable (h : t.resetCovered a = false)
include h

theorem opReset_package (ha : resetScope a = 1) : t.opReset path tag a = now ((t.recordOp path 7 a 0 0).packageReset).done := by
  rw [State.opReset, if_neg (Bool.eq_false_iff.mp h), ha]
  rfl

theorem opReset_tower {x : Fin 4} (ha : resetScope a = 2) (hx : resetTowerNo a = x) :
    t.opReset path tag a = now ((t.recordOp path 7 a 0 0).towerReset x).done := by
  rw [State.opReset, if_neg (Bool.eq_false_iff.mp h), ha, hx, Fin.ofNat_val_eq_self]
  rfl

theorem opReset_layer {x : Fin 4} (ha : resetScope a = 3) (hx : resetTowerNo a = x) (hn : resetLayerNo a = n) :
    t.opReset path tag a = if n = 0 then now ((t.recordOp path 7 a 0 0).towerReset x).done
      else if (layerDomains x n).all fun d => t.pd d == 0 then now { resp := .domainOff, st := t }
      else now ((t.recordOp path 7 a 0 0).beginLayer x n).done := by
  rw [State.opReset, if_neg (Bool.eq_false_iff.mp h), ha, hx, hn, Fin.ofNat_val_eq_self]
  rfl

theorem opReset_engine (ha : resetScope a = 4) (he : bitsOf a 19 16 = e) :
    t.opReset path tag a = now ((t.recordOp path 0x0F (BitVec.ofNat 64 e.val) 0 0).resetEngine e).done := by
  rw [State.opReset, if_neg (Bool.eq_false_iff.mp h), ha, he, Fin.ofNat_val_eq_self]
  rfl

end

theorem resetCovered_package (h : resetScope a = 1) : t.resetCovered a = t.ref.packageBusy := by
  rw [State.resetCovered, h]
  rfl

theorem resetCovered_tower (h : resetScope a = 2 ∨ resetScope a = 4) : t.resetCovered a = t.inTowerReset (resetTowerNo a) := by
  obtain h | h := h <;> rw [State.resetCovered, h] <;> rfl

theorem resetCovered_layer {x : Nat} (h : resetScope a = 3) (hx : resetTowerNo a = x) (hn : resetLayerNo a = n) :
    t.resetCovered a = (t.inTowerReset x || (n != 0 && t.ref.resets.any fun r => r.tower.val == x && r.layer == some n)) := by
  rw [State.resetCovered, h, hx, hn]
  rfl

/-! ### DUMP_ENGINE -/

theorem opDump_own (hw : (t.eng (dumpEng a)).waiting ≠ none) (hp : path = .tell (dumpEng a)) :
    t.opDump path tag a = deferred (t.dumpNow path tag a true) := if_pos ⟨hp, Option.isSome_iff_ne_none.mpr hw⟩

theorem opDump_waits (hw : (t.eng (dumpEng a)).waiting ≠ none) (hp : path ≠ .tell (dumpEng a)) (hf : (t.eng (dumpEng a)).frozen = false) :
    t.opDump path tag a = deferred { t with ref := { t.ref with dumps := t.ref.dumps ++ [(path, tag, a)] } } :=
  (if_neg fun h => hp h.1).trans (if_pos (by rw [hf, Option.isSome_iff_ne_none.mpr hw]; rfl))

theorem opDump_now (h : (t.eng (dumpEng a)).waiting = none ∨ (path ≠ .tell (dumpEng a) ∧ (t.eng (dumpEng a)).frozen = true)) :
    t.opDump path tag a = deferred (t.dumpNow path tag a false) := by
  obtain hw | ⟨hp, hf⟩ := h
  · exact (if_neg fun h => by rw [hw] at h; simp at h).trans (if_neg (by rw [hw]; simp))
  · exact (if_neg fun h => hp h.1).trans (if_neg (by rw [hf]; simp))

/-! ### MC_LOAD -/

theorem opMcLoad_unfetched {x : Resp} {bs : List Byte} (hx : x ≠ .ok) (h : t.fetchImage a.toNat = (x, bs, u)) :
    t.opMcLoad path a = { resp := x, st := u } := by
  unfold State.opMcLoad
  rw [h]
  cases x
  case ok => exact absurd rfl hx
  all_goals rfl

theorem opMcLoad_bad {bs : List Byte} (h : t.fetchImage a.toNat = (.ok, bs, u)) (hb : bootCheck bs ≠ 0) :
    t.opMcLoad path a = (u.recordBoot (u.pathSession path) (((u.pathRole path).map roleCode).getD 0) (bootCheck bs) bs false).badArg := by
  unfold State.opMcLoad
  rw [h]
  dsimp only
  split
  · exact absurd ‹_› hb
  · rfl

theorem opMcLoad_good {bs : List Byte} (h : t.fetchImage a.toNat = (.ok, bs, u)) (hb : bootCheck bs = 0) :
    t.opMcLoad path a = (({ u with mc := if u.mc.active then { u.mc with verA := Config.microcodeVersion bs, aValid := true }
      else { u.mc with verB := Config.microcodeVersion bs, bValid := true } } : State).recordBoot (u.pathSession path)
        (((u.pathRole path).map roleCode).getD 0) 0 bs false).done := by
  unfold State.opMcLoad
  rw [h]
  dsimp only
  rw [hb]
  by_cases hactive : u.mc.active = true
  · rw [if_pos hactive, if_pos hactive]
    rfl
  · rw [if_neg hactive, if_neg hactive]
    rfl

/-! ### The obligation -/

section
variable (h : MarkedOnly s t)
include h

theorem MarkedOnly.eng : t.eng e = s.eng e := by rw [State.eng, State.eng, h.engines]
theorem MarkedOnly.packageBusy : t.ref.packageBusy = s.ref.packageBusy := by rw [h.rest]
theorem MarkedOnly.resets : t.ref.resets = s.ref.resets := by rw [h.rest]
theorem MarkedOnly.powerLock : t.ref.powerLock = s.ref.powerLock := by rw [h.rest]
theorem MarkedOnly.vinRemoved : t.ref.vinRemoved = s.ref.vinRemoved := by rw [h.rest]
theorem MarkedOnly.sbState : t.ref.sbState = s.ref.sbState := by rw [h.rest]
theorem MarkedOnly.bootFetch : t.ref.bootFetch = s.ref.bootFetch := by rw [h.rest]
theorem MarkedOnly.bootOpen : t.bootOpen = s.bootOpen := by rw [h.rest]; rfl
theorem MarkedOnly.fuseWords : t.ref.fuseWords = s.ref.fuseWords := by rw [h.rest]
theorem MarkedOnly.inTowerReset : t.inTowerReset n = s.inTowerReset n := by rw [State.inTowerReset, State.inTowerReset, h.resets]
theorem MarkedOnly.fuseWindow : t.fuseWindow = s.fuseWindow := by rw [State.fuseWindow, State.fuseWindow, h.fld, h.fld]
theorem MarkedOnly.pd : t.pd n = s.pd n := h.fld
theorem MarkedOnly.lapsRun : t.lapsRun = s.lapsRun := by rw [State.lapsRun, State.lapsRun, h.fab]

end

/-- Settles O57: an operation that its path may ask for is carried out on the state in which the path is busy, and that state differs
from the one before it in nothing that an operation looks at. -/
theorem refereeOperations : Obligations.RefereeOperations := by
  unfold Obligations.RefereeOperations
  intro s path tag arg payload role t layer e hd hm hk m
  have hm' : m = s.marked path := rfl
  clear_value m
  subst hm'
  have hheed : Heeded s path := ⟨hd, hm, hk⟩
  have hmark := marked_only (s := s) (path := path)
  have hrun {op : Nat} {a : W64} {pay : List Byte} (hmay : opForm path op a pay = true ∧ s.pathRole path = some role ∧ opRight op a role = true) :
      (s.marked path).refRun path op tag a pay = (s.marked path).carryOp path op tag a pay := by
    obtain ⟨hf, hr, hright⟩ := hmay
    exact refRun_may hf (hmark.pathRole.trans hr) hright
  have hanswers {c : Instr} {op : Nat} {a : W64} {pay : List Byte} {r : Reply} (hexec : exec c s = .next (s.takeOp path op tag a pay).settleV)
      (hmay : opForm path op a pay = true ∧ s.pathRole path = some role ∧ opRight op a role = true)
      (hr : (s.marked path).carryOp path op tag a pay = now r) : exec c s = .next (r.st.sendAnswer (replyAnswer path op tag a r)).settleV := by
    rw [hexec, hheed.answers ((hrun hmay).trans hr)]
  have hwaits {c : Instr} {op : Nat} {a : W64} {pay : List Byte} {u : State} (hexec : exec c s = .next (s.takeOp path op tag a pay).settleV)
      (hmay : opForm path op a pay = true ∧ s.pathRole path = some role ∧ opRight op a role = true)
      (hr : (s.marked path).carryOp path op tag a pay = deferred u) : exec c s = .next u.settleV := by
    rw [hexec, hheed.defers ((hrun hmay).trans hr)]
  have hsession {c : Instr} {op : Nat} {pay : List Byte} {r : Reply} (hexec : exec c s = .next (s.takeOp path op tag arg pay).settleV)
      (hf : opForm path op arg pay = true) (hs : isSessionOp op = true) (hright : ∀ role, opRight op arg role = true)
      (hr : (s.marked path).carryOp path op tag arg pay = now r) :
      exec c s = .next (r.st.sendAnswer (replyAnswer path op tag arg r)).settleV := by
    rw [hexec, hheed.answers ((refRun_session hf hs hright).trans hr)]
  obtain ⟨hls, hlt, hln⟩ := layerArg t layer
  have htower : (s.marked path).resetCovered (BitVec.ofNat 64 (2 + 16 * t)) = s.inTowerReset t := by
    rw [resetCovered_tower (.inl (towerArg t).1), (towerArg t).2, hmark.inTowerReset]
  have hengine : (s.marked path).resetCovered (BitVec.ofNat 64 (4 + 65536 * e)) = s.inTowerReset (e / 4) := by
    rw [resetCovered_tower (.inr (engineArg e).1), (engineArg e).2.1, hmark.inTowerReset]
  have hlayer : (s.marked path).resetCovered (BitVec.ofNat 64 (3 + 16 * t + 256 * layer)) =
      (s.inTowerReset t || (layer.val != 0 && s.ref.resets.any fun r => r.tower.val == t && r.layer == some layer.val)) := by
    rw [resetCovered_layer hls hlt hln, hmark.inTowerReset, hmark.resets]
  refine ⟨fun hmay => hanswers rfl hmay ?_, fun hmay => hanswers rfl hmay rfl, fun hmay => hanswers rfl hmay rfl,
    fun hmay => hanswers rfl hmay rfl, fun hmay => ⟨fun hb => ?_, fun hb => ?_⟩, fun hmay => ⟨fun hb => ?_, fun hb => ?_⟩, fun hl => ?_,
    fun hmay => ⟨fun hb => ?_, fun hb hl => ?_, fun hb hl hh => ⟨fun ho => ?_, fun ho => ?_⟩⟩, fun hmay => ⟨fun hb => ?_, fun hb => ?_⟩,
    fun hmay => hanswers rfl hmay ?_, fun hmay => ⟨fun hw => ?_, fun hw hp => ?_, fun hw hp hf => ?_, fun hw hp hf => ?_⟩, fun hmem => ?_,
    fun hmem => ?_, fun hmay => hanswers rfl hmay rfl, fun hmay => hanswers rfl hmay rfl, fun hf => hsession rfl hf rfl (fun _ => rfl) rfl,
    fun hf => hsession rfl hf rfl (fun _ => rfl) rfl, fun hf => hsession rfl hf rfl (fun _ => rfl) rfl,
    fun hf => hsession rfl hf rfl (fun _ => rfl) rfl, fun hmay => ⟨fun hl => ?_, fun hl => ?_⟩,
    fun hmay => ⟨fun r bs u hr hf => ?_, fun bs u hf => ⟨fun hb => ?_, fun hb => ?_⟩⟩, fun hmay => ⟨fun ho hn => ?_, fun hn => ?_⟩,
    fun hmay => ⟨fun hs => ?_, fun hs => ?_⟩, fun hmay => ⟨fun hw => ?_, fun hw => ?_⟩, fun hmay => hanswers rfl hmay rfl,
    fun hmay => ⟨fun hi => ?_, fun hi hf => ?_⟩⟩
  · rw [← hmark.sbState]
    rfl
  · exact hwaits rfl hmay (opReset_covered ((resetCovered_package rfl).trans (hmark.packageBusy.trans hb)))
  · exact hanswers rfl hmay (opReset_package ((resetCovered_package rfl).trans (hmark.packageBusy.trans hb)) rfl)
  · exact hwaits rfl hmay (opReset_covered (htower.trans hb))
  · exact hanswers rfl hmay (opReset_tower (htower.trans hb) (towerArg t).1 (towerArg t).2)
  · exact (congrArg (fun u => Host.Outcome.next (State.settleV u)) (hheed.answers (refRun_badForm (layerArg_outside hl))))
  · exact hwaits rfl hmay (opReset_covered (hlayer.trans (by simpa using hb)))
  · refine hanswers rfl hmay ((opReset_layer (hlayer.trans ?_) hls hlt hln).trans (if_pos hl))
    simp [hb, hl]
  · refine hanswers rfl hmay ((opReset_layer (hlayer.trans ?_) hls hlt hln).trans ((if_neg hl).trans (if_pos ?_)))
    · simpa [hb] using fun _ => hh
    · simpa [hmark.pd] using ho
  · refine hanswers rfl hmay ((opReset_layer (hlayer.trans ?_) hls hlt hln).trans ((if_neg hl).trans (if_neg ?_)))
    · simpa [hb] using fun _ => hh
    · simpa [hmark.pd] using ho
  · exact hwaits rfl hmay (opReset_covered (hengine.trans hb))
  · exact hanswers rfl hmay (opReset_engine (hengine.trans hb) (engineArg e).1 (engineArg e).2.2)
  · rw [← hmark.lapsRun]
    rfl
  · exact hwaits rfl hmay (opDump_now (.inl (by rwa [hmark.eng])))
  · exact hwaits rfl hmay (opDump_own (by rwa [hmark.eng]) hp)
  · exact hwaits rfl hmay (opDump_now (.inr ⟨hp, by rwa [hmark.eng]⟩))
  · exact hwaits rfl hmay (opDump_waits (by rwa [hmark.eng]) hp (by rwa [hmark.eng]))
  · exact if_pos (List.contains_iff_mem.mpr hmem)
  · exact if_neg (mt List.contains_iff_mem.mp hmem)
  · exact hanswers rfl hmay (congrArg now (if_pos (by rw [hmark.powerLock, hl]; rfl)))
  · refine hanswers rfl hmay (congrArg now ((if_neg (by rw [hmark.powerLock, hl]; decide)).trans ?_))
    rw [← hmark.vinRemoved]
    rfl
  · exact hanswers rfl hmay (congrArg now (opMcLoad_unfetched hr hf))
  · exact hanswers rfl hmay (congrArg now (opMcLoad_bad hf hb))
  · exact hanswers rfl hmay (congrArg now (opMcLoad_good hf hb))
  · exact hanswers rfl hmay (congrArg now (if_neg (by rw [hmark.bootOpen, hmark.bootFetch, ho, hn]; decide)))
  · refine hanswers rfl hmay (congrArg now (if_pos ?_))
    rw [hmark.bootOpen, hmark.bootFetch, Bool.or_eq_true, Bool.not_eq_true', Option.isSome_iff_ne_none]
    exact hn
  · exact hanswers rfl hmay (congrArg now (if_pos (by rwa [hmark.sbState])))
  · exact hanswers rfl hmay (congrArg now (if_neg (by rw [hmark.sbState]; exact not_not.mpr hs)))
  · exact hanswers rfl hmay (congrArg now (if_pos (by rw [hmark.fuseWindow, hw]; rfl)))
  · refine hanswers rfl hmay (congrArg now ((if_neg (by rw [hmark.fuseWindow, hw]; decide)).trans ?_))
    rw [← hmark.fuseWords]
    rfl
  · refine hanswers rfl hmay (congrArg now (if_neg ?_))
    rw [hmark.eng, Bool.not_eq_true']
    rintro ⟨h1, h2⟩
    obtain hi | hi := hi
    · exact h1 hi
    · rw [hi] at h2
      exact absurd h2 (by decide)
  · exact hanswers rfl hmay (congrArg now (if_pos ⟨by rwa [hmark.eng], by rw [hmark.eng, hf]; rfl⟩))

end Sys2Proof.Machine
end

section
/-! The machine right after reset: O59. -/

namespace Sys2Proof.Machine

theorem reset_reg (r : RegName) (ix : List Nat) : State.reset.reg r ix = resetReg r ix := BitVec.zero_xor

theorem reset_fld (f : Fld) (ix : List Nat) : State.reset.fld f ix = bitsOf (resetReg f.reg ix) f.hi f.lo := by
  rw [State.fld, reset_reg]

theorem reset_eng (e : Eng) : State.reset.eng e = {} := by
  simp [State.eng, State.reset]

theorem reset_get (r : Gpr) : ({} : Engine).get r = 0 := by
  simp [Engine.get]

theorem reset_slots (q : Nat) : State.reset.slots q = [] := rfl

/-- A queue's binding is zero at reset: it is not valid. -/
theorem reset_qValid (q : Nat) : State.reset.qValid q = false := by
  have h : State.reset.fld F.Q_BIND.VALID [q] = 0 := by rw [reset_fld]; rfl
  simp [State.qValid, State.flag, h]

theorem reset_sessOpen : ∀ n : Fin 64, bitsOf (resetReg .SESS [n]) 0 0 = if n.val % 16 = 0 then 1 else 0 := by decide

theorem reset_bankKind (t b : Nat) : State.reset.fld F.BANK_OWNER.KIND [t, b] = if 252 ≤ b then 2 else 0 := by
  rw [reset_fld]
  change bitsOf (BitVec.ofNat 64 (if 252 ≤ b then 2 else 0)) 1 0 = _
  split <;> rfl

/-- At reset only domains 0 and 7 run. -/
theorem reset_towerPd (t : Nat) : State.reset.pd (pdNE t) = 0 := by
  rw [State.pd, reset_fld]
  change bitsOf (BitVec.ofNat 64 (if pdNE t = 0 ∨ pdNE t = 7 then 0x101 else 0)) F.PD_STAT.NOW.hi F.PD_STAT.NOW.lo = 0
  rw [if_neg (by unfold pdNE; omega)]
  rfl

/-- Settles O59: the state at reset is the empty one, so that every stored value is the reset value of its copy. -/
theorem resetValues : Obligations.ResetValues := by
  refine ⟨fun r ix _ => reset_reg r ix, fun e r => ?_, rfl, rfl, rfl, fun t => ?_, ?_, ?_, fun n => ?_, fun q => ⟨?_, ?_, ?_⟩,
    fun b t => reset_bankKind t b, State.reset_arraysWf, rfl⟩
  · rw [reset_eng]
    exact ⟨rfl, reset_get r, rfl, rfl, rfl, by decide⟩
  · exact reset_towerPd t
  · exact reset_fld _ _
  · exact reset_fld _ _
  · exact (reset_fld _ _).trans (reset_sessOpen n)
  · rw [State.items, reset_slots]; rfl
  · rw [State.producer, reset_qValid]; rfl
  · rw [State.consumer, reset_qValid]; rfl

end Sys2Proof.Machine
end

section
/-! What the parts of a reset keep: the canonical form of the memories, and every engine that is at rest. -/

namespace Sys2Proof.Machine

variable {s t u : State} {e : Eng}

/-- An engine at rest: it runs no program, waits for nothing, and its instruction scratchpad is empty. -/
def Engine.Resting (en : Engine) : Prop := en.state = .idle ∧ en.imem = [] ∧ en.waiting = none

/-- The resets in progress are those of `r`. -/
structure Referee.SameRuns (r r' : Referee) : Prop where
  resets : r'.resets = r.resets
  resetWaits : r'.resetWaits = r.resetWaits
  packageBusy : r'.packageBusy = r.packageBusy

/-- `t` keeps what is quiet in `s`: canonical memories stay canonical, engines at rest stay at rest, and no reset begins or ends. -/
structure Quiet (s t : State) : Prop where
  arrays : s.arraysWf = true → t.arraysWf = true
  rest : ∀ e, (s.eng e).Resting → (t.eng e).Resting
  runs : s.ref.SameRuns t.ref

theorem Referee.SameRuns.refl {r : Referee} : r.SameRuns r := ⟨rfl, rfl, rfl⟩

theorem Referee.SameRuns.trans {r r' r'' : Referee} (h : r.SameRuns r') (k : r'.SameRuns r'') : r.SameRuns r'' :=
  ⟨k.resets.trans h.resets, k.resetWaits.trans h.resetWaits, k.packageBusy.trans h.packageBusy⟩

theorem Quiet.refl : Quiet s s := ⟨id, fun _ => id, .refl⟩

theorem Quiet.trans (h : Quiet s t) (k : Quiet t u) : Quiet s u :=
  ⟨k.arrays ∘ h.arrays, fun e => k.rest e ∘ h.rest e, h.runs.trans k.runs⟩

/-- A step that touches neither the memories nor the engines. -/
theorem Quiet.of_eq (h : Quiet s t) (hm : u.mem = t.mem) (hs : u.standin = t.standin) (he : u.engines = t.engines)
    (hr : t.ref.SameRuns u.ref) : Quiet s u :=
  ⟨fun w => State.arraysWf_of_eq hm hs (h.arrays w), fun e r => by rw [State.eng, he]; exact h.rest e r, h.runs.trans hr⟩

/-- The same, for a state that is written out. -/
theorem Quiet.same
    {v_regs v_memBad v_memSoft v_standinBad v_standinSoft v_syndromes v_copies v_hostmem v_fab v_persona v_log v_qitems v_linkBad
    v_poolReserved v_bridges v_ports v_sent v_wire v_ownFrames v_chain v_vault v_ref v_mc v_tests v_rotations v_sweeps
    v_retryTests v_answers v_hostOut v_hostFails v_held v_holds v_lost v_fenceWait v_carried v_holdoff v_notifyDue v_pads
    v_parked v_pinNow v_trigPulse v_free v_pending} (h : Quiet s t)
    (h1 : v_ref.resets = t.ref.resets) (h2 : v_ref.resetWaits = t.ref.resetWaits)
    (h3 : v_ref.packageBusy = t.ref.packageBusy) :
    Quiet s ⟨v_regs, t.engines, t.mem, v_memBad, v_memSoft, t.standin, v_standinBad, v_standinSoft, v_syndromes, v_copies, v_hostmem,
      v_fab, v_persona, v_log, v_qitems, v_linkBad, v_poolReserved, v_bridges, v_ports, v_sent, v_wire, v_ownFrames, v_chain,
      v_vault, v_ref, v_mc, v_tests, v_rotations, v_sweeps, v_retryTests, v_answers, v_hostOut, v_hostFails, v_held, v_holds,
      v_lost, v_fenceWait, v_carried, v_holdoff, v_notifyDue, v_pads, v_parked, v_pinNow, v_trigPulse, v_free, v_pending⟩ :=
  h.of_eq rfl rfl rfl ⟨h1, h2, h3⟩

theorem Quiet.foldl {α : Type} {f : State → α → State} {l : List α} (hf : ∀ t x, Quiet s t → Quiet s (f t x)) (h : Quiet s t) :
    Quiet s (l.foldl f t) := by
  induction l generalizing t with
  | nil => exact h
  | cons x l ih => exact ih (hf _ _ h)

/-- An update of one engine that leaves it at rest where it is. -/
theorem Quiet.onEng {f : Engine → Engine} (hf : ∀ en : Engine, en.Resting → (f en).Resting) (h : Quiet s t) :
    Quiet s (t.onEng e f) := by
  refine ⟨h.arrays, fun e' r => ?_, h.runs⟩
  by_cases he : e' = e
  · subst he
    rw [State.eng_onEng]
    exact hf _ (h.rest _ r)
  · rw [State.eng_onEng_ne (Ne.symm he)]
    exact h.rest e' r

/-- An engine that was not at rest may be changed in any way. -/
theorem Quiet.onEng_awake {f : Engine → Engine} (hn : ¬ (s.eng e).Resting) (h : Quiet s t) : Quiet s (t.onEng e f) := by
  refine ⟨h.arrays, fun e' r => ?_, h.runs⟩
  have he : e' ≠ e := fun he => hn (he ▸ r)
  rw [State.eng_onEng_ne (Ne.symm he)]
  exact h.rest e' r

/-- What counts and sends events changes neither. -/
theorem Quiet.events (h : Quiet s t) (k : OnlyEvents t u) : Quiet s u := by
  refine ⟨fun w => State.arraysWf_of_eq k.mem (by rw [k.rest]) (h.arrays w), fun e r => ?_, h.runs.trans (k.ref ▸ .refl)⟩
  obtain ⟨h1, h2, h3⟩ := h.rest e r
  have hown := k.eng e
  exact ⟨(congrArg Engine.state hown).trans h1, (congrArg Engine.imem hown).trans h2, (congrArg Engine.waiting hown).trans h3⟩

theorem Engine.Resting.edge {en : Engine} {c : Nat} {m : W64 → Bool} (h : en.Resting) : (en.edge c m).Resting := by
  have hown := en.own_edge c m
  obtain ⟨h1, h2, h3⟩ := h
  exact ⟨(congrArg Engine.state hown).trans h1, (congrArg Engine.imem hown).trans h2, (congrArg Engine.waiting hown).trans h3⟩

theorem heldLoad_waits {en : Engine} {a : Nat} {x : Gpr × LoadForm × W64} (h : en.heldLoad a = some x) : ∃ w, en.waiting = some w := by
  unfold Engine.heldLoad at h
  split at h
  next heq => exact ⟨_, heq⟩
  · exact absurd h (by simp)

theorem memStore_engines {a : Nat} {q : Quad} : (t.memStore a q).engines = t.engines := by
  unfold State.memStore
  dsimp only
  split <;> split <;> rfl

theorem Quiet.memStore {a : Nat} {q : Quad} (h : Quiet s t) : Quiet s (t.memStore a q) := by
  refine ⟨fun w => State.memStore_arraysWf (h.arrays w), fun e r => ?_, h.runs.trans (FabRef.memStore.ref ▸ .refl)⟩
  rw [State.eng, memStore_engines]
  exact h.rest e r

/-! ### Ops -/

theorem Quiet.setReg {r ix v} (h : Quiet s t) : Quiet s (t.setReg r ix v) := h.of_eq rfl rfl rfl ⟨rfl, rfl, rfl⟩

theorem Quiet.put {f n ix} (h : Quiet s t) : Quiet s (t.put f n ix) := h.setReg

theorem Quiet.count {f ix n} (h : Quiet s t) : Quiet s (t.count f ix n) := h.put

theorem Quiet.orBits {f n ix} (h : Quiet s t) : Quiet s (t.orBits f n ix) := h.put

theorem Quiet.clearReg {r ix} (h : Quiet s t) : Quiet s (t.clearReg r ix) := h.setReg

theorem Quiet.clearBlock {first last} (h : Quiet s t) : Quiet s (t.clearBlock first last) := h.of_eq rfl rfl rfl ⟨rfl, rfl, rfl⟩

theorem Quiet.spend (h : Quiet s t) : Quiet s t.spend := h.of_eq rfl rfl rfl ⟨rfl, rfl, rfl⟩

theorem Quiet.record {cls session role code object d0 d1 pinned auto} (h : Quiet s t) :
    Quiet s (t.record cls session role code object d0 d1 pinned auto) := by
  unfold State.record
  exact h.spend.same rfl rfl rfl

theorem Quiet.recordAuto {cls object d0 pinned} (h : Quiet s t) : Quiet s (t.recordAuto cls object d0 pinned) := h.record

theorem Quiet.edge {cls m} (h : Quiet s t) : Quiet s (t.edge cls m) := h.events .edge

theorem Quiet.signalEngine {x b data} (h : Quiet s t) : Quiet s (t.signalEngine x b data) := h.events .signalEngine

theorem Quiet.answer {rq read resp len data} (h : Quiet s t) : Quiet s (t.answer rq read resp len data) := by
  grind [State.answer, Quiet.same]

/-! ### VaultMem -/

theorem Quiet.abandonVaults (h : Quiet s t) : Quiet s t.abandonVaults := h.of_eq rfl rfl rfl ⟨rfl, rfl, rfl⟩

theorem Quiet.hostWrite {tw w qs} (h : Quiet s t) : Quiet s (t.hostWrite tw w qs).2 := h.events .hostWrite

/-! ### Signals -/

theorem Quiet.hostEvent {type source index data} (h : Quiet s t) : Quiet s (t.hostEvent type source index data) := h.events .hostEvent

theorem Quiet.blockEvent {index base} (h : Quiet s t) : Quiet s (t.blockEvent index base) := h.events .blockEvent

theorem Quiet.tally {i ev k : Nat} (hu : i < 26) (h : Quiet s t) : Quiet s (t.tally i ev k) := h.events (.tally hu)

theorem Quiet.tallyLap {ev k} (h : Quiet s t) : Quiet s (t.tallyLap ev k) := h.events .tallyLap

/-! ### LaneCode -/

theorem Quiet.onPort {p f} (h : Quiet s t) : Quiet s (t.onPort p f) := h.same rfl rfl rfl

theorem Quiet.onLane {p i f} (h : Quiet s t) : Quiet s (t.onLane p i f) := by
  grind [State.onLane, Quiet.same, Quiet.onPort]

theorem Quiet.drive {p i y} (h : Quiet s t) : Quiet s (t.drive p i y) := by
  grind [State.drive, Quiet.same, Quiet.onLane]

theorem Quiet.stripe {p y} (h : Quiet s t) : Quiet s (t.stripe p y) := by
  grind [State.stripe, Quiet.same, Quiet.onPort, Quiet.drive]

theorem Quiet.everyLane {p w} (h : Quiet s t) : Quiet s (t.everyLane p w) := h.foldl fun _ _ h => h.drive

theorem Quiet.emit {p b} (h : Quiet s t) : Quiet s (t.emit p b) := by
  unfold State.emit
  refine Quiet.same ?_ rfl rfl rfl
  cases b with
  | frame f => exact h.foldl fun _ _ h => h.stripe
  | ack n c => exact h.stripe
  | nak n c => exact h.stripe
  | prbs i k => exact h.drive
  | echo b => exact h
  | align c l => exact h.everyLane
  | map e => exact h.everyLane
  | mapReq u sp => exact h.everyLane
  | train l => exact h.everyLane
  | idleEnter => exact h.everyLane

/-! ### QueueBase -/

theorem Quiet.setSlots {q xs} (h : Quiet s t) : Quiet s (t.setSlots q xs) := h.of_eq rfl rfl rfl ⟨rfl, rfl, rfl⟩

theorem Quiet.setCredits {q n} (h : Quiet s t) : Quiet s (t.setCredits q n) := by
  grind [State.setCredits, Quiet.same, Quiet.put]

theorem Quiet.grant {q n} (h : Quiet s t) : Quiet s (t.grant q n) := h.setCredits

theorem Quiet.watermark {q} (h : Quiet s t) : Quiet s (t.watermark q) := by
  grind [State.watermark, Quiet.put, Quiet.edge, Quiet.hostEvent]

theorem Quiet.storeItem {q x lines} (h : Quiet s t) : Quiet s (t.storeItem q x lines) := by
  grind [State.storeItem, Quiet.same, Quiet.foldl, Quiet.setSlots, Quiet.memStore]

theorem Quiet.appendItem {q x lines} (h : Quiet s t) : Quiet s (t.appendItem q x lines) := by
  grind [State.appendItem, Quiet.storeItem, Quiet.watermark, Quiet.put]

theorem Quiet.pushCell {q x lines} (h : Quiet s t) : Quiet s (t.pushCell q x lines) := by
  grind [State.pushCell, Quiet.appendItem, Quiet.setCredits]

theorem Quiet.autoPush {q : Nat} {x : Item} (h : Quiet s t) (he : t.autoPush q x = some u) : Quiet s u := by
  have hg : Quiet s (if t.credits q = 0 then t.grant q 1 else t) := by
    split
    · exact h.grant
    · exact h
  have hcases {v : State} (hv : Quiet s v) (he : (if v.credits q = 0 then none else some (v.pushCell q x)) = some u) : Quiet s u := by
    split at he
    · exact absurd he (by simp)
    · rw [← Option.some.inj he]
      exact hv.pushCell
  exact hcases hg he

theorem Quiet.errRecord {target type resp source queue addr} (h : Quiet s t) :
    Quiet s (t.errRecord target type resp source queue addr) := by
  unfold State.errRecord
  split
  · exact h.count
  · split
    · split
      next heq => exact h.autoPush heq
      next => exact h.count
    · exact h.count

theorem Quiet.postedFailed {rq resp queue addr} (h : Quiet s t) : Quiet s (t.postedFailed rq resp queue addr) := h.errRecord

theorem Quiet.setDelivered {f n} (h : Quiet s t) : Quiet s (t.setDelivered f n) := h.of_eq rfl rfl rfl ⟨rfl, rfl, rfl⟩

/-! ### LapBase -/

theorem Quiet.loseCommitted {x} (h : Quiet s t) : Quiet s (t.loseCommitted x) := by
  grind [State.loseCommitted, Quiet.same, Quiet.spend]

theorem Quiet.transmit {p w} (h : Quiet s t) : Quiet s (t.transmit p w) := by
  grind [State.transmit, Quiet.same, Quiet.onPort, Quiet.emit]

theorem Quiet.sendWith {src p dst body under} (h : Quiet s t) : Quiet s (t.sendWith src p dst body under) := by
  grind [State.sendWith, Quiet.same, Quiet.transmit, Quiet.onPort, Quiet.put]

theorem Quiet.sendFrom {src p dst body} (h : Quiet s t) : Quiet s (t.sendFrom src p dst body) := h.sendWith

theorem Quiet.sendFrame {p dst body} (h : Quiet s t) : Quiet s (t.sendFrame p dst body) := h.sendFrom

theorem Quiet.sendBaton {p kind b} (h : Quiet s t) : Quiet s (t.sendBaton p kind b) := by
  grind [State.sendBaton, Quiet.sendFrame]

theorem Quiet.batonDown {kind b} (h : Quiet s t) : Quiet s (t.batonDown kind b) := h.foldl fun _ _ h => h.sendBaton

theorem Quiet.batonUp {kind b} (h : Quiet s t) : Quiet s (t.batonUp kind b) := by
  grind [State.batonUp, Quiet.sendBaton]

theorem Quiet.trace {x ev kind entry lap data} (h : Quiet s t) : Quiet s (t.trace x ev kind entry lap data) := by
  unfold State.trace
  dsimp only
  split
  · exact h
  · split
    · split
      next heq => exact (h.spend.autoPush heq).count
      next => exact h.spend.count
    · exact h.count

theorem Quiet.traceAll {ev lap data} (h : Quiet s t) : Quiet s (t.traceAll ev lap data) := h.foldl fun _ _ h => h.trace

theorem Quiet.traceLast {ev data} (h : Quiet s t) : Quiet s (t.traceLast ev data) := h.foldl fun _ _ h => h.trace

theorem Quiet.logClosed (h : Quiet s t) : Quiet s t.logClosed := h.of_eq rfl rfl rfl ⟨rfl, rfl, rfl⟩

theorem Quiet.writeLog {rs} (h : Quiet s t) : Quiet s (t.writeLog rs) := by
  unfold State.writeLog
  dsimp only
  split
  · refine Quiet.logClosed (h.foldl fun t r h => ?_)
    cases hp : t.autoPush _ r with
    | none => exact h
    | some u => exact h.autoPush hp
  · exact h.count

theorem Quiet.latchTrig {i} (h : Quiet s t) : Quiet s (t.latchTrig i) := h.of_eq rfl rfl rfl ⟨rfl, rfl, rfl⟩

theorem Quiet.flushContexts (h : Quiet s t) : Quiet s t.flushContexts := h.of_eq rfl rfl rfl ⟨rfl, rfl, rfl⟩

theorem Quiet.ite {p : Prop} [Decidable p] (hp : p → Quiet s t) (hq : ¬ p → Quiet s u) : Quiet s (if p then t else u) := by
  split
  next h => exact hp h
  next h => exact hq h

theorem Quiet.applyWrite {r ix w v} (h : Quiet s t) : Quiet s (t.applyWrite r ix w v) := by
  unfold State.applyWrite
  split
  · dsimp only
    split
    · exact h.setReg.setReg.latchTrig
    · exact h.setReg
  · exact h.setReg.latchTrig
  · refine Quiet.ite (fun _ => Quiet.same ?_ rfl rfl rfl) fun _ => ?_
    · exact Quiet.ite (fun _ => h.setReg.same rfl rfl rfl) fun _ => h.setReg
    · exact Quiet.ite (fun _ => h.setReg.same rfl rfl rfl) fun _ => h.setReg
  · exact Quiet.ite (fun _ => h) fun _ => (h.setReg.same rfl rfl rfl).flushContexts
  · exact h.setReg

theorem Quiet.applyDue {due} (h : Quiet s t) : Quiet s (t.applyDue due) := by
  grind [State.applyDue, Quiet.same, Quiet.foldl, Quiet.applyWrite]

theorem Quiet.traceBench (h : Quiet s t) : Quiet s t.traceBench := h.traceLast

theorem Quiet.mcSwap (h : Quiet s t) : Quiet s t.mcSwap := by
  grind [State.mcSwap, Quiet.same, Quiet.recordAuto]

theorem Quiet.haltLaps {cause retryHalt uncommitted} (h : Quiet s t) : Quiet s (t.haltLaps cause retryHalt uncommitted) := by
  have hover : Quiet s (t.lapsOver cause) := h.of_eq rfl rfl rfl ⟨rfl, rfl, rfl⟩
  have hshow : Quiet s ((t.lapsOver cause).showHalt retryHalt) := Quiet.foldl (fun _ _ h => h.put) hover.put.put.put
  have htrace : Quiet s (((t.lapsOver cause).showHalt retryHalt).traceHalt cause uncommitted) :=
    Quiet.ite (fun _ => hshow.traceAll) fun _ => hshow.traceLast
  rw [haltLaps_eq]
  unfold State.applyAtHalt
  have hdue := Quiet.ite (p := (((t.lapsOver cause).showHalt retryHalt).traceHalt cause uncommitted).benchWaits)
    (fun _ => (htrace.applyDue (due := (· != .TRACE_CTRL))).traceBench) fun _ => htrace.applyDue (due := (· != .TRACE_CTRL))
  exact Quiet.edge (Quiet.ite (fun _ => hdue.mcSwap) fun _ => hdue)

theorem Quiet.raise {cause w} (h : Quiet s t) : Quiet s (t.raise cause w) := by
  unfold State.raise
  split
  · split
    · exact h
    · exact h.same rfl rfl rfl
  · exact h

theorem Quiet.tellRaised (h : Quiet s t) : Quiet s t.tellRaised := h.foldl fun _ _ h => h.setReg

theorem Quiet.discardLap (h : Quiet s t) : Quiet s t.discardLap := by
  grind [State.discardLap, Quiet.same, Quiet.foldl, Quiet.put]

theorem Quiet.noteScratch {cause w} (h : Quiet s t) : Quiet s (t.noteScratch cause w) := by
  unfold State.noteScratch
  dsimp only
  split
  · exact h.count.put.raise.tellRaised.tallyLap.traceAll.writeLog
  · exact h.count.put.raise.tellRaised.tallyLap.traceAll

theorem Quiet.scratchNow {cause w retry} (h : Quiet s t) : Quiet s (t.scratchNow cause w retry) := by
  grind [State.scratchNow, Quiet.same, Quiet.discardLap, Quiet.noteScratch, Quiet.haltLaps]

theorem Quiet.withdrawLap {w} (h : Quiet s t) : Quiet s (t.withdrawLap w) := by
  grind [State.withdrawLap, Quiet.writeLog, Quiet.haltLaps, Quiet.discardLap]

theorem Quiet.anchorScratch {cause origin w} (h : Quiet s t) : Quiet s (t.anchorScratch cause origin w) := by
  grind [State.anchorScratch, Quiet.same, Quiet.batonDown, Quiet.withdrawLap, Quiet.put, Quiet.scratchNow]

theorem Quiet.memberScratch {cause origin w} (h : Quiet s t) : Quiet s (t.memberScratch cause origin w) := by
  grind [State.memberScratch, Quiet.same, Quiet.tellRaised, Quiet.raise, Quiet.batonUp]

theorem Quiet.scratch {cause w} (h : Quiet s t) : Quiet s (t.scratch cause w) := by
  grind [State.scratch, Quiet.same, Quiet.tellRaised, Quiet.raise, Quiet.anchorScratch, Quiet.memberScratch, Quiet.scratchNow]

/-! ### EngineBase -/

theorem Quiet.postCompletion {x item} (h : Quiet s t) : Quiet s (t.postCompletion x item) := by
  grind [State.postCompletion, Quiet.pushCell, Quiet.errRecord]

theorem Quiet.endProgram {x kind cause resp value pc} (h : Quiet s t) : Quiet s (t.endProgram x kind cause resp value pc) := by
  unfold State.endProgram
  exact Quiet.onEng (fun _ hr => ⟨rfl, hr.2.1, rfl⟩) h.postCompletion

theorem Quiet.takeTrap {c : Trap} {resp : Byte} {i : Bool} {tval tpc : W64} (hn : ¬ (s.eng e).Resting) (h : Quiet s t) :
    Quiet s (t.takeTrap e c resp i tval tpc) := by
  have htally : Quiet s (t.tally (unitOfEngine e) 0x105) := h.events .tallyEng
  have hregs := htally.onEng_awake (f := fun en => en.trapRegs c resp i tval tpc) hn
  unfold State.takeTrap
  exact Quiet.ite (fun _ => hregs.endProgram) fun _ => hregs.onEng_awake hn

theorem Quiet.trap {c : Trap} {tval : W64} {resp : Resp} (hn : ¬ (s.eng e).Resting) (h : Quiet s t) :
    Quiet s (t.trap e c tval resp) := h.takeTrap hn

theorem Quiet.loadTrap {r : Resp} {a : W64} (hn : ¬ (s.eng e).Resting) (h : Quiet s t) : Quiet s (t.loadTrap e r a) := by
  unfold State.loadTrap
  split
  · exact h.trap hn
  · exact h.trap hn
  · exact h.trap hn

/-! ### Pins -/

theorem Quiet.release {k} (h : Quiet s t) : Quiet s (t.release k) := by
  grind [State.release, Quiet.put]

theorem Quiet.assertGsr (h : Quiet s t) : Quiet s t.assertGsr := by
  grind [State.assertGsr, Quiet.same, Quiet.foldl, Quiet.put, Quiet.release]

/-! ### Loader -/

theorem Quiet.onChan {x ch f} (h : Quiet s t) : Quiet s (t.onChan x ch f) := h.onEng fun _ hr => hr

theorem Quiet.chanDone {x ch} (h : Quiet s t) : Quiet s (t.chanDone x ch) := h.onEng fun _ hr => hr.edge

theorem Quiet.endChan {j result resp} (h : Quiet s t) : Quiet s (t.endChan j result resp) := by
  grind [State.endChan, Quiet.same, Quiet.onChan, Quiet.chanDone]

theorem Quiet.failAfter {j} (h : Quiet s t) : Quiet s (t.failAfter j) := by
  grind [State.failAfter, Quiet.same, Quiet.put]

theorem Quiet.recordLoad {j result frame} (h : Quiet s t) : Quiet s (t.recordLoad j result frame) := h.record

theorem Quiet.endLoad {result frame resp} (h : Quiet s t) : Quiet s (t.endLoad result frame resp) := by
  have hrecord {u : State} {j : Job} (h : Quiet s u) : Quiet s (if j.accepted then u.recordLoad j result frame else u) :=
    Quiet.ite (fun _ => h.recordLoad) fun _ => h
  have hfail {u : State} {j : Job} (h : Quiet s u) : Quiet s (if j.accepted && result != 0 then u.failAfter j else u) :=
    Quiet.ite (fun _ => h.failAfter) fun _ => h
  unfold State.endLoad
  split
  · exact h
  · exact (hfail (hrecord (h.same rfl rfl rfl).put.put.put.put)).endChan

theorem Quiet.failLoad {result} (h : Quiet s t) : Quiet s (t.failLoad result) := h.endLoad

theorem Quiet.failTransfer {r} (h : Quiet s t) : Quiet s (t.failTransfer r) := h.endLoad

theorem Quiet.abortLoad (h : Quiet s t) : Quiet s t.abortLoad := h.failLoad

/-! ### Repair -/

theorem Quiet.walk {x row target} (h : Quiet s t) : Quiet s (t.walk x row target) := by
  grind [State.walk, Quiet.same, Quiet.put]

/-! ### Relay -/

theorem Quiet.portEvent {p n} (h : Quiet s t) : Quiet s (t.portEvent p n) := by
  grind [State.portEvent, Quiet.setReg, Quiet.blockEvent]

theorem Quiet.portMirror {p} (h : Quiet s t) : Quiet s (t.portMirror p) := by
  grind [State.portMirror, Quiet.put]

theorem Quiet.latchEq {p i} (h : Quiet s t) : Quiet s (t.latchEq p i) := by
  grind [State.latchEq, Quiet.spend, Quiet.setReg]

theorem Quiet.latchPrbs {p i} (h : Quiet s t) : Quiet s (t.latchPrbs p i) := by
  grind [State.latchPrbs, Quiet.spend, Quiet.put]

theorem Quiet.lanesChange {p : Nat} {ls : List Nat} {change : State → State} (hc : ∀ {t}, Quiet s t → Quiet s (change t))
    (h : Quiet s t) : Quiet s (t.lanesChange p ls change) := by
  refine (hc (h.foldl fun _ _ h => h.latchPrbs)).foldl fun t x h => ?_
  split
  · split
    · exact h
    · exact h.emit
  · exact h

theorem Quiet.setLane {p i n} (h : Quiet s t) : Quiet s (t.setLane p i n) := by
  grind [State.setLane, Quiet.latchEq, Quiet.lanesChange, Quiet.put]

theorem Quiet.setMap {p f w} (h : Quiet s t) : Quiet s (t.setMap p f w) := by
  grind [State.setMap, Quiet.lanesChange, Quiet.put]

theorem Quiet.lapReadySet {p v} (h : Quiet s t) : Quiet s (t.lapReadySet p v) := h.put

theorem Quiet.holdUndecided (h : Quiet s t) : Quiet s t.holdUndecided := by
  grind [State.holdUndecided, Quiet.same, Quiet.put]

theorem Quiet.loseParent (h : Quiet s t) : Quiet s t.loseParent := by
  grind [State.loseParent, Quiet.scratchNow, Quiet.put]

theorem Quiet.losePartner {p} (h : Quiet s t) : Quiet s (t.losePartner p) := by
  grind [State.losePartner, Quiet.put, Quiet.haltLaps, Quiet.holdUndecided, Quiet.loseParent, Quiet.scratch]

theorem Quiet.forgetPort {p} (h : Quiet s t) : Quiet s (t.forgetPort p) := by
  unfold State.forgetPort
  dsimp only
  split
  · exact h.onPort.setMap.setMap.put.put.put.lapReadySet.put.put.losePartner
  · exact h.onPort.setMap.setMap.put.put.put.lapReadySet.put.put

theorem Quiet.setPortState {p n} (h : Quiet s t) : Quiet s (t.setPortState p n) := h.put

theorem Quiet.setLanes {p n} (h : Quiet s t) : Quiet s (t.setLanes p n) := by
  grind [State.setLanes, Quiet.foldl, Quiet.setLane]

theorem Quiet.leaveUp {p} (h : Quiet s t) : Quiet s (t.leaveUp p) := by
  grind [State.leaveUp, Quiet.portEvent, Quiet.forgetPort]

/-! ### RelayLanes -/

theorem Quiet.markLane {lane} (h : Quiet s t) : Quiet s (t.markLane lane) := by
  grind [State.markLane, Quiet.put]

theorem Quiet.groupDown {d} (h : Quiet s t) : Quiet s (t.groupDown d) := by
  grind [State.groupDown, Quiet.foldl, Quiet.leaveUp, Quiet.portMirror, Quiet.setLanes, Quiet.setPortState]

/-! ### Security -/

theorem Quiet.freeSlot {k} (h : Quiet s t) : Quiet s (t.freeSlot k) := by
  grind [State.freeSlot, Quiet.same, Quiet.foldl, Quiet.clearReg]

theorem Quiet.zeroiseVault (h : Quiet s t) : Quiet s t.zeroiseVault := by
  grind [State.zeroiseVault, Quiet.foldl, Quiet.setReg, Quiet.abandonVaults]

/-! ### Vault -/

theorem Quiet.haltMove {x ch r} (h : Quiet s t) : Quiet s (t.haltMove x ch r) := by
  grind [State.haltMove, Quiet.same, Quiet.chanDone, Quiet.onChan]

/-! ### Clocks -/

theorem Quiet.openGate {x b} (h : Quiet s t) : Quiet s (t.openGate x b) := by
  grind [State.openGate, Quiet.put]

theorem Quiet.askClose {x b} (h : Quiet s t) : Quiet s (t.askClose x b) := by
  grind [State.askClose, Quiet.put]

theorem Quiet.followGate {x b} (h : Quiet s t) : Quiet s (t.followGate x b) := by
  grind [State.followGate, Quiet.openGate, Quiet.askClose]

theorem Quiet.followGates (h : Quiet s t) : Quiet s t.followGates := by
  grind [State.followGates, Quiet.foldl, Quiet.followGate]

theorem Quiet.forceGates (h : Quiet s t) : Quiet s t.forceGates := by
  grind [State.forceGates, Quiet.put]

theorem Quiet.unforceGates (h : Quiet s t) : Quiet s t.unforceGates := by
  grind [State.unforceGates, Quiet.followGates, Quiet.put]

/-! ### Test -/

theorem Quiet.startTest {kind ra engine} (h : Quiet s t) : Quiet s (t.startTest kind ra engine) := by
  grind [State.startTest, Quiet.same, Quiet.put, Quiet.walk]

theorem Quiet.setSweep {w} (h : Quiet s t) : Quiet s (t.setSweep w) := h.of_eq rfl rfl rfl ⟨rfl, rfl, rfl⟩

theorem Quiet.putResult {x kind block engine repairs result} (h : Quiet s t) :
    Quiet s (t.putResult x kind block engine repairs result) := by
  grind [State.putResult, Quiet.put]

theorem Quiet.splitDone {engine} (h : Quiet s t) : Quiet s (t.splitDone engine) := by
  unfold State.splitDone
  split
  · exact h.onEng fun _ hr => hr.edge
  · exact h

theorem Quiet.checkReady (h : Quiet s t) : Quiet s t.checkReady := by
  grind [State.checkReady, Quiet.same, Quiet.unforceGates]

theorem Quiet.sweepEnds {x} (h : Quiet s t) : Quiet s (t.sweepEnds x) := by
  grind [State.sweepEnds, Quiet.same, Quiet.checkReady, Quiet.count, Quiet.putResult, Quiet.splitDone]

theorem Quiet.sweepTry {n : Nat} {x : Fin 4} {slot : TestSlot} (h : Quiet s t) : Quiet s (t.sweepTry x slot n) := by
  induction n generalizing t with
  | zero => exact h
  | succ n ih =>
    unfold State.sweepTry
    split
    · exact h
    · split
      · exact h.sweepEnds
      · split
        · exact ih h.setSweep
        · split
          · exact h.same rfl rfl rfl
          · exact h.startTest

theorem Quiet.sweepGoesOn {r result} (h : Quiet s t) : Quiet s (t.sweepGoesOn r result) := by
  grind [State.sweepGoesOn, Quiet.same, Quiet.sweepTry, Quiet.setSweep]

theorem Quiet.finishTest {r result} (h : Quiet s t) : Quiet s (t.finishTest r result) := by
  grind [State.finishTest, Quiet.same, Quiet.putResult, Quiet.splitDone, Quiet.sweepGoesOn]

theorem Quiet.setTest {r} (h : Quiet s t) : Quiet s (t.setTest r) := h.of_eq rfl rfl rfl ⟨rfl, rfl, rfl⟩

theorem Quiet.setPhase {r n} (h : Quiet s t) : Quiet s (t.setPhase r n) := by
  grind [State.setPhase, Quiet.same, Quiet.put]

theorem Quiet.beginCopyBack {r result} (h : Quiet s t) : Quiet s (t.beginCopyBack r result) := by
  grind [State.beginCopyBack, Quiet.same, Quiet.setPhase, Quiet.setTest]

theorem Quiet.abandonTest {r result} (h : Quiet s t) : Quiet s (t.abandonTest r result) := by
  grind [State.abandonTest, Quiet.same, Quiet.finishTest, Quiet.setPhase, Quiet.beginCopyBack, Quiet.setTest]

theorem Quiet.restoreBank {x b} (h : Quiet s t) : Quiet s (t.restoreBank x b) :=
  ⟨fun w => State.restoreBank_arraysWf (h.arrays w), h.rest, h.runs⟩

theorem Quiet.resetTest {r} (h : Quiet s t) : Quiet s (t.resetTest r) := by
  grind [State.resetTest, Quiet.finishTest, Quiet.setPhase, Quiet.restoreBank, Quiet.abandonTest]

theorem Quiet.resetTests {x} (h : Quiet s t) : Quiet s (t.resetTests x) := h.foldl fun _ _ h => h.resetTest

/-! ### PowerOff -/

theorem Quiet.resetEngine {x} (h : Quiet s t) : Quiet s (t.resetEngine x) := by
  unfold State.resetEngine
  refine Quiet.onEng (fun _ hr => ⟨rfl, hr.2.1, rfl⟩) ?_
  split
  · split
    · exact h.abortLoad
    · exact h
  · exact h

theorem Quiet.clearSpads {x} (h : Quiet s t) : Quiet s (t.clearSpads x) := h.onEng fun _ hr => ⟨hr.1, rfl, hr.2.2⟩

theorem Quiet.scratchHalt {cause} (h : Quiet s t) : Quiet s (t.scratchHalt cause) := by
  grind [State.scratchHalt, Quiet.haltLaps, Quiet.discardLap, Quiet.noteScratch]

theorem Quiet.losePersona (h : Quiet s t) : Quiet s t.losePersona := by
  unfold State.losePersona
  exact (h.same rfl rfl rfl).put.put.put.put.assertGsr

theorem Quiet.loseSecurity (h : Quiet s t) : Quiet s t.loseSecurity := by
  unfold State.loseSecurity
  exact h.zeroiseVault.clearReg.clearReg.clearReg.clearBlock.clearReg.same rfl rfl rfl

theorem Quiet.resetPinBank {b} (h : Quiet s t) : Quiet s (t.resetPinBank b) := by
  grind [State.resetPinBank, Quiet.same, Quiet.foldl, Quiet.clearReg]

theorem Quiet.cutChannels {m} (h : Quiet s t) : Quiet s (t.cutChannels m) := by
  grind [State.cutChannels, Quiet.foldl, Quiet.haltMove]

theorem Quiet.cutLoad {m} (h : Quiet s t) : Quiet s (t.cutLoad m) := by
  grind [State.cutLoad, Quiet.failTransfer]

theorem Quiet.mainbandDown {m} (h : Quiet s t) : Quiet s (t.mainbandDown m) := by
  grind [State.mainbandDown, Quiet.cutLoad, Quiet.cutChannels, Quiet.put]

theorem Quiet.loseHostChannel (h : Quiet s t) : Quiet s t.loseHostChannel := by
  grind [State.loseHostChannel, Quiet.same, Quiet.foldl, Quiet.mainbandDown, Quiet.clearBlock]

theorem Quiet.resetQueueManager (h : Quiet s t) : Quiet s t.resetQueueManager := by
  grind [State.resetQueueManager, Quiet.same, Quiet.foldl, Quiet.clearBlock, Quiet.put]

theorem Quiet.resetLapEngine (h : Quiet s t) : Quiet s t.resetLapEngine := by
  grind [State.resetLapEngine, Quiet.same, Quiet.losePersona, Quiet.clearBlock]

theorem Quiet.resetChain (h : Quiet s t) : Quiet s t.resetChain := by
  grind [State.resetChain, Quiet.same, Quiet.clearBlock]

theorem Quiet.resetT0 (h : Quiet s t) : Quiet s t.resetT0 := by
  grind [State.resetT0, Quiet.resetChain, Quiet.resetQueueManager, Quiet.resetLapEngine]

/-! ### Reset -/

theorem Quiet.refuse {rq op addr r} (h : Quiet s t) : Quiet s (t.refuse rq op addr r) := by
  unfold State.refuse
  split
  · exact h.answer
  · exact h.answer
  · exact h.answer
  · exact h.postedFailed
  · exact h.postedFailed
  · exact h
  · exact h.answer
  · exact h
  · exact h.answer

theorem Quiet.carrying {role : Role} {session : BitVec 16} {f : State → State} (hf : ∀ {t}, Quiet s t → Quiet s (f t))
    (h : Quiet s t) : Quiet s (t.carrying role session f) := (hf (h.same rfl rfl rfl)).same rfl rfl rfl

theorem Quiet.endHeld {x : Held} {r : Resp} (h : Quiet s t) : Quiet s (t.endHeld x r) := by
  have hawake {x : Waiting} {e : Eng} (hw : (t.eng e).waiting = some x) : ¬ (s.eng e).Resting :=
    fun hr => by simp [(h.rest e hr).2.2] at hw
  unfold State.endHeld
  split
  · split
    next heq =>
      obtain ⟨x, hx⟩ := heldLoad_waits heq
      exact h.loadTrap (hawake hx)
    · exact h
  · exact h.onEng fun _ hr => hr
  · split
    · exact h.haltMove
    · exact h
  · split
    next hw => exact h.spend.trap (hawake hw)
    · exact h
  · exact h
  · exact h.carrying fun h => h.refuse

theorem Quiet.dropHeld {ds} (h : Quiet s t) : Quiet s (t.dropHeld ds) := by
  grind [State.dropHeld, Quiet.same, Quiet.foldl, Quiet.endHeld]

theorem Quiet.tear {x} (h : Quiet s t) : Quiet s (t.tear x) := by
  grind [State.tear, Quiet.same, Quiet.haltLaps, Quiet.loseCommitted]

theorem Quiet.loseStaged {dies} (h : Quiet s t) : Quiet s (t.loseStaged dies) := by
  grind [State.loseStaged, Quiet.same, Quiet.put]

theorem Quiet.resetLoad {dies} (h : Quiet s t) : Quiet s (t.resetLoad dies) := by
  grind [State.resetLoad, Quiet.abortLoad, Quiet.loseStaged, Quiet.put]

theorem Quiet.clearLogic {die} (h : Quiet s t) : Quiet s (t.clearLogic die) := by
  grind [State.clearLogic, Quiet.same, Quiet.foldl, Quiet.setDelivered]

theorem Quiet.resetTowerRegs {x} (h : Quiet s t) : Quiet s (t.resetTowerRegs x) := by
  grind [State.resetTowerRegs, Quiet.foldl, Quiet.clearBlock, Quiet.put]

theorem Quiet.resetRelays {x} (h : Quiet s t) : Quiet s (t.resetRelays x) := by
  grind [State.resetRelays, Quiet.foldl, Quiet.groupDown, Quiet.onPort]

theorem Quiet.keepBadLanes {x} (h : Quiet s t) : Quiet s (t.keepBadLanes x) := by
  grind [State.keepBadLanes, Quiet.foldl, Quiet.markLane]

theorem Quiet.resetEngines {x} (h : Quiet s t) : Quiet s (t.resetEngines x) := by
  grind [State.resetEngines, Quiet.foldl, Quiet.clearSpads, Quiet.resetEngine]

theorem Quiet.resetTarget {x} (h : Quiet s t) : Quiet s (t.resetTarget x) := by
  grind [State.resetTarget, Quiet.foldl, Quiet.resetPinBank, Quiet.setReg]

theorem Quiet.resetLapEngineLaps {x} (h : Quiet s t) : Quiet s (t.resetLapEngineLaps x) := by
  grind [State.resetLapEngineLaps, Quiet.same, Quiet.tear, Quiet.scratchHalt]

theorem Quiet.resetTowerParts {x : Nat} (h : Quiet s t) : Quiet s (t.resetTowerParts x) := by
  unfold State.resetTowerParts
  exact (h.resetTests.same rfl rfl rfl).dropHeld.resetEngines.resetRelays.resetTowerRegs.keepBadLanes
    |>.clearLogic.clearLogic.resetTarget.forceGates

theorem Quiet.reloadMicrocode (h : Quiet s t) : Quiet s t.reloadMicrocode := h.of_eq rfl rfl rfl ⟨rfl, rfl, rfl⟩

theorem Quiet.resetSessions (h : Quiet s t) : Quiet s t.resetSessions := by
  grind [State.resetSessions, Quiet.same, Quiet.foldl, Quiet.clearReg, Quiet.freeSlot]

theorem Quiet.resetMemoryRegs {x} (h : Quiet s t) : Quiet s (t.resetMemoryRegs x) := by
  grind [State.resetMemoryRegs, Quiet.foldl, Quiet.clearBlock, Quiet.put]

theorem Quiet.resetPackageBlocks (h : Quiet s t) : Quiet s t.resetPackageBlocks := by
  unfold State.resetPackageBlocks
  exact h.loseHostChannel.put.clearBlock.loseSecurity.same rfl rfl rfl

end Sys2Proof.Machine
end

section
/-! Resets, their ends and the power-on reset: the parts of O58. -/

namespace Sys2Proof.Machine

variable {s t u : State} {e : Eng} {a : RefAnswer}

/-! ### Engines that a reset puts to rest -/

/-- A pass that puts engine `e` to rest at one of its elements leaves it at rest. -/
theorem Resting.foldl {α : Type} {f : State → α → State} {l : List α} {x : α} (hx : x ∈ l) (hq : ∀ t y, Quiet t (f t y))
    (hf : ∀ t, ((f t x).eng e).Resting) : ((l.foldl f s).eng e).Resting := by
  induction l generalizing s with
  | nil => simp at hx
  | cons y l ih =>
    by_cases hl : x ∈ l
    · exact ih hl
    · obtain rfl | hx := List.mem_cons.mp hx
      · exact (Quiet.foldl (s := f s x) (fun t y h => h.trans (hq t y)) .refl).rest e (hf s)
      · exact absurd hx hl

theorem resetEngine_rests : (((s.resetEngine e).clearSpads e).eng e).Resting := by
  rw [State.clearSpads, State.eng_onEng, State.resetEngine, State.eng_onEng]
  exact ⟨rfl, rfl, rfl⟩

theorem mem_enginesOf : e ∈ enginesOf (e.val / 4) := by
  simp [enginesOf, allEngines]

theorem resetEngines_rests : ((s.resetEngines (e.val / 4)).eng e).Resting :=
  Resting.foldl mem_enginesOf (fun _ _ => Quiet.refl.resetEngine.clearSpads) fun _ => resetEngine_rests

theorem resetTowerParts_rests : ((s.resetTowerParts (e.val / 4)).eng e).Resting := by
  have hafter {u : State} {t : Nat} : Quiet u
      (((((u.resetRelays t).resetTowerRegs t).keepBadLanes t).clearLogic (2 * t)).clearLogic (2 * t + 1) |>.resetTarget t).forceGates :=
    Quiet.refl.resetRelays.resetTowerRegs.keepBadLanes.clearLogic.clearLogic.resetTarget.forceGates
  unfold State.resetTowerParts
  exact hafter.rest e resetEngines_rests

theorem resetTowers_rests : (((List.range 4).foldl (fun s t => (s.resetTowerParts t).resetMemoryRegs t) s).eng e).Resting := by
  have he := e.isLt
  refine Resting.foldl (x := e.val / 4) (List.mem_range.mpr (by omega)) (fun _ _ => Quiet.refl.resetTowerParts.resetMemoryRegs) ?_
  exact fun t => (Quiet.refl.resetMemoryRegs).rest e resetTowerParts_rests

theorem Resting.with_ref {r : Referee} (h : (s.eng e).Resting) : (({ s with ref := r } : State).eng e).Resting := h

theorem packageReset_rests : (s.packageReset.eng e).Resting := by
  have hafter {u : State} : Quiet u (u.resetT0.resetPackageBlocks.resetSessions.reloadMicrocode.setReg .PKG_ENERGY [] 0) :=
    Quiet.refl.resetT0.resetPackageBlocks.resetSessions.reloadMicrocode.setReg
  unfold State.packageReset
  exact Resting.with_ref (hafter.rest e resetTowers_rests)

theorem packageReset_resets :
    s.packageReset.ref.resets = (List.finRange 4).map fun t => { tower := t, layer := none, waitsCommit := false } := rfl

theorem packageReset_inTowerReset (x : Tower) : s.packageReset.inTowerReset x = true := by
  rw [State.inTowerReset, packageReset_resets]
  simp [List.any_map]

/-! ### The power-on reset -/

/-- What the parts of a power-on reset leave as it stands when the state has been built. -/
structure BootKept (s t : State) : Prop where
  fab : t.fab = s.fab
  mem : t.mem = s.mem
  hostmem : t.hostmem = s.hostmem
  pending : t.pending = s.pending
  engines : t.engines = s.engines
  bootDone : t.ref.bootDone = s.ref.bootDone
  straps : t.ref.straps = s.ref.straps
  keys : t.ref.keys = s.ref.keys
  roster : t.ref.roster = s.ref.roster
  bb : t.ref.bb = s.ref.bb

theorem BootKept.refl : BootKept s s := ⟨rfl, rfl, rfl, rfl, rfl, rfl, rfl, rfl, rfl, rfl⟩

theorem BootKept.trans (h : BootKept s t) (k : BootKept t u) : BootKept s u :=
  ⟨k.fab.trans h.fab, k.mem.trans h.mem, k.hostmem.trans h.hostmem, k.pending.trans h.pending, k.engines.trans h.engines,
    k.bootDone.trans h.bootDone, k.straps.trans h.straps, k.keys.trans h.keys, k.roster.trans h.roster, k.bb.trans h.bb⟩

theorem BootKept.setReg {r : RegName} {ix : List Nat} {v : W64} : BootKept s (s.setReg r ix v) :=
  ⟨rfl, rfl, rfl, rfl, rfl, rfl, rfl, rfl, rfl, rfl⟩

theorem BootKept.put {f : Fld} {n : Nat} {ix : List Nat} : BootKept s (s.put f n ix) := .setReg

theorem BootKept.foldl {α : Type} {f : State → α → State} {l : List α} (h : ∀ t x, BootKept t (f t x)) :
    BootKept s (l.foldl f s) := by
  induction l generalizing s with
  | nil => exact .refl
  | cons x l ih => exact (h s x).trans ih

/-- The registers below the towers' hold their values. -/
def LowKept (s t : State) : Prop := ∀ r ix, r.key ix < 0x030001000000 → t.reg r ix = s.reg r ix

theorem LowKept.refl : LowKept s s := fun _ _ _ => rfl

theorem LowKept.trans (h : LowKept s t) (k : LowKept t u) : LowKept s u := fun r ix hr => (k r ix hr).trans (h r ix hr)

theorem RegName.place_le_key {r : RegName} {ix : List Nat} : r.place.1 ≤ r.key ix := by
  unfold RegName.key RegName.addr
  split <;> omega

theorem LowKept.setReg {r : RegName} {ix : List Nat} {v : W64} (hr : 0x030001000000 ≤ r.place.1) : LowKept s (s.setReg r ix v) := by
  intro r' ix' hk
  have hle := r.place_le_key (ix := ix)
  exact State.reg_setReg_of_key (by omega)

theorem LowKept.put {f : Fld} {n : Nat} {ix : List Nat} (hr : 0x030001000000 ≤ f.reg.place.1) : LowKept s (s.put f n ix) := .setReg hr

theorem LowKept.foldl {α : Type} {f : State → α → State} {l : List α} (h : ∀ t x, LowKept t (f t x)) :
    LowKept s (l.foldl f s) := by
  induction l generalizing s with
  | nil => exact .refl
  | cons x l ih => exact (h s x).trans ih

/-- A fused repair touches registers of towers, and what the repairs hold in the Referee. -/
structure FuseStep (s t : State) : Prop where
  kept : BootKept s t
  low : LowKept s t

theorem FuseStep.refl : FuseStep s s := ⟨.refl, .refl⟩

theorem FuseStep.setReg {r : RegName} {ix : List Nat} {v : W64} (h : FuseStep s t) (hr : 0x030001000000 ≤ r.place.1) :
    FuseStep s (t.setReg r ix v) := ⟨h.kept.trans .setReg, h.low.trans (.setReg hr)⟩

theorem FuseStep.put {f : Fld} {n : Nat} {ix : List Nat} (h : FuseStep s t) (hr : 0x030001000000 ≤ f.reg.place.1) :
    FuseStep s (t.put f n ix) := h.setReg hr

theorem FuseStep.foldl {α : Type} {f : State → α → State} {l : List α} (hf : ∀ t x, FuseStep s t → FuseStep s (f t x))
    (h : FuseStep s t) : FuseStep s (l.foldl f t) := by
  induction l generalizing t with
  | nil => exact h
  | cons x l ih => exact ih (hf _ _ h)

/-- Counts of replaced wires and lanes lost for good. -/
theorem FuseStep.repairs {a b c d : Sparse (BitVec 8)} {l : List Nat} (h : FuseStep s t) :
    FuseStep s { t with ref := { t.ref with wiresUsed := a, ctxWires := b, portWires := c, ctlWires := d, badLanes := l } } :=
  ⟨h.kept.trans ⟨rfl, rfl, rfl, rfl, rfl, rfl, rfl, rfl, rfl, rfl⟩, h.low⟩

theorem FuseStep.failDie {x : Nat} {b : Bool} (h : FuseStep s t) : FuseStep s (t.failDie x b) := by
  refine h.foldl fun _ _ h => h.setReg ?_
  cases b <;> decide

theorem FuseStep.layerRetired {x n : Nat} (h : FuseStep s t) : FuseStep s (t.layerRetired x n) := by
  have hor := h.put (f := F.LAYER_STAT.RETIRED) (n := t.fld F.LAYER_STAT.RETIRED [x] ||| 2 ^ n) (ix := [x]) (by decide)
  unfold State.layerRetired
  split
  · exact hor.failDie
  · exact hor.failDie
  · exact hor.failDie
  · exact hor.failDie
  · exact hor

theorem FuseStep.markLane {n : Nat} (h : FuseStep s t) : FuseStep s (t.markLane n) := (h.put (by decide)).put (by decide)

theorem FuseStep.badLane {n m : Nat} (h : FuseStep s t) :
    FuseStep s { t.markLane n with ref := { t.ref with badLanes := listAdd t.ref.badLanes m } } := by
  have hmark := h.markLane (n := n)
  have href : (t.markLane n).ref = t.ref := rfl
  rw [← href]
  exact hmark.repairs

theorem FuseStep.applyFused {x : Nat} {w : W64} (h : FuseStep s t) : FuseStep s (t.applyFused x w) := by
  have hfree := h.put (f := F.FUSE_CTRL.FREE) (n := t.fld F.FUSE_CTRL.FREE [x] - 1) (ix := [x]) (by decide)
  unfold State.applyFused
  revert hfree
  generalize t.put F.FUSE_CTRL.FREE (t.fld F.FUSE_CTRL.FREE [x] - 1) [x] = u
  intro hfree
  split
  · exact (hfree.put (by decide)).put (by decide)
  · exact hfree.repairs
  · exact ((hfree.put (by decide)).put (by decide)).put (by decide)
  · exact (((hfree.put (by decide)).put (by decide)).put (by decide)).put (by decide)
  · exact hfree.setReg (by decide)
  · exact hfree.repairs
  · exact hfree.repairs
  · exact hfree.repairs
  · exact hfree.put (by decide)
  · exact hfree.layerRetired
  · exact hfree.badLane
  · exact hfree

/-- The key store as it stood in `s` is put back. -/
theorem restoreKeys_reg {l : List (RegName × List Nat)} {r : RegName} {ix : List Nat} (h : (r, ix) ∈ l ∨ t.reg r ix = s.reg r ix)
    (hl : ∀ p ∈ l, p.1.valid p.2 = true) (hi : r.valid ix = true) :
    (l.foldl (fun t p => t.setReg p.1 p.2 (s.reg p.1 p.2)) t).reg r ix = s.reg r ix := by
  induction l generalizing t with
  | nil => exact h.resolve_left (by simp)
  | cons p l ih =>
    refine ih ?_ fun q hq => hl q (List.mem_cons_of_mem p hq)
    by_cases hp : (r, ix) = p
    · subst hp
      exact .inr State.reg_setReg
    · refine h.imp (fun h => (List.mem_cons.mp h).resolve_left hp) fun h => Eq.trans ?_ h
      have hv := hl p List.mem_cons_self
      by_cases hr : p.1 = r
      · subst hr
        exact State.reg_setReg_ix (fun he => hp (by rw [← he])) hv hi
      · exact State.reg_setReg_ne hr hv hi

theorem keptRegs_valid : ∀ p ∈ keptRegs, p.1.valid p.2 = true := by decide

/-- The empty state that keeps what lies outside the package, the fuses, the keys and the black box. -/
def State.bootBase (s : State) (p : Straps) : State :=
  { State.reset with
    hostmem := s.hostmem
    vault := { foreign := s.vault.foreign, stale := s.leftBehind ++ s.vault.stale }
    pads := s.pads
    free := s.free
    pending := s.pending
    ref := { State.reset.ref with
      straps := p
      keys := s.ref.keys
      roster := s.ref.roster
      fuseWords := s.ref.fuseWords
      fused := s.ref.fused
      bb := s.ref.bb
      sbState := startState p
      bringUp := startOrder p } }

/-- The straps sampled, with the fault of a reserved bank voltage. -/
def State.sampleStraps (s : State) (p : Straps) : State :=
  if bankvFault p then ((s.setReg .REF_STRAPS [] (strapsWord p)).put F.REF_STAT.BANKV_FAULT 1).orBits F.REF_STAT.ALERTS 32
  else s.setReg .REF_STRAPS [] (strapsWord p)

/-- A relay boot enables the ports. -/
def State.enablePorts (s : State) (p : Straps) : State :=
  if p.boot = 1 then (List.range 16).foldl (fun s k => s.put F.PORT_CTRL.EN 1 (portIx k)) s else s

def State.applyFuses (s : State) : State := s.ref.fused.foldl (fun s r => s.applyFused r.1 r.2) s

theorem powerOn_eq {p : Straps} : s.powerOn p =
    (((keptRegs.foldl (fun t r => t.setReg r.1 r.2 (s.reg r.1 r.2)) (s.bootBase p)).sampleStraps p).enablePorts p).applyFuses := rfl

theorem sampleStraps_kept {p : Straps} : BootKept s (s.sampleStraps p) := by
  unfold State.sampleStraps
  split
  · exact (BootKept.setReg.trans .put).trans .put
  · exact .setReg

theorem sampleStraps_reg {p : Straps} {r : RegName} {ix : List Nat} (h1 : r ≠ .REF_STRAPS) (h2 : r ≠ .REF_STAT)
    (hi : r.valid ix = true) : (s.sampleStraps p).reg r ix = s.reg r ix := by
  have hstraps : (s.setReg .REF_STRAPS [] (strapsWord p)).reg r ix = s.reg r ix := State.reg_setReg_ne h1.symm rfl hi
  unfold State.sampleStraps
  split
  · exact (State.reg_put_ne h2.symm rfl hi).trans ((State.reg_put_ne h2.symm rfl hi).trans hstraps)
  · exact hstraps

theorem enablePorts_step {p : Straps} : FuseStep s (s.enablePorts p) := by
  unfold State.enablePorts
  split
  · exact FuseStep.refl.foldl fun _ _ h => h.put (by decide)
  · exact .refl

theorem applyFuses_step : FuseStep s s.applyFuses := FuseStep.refl.foldl fun _ _ h => h.applyFused

theorem powerOn_kept {p : Straps} : BootKept (s.bootBase p) (s.powerOn p) := by
  rw [powerOn_eq]
  exact (((BootKept.foldl fun _ _ => .setReg).trans sampleStraps_kept).trans enablePorts_step.kept).trans applyFuses_step.kept

theorem powerOn_key {p : Straps} {r : RegName} {ix : List Nat} (h : (r, ix) ∈ keptRegs) (h1 : r ≠ .REF_STRAPS) (h2 : r ≠ .REF_STAT)
    (hk : r.key ix < 0x030001000000) : (s.powerOn p).reg r ix = s.reg r ix := by
  have hi := keptRegs_valid _ h
  rw [powerOn_eq, applyFuses_step.low r ix hk, enablePorts_step.low r ix hk, sampleStraps_reg h1 h2 hi]
  exact restoreKeys_reg (.inl h) keptRegs_valid hi

theorem cred_kept : ∀ i : Fin 12, (RegName.CRED, [i.val]) ∈ keptRegs ∧ RegName.CRED.key [i.val] < 0x030001000000 := by decide

theorem roster_kept : ∀ i : Fin 64, (RegName.ROSTER, [i.val]) ∈ keptRegs ∧ RegName.ROSTER.key [i.val] < 0x030001000000 := by decide

/-! ### The replica (R374) -/

theorem failover_alone (h : s.flag F.REF_STAT.REPLICA_OK = false) :
    s.failover = { s with ref := { s.ref with bothFailed := true } } := by
  rw [State.failover, h]
  rfl

/-- The registers as a failover leaves them. -/
def State.failedOver (s : State) : State :=
  ((((s.put F.REF_STAT.ACTIVE (1 - s.fld F.REF_STAT.ACTIVE)).put F.REF_STAT.REPLICA_OK 0).count F.REF_STAT.FAILOVERS).orBits
    F.REF_STAT.ALERTS 1)

theorem failover_regs (h : s.flag F.REF_STAT.REPLICA_OK = true) : s.failover.regs = s.failedOver.regs := by
  rw [State.failover, h]
  rfl

theorem failover_rest (h : s.flag F.REF_STAT.REPLICA_OK = true) : s.failover.ref.restartDue = true ∧
    s.failover.ref.bothFailed = s.ref.bothFailed ∧ s.failover.mem = s.mem ∧ s.failover.standin = s.standin := by
  rw [State.failover, h]
  exact ⟨rfl, rfl, rfl, rfl⟩

theorem fld_of_regs {f : Fld} {ix : List Nat} (h : t.regs = s.regs) : t.fld f ix = s.fld f ix := by
  rw [State.fld, State.reg, h, ← State.reg, ← State.fld]

theorem failedOver_active : s.failedOver.fld F.REF_STAT.ACTIVE = 1 - s.fld F.REF_STAT.ACTIVE := by
  unfold State.failedOver State.orBits State.count
  rw [State.fld_put_field (f := F.REF_STAT.ALERTS) (f' := F.REF_STAT.ACTIVE) rfl (by decide) (by decide) (by decide),
    State.fld_put_field (f := F.REF_STAT.FAILOVERS) (f' := F.REF_STAT.ACTIVE) rfl (by decide) (by decide) (by decide),
    State.fld_put_field (f := F.REF_STAT.REPLICA_OK) (f' := F.REF_STAT.ACTIVE) rfl (by decide) (by decide) (by decide),
    State.fld_put (f := F.REF_STAT.ACTIVE) (by decide) (by decide)]
  exact Nat.mod_eq_of_lt (lt_of_le_of_lt (Nat.sub_le _ _) (by decide))

theorem failedOver_replicaOk : s.failedOver.fld F.REF_STAT.REPLICA_OK = 0 := by
  unfold State.failedOver State.orBits State.count
  rw [State.fld_put_field (f := F.REF_STAT.ALERTS) (f' := F.REF_STAT.REPLICA_OK) rfl (by decide) (by decide) (by decide),
    State.fld_put_field (f := F.REF_STAT.FAILOVERS) (f' := F.REF_STAT.REPLICA_OK) rfl (by decide) (by decide) (by decide),
    State.fld_put (f := F.REF_STAT.REPLICA_OK) (by decide) (by decide)]
  rfl

theorem failedOver_alerts : (s.failedOver.fld F.REF_STAT.ALERTS).testBit 0 = true := by
  unfold State.failedOver State.orBits
  rw [State.fld_put (f := F.REF_STAT.ALERTS) (by decide) (by decide), Nat.testBit_mod_two_pow, Nat.testBit_or]
  simp [F.REF_STAT.ALERTS]

theorem failedOver_keeps : KeepsRegs s s.failedOver [.REF_STAT] := by
  have hput {u : State} {f : Fld} {n : Nat} (hf : f.reg = .REF_STAT) : KeepsRegs u (u.put f n) [.REF_STAT] :=
    .put (by simp [hf]) (by rw [hf]; rfl)
  exact (((hput rfl).trans (hput rfl)).trans (hput rfl)).trans (hput rfl)

/-! ### The answers of requests that waited for a reset -/

theorem FabRef.runs (h : FabRef s t) : s.ref.SameRuns t.ref := by
  rw [h.ref]
  exact .refl

theorem FabRef.onEng {f : Engine → Engine} : FabRef s (s.onEng e f) := ⟨rfl, rfl⟩

theorem FabRef.spend : FabRef s s.spend := ⟨rfl, rfl⟩

theorem FabRef.endProgram {kind cause resp value : Nat} {pc : W64} : FabRef s (s.endProgram e kind cause resp value pc) := by
  have hpost {item : Item} : FabRef s (s.postCompletion e item) := by
    unfold State.postCompletion
    dsimp only
    split
    · exact .refl
    · split
      · exact FabRef.setCredits.trans .appendItem
      · exact .errRecord
  exact hpost.trans ⟨rfl, rfl⟩

theorem FabRef.takeTrap {c : Trap} {resp : Byte} {i : Bool} {tval tpc : W64} : FabRef s (s.takeTrap e c resp i tval tpc) := by
  have htally : FabRef s (s.tally (unitOfEngine e) 0x105) := .of_onlyEvents .tallyEng
  unfold State.takeTrap
  dsimp only
  split
  · exact (htally.trans .onEng).trans .endProgram
  · exact (htally.trans .onEng).trans .onEng

theorem FabRef.storeTrap {st : Store} : FabRef s (s.storeTrap e st) := by
  unfold State.storeTrap
  dsimp only
  split
  · exact .refl
  · exact .onEng
  · exact .takeTrap
  · exact .takeTrap
  · exact .takeTrap

theorem FabRef.deliver : FabRef s (s.deliver e) := by
  unfold State.deliver
  dsimp only
  split
  · exact .refl
  · split
    · exact FabRef.onEng.trans .storeTrap
    · split
      · unfold State.takeNmi
        dsimp only
        split
        · exact (FabRef.spend.trans .onEng).trans .takeTrap
        · exact (FabRef.spend.trans .onEng).trans .takeTrap
      · split
        · exact FabRef.onEng.trans .takeTrap
        · exact .refl

theorem FabRef.advance : FabRef s (s.advance e) := by
  unfold State.advance
  split
  · exact .takeTrap
  · exact .onEng

theorem FabRef.answerTell {rd : Gpr} : FabRef s (s.answerTell e rd a) := by
  have hretire {u : State} {n : W64} : FabRef u (u.retire e n) :=
    ((FabRef.of_onlyEvents .tallyEng).trans .onEng).trans .advance
  unfold State.answerTell
  split
  · exact FabRef.spend.trans .takeTrap
  · exact ((FabRef.spend.trans .onEng).trans hretire).trans .deliver

theorem mailboxAnswer_ref {bs : List Byte} {k : Fin 4} {l : List Nat} : (l.foldl (fun s i =>
    s.setReg .MBX_ANS [k.val, i] (BitVec.ofNat 64 (joinBytes ((bs.drop (8 * i)).take 8)))) s).ref = s.ref :=
  (FabRef.foldl _ fun _ _ => .setReg).ref

theorem overtake_runs : s.ref.SameRuns (s.overtake a).2.ref := by
  unfold State.overtake
  split
  · exact ⟨rfl, rfl, rfl⟩
  · exact .refl

/-- The delivery of an answer, once a takeover has been looked at, begins and ends no reset. -/
theorem sendAnswer_runs : s.ref.SameRuns (s.sendAnswer a).ref := by
  refine (overtake_runs (a := a)).trans ?_
  unfold State.sendAnswer
  generalize s.overtake a = p
  obtain ⟨b, u⟩ := p
  dsimp only
  split
  · split
    · exact .refl
    · rw [mailboxAnswer_ref]
      exact ⟨rfl, rfl, rfl⟩
  · exact ⟨rfl, rfl, rfl⟩
  · exact ⟨rfl, rfl, rfl⟩
  · split
    · split
      · exact .refl
      · exact FabRef.answerTell.runs
    · exact ⟨rfl, rfl, rfl⟩

theorem answerWaits_resets {ends : W64 → Bool} : (s.answerWaits ends).ref.resets = s.ref.resets ∧
    (s.answerWaits ends).ref.resetWaits = s.ref.resetWaits.filter (fun w => !ends w.2.2) ∧
      (s.answerWaits ends).ref.packageBusy = s.ref.packageBusy := by
  have hfold {l : List (RPath × BitVec 16 × W64)} {u : State} : u.ref.SameRuns
      (l.foldl (fun s w => s.sendAnswer (replyAnswer w.1 5 w.2.1 w.2.2 s.done)) u).ref := by
    induction l generalizing u with
    | nil => exact .refl
    | cons w l ih => exact sendAnswer_runs.trans ih
  unfold State.answerWaits
  exact ⟨hfold.resets, hfold.resetWaits, hfold.packageBusy⟩

/-! ### The end of a reset (R387 to R389) -/

theorem Quiet.resetLap {x : Nat} (h : Quiet s t) : Quiet s (t.resetLap x) := by
  unfold State.resetLap
  exact Quiet.ite (fun _ => h.tear) fun _ => Quiet.ite (fun _ => h.scratchHalt) fun _ => h.scratch

theorem Quiet.resetGroupTests {x : Nat} (h : Quiet s t) : Quiet s (t.resetGroupTests x) := h.foldl fun _ _ h => h.resetTest

theorem Quiet.flushDie {x : Nat} (h : Quiet s t) : Quiet s (t.flushDie x) := h.of_eq rfl rfl rfl .refl

theorem Quiet.layerReset {x n : Nat} (h : Quiet s t) : Quiet s (t.layerReset x n) := by
  have hlap : Quiet s (if t.fab.committing then t.tear x else if t.lapNeeds x n then t.resetLap x else t) :=
    Quiet.ite (fun _ => h.tear) fun _ => Quiet.ite (fun _ => h.resetLap) fun _ => h
  have hheld := hlap.dropHeld (ds := layerDomains x n)
  unfold State.layerReset
  dsimp only
  generalize (if t.fab.committing then t.tear x else if t.lapNeeds x n then t.resetLap x else t).dropHeld (layerDomains x n) = u at hheld
  split
  · exact (hheld.same rfl rfl rfl).resetGroupTests
  · exact hheld.flushDie.resetLoad
  · exact hheld.flushDie.resetLoad
  · exact hheld.clearLogic
  · exact hheld.clearLogic

/-- A reset that takes hold stays in the list, no longer waiting. -/
theorem proceedReset_runs {x : Tower} : (s.proceedReset x).ref.resets.length = s.ref.resets.length ∧
    (s.proceedReset x).ref.resetWaits = s.ref.resetWaits := by
  have hlayer {u : State} {n : Nat} := (Quiet.refl (s := u)).layerReset (x := x.val) (n := n) |>.runs
  unfold State.proceedReset
  split
  · split
    · exact ⟨rfl, rfl⟩
    · split
      · exact ⟨(congrArg List.length hlayer.resets).trans (List.length_map _), hlayer.resetWaits⟩
      · exact ⟨List.length_map _, rfl⟩
  · exact ⟨rfl, rfl⟩

theorem endReset_none {x : Tower} (h : (s.ref.resets.find? fun r => r.tower == x && !r.waitsCommit) = none) : s.endReset x = s := by
  rw [State.endReset, h]

theorem endReset_layer {x : Tower} {r : ResetRun} {n : Nat} (h : (s.ref.resets.find? fun r => r.tower == x && !r.waitsCommit) = some r)
    (hn : r.layer = some n) : (s.endReset x).ref.resetWaits = s.ref.resetWaits.filter (fun w => !waitEnds x (some n) w.2.2) ∧
      (s.endReset x).ref.resets.length + 1 = s.ref.resets.length := by
  have hmem := List.mem_of_find?_eq_some h
  have hlen : (s.ref.resets.erase r).length + 1 = s.ref.resets.length := by
    rw [List.length_erase_of_mem hmem]
    exact Nat.sub_add_cancel (List.length_pos_of_mem hmem)
  obtain ⟨h1, h2, -⟩ := answerWaits_resets (s := s.dropRun r) (ends := waitEnds x.val (some n))
  obtain ⟨h3, h4⟩ := proceedReset_runs (s := (s.dropRun r).answerWaits (waitEnds x.val (some n))) (x := x)
  rw [State.endReset, h]
  dsimp only
  rw [hn]
  dsimp only
  split
  · exact ⟨h2, by rw [h1]; exact hlen⟩
  · exact ⟨h4.trans h2, by rw [h3, h1]; exact hlen⟩

theorem FabRef.startLoop {d : ClkDom} : FabRef s (s.startLoop d) := by
  have hput {u : State} {f : Fld} {n : Nat} : FabRef u (u.clkPut d f n) := by
    unfold State.clkPut
    split
    · exact .setReg
    · exact .setReg
  unfold State.startLoop
  split
  · exact .refl
  · exact ((hput.trans hput).trans hput).trans hput

theorem FabRef.takePinMap {b : Nat} : FabRef s (s.takePinMap b) := by
  have hswitch {u : State} {p : Nat} : FabRef u (u.switchPin p) := by
    unfold State.switchPin
    split
    · exact .refl
    · exact ⟨rfl, rfl⟩
  unfold State.takePinMap
  split
  · exact .refl
  · refine FabRef.foldl _ fun _ _ => ?_
    dsimp only
    split
    · unfold State.setPinFunc
      split
      · exact .refl
      · exact (FabRef.put.trans .put).trans hswitch
    · exact .refl

/-- What the Referee does when a tower is released begins and ends no reset. -/
theorem releaseTower_runs {x : Nat} : s.ref.SameRuns (s.releaseTower x).ref := by
  have hengines : FabRef s ((enginesOf x).foldl (fun s e => s.loadResident e) s) := .foldl _ fun _ _ => ⟨rfl, rfl⟩
  have hloops {u : State} : FabRef u ((bringUpOrder x).foldl (fun s d =>
      if s.pd d = 0 then s else (loopsIn d).foldl (fun s c => s.startLoop c) s) u) := by
    refine .foldl _ fun _ _ => ?_
    split
    · exact .refl
    · exact .foldl _ fun _ _ => .startLoop
  have hmap := (hengines.trans hloops).trans (.takePinMap (b := x))
  unfold State.releaseTower
  dsimp only
  split
  · exact hmap.runs.trans (Quiet.refl.unforceGates).runs
  · exact hmap.runs

theorem endReset_tower {x : Tower} {r : ResetRun} (h : (s.ref.resets.find? fun r => r.tower == x && !r.waitsCommit) = some r)
    (hn : r.layer = none) : (s.endReset x).ref.resets = s.ref.resets.erase r ∧
      ((∀ y ∈ s.ref.resets.erase r, y.layer ≠ none) → (s.endReset x).ref.packageBusy = false) := by
  have hrelease := releaseTower_runs (s := s.dropRun r) (x := x.val)
  obtain ⟨h1, -, -⟩ := answerWaits_resets (s := (s.dropRun r).releaseTower x.val) (ends := waitEnds x.val none)
  have hresets : (((s.dropRun r).releaseTower x.val).answerWaits (waitEnds x.val none)).ref.resets = s.ref.resets.erase r :=
    h1.trans hrelease.resets
  rw [State.endReset, h]
  dsimp only
  rw [hn]
  dsimp only
  split
  next hany =>
    refine ⟨hresets, fun hall => ?_⟩
    obtain ⟨y, hy, hl⟩ := List.any_eq_true.mp hany
    rw [hresets] at hy
    exact absurd (eq_of_beq hl) (hall y hy)
  next =>
    obtain ⟨h4, -, h6⟩ := answerWaits_resets (s := { ((s.dropRun r).releaseTower x.val).answerWaits (waitEnds x.val none) with
      ref := { (((s.dropRun r).releaseTower x.val).answerWaits (waitEnds x.val none)).ref with packageBusy := false } })
      (ends := fun a => resetScope a == 1)
    exact ⟨h4.trans hresets, fun _ => h6⟩

end Sys2Proof.Machine
end

section
/-! Resets from pins and their ends, the replica, the management port and boot images (R370 to R389): O58. -/

namespace Sys2Proof.Machine

variable {s t u : State}

theorem resetN_completes : Completes State.settleV .resetN s (fun u =>
    u.ref.packageBusy = true ∧ (∀ t : Tower, u.inTowerReset t = true) ∧
      ∀ e : Eng, (u.eng e).state = .idle ∧ (u.eng e).imem = []) := by
  refine ⟨(s.recordReset 1 0).packageReset, rfl, rfl, packageReset_inTowerReset, fun e => ?_⟩
  obtain ⟨hstate, himem, -⟩ := packageReset_rests (s := s.recordReset 1 0) (e := e)
  exact ⟨hstate, himem⟩

theorem bootBase_idle {p : Straps} {e : Eng} : ((s.bootBase p).eng e).state = .idle :=
  congrArg Engine.state (reset_eng e)

theorem powerOnReset_completes {p : Straps} : Completes id (.powerOnReset p) s (fun u => u.lapsRun = false ∧ u.mem = [] ∧
    u.ref.bootDone = false ∧ u.ref.straps = p ∧ u.hostmem = s.hostmem ∧ u.pending = s.pending ∧ u.ref.keys = s.ref.keys ∧
    u.ref.roster = s.ref.roster ∧ (∀ i : Fin 12, u.reg .CRED [i] = s.reg .CRED [i]) ∧
    (∀ i : Fin 64, u.reg .ROSTER [i] = s.reg .ROSTER [i]) ∧ (∀ e : Eng, (u.eng e).state = .idle) ∧
    ∃ r, u.ref.bb = s.ref.bb ++ [r] ∧ r.cls = 1 ∧ r.pinned = true) := by
  have hk := powerOn_kept (s := s) (p := p)
  have hregs {r : RegName} {ix : List Nat} : ((s.powerOn p).recordAuto 1 0 ((s.powerOn p).reg .REF_STRAPS) true).reg r ix =
      (s.powerOn p).reg r ix := rfl
  refine ⟨(s.powerOn p).recordAuto 1 0 ((s.powerOn p).reg .REF_STRAPS) true, rfl, ?_, hk.mem, hk.bootDone, hk.straps, hk.hostmem,
    hk.pending, hk.keys, hk.roster, fun i => ?_, fun i => ?_, fun e => ?_, _, congrArg (· ++ [_]) hk.bb, rfl, rfl⟩
  · have hfab : ((s.powerOn p).recordAuto 1 0 ((s.powerOn p).reg .REF_STRAPS) true).fab = State.reset.fab := hk.fab
    rw [State.lapsRun, hfab]
    rfl
  · obtain ⟨hmem, hlow⟩ := cred_kept i
    exact hregs.trans (powerOn_key hmem (by decide) (by decide) hlow)
  · obtain ⟨hmem, hlow⟩ := roster_kept i
    exact hregs.trans (powerOn_key hmem (by decide) (by decide) hlow)
  · have heng : ((s.powerOn p).recordAuto 1 0 ((s.powerOn p).reg .REF_STRAPS) true).engines = (s.bootBase p).engines := hk.engines
    rw [State.eng, heng]
    exact bootBase_idle

theorem heartbeatTimeout_completes (h : s.flag F.REF_STAT.REPLICA_OK = true) : Completes id .heartbeatTimeout s fun u =>
    u.fld F.REF_STAT.ACTIVE = 1 - s.fld F.REF_STAT.ACTIVE ∧ u.flag F.REF_STAT.REPLICA_OK = false ∧
      (u.fld F.REF_STAT.ALERTS).testBit 0 = true ∧ u.ref.restartDue = true ∧ u.ref.bothFailed = s.ref.bothFailed ∧
      Keeps s u [.REF_STAT, .BB_STAT] := by
  have hregs := failover_regs h
  obtain ⟨hdue, hboth, hmem, hstandin⟩ := failover_rest h
  refine ⟨s.failover, rfl, (fld_of_regs hregs).trans failedOver_active, ?_, ?_, hdue, hboth, fun r ix hi hr _ => ?_, hmem, hstandin⟩
  · simp [State.flag, fld_of_regs hregs, failedOver_replicaOk]
  · rw [fld_of_regs hregs]
    exact failedOver_alerts
  · rw [State.reg, hregs, ← State.reg]
    exact failedOver_keeps r ix hi fun hm => hr (by simp [List.mem_singleton.mp hm])

theorem alertsClear_bit {v : BitVec 16} {i : Nat} (hi : i < 6) :
    ((s.put F.REF_STAT.ALERTS (s.fld F.REF_STAT.ALERTS &&& (0x3F ^^^ (v.toNat % 64)))).fld F.REF_STAT.ALERTS).testBit i =
      ((s.fld F.REF_STAT.ALERTS).testBit i && !v.getLsbD i) := by
  have hmask : (0x3F : Nat).testBit i = true := by
    rw [show (0x3F : Nat) = 2 ^ 6 - 1 from rfl, Nat.testBit_two_pow_sub_one]
    exact decide_eq_true hi
  rw [State.fld_put (f := F.REF_STAT.ALERTS) (by decide) (by decide), Nat.testBit_mod_two_pow, Nat.testBit_and, Nat.testBit_xor, hmask,
    show (64 : Nat) = 2 ^ 6 from rfl, Nat.testBit_mod_two_pow]
  simp [F.REF_STAT.ALERTS, hi, BitVec.getLsbD]

theorem smbusRead_up {bs : List Byte} (h : s.ref.bothFailed = false) :
    s.smbusRead bs = { s with ref := { s.ref with smbusOut := bs } } := by
  rw [State.smbusRead, h]
  rfl

theorem smbusRead_down {bs : List Byte} (h : s.ref.bothFailed = true) : s.smbusRead bs = s := by
  rw [State.smbusRead, h]
  rfl

theorem layerResetProceed_waits {x : Tower} {layer : Fin 6} {r : ResetRun} (h : (s.ref.resets.find? fun r => r.tower == x) = some r)
    (hw : r.waitsCommit = true) (hl : r.layer = some layer.val) :
    execLayerResetProceed x layer s = .next (s.proceedReset x).settleV := by
  rw [execLayerResetProceed, h]
  exact if_pos (by simp [hw, hl])

theorem layerResetProceed_not {x : Tower} {layer : Fin 6} (h : (s.ref.resets.find? fun r => r.tower == x) = none ∨
    ∀ r, (s.ref.resets.find? fun r => r.tower == x) = some r → r.waitsCommit = false ∨ r.layer ≠ some layer.val) :
    execLayerResetProceed x layer s = .next s := by
  unfold execLayerResetProceed
  split
  next r heq =>
    obtain hn | hr := h
    · rw [hn] at heq
      exact absurd heq (by simp)
    · refine if_neg fun hc => ?_
      rw [Bool.and_eq_true, beq_iff_eq] at hc
      obtain hw | hl := hr r heq
      · rw [hw] at hc
        exact absurd hc.1 (by decide)
      · exact hl hc.2
  next => rfl

/-- Settles O58: a reset's parts leave engines at rest and the list of resets alone, and a power-on reset builds its state anew. -/
theorem resetsAndReplica : Obligations.ResetsAndReplica := by
  unfold Obligations.ResetsAndReplica
  intro s x layer straps ok v bytes up port goes first held fetching restarted request
  refine ⟨resetN_completes, powerOnReset_completes, fun hn => ?_, fun r n hr hl => ?_, fun r hr hl => ?_, fun r hr hw hl => ?_,
    fun h => ?_, fun h => ?_, heartbeatTimeout_completes, fun h => ?_, fun h => ?_, fun h => ⟨?_, ?_, fun i hi => ?_, ?_, ?_, ?_⟩,
    fun h => ⟨?_, ?_, ?_, ?_, ?_, ?_⟩, execBootImageFetched_none, fun a ha => ⟨fun bs u hf => ?_, fun r bs u hr hf => ?_⟩⟩
  · exact congrArg (fun u => Host.Outcome.next (State.settleV u)) (endReset_none hn)
  · exact ⟨s.endReset x, rfl, endReset_layer hr hl⟩
  · exact ⟨s.endReset x, rfl, endReset_tower hr hl⟩
  · exact layerResetProceed_waits hr hw hl
  · exact layerResetProceed_not h
  · exact congrArg Host.Outcome.next (failover_alone h)
  · exact if_pos (by rw [h]; rfl)
  · exact if_neg (by rw [h]; decide)
  · exact congrArg Host.Outcome.next (smbusRead_up h)
  · exact congrArg Host.Outcome.next (smbusRead_up h)
  · exact ⟨_, if_neg (by rw [h]; decide), alertsClear_bit hi⟩
  · exact if_neg (by rw [h]; decide)
  · exact if_neg (by rw [h]; decide)
  · refine (if_neg (by rw [h]; decide)).trans (congrArg Host.Outcome.next ?_)
    exact smbusRead_up h
  · exact congrArg Host.Outcome.next (smbusRead_down h)
  · exact congrArg Host.Outcome.next (smbusRead_down h)
  · exact if_pos h
  · exact if_pos h
  · exact if_pos h
  · exact if_pos h
  · exact execBootImageFetched_ok ha hf
  · exact execBootImageFetched_fails ha hf hr

end Sys2Proof.Machine
end
